-- ==== Sys2Proof/Word.lean ====
section
/-!
DEFINITION. The word types of the ZX960 and the one sparse-map type that holds everything the part keys by
number: register pool words, memory bytes, handles, barrier instances. R9 gives the bit numbering (bit 0 is
the least significant), R28 the 64-bit register words.
-/

namespace Sys2Proof

/-- A register word: 64 bits (R28). -/
abbrev Word := BitVec 64

/-- A byte of memory (R39). -/
abbrev Byte := BitVec 8

/-- A 64-byte record: one vector register, one message, one engine command, one carousel record (R31, R207).
Byte `k` of the record is bits `8k+7 : 8k`. -/
abbrev Rec := BitVec 512

/-- A sparse map from numbers to values: strictly rising keys, no entry equal to the default value. The
operations and the canonical form are in `Machine/Sparse.lean`. -/
abbrev Sp (α : Type) := List (Nat × α)

end Sys2Proof
end

