-- ==== Sys2Proof/Syntax.lean ====
section
/-!
DEFINITION. The whole instruction set as one inductive: one constructor for every row of the opcode table.
281 rows are 32-bit words (R45, R46) and carry the word's fields; bit 31 (P) belongs to the pair that holds the
word (R34, R35) and is no field of the instruction. The other 99 rows are the part's steps that no word encodes
(a reply, a segment call, an engine's step, a host command): they carry what the step is about.
-/

namespace Sys2Proof

/-- A message: a header word, seven payload words, and what a LAUNCH message carries beside its 64 bytes: the launch
tag and the record's NTASK (R88, R91, R113). -/
structure Message where
  hdr   : Word
  body  : List Word
  tag   : Word
  ntask : Nat
  deriving DecidableEq, Repr

/-- An entry of a scratchpad port's trace ring (R257): the cycle, the source core and slot, the atom's place in the
scratchpad, and the kind: 0 store, 1 AMO, 2 engine write. -/
structure TraceEntry where
  stamp : BitVec 48
  score : BitVec 12
  sslot : BitVec 4
  atom  : BitVec 14
  kind  : BitVec 2
  deriving DecidableEq, Repr

/-- A launch record as a die's principal consumed it in fixed mode (R299): the die, the number of the queue and the
record's place in it, which its tag names (R88), and its sixteen words. -/
structure LogRecord where
  die    : Nat
  number : Nat
  r      : Nat
  words  : List Word
  deriving DecidableEq, Repr

/-- What a replay is given of a fixed-mode run's log (R257, R299): the drained trace entries, each with the core of its
port, in the logged order; whether the log is marked LOST; the launch records as consumed; the class-0 messages with
their cycles; and the shape of the run: its cores, its tracks and its packages. -/
structure ReplayLog where
  entries  : List (Nat × TraceEntry)
  lost     : Bool
  records  : List LogRecord := []
  messages : List (Nat × Message) := []
  shape    : List Nat × List Nat × Nat := ([], [], 1)
  deriving DecidableEq, Repr

/-- What the pod configuration names for a package (R8, R295, R296, R300): its checkpoint buddy, the power domains of both,
the region that it reserves in its own HBM for the package whose buddy it is (first address and bytes), and the bytes
that its own buddy reserves for it; the partition secret; for each of its ports the generations of the link's two ends;
the port through which a flit to a package leaves; and for each other package of the partition the partition's dies there
(R374). -/
structure PodConfig where
  buddy     : Nat := 1
  domain    : Nat := 0
  buddyDom  : Nat := 1
  region    : Nat × Nat := (0, 0)
  buddyRoom : Nat := 2 ^ 39
  secret    : Nat := 0
  ports     : List (Nat × Nat) := []
  routes    : List (Nat × Nat) := []
  members   : List (Nat × List Nat) := []
  deriving DecidableEq, Repr

/-- What a partition configuration names when firmware creates a context (R105, R106, R110, R144, R226, R292,
R297). -/
structure CtxConfig where
  /-- partition cores, CORE numbers in ascending order (R105) -/
  cores     : List Nat
  /-- carousel tracks the context holds (R150) -/
  tracks    : List Nat
  /-- HBM stacks of the partition (R230) -/
  hbmStacks : List Nat
  /-- device physical address of the level-4 page table (R226) -/
  root      : Nat
  /-- the fixed-mode attribute (R297) -/
  fixed     : Bool
  /-- the quantum that BELL starts with, 0 if none (R144) -/
  quantum   : BitVec 48
  /-- the rotation table the principal applies, sixteen entries (R106) -/
  rotTab    : List (BitVec 16)
  /-- the rotation policy the principal applies (R17, R106) -/
  rotPol    : BitVec 1
  /-- vector-table entries 0xF0 to 0xFF as firmware writes them (R144) -/
  fwVectors : List (Nat × Word)
  /-- address of the command line (R292) -/
  cmdLine   : Nat
  /-- address of the event ring (R294) -/
  eventRing : Nat
  /-- packages in the pod partition (R96) -/
  packages  : Nat
  /-- the log that the context replays, if it is started as a replay (R257, R299) -/
  replay    : Option ReplayLog := none
  /-- what the pod configuration names for this package (R300) -/
  pod       : PodConfig := {}
  /-- virtual die to physical die (R290) -/
  dieMap    : List Nat := [0, 1, 2, 3, 4, 5, 6, 7]
  /-- the device physical address from which firmware writes the replay log, if the context has one (R299) -/
  logBase   : Option Nat := none
  deriving DecidableEq, Repr

/-- What a participant of another package brings to a collective (R347): its rank, its record, and the data its
record names, which only that package holds. -/
structure RemoteRank where
  rank  : Nat
  recd  : Rec
  /-- the group list it read -/
  group : List (BitVec 16)
  /-- its input elements (AREDUCE, RSCATTER, AGATHER), as bytes -/
  input : List Byte
  /-- for A2AV, the block of bytes it sends to each rank -/
  sends : List (List Byte)
  /-- it has met an engine fault of its own (R350) -/
  failed : Bool
  deriving DecidableEq, Repr

/-- A flit (R295): its counter, type and packages, and its tag and encrypted payload as they travel; and, since the spec does
not lay the payload out, what it holds: the memory it writes once accepted, and for a barrier flit the pod barrier at which
it arrives. -/
structure Flit where
  ctr      : Nat
  type     : BitVec 8
  dpkg     : Nat
  spkg     : Nat
  payload  : List (Nat × Byte)
  barrier  : Option Nat := none
  tag      : BitVec 128 := 0
  cipher   : List Byte := List.replicate 224 0
  deriving DecidableEq, Repr

/-- The modes of the host link, highest first (R291). -/
inductive LinkMode where
  | cxl31 | cxl30 | cxl20 | pcie6 | pcie5
  deriving DecidableEq, Repr

/-- A firmware image as the boot ROM judges it (R303): whether its SLH-DSA signature verifies, its version, and
its digest. -/
structure FirmwareImage where
  verifies : Bool
  version  : Nat
  digest   : Nat
  deriving DecidableEq, Repr

/-- A loaded section of an image (R54): the object file it comes from, its name, flags and alignment, the virtual address
it is linked at, and its bytes. -/
structure Section where
  file  : String
  name  : String
  alloc : Bool
  write : Bool
  exec  : Bool
  align : Nat
  addr  : Nat
  bytes : List Byte
  deriving DecidableEq, Repr

/-- The types of an image's symbols (R54): STT_FUNC, STT_NOTYPE, and any other. -/
inductive SymbolKind where
  | func | noType | other
  deriving DecidableEq, Repr

/-- The binding of a symbol (R54): STB_GLOBAL, STB_LOCAL, or another. -/
inductive SymbolBind where
  | global
  | local_
  | other
  deriving DecidableEq, Repr

/-- A symbol of an image (R54): the offset of its name in .strtab, its binding, its type and st_size, and its value if it is
defined. -/
structure Symbol where
  name  : Nat
  bind  : SymbolBind
  kind  : SymbolKind
  size  : Nat
  value : Option Nat
  deriving DecidableEq, Repr

/-- A relocation of an image (R54, R57): whether it stands in an SHT_RELA section, its type number, its symbol by index, the
addend, and its site: the section by index and the offset in it. -/
structure Reloc where
  rela   : Bool
  type   : Nat
  symbol : Nat
  addend : Int
  sect   : Nat
  off    : Nat
  deriving DecidableEq, Repr

/-- What a line of didex's report says of a relocation (R58): its symbol is undefined, its type is none of R57, its value
needs more bits than its field has, or its displacement is no multiple of 8, with the remainder. -/
inductive LoadWhy where
  | undefined
  | unknownType
  | needs (value : Int) (bits : Nat) (have_ : Nat)
  | misaligned (rem : Nat)
  deriving DecidableEq, Repr

/-- A line of didex's report (R58): the relocation type, the symbol's name, the site as section and offset, the object
file, and what is wrong. -/
structure LoadLine where
  type   : Nat
  symbol : List Byte
  sect   : Nat
  off    : Nat
  file   : String
  why    : LoadWhy
  deriving DecidableEq, Repr

/-- An image as didex is given it (R53 to R58): the header values of R53, the sections in the order of the objects, .strtab,
the symbols and the relocations. -/
structure Image where
  eiClass   : Nat
  eiData    : Nat
  eiVersion : Nat
  version   : Nat
  eType     : Nat
  machine   : Nat
  flags     : Nat
  sections  : List Section
  strtab    : List Byte
  symbols   : List Symbol
  relocs    : List Reloc
  /-- the SHAKE256 digest of the image (R306) -/
  digest    : Nat
  deriving DecidableEq, Repr

/-- One step of the part: a word of either opcode map, or one of the steps that no word encodes. -/
inductive Instr where
  /-- NOP (R83): Does nothing. -/
  | nop
  /-- END (R84): Waits for the thread's relaxed accesses to complete, then ends the thread, frees its slot and window, and discards the mailbox entries addressed to the slot. -/
  | endThread
  /-- YIELD (R85): Retires and makes the slot ineligible for the next 16 cycles. -/
  | yield
  /-- SWTRAP (R86): Takes a synchronous SWTRAP trap with TVAL set to n. -/
  | swtrap (n : BitVec 20)
  /-- RETT (R87): Sends the thread to the pair at TPC and resumes at the word that TPAIR names; a parallel pair issues again whole. -/
  | rett
  /-- LINEUP (R88): Parks the thread until its launch peers reach the same LINEUP or 4,096 cycles pass. -/
  | lineup (n : BitVec 8)
  /-- BURST (R345): Sets the matrix burst deadline and starts the kindle cycles if the engine is COLD or quenching. -/
  | burst (n : BitVec 16)
  /-- FENCE_RX (R250): Waits until every earlier relaxed access of the thread is complete. -/
  | fenceRx
  /-- FENCE_ENG (R250): Waits for the thread's relaxed accesses and for the engine operations it issued, carousel catches excepted. -/
  | fenceEng
  /-- FENCE_SYS (R250): Also waits until the thread's stores to host pages have drained. -/
  | fenceSys
  /-- WAITRX (R249): Waits until at most n relaxed accesses of the slot are outstanding. -/
  | waitrx (n : BitVec 5)
  /-- MFS (R90): Reads a special register into gd. -/
  | mfs (d : BitVec 7) (sr : BitVec 12)
  /-- MTS (R90): Writes gd to a special register, under the access rights of R49; serves every special register without a row of its own. -/
  | mts (d : BitVec 7) (sr : BitVec 12)
  /-- ROTTAB_WRITE (R19): An MTS to ROTTABn writes the shadow copy of the rotation table, leaving the live table unchanged. -/
  | rottabWrite (n : BitVec 2) (v : Word)
  /-- ROTPOL_WRITE (R19): An MTS to ROTPOL checks the shadow table against R18 and schedules the new table and policy for the next position 0. -/
  | rotpolWrite (v : Word)
  /-- ROTATION_SWITCH (R19): At the next cycle with the position counter at 0, the shadow table and the new policy take effect and the spare pointer restarts at 0. -/
  | rotationSwitch
  /-- TVEC_WRITE (R125): An MTS to TVEC or TPC keeps bits 56:3 of the value after the alignment check. -/
  | tvecWrite (tpc : Bool) (v : Word)
  /-- BELL_WRITE (R131): An MTS to BELL sets the quantum; 0 stops the bell. -/
  | bellWrite (v : Word)
  /-- TBLCFG_WRITE (R323): An MTS to TBLCFG sets the Inf and NaN codes and recomputes H, H4 and ORD. -/
  | tblcfgWrite (v : Word)
  /-- EBUDGET_WRITE (R342): A privileged MTS sets CAP and LEVEL of the energy budget. -/
  | ebudgetWrite (v : Word)
  /-- EFILL_WRITE (R342): A privileged MTS sets the energy refill RATE. -/
  | efillWrite (v : Word)
  /-- FOOTPRINT_WRITE (R136): A privileged MTS names the banks and engine state that the bell saves. -/
  | footprintWrite (v : Word)
  /-- JMP (R81): Jumps to PA + 8·disp25. -/
  | jmp (imm : BitVec 25)
  /-- JAL (R81): Writes PA + 8 to gd and jumps to PA + 8·imm18. -/
  | jal (d : BitVec 7) (imm : BitVec 18)
  /-- JALR (R81): Jumps to a<56:0> + 8·imm11 after alignment and range checks, and links to PA + 8. -/
  | jalr (d : BitVec 7) (a : BitVec 7) (imm : BitVec 11)
  /-- BEQ (R79): Branches when a = b. -/
  | beq (a : BitVec 7) (b : BitVec 7) (imm : BitVec 8)
  /-- BNE (R79): Branches when a ≠ b. -/
  | bne (a : BitVec 7) (b : BitVec 7) (imm : BitVec 8)
  /-- BLT (R79): Branches when a < b, signed. -/
  | blt (a : BitVec 7) (b : BitVec 7) (imm : BitVec 8)
  /-- BGE (R79): Branches when a ≥ b, signed. -/
  | bge (a : BitVec 7) (b : BitVec 7) (imm : BitVec 8)
  /-- BLTU (R79): Branches when a < b, unsigned. -/
  | bltu (a : BitVec 7) (b : BitVec 7) (imm : BitVec 8)
  /-- BGEU (R79): Branches when a ≥ b, unsigned. -/
  | bgeu (a : BitVec 7) (b : BitVec 7) (imm : BitVec 8)
  /-- BSET (R79): Branches when bit b<5:0> of a is 1. -/
  | bset (a : BitVec 7) (b : BitVec 7) (imm : BitVec 8)
  /-- BCLR (R79): Branches when bit b<5:0> of a is 0. -/
  | bclr (a : BitVec 7) (b : BitVec 7) (imm : BitVec 8)
  /-- BEQZ (R80): Branches when a = 0. -/
  | beqz (a : BitVec 7) (imm : BitVec 15)
  /-- BNEZ (R80): Branches when a ≠ 0. -/
  | bnez (a : BitVec 7) (imm : BitVec 15)
  /-- BLTZ (R80): Branches when a < 0. -/
  | bltz (a : BitVec 7) (imm : BitVec 15)
  /-- BGEZ (R80): Branches when a ≥ 0. -/
  | bgez (a : BitVec 7) (imm : BitVec 15)
  /-- BGTZ (R80): Branches when a > 0. -/
  | bgtz (a : BitVec 7) (imm : BitVec 15)
  /-- BLEZ (R80): Branches when a ≤ 0. -/
  | blez (a : BitVec 7) (imm : BitVec 15)
  /-- LD_B (R261): Blocking load of a sign-extended byte. -/
  | ldB (d : BitVec 7) (a : BitVec 7) (imm : BitVec 7)
  /-- LD_BU (R261): Blocking load of a zero-extended byte. -/
  | ldBu (d : BitVec 7) (a : BitVec 7) (imm : BitVec 7)
  /-- LD_H (R261): Blocking load of a sign-extended halfword. -/
  | ldH (d : BitVec 7) (a : BitVec 7) (imm : BitVec 7)
  /-- LD_HU (R261): Blocking load of a zero-extended halfword. -/
  | ldHu (d : BitVec 7) (a : BitVec 7) (imm : BitVec 7)
  /-- LD_W (R261): Blocking load of a sign-extended word. -/
  | ldW (d : BitVec 7) (a : BitVec 7) (imm : BitVec 7)
  /-- LD_WU (R261): Blocking load of a zero-extended word. -/
  | ldWu (d : BitVec 7) (a : BitVec 7) (imm : BitVec 7)
  /-- LD_D (R261): Blocking load of a doubleword. -/
  | ldD (d : BitVec 7) (a : BitVec 7) (imm : BitVec 7)
  /-- LD_B_RX (R249): Relaxed load of a sign-extended byte. -/
  | ldBRx (d : BitVec 7) (a : BitVec 7) (imm : BitVec 7)
  /-- LD_BU_RX (R249): Relaxed load of a zero-extended byte. -/
  | ldBuRx (d : BitVec 7) (a : BitVec 7) (imm : BitVec 7)
  /-- LD_H_RX (R249): Relaxed load of a sign-extended halfword. -/
  | ldHRx (d : BitVec 7) (a : BitVec 7) (imm : BitVec 7)
  /-- LD_HU_RX (R249): Relaxed load of a zero-extended halfword. -/
  | ldHuRx (d : BitVec 7) (a : BitVec 7) (imm : BitVec 7)
  /-- LD_W_RX (R249): Relaxed load of a sign-extended word. -/
  | ldWRx (d : BitVec 7) (a : BitVec 7) (imm : BitVec 7)
  /-- LD_WU_RX (R249): Relaxed load of a zero-extended word. -/
  | ldWuRx (d : BitVec 7) (a : BitVec 7) (imm : BitVec 7)
  /-- LD_D_RX (R249): Relaxed load of a doubleword. -/
  | ldDRx (d : BitVec 7) (a : BitVec 7) (imm : BitVec 7)
  /-- ST_B (R261): Blocking store of a byte. -/
  | stB (d : BitVec 7) (a : BitVec 7) (imm : BitVec 7)
  /-- ST_H (R261): Blocking store of a halfword. -/
  | stH (d : BitVec 7) (a : BitVec 7) (imm : BitVec 7)
  /-- ST_W (R261): Blocking store of a word. -/
  | stW (d : BitVec 7) (a : BitVec 7) (imm : BitVec 7)
  /-- ST_D (R261): Blocking store of a doubleword. -/
  | stD (d : BitVec 7) (a : BitVec 7) (imm : BitVec 7)
  /-- ST_B_RX (R249): Relaxed store of a byte. -/
  | stBRx (d : BitVec 7) (a : BitVec 7) (imm : BitVec 7)
  /-- ST_H_RX (R249): Relaxed store of a halfword. -/
  | stHRx (d : BitVec 7) (a : BitVec 7) (imm : BitVec 7)
  /-- ST_W_RX (R249): Relaxed store of a word. -/
  | stWRx (d : BitVec 7) (a : BitVec 7) (imm : BitVec 7)
  /-- ST_D_RX (R249): Relaxed store of a doubleword. -/
  | stDRx (d : BitVec 7) (a : BitVec 7) (imm : BitVec 7)
  /-- LDV (R265): Blocking vector load, decoded through the pointer's format. -/
  | ldv (d : BitVec 4) (a : BitVec 7) (imm : BitVec 7)
  /-- STV (R265): Blocking vector store, encoded through the pointer's format; also pushes records to control-window ports. -/
  | stv (d : BitVec 4) (a : BitVec 7) (imm : BitVec 7)
  /-- GATHER (R266): Blocking gather of indexed elements into a vector. -/
  | gather (d : BitVec 4) (a : BitVec 7) (vb : BitVec 4)
  /-- SCATTER (R266): Blocking scatter of vector lanes to indexed elements. -/
  | scatter (d : BitVec 4) (a : BitVec 7) (vb : BitVec 4)
  /-- LDV_RX (R267): Relaxed vector load. -/
  | ldvRx (d : BitVec 4) (a : BitVec 7) (imm : BitVec 7)
  /-- STV_RX (R267): Relaxed vector store. -/
  | stvRx (d : BitVec 4) (a : BitVec 7) (imm : BitVec 7)
  /-- GATHER_RX (R267): Relaxed gather. -/
  | gatherRx (d : BitVec 4) (a : BitVec 7) (vb : BitVec 4)
  /-- SCATTER_RX (R267): Relaxed scatter. -/
  | scatterRx (d : BitVec 4) (a : BitVec 7) (vb : BitVec 4)
  /-- AMOADD_W (R268): Atomic 32-bit add that returns the old value. -/
  | amoaddW (d : BitVec 7) (a : BitVec 7) (b : BitVec 7)
  /-- AMOAND_W (R268): Atomic 32-bit AND. -/
  | amoandW (d : BitVec 7) (a : BitVec 7) (b : BitVec 7)
  /-- AMOOR_W (R268): Atomic 32-bit OR. -/
  | amoorW (d : BitVec 7) (a : BitVec 7) (b : BitVec 7)
  /-- AMOXOR_W (R268): Atomic 32-bit XOR. -/
  | amoxorW (d : BitVec 7) (a : BitVec 7) (b : BitVec 7)
  /-- AMOMIN_W (R268): Atomic 32-bit signed minimum. -/
  | amominW (d : BitVec 7) (a : BitVec 7) (b : BitVec 7)
  /-- AMOMAX_W (R268): Atomic 32-bit signed maximum. -/
  | amomaxW (d : BitVec 7) (a : BitVec 7) (b : BitVec 7)
  /-- AMOMINU_W (R268): Atomic 32-bit unsigned minimum. -/
  | amominuW (d : BitVec 7) (a : BitVec 7) (b : BitVec 7)
  /-- AMOMAXU_W (R268): Atomic 32-bit unsigned maximum. -/
  | amomaxuW (d : BitVec 7) (a : BitVec 7) (b : BitVec 7)
  /-- AMOSWAP_W (R268): Atomic 32-bit swap. -/
  | amoswapW (d : BitVec 7) (a : BitVec 7) (b : BitVec 7)
  /-- AMOCAS_W (R268): Atomic 32-bit compare-and-swap against gd. -/
  | amocasW (d : BitVec 7) (a : BitVec 7) (b : BitVec 7)
  /-- AMOADD_D (R268): Atomic 64-bit add. -/
  | amoaddD (d : BitVec 7) (a : BitVec 7) (b : BitVec 7)
  /-- AMOAND_D (R268): Atomic 64-bit AND. -/
  | amoandD (d : BitVec 7) (a : BitVec 7) (b : BitVec 7)
  /-- AMOOR_D (R268): Atomic 64-bit OR. -/
  | amoorD (d : BitVec 7) (a : BitVec 7) (b : BitVec 7)
  /-- AMOXOR_D (R268): Atomic 64-bit XOR. -/
  | amoxorD (d : BitVec 7) (a : BitVec 7) (b : BitVec 7)
  /-- AMOMIN_D (R268): Atomic 64-bit signed minimum. -/
  | amominD (d : BitVec 7) (a : BitVec 7) (b : BitVec 7)
  /-- AMOMAX_D (R268): Atomic 64-bit signed maximum. -/
  | amomaxD (d : BitVec 7) (a : BitVec 7) (b : BitVec 7)
  /-- AMOMINU_D (R268): Atomic 64-bit unsigned minimum. -/
  | amominuD (d : BitVec 7) (a : BitVec 7) (b : BitVec 7)
  /-- AMOMAXU_D (R268): Atomic 64-bit unsigned maximum. -/
  | amomaxuD (d : BitVec 7) (a : BitVec 7) (b : BitVec 7)
  /-- AMOSWAP_D (R268): Atomic 64-bit swap. -/
  | amoswapD (d : BitVec 7) (a : BitVec 7) (b : BitVec 7)
  /-- AMOCAS_D (R268): Atomic 64-bit compare-and-swap against gd. -/
  | amocasD (d : BitVec 7) (a : BitVec 7) (b : BitVec 7)
  /-- HTAKE (R272): Takes a handle or the next ring stage as producer or consumer, parking until it is in the wanted state. -/
  | htake (d : BitVec 7) (a : BitVec 7) (b : BitVec 7)
  /-- HGIVE (R273): Releases a stage: the producer makes it FULL, the consumer makes it FREE. -/
  | hgive (d : BitVec 7) (a : BitVec 7) (b : BitVec 7)
  /-- HWAIT (R214): Parks until a handle of the named generation reaches the named state, then returns COUNTED. -/
  | hwait (d : BitVec 7) (a : BitVec 7) (b : BitVec 7)
  /-- HSTAT (R274): Returns word 0 or word 1 of a handle record. -/
  | hstat (d : BitVec 7) (a : BitVec 7) (b : BitVec 7)
  /-- HGEN (R274): Returns a handle's generation and number. -/
  | hgen (d : BitVec 7) (a : BitVec 7)
  /-- HRING (R275): Forms or dissolves a ring of consecutive handles. -/
  | hring (d : BitVec 7) (a : BitVec 7) (b : BitVec 7)
  /-- SEND (R92): Reserves a destination mailbox entry, parking if none is free, and sends a 64-byte message. -/
  | send (ty : BitVec 8) (a : BitVec 7) (b : BitVec 7)
  /-- RECV (R94): Takes the oldest eligible mailbox entry that matches the SEQ and sender, parking until one arrives. -/
  | recv (a : BitVec 7) (b : BitVec 7)
  /-- RECVA (R94): Takes the oldest eligible mailbox entry, parking until one arrives. -/
  | recva (b : BitVec 7)
  /-- MBOX (R95): Returns the core's mailbox state. -/
  | mbox (b : BitVec 7)
  /-- BAR (R97): Arrives at a barrier and waits until the joined phase completes. -/
  | bar (d : BitVec 7) (scope : BitVec 3) (id : BitVec 7)
  /-- BARA (R97): Arrives at a barrier without waiting. -/
  | bara (d : BitVec 7) (scope : BitVec 3) (id : BitVec 7)
  /-- BARW (R97): Parks until the barrier's phase differs from d<15:0>. -/
  | barw (d : BitVec 7) (scope : BitVec 3) (id : BitVec 7)
  /-- BARI (R97): Sets a barrier's expected count and clears its arrivals. -/
  | bari (d : BitVec 7) (scope : BitVec 3) (id : BitVec 7)
  /-- CARSUB (R179): Subscribes the core to a segment with a catch target and handle, parking while 16 subscriptions are held. -/
  | carsub (d : BitVec 7) (a : BitVec 7) (b : BitVec 7)
  /-- CARUNSUB (R180): Withdraws one of the slot's core subscriptions and frees its handle. -/
  | carunsub (d : BitVec 7) (a : BitVec 7) (b : BitVec 7)
  /-- CARSKIP (R181): Withdraws the core's subscriptions to a segment and sends a skip request. -/
  | carskip (a : BitVec 7)
  /-- CARPROMO (R182): Sends a promotion request for a segment, with a defer bit. -/
  | carpromo (a : BitVec 7) (b : BitVec 7)
  /-- CARPOS (R185): Returns the track position as it stood 64 cycles before issue. -/
  | carpos (d : BitVec 7) (a : BitVec 7)
  /-- CARWAIT_RAY (R184): Parks until the ray holds no subscription, then returns its FLAGS. -/
  | carwaitRay (d : BitVec 7) (a : BitVec 7)
  /-- CARWAIT_START (R184): Parks until the segment's next start and returns that start's roll call. -/
  | carwaitStart (d : BitVec 7) (a : BitVec 7)
  /-- CARWAIT_VERDICT (R184): Parks until the slot's verdict record for the segment is no longer PENDING, then returns the code. -/
  | carwaitVerdict (d : BitVec 7) (a : BitVec 7)
  /-- RAYPUT (R186): Writes a ray record from a vector and makes the ray live. -/
  | rayput (d : BitVec 4) (a : BitVec 7)
  /-- RAYGET (R186): Reads a ray record into a vector. -/
  | rayget (d : BitVec 4) (a : BitVec 7)
  /-- RAYSUB (R187): Subscribes a ray to a GEOM or SPLAT segment with an entry distance. -/
  | raysub (d : BitVec 7) (a : BitVec 7) (b : BitVec 7)
  /-- HITPOP (R188): Releases the ray's first ordered hit if it lies at or below the release frontier. -/
  | hitpop (d : BitVec 7) (a : BitVec 7)
  /-- RAYKILL (R189): Withdraws the ray's subscriptions, empties its side list and clears its live bit. -/
  | raykill (d : BitVec 7) (a : BitVec 7)
  /-- LAINF (R384): Evaluates the clause bank on the features and writes votes and clause outputs after 16 cycles. -/
  | lainf (d : BitVec 4) (a : BitVec 4)
  /-- LAFB1 (R381): Pushes a type I training command and returns its number. -/
  | lafb1 (d : BitVec 7) (a : BitVec 4)
  /-- LAFB2 (R381): Pushes a type II training command and returns its number. -/
  | lafb2 (d : BitVec 7) (a : BitVec 4)
  /-- LARD (R380): After training drains, reads an automaton item. -/
  | lard (d : BitVec 7) (a : BitVec 7)
  /-- LAWR (R380): After training drains, writes an automaton item. -/
  | lawr (a : BitVec 7) (b : BitVec 7)
  /-- LASEED (R380): After training drains, sets SEED and EPOCH and clears COUNT. -/
  | laseed (a : BitVec 7) (b : BitVec 7)
  /-- LACLR (R380): After training drains, writes every cell and clears every poison mark. -/
  | laclr (a : BitVec 7)
  /-- TSREQ (R205): Looks up or claims a key in the cluster shading cache. -/
  | tsreq (d : BitVec 7) (a : BitVec 7) (b : BitVec 4)
  /-- TSFILL (R205): The owner fills a PENDING key's payload and wakes its waiters. -/
  | tsfill (d : BitVec 7) (a : BitVec 7) (b : BitVec 4)
  /-- TSWAIT (R205): Returns a VALID payload or parks while the key is PENDING. -/
  | tswait (d : BitVec 7) (a : BitVec 7) (b : BitVec 4)
  /-- WATCH (R99): Reads a word and returns it if it differs from b, else parks until its line is written. -/
  | watch (d : BitVec 7) (a : BitVec 7) (b : BitVec 7)
  /-- TID (R100): Returns the thread's identity word. -/
  | tid (d : BitVec 7)
  /-- TBLW (R365): Writes a decode-table entry and its sign partner. -/
  | tblw (a : BitVec 7) (b : BitVec 7)
  /-- TBLR (R365): Reads a decode-table entry. -/
  | tblr (d : BitVec 7) (a : BitVec 7)
  /-- ADD (R62): gd := a + b. -/
  | add (d : BitVec 7) (a : BitVec 7) (b : BitVec 7)
  /-- SUB (R62): gd := a − b. -/
  | sub (d : BitVec 7) (a : BitVec 7) (b : BitVec 7)
  /-- AND (R62): Bitwise AND. -/
  | and (d : BitVec 7) (a : BitVec 7) (b : BitVec 7)
  /-- OR (R62): Bitwise OR. -/
  | or (d : BitVec 7) (a : BitVec 7) (b : BitVec 7)
  /-- XOR (R62): Bitwise XOR. -/
  | xor (d : BitVec 7) (a : BitVec 7) (b : BitVec 7)
  /-- ANDN (R62): a AND NOT b. -/
  | andn (d : BitVec 7) (a : BitVec 7) (b : BitVec 7)
  /-- SHL (R62): Shift left by b<5:0>. -/
  | shl (d : BitVec 7) (a : BitVec 7) (b : BitVec 7)
  /-- SHR (R62): Logical shift right. -/
  | shr (d : BitVec 7) (a : BitVec 7) (b : BitVec 7)
  /-- SAR (R62): Arithmetic shift right. -/
  | sar (d : BitVec 7) (a : BitVec 7) (b : BitVec 7)
  /-- ROL (R62): Rotate left. -/
  | rol (d : BitVec 7) (a : BitVec 7) (b : BitVec 7)
  /-- ROR (R62): Rotate right. -/
  | ror (d : BitVec 7) (a : BitVec 7) (b : BitVec 7)
  /-- SLT (R62): Signed less-than as 0 or 1. -/
  | slt (d : BitVec 7) (a : BitVec 7) (b : BitVec 7)
  /-- SLTU (R62): Unsigned less-than as 0 or 1. -/
  | sltu (d : BitVec 7) (a : BitVec 7) (b : BitVec 7)
  /-- SEQ (R62): Equality as 0 or 1. -/
  | seq (d : BitVec 7) (a : BitVec 7) (b : BitVec 7)
  /-- MIN (R62): Signed minimum. -/
  | min (d : BitVec 7) (a : BitVec 7) (b : BitVec 7)
  /-- MAX (R62): Signed maximum. -/
  | max (d : BitVec 7) (a : BitVec 7) (b : BitVec 7)
  /-- MINU (R63): Unsigned minimum. -/
  | minu (d : BitVec 7) (a : BitVec 7) (b : BitVec 7)
  /-- MAXU (R63): Unsigned maximum. -/
  | maxu (d : BitVec 7) (a : BitVec 7) (b : BitVec 7)
  /-- MUL (R63): Low 64 bits of the product. -/
  | mul (d : BitVec 7) (a : BitVec 7) (b : BitVec 7)
  /-- MULH (R63): High 64 bits of the signed product. -/
  | mulh (d : BitVec 7) (a : BitVec 7) (b : BitVec 7)
  /-- MULHU (R63): High 64 bits of the unsigned product. -/
  | mulhu (d : BitVec 7) (a : BitVec 7) (b : BitVec 7)
  /-- DIV (R64): Signed division, a long operation of 8 turns. -/
  | div (d : BitVec 7) (a : BitVec 7) (b : BitVec 7)
  /-- DIVU (R64): Unsigned division, a long operation. -/
  | divu (d : BitVec 7) (a : BitVec 7) (b : BitVec 7)
  /-- REM (R64): Signed remainder, a long operation. -/
  | rem (d : BitVec 7) (a : BitVec 7) (b : BitVec 7)
  /-- REMU (R64): Unsigned remainder, a long operation. -/
  | remu (d : BitVec 7) (a : BitVec 7) (b : BitVec 7)
  /-- SEL (R63): Selects a if d ≠ 0, else b. -/
  | sel (d : BitVec 7) (a : BitVec 7) (b : BitVec 7)
  /-- CLZ (R63): Counts leading zero bits. -/
  | clz (d : BitVec 7) (a : BitVec 7)
  /-- CTZ (R63): Counts trailing zero bits. -/
  | ctz (d : BitVec 7) (a : BitVec 7)
  /-- POPC (R63): Counts one bits. -/
  | popc (d : BitVec 7) (a : BitVec 7)
  /-- BREV (R63): Reverses the bits. -/
  | brev (d : BitVec 7) (a : BitVec 7)
  /-- ILV2 (R65): Interleaves two 32-bit values into a 2-D Morton key. -/
  | ilv2 (d : BitVec 7) (a : BitVec 7) (b : BitVec 7)
  /-- ILV3 (R65): Interleaves three 21-bit values into a 3-D Morton key. -/
  | ilv3 (d : BitVec 7) (a : BitVec 7) (b : BitVec 7)
  /-- DILV2 (R65): Extracts one coordinate of a 2-D interleave. -/
  | dilv2 (d : BitVec 7) (a : BitVec 7) (b : BitVec 7)
  /-- DILV3 (R65): Extracts one coordinate of a 3-D interleave. -/
  | dilv3 (d : BitVec 7) (a : BitVec 7) (b : BitVec 7)
  /-- EXTR (R66): Extracts a bit field. -/
  | extr (d : BitVec 7) (a : BitVec 7) (b : BitVec 7)
  /-- DEPO (R66): Deposits a bit field into gd. -/
  | depo (d : BitVec 7) (a : BitVec 7) (b : BitVec 7)
  /-- BSWAP (R66): Reverses the bytes. -/
  | bswap (d : BitVec 7) (a : BitVec 7)
  /-- ADDP (R70): Adds to a fat pointer's address field, trapping ADDR_OVF outside the space. -/
  | addp (d : BitVec 7) (a : BitVec 7) (b : BitVec 7)
  /-- MKPTR (R71): Builds a fat pointer from an address and a tag. -/
  | mkptr (d : BitVec 7) (a : BitVec 7) (b : BitVec 7)
  /-- PTAG (R71): Extracts a pointer's tag bits. -/
  | ptag (d : BitVec 7) (a : BitVec 7)
  /-- VKEY (R196): Packs a depth and a packed id into a visibility key. -/
  | vkey (d : BitVec 7) (a : BitVec 7) (b : BitVec 7)
  /-- ADDI (R67): Adds a sign-extended immediate. -/
  | addi (d : BitVec 7) (a : BitVec 7) (imm : BitVec 11)
  /-- ANDI (R67): ANDs a sign-extended immediate. -/
  | andi (d : BitVec 7) (a : BitVec 7) (imm : BitVec 11)
  /-- ORI (R67): ORs a sign-extended immediate. -/
  | ori (d : BitVec 7) (a : BitVec 7) (imm : BitVec 11)
  /-- XORI (R67): XORs a sign-extended immediate. -/
  | xori (d : BitVec 7) (a : BitVec 7) (imm : BitVec 11)
  /-- SHLI (R68): Shifts left by an immediate amount. -/
  | shli (d : BitVec 7) (a : BitVec 7) (n : BitVec 6)
  /-- SHRI (R68): Shifts right logically by an immediate amount. -/
  | shri (d : BitVec 7) (a : BitVec 7) (n : BitVec 6)
  /-- SARI (R68): Shifts right arithmetically by an immediate amount. -/
  | sari (d : BitVec 7) (a : BitVec 7) (n : BitVec 6)
  /-- ROLI (R68): Rotates left by an immediate amount. -/
  | roli (d : BitVec 7) (a : BitVec 7) (n : BitVec 6)
  /-- RORI (R68): Rotates right by an immediate amount. -/
  | rori (d : BitVec 7) (a : BitVec 7) (n : BitVec 6)
  /-- SLTI (R67): Signed less-than against an immediate. -/
  | slti (d : BitVec 7) (a : BitVec 7) (imm : BitVec 11)
  /-- ADDPI (R70): Adds an immediate to a fat pointer's address field. -/
  | addpi (d : BitVec 7) (a : BitVec 7) (imm : BitVec 11)
  /-- LDI (R69): Loads a sign-extended 18-bit immediate. -/
  | ldi (d : BitVec 7) (imm : BitVec 18)
  /-- LDIH (R69): Shifts gd left by 18 and ORs in an 18-bit immediate. -/
  | ldih (d : BitVec 7) (imm : BitVec 18)
  /-- MOVX (R72): Reads the window register at index value(gx) + k. -/
  | movx (d : BitVec 7) (a : BitVec 7) (imm : BitVec 11)
  /-- MOVXS (R72): Writes the window register at index value(gx) + k. -/
  | movxs (d : BitVec 7) (a : BitVec 7) (imm : BitVec 11)
  /-- FADD_D (R74): binary64 add. -/
  | faddD (d : BitVec 7) (a : BitVec 7) (b : BitVec 7)
  /-- FSUB_D (R74): binary64 subtract. -/
  | fsubD (d : BitVec 7) (a : BitVec 7) (b : BitVec 7)
  /-- FMUL_D (R74): binary64 multiply. -/
  | fmulD (d : BitVec 7) (a : BitVec 7) (b : BitVec 7)
  /-- FDIV_D (R74): binary64 divide, held 6 turns. -/
  | fdivD (d : BitVec 7) (a : BitVec 7) (b : BitVec 7)
  /-- FSQRT_D (R74): binary64 square root, held 6 turns. -/
  | fsqrtD (d : BitVec 7) (a : BitVec 7)
  /-- FMA_D (R74): binary64 fused multiply-add with gd as the addend. -/
  | fmaD (d : BitVec 7) (a : BitVec 7) (b : BitVec 7)
  /-- FMIN_D (R74): binary64 minimum. -/
  | fminD (d : BitVec 7) (a : BitVec 7) (b : BitVec 7)
  /-- FMAX_D (R74): binary64 maximum. -/
  | fmaxD (d : BitVec 7) (a : BitVec 7) (b : BitVec 7)
  /-- FEQ_D (R74): binary64 equality as 0 or 1. -/
  | feqD (d : BitVec 7) (a : BitVec 7) (b : BitVec 7)
  /-- FLT_D (R74): binary64 less-than as 0 or 1. -/
  | fltD (d : BitVec 7) (a : BitVec 7) (b : BitVec 7)
  /-- FLE_D (R74): binary64 less-or-equal as 0 or 1. -/
  | fleD (d : BitVec 7) (a : BitVec 7) (b : BitVec 7)
  /-- FCLASS_D (R75): Writes the class word of a binary64 value. -/
  | fclassD (d : BitVec 7) (a : BitVec 7)
  /-- FSGNJ_D (R74): Replaces the sign of a with b's. -/
  | fsgnjD (d : BitVec 7) (a : BitVec 7) (b : BitVec 7)
  /-- FSGNJN_D (R74): Replaces the sign of a with the inverse of b's. -/
  | fsgnjnD (d : BitVec 7) (a : BitVec 7) (b : BitVec 7)
  /-- FADD_S (R74): binary32 add. -/
  | faddS (d : BitVec 7) (a : BitVec 7) (b : BitVec 7)
  /-- FSUB_S (R74): binary32 subtract. -/
  | fsubS (d : BitVec 7) (a : BitVec 7) (b : BitVec 7)
  /-- FMUL_S (R74): binary32 multiply. -/
  | fmulS (d : BitVec 7) (a : BitVec 7) (b : BitVec 7)
  /-- FDIV_S (R74): binary32 divide, held 3 turns. -/
  | fdivS (d : BitVec 7) (a : BitVec 7) (b : BitVec 7)
  /-- FSQRT_S (R74): binary32 square root, held 3 turns. -/
  | fsqrtS (d : BitVec 7) (a : BitVec 7)
  /-- FMA_S (R74): binary32 fused multiply-add with gd as the addend. -/
  | fmaS (d : BitVec 7) (a : BitVec 7) (b : BitVec 7)
  /-- FMIN_S (R74): binary32 minimum. -/
  | fminS (d : BitVec 7) (a : BitVec 7) (b : BitVec 7)
  /-- FMAX_S (R74): binary32 maximum. -/
  | fmaxS (d : BitVec 7) (a : BitVec 7) (b : BitVec 7)
  /-- FEQ_S (R74): binary32 equality as 0 or 1. -/
  | feqS (d : BitVec 7) (a : BitVec 7) (b : BitVec 7)
  /-- FLT_S (R74): binary32 less-than as 0 or 1. -/
  | fltS (d : BitVec 7) (a : BitVec 7) (b : BitVec 7)
  /-- FLE_S (R74): binary32 less-or-equal as 0 or 1. -/
  | fleS (d : BitVec 7) (a : BitVec 7) (b : BitVec 7)
  /-- FCLASS_S (R75): Writes the class word of a binary32 value. -/
  | fclassS (d : BitVec 7) (a : BitVec 7)
  /-- FSGNJ_S (R74): Replaces the sign of a with b's. -/
  | fsgnjS (d : BitVec 7) (a : BitVec 7) (b : BitVec 7)
  /-- FSGNJN_S (R74): Replaces the sign of a with the inverse of b's. -/
  | fsgnjnS (d : BitVec 7) (a : BitVec 7) (b : BitVec 7)
  /-- FCVT (R78): Converts between float, integer, table-code and E8M10 types under a named rounding mode. -/
  | fcvt (rnd : BitVec 3) (d : BitVec 7) (a : BitVec 7) (dst : BitVec 3) (src : BitVec 3)
  /-- VADD (R352): Lane-wise 32-bit add. -/
  | vadd (d : BitVec 4) (a : BitVec 4) (b : BitVec 4)
  /-- VSUB (R352): Lane-wise 32-bit subtract. -/
  | vsub (d : BitVec 4) (a : BitVec 4) (b : BitVec 4)
  /-- VAND (R352): Lane-wise AND. -/
  | vand (d : BitVec 4) (a : BitVec 4) (b : BitVec 4)
  /-- VOR (R352): Lane-wise OR. -/
  | vor (d : BitVec 4) (a : BitVec 4) (b : BitVec 4)
  /-- VXOR (R352): Lane-wise XOR. -/
  | vxor (d : BitVec 4) (a : BitVec 4) (b : BitVec 4)
  /-- VSHL (R352): Lane-wise shift left. -/
  | vshl (d : BitVec 4) (a : BitVec 4) (b : BitVec 4)
  /-- VSHR (R352): Lane-wise logical shift right. -/
  | vshr (d : BitVec 4) (a : BitVec 4) (b : BitVec 4)
  /-- VSAR (R352): Lane-wise arithmetic shift right. -/
  | vsar (d : BitVec 4) (a : BitVec 4) (b : BitVec 4)
  /-- VMIN (R352): Lane-wise signed minimum. -/
  | vmin (d : BitVec 4) (a : BitVec 4) (b : BitVec 4)
  /-- VMAX (R352): Lane-wise signed maximum. -/
  | vmax (d : BitVec 4) (a : BitVec 4) (b : BitVec 4)
  /-- VMINU (R352): Lane-wise unsigned minimum. -/
  | vminu (d : BitVec 4) (a : BitVec 4) (b : BitVec 4)
  /-- VMAXU (R352): Lane-wise unsigned maximum. -/
  | vmaxu (d : BitVec 4) (a : BitVec 4) (b : BitVec 4)
  /-- VMUL (R352): Lane-wise low 32 bits of the product. -/
  | vmul (d : BitVec 4) (a : BitVec 4) (b : BitVec 4)
  /-- VMULH (R352): Lane-wise high 32 bits of the signed product. -/
  | vmulh (d : BitVec 4) (a : BitVec 4) (b : BitVec 4)
  /-- VADDS (R352): Lane-wise saturating signed add. -/
  | vadds (d : BitVec 4) (a : BitVec 4) (b : BitVec 4)
  /-- VSUBS (R352): Lane-wise saturating signed subtract. -/
  | vsubs (d : BitVec 4) (a : BitVec 4) (b : BitVec 4)
  /-- VFADD_S (R353): Lane-wise binary32 add. -/
  | vfaddS (d : BitVec 4) (a : BitVec 4) (b : BitVec 4)
  /-- VFSUB_S (R353): Lane-wise binary32 subtract. -/
  | vfsubS (d : BitVec 4) (a : BitVec 4) (b : BitVec 4)
  /-- VFMUL_S (R353): Lane-wise binary32 multiply. -/
  | vfmulS (d : BitVec 4) (a : BitVec 4) (b : BitVec 4)
  /-- VFDIV_S (R353): Lane-wise binary32 divide, held 4 turns. -/
  | vfdivS (d : BitVec 4) (a : BitVec 4) (b : BitVec 4)
  /-- VFSQRT_S (R353): Lane-wise binary32 square root, held 4 turns. -/
  | vfsqrtS (d : BitVec 4) (a : BitVec 4)
  /-- VFMA_S (R353): Lane-wise binary32 fused multiply-add into vd. -/
  | vfmaS (d : BitVec 4) (a : BitVec 4) (b : BitVec 4)
  /-- VFMIN_S (R353): Lane-wise binary32 minimum. -/
  | vfminS (d : BitVec 4) (a : BitVec 4) (b : BitVec 4)
  /-- VFMAX_S (R353): Lane-wise binary32 maximum. -/
  | vfmaxS (d : BitVec 4) (a : BitVec 4) (b : BitVec 4)
  /-- VFADD_D (R353): Lane-wise binary64 add. -/
  | vfaddD (d : BitVec 4) (a : BitVec 4) (b : BitVec 4)
  /-- VFSUB_D (R353): Lane-wise binary64 subtract. -/
  | vfsubD (d : BitVec 4) (a : BitVec 4) (b : BitVec 4)
  /-- VFMUL_D (R353): Lane-wise binary64 multiply. -/
  | vfmulD (d : BitVec 4) (a : BitVec 4) (b : BitVec 4)
  /-- VFDIV_D (R353): Lane-wise binary64 divide, held 8 turns. -/
  | vfdivD (d : BitVec 4) (a : BitVec 4) (b : BitVec 4)
  /-- VFSQRT_D (R353): Lane-wise binary64 square root, held 8 turns. -/
  | vfsqrtD (d : BitVec 4) (a : BitVec 4)
  /-- VFMA_D (R353): Lane-wise binary64 fused multiply-add into vd. -/
  | vfmaD (d : BitVec 4) (a : BitVec 4) (b : BitVec 4)
  /-- VFMIN_D (R353): Lane-wise binary64 minimum. -/
  | vfminD (d : BitVec 4) (a : BitVec 4) (b : BitVec 4)
  /-- VFMAX_D (R353): Lane-wise binary64 maximum. -/
  | vfmaxD (d : BitVec 4) (a : BitVec 4) (b : BitVec 4)
  /-- VBCAST (R354): Broadcasts a<31:0> to all 16 lanes. -/
  | vbcast (d : BitVec 4) (a : BitVec 7)
  /-- VBCAST_D (R354): Broadcasts a to all 8 lanes. -/
  | vbcastD (d : BitVec 4) (a : BitVec 7)
  /-- VEXT (R355): Extracts one lane into a scalar register. -/
  | vext (d : BitVec 7) (a : BitVec 4) (b : BitVec 7)
  /-- VINS (R355): Inserts a scalar into one lane. -/
  | vins (d : BitVec 4) (a : BitVec 7) (b : BitVec 7)
  /-- VPERM (R356): Permutes lanes by index. -/
  | vperm (d : BitVec 4) (a : BitVec 4) (b : BitVec 4)
  /-- VRED_ADD_W (R357): Folds 16 lanes by 32-bit add. -/
  | vredAddW (d : BitVec 7) (a : BitVec 4)
  /-- VRED_MIN_W (R357): Folds 16 lanes by signed minimum. -/
  | vredMinW (d : BitVec 7) (a : BitVec 4)
  /-- VRED_MAX_W (R357): Folds 16 lanes by signed maximum. -/
  | vredMaxW (d : BitVec 7) (a : BitVec 4)
  /-- VRED_MINU_W (R357): Folds 16 lanes by unsigned minimum. -/
  | vredMinuW (d : BitVec 7) (a : BitVec 4)
  /-- VRED_MAXU_W (R357): Folds 16 lanes by unsigned maximum. -/
  | vredMaxuW (d : BitVec 7) (a : BitVec 4)
  /-- VRED_AND_W (R357): Folds 16 lanes by AND. -/
  | vredAndW (d : BitVec 7) (a : BitVec 4)
  /-- VRED_OR_W (R357): Folds 16 lanes by OR. -/
  | vredOrW (d : BitVec 7) (a : BitVec 4)
  /-- VRED_XOR_W (R357): Folds 16 lanes by XOR. -/
  | vredXorW (d : BitVec 7) (a : BitVec 4)
  /-- VRED_FADD_S (R357): Folds 16 binary32 lanes by rounded add, held 2 turns. -/
  | vredFaddS (d : BitVec 7) (a : BitVec 4)
  /-- VRED_FMIN_S (R357): Folds 16 binary32 lanes by FMIN. -/
  | vredFminS (d : BitVec 7) (a : BitVec 4)
  /-- VRED_FMAX_S (R357): Folds 16 binary32 lanes by FMAX. -/
  | vredFmaxS (d : BitVec 7) (a : BitVec 4)
  /-- VRED_FADD_D (R357): Folds 8 binary64 lanes by rounded add, held 2 turns. -/
  | vredFaddD (d : BitVec 7) (a : BitVec 4)
  /-- VRED_FMIN_D (R357): Folds 8 binary64 lanes by FMIN. -/
  | vredFminD (d : BitVec 7) (a : BitVec 4)
  /-- VRED_FMAX_D (R357): Folds 8 binary64 lanes by FMAX. -/
  | vredFmaxD (d : BitVec 7) (a : BitVec 4)
  /-- VRED_ADD_D (R357): Folds 8 lanes by 64-bit add. -/
  | vredAddD (d : BitVec 7) (a : BitVec 4)
  /-- VCMP_EQ (R358): Lane-wise equality mask of the old vd against va. -/
  | vcmpEq (d : BitVec 4) (a : BitVec 4) (ty : BitVec 2)
  /-- VCMP_NE (R358): Lane-wise inequality mask. -/
  | vcmpNe (d : BitVec 4) (a : BitVec 4) (ty : BitVec 2)
  /-- VCMP_LT (R358): Lane-wise less-than mask. -/
  | vcmpLt (d : BitVec 4) (a : BitVec 4) (ty : BitVec 2)
  /-- VCMP_GE (R358): Lane-wise greater-or-equal mask. -/
  | vcmpGe (d : BitVec 4) (a : BitVec 4) (ty : BitVec 2)
  /-- VCMP_LTU (R358): Lane-wise unsigned less-than mask, integer types only. -/
  | vcmpLtu (d : BitVec 4) (a : BitVec 4) (ty : BitVec 2)
  /-- VCMP_GEU (R358): Lane-wise unsigned greater-or-equal mask, integer types only. -/
  | vcmpGeu (d : BitVec 4) (a : BitVec 4) (ty : BitVec 2)
  /-- VSEL (R359): Bitwise select of va and vb under the mask in the old vd. -/
  | vsel (d : BitVec 4) (a : BitVec 4) (b : BitVec 4)
  /-- VCVT_H_S (R360): Rounds binary32 lanes to binary16 values. -/
  | vcvtHS (d : BitVec 4) (a : BitVec 4) (mode : BitVec 3)
  /-- VCVT_BH_S (R360): Rounds binary32 lanes to bfloat16 values. -/
  | vcvtBhS (d : BitVec 4) (a : BitVec 4) (mode : BitVec 3)
  /-- VCVT_E_S (R360): Rounds binary32 lanes to E8M10 values. -/
  | vcvtES (d : BitVec 4) (a : BitVec 4) (mode : BitVec 3)
  /-- VCVT_W_S (R360): Converts binary32 lanes to signed 32-bit integers. -/
  | vcvtWS (d : BitVec 4) (a : BitVec 4) (mode : BitVec 3)
  /-- VCVT_S_W (R360): Converts signed 32-bit lanes to binary32. -/
  | vcvtSW (d : BitVec 4) (a : BitVec 4) (mode : BitVec 3)
  /-- VCVT_S_D (R360): Converts binary64 lanes to binary32. -/
  | vcvtSD (d : BitVec 4) (a : BitVec 4) (mode : BitVec 3)
  /-- VCVT_D_S (R360): Widens binary32 lanes to binary64. -/
  | vcvtDS (d : BitVec 4) (a : BitVec 4) (mode : BitVec 3)
  /-- VCVT_L_D (R360): Converts binary64 lanes to signed 64-bit integers. -/
  | vcvtLD (d : BitVec 4) (a : BitVec 4) (mode : BitVec 3)
  /-- VCVT_D_L (R360): Converts signed 64-bit lanes to binary64. -/
  | vcvtDL (d : BitVec 4) (a : BitVec 4) (mode : BitVec 3)
  /-- VQ (R362): Quantises 16 lanes to table codes at scale 127. -/
  | vq (d : BitVec 4) (a : BitVec 4) (mode : BitVec 3) (fmt : BitVec 1)
  /-- VQ_SC (R362): Quantises 16 lanes to table codes with a block scale chosen under R331. -/
  | vqSc (d : BitVec 4) (a : BitVec 4) (mode : BitVec 3) (fmt : BitVec 1)
  /-- VDQ (R363): Decodes packed table codes to binary32 at scale 127. -/
  | vdq (d : BitVec 4) (a : BitVec 4) (fmt : BitVec 1)
  /-- VDQ_SC (R363): Decodes packed table codes to binary32 with their scale byte. -/
  | vdqSc (d : BitVec 4) (a : BitVec 4) (fmt : BitVec 1)
  /-- BOXT (R192): Tests a ray against a box and returns the entry and exit distances. -/
  | boxt (d : BitVec 7) (a : BitVec 4) (b : BitVec 4)
  /-- TRIT (R193): Watertight ray–triangle test, held 2 turns. -/
  | trit (d : BitVec 7) (a : BitVec 4) (b : BitVec 4)
  /-- SPLT (R195): Ray–splat disc test, held 3 turns. -/
  | splt (d : BitVec 7) (a : BitVec 4) (b : BitVec 4)
  /-- BLOCKING_REPLY (R24): The reply to a blocking access arrives and its WAITING pair retires. -/
  | blockingReply (slot : Nat)
  /-- RELAXED_ACCESS_COMPLETE (R249): A relaxed access is applied at its home and completes, releasing waiters on its register or on the outstanding limit. -/
  | relaxedAccessComplete (id : Nat)
  /-- HOLD_END (R26): A long operation's hold ends, its result is written and the slot becomes RUNNABLE. -/
  | holdEnd (slot : Nat)
  /-- MESSAGE_ARRIVAL (R112): A message reaches a core and is discarded, starts a thread or enters the mailbox. -/
  | messageArrival (m : Message)
  /-- WAITING_MESSAGE_START (R112): When a slot of its class or window words free up, the highest-priority oldest waiting message starts its thread. -/
  | waitingMessageStart (cls : Nat)
  /-- DEVICE_MESSAGE_ENTRY (R398): A FAULT or PFAULT waiting in the network enters the mailbox when an entry frees. -/
  | deviceMessageEntry
  /-- LAUNCH_RECORD (R107): The principal reads a launch record, checks its LAP and fields, and launches, refuses or stops the queue. -/
  | launchRecord (die : Nat) (base : Nat)
  /-- DYNAMIC_TASK_DISPATCH (R116): A cluster hands the next task index of its oldest range to the lowest requesting core. -/
  | dynamicTaskDispatch (cluster : Nat)
  /-- LINEUP_RELEASE (R88): Every launch peer has ended or parked at the same LINEUP, and the group is released. -/
  | lineupRelease (n : Nat) (pa : Nat) (tag : Word)
  /-- LINEUP_TIMEOUT (R88): 4,096 cycles after the first thread parked at a LINEUP, the group is released. -/
  | lineupTimeout (n : Nat) (pa : Nat) (tag : Word)
  /-- FETCH_LINE_BROADCAST (R122): The fetch port serves an instruction line to every pending requester and wakes the slots parked on it. -/
  | fetchLineBroadcast (line : Nat)
  /-- BARRIER_WAKE (R121): A completed phase's wake reaches its waiters over the barrier network. -/
  | barrierWake (scope : Nat) (inst : Nat) (id : Nat) (phase : BitVec 16)
  /-- L2_TLB_HIT (R236): The cluster L2 TLB supplies a missed entry and wakes the parked pair. -/
  | l2TlbHit (slot : Nat)
  /-- WALK_COMPLETE (R237): A page walk completes, filling the TLBs and waking every slot parked on the page, or finding an invalid entry. -/
  | walkComplete (va : Nat)
  /-- PWAKE (R130): The principal's answer wakes the parked slot to retry or to trap PERM. -/
  | pwake (addr : Nat) (deny : Bool) (thread : Nat) (coreSlot : Nat)
  /-- MIGRATION_DEPART (R235): Once its drains complete, a thread that must migrate sends its window, status and mailbox entries to the home die. -/
  | migrationDepart (slot : Nat)
  /-- MIGRATION_ARRIVAL (R235): A migrating thread takes a free slot of its class on the home die and reissues its pair. -/
  | migrationArrival (die : Nat)
  /-- BELL_RING (R131): The resident-cycle count reaches QUANTUM, and the core resets the count and tells firmware. -/
  | bellRing
  /-- PREEMPTION_REQUEST (R133): Firmware pre-empts a partition: issue stops and waits, engines and shared units stop in order. -/
  | preemptionRequest
  /-- CONTEXT_SAVE (R137): Once the drains end, the core writes its save area and sets STATE := 1. -/
  | contextSave (area : Nat)
  /-- PARTITION_SAVE_RECORD (R139): After every core has saved, firmware writes the partition save record. -/
  | partitionSaveRecord (base : Nat)
  /-- CONTEXT_RESUME (R142): A core restores a context and issue begins at the next position 0. -/
  | contextResume (area : Nat) (base : Nat)
  /-- CONTEXT_START (R144): Firmware creates a context with its start state on every partition core. -/
  | contextStart (cfg : CtxConfig)
  /-- DIE_REMAP (R143): Firmware changes a suspended context's map from virtual to physical dies and moves the data of its stacks. -/
  | dieRemap (map : List Nat)
  /-- CONTROLLER_TAKE (R147): 64 cycles after its word retires, the controller takes a subscription, withdrawal, skip or promotion. -/
  | controllerTake
  /-- SEGMENT_CALL (R147): At S − 256 the controller takes roll calls and places a promotion or a timetable segment in the start slot, or leaves it empty. -/
  | segmentCall (track : Nat)
  /-- BLOCK_DELIVERY (R153): A block of a start reaches every core's catch port. -/
  | blockDelivery (track : Nat) (bad : Bool)
  /-- RECORD_TEST (R169): The intersection unit tests a caught record against each of the core's rays. -/
  | recordTest
  /-- HOLD_CLEAR (R174): Firmware clears a segment's HOLD after the remap. -/
  | holdClear (track : Nat) (entry : Nat)
  /-- REMAP_ENTRY (R243): Firmware enters a bad atom into the base-die remap table after a retry read. -/
  | remapEntry (dpa : Nat) (clean : Bool)
  /-- MEM_CONTROLLER_DOWN (R212): A memory controller goes down, so accesses to its homes trap MEM_DOWN and a running XSTRIPE over it stops. -/
  | memControllerDown (stack : Nat) (channel : Nat)
  /-- SEGMENT_DESCRIPTOR_WRITE (R198): An STV to the segment port writes, appends or removes a timetable entry, after its checks and any park. -/
  | segmentDescriptorWrite (r : Rec)
  /-- LAYOUT_ENTRY_WRITE (R279): An STV writes a checked layout-table entry. -/
  | layoutEntryWrite (n : BitVec 6) (r : Rec)
  /-- XCOPY (R280): Pushes a tile copy with scaling and clipping to the transfer queue. -/
  | xcopy (r : Rec)
  /-- XSTRIPE (R209): Pushes a live re-stripe of a page to a new placement. -/
  | xstripe (r : Rec)
  /-- XSCAN (R285): Pushes a threshold scan of an array to the transfer queue. -/
  | xscan (r : Rec)
  /-- XFILL (R284): Pushes a tile fill with a value to the transfer queue. -/
  | xfill (r : Rec)
  /-- TRANSFER_CHUNK (R282): The transfer engine translates, reads and then writes one 4 KiB chunk of its head command, counting rows. -/
  | transferChunk
  /-- XSTRIPE_ATOM_SWITCH (R210): The engine holds, copies and switches one atom to its new home, forwarding the held accesses. -/
  | xstripeAtomSwitch
  /-- SHOOTDOWN_PASSED (R211): The old placement's shootdown passes, the old frames are released and the handle becomes FULL. -/
  | shootdownPassed
  /-- SCAN_COMPLETE (R286): An XSCAN completes, writing the count word and making its handle FULL. -/
  | scanComplete
  /-- MXMAC (R316): Pushes a matrix multiply-accumulate command to the matrix queue. -/
  | mxmac (r : Rec)
  /-- MXWLD (R369): Pushes a weight-buffer load command. -/
  | mxwld (r : Rec)
  /-- MXEPI (R371): Pushes a command that converts C into an output array. -/
  | mxepi (r : Rec)
  /-- MXZERO (R370): Pushes a command that zeroes a region of C. -/
  | mxzero (r : Rec)
  /-- MATRIX_STEP (R340): The sequencer runs one step of its head command once the engine is HOT and the budget allows. -/
  | matrixStep
  /-- ENERGY_REFILL (R343): Every 1,024 cycles LEVEL is refilled by RATE up to CAP. -/
  | energyRefill
  /-- KINDLE_END (R344): The kindle count runs out and the matrix engine becomes HOT. -/
  | kindleEnd
  /-- QUENCH_END (R344): The quench count runs out and the matrix engine becomes COLD. -/
  | quenchEnd
  /-- BURST_DEADLINE (R344): The burst deadline passes with no MXMAC queued and a HOT engine starts quenching. -/
  | burstDeadline
  /-- RTSORT (R313): Pushes a routing sort command to the cluster routing queue. -/
  | rtsort (r : Rec)
  /-- ROUTING_RUN (R314): The routing engine sorts the routes and writes counts and offsets, or faults on a bad entry. -/
  | routingRun (cluster : Nat)
  /-- REPROJ (R201): Pushes a reprojection record to the die's reprojection queue. -/
  | reproj (r : Rec)
  /-- REPROJ_RUN (R202): The reprojection unit carries source keys to the destination buffer with AMOMINU.D. -/
  | reprojRun (die : Nat)
  /-- A2AV (R375): Pushes an uneven all-to-all exchange to the collective queue. -/
  | a2av (r : Rec)
  /-- AREDUCE (R376): Pushes an all-reduce in rank order. -/
  | areduce (r : Rec)
  /-- AGATHER (R376): Pushes an all-gather. -/
  | agather (r : Rec)
  /-- RSCATTER (R376): Pushes a reduce-scatter. -/
  | rscatter (r : Rec)
  /-- COLLECTIVE_START (R347): Once every participant has accepted the matching command, the collective starts or faults on a mismatch. -/
  | collectiveStart (die : Nat) (remote : List RemoteRank)
  /-- COLLECTIVE_COMPLETE (R349): A collective completes with rank-ordered results and a FULL handle. -/
  | collectiveComplete (die : Nat)
  /-- LA_CLAUSE_UPDATE (R382): At the end of a clause's 64 cycles, a training command's new cells for that clause take effect. -/
  | laClauseUpdate
  /-- LAINF_COMPLETE (R384): In the 16th cycle after issue, LAINF writes vd and retires. -/
  | lainfComplete (slot : Nat)
  /-- INFERENCE_RECORD (R391): A caught inference record runs and writes its result to scratchpad in its last cycle. -/
  | inferenceRecord
  /-- CELL_SOFT_ERROR (R394): An uncorrectable error in a cell marks its clause poisoned and is reported to firmware. -/
  | cellSoftError (clause : Nat)
  /-- HOST_ACCESS (R256): A host CXL.mem access is applied at the atom's home. -/
  | hostAccess (dpa : Nat) (data : Option (List Byte)) (size : Nat)
  /-- QREG (R293): The host registers a launch queue. -/
  | qreg (base : Nat) (n : Nat)
  /-- QRESET (R293): The host resets a queue's read positions, HEADs and status words on every die. -/
  | qreset (base : Nat)
  /-- QREMOVE (R293): The host makes every die stop reading a queue. -/
  | qremove (base : Nat)
  /-- CKPT (R301): The host asks for a checkpoint: pre-emption, copy to the buddy, resume. -/
  | ckpt
  /-- PCAP (R307): The host sets the package power cap. -/
  | pcap (watts : Nat)
  /-- CONN (R289): The host writes a connection-table entry, refused as BUSY while a partition using it is resident. -/
  | conn (n : Nat) (v : Word)
  /-- ATTEST (R306): The host asks for a signed attestation report. -/
  | attest (report : Nat) (nonce : Nat)
  /-- CHECKPOINT_COMPLETE (R301): Every package confirms its checkpoint copy and the checkpoint becomes complete. -/
  | checkpointComplete
  /-- JOB_FAULT_RESUME (R302): After a job-interrupting fault, firmware stops the partition, replaces the package and resumes from the last complete checkpoint. -/
  | jobFaultResume (failed : Nat) (cycles : Nat)
  /-- AFYAR_FLIT_RECEIVE (R296): A link receives a flit and acknowledges it if its tag and counter verify. -/
  | afyarFlitReceive (port : Nat) (f : Flit)
  /-- LINK_REPLAY (R296): After 2 µs without an acknowledgement, the sender replays the flit. -/
  | linkReplay (port : Nat)
  /-- LINK_REKEY (R296): After 2^40 flits, a link takes a fresh key. -/
  | linkRekey (port : Nat)
  /-- LINK_TRAINING (R291): The host link trains to the highest mode both ends support. -/
  | linkTraining (host : LinkMode)
  /-- FIRMWARE_BOOT (R303): At reset the boot ROM verifies the firmware image and starts the principals, or offers only CXL.io. -/
  | firmwareBoot
  /-- POWER_SAMPLE (R307): Every 10 ms firmware compares average power with the cap and lowers or raises EFILL. -/
  | powerSample (watts : Nat)
  /-- THERMAL_LIMIT (R309): A die stays at its temperature limit with EFILL at 1, so firmware pre-empts the partition and writes a FAULT event. -/
  | thermalLimit (die : Nat)
  /-- TRACE_RING_DRAIN (R257): In fixed mode, firmware drains a trace ring that holds 2,048 entries to the replay log. -/
  | traceRingDrain
  /-- UNASSIGNED_ENCODING (R47): A word whose major, selector or reserved bits decode to no form issues and traps ILLEGAL. -/
  | unassignedEncoding (w : BitVec 32)
  /-- POSTED_WRITE_DRAIN (R248): A store to a host page that was only posted is applied at the host, which completes it and can retire a waiting FENCE.sys. -/
  | postedWriteDrain
  /-- WATCH_DROP (R99): The core drops its watch of a line and wakes the thread parked in WATCH, which reads the word again. -/
  | watchDrop (slot : Nat)
  /-- FIRMWARE_IMAGE_WRITE (R303): After a failed boot, the host writes a fresh firmware image over CXL.io and the ROM verifies it again. -/
  | firmwareImageWrite (img : FirmwareImage)
  /-- IMAGE_LOAD (R58): Didex loads an image, writing its sections, registering kernels and installing vector, layout and segment entries, or refuses the whole load. -/
  | imageLoad (img : Image)
  /-- CHECKPOINT_SCHEDULE (R301): A checkpoint is taken on the schedule that Hokupen sets, without a CKPT command. -/
  | checkpointSchedule
  /-- REFUSED_COMMAND (R293): Firmware acts on a command line word 0 with an OP it does not list and replies REFUSED. -/
  | refusedCommand (op : BitVec 8)
  /-- DIE_CORES_IN_RESET (R233): A die's cores enter reset while its memory controller stays alive, so accesses that would migrate there trap HOME_DOWN. -/
  | dieCoresInReset (die : Nat)
  deriving DecidableEq, Repr

end Sys2Proof
end

