-- ==== Sys2Proof/WellFormed.lean ====
section
/-!
DEFINITION. Which instructions are well formed: the conditions that R47 puts on a word beyond the widths of its
fields (a special-register number of R49, a barrier scope and id of R45, a rounding mode, a pair of types), and for
the steps that no word encodes, the ranges of what they carry.
-/

namespace Sys2Proof

/-- The special registers of R49. -/
def readable : List Nat :=
  [0x000, 0x001, 0x002, 0x003, 0x004, 0x005, 0x010, 0x011, 0x012, 0x020, 0x021, 0x030, 0x031, 0x032, 0x033, 0x034,
   0x040, 0x041, 0x042, 0x043, 0x044, 0x050, 0x051, 0x060, 0x070, 0x080]

/-- The special registers whose MTS column does not read ILLEGAL alone (R49). -/
def writable : List Nat :=
  [0x030, 0x031, 0x034, 0x040, 0x041, 0x042, 0x043, 0x044, 0x050, 0x051, 0x060, 0x070, 0x080]

/-- How many barriers a scope has (R45); 0 for the scopes that are unassigned. -/
def scopeCount (scope : Nat) : Nat :=
  match scope with
  | 0 => 128 | 1 => 32 | 2 => 64 | 3 => 32 | 4 => 16 | 5 => 8 | _ => 0

/-- The scope is assigned and the id is below its count (R45). -/
abbrev scopeOk (scope : BitVec 3) (id : BitVec 7) : Prop := id.toNat < scopeCount scope.toNat

/-- A pod configuration (R295, R300): a buddy in another power domain, a reserved region inside the package's HBM, and
links of generation 2 or 3. -/
abbrev PodConfig.wf (p : PodConfig) : Prop :=
  p.buddy < 1024 ∧ p.domain ≠ p.buddyDom ∧ p.region.1 + p.region.2 ≤ 2 ^ 39 ∧
    (∀ g ∈ p.ports, (g.1 = 2 ∨ g.1 = 3) ∧ (g.2 = 2 ∨ g.2 = 3)) ∧ ∀ r ∈ p.routes, r.1 < 1024 ∧ r.2 < 32

/-- What a partition configuration names lies in its ranges (R8, R16, R18, R105, R150, R230, R257, R290). -/
abbrev CtxConfig.wf (c : CtxConfig) : Prop :=
  c.rotTab.length = 16 ∧ c.cores.Pairwise (· < ·) ∧ (∀ x ∈ c.cores, x < 3072) ∧ (∀ t ∈ c.tracks, t < 16) ∧
    (∀ h ∈ c.hbmStacks, h < 8) ∧ c.root % 4096 = 0 ∧ (1 ≤ c.packages ∧ c.packages ≤ 1024) ∧
    (∀ e ∈ c.fwVectors, 0xF0 ≤ e.1 ∧ e.1 ≤ 0xFF) ∧ (∀ l ∈ c.replay, ∀ e ∈ l.entries, e.1 < 3072) ∧ c.pod.wf ∧
    c.dieMap.length = 8 ∧ (∀ d ∈ c.dieMap, d < 8) ∧ c.dieMap.Nodup

/-- A flit's fields lie in their ranges (R295). -/
abbrev Flit.wf (f : Flit) : Prop :=
  f.ctr < 2 ^ 64 ∧ f.dpkg < 1024 ∧ f.spkg < 1024 ∧ f.payload.length ≤ 224 ∧ f.cipher.length = 224

/-- The well-formed instructions. DEDUCED (log entry 63). -/
def Instr.wf (i : Instr) : Bool :=
  match i with
  | .mfs _ sr => decide (sr.toNat ∈ readable)
  | .mts _ sr => decide (sr.toNat ∈ writable)
  | .bar _ scope id => decide (scopeOk scope id)
  | .bara _ scope id => decide (scopeOk scope id)
  | .barw _ scope id => decide (scopeOk scope id)
  | .bari _ scope id => decide (scopeOk scope id)
  | .fcvt rnd _ _ dst src => decide (rnd.toNat ≤ 4 ∧ dst ≠ src)
  | .vcmpLtu _ _ ty => decide (ty = 0 ∨ ty = 3)
  | .vcmpGeu _ _ ty => decide (ty = 0 ∨ ty = 3)
  | .vcvtHS _ _ mode => decide (mode.toNat ≤ 4)
  | .vcvtBhS _ _ mode => decide (mode.toNat ≤ 4)
  | .vcvtES _ _ mode => decide (mode.toNat ≤ 4)
  | .vcvtWS _ _ mode => decide (mode.toNat ≤ 4)
  | .vcvtSW _ _ mode => decide (mode.toNat ≤ 4)
  | .vcvtSD _ _ mode => decide (mode.toNat ≤ 4)
  | .vcvtDS _ _ mode => decide (mode.toNat ≤ 4)
  | .vcvtLD _ _ mode => decide (mode.toNat ≤ 4)
  | .vcvtDL _ _ mode => decide (mode.toNat ≤ 4)
  | .vq _ _ mode _ => decide (mode.toNat ≤ 4)
  | .vqSc _ _ mode _ => decide (mode.toNat ≤ 4)
  | .messageArrival m => decide (m.body.length = 7)
  | .contextStart cfg => decide (cfg.wf)
  | .dieRemap map => decide (map.length = 8)
  | .afyarFlitReceive port f => decide (port < 32 ∧ f.wf)
  | .jobFaultResume failed cycles => decide (failed < 1024 ∧ cycles ≤ 21600000000)
  | .memControllerDown stack channel => decide (stack < 8 ∧ channel < 32)
  | .cellSoftError clause => decide (clause < 128)
  | .nop | .endThread | .yield | .swtrap _ | .rett | .lineup _ | .burst _ | .fenceRx | .fenceEng | .fenceSys |
    .waitrx _ | .rottabWrite _ _ | .rotpolWrite _ | .rotationSwitch | .tvecWrite _ _ | .bellWrite _ | .tblcfgWrite _
    | .ebudgetWrite _ | .efillWrite _ | .footprintWrite _ | .jmp _ | .jal _ _ | .jalr _ _ _ | .beq _ _ _ |
    .bne _ _ _ | .blt _ _ _ | .bge _ _ _ | .bltu _ _ _ | .bgeu _ _ _ | .bset _ _ _ | .bclr _ _ _ | .beqz _ _ |
    .bnez _ _ | .bltz _ _ | .bgez _ _ | .bgtz _ _ | .blez _ _ | .ldB _ _ _ | .ldBu _ _ _ | .ldH _ _ _ | .ldHu _ _ _
    | .ldW _ _ _ | .ldWu _ _ _ | .ldD _ _ _ | .ldBRx _ _ _ | .ldBuRx _ _ _ | .ldHRx _ _ _ | .ldHuRx _ _ _ |
    .ldWRx _ _ _ | .ldWuRx _ _ _ | .ldDRx _ _ _ | .stB _ _ _ | .stH _ _ _ | .stW _ _ _ | .stD _ _ _ | .stBRx _ _ _ |
    .stHRx _ _ _ | .stWRx _ _ _ | .stDRx _ _ _ | .ldv _ _ _ | .stv _ _ _ | .gather _ _ _ | .scatter _ _ _ |
    .ldvRx _ _ _ | .stvRx _ _ _ | .gatherRx _ _ _ | .scatterRx _ _ _ | .amoaddW _ _ _ | .amoandW _ _ _ |
    .amoorW _ _ _ | .amoxorW _ _ _ | .amominW _ _ _ | .amomaxW _ _ _ | .amominuW _ _ _ | .amomaxuW _ _ _ |
    .amoswapW _ _ _ | .amocasW _ _ _ | .amoaddD _ _ _ | .amoandD _ _ _ | .amoorD _ _ _ | .amoxorD _ _ _ |
    .amominD _ _ _ | .amomaxD _ _ _ | .amominuD _ _ _ | .amomaxuD _ _ _ | .amoswapD _ _ _ | .amocasD _ _ _ |
    .htake _ _ _ | .hgive _ _ _ | .hwait _ _ _ | .hstat _ _ _ | .hgen _ _ | .hring _ _ _ | .send _ _ _ | .recv _ _ |
    .recva _ | .mbox _ | .carsub _ _ _ | .carunsub _ _ _ | .carskip _ | .carpromo _ _ | .carpos _ _ |
    .carwaitRay _ _ | .carwaitStart _ _ | .carwaitVerdict _ _ | .rayput _ _ | .rayget _ _ | .raysub _ _ _ |
    .hitpop _ _ | .raykill _ _ | .lainf _ _ | .lafb1 _ _ | .lafb2 _ _ | .lard _ _ | .lawr _ _ | .laseed _ _ |
    .laclr _ | .tsreq _ _ _ | .tsfill _ _ _ | .tswait _ _ _ | .watch _ _ _ | .tid _ | .tblw _ _ | .tblr _ _ |
    .add _ _ _ | .sub _ _ _ | .and _ _ _ | .or _ _ _ | .xor _ _ _ | .andn _ _ _ | .shl _ _ _ | .shr _ _ _ |
    .sar _ _ _ | .rol _ _ _ | .ror _ _ _ | .slt _ _ _ | .sltu _ _ _ | .seq _ _ _ | .min _ _ _ | .max _ _ _ |
    .minu _ _ _ | .maxu _ _ _ | .mul _ _ _ | .mulh _ _ _ | .mulhu _ _ _ | .div _ _ _ | .divu _ _ _ | .rem _ _ _ |
    .remu _ _ _ | .sel _ _ _ | .clz _ _ | .ctz _ _ | .popc _ _ | .brev _ _ | .ilv2 _ _ _ | .ilv3 _ _ _ |
    .dilv2 _ _ _ | .dilv3 _ _ _ | .extr _ _ _ | .depo _ _ _ | .bswap _ _ | .addp _ _ _ | .mkptr _ _ _ | .ptag _ _ |
    .vkey _ _ _ | .addi _ _ _ | .andi _ _ _ | .ori _ _ _ | .xori _ _ _ | .shli _ _ _ | .shri _ _ _ | .sari _ _ _ |
    .roli _ _ _ | .rori _ _ _ | .slti _ _ _ | .addpi _ _ _ | .ldi _ _ | .ldih _ _ | .movx _ _ _ | .movxs _ _ _ |
    .faddD _ _ _ | .fsubD _ _ _ | .fmulD _ _ _ | .fdivD _ _ _ | .fsqrtD _ _ | .fmaD _ _ _ | .fminD _ _ _ |
    .fmaxD _ _ _ | .feqD _ _ _ | .fltD _ _ _ | .fleD _ _ _ | .fclassD _ _ | .fsgnjD _ _ _ | .fsgnjnD _ _ _ |
    .faddS _ _ _ | .fsubS _ _ _ | .fmulS _ _ _ | .fdivS _ _ _ | .fsqrtS _ _ | .fmaS _ _ _ | .fminS _ _ _ |
    .fmaxS _ _ _ | .feqS _ _ _ | .fltS _ _ _ | .fleS _ _ _ | .fclassS _ _ | .fsgnjS _ _ _ | .fsgnjnS _ _ _ |
    .vadd _ _ _ | .vsub _ _ _ | .vand _ _ _ | .vor _ _ _ | .vxor _ _ _ | .vshl _ _ _ | .vshr _ _ _ | .vsar _ _ _ |
    .vmin _ _ _ | .vmax _ _ _ | .vminu _ _ _ | .vmaxu _ _ _ | .vmul _ _ _ | .vmulh _ _ _ | .vadds _ _ _ |
    .vsubs _ _ _ | .vfaddS _ _ _ | .vfsubS _ _ _ | .vfmulS _ _ _ | .vfdivS _ _ _ | .vfsqrtS _ _ | .vfmaS _ _ _ |
    .vfminS _ _ _ | .vfmaxS _ _ _ | .vfaddD _ _ _ | .vfsubD _ _ _ | .vfmulD _ _ _ | .vfdivD _ _ _ | .vfsqrtD _ _ |
    .vfmaD _ _ _ | .vfminD _ _ _ | .vfmaxD _ _ _ | .vbcast _ _ | .vbcastD _ _ | .vext _ _ _ | .vins _ _ _ |
    .vperm _ _ _ | .vredAddW _ _ | .vredMinW _ _ | .vredMaxW _ _ | .vredMinuW _ _ | .vredMaxuW _ _ | .vredAndW _ _ |
    .vredOrW _ _ | .vredXorW _ _ | .vredFaddS _ _ | .vredFminS _ _ | .vredFmaxS _ _ | .vredFaddD _ _ |
    .vredFminD _ _ | .vredFmaxD _ _ | .vredAddD _ _ | .vcmpEq _ _ _ | .vcmpNe _ _ _ | .vcmpLt _ _ _ | .vcmpGe _ _ _
    | .vsel _ _ _ | .vdq _ _ _ | .vdqSc _ _ _ | .boxt _ _ _ | .trit _ _ _ | .splt _ _ _ | .blockingReply _ |
    .relaxedAccessComplete _ | .holdEnd _ | .waitingMessageStart _ | .deviceMessageEntry | .launchRecord _ _ |
    .dynamicTaskDispatch _ | .lineupRelease _ _ _ | .lineupTimeout _ _ _ | .fetchLineBroadcast _ |
    .barrierWake _ _ _ _ | .l2TlbHit _ | .walkComplete _ | .pwake _ _ _ _ | .migrationDepart _ | .migrationArrival _
    | .bellRing | .preemptionRequest | .contextSave _ | .partitionSaveRecord _ | .contextResume _ _ |
    .controllerTake | .segmentCall _ | .blockDelivery _ _ | .recordTest | .holdClear _ _ | .remapEntry _ _ |
    .segmentDescriptorWrite _ | .layoutEntryWrite _ _ | .xcopy _ | .xstripe _ | .xscan _ | .xfill _ | .transferChunk
    | .xstripeAtomSwitch | .shootdownPassed | .scanComplete | .mxmac _ | .mxwld _ | .mxepi _ | .mxzero _ |
    .matrixStep | .energyRefill | .kindleEnd | .quenchEnd | .burstDeadline | .rtsort _ | .routingRun _ | .reproj _ |
    .reprojRun _ | .a2av _ | .areduce _ | .agather _ | .rscatter _ | .collectiveStart _ _ | .collectiveComplete _ |
    .laClauseUpdate | .lainfComplete _ | .inferenceRecord | .hostAccess _ _ _ | .qreg _ _ | .qreset _ | .qremove _ |
    .ckpt | .pcap _ | .conn _ _ | .attest _ _ | .checkpointComplete | .linkReplay _ | .linkRekey _ | .linkTraining _ | .firmwareBoot | .powerSample _ | .thermalLimit _ |
    .traceRingDrain | .unassignedEncoding _ | .postedWriteDrain | .watchDrop _ | .firmwareImageWrite _ |
    .imageLoad _ | .checkpointSchedule | .refusedCommand _ | .dieCoresInReset _ => true

end Sys2Proof
end

