-- ==== Sys2Proof/Decode.lean ====
section
/-!
DEFINITION. The decoder and the encoder, written from the formats of R40 and the opcode maps of R45 and R46. The
decoder is total: a word that R47 leaves unassigned decodes to nothing. Bit 31 (P) belongs to the pair and is not
read here. Lean's code generator gives a constructor of one inductive at most 244 tags, and the opcode table has
380 rows: what builds instructions is therefore marked noncomputable, and is evaluated by the kernel.
-/

namespace Sys2Proof

/-! ## Fields -/

/-- Bits lo + n - 1 : lo of a word. -/
def fld (w : BitVec 32) (lo n : Nat) : BitVec n := w.extractLsb' lo n

/-- Bits 6:4 of a vector-register field are 0 (R42). -/
def isVec (x : BitVec 7) : Bool := x.extractLsb' 4 3 == 0

/-- The vector register a field names. -/
def vecOf (x : BitVec 7) : BitVec 4 := x.extractLsb' 0 4

/-! ## The nine formats (R40), with P = 0 -/

/-- RRR and M: op6, fn4, d7, a7, b7 or imm7. -/
def wordRrr (op : BitVec 6) (fn : BitVec 4) (d a b : BitVec 7) : BitVec 32 := 0#1 ++ op ++ fn ++ d ++ a ++ b
/-- RRI: op6, d7, a7, imm11. -/
def wordRri (op : BitVec 6) (d a : BitVec 7) (imm : BitVec 11) : BitVec 32 := 0#1 ++ op ++ d ++ a ++ imm
/-- RI: op6, d7, imm18. -/
def wordRi (op : BitVec 6) (d : BitVec 7) (imm : BitVec 18) : BitVec 32 := 0#1 ++ op ++ d ++ imm
/-- J: op6, disp25. -/
def wordJ (op : BitVec 6) (disp : BitVec 25) : BitVec 32 := 0#1 ++ op ++ disp
/-- B: op6, cond3, a7, b7, disp8. -/
def wordB (op : BitVec 6) (cond : BitVec 3) (a b : BitVec 7) (disp : BitVec 8) : BitVec 32 :=
  0#1 ++ op ++ cond ++ a ++ b ++ disp
/-- BZ: op6, cond3, a7, disp15. -/
def wordBz (op : BitVec 6) (cond : BitVec 3) (a : BitVec 7) (disp : BitVec 15) : BitVec 32 :=
  0#1 ++ op ++ cond ++ a ++ disp
/-- S: op6, fn5, imm20. -/
def wordS (op : BitVec 6) (fn : BitVec 5) (imm : BitVec 20) : BitVec 32 := 0#1 ++ op ++ fn ++ imm
/-- MS: op6, type8, a7, b7, fn3. -/
def wordMs (op : BitVec 6) (ty : BitVec 8) (a b : BitVec 7) (fn : BitVec 3) : BitVec 32 :=
  0#1 ++ op ++ ty ++ a ++ b ++ fn

/-! ## Decoding, group by group -/

/-- CARWAIT: b7 selects the kind (R184). -/
noncomputable def decodeCarwait (d a b : BitVec 7) : Option Instr :=
  match b.toNat with
  | 0 => some (.carwaitRay d a)
  | 1 => some (.carwaitStart d a)
  | 2 => some (.carwaitVerdict d a)
  | _ => none

/-- VBCAST: b7 selects the lane width (R354). -/
noncomputable def decodeVbcast (d a b : BitVec 7) : Option Instr :=
  match b.toNat with
  | 0 => if isVec d then some (.vbcast (vecOf d) a) else none
  | 1 => if isVec d then some (.vbcastD (vecOf d) a) else none
  | _ => none

/-- VRED: b7 selects the operation (R357). -/
noncomputable def decodeVred (d a b : BitVec 7) : Option Instr :=
  if isVec a then
    match b.toNat with
    | 0x0 => some (.vredAddW d (vecOf a))
    | 0x1 => some (.vredMinW d (vecOf a))
    | 0x2 => some (.vredMaxW d (vecOf a))
    | 0x3 => some (.vredMinuW d (vecOf a))
    | 0x4 => some (.vredMaxuW d (vecOf a))
    | 0x5 => some (.vredAndW d (vecOf a))
    | 0x6 => some (.vredOrW d (vecOf a))
    | 0x7 => some (.vredXorW d (vecOf a))
    | 0x8 => some (.vredFaddS d (vecOf a))
    | 0x9 => some (.vredFminS d (vecOf a))
    | 0xa => some (.vredFmaxS d (vecOf a))
    | 0xb => some (.vredFaddD d (vecOf a))
    | 0xc => some (.vredFminD d (vecOf a))
    | 0xd => some (.vredFmaxD d (vecOf a))
    | 0xe => some (.vredAddD d (vecOf a))
    | _ => none
  else none

/-- VCMP: b7 is 8 * type + cond (R358). -/
noncomputable def decodeVcmp (d a b : BitVec 7) : Option Instr :=
  if isVec d && isVec a && b.extractLsb' 5 2 == 0 then
    match (b.extractLsb' 0 3).toNat with
    | 0x0 => some (.vcmpEq (vecOf d) (vecOf a) (b.extractLsb' 3 2))
    | 0x1 => some (.vcmpNe (vecOf d) (vecOf a) (b.extractLsb' 3 2))
    | 0x2 => some (.vcmpLt (vecOf d) (vecOf a) (b.extractLsb' 3 2))
    | 0x3 => some (.vcmpGe (vecOf d) (vecOf a) (b.extractLsb' 3 2))
    | 0x4 => some (.vcmpLtu (vecOf d) (vecOf a) (b.extractLsb' 3 2))
    | 0x5 => some (.vcmpGeu (vecOf d) (vecOf a) (b.extractLsb' 3 2))
    | _ => none
  else none

/-- VCVT: b7 is 8 * op + mode (R360). -/
noncomputable def decodeVcvt (d a b : BitVec 7) : Option Instr :=
  if isVec d && isVec a then
    match (b.extractLsb' 3 4).toNat with
    | 0x0 => some (.vcvtHS (vecOf d) (vecOf a) (b.extractLsb' 0 3))
    | 0x1 => some (.vcvtBhS (vecOf d) (vecOf a) (b.extractLsb' 0 3))
    | 0x2 => some (.vcvtES (vecOf d) (vecOf a) (b.extractLsb' 0 3))
    | 0x3 => some (.vcvtWS (vecOf d) (vecOf a) (b.extractLsb' 0 3))
    | 0x4 => some (.vcvtSW (vecOf d) (vecOf a) (b.extractLsb' 0 3))
    | 0x5 => some (.vcvtSD (vecOf d) (vecOf a) (b.extractLsb' 0 3))
    | 0x6 => some (.vcvtDS (vecOf d) (vecOf a) (b.extractLsb' 0 3))
    | 0x7 => some (.vcvtLD (vecOf d) (vecOf a) (b.extractLsb' 0 3))
    | 0x8 => some (.vcvtDL (vecOf d) (vecOf a) (b.extractLsb' 0 3))
    | _ => none
  else none

/-- VQ: b7 holds SC, the mode and the format (R362). -/
noncomputable def decodeVq (d a b : BitVec 7) : Option Instr :=
  if isVec d && isVec a then
    match (b.extractLsb' 4 3).toNat with
    | 0 => some (.vq (vecOf d) (vecOf a) (b.extractLsb' 1 3) (b.extractLsb' 0 1))
    | 1 => some (.vqSc (vecOf d) (vecOf a) (b.extractLsb' 1 3) (b.extractLsb' 0 1))
    | _ => none
  else none

/-- VDQ: b7 holds .sc and the format (R363). -/
noncomputable def decodeVdq (d a b : BitVec 7) : Option Instr :=
  if isVec d && isVec a then
    match (b.extractLsb' 1 6).toNat with
    | 0 => some (.vdq (vecOf d) (vecOf a) (b.extractLsb' 0 1))
    | 1 => some (.vdqSc (vecOf d) (vecOf a) (b.extractLsb' 0 1))
    | _ => none
  else none

/-- SYS (R83). -/
noncomputable def decodeSys (fn : BitVec 5) (imm : BitVec 20) : Option Instr :=
  match fn.toNat with
  | 0x0 => if imm == 0x0 then some .nop else none
  | 0x1 => if imm == 0x0 then some .endThread else none
  | 0x2 => if imm == 0x0 then some .yield else none
  | 0x3 => some (.swtrap imm)
  | 0x4 => if imm == 0x0 then some .rett else none
  | 0x5 => if imm.extractLsb' 8 12 == 0 then some (.lineup (imm.extractLsb' 0 8)) else none
  | 0x6 => if imm.extractLsb' 16 4 == 0 then some (.burst (imm.extractLsb' 0 16)) else none
  | 0x7 => if imm == 0x0 then some .fenceRx else none
  | 0x8 => if imm == 0x0 then some .fenceEng else none
  | 0x9 => if imm == 0x0 then some .fenceSys else none
  | 0xa => if imm.extractLsb' 5 15 == 0 then some (.waitrx (imm.extractLsb' 0 5)) else none
  | _ => none

/-- BAR: kind, scope and id in imm18 (R45, R97). -/
noncomputable def decodeBar (d : BitVec 7) (imm : BitVec 18) : Option Instr :=
  if imm.extractLsb' 7 6 == 0 then
    let scope := imm.extractLsb' 13 3
    let id := imm.extractLsb' 0 7
    match (imm.extractLsb' 16 2).toNat with
    | 0 => some (.bar d scope id)
    | 1 => some (.bara d scope id)
    | 2 => some (.barw d scope id)
    | _ => some (.bari d scope id)
  else none

/-- SHIFTI: the kind in imm11 bits 10:8, the amount in bits 5:0 (R68). -/
noncomputable def decodeShifti (d a : BitVec 7) (imm : BitVec 11) : Option Instr :=
  if imm.extractLsb' 6 2 == 0 then
    let n := imm.extractLsb' 0 6
    match (imm.extractLsb' 8 3).toNat with
    | 0 => some (.shli d a n)
    | 1 => some (.shri d a n)
    | 2 => some (.sari d a n)
    | 3 => some (.roli d a n)
    | 4 => some (.rori d a n)
    | _ => none
  else none

/-- FCVT: fn4 holds the rounding, b7 the destination and source types (R76). -/
noncomputable def decodeFcvt (fn : BitVec 4) (d a b : BitVec 7) : Option Instr :=
  if fn.extractLsb' 3 1 == 0 && b.extractLsb' 0 1 == 0 then
    some (.fcvt (fn.extractLsb' 0 3) d a (b.extractLsb' 4 3) (b.extractLsb' 1 3))
  else none

/-- MSG (R91 to R95): fn3 selects the form; type8 is used by SEND only. -/
noncomputable def decodeMsg (ty : BitVec 8) (a b : BitVec 7) (fn : BitVec 3) : Option Instr :=
  match fn.toNat with
  | 0 => some (.send ty a b)
  | 1 => if ty == 0 then some (.recv a b) else none
  | 2 => if ty == 0 && a == 0 then some (.recva b) else none
  | 3 => if ty == 0 && a == 0 then some (.mbox b) else none
  | _ => none

/-- BR (R79). -/
noncomputable def decodeBr (cond : BitVec 3) (a : BitVec 7) (b : BitVec 7) (imm : BitVec 8) : Option Instr :=
  match cond.toNat with
  | 0x0 => some (.beq a b imm)
  | 0x1 => some (.bne a b imm)
  | 0x2 => some (.blt a b imm)
  | 0x3 => some (.bge a b imm)
  | 0x4 => some (.bltu a b imm)
  | 0x5 => some (.bgeu a b imm)
  | 0x6 => some (.bset a b imm)
  | 0x7 => some (.bclr a b imm)
  | _ => none

/-- BRZ (R80). -/
noncomputable def decodeBrz (cond : BitVec 3) (a : BitVec 7) (imm : BitVec 15) : Option Instr :=
  match cond.toNat with
  | 0x0 => some (.beqz a imm)
  | 0x1 => some (.bnez a imm)
  | 0x2 => some (.bltz a imm)
  | 0x3 => some (.bgez a imm)
  | 0x4 => some (.bgtz a imm)
  | 0x5 => some (.blez a imm)
  | _ => none

/-- LD (R261). -/
noncomputable def decodeLd (fn : BitVec 4) (d : BitVec 7) (a : BitVec 7) (b : BitVec 7) : Option Instr :=
  match fn.toNat with
  | 0x0 => some (.ldB d a b)
  | 0x1 => some (.ldBu d a b)
  | 0x2 => some (.ldH d a b)
  | 0x3 => some (.ldHu d a b)
  | 0x4 => some (.ldW d a b)
  | 0x5 => some (.ldWu d a b)
  | 0x6 => some (.ldD d a b)
  | 0x8 => some (.ldBRx d a b)
  | 0x9 => some (.ldBuRx d a b)
  | 0xa => some (.ldHRx d a b)
  | 0xb => some (.ldHuRx d a b)
  | 0xc => some (.ldWRx d a b)
  | 0xd => some (.ldWuRx d a b)
  | 0xe => some (.ldDRx d a b)
  | _ => none

/-- ST (R261). -/
noncomputable def decodeSt (fn : BitVec 4) (d : BitVec 7) (a : BitVec 7) (b : BitVec 7) : Option Instr :=
  match fn.toNat with
  | 0x0 => some (.stB d a b)
  | 0x1 => some (.stH d a b)
  | 0x2 => some (.stW d a b)
  | 0x3 => some (.stD d a b)
  | 0x8 => some (.stBRx d a b)
  | 0x9 => some (.stHRx d a b)
  | 0xa => some (.stWRx d a b)
  | 0xb => some (.stDRx d a b)
  | _ => none

/-- VMEM (R262 to R267). -/
noncomputable def decodeVmem (fn : BitVec 4) (d : BitVec 7) (a : BitVec 7) (b : BitVec 7) : Option Instr :=
  match fn.toNat with
  | 0x0 => if isVec d then some (.ldv (vecOf d) a b) else none
  | 0x1 => if isVec d then some (.stv (vecOf d) a b) else none
  | 0x2 => if isVec d && isVec b then some (.gather (vecOf d) a (vecOf b)) else none
  | 0x3 => if isVec d && isVec b then some (.scatter (vecOf d) a (vecOf b)) else none
  | 0x8 => if isVec d then some (.ldvRx (vecOf d) a b) else none
  | 0x9 => if isVec d then some (.stvRx (vecOf d) a b) else none
  | 0xa => if isVec d && isVec b then some (.gatherRx (vecOf d) a (vecOf b)) else none
  | 0xb => if isVec d && isVec b then some (.scatterRx (vecOf d) a (vecOf b)) else none
  | _ => none

/-- AMO.W (R268). -/
noncomputable def decodeAmoW (fn : BitVec 4) (d : BitVec 7) (a : BitVec 7) (b : BitVec 7) : Option Instr :=
  match fn.toNat with
  | 0x0 => some (.amoaddW d a b)
  | 0x1 => some (.amoandW d a b)
  | 0x2 => some (.amoorW d a b)
  | 0x3 => some (.amoxorW d a b)
  | 0x4 => some (.amominW d a b)
  | 0x5 => some (.amomaxW d a b)
  | 0x6 => some (.amominuW d a b)
  | 0x7 => some (.amomaxuW d a b)
  | 0x8 => some (.amoswapW d a b)
  | 0x9 => some (.amocasW d a b)
  | _ => none

/-- AMO.D (R268). -/
noncomputable def decodeAmoD (fn : BitVec 4) (d : BitVec 7) (a : BitVec 7) (b : BitVec 7) : Option Instr :=
  match fn.toNat with
  | 0x0 => some (.amoaddD d a b)
  | 0x1 => some (.amoandD d a b)
  | 0x2 => some (.amoorD d a b)
  | 0x3 => some (.amoxorD d a b)
  | 0x4 => some (.amominD d a b)
  | 0x5 => some (.amomaxD d a b)
  | 0x6 => some (.amominuD d a b)
  | 0x7 => some (.amomaxuD d a b)
  | 0x8 => some (.amoswapD d a b)
  | 0x9 => some (.amocasD d a b)
  | _ => none

/-- HND (R272 to R275). -/
noncomputable def decodeHnd (fn : BitVec 4) (d : BitVec 7) (a : BitVec 7) (b : BitVec 7) : Option Instr :=
  match fn.toNat with
  | 0x0 => some (.htake d a b)
  | 0x1 => some (.hgive d a b)
  | 0x2 => some (.hwait d a b)
  | 0x3 => some (.hstat d a b)
  | 0x4 => if b == 0x0 then some (.hgen d a) else none
  | 0x5 => some (.hring d a b)
  | _ => none

/-- CAR (R176 to R185). -/
noncomputable def decodeCar (fn : BitVec 4) (d : BitVec 7) (a : BitVec 7) (b : BitVec 7) : Option Instr :=
  match fn.toNat with
  | 0x0 => some (.carsub d a b)
  | 0x1 => some (.carunsub d a b)
  | 0x2 => if d == 0x0 && b == 0x0 then some (.carskip a) else none
  | 0x3 => if d == 0x0 then some (.carpromo a b) else none
  | 0x4 => if b == 0x0 then some (.carpos d a) else none
  | 0x5 => decodeCarwait d a b
  | _ => none

/-- RAY (R186 to R189). -/
noncomputable def decodeRay (fn : BitVec 4) (d : BitVec 7) (a : BitVec 7) (b : BitVec 7) : Option Instr :=
  match fn.toNat with
  | 0x0 => if isVec d && b == 0x0 then some (.rayput (vecOf d) a) else none
  | 0x1 => if isVec d && b == 0x0 then some (.rayget (vecOf d) a) else none
  | 0x2 => some (.raysub d a b)
  | 0x3 => if b == 0x0 then some (.hitpop d a) else none
  | 0x4 => if b == 0x0 then some (.raykill d a) else none
  | _ => none

/-- LA (R380 to R384). -/
noncomputable def decodeLa (fn : BitVec 4) (d : BitVec 7) (a : BitVec 7) (b : BitVec 7) : Option Instr :=
  match fn.toNat with
  | 0x0 => if isVec d && isVec a && b == 0x0 then some (.lainf (vecOf d) (vecOf a)) else none
  | 0x1 => if isVec a && b == 0x0 then some (.lafb1 d (vecOf a)) else none
  | 0x2 => if isVec a && b == 0x0 then some (.lafb2 d (vecOf a)) else none
  | 0x3 => if b == 0x0 then some (.lard d a) else none
  | 0x4 => if d == 0x0 then some (.lawr a b) else none
  | 0x5 => if d == 0x0 then some (.laseed a b) else none
  | 0x6 => if d == 0x0 && b == 0x0 then some (.laclr a) else none
  | _ => none

/-- TSC (R205). -/
noncomputable def decodeTsc (fn : BitVec 4) (d : BitVec 7) (a : BitVec 7) (b : BitVec 7) : Option Instr :=
  match fn.toNat with
  | 0x0 => if isVec b then some (.tsreq d a (vecOf b)) else none
  | 0x1 => if isVec b then some (.tsfill d a (vecOf b)) else none
  | 0x2 => if isVec b then some (.tswait d a (vecOf b)) else none
  | _ => none

/-- MISC (R99, R100, R365). -/
noncomputable def decodeMisc (fn : BitVec 4) (d : BitVec 7) (a : BitVec 7) (b : BitVec 7) : Option Instr :=
  match fn.toNat with
  | 0x0 => some (.watch d a b)
  | 0x1 => if a == 0x0 && b == 0x0 then some (.tid d) else none
  | 0x2 => if d == 0x0 then some (.tblw a b) else none
  | 0x3 => if b == 0x0 then some (.tblr d a) else none
  | _ => none

/-- IOP (R62). -/
noncomputable def decodeIop (fn : BitVec 4) (d : BitVec 7) (a : BitVec 7) (b : BitVec 7) : Option Instr :=
  match fn.toNat with
  | 0x0 => some (.add d a b)
  | 0x1 => some (.sub d a b)
  | 0x2 => some (.and d a b)
  | 0x3 => some (.or d a b)
  | 0x4 => some (.xor d a b)
  | 0x5 => some (.andn d a b)
  | 0x6 => some (.shl d a b)
  | 0x7 => some (.shr d a b)
  | 0x8 => some (.sar d a b)
  | 0x9 => some (.rol d a b)
  | 0xa => some (.ror d a b)
  | 0xb => some (.slt d a b)
  | 0xc => some (.sltu d a b)
  | 0xd => some (.seq d a b)
  | 0xe => some (.min d a b)
  | 0xf => some (.max d a b)
  | _ => none

/-- IOP2 (R63). -/
noncomputable def decodeIop2 (fn : BitVec 4) (d : BitVec 7) (a : BitVec 7) (b : BitVec 7) : Option Instr :=
  match fn.toNat with
  | 0x0 => some (.minu d a b)
  | 0x1 => some (.maxu d a b)
  | 0x2 => some (.mul d a b)
  | 0x3 => some (.mulh d a b)
  | 0x4 => some (.mulhu d a b)
  | 0x5 => some (.div d a b)
  | 0x6 => some (.divu d a b)
  | 0x7 => some (.rem d a b)
  | 0x8 => some (.remu d a b)
  | 0x9 => some (.sel d a b)
  | 0xa => if b == 0x0 then some (.clz d a) else none
  | 0xb => if b == 0x0 then some (.ctz d a) else none
  | 0xc => if b == 0x0 then some (.popc d a) else none
  | 0xd => if b == 0x0 then some (.brev d a) else none
  | 0xe => some (.ilv2 d a b)
  | 0xf => some (.ilv3 d a b)
  | _ => none

/-- IOP3 (R65, R66, R70, R71, R196). -/
noncomputable def decodeIop3 (fn : BitVec 4) (d : BitVec 7) (a : BitVec 7) (b : BitVec 7) : Option Instr :=
  match fn.toNat with
  | 0x0 => some (.dilv2 d a b)
  | 0x1 => some (.dilv3 d a b)
  | 0x2 => some (.extr d a b)
  | 0x3 => some (.depo d a b)
  | 0x4 => if b == 0x0 then some (.bswap d a) else none
  | 0x5 => some (.addp d a b)
  | 0x6 => some (.mkptr d a b)
  | 0x7 => if b == 0x0 then some (.ptag d a) else none
  | 0x8 => some (.vkey d a b)
  | _ => none

/-- FOP.D (R74). -/
noncomputable def decodeFopD (fn : BitVec 4) (d : BitVec 7) (a : BitVec 7) (b : BitVec 7) : Option Instr :=
  match fn.toNat with
  | 0x0 => some (.faddD d a b)
  | 0x1 => some (.fsubD d a b)
  | 0x2 => some (.fmulD d a b)
  | 0x3 => some (.fdivD d a b)
  | 0x4 => if b == 0x0 then some (.fsqrtD d a) else none
  | 0x5 => some (.fmaD d a b)
  | 0x6 => some (.fminD d a b)
  | 0x7 => some (.fmaxD d a b)
  | 0x8 => some (.feqD d a b)
  | 0x9 => some (.fltD d a b)
  | 0xa => some (.fleD d a b)
  | 0xb => if b == 0x0 then some (.fclassD d a) else none
  | 0xc => some (.fsgnjD d a b)
  | 0xd => some (.fsgnjnD d a b)
  | _ => none

/-- FOP.S (R74). -/
noncomputable def decodeFopS (fn : BitVec 4) (d : BitVec 7) (a : BitVec 7) (b : BitVec 7) : Option Instr :=
  match fn.toNat with
  | 0x0 => some (.faddS d a b)
  | 0x1 => some (.fsubS d a b)
  | 0x2 => some (.fmulS d a b)
  | 0x3 => some (.fdivS d a b)
  | 0x4 => if b == 0x0 then some (.fsqrtS d a) else none
  | 0x5 => some (.fmaS d a b)
  | 0x6 => some (.fminS d a b)
  | 0x7 => some (.fmaxS d a b)
  | 0x8 => some (.feqS d a b)
  | 0x9 => some (.fltS d a b)
  | 0xa => some (.fleS d a b)
  | 0xb => if b == 0x0 then some (.fclassS d a) else none
  | 0xc => some (.fsgnjS d a b)
  | 0xd => some (.fsgnjnS d a b)
  | _ => none

/-- VOP (R352). -/
noncomputable def decodeVop (fn : BitVec 4) (d : BitVec 7) (a : BitVec 7) (b : BitVec 7) : Option Instr :=
  match fn.toNat with
  | 0x0 => if isVec d && isVec a && isVec b then some (.vadd (vecOf d) (vecOf a) (vecOf b)) else none
  | 0x1 => if isVec d && isVec a && isVec b then some (.vsub (vecOf d) (vecOf a) (vecOf b)) else none
  | 0x2 => if isVec d && isVec a && isVec b then some (.vand (vecOf d) (vecOf a) (vecOf b)) else none
  | 0x3 => if isVec d && isVec a && isVec b then some (.vor (vecOf d) (vecOf a) (vecOf b)) else none
  | 0x4 => if isVec d && isVec a && isVec b then some (.vxor (vecOf d) (vecOf a) (vecOf b)) else none
  | 0x5 => if isVec d && isVec a && isVec b then some (.vshl (vecOf d) (vecOf a) (vecOf b)) else none
  | 0x6 => if isVec d && isVec a && isVec b then some (.vshr (vecOf d) (vecOf a) (vecOf b)) else none
  | 0x7 => if isVec d && isVec a && isVec b then some (.vsar (vecOf d) (vecOf a) (vecOf b)) else none
  | 0x8 => if isVec d && isVec a && isVec b then some (.vmin (vecOf d) (vecOf a) (vecOf b)) else none
  | 0x9 => if isVec d && isVec a && isVec b then some (.vmax (vecOf d) (vecOf a) (vecOf b)) else none
  | 0xa => if isVec d && isVec a && isVec b then some (.vminu (vecOf d) (vecOf a) (vecOf b)) else none
  | 0xb => if isVec d && isVec a && isVec b then some (.vmaxu (vecOf d) (vecOf a) (vecOf b)) else none
  | 0xc => if isVec d && isVec a && isVec b then some (.vmul (vecOf d) (vecOf a) (vecOf b)) else none
  | 0xd => if isVec d && isVec a && isVec b then some (.vmulh (vecOf d) (vecOf a) (vecOf b)) else none
  | 0xe => if isVec d && isVec a && isVec b then some (.vadds (vecOf d) (vecOf a) (vecOf b)) else none
  | 0xf => if isVec d && isVec a && isVec b then some (.vsubs (vecOf d) (vecOf a) (vecOf b)) else none
  | _ => none

/-- VFOP (R353). -/
noncomputable def decodeVfop (fn : BitVec 4) (d : BitVec 7) (a : BitVec 7) (b : BitVec 7) : Option Instr :=
  match fn.toNat with
  | 0x0 => if isVec d && isVec a && isVec b then some (.vfaddS (vecOf d) (vecOf a) (vecOf b)) else none
  | 0x1 => if isVec d && isVec a && isVec b then some (.vfsubS (vecOf d) (vecOf a) (vecOf b)) else none
  | 0x2 => if isVec d && isVec a && isVec b then some (.vfmulS (vecOf d) (vecOf a) (vecOf b)) else none
  | 0x3 => if isVec d && isVec a && isVec b then some (.vfdivS (vecOf d) (vecOf a) (vecOf b)) else none
  | 0x4 => if isVec d && isVec a && b == 0x0 then some (.vfsqrtS (vecOf d) (vecOf a)) else none
  | 0x5 => if isVec d && isVec a && isVec b then some (.vfmaS (vecOf d) (vecOf a) (vecOf b)) else none
  | 0x6 => if isVec d && isVec a && isVec b then some (.vfminS (vecOf d) (vecOf a) (vecOf b)) else none
  | 0x7 => if isVec d && isVec a && isVec b then some (.vfmaxS (vecOf d) (vecOf a) (vecOf b)) else none
  | _ => none

/-- VMISC (R354 to R363). -/
noncomputable def decodeVmisc (fn : BitVec 4) (d : BitVec 7) (a : BitVec 7) (b : BitVec 7) : Option Instr :=
  match fn.toNat with
  | 0x0 => decodeVbcast d a b
  | 0x1 => if isVec a then some (.vext d (vecOf a) b) else none
  | 0x2 => if isVec d then some (.vins (vecOf d) a b) else none
  | 0x3 => if isVec d && isVec a && isVec b then some (.vperm (vecOf d) (vecOf a) (vecOf b)) else none
  | 0x4 => decodeVred d a b
  | 0x5 => decodeVcmp d a b
  | 0x6 => if isVec d && isVec a && isVec b then some (.vsel (vecOf d) (vecOf a) (vecOf b)) else none
  | 0x7 => decodeVcvt d a b
  | 0x8 => decodeVq d a b
  | 0x9 => decodeVdq d a b
  | _ => none

/-- RTEST (R192 to R195). -/
noncomputable def decodeRtest (fn : BitVec 4) (d : BitVec 7) (a : BitVec 7) (b : BitVec 7) : Option Instr :=
  match fn.toNat with
  | 0x0 => if isVec a && isVec b then some (.boxt d (vecOf a) (vecOf b)) else none
  | 0x1 => if isVec a && isVec b then some (.trit d (vecOf a) (vecOf b)) else none
  | 0x2 => if isVec a && isVec b then some (.splt d (vecOf a) (vecOf b)) else none
  | _ => none

/-- VFOP64 (R353). -/
noncomputable def decodeVfop64 (fn : BitVec 4) (d : BitVec 7) (a : BitVec 7) (b : BitVec 7) : Option Instr :=
  match fn.toNat with
  | 0x0 => if isVec d && isVec a && isVec b then some (.vfaddD (vecOf d) (vecOf a) (vecOf b)) else none
  | 0x1 => if isVec d && isVec a && isVec b then some (.vfsubD (vecOf d) (vecOf a) (vecOf b)) else none
  | 0x2 => if isVec d && isVec a && isVec b then some (.vfmulD (vecOf d) (vecOf a) (vecOf b)) else none
  | 0x3 => if isVec d && isVec a && isVec b then some (.vfdivD (vecOf d) (vecOf a) (vecOf b)) else none
  | 0x4 => if isVec d && isVec a && b == 0x0 then some (.vfsqrtD (vecOf d) (vecOf a)) else none
  | 0x5 => if isVec d && isVec a && isVec b then some (.vfmaD (vecOf d) (vecOf a) (vecOf b)) else none
  | 0x6 => if isVec d && isVec a && isVec b then some (.vfminD (vecOf d) (vecOf a) (vecOf b)) else none
  | 0x7 => if isVec d && isVec a && isVec b then some (.vfmaxD (vecOf d) (vecOf a) (vecOf b)) else none
  | _ => none

/-! ## The opcode maps (R45, R46) -/

/-- A word by its major opcode and selector, before the conditions of `Instr.wf`. -/
noncomputable def decodeFields (w : BitVec 32) : Option Instr :=
  let fn := fld w 21 4
  let d := fld w 14 7
  let a := fld w 7 7
  let b := fld w 0 7
  let di := fld w 18 7
  let ai := fld w 11 7
  let i11 := fld w 0 11
  let i18 := fld w 0 18
  match (fld w 25 6).toNat with
  | 0x00 => decodeSys (fld w 20 5) (fld w 0 20)
  | 0x01 => if i18.extractLsb' 12 6 == 0 then some (.mfs di (i18.extractLsb' 0 12)) else none
  | 0x02 => if i18.extractLsb' 12 6 == 0 then some (.mts di (i18.extractLsb' 0 12)) else none
  | 0x03 => some (.jmp (fld w 0 25))
  | 0x04 => some (.jal di i18)
  | 0x05 => some (.jalr di ai i11)
  | 0x06 => decodeBr (fld w 22 3) (fld w 15 7) (fld w 8 7) (fld w 0 8)
  | 0x07 => decodeBrz (fld w 22 3) (fld w 15 7) (fld w 0 15)
  | 0x08 => decodeLd fn d a b
  | 0x09 => decodeSt fn d a b
  | 0x0A => decodeVmem fn d a b
  | 0x0B => decodeAmoW fn d a b
  | 0x0C => decodeAmoD fn d a b
  | 0x0D => decodeHnd fn d a b
  | 0x0E => decodeMsg (fld w 17 8) (fld w 10 7) (fld w 3 7) (fld w 0 3)
  | 0x0F => decodeBar di i18
  | 0x10 => decodeCar fn d a b
  | 0x11 => decodeRay fn d a b
  | 0x12 => decodeLa fn d a b
  | 0x13 => decodeTsc fn d a b
  | 0x14 => decodeMisc fn d a b
  | 0x20 => decodeIop fn d a b
  | 0x21 => decodeIop2 fn d a b
  | 0x22 => decodeIop3 fn d a b
  | 0x23 => some (.addi di ai i11)
  | 0x24 => some (.andi di ai i11)
  | 0x25 => some (.ori di ai i11)
  | 0x26 => some (.xori di ai i11)
  | 0x27 => decodeShifti di ai i11
  | 0x28 => some (.slti di ai i11)
  | 0x29 => some (.addpi di ai i11)
  | 0x2A => some (.ldi di i18)
  | 0x2B => some (.ldih di i18)
  | 0x2C => some (.movx di ai i11)
  | 0x2D => some (.movxs di ai i11)
  | 0x2E => decodeFopD fn d a b
  | 0x2F => decodeFopS fn d a b
  | 0x30 => decodeFcvt fn d a b
  | 0x31 => decodeVop fn d a b
  | 0x32 => decodeVfop fn d a b
  | 0x33 => decodeVmisc fn d a b
  | 0x34 => decodeRtest fn d a b
  | 0x35 => decodeVfop64 fn d a b
  | _ => none

/-- The decoder (R47): the one form a word decodes to, or nothing, and the word traps ILLEGAL.
DEDUCED (log entry 63). -/
noncomputable def decodeWord (w : BitVec 32) : Option Instr :=
  match decodeFields w with
  | some i => if i.wf then some i else none
  | none => none

/-- A word by the four bytes it is stored as, lowest address first (R39). -/
def wordOfBytes (b0 b1 b2 b3 : Byte) : BitVec 32 := b3 ++ b2 ++ b1 ++ b0

/-- The four bytes a word is stored as (R39). -/
def bytesOfWord (w : BitVec 32) : List Byte :=
  [w.extractLsb' 0 8, w.extractLsb' 8 8, w.extractLsb' 16 8, w.extractLsb' 24 8]

/-- A word stored in memory, and what it decodes to. -/
noncomputable def decodeBytes (bs : List Byte) : Option Instr :=
  match bs with
  | [b0, b1, b2, b3] => decodeWord (wordOfBytes b0 b1 b2 b3)
  | _ => none

/-- The instruction read from an instruction whose bits are `w`, numbered as the opcode table numbers them: one
32-bit word, little-endian. A row without a word has none. -/
noncomputable def decodeTableWord (nbits w : Nat) : Option Instr :=
  if 0 < nbits ∧ nbits ≤ 32 then decodeBytes (bytesOfWord (BitVec.ofNat 32 (w % 2 ^ nbits))) else none

/-! ## The encoder -/

/-- The word of an instruction, with P = 0; the steps that no word encodes have none. -/
def encode (i : Instr) : Option (BitVec 32) :=
  match i with
  | .nop => some (wordS 0x0 0x0#5 0x0#20)
  | .endThread => some (wordS 0x0 0x1#5 0x0#20)
  | .yield => some (wordS 0x0 0x2#5 0x0#20)
  | .swtrap n => some (wordS 0x0 0x3#5 n)
  | .rett => some (wordS 0x0 0x4#5 0x0#20)
  | .lineup n => some (wordS 0x0 0x5#5 (0x0#12 ++ n))
  | .burst n => some (wordS 0x0 0x6#5 (0x0#4 ++ n))
  | .fenceRx => some (wordS 0x0 0x7#5 0x0#20)
  | .fenceEng => some (wordS 0x0 0x8#5 0x0#20)
  | .fenceSys => some (wordS 0x0 0x9#5 0x0#20)
  | .waitrx n => some (wordS 0x0 0xa#5 (0x0#15 ++ n))
  | .mfs d sr => some (wordRi 0x1 d (0x0#6 ++ sr))
  | .mts d sr => some (wordRi 0x2 d (0x0#6 ++ sr))
  | .jmp imm => some (wordJ 0x3 imm)
  | .jal d imm => some (wordRi 0x4 d imm)
  | .jalr d a imm => some (wordRri 0x5 d a imm)
  | .beq a b imm => some (wordB 0x6 0x0#3 a b imm)
  | .bne a b imm => some (wordB 0x6 0x1#3 a b imm)
  | .blt a b imm => some (wordB 0x6 0x2#3 a b imm)
  | .bge a b imm => some (wordB 0x6 0x3#3 a b imm)
  | .bltu a b imm => some (wordB 0x6 0x4#3 a b imm)
  | .bgeu a b imm => some (wordB 0x6 0x5#3 a b imm)
  | .bset a b imm => some (wordB 0x6 0x6#3 a b imm)
  | .bclr a b imm => some (wordB 0x6 0x7#3 a b imm)
  | .beqz a imm => some (wordBz 0x7 0x0#3 a imm)
  | .bnez a imm => some (wordBz 0x7 0x1#3 a imm)
  | .bltz a imm => some (wordBz 0x7 0x2#3 a imm)
  | .bgez a imm => some (wordBz 0x7 0x3#3 a imm)
  | .bgtz a imm => some (wordBz 0x7 0x4#3 a imm)
  | .blez a imm => some (wordBz 0x7 0x5#3 a imm)
  | .ldB d a imm => some (wordRrr 0x8 0x0#4 d a imm)
  | .ldBu d a imm => some (wordRrr 0x8 0x1#4 d a imm)
  | .ldH d a imm => some (wordRrr 0x8 0x2#4 d a imm)
  | .ldHu d a imm => some (wordRrr 0x8 0x3#4 d a imm)
  | .ldW d a imm => some (wordRrr 0x8 0x4#4 d a imm)
  | .ldWu d a imm => some (wordRrr 0x8 0x5#4 d a imm)
  | .ldD d a imm => some (wordRrr 0x8 0x6#4 d a imm)
  | .ldBRx d a imm => some (wordRrr 0x8 0x8#4 d a imm)
  | .ldBuRx d a imm => some (wordRrr 0x8 0x9#4 d a imm)
  | .ldHRx d a imm => some (wordRrr 0x8 0xa#4 d a imm)
  | .ldHuRx d a imm => some (wordRrr 0x8 0xb#4 d a imm)
  | .ldWRx d a imm => some (wordRrr 0x8 0xc#4 d a imm)
  | .ldWuRx d a imm => some (wordRrr 0x8 0xd#4 d a imm)
  | .ldDRx d a imm => some (wordRrr 0x8 0xe#4 d a imm)
  | .stB d a imm => some (wordRrr 0x9 0x0#4 d a imm)
  | .stH d a imm => some (wordRrr 0x9 0x1#4 d a imm)
  | .stW d a imm => some (wordRrr 0x9 0x2#4 d a imm)
  | .stD d a imm => some (wordRrr 0x9 0x3#4 d a imm)
  | .stBRx d a imm => some (wordRrr 0x9 0x8#4 d a imm)
  | .stHRx d a imm => some (wordRrr 0x9 0x9#4 d a imm)
  | .stWRx d a imm => some (wordRrr 0x9 0xa#4 d a imm)
  | .stDRx d a imm => some (wordRrr 0x9 0xb#4 d a imm)
  | .ldv d a imm => some (wordRrr 0xa 0x0#4 (0x0#3 ++ d) a imm)
  | .stv d a imm => some (wordRrr 0xa 0x1#4 (0x0#3 ++ d) a imm)
  | .gather d a vb => some (wordRrr 0xa 0x2#4 (0x0#3 ++ d) a (0x0#3 ++ vb))
  | .scatter d a vb => some (wordRrr 0xa 0x3#4 (0x0#3 ++ d) a (0x0#3 ++ vb))
  | .ldvRx d a imm => some (wordRrr 0xa 0x8#4 (0x0#3 ++ d) a imm)
  | .stvRx d a imm => some (wordRrr 0xa 0x9#4 (0x0#3 ++ d) a imm)
  | .gatherRx d a vb => some (wordRrr 0xa 0xa#4 (0x0#3 ++ d) a (0x0#3 ++ vb))
  | .scatterRx d a vb => some (wordRrr 0xa 0xb#4 (0x0#3 ++ d) a (0x0#3 ++ vb))
  | .amoaddW d a b => some (wordRrr 0xb 0x0#4 d a b)
  | .amoandW d a b => some (wordRrr 0xb 0x1#4 d a b)
  | .amoorW d a b => some (wordRrr 0xb 0x2#4 d a b)
  | .amoxorW d a b => some (wordRrr 0xb 0x3#4 d a b)
  | .amominW d a b => some (wordRrr 0xb 0x4#4 d a b)
  | .amomaxW d a b => some (wordRrr 0xb 0x5#4 d a b)
  | .amominuW d a b => some (wordRrr 0xb 0x6#4 d a b)
  | .amomaxuW d a b => some (wordRrr 0xb 0x7#4 d a b)
  | .amoswapW d a b => some (wordRrr 0xb 0x8#4 d a b)
  | .amocasW d a b => some (wordRrr 0xb 0x9#4 d a b)
  | .amoaddD d a b => some (wordRrr 0xc 0x0#4 d a b)
  | .amoandD d a b => some (wordRrr 0xc 0x1#4 d a b)
  | .amoorD d a b => some (wordRrr 0xc 0x2#4 d a b)
  | .amoxorD d a b => some (wordRrr 0xc 0x3#4 d a b)
  | .amominD d a b => some (wordRrr 0xc 0x4#4 d a b)
  | .amomaxD d a b => some (wordRrr 0xc 0x5#4 d a b)
  | .amominuD d a b => some (wordRrr 0xc 0x6#4 d a b)
  | .amomaxuD d a b => some (wordRrr 0xc 0x7#4 d a b)
  | .amoswapD d a b => some (wordRrr 0xc 0x8#4 d a b)
  | .amocasD d a b => some (wordRrr 0xc 0x9#4 d a b)
  | .htake d a b => some (wordRrr 0xd 0x0#4 d a b)
  | .hgive d a b => some (wordRrr 0xd 0x1#4 d a b)
  | .hwait d a b => some (wordRrr 0xd 0x2#4 d a b)
  | .hstat d a b => some (wordRrr 0xd 0x3#4 d a b)
  | .hgen d a => some (wordRrr 0xd 0x4#4 d a 0x0#7)
  | .hring d a b => some (wordRrr 0xd 0x5#4 d a b)
  | .send ty a b => some (wordMs 0xe ty a b 0x0#3)
  | .recv a b => some (wordMs 0xe 0x0#8 a b 0x1#3)
  | .recva b => some (wordMs 0xe 0x0#8 0x0#7 b 0x2#3)
  | .mbox b => some (wordMs 0xe 0x0#8 0x0#7 b 0x3#3)
  | .bar d scope id => some (wordRi 0xf d (0x0#2 ++ scope ++ 0x0#6 ++ id))
  | .bara d scope id => some (wordRi 0xf d (0x1#2 ++ scope ++ 0x0#6 ++ id))
  | .barw d scope id => some (wordRi 0xf d (0x2#2 ++ scope ++ 0x0#6 ++ id))
  | .bari d scope id => some (wordRi 0xf d (0x3#2 ++ scope ++ 0x0#6 ++ id))
  | .carsub d a b => some (wordRrr 0x10 0x0#4 d a b)
  | .carunsub d a b => some (wordRrr 0x10 0x1#4 d a b)
  | .carskip a => some (wordRrr 0x10 0x2#4 0x0#7 a 0x0#7)
  | .carpromo a b => some (wordRrr 0x10 0x3#4 0x0#7 a b)
  | .carpos d a => some (wordRrr 0x10 0x4#4 d a 0x0#7)
  | .carwaitRay d a => some (wordRrr 0x10 0x5#4 d a 0x0#7)
  | .carwaitStart d a => some (wordRrr 0x10 0x5#4 d a 0x1#7)
  | .carwaitVerdict d a => some (wordRrr 0x10 0x5#4 d a 0x2#7)
  | .rayput d a => some (wordRrr 0x11 0x0#4 (0x0#3 ++ d) a 0x0#7)
  | .rayget d a => some (wordRrr 0x11 0x1#4 (0x0#3 ++ d) a 0x0#7)
  | .raysub d a b => some (wordRrr 0x11 0x2#4 d a b)
  | .hitpop d a => some (wordRrr 0x11 0x3#4 d a 0x0#7)
  | .raykill d a => some (wordRrr 0x11 0x4#4 d a 0x0#7)
  | .lainf d a => some (wordRrr 0x12 0x0#4 (0x0#3 ++ d) (0x0#3 ++ a) 0x0#7)
  | .lafb1 d a => some (wordRrr 0x12 0x1#4 d (0x0#3 ++ a) 0x0#7)
  | .lafb2 d a => some (wordRrr 0x12 0x2#4 d (0x0#3 ++ a) 0x0#7)
  | .lard d a => some (wordRrr 0x12 0x3#4 d a 0x0#7)
  | .lawr a b => some (wordRrr 0x12 0x4#4 0x0#7 a b)
  | .laseed a b => some (wordRrr 0x12 0x5#4 0x0#7 a b)
  | .laclr a => some (wordRrr 0x12 0x6#4 0x0#7 a 0x0#7)
  | .tsreq d a b => some (wordRrr 0x13 0x0#4 d a (0x0#3 ++ b))
  | .tsfill d a b => some (wordRrr 0x13 0x1#4 d a (0x0#3 ++ b))
  | .tswait d a b => some (wordRrr 0x13 0x2#4 d a (0x0#3 ++ b))
  | .watch d a b => some (wordRrr 0x14 0x0#4 d a b)
  | .tid d => some (wordRrr 0x14 0x1#4 d 0x0#7 0x0#7)
  | .tblw a b => some (wordRrr 0x14 0x2#4 0x0#7 a b)
  | .tblr d a => some (wordRrr 0x14 0x3#4 d a 0x0#7)
  | .add d a b => some (wordRrr 0x20 0x0#4 d a b)
  | .sub d a b => some (wordRrr 0x20 0x1#4 d a b)
  | .and d a b => some (wordRrr 0x20 0x2#4 d a b)
  | .or d a b => some (wordRrr 0x20 0x3#4 d a b)
  | .xor d a b => some (wordRrr 0x20 0x4#4 d a b)
  | .andn d a b => some (wordRrr 0x20 0x5#4 d a b)
  | .shl d a b => some (wordRrr 0x20 0x6#4 d a b)
  | .shr d a b => some (wordRrr 0x20 0x7#4 d a b)
  | .sar d a b => some (wordRrr 0x20 0x8#4 d a b)
  | .rol d a b => some (wordRrr 0x20 0x9#4 d a b)
  | .ror d a b => some (wordRrr 0x20 0xa#4 d a b)
  | .slt d a b => some (wordRrr 0x20 0xb#4 d a b)
  | .sltu d a b => some (wordRrr 0x20 0xc#4 d a b)
  | .seq d a b => some (wordRrr 0x20 0xd#4 d a b)
  | .min d a b => some (wordRrr 0x20 0xe#4 d a b)
  | .max d a b => some (wordRrr 0x20 0xf#4 d a b)
  | .minu d a b => some (wordRrr 0x21 0x0#4 d a b)
  | .maxu d a b => some (wordRrr 0x21 0x1#4 d a b)
  | .mul d a b => some (wordRrr 0x21 0x2#4 d a b)
  | .mulh d a b => some (wordRrr 0x21 0x3#4 d a b)
  | .mulhu d a b => some (wordRrr 0x21 0x4#4 d a b)
  | .div d a b => some (wordRrr 0x21 0x5#4 d a b)
  | .divu d a b => some (wordRrr 0x21 0x6#4 d a b)
  | .rem d a b => some (wordRrr 0x21 0x7#4 d a b)
  | .remu d a b => some (wordRrr 0x21 0x8#4 d a b)
  | .sel d a b => some (wordRrr 0x21 0x9#4 d a b)
  | .clz d a => some (wordRrr 0x21 0xa#4 d a 0x0#7)
  | .ctz d a => some (wordRrr 0x21 0xb#4 d a 0x0#7)
  | .popc d a => some (wordRrr 0x21 0xc#4 d a 0x0#7)
  | .brev d a => some (wordRrr 0x21 0xd#4 d a 0x0#7)
  | .ilv2 d a b => some (wordRrr 0x21 0xe#4 d a b)
  | .ilv3 d a b => some (wordRrr 0x21 0xf#4 d a b)
  | .dilv2 d a b => some (wordRrr 0x22 0x0#4 d a b)
  | .dilv3 d a b => some (wordRrr 0x22 0x1#4 d a b)
  | .extr d a b => some (wordRrr 0x22 0x2#4 d a b)
  | .depo d a b => some (wordRrr 0x22 0x3#4 d a b)
  | .bswap d a => some (wordRrr 0x22 0x4#4 d a 0x0#7)
  | .addp d a b => some (wordRrr 0x22 0x5#4 d a b)
  | .mkptr d a b => some (wordRrr 0x22 0x6#4 d a b)
  | .ptag d a => some (wordRrr 0x22 0x7#4 d a 0x0#7)
  | .vkey d a b => some (wordRrr 0x22 0x8#4 d a b)
  | .addi d a imm => some (wordRri 0x23 d a imm)
  | .andi d a imm => some (wordRri 0x24 d a imm)
  | .ori d a imm => some (wordRri 0x25 d a imm)
  | .xori d a imm => some (wordRri 0x26 d a imm)
  | .shli d a n => some (wordRri 0x27 d a (0x0#5 ++ n))
  | .shri d a n => some (wordRri 0x27 d a (0x4#5 ++ n))
  | .sari d a n => some (wordRri 0x27 d a (0x8#5 ++ n))
  | .roli d a n => some (wordRri 0x27 d a (0xc#5 ++ n))
  | .rori d a n => some (wordRri 0x27 d a (0x10#5 ++ n))
  | .slti d a imm => some (wordRri 0x28 d a imm)
  | .addpi d a imm => some (wordRri 0x29 d a imm)
  | .ldi d imm => some (wordRi 0x2a d imm)
  | .ldih d imm => some (wordRi 0x2b d imm)
  | .movx d a imm => some (wordRri 0x2c d a imm)
  | .movxs d a imm => some (wordRri 0x2d d a imm)
  | .faddD d a b => some (wordRrr 0x2e 0x0#4 d a b)
  | .fsubD d a b => some (wordRrr 0x2e 0x1#4 d a b)
  | .fmulD d a b => some (wordRrr 0x2e 0x2#4 d a b)
  | .fdivD d a b => some (wordRrr 0x2e 0x3#4 d a b)
  | .fsqrtD d a => some (wordRrr 0x2e 0x4#4 d a 0x0#7)
  | .fmaD d a b => some (wordRrr 0x2e 0x5#4 d a b)
  | .fminD d a b => some (wordRrr 0x2e 0x6#4 d a b)
  | .fmaxD d a b => some (wordRrr 0x2e 0x7#4 d a b)
  | .feqD d a b => some (wordRrr 0x2e 0x8#4 d a b)
  | .fltD d a b => some (wordRrr 0x2e 0x9#4 d a b)
  | .fleD d a b => some (wordRrr 0x2e 0xa#4 d a b)
  | .fclassD d a => some (wordRrr 0x2e 0xb#4 d a 0x0#7)
  | .fsgnjD d a b => some (wordRrr 0x2e 0xc#4 d a b)
  | .fsgnjnD d a b => some (wordRrr 0x2e 0xd#4 d a b)
  | .faddS d a b => some (wordRrr 0x2f 0x0#4 d a b)
  | .fsubS d a b => some (wordRrr 0x2f 0x1#4 d a b)
  | .fmulS d a b => some (wordRrr 0x2f 0x2#4 d a b)
  | .fdivS d a b => some (wordRrr 0x2f 0x3#4 d a b)
  | .fsqrtS d a => some (wordRrr 0x2f 0x4#4 d a 0x0#7)
  | .fmaS d a b => some (wordRrr 0x2f 0x5#4 d a b)
  | .fminS d a b => some (wordRrr 0x2f 0x6#4 d a b)
  | .fmaxS d a b => some (wordRrr 0x2f 0x7#4 d a b)
  | .feqS d a b => some (wordRrr 0x2f 0x8#4 d a b)
  | .fltS d a b => some (wordRrr 0x2f 0x9#4 d a b)
  | .fleS d a b => some (wordRrr 0x2f 0xa#4 d a b)
  | .fclassS d a => some (wordRrr 0x2f 0xb#4 d a 0x0#7)
  | .fsgnjS d a b => some (wordRrr 0x2f 0xc#4 d a b)
  | .fsgnjnS d a b => some (wordRrr 0x2f 0xd#4 d a b)
  | .fcvt rnd d a dst src => some (wordRrr 0x30 (0x0#1 ++ rnd) d a (dst ++ src ++ 0x0#1))
  | .vadd d a b => some (wordRrr 0x31 0x0#4 (0x0#3 ++ d) (0x0#3 ++ a) (0x0#3 ++ b))
  | .vsub d a b => some (wordRrr 0x31 0x1#4 (0x0#3 ++ d) (0x0#3 ++ a) (0x0#3 ++ b))
  | .vand d a b => some (wordRrr 0x31 0x2#4 (0x0#3 ++ d) (0x0#3 ++ a) (0x0#3 ++ b))
  | .vor d a b => some (wordRrr 0x31 0x3#4 (0x0#3 ++ d) (0x0#3 ++ a) (0x0#3 ++ b))
  | .vxor d a b => some (wordRrr 0x31 0x4#4 (0x0#3 ++ d) (0x0#3 ++ a) (0x0#3 ++ b))
  | .vshl d a b => some (wordRrr 0x31 0x5#4 (0x0#3 ++ d) (0x0#3 ++ a) (0x0#3 ++ b))
  | .vshr d a b => some (wordRrr 0x31 0x6#4 (0x0#3 ++ d) (0x0#3 ++ a) (0x0#3 ++ b))
  | .vsar d a b => some (wordRrr 0x31 0x7#4 (0x0#3 ++ d) (0x0#3 ++ a) (0x0#3 ++ b))
  | .vmin d a b => some (wordRrr 0x31 0x8#4 (0x0#3 ++ d) (0x0#3 ++ a) (0x0#3 ++ b))
  | .vmax d a b => some (wordRrr 0x31 0x9#4 (0x0#3 ++ d) (0x0#3 ++ a) (0x0#3 ++ b))
  | .vminu d a b => some (wordRrr 0x31 0xa#4 (0x0#3 ++ d) (0x0#3 ++ a) (0x0#3 ++ b))
  | .vmaxu d a b => some (wordRrr 0x31 0xb#4 (0x0#3 ++ d) (0x0#3 ++ a) (0x0#3 ++ b))
  | .vmul d a b => some (wordRrr 0x31 0xc#4 (0x0#3 ++ d) (0x0#3 ++ a) (0x0#3 ++ b))
  | .vmulh d a b => some (wordRrr 0x31 0xd#4 (0x0#3 ++ d) (0x0#3 ++ a) (0x0#3 ++ b))
  | .vadds d a b => some (wordRrr 0x31 0xe#4 (0x0#3 ++ d) (0x0#3 ++ a) (0x0#3 ++ b))
  | .vsubs d a b => some (wordRrr 0x31 0xf#4 (0x0#3 ++ d) (0x0#3 ++ a) (0x0#3 ++ b))
  | .vfaddS d a b => some (wordRrr 0x32 0x0#4 (0x0#3 ++ d) (0x0#3 ++ a) (0x0#3 ++ b))
  | .vfsubS d a b => some (wordRrr 0x32 0x1#4 (0x0#3 ++ d) (0x0#3 ++ a) (0x0#3 ++ b))
  | .vfmulS d a b => some (wordRrr 0x32 0x2#4 (0x0#3 ++ d) (0x0#3 ++ a) (0x0#3 ++ b))
  | .vfdivS d a b => some (wordRrr 0x32 0x3#4 (0x0#3 ++ d) (0x0#3 ++ a) (0x0#3 ++ b))
  | .vfsqrtS d a => some (wordRrr 0x32 0x4#4 (0x0#3 ++ d) (0x0#3 ++ a) 0x0#7)
  | .vfmaS d a b => some (wordRrr 0x32 0x5#4 (0x0#3 ++ d) (0x0#3 ++ a) (0x0#3 ++ b))
  | .vfminS d a b => some (wordRrr 0x32 0x6#4 (0x0#3 ++ d) (0x0#3 ++ a) (0x0#3 ++ b))
  | .vfmaxS d a b => some (wordRrr 0x32 0x7#4 (0x0#3 ++ d) (0x0#3 ++ a) (0x0#3 ++ b))
  | .vfaddD d a b => some (wordRrr 0x35 0x0#4 (0x0#3 ++ d) (0x0#3 ++ a) (0x0#3 ++ b))
  | .vfsubD d a b => some (wordRrr 0x35 0x1#4 (0x0#3 ++ d) (0x0#3 ++ a) (0x0#3 ++ b))
  | .vfmulD d a b => some (wordRrr 0x35 0x2#4 (0x0#3 ++ d) (0x0#3 ++ a) (0x0#3 ++ b))
  | .vfdivD d a b => some (wordRrr 0x35 0x3#4 (0x0#3 ++ d) (0x0#3 ++ a) (0x0#3 ++ b))
  | .vfsqrtD d a => some (wordRrr 0x35 0x4#4 (0x0#3 ++ d) (0x0#3 ++ a) 0x0#7)
  | .vfmaD d a b => some (wordRrr 0x35 0x5#4 (0x0#3 ++ d) (0x0#3 ++ a) (0x0#3 ++ b))
  | .vfminD d a b => some (wordRrr 0x35 0x6#4 (0x0#3 ++ d) (0x0#3 ++ a) (0x0#3 ++ b))
  | .vfmaxD d a b => some (wordRrr 0x35 0x7#4 (0x0#3 ++ d) (0x0#3 ++ a) (0x0#3 ++ b))
  | .vbcast d a => some (wordRrr 0x33 0x0#4 (0x0#3 ++ d) a 0x0#7)
  | .vbcastD d a => some (wordRrr 0x33 0x0#4 (0x0#3 ++ d) a 0x1#7)
  | .vext d a b => some (wordRrr 0x33 0x1#4 d (0x0#3 ++ a) b)
  | .vins d a b => some (wordRrr 0x33 0x2#4 (0x0#3 ++ d) a b)
  | .vperm d a b => some (wordRrr 0x33 0x3#4 (0x0#3 ++ d) (0x0#3 ++ a) (0x0#3 ++ b))
  | .vredAddW d a => some (wordRrr 0x33 0x4#4 d (0x0#3 ++ a) 0x0#7)
  | .vredMinW d a => some (wordRrr 0x33 0x4#4 d (0x0#3 ++ a) 0x1#7)
  | .vredMaxW d a => some (wordRrr 0x33 0x4#4 d (0x0#3 ++ a) 0x2#7)
  | .vredMinuW d a => some (wordRrr 0x33 0x4#4 d (0x0#3 ++ a) 0x3#7)
  | .vredMaxuW d a => some (wordRrr 0x33 0x4#4 d (0x0#3 ++ a) 0x4#7)
  | .vredAndW d a => some (wordRrr 0x33 0x4#4 d (0x0#3 ++ a) 0x5#7)
  | .vredOrW d a => some (wordRrr 0x33 0x4#4 d (0x0#3 ++ a) 0x6#7)
  | .vredXorW d a => some (wordRrr 0x33 0x4#4 d (0x0#3 ++ a) 0x7#7)
  | .vredFaddS d a => some (wordRrr 0x33 0x4#4 d (0x0#3 ++ a) 0x8#7)
  | .vredFminS d a => some (wordRrr 0x33 0x4#4 d (0x0#3 ++ a) 0x9#7)
  | .vredFmaxS d a => some (wordRrr 0x33 0x4#4 d (0x0#3 ++ a) 0xa#7)
  | .vredFaddD d a => some (wordRrr 0x33 0x4#4 d (0x0#3 ++ a) 0xb#7)
  | .vredFminD d a => some (wordRrr 0x33 0x4#4 d (0x0#3 ++ a) 0xc#7)
  | .vredFmaxD d a => some (wordRrr 0x33 0x4#4 d (0x0#3 ++ a) 0xd#7)
  | .vredAddD d a => some (wordRrr 0x33 0x4#4 d (0x0#3 ++ a) 0xe#7)
  | .vcmpEq d a ty => some (wordRrr 0x33 0x5#4 (0x0#3 ++ d) (0x0#3 ++ a) (0x0#2 ++ ty ++ 0x0#3))
  | .vcmpNe d a ty => some (wordRrr 0x33 0x5#4 (0x0#3 ++ d) (0x0#3 ++ a) (0x0#2 ++ ty ++ 0x1#3))
  | .vcmpLt d a ty => some (wordRrr 0x33 0x5#4 (0x0#3 ++ d) (0x0#3 ++ a) (0x0#2 ++ ty ++ 0x2#3))
  | .vcmpGe d a ty => some (wordRrr 0x33 0x5#4 (0x0#3 ++ d) (0x0#3 ++ a) (0x0#2 ++ ty ++ 0x3#3))
  | .vcmpLtu d a ty => some (wordRrr 0x33 0x5#4 (0x0#3 ++ d) (0x0#3 ++ a) (0x0#2 ++ ty ++ 0x4#3))
  | .vcmpGeu d a ty => some (wordRrr 0x33 0x5#4 (0x0#3 ++ d) (0x0#3 ++ a) (0x0#2 ++ ty ++ 0x5#3))
  | .vsel d a b => some (wordRrr 0x33 0x6#4 (0x0#3 ++ d) (0x0#3 ++ a) (0x0#3 ++ b))
  | .vcvtHS d a mode => some (wordRrr 0x33 0x7#4 (0x0#3 ++ d) (0x0#3 ++ a) (0x0#4 ++ mode))
  | .vcvtBhS d a mode => some (wordRrr 0x33 0x7#4 (0x0#3 ++ d) (0x0#3 ++ a) (0x1#4 ++ mode))
  | .vcvtES d a mode => some (wordRrr 0x33 0x7#4 (0x0#3 ++ d) (0x0#3 ++ a) (0x2#4 ++ mode))
  | .vcvtWS d a mode => some (wordRrr 0x33 0x7#4 (0x0#3 ++ d) (0x0#3 ++ a) (0x3#4 ++ mode))
  | .vcvtSW d a mode => some (wordRrr 0x33 0x7#4 (0x0#3 ++ d) (0x0#3 ++ a) (0x4#4 ++ mode))
  | .vcvtSD d a mode => some (wordRrr 0x33 0x7#4 (0x0#3 ++ d) (0x0#3 ++ a) (0x5#4 ++ mode))
  | .vcvtDS d a mode => some (wordRrr 0x33 0x7#4 (0x0#3 ++ d) (0x0#3 ++ a) (0x6#4 ++ mode))
  | .vcvtLD d a mode => some (wordRrr 0x33 0x7#4 (0x0#3 ++ d) (0x0#3 ++ a) (0x7#4 ++ mode))
  | .vcvtDL d a mode => some (wordRrr 0x33 0x7#4 (0x0#3 ++ d) (0x0#3 ++ a) (0x8#4 ++ mode))
  | .vq d a mode fmt => some (wordRrr 0x33 0x8#4 (0x0#3 ++ d) (0x0#3 ++ a) (0x0#3 ++ mode ++ fmt))
  | .vqSc d a mode fmt => some (wordRrr 0x33 0x8#4 (0x0#3 ++ d) (0x0#3 ++ a) (0x1#3 ++ mode ++ fmt))
  | .vdq d a fmt => some (wordRrr 0x33 0x9#4 (0x0#3 ++ d) (0x0#3 ++ a) (0x0#6 ++ fmt))
  | .vdqSc d a fmt => some (wordRrr 0x33 0x9#4 (0x0#3 ++ d) (0x0#3 ++ a) (0x1#6 ++ fmt))
  | .boxt d a b => some (wordRrr 0x34 0x0#4 d (0x0#3 ++ a) (0x0#3 ++ b))
  | .trit d a b => some (wordRrr 0x34 0x1#4 d (0x0#3 ++ a) (0x0#3 ++ b))
  | .splt d a b => some (wordRrr 0x34 0x2#4 d (0x0#3 ++ a) (0x0#3 ++ b))
  | .rottabWrite _ _ | .rotpolWrite _ | .rotationSwitch | .tvecWrite _ _ | .bellWrite _ | .tblcfgWrite _ |
    .ebudgetWrite _ | .efillWrite _ | .footprintWrite _ | .blockingReply _ | .relaxedAccessComplete _ | .holdEnd _ |
    .messageArrival _ | .waitingMessageStart _ | .deviceMessageEntry | .launchRecord _ _ | .dynamicTaskDispatch _ |
    .lineupRelease _ _ _ | .lineupTimeout _ _ _ | .fetchLineBroadcast _ | .barrierWake _ _ _ _ | .l2TlbHit _ |
    .walkComplete _ | .pwake _ _ _ _ | .migrationDepart _ | .migrationArrival _ | .bellRing | .preemptionRequest |
    .contextSave _ | .partitionSaveRecord _ | .contextResume _ _ | .contextStart _ | .dieRemap _ | .controllerTake |
    .segmentCall _ | .blockDelivery _ _ | .recordTest | .holdClear _ _ | .remapEntry _ _ | .memControllerDown _ _ |
    .segmentDescriptorWrite _ | .layoutEntryWrite _ _ | .xcopy _ | .xstripe _ | .xscan _ | .xfill _ | .transferChunk
    | .xstripeAtomSwitch | .shootdownPassed | .scanComplete | .mxmac _ | .mxwld _ | .mxepi _ | .mxzero _ |
    .matrixStep | .energyRefill | .kindleEnd | .quenchEnd | .burstDeadline | .rtsort _ | .routingRun _ | .reproj _ |
    .reprojRun _ | .a2av _ | .areduce _ | .agather _ | .rscatter _ | .collectiveStart _ _ | .collectiveComplete _ |
    .laClauseUpdate | .lainfComplete _ | .inferenceRecord | .cellSoftError _ | .hostAccess _ _ _ | .qreg _ _ |
    .qreset _ | .qremove _ | .ckpt | .pcap _ | .conn _ _ | .attest _ _ | .checkpointComplete | .jobFaultResume _ _ |
    .afyarFlitReceive _ _ | .linkReplay _ | .linkRekey _ | .linkTraining _ | .firmwareBoot | .powerSample _ |
    .thermalLimit _ | .traceRingDrain | .unassignedEncoding _ | .postedWriteDrain | .watchDrop _ |
    .firmwareImageWrite _ | .imageLoad _ | .checkpointSchedule | .refusedCommand _ | .dieCoresInReset _ => none

end Sys2Proof
end

