-- ==== Sys2Proof/Machine/Sparse.lean ====
section
/-!
DEFINITION. Operations on the sparse maps of `Word.lean`: reading a key, writing a key, and the canonical form.
Every store of the part that is keyed by number (memory bytes, register pool words, handles, barrier counters)
goes through these three.
-/

namespace Sys2Proof.Machine

/-- The value at key `k`; `d` is what an unlisted key reads as. DESIGN CHOICE (log entry 3). -/
def spGet {α : Type} (d : α) : Sp α → Nat → α
  | [], _ => d
  | (k', v) :: m, k => if k = k' then v else spGet d m k

/-- The map without any entry of key `k`. -/
def spErase {α : Type} : Sp α → Nat → Sp α
  | [], _ => []
  | (k', v) :: m, k => if k = k' then spErase m k else (k', v) :: spErase m k

/-- The map with an entry `(k, v)` in its place among rising keys. -/
def spInsert {α : Type} : Sp α → Nat → α → Sp α
  | [], k, v => [(k, v)]
  | (k', v') :: m, k, v =>
    if k < k' then (k, v) :: (k', v') :: m
    else if k = k' then (k, v) :: m
    else (k', v') :: spInsert m k v

/-- The map with key `k` reading as `v`: writing the default value takes the entry out. -/
def spSet {α : Type} [DecidableEq α] (d : α) (m : Sp α) (k : Nat) (v : α) : Sp α :=
  if v = d then spErase m k else spInsert m k v

/-- Every key of the map is above `lo`, keys rise strictly, and no entry equals the default. -/
def spWfFrom {α : Type} [DecidableEq α] (d : α) : Option Nat → Sp α → Bool
  | _, [] => true
  | lo, (k, v) :: m =>
    (match lo with | none => true | some l => decide (l < k)) && decide (v ≠ d) && spWfFrom d (some k) m

/-- The canonical form: strictly rising keys and no entry equal to what an unlisted key reads as, so that equal
maps are equal lists. -/
def spWf {α : Type} [DecidableEq α] (d : α) (m : Sp α) : Bool := spWfFrom d none m

/-- The keys that are listed. -/
def spKeys {α : Type} (m : Sp α) : List Nat := m.map (·.1)

/-- Writes of several keys, in list order. -/
def spSetAll {α : Type} [DecidableEq α] (d : α) : Sp α → List (Nat × α) → Sp α
  | m, [] => m
  | m, (k, v) :: l => spSetAll d (spSet d m k v) l

/-- The map with every key from `base` to `base + n - 1` back at its default. -/
def spClear {α : Type} (m : Sp α) (base n : Nat) : Sp α :=
  m.filter fun e => !(decide (base ≤ e.1) && decide (e.1 < base + n))

/-- The listed entries from `base` to `base + n - 1`, with their keys counted from `base`. -/
def spSlice {α : Type} (m : Sp α) (base n : Nat) : Sp α :=
  (m.filter fun e => decide (base ≤ e.1) && decide (e.1 < base + n)).map fun e => (e.1 - base, e.2)

/-- `n` keys from `base` on, taken over from the slice `sl` whose keys count from 0. -/
def spPaste {α : Type} [DecidableEq α] (d : α) (m : Sp α) (base n : Nat) (sl : Sp α) : Sp α :=
  spSetAll d (spClear m base n) ((sl.filter fun e => decide (e.1 < n)).map fun e => (base + e.1, e.2))

end Sys2Proof.Machine
end

