-- ==== Sys2Proof/Config.lean ====
section
/-!
DEFINITION. What is fixed for every ZX960: sizes and addresses the spec states, and the free values, which the spec
leaves open: each free value is an opaque constant, so no proof can learn what it is.
-/

namespace Sys2Proof.Config

/-- Cores of a die (R1, R8). -/
abbrev coresPerDie : Nat := 384
/-- Cores of a cluster (R1). -/
abbrev coresPerCluster : Nat := 96
/-- Words of a core's register pool (R28). -/
abbrev poolWords : Nat := 2048
/-- Entries of a core's mailbox (R1, R95). -/
abbrev mailboxEntries : Nat := 32
/-- Relaxed accesses a slot may have outstanding (R249). -/
abbrev relaxedLimit : Nat := 32
/-- Cycles within which an access to the package's own memory is applied. The spec gives no number; R149's outcome holds in
every run only under some bound. DESIGN CHOICE (log entry 6). -/
abbrev replyBound : Nat := 64
/-- Bytes of a core's scratchpad (R1, R224). -/
abbrev scratchBytes : Nat := 0x80000
/-- Bytes of a core's weight buffer (R1). -/
abbrev weightBytes : Nat := 0x40000
/-- First address above the virtual space (R216). -/
abbrev vaTop : Nat := 2 ^ 57
/-- First address of the device region (R216). -/
abbrev deviceBase : Nat := 0x00FFFFFF00000000
/-- First address above the device region (R216). -/
abbrev deviceTop : Nat := 0x0100000000000000
/-- The cluster window: the scratchpad of core `c` of the cluster at `+ c * 2^19` (R221). -/
abbrev clusterWindow : Nat := 0x00FFFFFFF0000000
/-- The issuing core's own scratchpad (R221). -/
abbrev scratchWindow : Nat := 0x00FFFFFFFFF00000
/-- The issuing core's control window (R207, R221). -/
abbrev controlWindow : Nat := 0x00FFFFFFFFFF0000
/-- The scale shadow starts here (R220). -/
abbrev shadowBase : Nat := 2 ^ 56

/-- Firmware's ROM rollback floor, below which an image does not verify (R303). The spec gives no number.
DESIGN CHOICE (log entry 7). -/
opaque rollbackFloor : Nat

/-- SHAKE256 (R296, R303, R306) of a list of numbers: the spec names the hash and does not define it. FREE VALUE.
DESIGN CHOICE (log entry 7). -/
opaque shake256 : List Nat → Nat

/-- The tag that AES-256-GCM gives (R295): of the key, the nonce, the additional authenticated data and the ciphertext. The
spec names the cipher and does not define it. FREE VALUE. DESIGN CHOICE (log entry 7). -/
opaque gcmTag : Nat → List Byte → List Byte → List Byte → BitVec 128

/-- The ciphertext that AES-256-GCM gives (R295): of the key, the nonce, the plaintext and the byte's index. FREE VALUE.
DESIGN CHOICE (log entry 7). -/
opaque gcmByte : Nat → List Byte → List Byte → Nat → Byte

/-- The private key of the package's identity key pair for SLH-DSA-SHAKE-256s, made at manufacture, which never leaves the
package (R304). FREE VALUE. DESIGN CHOICE (log entry 7). -/
opaque identityPrivate : Nat

/-- The public key of the identity key pair (R304). FREE VALUE. -/
opaque identityPublic : Nat

/-- The bytes of the certificate from Feryel, and its serial (R304, R306). FREE VALUES. -/
opaque certificate : List Byte
/-- The certificate's serial. -/
opaque certSerial : Nat

/-- The bytes of an attestation report and of its signature under the identity key (R306): the spec names what the report
holds and gives no layout. FREE VALUE: a function of the private key, the nonce's bytes, the numbers that the report
holds, and the byte's index. DESIGN CHOICE (log entry 7). -/
opaque attestByte : Nat → List Byte → List Nat → Nat → Byte

/-- Bytes an attestation report takes, its signature included (R306). FREE VALUE. -/
opaque attestLength : Nat

/-- The share, in 65,536ths, by which firmware lowers or raises EFILL on every core at a comparison (R307: "in the same
proportion", no number): of the number of the draw. FREE VALUE. -/
opaque efillShare : Nat → Nat

/-- The frame bits 51:16 of a page's new frames, which firmware chooses for a placement word (R210). FREE VALUE: of the
number of the draw and the placement word. DESIGN CHOICE (log entry 35). -/
opaque newFrame : Nat → Word → BitVec 36

/-- The number that a byte of a RAW array stands for where it is copied to an array of another format (R281, R321: "not
interpreted"). FREE VALUE: of the byte. DESIGN CHOICE (log entry 40). -/
opaque rawValue : Nat → Int

/-- Bytes that a poisoned block or a failed read leaves where the spec says only that they are marked (R174, R368).
FREE VALUE: of the number of the draw and the byte's index. -/
opaque freeByte : Nat → Nat → Byte

/-- Words that the spec leaves unstated: the progress word of an EFAULT of an engine that has no progress word (R134,
R278), and the address of an EFAULT for commands that do not match (R347). FREE VALUE: of the number of the draw.
DESIGN CHOICE (log entry 47). -/
opaque freeWord : Nat → Word

end Sys2Proof.Config
end

