-- ==== Sys2Proof/Machine/State.lean ====
section
/-!
DEFINITION. The state of a ZX960 package as its programs, its host and its firmware can tell it apart, as plain data;
the ways a step stops; and the state after reset. One core, `me`, is the core acting; the other cores that hold
anything are listed beside it, so that every core's registers, mailbox and engines are in the state.
-/

namespace Sys2Proof.Machine

/-- The faults that end a run. -/
inductive Fault where
  /-- An access of the host or of firmware names a device physical address outside the 512 GiB of R217. Raised by
  the steps of host and firmware only; no program access reaches it. Safe: the model stops. -/
  | noSuchHome (dpa : Nat)
  deriving DecidableEq, Repr

/-- The refusals that end a run. -/
inductive Refusal where
  /-- No meaning yet for this row of the opcode table. Safe: the model stops. -/
  | notModelled (mnemonic : String)
  /-- A step that no word encodes was asked for in a state in which it does not come about (a reply with no access
  outstanding, an engine's step with no command). Raised by the meanings of such steps only, never by a word.
  Safe: the model stops where the part would have nothing to do. -/
  | notDue (mnemonic : String)
  deriving DecidableEq, Repr

/-- What every meaning answers with. -/
abbrev Out (σ : Type) := Host.Outcome σ Fault Refusal

/-! ## Translations and accesses -/

/-- A page as a TLB entry or a walk gives it: first address, size in bytes, the frame word and the placement word
(R228, R230, R236). -/
structure Tr where
  vbase : Nat
  size  : Nat
  w0    : Word
  w1    : Word
  deriving DecidableEq, Repr

/-- An entry of a core's TLB, tagged by the slot that filled it (R236). -/
structure TlbEntry where
  slot : Nat
  tr   : Tr
  deriving DecidableEq, Repr

/-- Access kinds, with the codes of a PFAULT's word 2 (R129). -/
inductive AccKind where
  | read | write | execute | atomic
  deriving DecidableEq, Repr

/-- The operations of the AMO forms (R268). -/
inductive AmoOp where
  | add | and | or | xor | min | max | minu | maxu | swap | cas
  deriving DecidableEq, Repr

/-- A decode table with its configuration (R322, R323). Codes 0x00 to 0x7F are held; the entry of code c + 0x80 is
the entry of c with the sign inverted, which the partner rule of R322 keeps true. -/
structure Table where
  half : List (BitVec 19)
  infV : Bool
  infC : BitVec 7
  nanV : Bool
  nanC : BitVec 7
  deriving DecidableEq, Repr

/-- What an access does at its homes when it is applied (R246). -/
inductive AccAct where
  /-- a scalar load of `size` bytes into window register `d` (R261) -/
  | load (d size : Nat) (signed : Bool)
  /-- a scalar store of the low `size` bytes (R261) -/
  | store (size : Nat) (v : Word)
  /-- an atomic on `w` bytes (R268) -/
  | amo (d w : Nat) (op : AmoOp) (b cmp : Word)
  /-- a vector load into vector register `vd`: format code, block-length code, and for each element its byte
  address and whether its code is the high nibble (R262, R266). A RAW LDV moves eight 8-byte patterns. -/
  | vload (vd fmt bl : Nat) (elems : List (Nat × Bool)) (table : Table)
  /-- a vector store of the lanes, in element order (R264, R266) -/
  | vstore (fmt bl : Nat) (elems : List (Nat × Bool)) (lanes : List Word) (table : Table)
  /-- WATCH's read of 8 bytes: window register `d` takes the word unless it equals `b` (R99) -/
  | watch (d : Nat) (b : Word)
  deriving DecidableEq, Repr

/-- An access that has issued: its address, the pages it was translated with, what it does, and the window
registers it will write (R25, R249). -/
structure Access where
  id    : Nat
  slot  : Nat
  va    : Nat
  pages : List Tr
  act   : AccAct
  regs  : List Nat
  /-- the cycle from which it may be applied, the last of its atoms with it -/
  due   : Nat
  /-- it is relaxed (R249) -/
  rx    : Bool := false
  /-- the atoms to come, each with the cycle from which it may be applied: a vector access applies its atoms separately
  (R246); those applied; and the bytes read so far, with the marks of their atoms. Atoms stand by virtual address / 32 -/
  parts : List (Nat × Nat) := []
  done  : List Nat := []
  got   : List (Nat × Byte × Bool) := []
  deriving DecidableEq, Repr

/-- A store to host memory that the host port has accepted and the host has not applied (R245, R248): its bytes by virtual
address, and the pages it was translated with, which give their homes (R210). -/
structure Posted where
  slot  : Nat
  /-- the thread that stored it still holds the slot -/
  live  : Bool
  due   : Nat
  pages : List Tr
  /-- by virtual address: the bits of the byte that are written, and the byte -/
  bytes : List (Nat × Byte × Byte)
  /-- a blocking store made it, which is complete once the host has applied it (R248) -/
  blocking : Bool := true
  deriving DecidableEq, Repr

/-! ## Thread slots -/

/-- The operands that both words of a parallel pair read: the register pool and the decode table as they stood
before the pair (R34, R322). -/
structure Latch where
  pool  : Sp Word
  table : Table
  deriving DecidableEq, Repr

/-- Word 1 of a parallel pair whose word 0 waits: the pair retires whole (R34). -/
structure Partner where
  instr : Instr
  latch : Latch
  /-- the cycle at whose start the hold of word 1 ends, 0 if it holds for none: fixed at the issue (R26) -/
  stop  : Nat
  deriving DecidableEq, Repr

/-- The engine queues on which a pusher parks (R201, R207, R313, R336, R374, R381). -/
inductive QueueId where
  | matrix | transfer | routing | collective | reproj | automaton
  deriving DecidableEq, Repr

/-- Why a slot is PARKED (R23). -/
inductive ParkWhy where
  /-- a TLB miss on the page that holds `va` (R236) -/
  | tlb (va : Nat) (kind : AccKind)
  /-- the walk found an invalid leaf, a PFAULT has gone out, and no PWAKE has come (R129) -/
  | fault (va : Nat) (kind : AccKind)
  /-- the pair's line is not in the instruction buffer (R122) -/
  | fetchLine (line : Nat)
  /-- HWAIT or HTAKE on a handle (R214, R272) -/
  | handle (h : Nat)
  /-- the wait after BAR: scope, which barrier cell, id, the joined phase, and whether only its low 8 bits are known
  (R98, R138) -/
  | bar (scope cell id : Nat) (phase : BitVec 16) (low8 : Bool)
  /-- BARW (R97) -/
  | barw (scope cell id : Nat)
  /-- RECV or RECVA (R94) -/
  | recv
  /-- SEND to a core whose mailbox has no free entry (R92) -/
  | mailbox (core : Nat)
  /-- CARWAIT.RAY, CARWAIT.START and CARWAIT.VERDICT (R184) -/
  | carRay (ray : Nat)
  | carStart (sel : Nat)
  | carVerdict (sel : Nat)
  /-- CARSUB with 16 core subscriptions held, or a TGT-2 CARSUB whose array is taken (R179, R390) -/
  | carSub
  /-- WATCH on the 64-byte line whose two atoms have these homes, in units of 32 bytes (R99) -/
  | watch (lo hi : Nat)
  /-- LINEUP `n` at a pair address, since a cycle (R88) -/
  | lineup (n pa since : Nat)
  /-- a full engine queue (R23) -/
  | queue (q : QueueId)
  /-- an STV to the segment port that the controller holds back (R198) -/
  | segPort (track entry : Nat)
  /-- TSWAIT (R205) -/
  | tsWait (key : Nat)
  deriving DecidableEq, Repr

/-- Why a slot is WAITING (R23). -/
inductive WaitWhy where
  /-- a blocking access has issued and its reply has not arrived -/
  | reply (a : Access)
  /-- the pair names registers that a relaxed load has yet to write: those window registers (R25) -/
  | regs (ks : List Nat)
  /-- 32 relaxed accesses are outstanding (R249) -/
  | limit
  /-- SEND, TSFILL, HGIVE or a barrier arrival before the thread's blocking stores to host memory are complete (R98, R253, R273) -/
  | posted
  /-- FENCE.rx (0), FENCE.eng (1), FENCE.sys (2) or WAITRX n (3) (R250, R269) -/
  | fence (kind n : Nat)
  /-- END with relaxed accesses outstanding (R84) -/
  | ending
  /-- a trap with TVEC = 0, while relaxed accesses are outstanding (R127) -/
  | endingFault
  /-- LARD (3), LAWR (4), LASEED (5) or LACLR (6) while accepted commands remain: the form, its destination and its
  operands (R380) -/
  | laDrain (form d : Nat) (a b : Word)
  /-- a migration's drains, before the window leaves (R235): the home die, and the clusters that CMASK names -/
  | migrate (die mask : Nat)
  /-- LAINF between its issue and its 16th cycle (R384): due cycle, vector register, result -/
  | lainf (due vd : Nat) (val : Rec)
  deriving DecidableEq, Repr

/-- The states of R23. -/
inductive SlotState where
  | empty | runnable | migrating
  | waiting (why : WaitWhy)
  /-- a hold that ends at the start of cycle `stop` (R26) -/
  | held (stop : Nat)
  | parked (why : ParkWhy)
  deriving DecidableEq, Repr

/-- A poisoned relaxed load whose reply has arrived and has not been reported (R128): the registers it left
unwritten and its address. -/
structure PoisonMark where
  regs : List Nat
  va   : Nat
  deriving DecidableEq, Repr

/-- A verdict record of R183: the selector, the code (0 is PENDING), and which request it belongs to. -/
structure Verdict where
  sel    : Nat
  code   : Nat
  serial : Nat
  deriving DecidableEq, Repr

/-- One thread slot with its thread (R23, R28, R113, R138). -/
structure Slot where
  st       : SlotState
  winBase  : Nat
  winSize  : Nat
  /-- pair address of the next word to issue, and its index (R33) -/
  pa       : Nat
  widx     : Nat
  thread   : Nat
  task     : Nat
  ntask    : Nat
  /-- launch tag (R88) -/
  tag      : Word
  prv      : Bool
  cls      : Nat
  /-- bits 56:3 of TVEC and of TPC (R125) -/
  tvec     : BitVec 54
  tpc      : BitVec 54
  tcause   : BitVec 5
  tpair    : BitVec 1
  tval     : Word
  /-- the cycle of the slot's last issue (R21) -/
  lastIssue : Option Nat
  /-- the first cycle in which the slot may be eligible again, after a YIELD (R85) or a wake (R24) -/
  elig     : Nat
  /-- register words whose writing waits for the end of a hold (R26) -/
  pend     : List (Nat × Word)
  /-- word 1 of a parallel pair that retires with the wait of word 0 (R34) -/
  partner  : Option Partner
  poisoned : List PoisonMark
  verdict  : Option Verdict
  /-- CARWAIT.START: the selector waited for and the roll call once the start has come (R184) -/
  started  : Option (Nat × Nat)
  /-- an address that a PWAKE with RESULT 1 has denied (R130) -/
  denied   : Option Nat
  /-- the slot's LINEUP has been released and retires at its next issue (R88) -/
  released : Bool
  /-- the handle whose abandonment woke the slot, for a ring HTAKE as consumer to trap on (R239) -/
  spurned  : Option Nat
  /-- RETT has sent the thread to its pair: a fault on the pair's fetch belongs to word 0 (R82, R87) -/
  landed   : Bool
  /-- the thread has come from another die, so its shading claims may lie in another cluster (R203, R235) -/
  migrated : Bool
  /-- the scratchpad banks, 32 * core + bank, that its last issue asked for, if it forfeited its cycle there (R27) -/
  forfeited : List Nat
  deriving DecidableEq, Repr

/-- A slot that holds no thread. DESIGN CHOICE (log entry 4). -/
def emptySlot : Slot :=
  { st := .empty, winBase := 0, winSize := 0, pa := 0, widx := 0, thread := 0, task := 0, ntask := 0, tag := 0,
    prv := false, cls := 0, tvec := 0, tpc := 0, tcause := 0, tpair := 0, tval := 0, lastIssue := none, elig := 0,
    pend := [], partner := none, poisoned := [], verdict := none, started := none, denied := none,
    released := false, spurned := none, landed := false, migrated := false, forfeited := [] }

/-- The slot that a thread has left: EMPTY, with the cycle of its last issue (R22). -/
def vacated (c : Slot) : Slot := { emptySlot with lastIssue := c.lastIssue }

/-! ## Handles, barriers, carousel state of a core -/

/-- The states of a buffer handle (R239). -/
inductive HState where
  | free | filling | full | draining
  deriving DecidableEq, Repr

/-- A buffer handle, with the fields of its 16-byte record (R239, R274). -/
structure Handle where
  gen      : BitVec 16
  st       : HState
  owner    : BitVec 5
  counted  : BitVec 28
  expected : BitVec 28
  ring     : Bool
  rlen     : BitVec 4
  rh0      : BitVec 6
  pidx     : BitVec 4
  cidx     : BitVec 4
  deriving DecidableEq, Repr

/-- A handle at the start of a context: FREE with GEN 0, owner none (R239, R274). -/
def freeHandle : Handle :=
  { gen := 0, st := .free, owner := 31, counted := 0, expected := 0, ring := false, rlen := 0, rh0 := 0, pidx := 0,
    cidx := 0 }

/-- A barrier cell: expected count N, arrival count, phase (R96); the last cycle with an arrival, and the phase at that
cycle's start, which every arrival of the cycle joins (R98). -/
structure Barrier where
  n     : Nat
  count : Nat
  phase : BitVec 16
  cycle : Nat := 0
  start : BitVec 16 := 0
  deriving DecidableEq, Repr

/-- An uninitialised barrier (R96). -/
def zeroBarrier : Barrier := { n := 0, count := 0, phase := 0 }

/-- A core subscription (R179): who made it, to what, where its blocks go, when its word retired, and how far the
start it caught has come. -/
structure CoreSub where
  id      : Nat
  slot    : Nat
  sel     : Nat
  catch_  : Word
  retired : Nat
  /-- the start it is catching, if any, and whether any block of it has been written -/
  start   : Option Nat
  wrote   : Bool
  /-- a poisoned block has cut this start for the subscription (R174) -/
  cut     : Bool
  deriving DecidableEq, Repr

/-- A block of a caught start on its way to its scratchpad bank (R27, R160): the cycle in which it came, the number and the id
of its core subscription, its start, its home, its 256 bytes, and whether it comes poisoned. -/
structure Catch where
  since : Nat
  n     : Nat
  sub   : Nat
  start : Nat
  home  : Nat
  data  : List Byte
  bad   : Bool
  deriving DecidableEq, Repr

/-- A ray under test (R167, R169): the subscription, the start, the unit's own skip count, and what a cut pass goes
back to (R135, R174): the closest hit and the side list at the start's block 0. `walks`: the start is of a kind that
the unit tests (R187). -/
structure RayTest where
  ray     : Nat
  sub     : Nat
  start   : Nat
  walks   : Bool
  skip    : Nat
  tmax0   : BitVec 32
  hit0    : BitVec 32
  side0   : List (Word × Nat)
  /-- DIST at the start's block 0 (R135) -/
  dist0   : BitVec 16
  deriving DecidableEq, Repr

/-- Why the intersection unit visits the record of a ray under test beside testing it (R162, R165, R167, R169, R135): it comes to
the start, a start is missed, a block overran the ring, the start's last block has passed, or the unit stops. -/
inductive VisitKind where
  | opens | late | overrun | complete | stop
  deriving DecidableEq, Repr

/-- A visit of the intersection unit to a ray's record, which asks for the record's scratchpad bank (R27): the subscription and
the start that it is about. -/
structure RayVisit where
  kind  : VisitKind
  ray   : Nat
  sub   : Nat
  start : Nat
  deriving DecidableEq, Repr

/-- A ray subscription (R147, R154, R187): ray, subscription word, selector, the segment's KIND when its word issued, retire
cycle. -/
structure RaySub where
  id      : Nat
  ray     : Nat
  sub     : Nat
  sel     : Nat
  kind    : Nat
  retired : Nat
  deriving DecidableEq, Repr

/-- A block in the intersection unit's catch ring (R162): its start, whether it is the start's last, its 256 bytes,
whether it came poisoned, and what a TAINT message about it will hold (R175). -/
structure RingBlock where
  start  : Nat
  sel    : Nat
  index  : Nat
  last   : Bool
  data   : List Byte
  bad    : Bool
  subs   : Nat
  starts : Nat
  deriving DecidableEq, Repr

/-! ## The learning-automaton array -/

/-- A command or record that the array has accepted (R381, R389): `op` 1 type I, 2 type II, 3 inference. -/
structure LaCmd where
  op     : Nat
  feat   : BitVec 256
  mask   : BitVec 128
  n      : BitVec 32
  /-- it came from a SAMPLE start: its queue position and the segment's USER word (R391) -/
  record : Option (Nat × Word)
  /-- the slot that pushed it, or that made the CARSUB, and its thread -/
  slot   : Nat
  thread : Nat
  /-- NF and NCL as they stood at acceptance (R395) -/
  nf     : Nat
  ncl    : Nat
  /-- the thread that pushed it still holds its slot (R250) -/
  live   : Bool := true
  deriving DecidableEq, Repr

/-- The array (R378, R394). -/
structure Automaton where
  /-- cell(c, l) at key 512c + l; an unlisted cell is -1 -/
  cells   : Sp (BitVec 8)
  /-- class(c), unlisted 0 -/
  classes : Sp (BitVec 3)
  /-- entry e: ACT in bits 9:8, THR in bits 7:0, unlisted 0 -/
  entries : Sp (BitVec 10)
  seed    : BitVec 32
  epoch   : BitVec 16
  count   : BitVec 32
  nf      : BitVec 9
  ncl     : BitVec 8
  /-- bit c: clause c is poisoned -/
  poison  : BitVec 128
  /-- accepted commands and records, the running one first -/
  queue   : List LaCmd
  /-- the cycle in which the running command started, and the next clause to update -/
  start   : Nat
  clause  : Nat
  /-- staged records of the SAMPLE start being caught: 64 bytes each (R390) -/
  staged  : List Rec
  /-- what the running inference record has read of the bank in its first cycle, and whether it read a poisoned clause
  (R391, R394) -/
  result  : Option (Rec × Bool) := none
  deriving DecidableEq, Repr

/-- The array at the start of a context (R378). -/
def startAutomaton : Automaton :=
  { cells := [], classes := [], entries := [], seed := 0, epoch := 0, count := 0, nf := 256, ncl := 128, poison := 0,
    queue := [], start := 0, clause := 0, staged := [] }

/-! ## The matrix and transfer engines -/

/-- A command of an engine queue (R207, R336): its record, who pushed it and with what rights, the handle's generation,
the decode table copied at acceptance (R322), the layout entries copied at acceptance (R279), and its progress. -/
structure EngCmd where
  recd   : Rec
  core   : Nat
  slot   : Nat
  thread : Nat
  prv    : Bool
  gen    : BitVec 16
  table  : Table
  src    : Rec
  dst    : Rec
  /-- bytes, steps or atoms completed (R134) -/
  done   : Nat
  /-- XSCAN: the elements selected so far (R286) -/
  found  : Nat
  /-- the address a PFAULT of this command waits on (R277), and whether it was denied -/
  fault  : Option Nat
  denied : Bool
  /-- the cycle from which the engine takes its next step -/
  ready  : Nat
  /-- the writes of the chunk under way that have not been applied, atom by atom, each with the cycle from which it may be
  applied (R246, R282, R333): home, the bits of the byte that are written, and the byte -/
  out    : List (Nat × List (Nat × Byte × Byte)) := []
  /-- the thread that pushed it still holds its slot (R84, R250) -/
  live   : Bool := true
  deriving DecidableEq, Repr

/-- The matrix engine's power state (R344); KINDLE and QUENCH carry the cycle in which they end. -/
inductive Power where
  | cold | hot
  | kindle (stop : Nat)
  | quench (stop : Nat)
  deriving DecidableEq, Repr

/-! ## One core -/

/-- One core (R1, R15 to R29). -/
structure Core where
  /-- CORE (R8) -/
  num       : Nat
  slots     : Sp Slot
  pool      : Sp Word
  /-- what the position counter held in cycle 0; it advances in every cycle (R15). The spare pointer (R21) -/
  phase     : Nat
  spare     : Nat
  /-- the cycle in which the core's reset ended, from which its CLOCK counts (R49, R143) -/
  born      : Nat
  /-- the live rotation table, sixteen entries, and the policy in force (R16, R17) -/
  rot       : List (BitVec 16)
  rotPol    : BitVec 1
  /-- the shadow copy, and the policy and table that wait for position 0 (R19) -/
  shadow    : List (BitVec 16)
  rotPend   : Option (BitVec 1 × List (BitVec 16))
  /-- EBUDGET: CAP and LEVEL; EFILL: RATE (R342) -/
  cap       : BitVec 32
  level     : BitVec 32
  rate      : BitVec 16
  /-- BELL: QUANTUM, and the resident cycles counted (R131) -/
  bell      : BitVec 48
  bellCount : Nat
  /-- the bell has rung and firmware, which has another context ready, has not made its request yet (R131) -/
  rung      : Bool
  /-- FOOTPRINT (R136) -/
  footprint : BitVec 35
  table     : Table
  layouts   : Sp Rec
  vectors   : Sp Word
  handles   : Sp Handle
  /-- mailbox entries in mailbox order, reserved entries, device messages that wait in the network, DROPS (R93, R95,
  R398) -/
  mbox      : List Message
  reserved  : Nat
  devWait   : List Message
  drops     : BitVec 16
  /-- the cycle in which the core last created a thread: it creates at most one in a cycle (R112) -/
  created   : Option Nat
  /-- core-scope barriers by id (R96) -/
  bars      : Sp Barrier
  /-- TLBs, most recently used entry first (R236) -/
  itlb      : List TlbEntry
  dtlb      : List TlbEntry
  /-- lines present in the instruction buffer (R122) -/
  lines     : List Nat
  /-- relaxed accesses outstanding, in issue order (R249), and stores posted to host pages (R248) -/
  relaxed   : List Access
  posted    : List Posted
  nextId    : Nat
  /-- the ray pool (R163, R172): live rays; side lists, each entry with the start that gave it; subscriptions; rays
  under test; catch ring -/
  live      : List Nat
  side      : Sp (List (Word × Nat))
  raySubs   : List RaySub
  tests     : List RayTest
  ring      : List RingBlock
  /-- visits to records that come before the ring's next record (R27) -/
  work      : List RayVisit
  /-- the record of the ring's first block to test next, and the cycle from which the unit is free -/
  ringRec   : Nat
  ringFree  : Nat
  /-- core subscriptions by number (R179) -/
  csubs     : Sp (Option CoreSub)
  /-- caught blocks that wait for their scratchpad bank, in the order in which they are granted (R27) -/
  catches   : List Catch
  la        : Automaton
  /-- matrix queue, head first; power state; burst deadline; the cycle in which the step in flight retires (R336,
  R344, R345); weight-buffer blocks marked poisoned (R368) -/
  mq        : List EngCmd
  power     : Power
  deadline  : Nat
  burst     : Bool
  inFlight  : Option Nat
  /-- the cycle of the last refill (R343) -/
  refilled  : Nat
  /-- the context's configured RATE, above which firmware does not raise EFILL (R307) -/
  rateCfg   : BitVec 16
  wpoison   : List Nat
  /-- transfer queue, head first (R207) -/
  xq        : List EngCmd
  /-- trace ring, oldest first, and the LOST mark (R257) -/
  trace     : List TraceEntry
  lost      : Bool
  /-- a pre-emption request has stopped issue, and the core has saved (R133) -/
  stopped   : Bool
  saved     : Bool
  /-- the address of the save area it has saved to (R137) -/
  saveArea  : Nat
  /-- issue begins again at the next position 0 (R142) -/
  resuming  : Bool
  deriving DecidableEq, Repr

/-- The integer table of R310: entry c is the E8M10 value c; no Inf code and no NaN code. -/
def integerEntry (c : Nat) : BitVec 19 :=
  if c = 0 then 0
  else
    let e := Nat.log2 c
    BitVec.ofNat 19 ((127 + e) * 1024 + (c - 2 ^ e) * 1024 / 2 ^ e)

/-- The decode table at the start of a context (R310, R323). -/
def integerTable : Table :=
  { half := (List.range 128).map integerEntry, infV := false, infC := 0, nanV := false, nanC := 0 }

/-- The reset rotation table: entry i names slot i with V = 1 (R20). -/
def resetRotation : List (BitVec 16) := (List.range 16).map fun i => BitVec.ofNat 16 (0x8000 + i)

/-- A core at the start of a context, every slot EMPTY (R20, R96, R144, R239, R310, R342, R344, R378).
DESIGN CHOICE (log entry 4). -/
def startCore (num : Nat) : Core :=
  { num := num, slots := [], pool := [], phase := 0, spare := 0, born := 0, rot := resetRotation, rotPol := 0,
    shadow := resetRotation, rotPend := none, cap := 8192, level := 8192, rate := 8192, bell := 0, bellCount := 0,
    rung := false, footprint := 0x7FFFFFFFF, table := integerTable, layouts := [], vectors := [], handles := [],
    mbox := [], reserved := 0, devWait := [], drops := 0, created := none, bars := [], itlb := [], dtlb := [], lines := [],
    relaxed := [], posted := [], nextId := 0, live := [], side := [], raySubs := [], tests := [], ring := [],
    work := [], ringRec := 0, ringFree := 0, csubs := [], catches := [], la := startAutomaton, mq := [], power := .cold, deadline := 0,
    burst := false, inFlight := none, refilled := 0, rateCfg := 8192, wpoison := [], xq := [], trace := [], lost := false, stopped := false,
    saved := false, saveArea := 0, resuming := false }

/-- The position counter in cycle `now` (R15). -/
def posOf (now : Nat) (m : Core) : Nat := (now + m.phase) % 16

/-- A core that keeps of another state of it only what belongs to the core itself and not to a context: the rotation
tables and policy, the position counter, CLOCK, DROPS, and the cycles in which its slots last issued (R15, R20, R22, R49,
R95). DEDUCED (log entry 45). -/
def bareCore (m : Core) : Core :=
  { startCore m.num with
    slots := m.slots.map fun e => (e.1, vacated e.2), phase := m.phase, spare := m.spare, born := m.born, rot := m.rot
    rotPol := m.rotPol, shadow := m.shadow, rotPend := m.rotPend, drops := m.drops, nextId := m.nextId }

/-! ## Clusters, dies, tracks -/

/-- A way of the shading cache (R203): key, owner while PENDING, the 64-byte payload once VALID, and the order in
which it was filled. -/
structure ShadeWay where
  key    : Nat
  valid  : Bool
  owner  : Nat
  data   : Rec
  filled : Nat
  deriving DecidableEq, Repr

/-- A range of tasks in a cluster's dispatch queue (R116). -/
structure TaskRange where
  next   : Nat
  stop   : Nat
  type   : Nat
  ntask  : Nat
  tag    : Word
  args   : List Word
  cores  : List Nat
  deriving DecidableEq, Repr

/-- A walk of a cluster's L2 TLB (R237): the address that missed first, and, once one of the 8 walkers serves it, the cycle from
which it is complete. -/
structure PageWalk where
  va  : Nat
  due : Option Nat
  deriving DecidableEq, Repr

/-- What a cluster's cores share (R1). -/
structure Cluster where
  /-- shading cache: set s holds up to four claimed ways, keyed by way number 4s + w (R203) -/
  shade    : Sp (Option ShadeWay)
  fills    : Nat
  /-- routing engine queue, head first (R313) -/
  rq       : List EngCmd
  /-- L2 TLB entries (R237) -/
  l2       : List Tr
  /-- walks in arrival order; the first 8 have a walker (R237) -/
  walks    : List PageWalk := []
  /-- lines of the 256 KiB instruction cache (R1, R122), the one served last first, and lines on their way to it, each with the
  cycle from which it is there -/
  icache   : List Nat := []
  filling  : List (Nat × Nat) := []
  /-- dispatch queue, and the cycle in which the cluster last gave a task: it gives one in a cycle (R116) -/
  dispatch : List TaskRange
  served   : Option Nat
  /-- the cycle in which the cluster's fetch port last served a line: it serves one in a cycle (R122) -/
  port     : Option Nat := none
  /-- cluster-scope barriers, and quad-scope barriers at 32q + id (R96) -/
  bars     : Sp Barrier
  quadBars : Sp Barrier
  deriving DecidableEq, Repr

/-- A cluster with nothing in it. -/
def startCluster : Cluster :=
  { shade := [], fills := 0, rq := [], l2 := [], dispatch := [], served := none, bars := [], quadBars := [] }

/-- A launch queue as a die's principal reads it (R101, R107, R109). -/
structure LaunchQueue where
  base    : Nat
  slots   : Nat
  r       : Nat
  /-- 0 RUNNING, 1 OVERRUN, 2 BADLAP (R109) -/
  code    : Nat
  badcnt  : Nat
  /-- the number firmware gave the queue when it was registered (R88) -/
  number  : Nat
  deriving DecidableEq, Repr

/-- A launch that a principal has begun and whose messages are under way (R107, R114): the queue as it stood, the record as
it was read, the next task or cluster, and whether the queue still waits for the record to be consumed: a launch that
has started runs on after a QRESET or a QREMOVE (R293). -/
structure Launching where
  queue : LaunchQueue
  words : List Word
  next  : Nat
  live  : Bool
  deriving DecidableEq, Repr

/-- A collective command in a die's queue (R347): the engine command, and whether it has started and matched. -/
structure CollCmd where
  cmd     : EngCmd
  started : Bool
  /-- the participants' contributions once read, in rank order -/
  ranks   : List RemoteRank
  /-- the position of this command among those of its GID on this die (R374) -/
  order   : Nat
  /-- its group list once started; it has read its own input; it has written its own output (R247) -/
  group   : List (BitVec 16) := []
  read    : Bool := false
  wrote   : Bool := false
  deriving DecidableEq, Repr

/-- A thread on its way to another die (R235): its slot, its window's words, the mailbox entries that travel with it, where
it comes from, and the clusters that it may go to. -/
structure Migrant where
  slot  : Slot
  words : List Word
  mail  : List Message
  core  : Nat
  from_ : Nat
  mask  : Nat
  /-- messages that have come for it on its way and follow it (R95): they have entered no mailbox yet -/
  late  : List Message := []
  deriving DecidableEq, Repr

/-- What a die holds (R1). -/
structure Die where
  /-- its principal has started (R303) -/
  principal : Bool
  queues    : List LaunchQueue
  /-- the launch under way (R107, R114) -/
  launching : Option Launching
  /-- reprojection queue, head first (R201) -/
  pq        : List EngCmd
  cq        : List CollCmd
  /-- commands accepted so far for each GID (R374) -/
  gids      : Sp Nat
  /-- commands that an engine fault has ended: GID and position (R350) -/
  failed    : List (Nat × Nat)
  /-- commands that are complete: GID, position and group list; and commands yet to come whose matches have been found to
  differ from them: GID and position (R347, R374) -/
  passed    : List (Nat × Nat × List (BitVec 16))
  mixed     : List (Nat × Nat)
  bars      : Sp Barrier
  /-- its cores are in reset (R233) -/
  inReset   : Bool
  /-- migrating threads that wait for a slot of this die, in arrival order (R235) -/
  arrivals  : List Migrant
  deriving DecidableEq, Repr

/-- A die with nothing in it. -/
def startDie : Die :=
  { principal := false, queues := [], launching := none, pq := [], cq := [], gids := [], failed := [], passed := [],
    mixed := [], bars := [], inReset := false, arrivals := [] }

/-- A segment descriptor (R151), its reserved bytes left out. -/
structure Segment where
  kind : Nat
  len  : Nat
  src  : Nat
  user : Word
  hold : Bool
  deriving DecidableEq, Repr

/-- A start the controller has called (R147): its slot cycle, its entry, the descriptor as it stood at the call, its
roll call, whether it has begun, and how many blocks have been delivered. -/
structure Start where
  id    : Nat
  slot  : Nat
  entry : Nat
  seg   : Segment
  roll  : Nat
  begun : Bool
  sent  : Nat
  deriving DecidableEq, Repr

/-- A pending promotion or skip request (R148, R157). -/
structure Request where
  promo : Bool
  core  : Nat
  slot  : Nat
  entry : Nat
  defer : Bool
  /-- a call has found it pending while its entry had HOLD = 1 (R148, R399) -/
  held  : Bool := false
  /-- the order in which the slot's verdict record was made, so that a replaced request reaches no slot (R183) -/
  serial : Nat
  deriving DecidableEq, Repr

/-- A track as the controller runs it (R147, R150, R156). -/
structure Track where
  segs    : List Segment
  /-- the next start slot, the cursor, ADV, the ADV of each promotion placed -/
  next    : Nat
  cursor  : Nat
  adv     : Nat
  promos  : List Nat
  pending : List Request
  /-- starts called and not yet wholly delivered, in slot order -/
  starts  : List Start
  /-- starts placed since reset (R175, R185) -/
  count   : Nat
  /-- for CARPOS: the fields that the controller sets, with the cycle from which they stood, and the starts: slot,
  entry, LEN (R185) -/
  posLog  : List (Nat × Word)
  airLog  : List (Nat × Nat × Nat)
  deriving DecidableEq, Repr

/-- A track with no segment. DEDUCED (log entry 33). -/
def startTrack : Track :=
  { segs := [], next := 256, cursor := 0, adv := 0, promos := [], pending := [], starts := [], count := 0,
    posLog := [], airLog := [] }

/-- A subscription as the controller knows it (R147, R155). -/
structure TakenSub where
  id      : Nat
  core    : Nat
  track   : Nat
  entry   : Nat
  retired : Nat
  /-- it is covered by a start that has been called -/
  covered : Bool
  deriving DecidableEq, Repr

/-- What travels to the carousel controller, taken 64 cycles after its word retires (R147). -/
inductive CtlWhat where
  | sub (t : TakenSub)
  /-- the withdrawal of a subscription -/
  | unsub (id : Nat)
  | request (r : Request)
  deriving DecidableEq, Repr

/-- A message to the controller (R147). -/
structure CtlMsg where
  due   : Nat
  core  : Nat
  slot  : Nat
  track : Nat
  what  : CtlWhat
  deriving DecidableEq, Repr

/-! ## The package, its frontiers and firmware -/

/-- A message on an on-die network (R92, R119). `held`: its mailbox entry was reserved by the SEND. -/
structure NetMsg where
  msg  : Message
  due  : Nat
  held : Bool
  deriving DecidableEq, Repr

/-- A completed phase whose wake is on its way (R121). -/
structure BarWake where
  scope : Nat
  cell  : Nat
  id    : Nat
  phase : BitVec 16
  due   : Nat
  deriving DecidableEq, Repr

/-- A page under re-striping (R210): its first address, size, old and new leaf words, atoms switched, whether its
shootdown runs, and whether it has stopped on a memory controller that is down (R212). -/
structure Restripe where
  vbase    : Nat
  size     : Nat
  old0     : Word
  old1     : Word
  new0     : Word
  new1     : Word
  switched : Nat
  core     : Nat
  shooting : Bool
  stuck    : Bool
  deriving DecidableEq, Repr

/-- A flit that the package has sent (R296): when it last went out, and when its acknowledgement comes back.
DESIGN CHOICE (log entry 59). -/
structure SentFlit where
  flit : Flit
  at_  : Nat
  ack  : Nat
  deriving DecidableEq, Repr

/-- An Afyar link (R295, R296): the lower generation of its two ends, its key and key epoch, the flits under the key, the
next counter expected, the flits it has sent, each with its acknowledgement, and the next counter it sends. -/
structure Link where
  gen     : Nat
  key     : Nat
  epoch   : Nat
  flits   : Nat
  expect  : Nat
  sent    : List SentFlit
  next    : Nat
  replays : Nat
  acks    : Nat
  deriving DecidableEq, Repr

/-- A link at partition start (R296). -/
def startLink : Link :=
  { gen := 3, key := 0, epoch := 0, flits := 0, expect := 0, sent := [], next := 0, replays := 0, acks := 0 }

/-- A kernel that didex has registered (R110). -/
structure Kernel where
  type  : Nat
  entry : Nat
  cls   : Nat
  win   : Nat
  deriving DecidableEq, Repr

/-- Firmware's own state (R290 to R309). -/
structure Firmware where
  /-- an image has verified and runs (R303) -/
  running   : Bool
  image     : FirmwareImage
  /-- last SEQ acted on (R292) -/
  lastSeq   : BitVec 16
  /-- events appended since the context was created (R294) -/
  events    : Nat
  /-- package power cap in watts (R307) -/
  cap       : Nat
  /-- the context is held back by a die's thermal limit until a new PCAP (R309) -/
  thermal   : Bool
  /-- the checkpoint being copied, and the last complete one (R301) -/
  copying   : Option Nat
  complete  : Nat
  /-- PFAULTs that wait for firmware's answer (R129): address, THREAD, CORE * 16 + SLOT -/
  pfaults   : List (Nat × Nat × Nat)
  /-- frames that firmware hands to XSTRIPE, frame words (R210) -/
  frames    : List Word
  /-- frames released by XSTRIPE (R210) -/
  released  : List Word
  /-- reports of memory and automaton errors (R174, R394): an atom by home address / 32, a block of a page without a valid
  leaf as 2^58 + address / 32, a clause of the array as 2^59 + clause -/
  reports   : List Nat
  /-- replay log: launch records as consumed (R299) -/
  recLog    : List LogRecord
  /-- replay log: drained trace entries, core first (R257, R299) -/
  log       : List (Nat × TraceEntry)
  logLost   : List Nat
  /-- class-0 messages as they entered a mailbox, with the cycle (R299) -/
  msgLog    : List (Nat × Message)
  /-- bytes of the replay log written to HBM (R299) -/
  logUsed   : Nat
  /-- SHAKE256 digests of the images that didex has loaded for the context (R306) -/
  digests   : List Nat
  /-- what didex reported of the last load that it refused: a line for each relocation that failed (R58) -/
  failure   : Option (List LoadLine)
  /-- launch queues registered so far (R88) -/
  qcount    : Nat
  /-- the cycle in which this package detected the fault that its job has yet to be resumed from (R7, R296, R302) -/
  faultAt   : Option Nat
  deriving DecidableEq, Repr

/-- Where the context stands: resident, stopping for a pre-emption (R133), saved, or stopped at once without a save
after a fault that interrupts the job (R296, R302). -/
inductive Switch where
  | resident
  | stopping
  | saved
  | broken
  deriving DecidableEq, Repr

/-- What an issue came to. -/
inductive Res where
  | running | retired | trapped | parked | waiting | held | forfeited
  deriving DecidableEq, Repr

/-- The issue under way: the slot, the pair's address, the word's index, whether the pair is parallel, the latched
operands of a parallel pair, the cycle, what the word came to, and the slot's last issue before this one. -/
structure Issue where
  slot  : Nat
  pa    : Nat
  word  : Nat
  par   : Bool
  latch : Option Latch
  cycle : Nat
  res   : Res
  prev  : Option Nat := none
  /-- bit 31 of the word in memory (R34, R36) -/
  bit31 : Bool := false
  deriving DecidableEq, Repr

/-- What a core's save area holds without a stated layout, or has no field for (R137): the ray pool's control state, the
rights and copies of its queued commands, and what travels beside the 64 bytes of a message. -/
structure KeptCore where
  live    : List Nat
  side    : Sp (List (Word × Nat))
  raySubs : List RaySub
  mq      : List EngCmd
  xq      : List EngCmd
  wpoison : List Nat
  devWait : List Message
  mail    : List (Word × Nat)
  rateCfg : BitVec 16
  deriving DecidableEq, Repr

/-- A replay under way (R257, R299): the logged writes yet to be applied, each with the core of its port, and whether a
write of the present step has come before its turn. The second field is the MODEL'S OWN (log entry 67). -/
structure Replay where
  left     : List (Nat × TraceEntry)
  early    : Bool
  /-- recorded launches yet to be fed (R299) -/
  launches : List LogRecord := []
  deriving DecidableEq, Repr

/-- What firmware keeps of a suspended context beside its partition save record (R139). -/
structure KeptPart where
  ctx      : CtxConfig
  clusters : Sp Cluster
  dies     : Sp Die
  tracks   : Sp Track
  kernels  : List Kernel
  /-- the save area of each core -/
  areas    : List (Nat × Nat)
  /-- its replay, as far as it had come -/
  replay   : Option Replay := none
  deriving DecidableEq, Repr

/-- A checkpoint as the buddy's region holds it (R301): its number, the address of the partition save record, the ranges
copied (first address and bytes: the save areas, the record and the pages that the context maps), their bytes and marks,
and what was kept beside them. -/
structure Checkpoint where
  number   : Nat
  base     : Nat
  ranges   : List (Nat × Nat)
  mem      : Sp Byte
  poison   : List Nat
  kept     : Sp (Option KeptCore)
  keptPart : Sp (Option KeptPart)
  /-- the re-stripings under way (R210, R302) -/
  stripes  : List Restripe
  deriving DecidableEq, Repr

/-- What firmware keeps for a context that is not the present one (R290, R292, R294, R299, R301, R306, R309): its
configuration, the address of its partition save record if it has been suspended (none: it has been created and not
started), and the fields of Firmware and State that belong to the context. -/
structure CtxFw where
  cfg      : CtxConfig
  base     : Option Nat
  lastSeq  : BitVec 16
  events   : Nat
  thermal  : Bool
  copying  : Option Nat
  complete : Nat
  pfaults  : List (Nat × Nat × Nat)
  recLog   : List LogRecord
  log      : List (Nat × TraceEntry)
  logLost  : List Nat
  msgLog   : List (Nat × Message)
  logUsed  : Nat
  digests  : List Nat
  dieMap   : List Nat
  restripes : List Restripe
  ckCopy   : Option Checkpoint
  ckWhole  : Option Checkpoint
  faultAt  : Option Nat
  /-- a context that has not started: its dies, which hold the launch queues registered for it (R293) -/
  queued   : Sp Die
  deriving DecidableEq, Repr

/-- A context at its creation (R290, R292, R294): no command acted on and no event. -/
def newCtxFw (cfg : CtxConfig) : CtxFw :=
  { cfg := cfg, base := none, lastSeq := 0, events := 0, thermal := false, copying := none, complete := 0, pfaults := [],
    recLog := [], log := [], logLost := [], msgLog := [], logUsed := 0, digests := [], dieMap := cfg.dieMap
    restripes := [], ckCopy := none, ckWhole := none, faultAt := none, queued := [] }

/-- What is left of the present cycle, in order: the threads of a core, what its engines do, and the end of the cycle, where
the host comes last (R247). MODEL'S OWN (log entry 1). -/
inductive Turn where
  | issue (core : Nat)
  | rest (core : Nat)
  | last
  deriving DecidableEq, Repr

/-- A scratchpad bank, 32 * core + bank, granted for a cycle (R27): to a catch, or to a step on a core of an engine or of an
access through the cluster window, which may have taken it already. -/
structure Grant where
  bank  : Nat
  cycle : Nat
  owner : Option (Nat × Instr)
  used  : Bool
  deriving DecidableEq, Repr

/-- What reaches the package from outside: the cycle from which it may land, the core it lands on, and the step.
MODEL'S OWN (log entries 60 and 66). -/
structure Input where
  due  : Nat
  core : Nat
  step : Instr
  deriving DecidableEq, Repr

/-- The package. -/
structure State where
  me       : Core
  others   : Sp (Option Core)
  clusters : Sp Cluster
  dies     : Sp Die
  tracks   : Sp Track
  /-- every byte by home address: HBM, scratchpads, weight buffers, host memory (R246) -/
  mem      : Sp Byte
  /-- 32-byte atoms marked poisoned, by home address / 32 (R174, R243) -/
  poison   : List Nat
  /-- cycles since reset (R49 CLOCK) -/
  clock    : Nat
  /-- MODEL'S OWN (log entry 1): what is left of the present cycle -/
  todo     : List Turn
  /-- the scratchpad banks granted to groups 1 and 3 of R27 -/
  banks    : List Grant
  /-- MODEL'S OWN (log entry 16): the banks that accesses of group 3 have asked for in the present step -/
  asked    : List Nat
  /-- the requests of group 3 that have been presented to a bank and not been granted, in the order of their places (R27) -/
  presented : List (Nat × Instr)
  /-- package number (R8) -/
  pkg      : Nat
  ctx      : CtxConfig
  switch   : Switch
  /-- the cycle before which a pre-emption request has yet to reach the cores (R141) -/
  stopAt   : Nat
  /-- the address of the present context's partition save record, once it has been suspended (R139) -/
  ctxBase  : Option Nat
  /-- the other contexts that firmware knows, by the address of their command line (R292), a further one of the same address 2^64
  higher -/
  away     : Sp (Option CtxFw)
  /-- virtual die to physical die (R290) -/
  dieMap   : List Nat
  kernels  : List Kernel
  net      : List NetMsg
  wakes    : List BarWake
  pkgBars  : Sp Barrier
  podBars  : Sp Barrier
  ctl      : List CtlMsg
  taken    : List TakenSub
  serial   : Nat
  restripes : List Restripe
  /-- memory controllers that are down, 32 * stack + channel (R233) -/
  memDown  : List Nat
  /-- remapped atoms, by device physical address / 32 (R243) -/
  remap    : List Nat
  /-- channels reported degraded, 32 * stack + channel (R243) -/
  degraded : List Nat
  /-- connection table (R288) -/
  conn     : Sp Word
  links    : Sp Link
  hostLink : LinkMode
  /-- the routing die's host-link port is down (R245) -/
  hostDown : Bool
  fw       : Firmware
  /-- suspended state by save-area address, and by the address of the partition save record (R137, R139) -/
  kept     : Sp (Option KeptCore)
  keptPart : Sp (Option KeptPart)
  /-- the checkpoint that is being copied, and the last complete one (R301) -/
  ckCopy   : Option Checkpoint
  ckWhole  : Option Checkpoint
  /-- the replay of a fixed-mode run, if the context is one (R257, R299) -/
  replay   : Option Replay
  iss      : Issue
  /-- MODEL'S OWN (log entries 60 and 66): what reaches the package from outside -/
  inputs   : List Input
  /-- MODEL'S OWN (log entry 6): delays of accesses, messages and engine steps to come, in cycles; 0 once the list is empty -/
  delays   : List Nat
  /-- MODEL'S OWN (log entry 7): how many free values have been drawn -/
  freeUsed : Nat
  deriving DecidableEq, Repr

/-- The partition before any context has been created: no core, no track, no page table.
DESIGN CHOICE (log entry 5). -/
def noContext : CtxConfig :=
  { cores := [], tracks := [], hbmStacks := [], root := 0, fixed := false, quantum := 0, rotTab := resetRotation,
    rotPol := 0, fwVectors := [], cmdLine := 0, eventRing := 0, packages := 1 }

/-- Firmware before boot (R303); the power cap after reset is 2,400 W (R307). -/
def startFirmware : Firmware :=
  { running := false, image := { verifies := false, version := 0, digest := 0 }, lastSeq := 0, events := 0, cap := 2400,
    thermal := false, copying := none, complete := 0, pfaults := [], frames := [], released := [], reports := [],
    recLog := [], log := [], logLost := [], msgLog := [], logUsed := 0, digests := [], failure := none, qcount := 0, faultAt := none }

/-- An issue that has not begun. -/
def noIssue : Issue :=
  { slot := 0, pa := 0, word := 0, par := false, latch := none, cycle := 0, res := .running }

/-- The package right after reset (R20, R23, R96, R303, R307): every slot EMPTY, the reset rotation table, FIXED, no
context, firmware not yet running. State that the spec gives only a context-start value has that value, and what it gives
no value stands at 0 or empty: DESIGN CHOICE (log entries 3, 4, 5 and 60). -/
def State.reset : State :=
  { me := startCore 0, others := [], clusters := [], dies := [], tracks := [], mem := [], poison := [], clock := 0,
    todo := [], banks := [], asked := [], presented := [], pkg := 0, ctx := noContext, switch := .resident, stopAt := 0, ctxBase := none, away := [], dieMap := [0, 1, 2, 3, 4, 5, 6, 7], kernels := [],
    net := [], wakes := [], pkgBars := [], podBars := [], ctl := [], taken := [], serial := 0, restripes := [],
    memDown := [], remap := [], degraded := [], conn := [], links := [], hostLink := .cxl31, hostDown := false, fw := startFirmware,
    kept := [], keptPart := [], ckCopy := none, ckWhole := none, replay := none, iss := noIssue, inputs := [], delays := [], freeUsed := 0 }

end Sys2Proof.Machine
end

