-- ==== Sys2Proof/Machine/Operands.lean ====
section
/-!
DEFINITION. The registers that each word names and the ones it writes (R25, R31, R32, R34), the words that need
privilege (R48 order 7), and reading and writing the issuing slot's window and vector registers (R28, R31).
-/

namespace Sys2Proof.Machine

/-- A register operand: a window register, a vector register, a run of window registers, or the computed index of
MOVX and MOVXS. -/
inductive RegUse where
  | g (k : BitVec 7)
  | v (i : BitVec 4)
  | run (b : BitVec 7) (n : Nat)
  | idx (a : BitVec 7) (imm : BitVec 11)
  deriving DecidableEq, Repr

/-- The registers a word names, from its highest field to its lowest, and those it writes. -/
structure Uses where
  names  : List RegUse
  writes : List RegUse
  deriving DecidableEq, Repr

/-- What each word names and writes; a step that no word encodes names nothing. DEDUCED (log entry 10). -/
def uses (i : Instr) : Uses :=
  match i with
  | .nop | .endThread | .yield | .swtrap _ | .rett | .lineup _ | .burst _ | .fenceRx | .fenceEng | .fenceSys |
    .waitrx _ | .jmp _ | .rottabWrite _ _ | .rotpolWrite _ | .rotationSwitch | .tvecWrite _ _ | .bellWrite _ |
    .tblcfgWrite _ | .ebudgetWrite _ | .efillWrite _ | .footprintWrite _ | .blockingReply _ |
    .relaxedAccessComplete _ | .holdEnd _ | .messageArrival _ | .waitingMessageStart _ | .deviceMessageEntry |
    .launchRecord _ _ | .dynamicTaskDispatch _ | .lineupRelease _ _ _ | .lineupTimeout _ _ _ |
    .fetchLineBroadcast _ | .barrierWake _ _ _ _ | .l2TlbHit _ | .walkComplete _ | .pwake _ _ _ _ |
    .migrationDepart _ | .migrationArrival _ | .bellRing | .preemptionRequest | .contextSave _ |
    .partitionSaveRecord _ | .contextResume _ _ | .contextStart _ | .dieRemap _ | .controllerTake |
    .segmentCall _ | .blockDelivery _ _ | .recordTest | .holdClear _ _ | .remapEntry _ _ |
    .memControllerDown _ _ | .segmentDescriptorWrite _ | .layoutEntryWrite _ _ | .xcopy _ | .xstripe _ |
    .xscan _ | .xfill _ | .transferChunk | .xstripeAtomSwitch | .shootdownPassed | .scanComplete | .mxmac _ |
    .mxwld _ | .mxepi _ | .mxzero _ | .matrixStep | .energyRefill | .kindleEnd | .quenchEnd | .burstDeadline |
    .rtsort _ | .routingRun _ | .reproj _ | .reprojRun _ | .a2av _ | .areduce _ | .agather _ | .rscatter _ |
    .collectiveStart _ _ | .collectiveComplete _ | .laClauseUpdate | .lainfComplete _ | .inferenceRecord |
    .cellSoftError _ | .hostAccess _ _ _ | .qreg _ _ | .qreset _ | .qremove _ | .ckpt | .pcap _ | .conn _ _ |
    .attest _ _ | .checkpointComplete | .jobFaultResume _ _ | .afyarFlitReceive _ _ | .linkReplay _ |
    .linkRekey _ | .linkTraining _ | .firmwareBoot | .powerSample _ | .thermalLimit _ | .traceRingDrain |
    .unassignedEncoding _ | .postedWriteDrain | .watchDrop _ | .firmwareImageWrite _ | .imageLoad _ |
    .checkpointSchedule | .refusedCommand _ | .dieCoresInReset _ =>
    ⟨[], []⟩
  | .mfs d _ | .jal d _ | .bar d _ _ | .bara d _ _ | .tid d | .ldi d _ | .ldih d _ =>
    ⟨[.g d], [.g d]⟩
  | .mts d _ | .barw d _ _ | .bari d _ _ =>
    ⟨[.g d], []⟩
  | .jalr d a _ | .ldB d a _ | .ldBu d a _ | .ldH d a _ | .ldHu d a _ | .ldW d a _ | .ldWu d a _ | .ldD d a _ |
    .ldBRx d a _ | .ldBuRx d a _ | .ldHRx d a _ | .ldHuRx d a _ | .ldWRx d a _ | .ldWuRx d a _ | .ldDRx d a _ |
    .hgen d a | .carpos d a | .carwaitRay d a | .carwaitStart d a | .carwaitVerdict d a | .hitpop d a |
    .raykill d a | .lard d a | .tblr d a | .clz d a | .ctz d a | .popc d a | .brev d a | .bswap d a | .ptag d a
    | .addi d a _ | .andi d a _ | .ori d a _ | .xori d a _ | .shli d a _ | .shri d a _ | .sari d a _ |
    .roli d a _ | .rori d a _ | .slti d a _ | .addpi d a _ | .fsqrtD d a | .fclassD d a | .fsqrtS d a |
    .fclassS d a | .fcvt _ d a _ _ =>
    ⟨[.g d, .g a], [.g d]⟩
  | .beq a b _ | .bne a b _ | .blt a b _ | .bge a b _ | .bltu a b _ | .bgeu a b _ | .bset a b _ | .bclr a b _ |
    .carpromo a b | .lawr a b | .laseed a b | .tblw a b =>
    ⟨[.g a, .g b], []⟩
  | .beqz a _ | .bnez a _ | .bltz a _ | .bgez a _ | .bgtz a _ | .blez a _ | .carskip a | .laclr a =>
    ⟨[.g a], []⟩
  | .stB d a _ | .stH d a _ | .stW d a _ | .stD d a _ | .stBRx d a _ | .stHRx d a _ | .stWRx d a _ |
    .stDRx d a _ =>
    ⟨[.g d, .g a], []⟩
  | .ldv d a _ | .ldvRx d a _ | .rayget d a | .vbcast d a | .vbcastD d a =>
    ⟨[.v d, .g a], [.v d]⟩
  | .stv d a _ | .stvRx d a _ | .rayput d a =>
    ⟨[.v d, .g a], []⟩
  | .gather d a vb | .gatherRx d a vb =>
    ⟨[.v d, .g a, .v vb], [.v d]⟩
  | .scatter d a vb | .scatterRx d a vb =>
    ⟨[.v d, .g a, .v vb], []⟩
  | .amoaddW d a b | .amoandW d a b | .amoorW d a b | .amoxorW d a b | .amominW d a b | .amomaxW d a b |
    .amominuW d a b | .amomaxuW d a b | .amoswapW d a b | .amocasW d a b | .amoaddD d a b | .amoandD d a b |
    .amoorD d a b | .amoxorD d a b | .amominD d a b | .amomaxD d a b | .amominuD d a b | .amomaxuD d a b |
    .amoswapD d a b | .amocasD d a b | .htake d a b | .hgive d a b | .hwait d a b | .hstat d a b | .hring d a b
    | .carsub d a b | .carunsub d a b | .raysub d a b | .watch d a b | .add d a b | .sub d a b | .and d a b |
    .or d a b | .xor d a b | .andn d a b | .shl d a b | .shr d a b | .sar d a b | .rol d a b | .ror d a b |
    .slt d a b | .sltu d a b | .seq d a b | .min d a b | .max d a b | .minu d a b | .maxu d a b | .mul d a b |
    .mulh d a b | .mulhu d a b | .div d a b | .divu d a b | .rem d a b | .remu d a b | .sel d a b | .ilv2 d a b
    | .ilv3 d a b | .dilv2 d a b | .dilv3 d a b | .extr d a b | .depo d a b | .addp d a b | .mkptr d a b |
    .vkey d a b | .faddD d a b | .fsubD d a b | .fmulD d a b | .fdivD d a b | .fmaD d a b | .fminD d a b |
    .fmaxD d a b | .feqD d a b | .fltD d a b | .fleD d a b | .fsgnjD d a b | .fsgnjnD d a b | .faddS d a b |
    .fsubS d a b | .fmulS d a b | .fdivS d a b | .fmaS d a b | .fminS d a b | .fmaxS d a b | .feqS d a b |
    .fltS d a b | .fleS d a b | .fsgnjS d a b | .fsgnjnS d a b =>
    ⟨[.g d, .g a, .g b], [.g d]⟩
  | .send _ a b =>
    ⟨[.g a, .run b 7], []⟩
  | .recv a b =>
    ⟨[.g a, .run b 8], [.run b 8]⟩
  | .recva b =>
    ⟨[.run b 8], [.run b 8]⟩
  | .mbox b =>
    ⟨[.g b], [.g b]⟩
  | .lainf d a | .vfsqrtS d a | .vfsqrtD d a | .vcmpEq d a _ | .vcmpNe d a _ | .vcmpLt d a _ | .vcmpGe d a _ |
    .vcmpLtu d a _ | .vcmpGeu d a _ | .vcvtHS d a _ | .vcvtBhS d a _ | .vcvtES d a _ | .vcvtWS d a _ |
    .vcvtSW d a _ | .vcvtSD d a _ | .vcvtDS d a _ | .vcvtLD d a _ | .vcvtDL d a _ | .vq d a _ _ | .vqSc d a _ _
    | .vdq d a _ | .vdqSc d a _ =>
    ⟨[.v d, .v a], [.v d]⟩
  | .lafb1 d a | .lafb2 d a | .vredAddW d a | .vredMinW d a | .vredMaxW d a | .vredMinuW d a | .vredMaxuW d a |
    .vredAndW d a | .vredOrW d a | .vredXorW d a | .vredFaddS d a | .vredFminS d a | .vredFmaxS d a |
    .vredFaddD d a | .vredFminD d a | .vredFmaxD d a | .vredAddD d a =>
    ⟨[.g d, .v a], [.g d]⟩
  | .tsreq d a b | .tswait d a b =>
    ⟨[.g d, .g a, .v b], [.g d, .v b]⟩
  | .tsfill d a b =>
    ⟨[.g d, .g a, .v b], [.g d]⟩
  | .movx d a imm =>
    ⟨[.g d, .g a, .idx a imm], [.g d]⟩
  | .movxs d a imm =>
    ⟨[.g d, .g a, .idx a imm], [.idx a imm]⟩
  | .vadd d a b | .vsub d a b | .vand d a b | .vor d a b | .vxor d a b | .vshl d a b | .vshr d a b | .vsar d a b
    | .vmin d a b | .vmax d a b | .vminu d a b | .vmaxu d a b | .vmul d a b | .vmulh d a b | .vadds d a b |
    .vsubs d a b | .vfaddS d a b | .vfsubS d a b | .vfmulS d a b | .vfdivS d a b | .vfmaS d a b | .vfminS d a b
    | .vfmaxS d a b | .vfaddD d a b | .vfsubD d a b | .vfmulD d a b | .vfdivD d a b | .vfmaD d a b |
    .vfminD d a b | .vfmaxD d a b | .vperm d a b | .vsel d a b =>
    ⟨[.v d, .v a, .v b], [.v d]⟩
  | .vext d a b =>
    ⟨[.g d, .v a, .g b], [.g d]⟩
  | .vins d a b =>
    ⟨[.v d, .g a, .g b], [.v d]⟩
  | .boxt d a b | .trit d a b | .splt d a b =>
    ⟨[.g d, .v a, .v b], [.g d]⟩

/-- The special registers that only a privileged thread writes (R49). -/
def privSr (sr : Nat) : Bool := sr ∈ [0x040, 0x041, 0x042, 0x043, 0x044, 0x050, 0x051, 0x060, 0x080]

/-- The words that need privilege (R49, R97). -/
def needsPriv (i : Instr) : Bool :=
  match i with
  | .mts _ sr => privSr sr.toNat
  | .bari _ scope _ => scope == 4 || scope == 5
  | _ => false

/-! ## The issuing slot and its window -/

/-- Slot k of the core acting. -/
def slotOf (s : State) (k : Nat) : Slot := spGet emptySlot s.me.slots k

/-- The issuing slot. -/
def cur (s : State) : Slot := slotOf s s.iss.slot

/-- The core acting, changed. -/
def onMe (f : Core → Core) (s : State) : State := { s with me := f s.me }

/-- Slot k, set. -/
def setSlot (k : Nat) (v : Slot) (s : State) : State :=
  { s with me := { s.me with slots := spSet emptySlot s.me.slots k v } }

/-- The issuing slot, changed. -/
def onCur (f : Slot → Slot) (s : State) : State := setSlot s.iss.slot (f (cur s)) s

/-- The pool that the word reads: as it stood before the pair, for a word of a parallel pair (R34). -/
def readPool (s : State) : Sp Word := match s.iss.latch with | some l => l.pool | none => s.me.pool

/-- The decode table that the word reads (R322). -/
def tableOf (s : State) : Table := match s.iss.latch with | some l => l.table | none => s.me.table

/-- Window register k as the word reads it (R28). -/
def rdN (s : State) (k : Nat) : Word := spGet 0 (readPool s) ((cur s).winBase + k)

/-- Register gk. -/
def rd (s : State) (k : BitVec 7) : Word := rdN s k.toNat

/-- Window register k of slot `sl`, written. -/
def wrSlot (sl : Nat) (k : Nat) (v : Word) (s : State) : State :=
  { s with me := { s.me with pool := spSet 0 s.me.pool ((slotOf s sl).winBase + k) v } }

/-- Window register k of the issuing slot, written. -/
def wrN (k : Nat) (v : Word) (s : State) : State := wrSlot s.iss.slot k v s

/-- Register gk, written. -/
def wr (k : BitVec 7) (v : Word) (s : State) : State := wrN k.toNat v s

/-- Consecutive window registers of slot `sl` from k, written in order. -/
def wrSlotRun (sl k : Nat) (ws : List Word) (s : State) : State :=
  match ws with
  | [] => s
  | w :: l => wrSlotRun sl (k + 1) l (wrSlot sl k w s)

/-- Consecutive window registers from k, written in order. -/
def wrRun (k : Nat) (ws : List Word) (s : State) : State := wrSlotRun s.iss.slot k ws s

/-- n consecutive window registers from k. -/
def rdRun (s : State) (k n : Nat) : List Word := (List.range n).map fun j => rdN s (k + j)

/-! ## Vector registers (R31) -/

/-- The eight words of vi. -/
def rdV (s : State) (v : BitVec 4) : List Word := rdRun s (8 * v.toNat) 8

/-- vi, written. -/
def wrV (v : BitVec 4) (ws : List Word) (s : State) : State := wrRun (8 * v.toNat) ws s

/-- Lane j of the 16-lane form. -/
def lane32 (ws : List Word) (j : Nat) : BitVec 32 :=
  ((ws[j / 2]?).getD 0).extractLsb' (32 * (j % 2)) 32

/-- Lane j of the 8-lane form. -/
def lane64 (ws : List Word) (j : Nat) : Word := (ws[j]?).getD 0

/-- The eight words of sixteen 32-bit lanes. -/
def words32 (f : Nat → BitVec 32) : List Word := (List.range 8).map fun k => f (2 * k + 1) ++ f (2 * k)

/-- The eight words of eight 64-bit lanes. -/
def words64 (f : Nat → Word) : List Word := (List.range 8).map f

/-- A 64-byte record from its eight words, lowest first. -/
def recOf (ws : List Word) : Rec := BitVec.ofNat 512 (ws.foldr (fun w acc => w.toNat + 2 ^ 64 * acc) 0)

/-- The eight words of a record. -/
def wordsOf (r : Rec) : List Word := (List.range 8).map fun k => r.extractLsb' (64 * k) 64

/-- The n bytes of a record from byte k, read little-endian. -/
def recNat (r : Rec) (k n : Nat) : Nat := (r.extractLsb' (8 * k) (8 * n)).toNat

/-! ## Which window registers -/

/-- The index that MOVX and MOVXS compute (R72). -/
def movIdx (s : State) (a : BitVec 7) (imm : BitVec 11) : Int := (rd s a).toInt + imm.toInt

/-- The window registers of an operand. -/
def regsOf (s : State) (u : RegUse) : List Nat :=
  match u with
  | .g k => [k.toNat]
  | .v i => (List.range 8).map (8 * i.toNat + ·)
  | .run b n => (List.range n).map (b.toNat + ·)
  | .idx a imm =>
    let k := movIdx s a imm
    if 0 ≤ k ∧ k < (cur s).winSize then [k.toNat] else []

/-- TVAL of the REG_BOUNDS trap that an operand takes, if it takes one (R32). -/
def boundsOf (s : State) (u : RegUse) : Option Word :=
  let n := (cur s).winSize
  match u with
  | .g k => if n ≤ k.toNat then some (k.setWidth 64) else none
  | .v i => if n ≤ 8 * i.toNat + 7 then some (BitVec.ofNat 64 (8 * i.toNat)) else none
  | .run b m => if n ≤ b.toNat + (m - 1) then some (BitVec.ofNat 64 (b.toNat + (m - 1))) else none
  | .idx a imm =>
    let k := movIdx s a imm
    if k < 0 ∨ (n : Int) ≤ k then some (BitVec.ofInt 64 k) else none

/-- The first operand outside the window (R32, order 5 of R48). DEDUCED (log entry 10). -/
def boundsFault (s : State) (us : List RegUse) : Option Word := us.findSome? (boundsOf s)

/-- The window registers a word names. -/
def namedRegs (s : State) (u : Uses) : List Nat := u.names.flatMap (regsOf s)
/-- The window registers a word writes. -/
def writtenRegs (s : State) (u : Uses) : List Nat := u.writes.flatMap (regsOf s)

end Sys2Proof.Machine
end

