-- ==== Sys2Proof/Machine/Ops.lean ====
section
/-!
DEFINITION. The operations that every meaning is built from: retiring, waiting and parking (R23, R24, R34, R35),
taking a trap (R124 to R127) and the return from one (R87), ending a thread (R84), waking, messages of the device's
own units (R398), handle moves (R239), moving to another core, and the checks that come before a word's own effect
(R25, orders 5, 7 and the POISON check of R48).
-/

namespace Sys2Proof.Machine

/-! ## Codes -/

/-- Trap causes (R126). -/
abbrev cIllegal : BitVec 5 := 0x01
/-- REG_BOUNDS -/
abbrev cRegBounds : BitVec 5 := 0x02
/-- ADDR_OVF -/
abbrev cAddrOvf : BitVec 5 := 0x03
/-- MISALIGN -/
abbrev cMisalign : BitVec 5 := 0x04
/-- PERM -/
abbrev cPerm : BitVec 5 := 0x05
/-- REACH -/
abbrev cReach : BitVec 5 := 0x06
/-- SPLIT_HOME -/
abbrev cSplitHome : BitVec 5 := 0x07
/-- HOME_DOWN -/
abbrev cHomeDown : BitVec 5 := 0x08
/-- MEM_DOWN -/
abbrev cMemDown : BitVec 5 := 0x09
/-- FORMAT -/
abbrev cFormat : BitVec 5 := 0x0A
/-- CMD_RESERVED -/
abbrev cCmdReserved : BitVec 5 := 0x0B
/-- ALIAS -/
abbrev cAlias : BitVec 5 := 0x0C
/-- SCHEDULE -/
abbrev cSchedule : BitVec 5 := 0x0D
/-- PRIV -/
abbrev cPriv : BitVec 5 := 0x0E
/-- SWTRAP -/
abbrev cSwtrap : BitVec 5 := 0x0F
/-- POISON -/
abbrev cPoison : BitVec 5 := 0x11

/-! ## Places -/

/-- CLUSTER of a core (R8). -/
def clusterOf (core : Nat) : Nat := core / Config.coresPerCluster
/-- DIE of a core (R8). -/
def dieOf (core : Nat) : Nat := core / Config.coresPerDie
/-- The core that a die's principal sits on (R106). -/
def principalCore (die : Nat) : Nat := Config.coresPerDie * die

/-! ## Other cores -/

/-- Core c as the package holds it. -/
def coreOf (s : State) (c : Nat) : Core :=
  if c = s.me.num then s.me else (spGet none s.others c).getD (startCore c)

/-- The package with core c acting. -/
def focus (c : Nat) (s : State) : State :=
  if c = s.me.num then s
  else
    let m := coreOf s c
    { s with others := spSet none (spSet none s.others c none) s.me.num (some s.me), me := { m with num := c } }

/-- A change made with core c acting; the core that was acting acts again after it. -/
def withCore (c : Nat) (f : State → State) (s : State) : State := focus s.me.num (f (focus c s))

/-- CLOCK of a core: the cycles since its reset (R49). -/
def coreClock (s : State) (m : Core) : Nat := s.clock - m.born

/-- The core's own cluster and die. -/
def myCluster (s : State) : Nat := clusterOf s.me.num
/-- The die of the core acting. -/
def myDie (s : State) : Nat := dieOf s.me.num

/-- Cluster c. -/
def clusterAt (s : State) (c : Nat) : Cluster := spGet startCluster s.clusters c
/-- Cluster c, set. -/
def setCluster (c : Nat) (v : Cluster) (s : State) : State := { s with clusters := spSet startCluster s.clusters c v }
/-- Die d. -/
def dieAt (s : State) (d : Nat) : Die := spGet startDie s.dies d
/-- Die d, set. -/
def setDie (d : Nat) (v : Die) (s : State) : State := { s with dies := spSet startDie s.dies d v }

/-! ## Delays: the model's own schedule -/

/-- The next delay of the schedule, and the state without it; 0 once the schedule is empty.
DESIGN CHOICE (log entry 6). -/
def popDelay (s : State) : Nat × State :=
  match s.delays with
  | [] => (0, s)
  | d :: ds => (d, { s with delays := ds })

/-! ## Who issues (R21) -/

/-- The slot may issue in cycle `now` (R21, R22, R85). -/
def eligible (m : Core) (now k : Nat) : Bool :=
  let c := spGet emptySlot m.slots k
  c.st == .runnable && decide (c.elig ≤ now) && (match c.lastIssue with | some t => decide (t + 8 ≤ now) | none => true)

/-- The cycle's owner, if its entry has V = 1 (R15, R16). -/
def owner (m : Core) (now : Nat) : Option Nat :=
  let e := ((m.rot[posOf now m]?).getD 0).toNat
  if e / 2 ^ 15 = 1 then some (e % 16) else none

/-- The issuing slot, and the spare pointer after it (R21). -/
def chooseSlot (m : Core) (now : Nat) : Option (Nat × Nat) :=
  match (owner m now).filter (eligible m now) with
  | some k => some (k, m.spare)
  | none =>
    if m.rotPol = 1 then
      (((List.range 16).map fun k => (m.spare + k) % 16).find? (eligible m now)).map fun q => (q, (q + 1) % 16)
    else none

/-- The context runs on the core acting: it is resident, and no pre-emption has stopped the core, which issues in the cycle of the
request itself (R133, R141). -/
def runsHere (s : State) : Bool := (s.switch == .resident || s.switch == .stopping) && !s.me.stopped

/-- The core acting may issue: its context runs on it, it is not in reset, and after a resume the position counter has come to 0
(R133, R142, R233). -/
def mayIssue (s : State) : Bool := runsHere s && !s.me.resuming && !(dieAt s (myDie s)).inReset

/-- After a resume, once the context is resident on every core, issue begins at the next cycle in which the position counter
stands at 0 (R142). -/
def atZero (s : State) : State :=
  if runsHere s ∧ posOf s.clock s.me = 0 then { s with me := { s.me with resuming := false } } else s

/-- The slot that issues on the core acting, with the spare pointer after it. -/
def issuing (s : State) : Option (Nat × Nat) := if mayIssue s then chooseSlot s.me s.clock else none

/-! ## Program position, retiring, waiting, parking -/

/-- A pair address as the position holds it: bits 56:3 (R137). DEDUCED (log entry 11). -/
def wrapPa (t : Nat) : Nat := t % Config.vaTop / 8 * 8

/-- Where the program stands once the word has retired (R34, R35): word 1 of a parallel pair moves nothing, since
word 0 has moved. DEDUCED (log entry 11). -/
def nextPos (i : Issue) (c : Slot) : Nat × Nat :=
  if i.par then (if i.word = 0 then (wrapPa (i.pa + 8), 0) else (c.pa, c.widx))
  else if i.word = 0 then (i.pa, 1)
  else (wrapPa (i.pa + 8), 0)

/-- The issue has come to `r`. -/
def setRes (r : Res) (s : State) : State := { s with iss := { s.iss with res := r } }

/-- The word retires. -/
def advance (s : State) : State :=
  setRes .retired (onCur (fun c => { c with pa := (nextPos s.iss c).1, widx := (nextPos s.iss c).2 }) s)

/-- The word retires, in an outcome. -/
def retire (s : State) : Out State := .next (advance s)

/-- The word retires and the thread goes on at word 0 of the pair at t (R44, R82). -/
def goTo (t : Nat) (s : State) : State := setRes .retired (onCur (fun c => { c with pa := wrapPa t, widx := 0 }) s)

/-- gd := v, and the word retires. -/
def retireWr (d : BitVec 7) (v : Word) (s : State) : Out State := retire (wr d v s)

/-- vd := ws, and the word retires. -/
def retireV (d : BitVec 4) (ws : List Word) (s : State) : Out State := retire (wrV d ws s)

/-- The pair finds that it cannot proceed (R24). -/
def park (why : ParkWhy) (s : State) : Out State :=
  .next (setRes .parked (onCur (fun c => { c with st := .parked why }) s))

/-- The pair waits (R23, R25). -/
def waitFor (why : WaitWhy) (s : State) : Out State :=
  .next (setRes .waiting (onCur (fun c => { c with st := .waiting why }) s))

/-- The pair's scratchpad access is not granted (R27): nothing of the pair takes effect, the slot's last issue time stays, and
it issues the pair again in its next turn, when it asks for the same banks. -/
def forfeit (banks : List Nat) (s : State) : Out State :=
  .next (setRes .forfeited (onCur (fun c => { c with lastIssue := s.iss.prev, forfeited := banks }) s))

/-- An outcome, with a change made to its next state. -/
def onNext (f : State → State) (o : Out State) : Out State :=
  match o with
  | .next s => .next (f s)
  | .fault r => .fault r
  | .refused r => .refused r

/-- A slot made RUNNABLE by a wake or a reply in this cycle, eligible from the next (R24). -/
def wakeSlot (now : Nat) (c : Slot) : Slot := { c with st := .runnable, elig := Nat.max c.elig (now + 1) }

/-- Every parked slot of a core whose cause satisfies p wakes. -/
def wakeCore (now : Nat) (p : ParkWhy → Bool) (m : Core) : Core :=
  { m with slots := m.slots.map fun e =>
      match e.2.st with
      | .parked w => if p w then (e.1, wakeSlot now e.2) else e
      | _ => e }

/-- Every parked slot of the core acting whose cause satisfies p wakes. -/
def wake (p : ParkWhy → Bool) (s : State) : State := { s with me := wakeCore s.clock p s.me }

/-- Every parked slot of the package whose cause satisfies p wakes. -/
def wakeAll (p : ParkWhy → Bool) (s : State) : State :=
  { s with
    me := wakeCore s.clock p s.me
    others := s.others.map fun e => (e.1, e.2.map (wakeCore s.clock p)) }

/-- Every parked slot of the cores in `at_` whose cause satisfies p wakes. -/
def wakeIn (at_ : Nat → Bool) (p : ParkWhy → Bool) (s : State) : State :=
  { s with
    me := if at_ s.me.num then wakeCore s.clock p s.me else s.me
    others := s.others.map fun e => if at_ e.1 then (e.1, e.2.map (wakeCore s.clock p)) else e }

/-! ## Messages of the device's own units -/

/-- A header word (R91). -/
def mkHdr (seq type score sslot dcore dslot : Nat) (dk nc : Bool) : Word :=
  BitVec.ofNat 64 (seq % 2 ^ 16 * 2 ^ 48 + type % 2 ^ 8 * 2 ^ 40 + score % 2 ^ 12 * 2 ^ 28 + sslot % 16 * 2 ^ 24 +
    dcore % 2 ^ 12 * 2 ^ 12 + dslot % 16 * 2 ^ 8 + dk.toNat * 2 ^ 7 + nc.toNat * 2 ^ 6)

/-- SEQ -/
def hdrSeq (h : Word) : Nat := h.toNat / 2 ^ 48 % 2 ^ 16
/-- TYPE -/
def hdrType (h : Word) : Nat := h.toNat / 2 ^ 40 % 2 ^ 8
/-- SCORE · 16 + SSLOT -/
def hdrFrom (h : Word) : Nat := h.toNat / 2 ^ 24 % 2 ^ 16
/-- DCORE -/
def hdrCore (h : Word) : Nat := h.toNat / 2 ^ 12 % 2 ^ 12
/-- DSLOT -/
def hdrSlot (h : Word) : Nat := h.toNat / 2 ^ 8 % 16
/-- DK -/
def hdrDk (h : Word) : Bool := h.toNat / 2 ^ 7 % 2 == 1
/-- NC -/
def hdrNc (h : Word) : Nat := h.toNat / 2 ^ 6 % 2

/-- The least cycle in which a message may enter its mailbox: not before an earlier message of its sender, its
destination and its class (R93). -/
def notBefore (net : List NetMsg) (m : Message) (due : Nat) : Nat :=
  net.foldl (fun d n =>
    if hdrFrom n.msg.hdr = hdrFrom m.hdr ∧ hdrCore n.msg.hdr = hdrCore m.hdr ∧ hdrNc n.msg.hdr = hdrNc m.hdr
    then Nat.max d n.due else d) due

/-- The cycle in which a core injects a class-0 message: the next one whose place in the frame of 24 cycles is the number
of the core's quad in its cluster (R119). DESIGN CHOICE (log entry 71). -/
def injectCycle (core now : Nat) : Nat := now + (core % Config.coresPerCluster / 4 + 24 - now % 24) % 24

/-- The bound of a class-0 message's way from core a to core b, in cycles (R120). -/
def netBound (a b : Nat) : Nat := if clusterOf a = clusterOf b then 48 else if dieOf a = dieOf b then 160 else 600

/-- The cycle in which a message that leaves now with a delay of d reaches its core: class 0 waits for its turn in the frame
and keeps its bound (R119, R120); class 1 has none. -/
def netDue (m : Message) (now d : Nat) : Nat :=
  if hdrNc m.hdr = 0 then
    let src := hdrFrom m.hdr / 16
    Nat.max (injectCycle src now) (now + Nat.min d (netBound src (hdrCore m.hdr)))
  else now + d

/-- A message goes out on its network. `held`: its mailbox entry is reserved. DESIGN CHOICE (log entry 6).
DESIGN CHOICE (log entry 71). -/
def sendNet (m : Message) (held : Bool) (s : State) : State :=
  let (d, s) := popDelay s
  { s with net := s.net ++ [⟨m, notBefore s.net m (netDue m s.clock d), held⟩] }

/-- A message from a unit of the core acting to a die's principal, slot 15 of its core (R106, R127, R129).
DEDUCED (log entry 15). -/
def sendPrincipal (type slot : Nat) (body : List Word) (die : Nat) (s : State) : State :=
  sendNet ⟨mkHdr 0 type s.me.num slot (principalCore die) 15 true false, body, 0, 0⟩ false s

/-! ## Byte order -/

/-- Bytes as a number, lowest first. -/
def leNat (bs : List Byte) : Nat := bs.foldr (fun b acc => b.toNat + 256 * acc) 0

/-- The low n bytes of a number, lowest first. -/
def leBytes (n v : Nat) : List Byte := (List.range n).map fun k => BitVec.ofNat 8 (v / 256 ^ k)

/-! ## Flits -/

/-- Bytes 15:0 of a flit, the additional authenticated data: CTR, DPKG, SPKG, TYPE and the reserved bytes (R295). -/
def flitHead (f : Flit) : List Byte :=
  List.replicate 3 0 ++ [f.type] ++ leBytes 2 f.spkg ++ leBytes 2 f.dpkg ++ leBytes 8 f.ctr

/-- The 256 bytes of a flit as they travel (R295). -/
def flitBytes (f : Flit) : List Byte := flitHead f ++ f.cipher ++ leBytes 16 f.tag.toNat

/-- The GCM nonce of a flit: 32 bits of link identity, the port, then CTR (R295). -/
def flitNonce (link : Nat) (f : Flit) : List Byte := leBytes 4 link ++ leBytes 8 f.ctr

/-- The tag of a flit under a link's key (R295). -/
def flitTag (l : Link) (port : Nat) (f : Flit) : BitVec 128 := Config.gcmTag l.key (flitNonce port f) (flitHead f) f.cipher

/-- The flit's tag verifies (R296). -/
def flitVerified (l : Link) (port : Nat) (f : Flit) : Bool := f.tag == flitTag l port f

/-- A flit encrypted and tagged under a link's key, its plaintext the bytes of a draw (R295). -/
def sealed (l : Link) (port draw : Nat) (f : Flit) : Flit :=
  let plain := (List.range 224).map (Config.freeByte draw)
  let f := { f with cipher := (List.range 224).map (Config.gcmByte l.key (flitNonce port f) plain) }
  { f with tag := flitTag l port f }

/-- A flit that the package sends through a port (R295, R296): it stays to be acknowledged, which its delay decides.
DESIGN CHOICE (log entry 59). -/
def sendFlit (port : Nat) (type : BitVec 8) (dpkg : Nat) (barrier : Option Nat) (s : State) : State :=
  let l := spGet startLink s.links port
  let (d, s) := popDelay { s with freeUsed := s.freeUsed + 1 }
  let f := sealed l port (s.freeUsed - 1)
    { ctr := l.next, type := type, dpkg := dpkg, spkg := s.pkg, payload := [], barrier := barrier }
  let l := { l with next := l.next + 1, flits := l.flits + 1, sent := l.sent ++ [⟨f, s.clock, s.clock + d⟩] }
  { s with links := spSet startLink s.links port l }

/-- The port through which a flit to a package leaves. -/
def routeTo (s : State) (pkg : Nat) : Option Nat := (s.ctx.pod.routes.find? fun r => r.1 == pkg).map (·.2)

/-- A flit of a type goes to a package, if the pod configuration gives it a port. -/
def sendTo (pkg : Nat) (type : BitVec 8) (barrier : Option Nat) (s : State) : State :=
  match routeTo s pkg with
  | some port => sendFlit port type pkg barrier s
  | none => s

/-! ## Handles -/

/-- Handle h of the core acting. -/
def hGet (s : State) (h : Nat) : Handle := spGet freeHandle s.me.handles h

/-- A state change of handle h, which wakes the slots parked on it (R272). -/
def hSet (h : Nat) (v : Handle) (s : State) : State :=
  wake (fun w => w == .handle h) { s with me := { s.me with handles := spSet freeHandle s.me.handles h v } }

/-- A change of a handle's counts or ring fields that moves no state and wakes nobody. -/
def hPut (h : Nat) (v : Handle) (s : State) : State :=
  { s with me := { s.me with handles := spSet freeHandle s.me.handles h v } }

/-- The handle moved to FREE (R239). -/
def hFreed (v : Handle) : Handle := { v with st := .free, gen := v.gen + 1, owner := 31, counted := 0, expected := 0 }

/-- Handle h moves to FREE. -/
def hFree (h : Nat) (s : State) : State := hSet h (hFreed (hGet s h)) s

/-- The handle is taken by an engine command or a catch (R239): FILLING, or FULL at once where nothing is expected. -/
def hTaken (owner : Nat) (expected : Nat) (v : Handle) : Handle :=
  { v with st := if expected = 0 then .full else .filling, owner := BitVec.ofNat 5 owner,
           expected := BitVec.ofNat 28 expected, counted := 0 }

/-- Handle h is taken. -/
def hTake (h owner expected : Nat) (s : State) : State := hSet h (hTaken owner expected (hGet s h)) s

/-- n more sectors counted at handle h (R240): FULL when COUNTED reaches EXPECTED, beyond which it goes on rising. -/
def hCount (h n : Nat) (s : State) : State :=
  let v := hGet s h
  let v' := { v with counted := v.counted + BitVec.ofNat 28 n }
  if v.st = .filling ∧ v.counted.toNat < v.expected.toNat ∧ v.expected.toNat ≤ v.counted.toNat + n
  then hSet h { v' with st := .full } s
  else if v.st = .free then s
  else hPut h v' s

/-- A handle reference (R270): generation · 2^16 + number. -/
def hRef (s : State) (h : Nat) : Word := BitVec.ofNat 64 ((hGet s h).gen.toNat * 2 ^ 16 + h)

/-- The handles, of the 64, that slot k owns while FILLING or DRAINING. -/
def hOwned (m : Core) (k : Nat) : List Nat :=
  (List.range 64).filter fun h =>
    let v := spGet freeHandle m.handles h
    (v.st = .filling ∨ v.st = .draining) && v.owner.toNat == k

/-- The slots parked on handle h, marked as woken by its abandonment (R239). DEDUCED (log entry 27). -/
def hSpurn (h : Nat) (s : State) : State :=
  { s with me := { s.me with slots := s.me.slots.map fun e =>
      match e.2.st with
      | .parked (.handle j) => if j = h then (e.1, { e.2 with spurned := some h }) else e
      | _ => e } }

/-- Handle h is abandoned by the slot that owns it (R239). DEDUCED (log entry 27). -/
def hAbandonOne (h : Nat) (s : State) : State :=
  hFree h (if (hGet s h).st = .filling then hSpurn h s else s)

/-- Every handle that slot k owns while FILLING or DRAINING is abandoned (R239). -/
def hAbandon (k : Nat) (s : State) : State := (hOwned s.me k).foldl (fun s h => hAbandonOne h s) s

/-! ## The mailbox -/

/-- Entries neither occupied nor reserved (R95). -/
def freeEntries (m : Core) : Nat := Config.mailboxEntries - m.mbox.length - m.reserved

/-- n more messages discarded (R95). -/
def addDrops (n : Nat) (s : State) : State := { s with me := { s.me with drops := s.me.drops + BitVec.ofNat 16 n } }

/-- The message is addressed to slot k. -/
def isFor (k : Nat) (m : Message) : Bool := hdrDk m.hdr && hdrSlot m.hdr == k

/-- Mailbox entries have come free: senders parked on this core's mailbox wake (R24, R92). -/
def mailboxFreed (s : State) : State :=
  let n := s.me.num
  wakeAll (fun w => w == .mailbox n) s

/-- The entries addressed to slot k are discarded and counted (R84, R95). -/
def dropMail (k : Nat) (s : State) : State :=
  let gone := s.me.mbox.filter (isFor k)
  if gone.isEmpty then s
  else mailboxFreed (addDrops gone.length
    { s with me := { s.me with mbox := s.me.mbox.filter fun m => !isFor k m } })

/-! ## The shading cache, where a thread's end reaches it -/

/-- The PENDING claims of a thread in cluster c become ABSENT and their waiters wake (R203, R205). -/
def dropClaimsIn (thread c : Nat) (s : State) : State :=
  let cl := clusterAt s c
  let mine (w : Option ShadeWay) : Bool := match w with | some x => !x.valid && x.owner == thread | none => false
  let keys := cl.shade.filterMap fun e => match e.2 with | some x => if mine e.2 then some x.key else none | none => none
  if keys.isEmpty then s
  else wakeIn (fun k => clusterOf k == c) (fun w => match w with | .tsWait k => keys.contains k | _ => false)
    (setCluster c { cl with shade := cl.shade.filter fun e => !mine e.2 } s)

/-- The claims of an ending thread: those in its cluster, and in every cluster if it has migrated (R203). -/
def dropClaims (thread : Nat) (migrated : Bool) (s : State) : State :=
  if migrated then s.clusters.foldl (fun s e => dropClaimsIn thread e.1 s) s
  else dropClaimsIn thread (myCluster s) s

/-! ## Ending a thread -/

/-- A change of every command of a core's engines. -/
def mapCoreEngines (f : EngCmd → EngCmd) (m : Core) : Core := { m with mq := m.mq.map f, xq := m.xq.map f }

/-- A change of every command of every engine. -/
def mapEngines (f : EngCmd → EngCmd) (s : State) : State :=
  { s with
    me := mapCoreEngines f s.me
    others := s.others.map fun e => (e.1, e.2.map (mapCoreEngines f))
    clusters := s.clusters.map fun e => (e.1, { e.2 with rq := e.2.rq.map f })
    dies := s.dies.map fun e =>
      (e.1, { e.2 with pq := e.2.pq.map f, cq := e.2.cq.map fun x => { x with cmd := f x.cmd } }) }

/-- The engine operations of slot k of the core acting go on without a thread that waits for them (R84, R250). -/
def disownEngines (k : Nat) (s : State) : State :=
  let core := s.me.num
  let s := mapEngines (fun c => if c.core = core ∧ c.slot = k then { c with live := false } else c) s
  { s with me := { s.me with la := { s.me.la with
      queue := s.me.la.queue.map fun q => if q.slot = k then { q with live := false } else q } } }

/-- The posted stores of slot k go on without a thread that waits for them (R248, R250). -/
def disown (k : Nat) (l : List Posted) : List Posted := l.map fun p => if p.slot = k then { p with live := false } else p

/-- Slot k becomes EMPTY: its window words are freed, its TLB entries go, its mailbox entries are discarded, the
handles it owns are abandoned, its claims in the shading cache drop, its engine operations run on (R84, R95, R205, R236,
R239). -/
def endSlot (k : Nat) (s : State) : State :=
  let c := slotOf s k
  let s := disownEngines k (dropClaims c.thread c.migrated (dropMail k (hAbandon k s)))
  setSlot k (vacated c)
    { s with me := { s.me with
        pool := spClear s.me.pool c.winBase c.winSize
        itlb := s.me.itlb.filter fun e => e.slot != k
        dtlb := s.me.dtlb.filter fun e => e.slot != k
        posted := disown k s.me.posted } }

/-- A blocking store of the thread of slot k to host memory is not complete (R248). -/
def hasPosted (s : State) (k : Nat) : Bool := s.me.posted.any fun p => p.live && p.blocking && p.slot == k

/-- What the thread publishes with a SEND, a barrier arrival, a TSFILL or an HGIVE goes out once its blocking accesses are complete
(R98, R253, R273): until then the pair waits without effect, and issues again. DEDUCED (log entry 12). -/
def publish (s : State) (k : State → Out State) : Out State := if hasPosted s s.iss.slot then waitFor .posted s else k s

/-- Slot k, if it waits for the thread's blocking stores to host memory, once they are complete. -/
def postedWake (k : Nat) (s : State) : State :=
  if (slotOf s k).st = .waiting .posted ∧ hasPosted s k = false then setSlot k (wakeSlot s.clock (slotOf s k)) s else s

/-- A relaxed access of slot k is outstanding (R249). -/
def hasRelaxed (s : State) (k : Nat) : Bool := s.me.relaxed.any fun a => a.slot == k

/-- A training command that the thread of slot k has pushed is outstanding (R381). -/
def hasTraining (s : State) (k : Nat) : Bool := s.me.la.queue.any fun q => q.record.isNone && q.live && q.slot == k

/-- What a FAULT message carries (R127). -/
def faultBody (s : State) (k : Nat) (c : Slot) : List Word :=
  [BitVec.ofNat 64 c.thread, BitVec.ofNat 64 (c.tpc.toNat * 8), c.tpair.setWidth 64, c.tcause.setWidth 64, c.tval,
   BitVec.ofNat 64 (s.me.num * 16 + k), 0]

/-- The thread of slot k ends after a trap with TVEC = 0, and its FAULT goes to the principal (R127). -/
def endFault (k : Nat) (s : State) : State :=
  let c := slotOf s k
  sendPrincipal 0xF1 k (faultBody s k c) (myDie s) (endSlot k s)

/-! ## Taking a trap, and the return from one -/

/-- The registers that a trap sets (R124). -/
def trapRegs (i : Issue) (cause : BitVec 5) (tval : Word) (c : Slot) : Slot :=
  { c with tpc := BitVec.ofNat 54 (i.pa / 8), tpair := BitVec.ofNat 1 i.word, tcause := cause, tval := tval,
           st := .runnable, partner := none, pend := [], spurned := none, started := none, landed := false }

/-- TAKING A TRAP (R124): TPC, TPAIR, TCAUSE and TVAL, then the thread stands at word 0 of the pair at TVEC; with
TVEC = 0 it ends and is reported, once its relaxed accesses are complete (R127). -/
def takeTrap (cause : BitVec 5) (tval : Word) (s : State) : State :=
  let s := setRes .trapped (onCur (trapRegs s.iss cause tval) s)
  if (cur s).tvec = 0 then
    if hasRelaxed s s.iss.slot then onCur (fun c => { c with st := .waiting .endingFault }) s
    else endFault s.iss.slot s
  else onCur (fun c => { c with pa := c.tvec.toNat * 8, widx := 0 }) s

/-- A trap, in an outcome. -/
def trap (cause : BitVec 5) (tval : Word) (s : State) : Out State := .next (takeTrap cause tval s)

/-- THE RETURN FROM A TRAP (R87): the thread goes to the pair at TPC, at the word that TPAIR names. The fetch of that
pair reads its P: a parallel pair issues whole, whatever TPAIR holds. -/
def returnFrom (s : State) : State :=
  setRes .retired (onCur (fun c => { c with pa := c.tpc.toNat * 8, widx := c.tpair.toNat, landed := true }) s)

/-! ## The checks before a word's own effect -/

/-- The pattern of a word as it stands in memory, bit 31 with it (R34, R36). -/
def patternOf (i : Instr) (s : State) : Word :=
  let p : BitVec 32 := if s.iss.bit31 then 0x80000000 else 0
  ((encode i).getD 0 ||| p).setWidth 64

/-- The window registers that relaxed loads of the slot have yet to write (R25). -/
def pendingRegs (s : State) : List Nat := (s.me.relaxed.filter fun a => a.slot == s.iss.slot).flatMap (·.regs)

/-- The awaited registers that a word names (R25). DEDUCED (log entry 42). -/
def awaited (s : State) (u : Uses) : List Nat := (namedRegs s u).filter fun k => (pendingRegs s).contains k

/-- The first poisoned mark that a word reports: one on a register it names, or any if the word reports every mark
(R128, R250). DEDUCED (log entry 13). -/
def poisonMark (s : State) (u : Uses) (reports : Bool) : Option PoisonMark :=
  (cur s).poisoned.find? fun p => reports || p.regs.any fun k => (namedRegs s u).contains k

/-- The trap that reports a poisoned relaxed load and clears its mark (R128). -/
def trapPoison (p : PoisonMark) (s : State) : Out State :=
  trap cPoison (BitVec.ofNat 64 p.va) (onCur (fun c => { c with poisoned := c.poisoned.erase p }) s)

/-- What comes before a word's own effect: the wait of R25, register bounds (order 5), privilege (order 7; `priv` is
the word's pattern if it needs privilege), and the POISON check that opens order 8 (R48, R128). Then `k`.
DEDUCED (log entry 42). -/
def enterWith (u : Uses) (priv : Option Word) (reports : Bool) (s : State) (k : State → Out State) : Out State :=
  if awaited s u ≠ [] then waitFor (.regs (awaited s u)) s
  else
    match boundsFault s u.names with
    | some v => trap cRegBounds v s
    | none =>
      match (if (cur s).prv then none else priv) with
      | some w => trap cPriv w s
      | none =>
        match poisonMark s u reports with
        | some p => trapPoison p s
        | none => k s

/-- The entry of a word that needs no privilege. -/
def enter (u : Uses) (s : State) (k : State → Out State) : Out State := enterWith u none false s k

/-- The entry of END, the fences and WAITRX, which report any poisoned relaxed load of the slot (R128, R250).
DEDUCED (log entry 13). -/
def enterReporting (u : Uses) (s : State) (k : State → Out State) : Out State := enterWith u none true s k

/-! ## Holds (R26) -/

/-- How many of the sixteen table entries from position `p` on, `n` of them, name slot k with V = 1. -/
def namesSlot (e : BitVec 16) (k : Nat) : Bool := e.toNat / 2 ^ 15 == 1 && e.toNat % 16 == k

/-- The cycle of the h-th entry naming slot k after the cycle at position `pos` (R26): the offset, or 0 if the table
does not name the slot. Sixteen cycles of the table are one turn for each entry that names the slot. -/
def holdOffset (rot : List (BitVec 16)) (pos k h : Nat) : Nat :=
  let hits := (List.range 16).filter fun j => namesSlot ((rot[(pos + 1 + j) % 16]?).getD 0) k
  match hits.length with
  | 0 => 0
  | n => 16 * ((h - 1) / n) + ((hits[(h - 1) % n]?).getD 0) + 1

/-- The cycle at whose start a hold of h turns ends, for an issue in the present cycle of the core: fixed from the
table and the policy in force in it (R26). -/
def holdStop (s : State) (h : Nat) : Nat :=
  if s.me.rotPol = 1 then s.clock + 8 * h else s.clock + holdOffset s.me.rot (posOf s.clock s.me) s.iss.slot h + 1

/-- A long operation: the word leaves its place in the program, the slot is HELD for h turns, and the register words
`ws` are written when the hold ends (R26). -/
def hold (h : Nat) (ws : List (Nat × Word)) (s : State) : Out State :=
  .next (setRes .held (onCur (fun c => { c with st := .held (holdStop s h), pend := ws }) (advance s)))

/-- The window-register writes of gd := v. -/
def pendG (d : BitVec 7) (v : Word) : List (Nat × Word) := [(d.toNat, v)]

/-- The window-register writes of vd := ws. -/
def pendV (d : BitVec 4) (ws : List Word) : List (Nat × Word) := ws.mapIdx fun k w => (8 * d.toNat + k, w)

end Sys2Proof.Machine
end

