-- ==== Sys2Proof/Machine/Barriers.lean ====
section
/-!
DEFINITION. Barriers: BAR, BARA, BARW and BARI (R96 to R98), and the wake of a completed phase (R121).
-/

namespace Sys2Proof.Machine

/-- The number of the barrier unit that a core reaches in a scope: its own, its quad's, its cluster's, its die's, the
package's, the pod's (R96). -/
def barCell (scope core : Nat) : Nat :=
  match scope with
  | 0 => core
  | 1 => core / 4
  | 2 => clusterOf core
  | 3 => dieOf core
  | _ => 0

/-- The barrier that a thread of the core acting reaches (R96). -/
def barGet (s : State) (scope id : Nat) : Barrier :=
  match scope with
  | 0 => spGet zeroBarrier s.me.bars id
  | 1 => spGet zeroBarrier (clusterAt s (myCluster s)).quadBars (32 * (s.me.num / 4 % 24) + id)
  | 2 => spGet zeroBarrier (clusterAt s (myCluster s)).bars id
  | 3 => spGet zeroBarrier (dieAt s (myDie s)).bars id
  | 4 => spGet zeroBarrier s.pkgBars id
  | _ => spGet zeroBarrier s.podBars id

/-- The barrier that a thread of the core acting reaches, set. -/
def barSet (scope id : Nat) (v : Barrier) (s : State) : State :=
  match scope with
  | 0 => { s with me := { s.me with bars := spSet zeroBarrier s.me.bars id v } }
  | 1 =>
    let cl := clusterAt s (myCluster s)
    setCluster (myCluster s)
      { cl with quadBars := spSet zeroBarrier cl.quadBars (32 * (s.me.num / 4 % 24) + id) v } s
  | 2 =>
    let cl := clusterAt s (myCluster s)
    setCluster (myCluster s) { cl with bars := spSet zeroBarrier cl.bars id v } s
  | 3 =>
    let d := dieAt s (myDie s)
    setDie (myDie s) { d with bars := spSet zeroBarrier d.bars id v } s
  | 4 => { s with pkgBars := spSet zeroBarrier s.pkgBars id v }
  | _ => { s with podBars := spSet zeroBarrier s.podBars id v }

/-- The largest N of a scope (R96). -/
def barMax (s : State) (scope : Nat) : Nat :=
  match scope with
  | 0 => 16
  | 1 => 64
  | 2 => 1536
  | 3 => 6144
  | 4 => 49152
  | _ => 49152 * s.ctx.packages

/-- The bound on a wake in a scope, in cycles (R121). DESIGN CHOICE (log entry 24). -/
def barBound (scope : Nat) : Nat :=
  match scope with
  | 0 => 8
  | 1 => 16
  | 2 => 48
  | 3 => 160
  | 4 => 600
  | _ => 12000

/-- A phase has completed: its wake goes out, within the bound of R121. DESIGN CHOICE (log entry 24). -/
def barComplete (scope id : Nat) (phase : BitVec 16) (s : State) : State :=
  let (d, s) := popDelay s
  let due := s.clock + 1 + Nat.min d (barBound scope - 2)
  { s with wakes := s.wakes ++ [⟨scope, barCell scope s.me.num, id, phase, due⟩] }

/-- The phase that an arrival in cycle `now` joins: the phase at the cycle's start, which the arrivals of one cycle share
(R98). -/
def joinedPhase (now : Nat) (v : Barrier) : BitVec 16 := if v.cycle = now then v.start else v.phase

/-- The barrier after an arrival in cycle `now` (R97): it completes the phase, or is counted. -/
def arrived (now : Nat) (v : Barrier) : Barrier :=
  let v := { v with start := joinedPhase now v, cycle := now }
  if v.count + 1 = v.n then { v with phase := v.phase + 1, count := 0 } else { v with count := v.count + 1 }

/-- An arrival counted at an initialised barrier (R97), which may complete its phase. -/
def countArrival (scope id : Nat) (s : State) : State :=
  let v := barGet s scope id
  let t := barSet scope id (arrived s.clock v) s
  if v.count + 1 = v.n then barComplete scope id v.phase t else t

/-- A pod arrival is told to every other package of the partition, in flits of TYPE 1 (R96, R295).
DESIGN CHOICE (log entry 59). -/
def tellPod (id : Nat) (s : State) : State :=
  (s.ctx.pod.routes.filter fun r => r.1 != s.pkg).foldl (fun s r => sendFlit r.2 1 r.1 (some id) s) s

/-- An arrival at an initialised barrier (R97, R98): the phase joined, whether that phase is complete by now, and the state.
DEDUCED (log entry 26). -/
def arriveBar (scope id : Nat) (s : State) : BitVec 16 × Bool × State :=
  let joined := joinedPhase s.clock (barGet s scope id)
  let t := countArrival scope id s
  (joined, (arrived s.clock (barGet s scope id)).phase != joined, if scope = 5 then tellPod id t else t)

/-- BAR (R97, R98): the word retires, and the thread's next word waits until the joined phase completes. -/
def execBar (d : BitVec 7) (scope : BitVec 3) (id : BitVec 7) (s : State) : Out State :=
  enter ⟨[.g d], [.g d]⟩ s fun s =>
    if (barGet s scope.toNat id.toNat).n = 0 then trap cSchedule (id.setWidth 64) s
    else publish s fun s =>
      let (ph, full, s) := arriveBar scope.toNat id.toNat s
      let s := advance (wr d (ph.setWidth 64) s)
      if full then .next s
      else
        let w := ParkWhy.bar scope.toNat (barCell scope.toNat s.me.num) id.toNat ph false
        .next (onCur (fun c => { c with st := .parked w }) s)

/-- BARA (R97). -/
def execBara (d : BitVec 7) (scope : BitVec 3) (id : BitVec 7) (s : State) : Out State :=
  enter ⟨[.g d], [.g d]⟩ s fun s =>
    if (barGet s scope.toNat id.toNat).n = 0 then trap cSchedule (id.setWidth 64) s
    else publish s fun s =>
      let (ph, _, s) := arriveBar scope.toNat id.toNat s
      retireWr d (ph.setWidth 64) s

/-- BARW (R97). -/
def execBarw (d : BitVec 7) (scope : BitVec 3) (id : BitVec 7) (s : State) : Out State :=
  enter ⟨[.g d], []⟩ s fun s =>
    if (barGet s scope.toNat id.toNat).phase = (rd s d).setWidth 16
    then park (.barw scope.toNat (barCell scope.toNat s.me.num) id.toNat) s
    else retire s

/-- A thread of the package waits after its own BAR arrival at the barrier (R97). DEDUCED (log entry 26). -/
def barWaited (s : State) (scope cell id : Nat) : Bool :=
  let waits (m : Core) : Bool := m.slots.any fun e => match e.2.st with
    | .parked (.bar sc ce i _ _) => sc == scope && ce == cell && i == id
    | _ => false
  waits s.me || s.others.any fun e => match e.2 with | some m => waits m | none => false

/-- BARI (R97). DEDUCED (log entry 26). -/
def execBari (d : BitVec 7) (scope : BitVec 3) (id : BitVec 7) (s : State) : Out State :=
  let p := patternOf (.bari d scope id) s
  enterWith ⟨[.g d], []⟩ (if scope = 4 ∨ scope = 5 then some p else none) false s fun s =>
    let n := (rd s d).toNat % 2 ^ 32
    let v := barGet s scope.toNat id.toNat
    if n = 0 ∨ barMax s scope.toNat < n then trap cIllegal (rd s d) s
    else if v.count ≠ 0 ∨ barWaited s scope.toNat (barCell scope.toNat s.me.num) id.toNat
    then trap cSchedule (id.setWidth 64) s
    else retire (barSet scope.toNat id.toNat { v with n := n, count := 0 } s)

/-- A core whose part of the context is stopping keeps its wait after BAR: the wake is discarded, and the wait is saved
(R133, R138, R141). -/
def barWakeCore (now : Nat) (p : ParkWhy → Bool) (m : Core) : Core := if m.stopped then m else wakeCore now p m

/-- A parked slot is woken by the wake of a completed phase (R97, R98, R138). -/
def barWakes (scope cell id : Nat) (phase : BitVec 16) (w : ParkWhy) : Bool :=
  match w with
  | .bar sc ce i ph low8 =>
    sc == scope && ce == cell && i == id && (if low8 then ph.setWidth 8 == phase.setWidth 8 else ph == phase)
  | .barw sc ce i => sc == scope && ce == cell && i == id
  | _ => false

/-- BARRIER_WAKE (R121): the wake of a completed phase reaches its waiters; from the cycle of a pre-emption request on it is discarded
(R133, R141). -/
def execBarrierWake (scope inst id : Nat) (phase : BitVec 16) (s : State) : Out State :=
  match s.wakes.find? fun w => w.scope == scope && w.cell == inst && w.id == id && w.phase == phase &&
      decide (w.due ≤ s.clock) with
  | some w =>
    let f := if s.switch = .resident then barWakeCore s.clock (barWakes scope inst id phase) else fun m => m
    .next { s with wakes := s.wakes.erase w, me := f s.me, others := s.others.map fun e => (e.1, e.2.map f) }
  | none => .refused (.notDue "BARRIER_WAKE")

end Sys2Proof.Machine
end

