-- ==== Sys2Proof/Machine/Flags.lean ====
section
/-!
DEFINITION. The core keeps no condition flags (R30): a comparison writes 1 or 0 into a register, and a branch compares
registers. The comparisons of R62, R67, R79 and R80, and the bit functions of R63, R65 and R66, once each.
-/

namespace Sys2Proof.Machine

/-- 1 if the condition holds, else 0. -/
def flag (c : Bool) : Word := if c then 1 else 0

/-- s(a) < s(b) -/
def ltS (a b : Word) : Bool := decide (a.toInt < b.toInt)
/-- u(a) < u(b) -/
def ltU (a b : Word) : Bool := decide (a.toNat < b.toNat)

/-- Bit k of a word, as a number. -/
def bitN (a : Word) (k : Nat) : Nat := a.toNat / 2 ^ k % 2

/-- The sum of 2^(f k) over the k below n with a set bit: bits moved about. -/
def scatterBits (n : Nat) (src : Nat → Nat) (dst : Nat → Nat) : Nat :=
  (List.range n).foldl (fun acc k => acc + src k * 2 ^ dst k) 0

/-- Leading zero bits; 64 for 0 (R63). -/
def clzW (a : Word) : Nat := if a = 0 then 64 else 63 - Nat.log2 a.toNat

/-- Trailing zero bits counted from bit k, for at most n bits. -/
def ctzFrom (a : Word) : Nat → Nat → Nat
  | 0, k => k
  | n + 1, k => if bitN a k = 1 then k else ctzFrom a n (k + 1)

/-- Trailing zero bits; 64 for 0 (R63). -/
def ctzW (a : Word) : Nat := ctzFrom a 64 0

/-- One bits (R63). -/
def popcW (a : Word) : Nat := (List.range 64).foldl (fun acc k => acc + bitN a k) 0

/-- Bit i moved to bit 63 - i (R63). -/
def brevW (a : Word) : Word := BitVec.ofNat 64 (scatterBits 64 (bitN a) (63 - ·))

/-- Byte j moved to byte 7 - j (R66). -/
def bswapW (a : Word) : Word :=
  BitVec.ofNat 64 ((List.range 8).foldl (fun acc j => acc + a.toNat / 2 ^ (8 * j) % 256 * 2 ^ (8 * (7 - j))) 0)

/-- ILV2 (R65). -/
def ilv2W (a b : Word) : Word :=
  BitVec.ofNat 64 (scatterBits 32 (bitN a) (2 * ·) + scatterBits 32 (bitN b) (2 * · + 1))

/-- ILV3 (R65). -/
def ilv3W (a b d : Word) : Word :=
  BitVec.ofNat 64 (scatterBits 21 (bitN a) (3 * ·) + scatterBits 21 (bitN b) (3 * · + 1) +
    scatterBits 21 (bitN d) (3 * · + 2))

/-- DILV2 (R65): coordinate c = b<0>. -/
def dilv2W (a b : Word) : Word := BitVec.ofNat 64 (scatterBits 32 (fun i => bitN a (2 * i + b.toNat % 2)) id)

/-- DILV3 (R65): coordinate c = b<1:0>; 0 for c = 3. -/
def dilv3W (a b : Word) : Word :=
  if b.toNat % 4 = 3 then 0 else BitVec.ofNat 64 (scatterBits 21 (fun i => bitN a (3 * i + b.toNat % 4)) id)

/-- pos of R66. -/
def fieldPos (b : Word) : Nat := b.toNat % 64
/-- len of R66. -/
def fieldLen (b : Word) : Nat := Nat.min (b.toNat / 2 ^ 8 % 128) 64

/-- EXTR (R66). -/
def extrW (a b : Word) : Word := BitVec.ofNat 64 (a.toNat / 2 ^ fieldPos b % 2 ^ fieldLen b)

/-- DEPO (R66). -/
def depoW (a b d : Word) : Word :=
  let m := BitVec.ofNat 64 ((2 ^ fieldLen b - 1) * 2 ^ fieldPos b)
  (d &&& ~~~m) ||| ((a <<< fieldPos b) &&& m)

/-- DIV (R63, R64). -/
def divW (a b : Word) : Word := if b = 0 then BitVec.allOnes 64 else BitVec.ofInt 64 (a.toInt.tdiv b.toInt)
/-- REM (R63, R64). -/
def remW (a b : Word) : Word := if b = 0 then a else BitVec.ofInt 64 (a.toInt.tmod b.toInt)
/-- DIVU (R63, R64). -/
def divuW (a b : Word) : Word := if b = 0 then BitVec.allOnes 64 else BitVec.ofNat 64 (a.toNat / b.toNat)
/-- REMU (R63, R64). -/
def remuW (a b : Word) : Word := if b = 0 then a else BitVec.ofNat 64 (a.toNat % b.toNat)

/-- The address field of a pointer, a<56:0> (R218). -/
def addrOf (a : Word) : Nat := a.toNat % 2 ^ 57

/-- The tag of a pointer, a<63:57>, in its place. -/
def tagOf (a : Word) : Nat := a.toNat / 2 ^ 57 * 2 ^ 57

/-- An address sum that leaves 0 to 2^57 - 1 (R233 step 1). -/
def outside (t : Int) : Bool := decide (t < 0) || decide (2 ^ 57 ≤ t)

/-- ADDP and ADDPI (R70): the address field moves by `off`, the tag stays. -/
def addPtr (d : BitVec 7) (p : Word) (off : Int) (s : State) : Out State :=
  let sum : Int := addrOf p + off
  if outside sum then trap cAddrOvf (BitVec.ofInt 64 sum) s
  else retireWr d (BitVec.ofNat 64 (tagOf p + sum.toNat)) s

/-- A branch (R44, R79, R80): to PA + 8 disp if taken, else on. -/
def branch (taken : Bool) (disp : Int) (s : State) : Out State :=
  if taken then .next (goTo (((s.iss.pa : Int) + 8 * disp) % 2 ^ 57).toNat s) else retire s

end Sys2Proof.Machine
end

