-- ==== Sys2Proof/Machine/Float.lean ====
section
/-!
DEFINITION. Exact arithmetic on the floating formats of R319, and the rounding modes of R334 and R335. A value is a
sign, a natural significand and an exponent, so sums, products and fused products are exact; a quotient or a root
carries one sticky bit below more bits than any format holds. Only `roundTo` and `roundInt` lose anything.
-/

namespace Sys2Proof.Machine

/-- An exact value: `fin neg m e` is (-1)^neg * m * 2^e, and zero keeps its sign. -/
inductive Num where
  | nan
  | inf (neg : Bool)
  | fin (neg : Bool) (m : Nat) (e : Int)
  deriving DecidableEq, Repr

/-- A floating format: exponent width and fraction width (R319). -/
structure Fmt where
  ew : Nat
  fw : Nat
  deriving DecidableEq, Repr

/-- binary64 -/
def fmtD : Fmt := ⟨11, 52⟩
/-- binary32 -/
def fmtS : Fmt := ⟨8, 23⟩
/-- binary16 -/
def fmtH : Fmt := ⟨5, 10⟩
/-- bfloat16 -/
def fmtBh : Fmt := ⟨8, 7⟩
/-- E8M10 -/
def fmtE : Fmt := ⟨8, 10⟩

/-- The exponent bias: 2^(ew-1) - 1. -/
def Fmt.bias (f : Fmt) : Nat := 2 ^ (f.ew - 1) - 1
/-- The sign bit's weight. -/
def Fmt.signBit (f : Fmt) : Nat := 2 ^ (f.ew + f.fw)
/-- The pattern of +Inf. -/
def Fmt.infPat (f : Fmt) : Nat := (2 ^ f.ew - 1) * 2 ^ f.fw
/-- The canonical quiet NaN (R319). -/
def Fmt.nanPat (f : Fmt) : Nat := f.infPat + 2 ^ (f.fw - 1)

/-- The rounding modes of R334; DITHER carries its threshold D[i][j]. -/
inductive Rnd where
  | rne | rz | ru | rd
  | dither (d : Nat)
  deriving DecidableEq, Repr

/-- The threshold matrix of R335. -/
def ditherD (row col : Nat) : Nat :=
  let i := row % 16
  let c := (i ^^^ (col % 16))
  128 * (c % 2) + 64 * (i % 2) + 32 * (c / 2 % 2) + 16 * (i / 2 % 2) + 8 * (c / 4 % 2) + 4 * (i / 4 % 2) +
    2 * (c / 8) + i / 8

/-- The mode a selector names (R334), with the DITHER position. -/
def rndOf (sel row col : Nat) : Rnd :=
  match sel with
  | 0 => .rne
  | 1 => .rz
  | 2 => .ru
  | 3 => .rd
  | _ => .dither (ditherD row col)

/-- The value of a pattern (R319); bits above the format are ignored. -/
def unpack (f : Fmt) (x : Nat) : Num :=
  let neg := x / f.signBit % 2 == 1
  let ex := x / 2 ^ f.fw % 2 ^ f.ew
  let fr := x % 2 ^ f.fw
  if ex = 2 ^ f.ew - 1 then (if fr = 0 then .inf neg else .nan)
  else if ex = 0 then .fin neg fr (1 - (f.bias : Int) - f.fw)
  else .fin neg (2 ^ f.fw + fr) ((ex : Int) - f.bias - f.fw)

/-- The exponent of the leading bit of a nonzero value: the floor of log2. -/
def lead (m : Nat) (e : Int) : Int := (Nat.log2 m : Int) + e

/-- Whether magnitude `n + rem/2^sh` (ulps) rounds up to `n + 1`, for a value of sign `neg` (R334, R335). -/
def roundsUp (r : Rnd) (neg : Bool) (n rem sh : Nat) : Bool :=
  if rem = 0 then false
  else
    match r with
    | .rne => decide (2 * rem > 2 ^ sh) || (decide (2 * rem = 2 ^ sh) && n % 2 == 1)
    | .rz => false
    | .ru => !neg
    | .rd => neg
    | .dither d =>
      if neg then !decide (256 * (2 ^ sh - rem) / 2 ^ sh > d) else decide (256 * rem / 2 ^ sh > d)

/-- m * 2^e in units of 2^u: the whole units, what is left, and the shift. -/
def inUnits (m : Nat) (e u : Int) : Nat × Nat × Nat :=
  if u ≤ e then (m * 2 ^ (e - u).toNat, 0, 0)
  else
    let sh := (u - e).toNat
    (m / 2 ^ sh, m % 2 ^ sh, sh)

/-- The magnitude pattern of a nonzero magnitude, before overflow is looked at: the pattern rounded towards zero, the
pattern rounded, and whether the truncated pattern is exact. -/
def roundMag (f : Fmt) (r : Rnd) (neg : Bool) (m : Nat) (e : Int) : Nat × Nat × Bool :=
  let l := lead m e
  let l' := if l < 1 - (f.bias : Int) then 1 - (f.bias : Int) else l
  let (n, rem, sh) := inUnits m e (l' - f.fw)
  let pat (k : Nat) : Nat := if k < 2 ^ f.fw then k else (l' + f.bias).toNat * 2 ^ f.fw + k - 2 ^ f.fw
  (pat n, pat (if roundsUp r neg n rem sh then n + 1 else n), rem == 0)

/-- The pattern of a magnitude that exceeds the largest finite value after rounding (R78). -/
def overflowPat (f : Fmt) (r : Rnd) (neg : Bool) : Nat :=
  match r with
  | .rz => f.infPat - 1
  | .ru => if neg then f.infPat - 1 else f.infPat
  | .rd => if neg then f.infPat else f.infPat - 1
  | _ => f.infPat

/-- An exact value rounded into a format (R77, R78, R334, R335). -/
def roundTo (f : Fmt) (r : Rnd) (x : Num) : Nat :=
  match x with
  | .nan => f.nanPat
  | .inf neg => (if neg then f.signBit else 0) + f.infPat
  | .fin neg m e =>
    let sg := if neg then f.signBit else 0
    if m = 0 then sg
    else
      let (t, p, exact) := roundMag f r neg m e
      let beyond := decide (t ≥ f.infPat) || (decide (t = f.infPat - 1) && !exact)
      let p := match r with
        | .dither _ => if beyond then (roundMag f .rne neg m e).2.1 else p
        | _ => p
      sg + (if p ≥ f.infPat then overflowPat f r neg else p)

/-- An exact value rounded to an integer (R77); NaN gives 0 (R78). -/
def roundInt (r : Rnd) (neg : Bool) (m : Nat) (e : Int) : Int :=
  let (n, rem, sh) := inUnits m e 0
  let k : Nat := if roundsUp r neg n rem sh then n + 1 else n
  if neg then -(k : Int) else k

/-- A value converted to an integer between `lo` and `hi`, saturating (R78). -/
def toIntSat (r : Rnd) (lo hi : Int) (x : Num) : Int :=
  match x with
  | .nan => 0
  | .inf neg => if neg then lo else hi
  | .fin neg m e =>
    let k := roundInt r neg m e
    if k < lo then lo else if hi < k then hi else k

/-- An integer as an exact value. -/
def numOfInt (k : Int) : Num := .fin (decide (k < 0)) k.natAbs 0

/-- A finite value as a signed multiple of 2^e0, for e0 at most its exponent. -/
def alignTo (e0 : Int) (neg : Bool) (m : Nat) (e : Int) : Int :=
  let k : Int := (m * 2 ^ (e - e0).toNat : Nat)
  if neg then -k else k

/-- The exact sum; a sum of zero is +0 unless both operands are negative zeros. -/
def addN (x y : Num) : Num :=
  match x, y with
  | .nan, _ => .nan
  | _, .nan => .nan
  | .inf a, .inf b => if a = b then .inf a else .nan
  | .inf a, _ => .inf a
  | _, .inf b => .inf b
  | .fin a m e, .fin b n k =>
    let e0 := if e ≤ k then e else k
    let t := alignTo e0 a m e + alignTo e0 b n k
    if t = 0 then .fin (a && b) 0 e0 else .fin (decide (t < 0)) t.natAbs e0

/-- The value with its sign inverted. -/
def negN (x : Num) : Num :=
  match x with
  | .nan => .nan
  | .inf a => .inf (!a)
  | .fin a m e => .fin (!a) m e

/-- The exact product. -/
def mulN (x y : Num) : Num :=
  match x, y with
  | .nan, _ => .nan
  | _, .nan => .nan
  | .inf a, .inf b => .inf (a != b)
  | .inf a, .fin b n _ => if n = 0 then .nan else .inf (a != b)
  | .fin a m _, .inf b => if m = 0 then .nan else .inf (a != b)
  | .fin a m e, .fin b n k => .fin (a != b) (m * n) (e + k)

/-- The quotient, to more than 120 bits with a sticky bit below (R74: rounded once). -/
def divN (x y : Num) : Num :=
  match x, y with
  | .nan, _ => .nan
  | _, .nan => .nan
  | .inf _, .inf _ => .nan
  | .inf a, .fin b _ _ => .inf (a != b)
  | .fin a _ _, .inf b => .fin (a != b) 0 0
  | .fin a m e, .fin b n k =>
    if n = 0 then (if m = 0 then .nan else .inf (a != b))
    else
      let sh := 128 + Nat.log2 n
      let q := m * 2 ^ sh / n
      let st := if m * 2 ^ sh % n = 0 then 0 else 1
      .fin (a != b) (2 * q + st) (e - k - sh - 1)

/-- The integer square root, bit by bit from bit `i - 1` down. -/
def isqrtBits (n : Nat) : Nat → Nat → Nat
  | 0, r => r
  | i + 1, r =>
    let t := r + 2 ^ i
    isqrtBits n i (if t * t ≤ n then t else r)

/-- The floor of the square root. -/
def isqrt (n : Nat) : Nat := isqrtBits n (Nat.log2 n / 2 + 1) 0

/-- The square root, to more than 64 bits with a sticky bit below (R74). -/
def sqrtN (x : Num) : Num :=
  match x with
  | .nan => .nan
  | .inf a => if a then .nan else .inf false
  | .fin a m e =>
    if m = 0 then .fin a 0 0
    else if a then .nan
    else
      let sh : Nat := if e % 2 = 0 then 140 else 141
      let n := m * 2 ^ sh
      let r := isqrt n
      let st := if r * r = n then 0 else 1
      .fin false (2 * r + st) ((e - (sh : Int)) / 2 - 1)

/-- x < y; false when either is NaN. Zeros compare equal. -/
def ltN (x y : Num) : Bool :=
  match x, y with
  | .nan, _ => false
  | _, .nan => false
  | .inf a, .inf b => a && !b
  | .inf a, .fin _ _ _ => a
  | .fin _ _ _, .inf b => !b
  | .fin a m e, .fin b n k =>
    let e0 := if e ≤ k then e else k
    decide (alignTo e0 a m e < alignTo e0 b n k)

/-- x = y; false when either is NaN. -/
def eqN (x y : Num) : Bool :=
  match x, y with
  | .nan, _ => false
  | _, .nan => false
  | .inf a, .inf b => a == b
  | .inf _, .fin _ _ _ => false
  | .fin _ _ _, .inf _ => false
  | .fin a m e, .fin b n k =>
    let e0 := if e ≤ k then e else k
    decide (alignTo e0 a m e = alignTo e0 b n k)

/-- x ≤ y; false when either is NaN. -/
def leN (x y : Num) : Bool := ltN x y || eqN x y

/-- The value is NaN. -/
def isNan (x : Num) : Bool := match x with | .nan => true | _ => false

/-- The value is finite. -/
def isFin (x : Num) : Bool := match x with | .fin _ _ _ => true | _ => false

/-- The magnitude. -/
def absN (x : Num) : Num :=
  match x with
  | .nan => .nan
  | .inf _ => .inf false
  | .fin _ m e => .fin false m e

/-- The value times 2^k. -/
def scaleN (x : Num) (k : Int) : Num :=
  match x with
  | .fin a m e => .fin a m (e + k)
  | y => y

/-! ## The scalar operations on patterns (R73, R74) -/

/-- a + b -/
def fAdd (f : Fmt) (a b : Nat) : Nat := roundTo f .rne (addN (unpack f a) (unpack f b))
/-- a - b -/
def fSub (f : Fmt) (a b : Nat) : Nat := roundTo f .rne (addN (unpack f a) (negN (unpack f b)))
/-- a * b -/
def fMul (f : Fmt) (a b : Nat) : Nat := roundTo f .rne (mulN (unpack f a) (unpack f b))
/-- a / b -/
def fDiv (f : Fmt) (a b : Nat) : Nat := roundTo f .rne (divN (unpack f a) (unpack f b))
/-- the square root of a -/
def fSqrt (f : Fmt) (a : Nat) : Nat := roundTo f .rne (sqrtN (unpack f a))
/-- a * b + d, rounded once -/
def fFma (f : Fmt) (a b d : Nat) : Nat := roundTo f .rne (addN (mulN (unpack f a) (unpack f b)) (unpack f d))

/-- The sign bit of a pattern. -/
def fNeg? (f : Fmt) (a : Nat) : Bool := a / f.signBit % 2 == 1

/-- A pattern cut to the format's width. -/
def fCut (f : Fmt) (a : Nat) : Nat := a % (2 * f.signBit)

/-- a is below b with -0 below +0; neither is NaN. -/
def fBelow (f : Fmt) (a b : Nat) : Bool :=
  ltN (unpack f a) (unpack f b) || (eqN (unpack f a) (unpack f b) && fNeg? f a && !fNeg? f b)

/-- The smaller operand (R74): -0 is below +0, a NaN operand yields the other, two NaNs the canonical NaN. -/
def fMin (f : Fmt) (a b : Nat) : Nat :=
  if isNan (unpack f a) then (if isNan (unpack f b) then f.nanPat else fCut f b)
  else if isNan (unpack f b) then fCut f a
  else if fBelow f b a then fCut f b else fCut f a

/-- The larger operand (R74). -/
def fMax (f : Fmt) (a b : Nat) : Nat :=
  if isNan (unpack f a) then (if isNan (unpack f b) then f.nanPat else fCut f b)
  else if isNan (unpack f b) then fCut f a
  else if fBelow f a b then fCut f b else fCut f a

/-- a with its sign bit replaced (R74). -/
def fSetSign (f : Fmt) (a : Nat) (neg : Bool) : Nat := a % f.signBit + (if neg then f.signBit else 0)

/-- KIND of R75. -/
def fKind (f : Fmt) (a : Nat) : Nat :=
  let ex := a / 2 ^ f.fw % 2 ^ f.ew
  let fr := a % 2 ^ f.fw
  if ex = 2 ^ f.ew - 1 then (if fr = 0 then 3 else if fr / 2 ^ (f.fw - 1) = 1 then 4 else 5)
  else if ex = 0 then (if fr = 0 then 0 else 1)
  else 2

/-- The class word of R75. -/
def fClass (f : Fmt) (a : Nat) : Nat :=
  let ex : Nat :=
    match unpack f a with
    | .fin _ m e => if m = 0 then 0 else (BitVec.ofInt 16 (lead m e)).toNat
    | _ => 0
  ex * 2 ^ 16 + 2 * fKind f a + (if fNeg? f a then 1 else 0)

end Sys2Proof.Machine
end

