-- ==== Sys2Proof/Machine/Table.lean ====
section
/-!
DEFINITION. The decode table of a core and encoding through it (R322 to R328), block quantisation (R331), and the
conversions of FCVT, VCVT, VQ and VDQ (R76 to R78, R360 to R364).
-/

namespace Sys2Proof.Machine

/-- T[c], 0 ≤ c ≤ 255: the partner of a held entry has its sign inverted (R322). -/
def tblEntry (t : Table) (c : Nat) : BitVec 19 :=
  let e := (t.half[c % 128]?).getD 0
  if c / 128 % 2 = 1 then e ^^^ 0x40000#19 else e

/-- TBLW: entry c and its partner (R322, R365). -/
def tblPut (t : Table) (c : Nat) (v : BitVec 19) : Table :=
  { t with half := t.half.set (c % 128) (if c / 128 % 2 = 1 then v ^^^ 0x40000#19 else v) }

/-- The value of T[c] (R324). -/
def tblVal (t : Table) (c : Nat) : Num := unpack fmtE (tblEntry t c).toNat

/-- The value of a 4-bit code (R324). -/
def tblVal4 (t : Table) (n : Nat) : Num := if n < 8 then tblVal t n else tblVal t (0x80 + (n - 8))

/-- Code c may stand in a search set: finite, and neither the Inf nor the NaN code (R325). -/
def tblQualifies (t : Table) (c : Nat) : Bool :=
  isFin (tblVal t c) && !(t.infV && t.infC.toNat == c) && !(t.nanV && t.nanC.toNat == c)

/-- The highest code at most `c` that qualifies, or 0 (R325). -/
def tblTopFrom (t : Table) : Nat → Nat
  | 0 => 0
  | c + 1 => if tblQualifies t (c + 1) then c + 1 else tblTopFrom t c

/-- H of R325. -/
def tblH (t : Table) : Nat := tblTopFrom t 127
/-- H4 of R325. -/
def tblH4 (t : Table) : Nat := tblTopFrom t 7

/-- T[0] to T[c] are non-negative, not NaN and non-decreasing (R325). -/
def tblOrdTo (t : Table) : Nat → Bool
  | 0 => leN (.fin false 0 0) (tblVal t 0)
  | c + 1 => tblOrdTo t c && leN (tblVal t c) (tblVal t (c + 1))

/-- ORD of R325. -/
def tblOrd (t : Table) : Bool := tblOrdTo t (tblH t)

/-- TBLCFG as it reads (R323). -/
def tblCfg (t : Table) : Word :=
  BitVec.ofNat 64 (tblH4 t * 2 ^ 24 + t.nanV.toNat * 2 ^ 23 + t.nanC.toNat * 2 ^ 16 + t.infV.toNat * 2 ^ 15 +
    t.infC.toNat * 2 ^ 8 + (tblOrd t).toNat * 2 ^ 7 + tblH t)

/-- The top of the search set: H for T8, H4 for T4 (R326). -/
def tblTop (t : Table) (t4 : Bool) : Nat := if t4 then tblH4 t else tblH t

/-- The bisection of R326, from codes lo < hi. -/
def tblBisect (t : Table) (v : Num) : Nat → Nat → Nat → Nat × Nat
  | 0, lo, hi => (lo, hi)
  | k + 1, lo, hi =>
    if hi - lo > 1 then
      let mid := (lo + hi) / 2
      if leN (tblVal t mid) v then tblBisect t v k mid hi else tblBisect t v k lo mid
    else (lo, hi)

/-- The search of R326: a final code, or two neighbouring codes. -/
def tblSearch (t : Table) (t4 : Bool) (v : Num) : Nat ⊕ (Nat × Nat) :=
  let top := tblTop t t4
  if !isFin (tblVal t top) then .inl 0
  else if leN (tblVal t top) v then .inl top
  else if leN v (tblVal t 0) then .inl 0
  else
    let (lo, hi) := tblBisect t v 8 0 top
    if eqN (tblVal t lo) v then .inl lo else .inr (lo, hi)

/-- ⌊256 (x - a) / (b - a)⌋ for finite a < b (R335). -/
def ditherQ (x a b : Num) : Nat :=
  match x, a, b with
  | .fin sx mx ex, .fin sa ma ea, .fin sb mb eb =>
    let e0 := if ex ≤ ea then (if ex ≤ eb then ex else eb) else (if ea ≤ eb then ea else eb)
    let vx := alignTo e0 sx mx ex
    let va := alignTo e0 sa ma ea
    let vb := alignTo e0 sb mb eb
    (256 * (vx - va) / (vb - va)).toNat
  | _, _, _ => 0

/-- The choice between lo and hi for a finite x of sign `neg` (R327). -/
def tblChoose (t : Table) (r : Rnd) (neg : Bool) (v : Num) (lo hi : Nat) : Nat :=
  let tl := tblVal t lo
  let th := tblVal t hi
  if isFin tl && isFin th then
    match r with
    | .rne =>
      let dl := addN v (negN tl)
      let dh := addN th (negN v)
      if ltN dl dh then lo else if ltN dh dl then hi else if lo % 2 = 0 then lo else hi
    | .rz => lo
    | .ru => if neg then lo else hi
    | .rd => if neg then hi else lo
    | .dither d =>
      if neg then (if ditherQ (negN v) (negN th) (negN tl) > d then lo else hi)
      else (if ditherQ v tl th > d then hi else lo)
  else if isFin th then hi
  else lo

/-- The table has an Inf code for this width (R324, R328). -/
def tblHasInf (t : Table) (t4 : Bool) : Bool := t.infV && (!t4 || decide (t.infC.toNat ≤ 7))
/-- The table has a NaN code for this width. -/
def tblHasNan (t : Table) (t4 : Bool) : Bool := t.nanV && (!t4 || decide (t.nanC.toNat ≤ 7))

/-- What a negative value adds to its code (R327). -/
def signCode (t4 neg : Bool) : Nat := if neg then (if t4 then 8 else 0x80) else 0

/-- The code of a value (R327, R328). -/
def tblEncode (t : Table) (t4 : Bool) (r : Rnd) (x : Num) : Nat :=
  match x with
  | .nan => if tblHasNan t t4 then t.nanC.toNat else 0
  | .inf neg => (if tblHasInf t t4 then t.infC.toNat else tblTop t t4) + signCode t4 neg
  | .fin neg m e =>
    let v := Num.fin false m e
    let c := match tblSearch t t4 v with
      | .inl c => c
      | .inr (lo, hi) => tblChoose t r neg v lo hi
    c + signCode t4 neg

/-- The value a code stands for under scale byte `sc` (R330): a scale of 0xFF is NaN. -/
def codeVal (t : Table) (t4 : Bool) (c sc : Nat) : Num :=
  if sc = 0xFF then .nan else scaleN (if t4 then tblVal4 t c else tblVal t c) ((sc : Int) - 127)

/-- The largest magnitude of the finite values of a list; zero if none. -/
def maxMag : List Num → Num
  | [] => .fin false 0 0
  | x :: xs => if isFin x && ltN (maxMag xs) (absN x) then absN x else maxMag xs

/-- The floor of log2 of a nonzero finite value. -/
def log2N (x : Num) : Int := match x with | .fin _ m e => lead m e | _ => 0

/-- The value is not a finite number above 0. -/
def notAbove0 (x : Num) : Bool := !isFin x || !ltN (.fin false 0 0) x

/-- Block quantisation (R331): the scale byte and the codes. Element k of the block is encoded under `r k`. -/
def quantise (t : Table) (t4 : Bool) (r : Nat → Rnd) (ys : List Num) : Nat × List Nat :=
  if !(ys.any isFin) || (ys.any isNan && !tblHasNan t t4) then (0xFF, ys.map fun _ => 0)
  else
    let m := maxMag ys
    let tmax := tblVal t (tblTop t t4)
    let sc : Nat :=
      if eqN m (.fin false 0 0) || notAbove0 tmax then 127
      else
        let k := log2N m - log2N tmax + 127
        if k < 0 then 0 else if k > 254 then 254 else k.toNat
    (sc, ys.mapIdx fun k y => tblEncode t t4 (r k) (scaleN y (127 - (sc : Int))))

/-! ## Conversions -/

/-- A register read as a type of R76: codes 0 d, 1 s, 2 h, 3 bh, 4 l, 5 lu, 6 t8, 7 e. -/
def cvtRead (t : Table) (ty : Nat) (w : Word) : Num :=
  match ty with
  | 0 => unpack fmtD w.toNat
  | 1 => unpack fmtS w.toNat
  | 2 => unpack fmtH w.toNat
  | 3 => unpack fmtBh w.toNat
  | 4 => numOfInt w.toInt
  | 5 => numOfInt w.toNat
  | 6 => tblVal t (w.toNat % 256)
  | _ => unpack fmtE w.toNat

/-- A value written as a type of R76, in a 64-bit register. -/
def cvtWrite (t : Table) (ty : Nat) (r : Rnd) (x : Num) : Word :=
  match ty with
  | 0 => BitVec.ofNat 64 (roundTo fmtD r x)
  | 1 => BitVec.ofNat 64 (roundTo fmtS r x)
  | 2 => BitVec.ofNat 64 (roundTo fmtH r x)
  | 3 => BitVec.ofNat 64 (roundTo fmtBh r x)
  | 4 => BitVec.ofInt 64 (toIntSat r (-(2 ^ 63)) (2 ^ 63 - 1) x)
  | 5 => BitVec.ofInt 64 (toIntSat r 0 (2 ^ 64 - 1) x)
  | 6 => BitVec.ofNat 64 (tblEncode t false r x)
  | _ => BitVec.ofNat 64 (roundTo fmtE r x)

/-- FCVT (R76 to R78, R364): the DITHER position is bits 7:4 and 3:0 of the old destination. -/
def fcvtWord (t : Table) (rnd dst src : Nat) (a old : Word) : Word :=
  cvtWrite t dst (rndOf rnd (old.toNat / 16 % 16) (old.toNat % 16)) (cvtRead t src a)

end Sys2Proof.Machine
end

