-- ==== Sys2Proof/Machine/Memory.lean ====
section
/-!
DEFINITION. Memory: homes (R217, R231, R246), page tables and walks (R226 to R230), the device region (R221 to R224),
checking an access (R233, R234), reading and writing bytes at their homes with the poison marks and the trace rings
(R243, R257), the element formats (R262 to R264), and applying an access (R246 to R249).
-/

namespace Sys2Proof.Machine

/-! ## Homes -/

/-- The home of scratchpad byte `off` of core c. DESIGN CHOICE (log entry 8). -/
def scratchHome (c off : Nat) : Nat := 2 ^ 40 + c * Config.scratchBytes + off
/-- The home of weight-buffer byte `off` of core c. DESIGN CHOICE (log entry 8). -/
def weightHome (c off : Nat) : Nat := 2 ^ 44 + c * Config.weightBytes + off
/-- The home of a byte of host memory. -/
def hostHome (hpa : Nat) : Nat := 2 ^ 60 + hpa
/-- The home is host memory. -/
def isHost (h : Nat) : Bool := decide (2 ^ 60 ≤ h) && decide (h < 2 ^ 61)
/-- The pseudo-home of a byte of a port of the control window, which reads as 0 (R221). -/
def portHome : Nat := 2 ^ 61
/-- The pseudo-home of byte k of layout-table entry n of the core acting (R221). -/
def layoutHome (n k : Nat) : Nat := 2 ^ 62 + 64 * n + k

/-- The canonical form of memory: rising addresses, and no entry equal to what an unlisted address reads as. -/
def Memory.wf (m : Sp Byte) : Bool := spWf 0 m

/-- A byte of memory at its home: what no write has reached reads as 0. DESIGN CHOICE (log entry 3). -/
def memAt (s : State) (h : Nat) : Byte := spGet 0 s.mem h

/-- A byte at a home or at a pseudo-home of the core acting. -/
def byteAt (s : State) (h : Nat) : Byte :=
  if h < 2 ^ 61 then memAt s h
  else if h = portHome then 0
  else (spGet 0 s.me.layouts ((h - 2 ^ 62) / 64)).extractLsb' (8 * (h % 64)) 8

/-! ## The partition -/

/-- Core c belongs to the context's partition (R105). -/
def inPartition (s : State) (c : Nat) : Bool := s.ctx.cores.contains c
/-- Die d has a partition core. -/
def dieInPartition (s : State) (d : Nat) : Bool := s.ctx.cores.any fun c => dieOf c == d
/-- Cluster k has a partition core. -/
def clusterInPartition (s : State) (k : Nat) : Bool := s.ctx.cores.any fun c => clusterOf c == k

/-- The address lies in the device region (R216). -/
def inDevice (va : Nat) : Bool := decide (Config.deviceBase ≤ va) && decide (va < Config.deviceTop)

/-! ## Leaves and placement (R228, R230, R231) -/

/-- Bits hi:lo of a word. -/
def bits (w : Word) (lo n : Nat) : Nat := w.toNat / 2 ^ lo % 2 ^ n

/-- TGT -/
def trTgt (t : Tr) : Nat := bits t.w0 62 2
/-- HDIE -/
def trHdie (t : Tr) : Nat := bits t.w1 26 3
/-- REACH -/
def trReach (t : Tr) : Nat := bits t.w1 24 2
/-- GEN of the placement word -/
def trGen (t : Tr) : Nat := bits t.w1 29 3

/-- The set bits of STK, in ascending order. -/
def stacksOf (w1 : Word) : List Nat := (List.range 8).filter fun k => bits w1 k 1 == 1

/-- The device physical address of byte x of a page, by its frame and placement words (R217, R231). -/
def dpaOf (w0 w1 : Word) (x : Nat) : Nat :=
  let gran := bits w1 16 4
  let c := 2 ^ bits w1 13 3
  let st := stacksOf w1
  let g := x / 2 ^ gran
  let stack := (st[(g / c) % st.length]?).getD 0
  let chan := bits w1 8 5 + g % c
  let off := bits w0 16 36 * 2 ^ 16 + g / (st.length * c) * 2 ^ gran + x % 2 ^ gran
  stack * 2 ^ 36 + chan * 2 ^ 31 + off

/-- The home of byte x of a page by its two leaf words. -/
def pageHome (w0 w1 : Word) (x : Nat) : Nat :=
  if bits w0 62 2 = 1 then hostHome (bits w0 16 36 * 2 ^ 16 + x) else dpaOf w0 w1 x

/-- The home of byte `va` of a page: an atom of a page under re-striping lives where its switch has put it (R210). -/
def homeIn (s : State) (t : Tr) (va : Nat) : Nat :=
  match s.restripes.find? fun r => decide (r.vbase ≤ va) && decide (va < r.vbase + r.size) with
  | some r =>
    let x := va - r.vbase
    if x / 32 < r.switched then pageHome r.new0 r.new1 x else pageHome r.old0 r.old1 x
  | none => pageHome t.w0 t.w1 (va - t.vbase)

/-- What each context beside the present one keeps. -/
def awayContexts (s : State) : List CtxFw := s.away.filterMap (·.2)

/-- The re-stripings of every context that firmware knows: those of the present one, and those that stand in a suspended one
(R210, R211). -/
def allStripes (s : State) : List Restripe := s.restripes ++ (awayContexts s).flatMap (·.restripes)

/-- The offset in a page of the byte at a device physical address, if the page's leaf words lay it out there (R231). -/
def pageOffset (w0 w1 : Word) (size dpa : Nat) : Option Nat :=
  let gran := bits w1 16 4
  let c := 2 ^ bits w1 13 3
  let st := stacksOf w1
  match st.findIdx? fun k => k == dpa / 2 ^ 36 with
  | some i =>
    let off := dpa % 2 ^ 31 - bits w0 16 36 * 2 ^ 16
    let g := off / 2 ^ gran * (st.length * c) + i * c + (dpa / 2 ^ 31 % 32 - bits w1 8 5)
    let x := g * 2 ^ gran + off % 2 ^ gran
    if x < size ∧ dpaOf w0 w1 x = dpa then some x else none
  | none => none

/-- The home of the byte that the host, a principal or firmware names by a device physical address: during a re-stripe, old
frames and new lead to the single home of each atom (R210, R238, R245, R255), in a suspended context, too (R211). An
address of host memory is its own home. -/
def hostAtom (s : State) (dpa : Nat) : Nat :=
  let at_ (r : Restripe) : Option Nat :=
    if bits r.new0 62 2 = 1 then none
    else
      ((pageOffset r.new0 r.new1 r.size dpa).orElse fun _ => pageOffset r.old0 r.old1 r.size dpa).map fun x =>
        if x / 32 < r.switched then pageHome r.new0 r.new1 x else pageHome r.old0 r.old1 x
  ((allStripes s).findSome? at_).getD dpa

/-- n bytes at a device physical address or a host address, each at its home (R255). -/
def dpaBytes (s : State) (at_ n : Nat) : List Byte := (List.range n).map fun k => memAt s (hostAtom s (at_ + k))

/-- A word at such an address. -/
def dpaWord (s : State) (at_ : Nat) : Word := BitVec.ofNat 64 (leNat (dpaBytes s at_ 8))

/-- Bytes to be written at such addresses, at their homes (R255). -/
def toHomes (s : State) (l : List (Nat × Byte)) : List (Nat × Byte) := l.map fun e => (hostAtom s e.1, e.2)

/-- The placement word is refused when a walk fills a TLB entry (R230). -/
def badPlacement (s : State) (tgt : Nat) (w1 : Word) : Bool :=
  !((List.range 32).any fun k => bits w1 (32 + k) 1 == 1 && clusterInPartition s k) ||
  !dieInPartition s (bits w1 26 3) || bits w1 24 2 == 3 ||
  (tgt == 0 &&
    (decide (2 ≤ bits w1 20 4) || decide (bits w1 16 4 < 5) || decide (6 ≤ bits w1 13 3) ||
     decide (32 < bits w1 8 5 + 2 ^ bits w1 13 3) || bits w1 0 8 == 0 ||
     (stacksOf w1).any fun k => !s.ctx.hbmStacks.contains k))

/-- The run of a page on each of its channels, in bytes (R231). -/
def runBytes (w1 : Word) (size : Nat) : Nat :=
  let gran := bits w1 16 4
  let sc := (stacksOf w1).length * 2 ^ bits w1 13 3
  (size / 2 ^ gran + sc - 1) / sc * 2 ^ gran

/-- A leaf that a walk treats as invalid (R229). -/
def badLeaf (s : State) (w0 w1 : Word) (size : Nat) : Bool :=
  let tgt := bits w0 62 2
  bits w0 52 10 != 0 || bits w0 6 10 != 0 || decide (2 ≤ tgt) || badPlacement s tgt w1 ||
  (tgt == 0 && (bits w0 31 21 != 0 || decide (2 ^ 31 < bits w0 16 36 * 2 ^ 16 + runBytes w1 size)))

/-- Eight bytes of HBM at a device physical address (R226). -/
def word64At (s : State) (dpa : Nat) : Word := BitVec.ofNat 64 (leNat ((List.range 8).map fun k => memAt s (dpa + k)))

/-- The levels of a walk (R226): the lowest index bit, the index width, whether a leaf may stand there, and the
alignment of the next table. -/
def walkLevels : List (Nat × Nat × Bool × Nat) :=
  [(43, 14, false, 2 ^ 17), (30, 13, true, 2 ^ 13), (21, 9, true, 2 ^ 9), (16, 5, true, 0)]

/-- What an entry of a page table is (R227 to R229). -/
inductive TableEntry where
  | invalid
  | leaf (w0 w1 : Word)
  | next (table : Nat)
  deriving DecidableEq, Repr

/-- The entry at `e` of a table whose leaves hold `size` bytes (R227 to R229). -/
def entryAt (s : State) (e size : Nat) (leafOk : Bool) (align : Nat) : TableEntry :=
  let w0 := word64At s e
  let w1 := word64At s (e + 8)
  if bits w0 0 1 = 0 then .invalid
  else if bits w0 1 1 = 1 then if !leafOk || badLeaf s w0 w1 size then .invalid else .leaf w0 w1
  else
    let ptr := bits w0 9 30 * 2 ^ 9
    if w1 ≠ 0 ∨ bits w0 39 25 ≠ 0 ∨ bits w0 2 7 ≠ 0 ∨ align = 0 ∨ ptr % align ≠ 0 then .invalid else .next ptr

/-- A walk from the table at `table` (R226 to R229): the page, or nothing where an entry is invalid. -/
def walkFrom (s : State) (va : Nat) : Nat → List (Nat × Nat × Bool × Nat) → Option Tr
  | _, [] => none
  | table, (lo, n, leafOk, align) :: ls =>
    match entryAt s (table + 16 * (va / 2 ^ lo % 2 ^ n)) (2 ^ lo) leafOk align with
    | .invalid => none
    | .leaf w0 w1 => some ⟨va / 2 ^ lo * 2 ^ lo, 2 ^ lo, w0, w1⟩
    | .next ptr => walkFrom s va ptr ls

/-- The pages that the table at `table` maps, whose first entry stands for virtual address `va` (R226 to R229). An entry
whose 16 bytes are all 0 is invalid, so the entries to look at are those with a listed byte. -/
def pagesFrom (s : State) : Nat → Nat → List (Nat × Nat × Bool × Nat) → List Tr
  | _, _, [] => []
  | va, table, (lo, n, leafOk, align) :: ls =>
    ((spSlice s.mem table (16 * 2 ^ n)).map fun b => b.1 / 16).eraseDups.flatMap fun i =>
      match entryAt s (table + 16 * i) (2 ^ lo) leafOk align with
      | .invalid => []
      | .leaf w0 w1 => [⟨va + i * 2 ^ lo, 2 ^ lo, w0, w1⟩]
      | .next ptr => pagesFrom s (va + i * 2 ^ lo) ptr ls

/-- The tables of a walk (first home and bytes), the one at `table` and those below it (R226). -/
def tablesFrom (s : State) : Nat → List (Nat × Nat × Bool × Nat) → List (Nat × Nat)
  | _, [] => []
  | table, (lo, n, leafOk, align) :: ls =>
    (table, 16 * 2 ^ n) :: ((spSlice s.mem table (16 * 2 ^ n)).map fun b => b.1 / 16).eraseDups.flatMap fun i =>
      match entryAt s (table + 16 * i) (2 ^ lo) leafOk align with
      | .next ptr => tablesFrom s ptr ls
      | _ => []

/-- The pages that the context maps; a leaf over the device region is never used (R216). -/
def mappedPages (s : State) : List Tr := (pagesFrom s 0 s.ctx.root walkLevels).filter fun t => !inDevice t.vbase

/-- The runs of HBM or of host memory (first home and bytes) that a page takes: one on each of its channels (R231). -/
def frameRuns (t : Tr) : List (Nat × Nat) :=
  let off := bits t.w0 16 36 * 2 ^ 16
  if bits t.w0 62 2 = 1 then [(hostHome off, t.size)]
  else (stacksOf t.w1).flatMap fun st => (List.range (2 ^ bits t.w1 13 3)).map fun j =>
    (st * 2 ^ 36 + (bits t.w1 8 5 + j) * 2 ^ 31 + off, runBytes t.w1 t.size)

/-- A home lies in one of the ranges. -/
def inRanges (l : List (Nat × Nat)) (h : Nat) : Bool := l.any fun r => decide (r.1 ≤ h) && decide (h < r.1 + r.2)

/-- Two lists of ranges have a home in common. -/
def rangesMeet (l m : List (Nat × Nat)) : Bool :=
  l.any fun r => m.any fun q => decide (r.1 < q.1 + q.2) && decide (q.1 < r.1 + r.2)

/-- The walk of a virtual address; a leaf over the device region is never used there (R216). -/
def walk (s : State) (va : Nat) : Option Tr := if inDevice va then none else walkFrom s va s.ctx.root walkLevels

/-! ## The device region (R221 to R223) -/

/-- The home that an access of the core acting reaches at an address of the device region, if there is one: a
scratchpad byte, a port, or a byte of the layout table. -/
def deviceHome (s : State) (va : Nat) : Option Nat :=
  if Config.controlWindow ≤ va then
    let o := va - Config.controlWindow
    if 0x1000 ≤ o ∧ o < 0x2000 then some (layoutHome ((o - 0x1000) / 64) (o % 64))
    else if [0x0800, 0x0A00, 0x0B00, 0x0B40, 0x0C00, 0x0D00].contains (o / 64 * 64) then some portHome
    else none
  else if Config.scratchWindow ≤ va ∧ va < Config.scratchWindow + Config.scratchBytes then
    some (scratchHome s.me.num (va - Config.scratchWindow))
  else if Config.clusterWindow ≤ va ∧ va < Config.clusterWindow + 96 * Config.scratchBytes then
    let c := 96 * myCluster s + (va - Config.clusterWindow) / Config.scratchBytes
    if inPartition s c then some (scratchHome c ((va - Config.clusterWindow) % Config.scratchBytes)) else none
  else none

/-- What an access of this kind may do at a device home: scratchpads take everything; ports and layout entries are
read by loads, layout entries by LDV only, and take nothing else here (R221, R222). -/
def deviceAllows (k : AccKind) (vec : Bool) (h : Nat) : Bool :=
  if h < 2 ^ 61 then k != .execute
  else if h = portHome then k == .read
  else k == .read && vec

/-! ## Checking an access (R233, R234) -/

/-- What the checks of an access come to. -/
inductive Chk where
  | ok (pages : List Tr)
  | trap (cause : BitVec 5) (tval : Nat)
  | miss (va : Nat) (kind : AccKind)
  | migrate (die mask : Nat)
  /-- a scratchpad bank has served another access in this cycle (R27): the banks that the access asks for -/
  | forfeit (banks : List Nat)
  deriving DecidableEq, Repr

/-- The TLB entry of a slot that holds an address (R236). -/
def tlbFind (tlb : List TlbEntry) (slot va : Nat) : Option Tr :=
  (tlb.find? fun e => e.slot == slot && decide (e.tr.vbase ≤ va) && decide (va < e.tr.vbase + e.tr.size)).map (·.tr)

/-- The page forbids this kind of access, or the thread lacks the privilege it asks for, or its cluster is masked out
(R228, steps 5 and 6 of R233). -/
def pageForbids (prv : Bool) (cluster : Nat) (k : AccKind) (t : Tr) : Bool :=
  let r := bits t.w0 2 1 == 1
  let w := bits t.w0 3 1 == 1
  let x := bits t.w0 4 1 == 1
  let ok := match k with
    | .read => r
    | .write => w
    | .execute => x
    | .atomic => r && w
  !ok || (bits t.w0 5 1 == 1 && !prv) || bits t.w1 (32 + cluster) 1 == 0

/-- The memory controller of a home is down (R233 step 9); host memory has the host-link port in its place (R245). -/
def controllerDown (s : State) (h : Nat) : Bool := (decide (h < 2 ^ 39) && s.memDown.contains (h / 2 ^ 31)) || (isHost h && s.hostDown)

/-- The address lies on a page whose re-striping has stopped on a memory controller that is down (R212). -/
def onStuck (s : State) (va : Nat) : Bool :=
  s.restripes.any fun r => r.stuck && decide (r.vbase ≤ va) && decide (va < r.vbase + r.size)

/-- The pages of a list in ascending address, each once. -/
def insertPage (t : Tr) : List Tr → List Tr
  | [] => [t]
  | u :: us => if t.vbase < u.vbase then t :: u :: us else if t.vbase = u.vbase then u :: us else u :: insertPage t us

/-- An address that an access touches, with what it does there. -/
abbrev Probe := Nat × AccKind

/-- The page that holds an address. -/
def holds (t : Tr) (va : Nat) : Bool := decide (t.vbase ≤ va) && decide (va < t.vbase + t.size)

/-- The least of a list of addresses. -/
def leastOf : List Nat → Nat
  | [] => 0
  | a :: l => l.foldl Nat.min a

/-- The first byte of the access on a page: the least of the addresses that it touches there (R234).
DEDUCED (log entry 21). -/
def firstOn (ps : List Probe) (t : Tr) : Nat := leastOf ((ps.filter fun p => holds t p.1).map (·.1))

/-- Step 8 of R233 on a page: the trap, if it fails. For a page of host memory R245 has the host-link port judged, and the model
has HOME_DOWN if that port is down or the cores of die HDIE are in reset. DESIGN CHOICE (log entry 73). -/
def homeFails (s : State) (t : Tr) : Option (BitVec 5) :=
  let d := trHdie t
  if trReach t != 2 || d == myDie s then none
  else if (dieAt s d).inReset || (trTgt t == 1 && s.hostDown) then some cHomeDown
  else if s.ctx.cores.any fun c => dieOf c == d && bits t.w1 (32 + clusterOf c) 1 == 1 then none
  else some cReach

/-- Steps 8 and 9 of R233 on a page, for the addresses that the access touches there: the trap, if one fails. -/
def pageFails (s : State) (ps : List Probe) (t : Tr) : Option (BitVec 5) :=
  (homeFails s t).orElse fun _ =>
    if ps.any fun p => holds t p.1 && (controllerDown s (homeIn s t p.1) || onStuck s p.1) then some cMemDown else none

/-- The checks that follow translation, over the pages in ascending address (R233 steps 5 to 9, R234 orders 2 to 6). Where several
MIGRATE pages share one home die, the CMASK of the lowest one that lies there chooses the landing core (R235): the spec
does not say which does. DEDUCED (log entry 21). -/
def judge (s : State) (prv : Bool) (ps : List Probe) (pages : List Tr) : Chk :=
  let die := myDie s
  let bad := pages.find? fun t => ps.any fun p => holds t p.1 && pageForbids prv (myCluster s) p.2 t
  let loc := pages.find? fun t => trReach t == 0 && trHdie t != die
  let mig := pages.filter fun t => trReach t == 2
  let split := match mig with
    | [] => none
    | t :: ts => ts.find? fun u => trHdie u != trHdie t
  match bad, loc, split with
  | some t, _, _ => .trap cPerm (firstOn ps t)
  | none, some t, _ => .trap cReach (firstOn ps t)
  | none, none, some t => .trap cSplitHome (firstOn ps t)
  | none, none, none =>
    match mig.find? fun t => trHdie t != die, pages.any fun t => (homeFails s t).isSome with
    | some t, false => .migrate (trHdie t) (bits t.w1 32 32)
    | _, _ =>
      match pages.findSome? fun t => (pageFails s ps t).map fun c => (c, t) with
      | some (c, t) => .trap c (firstOn ps t)
      | none => .ok pages

/-- The scratchpad core of an atom, if it lies in a scratchpad. -/
def scratchCore (a : Nat) : Option Nat :=
  if 2 ^ 35 ≤ a ∧ a < 2 ^ 35 + 3072 * 2 ^ 14 then some ((a - 2 ^ 35) / 2 ^ 14) else none

/-- The scratchpad bank of a home, as 32 * core + bank (R224). -/
def bankOf (h : Nat) : Option Nat := (scratchCore (h / 32)).map fun _ => (h - 2 ^ 40) / 2 ^ 14

/-- An access of group 3 asks for the banks of homes (R27). -/
def askBanks (hs : List Nat) (s : State) : State := { s with asked := s.asked ++ (hs.filterMap bankOf).eraseDups }

/-- Banks are granted in this cycle: to a catch, or to a step on a core, which has taken them (`used`) or will (R27). -/
def grantBanks (owner : Option (Nat × Instr)) (used : Bool) (bs : List Nat) (s : State) : State :=
  { s with banks := (s.banks.filter fun g => g.cycle == s.clock) ++ bs.map fun b => ⟨b, s.clock, owner, used⟩ }

/-- Bank b is granted in this cycle to a step on a core that has not taken it yet. -/
def keptFor (s : State) (e : Nat × Instr) (b : Nat) : Bool :=
  s.banks.any fun g => g.bank == b && g.cycle == s.clock && g.owner == some e && !g.used

/-- The step on a core takes the banks that are granted to it. -/
def useBanks (e : Nat × Instr) (s : State) : State :=
  { s with banks := s.banks.map fun g => if g.owner = some e then { g with used := true } else g }

/-- Bank b is not granted to the issuing thread: it serves a catch in this cycle, or an access of group 3, to which no bank is
granted that the thread forfeited in its last attempt (R27). -/
def bankTaken (s : State) (b : Nat) : Bool := s.banks.any fun g => g.bank == b && g.cycle == s.clock

/-- The banks of the core's own scratchpad that homes lie in. -/
def ownBanks (s : State) (hs : List Nat) : List Nat :=
  ((hs.filter fun h => scratchCore (h / 32) == some s.me.num).filterMap bankOf).eraseDups

/-- An access of the issuing thread to homes in its own scratchpad is not granted. -/
def banksBusy (s : State) (hs : List Nat) : Bool := (ownBanks s hs).any (bankTaken s)

/-- The checks of an access that touches the addresses `ps`, in element order (R233 from step 3, R234). `vec`: it is
LDV. `tlb`: the TLB it looks in. Of several forbidden bytes of the device region the lowest is the one that TVAL names, and of several
missing pages the first in element order, data before scale bytes, is the one that the pair parks on. DESIGN CHOICE (log entry 21). -/
def checksOf (s : State) (tlb : List TlbEntry) (vec : Bool) (ps : List Probe) : Chk :=
  let slot := s.iss.slot
  match ps.filter fun p => inDevice p.1 && !(match deviceHome s p.1 with
      | some h => deviceAllows p.2 vec h
      | none => false) with
  | p :: l => .trap cPerm (leastOf (p.1 :: l.map (·.1)))
  | [] =>
    let qs := ps.filter fun p => !inDevice p.1
    match qs.find? fun p => (tlbFind tlb slot p.1).isNone with
    | some p => match (cur s).denied with
      | some d => .trap cPerm d
      | none => .miss p.1 p.2
    | none =>
      let pages := qs.foldl (fun acc p => match tlbFind tlb slot p.1 with | some t => insertPage t acc | none => acc) []
      judge s (cur s).prv qs pages

/-- The checks of an access, and its grant at the banks of its core's scratchpad (R27). -/
def checkAccess (s : State) (tlb : List TlbEntry) (vec : Bool) (ps : List Probe) : Chk :=
  match checksOf s tlb vec ps with
  | .ok pages =>
    let hs := ps.filterMap fun p => if inDevice p.1 then deviceHome s p.1 else none
    if banksBusy s hs then .forfeit (ownBanks s hs) else .ok pages
  | c => c

/-- The entries that an access used become the most recently used (R236). -/
def touchTlb (slot : Nat) (pages : List Tr) (tlb : List TlbEntry) : List TlbEntry :=
  let used := pages.map fun t => (⟨slot, t⟩ : TlbEntry)
  used ++ tlb.filter fun e => !used.contains e

/-! ## Homes of an access -/

/-- The home of a byte of an access whose pages have been translated. -/
def homeOf (s : State) (pages : List Tr) (va : Nat) : Nat :=
  if inDevice va then (deviceHome s va).getD portHome
  else match pages.find? fun t => holds t va with
    | some t => homeIn s t va
    | none => portHome

/-- An atom is marked poisoned (R174, R243). -/
def isBad (s : State) (h : Nat) : Bool := s.poison.contains (h / 32)

/-! ## Writing bytes at their homes -/

/-- Who writes: core, slot (15 for an engine) and the kind of a trace entry: 0 store, 1 AMO, 2 engine write (R257). -/
structure Writer where
  core : Nat
  slot : Nat
  kind : Nat
  deriving DecidableEq, Repr

/-- The atoms of a list of writes, each once. -/
def atomsOf (l : List Nat) : List Nat := (l.map (· / 32)).eraseDups

/-- The atom is written whole: all 32 of its bytes are listed. -/
def coversAtom (l : List Nat) (a : Nat) : Bool := (List.range 32).all fun k => l.contains (32 * a + k)

/-- A port's trace ring with one more entry: a full ring overwrites its oldest entry and is LOST (R257). -/
def tracePush (e : TraceEntry) (m : Core) : Core :=
  if m.trace.length < 4096 then { m with trace := m.trace ++ [e] }
  else { m with trace := m.trace.drop 1 ++ [e], lost := true }

/-- The kind, the source core and the source slot of two entries agree. -/
def sameWrite (e x : TraceEntry) : Bool := x.score == e.score && x.sslot == e.sslot && x.kind == e.kind

/-- A replay at a write that reaches the port of core c (R257): the first entry left for the port's atom is the write
whose turn it is; one that agrees is used up, and a write that does not agree comes early. DEDUCED (log entry 67). -/
def replayWrite (c : Nat) (e : TraceEntry) (r : Replay) : Replay :=
  match r.left.find? fun x => x.1 == c && x.2.atom == e.atom with
  | none => r
  | some x => if sameWrite e x.2 then { r with left := r.left.erase x } else { r with early := true }

/-- A write that reaches a scratchpad through the cluster window enters that port's trace ring (R223, R257), and uses up
its entry of a log that is replayed. DEDUCED (log entry 53). -/
def traceAtom (w : Writer) (a : Nat) (s : State) : State :=
  match scratchCore a with
  | some c =>
    if c = w.core then s
    else
      let e : TraceEntry :=
        ⟨BitVec.ofNat 48 (coreClock s (coreOf s c)), BitVec.ofNat 12 w.core, BitVec.ofNat 4 w.slot, BitVec.ofNat 14 (a % 2 ^ 14),
          BitVec.ofNat 2 w.kind⟩
      let s := { s with replay := s.replay.map (replayWrite c e) }
      if c = s.me.num then { s with me := tracePush e s.me }
      else { s with others := spSet none s.others c (some (tracePush e (coreOf s c))) }
  | none => s

/-- The homes of a list that lie in another core's scratchpad. -/
def remoteHomes (core : Nat) (hs : List Nat) : List Nat :=
  hs.filter fun h => match scratchCore (h / 32) with | some c => c != core | none => false

/-- The homes at which an access ranks in group 3 of R27: an engine's in any scratchpad, a thread's in another core's. -/
def rankedHomes (w : Writer) (hs : List Nat) : List Nat := if w.slot = 15 then hs else remoteHomes w.core hs

/-- Bytes written at their homes, in order: marks of atoms written whole are cleared (R243), watchers of the lines
wake (R99), remote scratchpad writes are traced, and accesses of group 3 ask for their banks (R27). -/
def writeBytes (w : Writer) (l : List (Nat × Byte)) (s : State) : State :=
  let hs := l.map (·.1)
  let atoms := atomsOf hs
  let s := { s with mem := spSetAll 0 s.mem l, poison := s.poison.filter fun a => !(atoms.contains a && coversAtom hs a) }
  let s := askBanks (rankedHomes w hs) (atoms.foldl (fun s a => traceAtom w a s) s)
  wakeAll (fun p => match p with | .watch lo hi => atoms.contains lo || atoms.contains hi | _ => false) s

/-- n free bytes, and the draw counted. DESIGN CHOICE (log entry 34). -/
def drawBytes (n : Nat) (s : State) : List Byte × State :=
  ((List.range n).map (Config.freeByte s.freeUsed), { s with freeUsed := s.freeUsed + 1 })

/-! ## Elements (R262 to R264) -/

/-- The bytes of an element; a T4 element is addressed by its byte. -/
def elemBytes (fmt : Nat) : Nat :=
  match fmt with
  | 0x01 => 8
  | 0x02 => 4
  | 0x03 => 2
  | 0x04 => 2
  | 0x12 => 2
  | 0x13 => 4
  | _ => 1

/-- The format codes of R321. -/
def fmtKnown (fmt : Nat) : Bool := [0x00, 0x01, 0x02, 0x03, 0x04, 0x08, 0x09, 0x10, 0x11, 0x12, 0x13].contains fmt

/-- The address of the scale byte of the element at byte address `va` (R220). -/
def scaleAddr (fmt bl va : Nat) : Nat := Config.shadowBase + va % 2 ^ 56 / 2 ^ (if fmt = 0x09 then bl + 2 else bl + 3)

/-- A lane after a load of a pattern of n bytes (R262): format, pattern, whether T4's high nibble is meant, scale. -/
def decodeElem (t : Table) (fmt v : Nat) (hi : Bool) (sc : Nat) : Word :=
  let s32 (x : Num) : Word := BitVec.ofNat 64 (roundTo fmtS .rne x)
  match fmt with
  | 0x03 => s32 (unpack fmtH v)
  | 0x04 => s32 (unpack fmtBh v)
  | 0x08 => s32 (codeVal t false v sc)
  | 0x09 => s32 (codeVal t true (if hi then v / 16 else v % 16) sc)
  | 0x10 => ((BitVec.ofNat 8 v).signExtend 32).setWidth 64
  | 0x12 => ((BitVec.ofNat 16 v).signExtend 32).setWidth 64
  | _ => BitVec.ofNat 64 v

/-- A signed integer saturated to a range. -/
def satInt (lo hi k : Int) : Int := if k < lo then lo else if hi < k then hi else k

/-- The pattern that STV writes for a lane (R264); a T4 code is 4 bits. -/
def encodeElem (t : Table) (fmt : Nat) (lane : Word) (sc : Nat) : Nat :=
  let x := unpack fmtS (lane.toNat % 2 ^ 32)
  let k := (lane.setWidth 32).toInt
  let code (t4 : Bool) : Nat := if sc = 0xFF then 0 else tblEncode t t4 .rne (scaleN x (127 - (sc : Int)))
  match fmt with
  | 0x03 => roundTo fmtH .rne x
  | 0x04 => roundTo fmtBh .rne x
  | 0x08 => code false
  | 0x09 => code true
  | 0x10 => (BitVec.ofInt 8 (satInt (-128) 127 k)).toNat
  | 0x11 => (satInt 0 255 k).toNat
  | 0x12 => (BitVec.ofInt 16 (satInt (-32768) 32767 k)).toNat
  | 0x02 => lane.toNat % 2 ^ 32
  | 0x13 => lane.toNat % 2 ^ 32
  | 0x01 => lane.toNat
  | _ => lane.toNat % 256

/-! ## Applying an access (R246) -/

/-- The addresses of an element's bytes. -/
def elemAddrs (fmt : Nat) (e : Nat × Bool) : List Nat := (List.range (elemBytes fmt)).map (e.1 + ·)

/-- Every byte that an access touches, scale bytes first. -/
def accAddrs (a : Access) : List Nat :=
  match a.act with
  | .load _ n _ => (List.range n).map (a.va + ·)
  | .store n _ => (List.range n).map (a.va + ·)
  | .amo _ n _ _ _ => (List.range n).map (a.va + ·)
  | .watch _ _ => (List.range 8).map (a.va + ·)
  | .vload _ fmt bl es _ =>
    (if bl = 0 then [] else es.map fun e => scaleAddr fmt bl e.1) ++ es.flatMap (elemAddrs fmt)
  | .vstore fmt bl es _ _ =>
    (if bl = 0 then [] else es.map fun e => scaleAddr fmt bl e.1) ++ es.flatMap (elemAddrs fmt)

/-- Bytes written by an earlier element of the same access, or memory. -/
def overlaid (s : State) (l : List (Nat × Byte)) (h : Nat) : Byte :=
  match l.reverse.find? fun e => e.1 == h with
  | some e => e.2
  | none => byteAt s h

/-- The byte of memory at a virtual address of an access. -/
def vaByte (s : State) (pages : List Tr) (va : Nat) : Byte := byteAt s (homeOf s pages va)

/-- The byte writes of a vector store, elements in ascending order (R264, R266): virtual address, home and byte. `sc` gives
the scale bytes. DEDUCED (log entry 20). -/
def storeElems (s : State) (pages : List Tr) (fmt bl : Nat) (t : Table) (sc : Nat → Byte) :
    List (Nat × Bool) → List Word → List (Nat × Nat × Byte) → List (Nat × Nat × Byte)
  | e :: es, w :: ws, l =>
    let v := encodeElem t fmt w (if bl = 0 then 127 else (sc (scaleAddr fmt bl e.1)).toNat)
    let l' :=
      if fmt = 0x09 then
        let h := homeOf s pages e.1
        let old := (overlaid s (l.map (·.2)) h).toNat
        [(e.1, h, BitVec.ofNat 8 (if e.2 then old % 16 + 16 * v else old / 16 * 16 + v))]
      else (leBytes (elemBytes fmt) v).mapIdx fun k b => (e.1 + k, homeOf s pages (e.1 + k), b)
    storeElems s pages fmt bl t sc es ws (l ++ l')
  | _, _, l => l

/-- The bytes that a vector store leaves at their homes, where nothing is written between its atoms. -/
def storeBytes (s : State) (pages : List Tr) (fmt bl : Nat) (t : Table) (es : List (Nat × Bool)) (ws : List Word) :
    List (Nat × Byte) :=
  (storeElems s pages fmt bl t (vaByte s pages) es ws []).map (·.2)

/-- The lanes of a vector load whose bytes `rd` gives (R262, R263). -/
def lanesFrom (rd : Nat → Byte) (fmt bl : Nat) (t : Table) (es : List (Nat × Bool)) : List Word :=
  es.map fun e =>
    let sc := if bl = 0 then 127 else (rd (scaleAddr fmt bl e.1)).toNat
    decodeElem t fmt (leNat ((elemAddrs fmt e).map rd)) e.2 sc

/-- The lanes of a vector load of memory as it stands. -/
def loadElems (s : State) (pages : List Tr) (fmt bl : Nat) (t : Table) (es : List (Nat × Bool)) : List Word :=
  lanesFrom (vaByte s pages) fmt bl t es

/-- The register words of loaded lanes: eight 64-bit lanes, or sixteen of 32 bits. -/
def laneWords (fmt : Nat) (ls : List Word) : List Word :=
  if fmt = 0x01 then ls else words32 fun j => ((ls[j]?).getD 0).setWidth 32

/-- f(old, b) of R268 on w bytes. -/
def amoF (op : AmoOp) (w : Nat) (old b cmp : Word) : Word :=
  let m := 2 ^ (8 * w)
  let o := old.toNat % m
  let x := b.toNat % m
  let so := (BitVec.ofNat (8 * w) o).toInt
  let sx := (BitVec.ofNat (8 * w) x).toInt
  BitVec.ofNat 64 (match op with
    | .add => (o + x) % m
    | .and => (old &&& b).toNat % m
    | .or => (old ||| b).toNat % m
    | .xor => (old ^^^ b).toNat % m
    | .min => if sx < so then x else o
    | .max => if so < sx then x else o
    | .minu => if x < o then x else o
    | .maxu => if o < x then x else o
    | .swap => x
    | .cas => if o = cmp.toNat % m then x else o)

/-- What applying an access gives: the state, the register words it writes, and whether the reply is poisoned. -/
structure Applied where
  st   : State
  regs : List (Nat × Word)
  bad  : Bool

/-- The bits of the byte at a virtual address that an access writes: all of them, or the nibbles of a T4 store (R266). -/
def writtenBits (act : AccAct) (va : Nat) : Byte :=
  match act with
  | .vstore 0x09 _ es _ _ =>
    (es.filter fun e => e.1 == va).foldl (fun m e => m ||| (if e.2 then 0xF0 else 0x0F)) 0
  | _ => 0xFF

/-- Writes (virtual address, home, byte) split between homes of the device, applied now, and host memory, which is only
posted (R245, R248). -/
def applyWrites (a : Access) (l : List (Nat × Nat × Byte)) (s : State) : State :=
  let host := l.filter fun e => isHost e.2.1
  let dev := l.filter fun e => !isHost e.2.1
  let s := if dev.isEmpty then s else writeBytes ⟨s.me.num, a.slot, 0⟩ (dev.map (·.2)) s
  if host.isEmpty then s
  else
    let (d, s) := popDelay s
    { s with me := { s.me with
        posted := s.me.posted ++ [⟨a.slot, true, s.clock + d, a.pages, host.map fun e => (e.1, writtenBits a.act e.1, e.2.2), !a.rx⟩] } }

/-- The byte at a virtual address as the access sees it, with its mark: as it stood when its atom was applied, or as it
stands. -/
def seen (s : State) (a : Access) (va : Nat) : Byte × Bool :=
  match a.got.find? fun e => e.1 == va with
  | some e => e.2
  | none => (vaByte s a.pages va, isBad s (homeOf s a.pages va))

/-- The writes of a store: virtual address, home and byte. -/
def accWrites (s : State) (a : Access) : List (Nat × Nat × Byte) :=
  match a.act with
  | .store n v => (leBytes n v.toNat).mapIdx fun k b => (a.va + k, homeOf s a.pages (a.va + k), b)
  | .vstore fmt bl es lanes t => storeElems s a.pages fmt bl t (fun va => (seen s a va).1) es lanes []
  | _ => []

/-- The writes of a store to the atoms that it has not yet been applied to. -/
def leftWrites (s : State) (a : Access) : List (Nat × Nat × Byte) := (accWrites s a).filter fun e => !a.done.contains (e.1 / 32)

/-- Bank b can be granted to an access of group 3 in this cycle: it serves no other, and the slot that issues on its core does
not ask for it after a forfeit (R27). -/
def bankOpen (s : State) (b : Nat) : Bool :=
  !bankTaken s b &&
    let t := atZero (focus (b / 32) s)
    (match issuing t with | some (k, _) => !(slotOf t k).forfeited.contains b | none => true)

/-- Reads at virtual addresses ask for their banks of other cores (R27). -/
def readAt (a : Access) (vas : List Nat) (s : State) : State :=
  askBanks (remoteHomes s.me.num (vas.map (homeOf s a.pages))) s

/-- What an access has still to read asks for its banks. -/
def readBanks (a : Access) (s : State) : State := readAt a ((accAddrs a).filter fun va => !a.got.any fun e => e.1 == va) s

/-- An access is applied at its homes, to the atoms that are left (R246, R261, R264 to R266, R268).
DEDUCED (log entry 20). -/
def applyAccess (a : Access) (s : State) : Applied :=
  let bad := (accAddrs a).any fun va => (seen s a va).2
  match a.act with
  | .load d n signed =>
    let v := leNat ((accAddrs a).map fun va => (seen s a va).1)
    let r : Word := if signed then (BitVec.ofNat (8 * n) v).signExtend 64 else BitVec.ofNat 64 v
    ⟨readBanks a s, [(d, r)], bad⟩
  | .store _ _ => ⟨applyWrites a (leftWrites s a) s, [], false⟩
  | .amo d n op b cmp =>
    let hs := (accAddrs a).map (homeOf s a.pages)
    let old := BitVec.ofNat 64 (leNat (hs.map (byteAt s)))
    if bad then ⟨readBanks a s, [], true⟩
    else
      ⟨writeBytes ⟨s.me.num, a.slot, 1⟩ (hs.zip (leBytes n (amoF op n old b cmp).toNat)) s,
        [(d, (BitVec.ofNat (8 * n) old.toNat).signExtend 64)], false⟩
  | .vload vd fmt bl es t =>
    let ws := laneWords fmt (lanesFrom (fun va => (seen s a va).1) fmt bl t es)
    ⟨readBanks a s, ws.mapIdx fun k w => (8 * vd + k, w), bad⟩
  | .vstore _ _ _ _ _ => ⟨applyWrites a (leftWrites s a) s, [], false⟩
  | .watch d _ =>
    let v := leNat ((accAddrs a).map fun va => (seen s a va).1)
    ⟨readBanks a s, [(d, BitVec.ofNat 64 v)], bad⟩

/-- An access whose atoms are applied separately (R246). -/
def accVector (act : AccAct) : Bool := match act with | .vload _ _ _ _ _ => true | .vstore _ _ _ _ _ => true | _ => false

/-- The addresses of the scale bytes that a vector store has yet to read: it reads them all with the first of its atoms. -/
def scalesLeft (a : Access) : List Nat :=
  match a.act with
  | .vstore fmt bl es _ _ => if bl = 0 ∨ !a.done.isEmpty then [] else es.map fun e => scaleAddr fmt bl e.1
  | _ => []

/-- The addresses of the bytes that an access is applied to, atom by atom: all that it touches, but for a store's scale bytes. -/
def partAddrs (a : Access) : List Nat :=
  match a.act with
  | .vstore fmt _ es _ _ => es.flatMap (elemAddrs fmt)
  | _ => accAddrs a

/-- The atoms, by virtual address / 32, that an access has still to read or to write. -/
def leftAtoms (a : Access) : List Nat := ((atomsOf (partAddrs a)).filter fun k => !a.done.contains k) ++ atomsOf (scalesLeft a)

/-- The home of atom k of an access, by home address / 32. -/
def atomHome (s : State) (a : Access) (k : Nat) : Nat := homeOf s a.pages (32 * k) / 32

/-- Atom k of an access lies in another core's scratchpad. -/
def farAtom (s : State) (a : Access) (k : Nat) : Bool := !(remoteHomes s.me.num [32 * atomHome s a k]).isEmpty

/-- Atom k of an access lies in the device region, and not in another core's scratchpad: its bank has granted it as the word
issued (R27). -/
def ownAtom (s : State) (a : Access) (k : Nat) : Bool := inDevice (32 * k) && !farAtom s a k

/-- Atoms of a vector access are applied (R246): a load reads their bytes, a store writes them, element by element; a store reads
its scale bytes with the first of its atoms. -/
def applyAtoms (ks : List Nat) (a : Access) (s : State) : Access × State :=
  let reads := match a.act with
    | .vload _ _ _ _ _ => (accAddrs a).filter fun va => ks.contains (va / 32)
    | _ => scalesLeft a
  let b := { a with got := a.got ++ reads.map fun va => (va, seen s a va) }
  let now := (leftWrites s b).filter fun e => ks.contains (e.1 / 32)
  ({ b with parts := b.parts.filter fun p => !ks.contains p.1, done := b.done ++ ks }, applyWrites a now (readAt a reads s))

/-- The register words that an access wrote, of slot `k`. -/
def wrAll (k : Nat) (l : List (Nat × Word)) (s : State) : State := l.foldl (fun s e => wrSlot k e.1 e.2 s) s

/-- What slot k's waiting comes to when a relaxed access of it completes, having written `regs` (R25, R249). -/
def rxWake (now : Nat) (regs : List Nat) (c : Slot) : Slot :=
  match c.st with
  | .waiting (.regs ks) => if ks.any (regs.contains ·) then wakeSlot now c else c
  | .waiting .limit => wakeSlot now c
  | _ => c

/-- A relaxed access is applied and completes (R249): its registers are written, or marked poisoned and left (R128). -/
def completeRelaxed (a : Access) (s : State) : State :=
  let s := { s with me := { s.me with relaxed := s.me.relaxed.filter fun x => x.id != a.id } }
  let r := applyAccess a s
  let s :=
    if r.bad then
      setSlot a.slot { slotOf r.st a.slot with
        poisoned := (slotOf r.st a.slot).poisoned ++ [⟨a.regs, a.va⟩] } r.st
    else wrAll a.slot r.regs r.st
  setSlot a.slot (rxWake s.clock a.regs (slotOf s a.slot)) s

/-- Two lists of atoms have one in common. -/
def meets (l m : List Nat) : Bool := l.any (m.contains ·)

/-- A byte with those of its bits replaced that a mask gives. -/
def masked (old m b : Byte) : Byte := (old &&& ~~~m) ||| (b &&& m)

/-- The bytes of a posted store at their homes, which may have moved since it issued (R210); bits that it does not write stay as
they are when the host applies it (R266). -/
def postedBytes (s : State) (p : Posted) : List (Nat × Byte) :=
  p.bytes.map fun e => (homeOf s p.pages e.1, masked (memAt s (homeOf s p.pages e.1)) e.2.1 e.2.2)

/-- The host takes a posted store. -/
def takePosted (p : Posted) (s : State) : State := writeBytes ⟨s.me.num, p.slot, 0⟩ (postedBytes s p) s

/-- Posted stores of a slot whose bytes lie in given atoms reach the host (R249: one thread's accesses to one atom are
applied in issue order), with the slot's posted stores before them (R248). -/
def drainPosted (slot : Nat) (atoms : List Nat) (s : State) : State :=
  let mine := s.me.posted.filter fun p => p.slot == slot
  if mine.any fun p => p.live && meets (atomsOf ((postedBytes s p).map (·.1))) atoms then
    postedWake slot (mine.foldl (fun s p => takePosted p s)
      { s with me := { s.me with posted := s.me.posted.filter fun p => p.slot != slot } })
  else s

/-- Of the relaxed accesses of a list, newest first, those with what each has still to do at given homes, by home address / 32; a
store that reads its scale bytes there comes after what is earlier at those (R249). The answer is in issue order. -/
def mustPrecede (s : State) : List Nat → List Access → List (Access × List Nat) → List (Access × List Nat)
  | _, [], out => out
  | homes, x :: xs, out =>
    match (leftAtoms x).filter fun k => homes.contains (atomHome s x k) with
    | [] => mustPrecede s homes xs out
    | ks => mustPrecede s ((atomsOf (scalesLeft x)).map (atomHome s x) ++ homes) xs ((x, ks) :: out)

/-- The state with another list of outstanding relaxed accesses. -/
def withRelaxed (l : List Access) (s : State) : State := { s with me := { s.me with relaxed := l } }

/-- The access in the place of its former self among the outstanding ones. -/
def putRelaxed (a : Access) (s : State) : State := withRelaxed (s.me.relaxed.map fun x => if x.id = a.id then a else x) s

/-- Given atoms of an outstanding relaxed access are applied now: a scalar access completes, a vector access goes on. -/
def settleOne (s : State) (x : Access × List Nat) : State :=
  if accVector x.1.act then putRelaxed (applyAtoms x.2 x.1 s).1 (applyAtoms x.2 x.1 s).2 else completeRelaxed x.1 s

/-- The relaxed accesses that slot `slot` issued before its access `id`. -/
def earlierRx (slot id : Nat) (s : State) : List Access := s.me.relaxed.filter fun x => x.slot == slot && decide (x.id < id)

/-- Before slot `slot` makes an access numbered `id` at given homes, what its earlier relaxed accesses have to do there is done,
in issue order (R249). -/
def settleAtoms (slot id : Nat) (homes : List Nat) (s : State) : State :=
  drainPosted slot homes ((mustPrecede s homes (earlierRx slot id s).reverse []).foldl settleOne s)

/-- The slot's earlier accesses to what this access has still to do are applied before it (R249). -/
def settleBefore (a : Access) (s : State) : State := settleAtoms a.slot a.id ((leftAtoms a).map (atomHome s a)) s

/-- Before atoms of a vector access are applied, the slot's earlier accesses to them, and to what the access reads with them, are
applied (R249). -/
def settleParts (ks : List Nat) (a : Access) (s : State) : State :=
  settleAtoms a.slot a.id ((ks ++ atomsOf (scalesLeft a)).map (atomHome s a)) s

/-- An earlier relaxed access of the slot has yet to be granted one of these atoms at another core's scratchpad: this access waits
for it (R27, R249). -/
def farBlocked (ks : List Nat) (a : Access) (s : State) : Bool :=
  let homes := (ks.filter (farAtom s a)).map (atomHome s a)
  (earlierRx a.slot a.id s).any fun x => (leftAtoms x).any fun k => homes.contains (atomHome s x k)

/-! ## Issuing an access -/

/-- The window registers that an access will write. -/
def accRegs (act : AccAct) : List Nat :=
  match act with
  | .load d _ _ => [d]
  | .amo d _ _ _ _ => [d]
  | .vload vd _ _ _ _ => (List.range 8).map (8 * vd + ·)
  | .watch d _ => [d]
  | _ => []

/-- The addresses of an element that decide its checks: its first and last byte, and the first on a second page; each of its
bytes where it reaches the device region, whose divisions an unaligned pattern may cross (R221). -/
def elemProbes (kind : AccKind) (fmt : Nat) (e : Nat × Bool) : List Probe :=
  let last := e.1 + elemBytes fmt - 1
  if elemBytes fmt = 1 then [(e.1, kind)]
  else if inDevice e.1 || inDevice last then (elemAddrs fmt e).map fun va => (va, kind)
  else if e.1 / 2 ^ 16 = last / 2 ^ 16 then [(e.1, kind), (last, kind)]
  else [(e.1, kind), (last / 2 ^ 16 * 2 ^ 16, kind), (last, kind)]

/-- The addresses that decide an access's checks: those of each element, and its scale byte. -/
def probesOf (kind : AccKind) (a : Access) : List Probe :=
  match a.act with
  | .vload _ fmt bl es _ =>
    es.flatMap (elemProbes kind fmt) ++ (if bl = 0 then [] else es.map fun e => (scaleAddr fmt bl e.1, AccKind.read))
  | .vstore fmt bl es _ _ =>
    es.flatMap (elemProbes kind fmt) ++ (if bl = 0 then [] else es.map fun e => (scaleAddr fmt bl e.1, AccKind.read))
  | _ => [(a.va, kind)]

/-- The two atoms of the 64-byte line that holds an address, by their homes. -/
def lineAtoms (s : State) (pages : List Tr) (va : Nat) : Nat × Nat :=
  (homeOf s pages (va / 64 * 64) / 32, homeOf s pages (va / 64 * 64 + 32) / 32)

/-- WATCH has read the value that its thread waits on (R99). -/
def watchHolds (act : AccAct) (regs : List (Nat × Word)) : Bool :=
  match act with
  | .watch d b => regs == [(d, b)]
  | _ => false

/-- A blocking access is applied and its word retires, or a poisoned reply traps (R233 step 10, R261); WATCH parks while the word
is the one it waits on, and its slot watches the line from the read on (R99). -/
def finishAccess (a : Access) (s : State) : Out State :=
  let r := applyAccess a (settleBefore a s)
  if r.bad then trap cPoison (BitVec.ofNat 64 a.va) r.st
  else if watchHolds a.act r.regs then park (.watch (lineAtoms r.st a.pages a.va).1 (lineAtoms r.st a.pages a.va).2) r.st
  else retire (wrAll a.slot r.regs r.st)

/-- A write of the step has come before its turn in the log that is replayed (R257). -/
def isEarly (o : Out State) : Bool :=
  match o with
  | .next t => (match t.replay with | some r => r.early | none => false)
  | _ => false

/-- In a replay, what comes before its turn is held: `held` stands in its place (R257). -/
def inTurn (s : State) (o held : Out State) : Out State :=
  match s.replay with
  | none => o
  | some _ => if isEarly o then held else o

/-- No write has come early yet, and no bank has been asked for. -/
def newTurn (s : State) : State := { s with asked := [], replay := s.replay.map fun r => { r with early := false } }

/-- A delay of an access: bounded, unless the access goes to host memory. DESIGN CHOICE (log entry 6). -/
def capDelay (host : Bool) (d : Nat) : Nat := if host then d else Nat.min d Config.replyBound

/-- A delay for each atom of a list, and the cycle from which each may be applied. -/
def drawDelays (host : Bool) : List Nat → State → List (Nat × Nat) × State
  | [], s => ([], s)
  | k :: ks, s =>
    let (d, s) := popDelay s
    let (l, s) := drawDelays host ks s
    ((k, s.clock + capDelay host d) :: l, s)

/-- The cycles from which the atoms of an access that its core's own banks do not hold may be applied: a delay for each, and one
for all of another core's scratchpad, where the access comes in one piece in a later cycle (R27, R224, R246).
DESIGN CHOICE (log entry 6). DESIGN CHOICE (log entry 16). -/
def drawTimes (host : Bool) (a : Access) (s : State) : List (Nat × Nat) × State :=
  let ks := (atomsOf (partAddrs a)).filter fun k => !ownAtom s a k
  let far := ks.filter (farAtom s a)
  let (l, s) := drawDelays host (ks.filter fun k => !farAtom s a k) s
  if far.isEmpty then (l, s)
  else
    let (d, s) := popDelay s
    (l ++ far.map fun k => (k, s.clock + Nat.max 1 (capDelay host d)), s)

/-- A vector access is applied to its core's own banks as it issues: they have granted it in this cycle (R27, R224). A scalar
access has one atom and is applied whole. -/
def applyOwn (a : Access) (s : State) : Access × State :=
  let ks := (atomsOf (partAddrs a)).filter (ownAtom s a)
  if accVector a.act && !ks.isEmpty then applyAtoms ks a (settleParts ks a s) else (a, s)

/-- A relaxed access that its core's own banks hold whole is complete as it issues; another is applied later (R249). -/
def issueRelaxed (a : Access) (s : State) : State :=
  if a.parts.isEmpty then completeRelaxed a (settleBefore a s)
  else
    let (a, s) := applyOwn a s
    withRelaxed (s.me.relaxed ++ [a]) s

/-- A blocking access that may be applied in the cycle of its issue is, unless a replay holds it (R257); another waits for its
reply. -/
def issueBlocking (a : Access) (s : State) : Out State :=
  let (a, s) := if a.parts.isEmpty then (a, s) else applyOwn a s
  if a.due ≤ s.clock then inTurn s (finishAccess a s) (waitFor (.reply a) s) else waitFor (.reply a) s

/-- The access numbered, with the cycles from which its atoms may be applied. -/
def newAccess (rx : Bool) (va : Nat) (act : AccAct) (pages : List Tr) (s : State) : Access × State :=
  let a : Access :=
    { id := s.me.nextId, slot := s.iss.slot, va := va, pages := pages, act := act, regs := accRegs act, due := s.clock, rx := rx }
  let (parts, s) := drawTimes (pages.any fun t => trTgt t == 1) a s
  ({ a with due := parts.foldl (fun d p => Nat.max d p.2) s.clock, parts := parts },
    { s with me := { s.me with nextId := s.me.nextId + 1 } })

/-- An access that has passed its checks issues (R248, R249): a relaxed one retires at once and is applied later; a
blocking one is applied at its reply, which a delay of the schedule, or its turn in a replay (R257), may put off.
DEDUCED (log entry 12). -/
def issueAccess (rx : Bool) (va : Nat) (act : AccAct) (pages : List Tr) (s : State) : Out State :=
  let slot := s.iss.slot
  let s := { s with me := { s.me with dtlb := touchTlb slot pages s.me.dtlb } }
  if rx && decide (Config.relaxedLimit ≤ (s.me.relaxed.filter fun x => x.slot == slot).length) then waitFor .limit s
  else
    let (a, s) := newAccess rx va act pages s
    if rx then retire (issueRelaxed a s) else issueBlocking a s

/-- What a check comes to for the pair: it parks on a miss, traps, waits to migrate, or goes on with its pages. -/
def onCheck (c : Chk) (s : State) (k : List Tr → State → Out State) : Out State :=
  match c with
  | .ok pages => k pages s
  | .trap cause v => trap cause (BitVec.ofNat 64 v) (onCur (fun x => { x with denied := none }) s)
  | .miss va kind => park (.tlb va kind) s
  | .migrate d m => waitFor (.migrate d m) s
  | .forfeit bs => forfeit bs s

/-- A memory word from its formed address on: checks (R233, R234), then the access. -/
def access (kind : AccKind) (rx vec : Bool) (va : Nat) (act : AccAct) (s : State) : Out State :=
  let a : Access := { id := 0, slot := s.iss.slot, va := va, pages := [], act := act, regs := [], due := 0 }
  onCheck (checkAccess s s.me.dtlb vec (probesOf kind a)) s fun pages s => issueAccess rx va act pages s

end Sys2Proof.Machine
end

