-- ==== Sys2Proof/Machine/Automaton.lean ====
section
/-!
DEFINITION. The learning-automaton array: its words (R378 to R381, R384, R394, R395), its commands and their updates
(R381 to R383, R385), the records of SAMPLE starts (R389 to R391), and soft errors (R394).
-/

namespace Sys2Proof.Machine

/-! ## Cells, literals, inference -/

/-- cell(c, l) (R378). -/
def laCell (m : Automaton) (c l : Nat) : BitVec 8 := spGet (-1) m.cells (512 * c + l)
/-- class(c) (R378). -/
def laClass (m : Automaton) (c : Nat) : Nat := (spGet 0 m.classes c).toNat
/-- Entry e: ACT · 2^8 + THR (R378). -/
def laEntry (m : Automaton) (e : Nat) : Nat := (spGet 0 m.entries e).toNat
/-- Clause c is poisoned (R394). -/
def laBad (m : Automaton) (c : Nat) : Bool := m.poison.toNat / 2 ^ c % 2 == 1

/-- A cell that includes its literal: it is at 0 or above. -/
def included (v : BitVec 8) : Bool := decide (0 ≤ v.toInt)

/-- The value of literal l on features x: feature l, or the negation of feature l - 256 (R382). -/
def litVal (x : BitVec 256) (l : Nat) : Bool :=
  let f := x.toNat / 2 ^ (l % 256) % 2 == 1
  if l < 256 then f else !f

/-- The AND of the included active literals of clause c (R382, R384). An unlisted cell is at -1 and includes nothing. -/
def laOut (m : Automaton) (x : BitVec 256) (nf c : Nat) : Bool :=
  m.cells.all fun e =>
    !(e.1 / 512 == c && decide (e.1 % 256 < nf) && included e.2) || litVal x (e.1 % 512)

/-- The output bits of clauses 0 to 127 (R384). -/
def laOuts (m : Automaton) (x : BitVec 256) : List Bool :=
  (List.range 128).map fun c => decide (c < m.ncl.toNat) && laOut m x m.nf.toNat c

/-- The vote of class k (R384). -/
def laVote (m : Automaton) (outs : List Bool) (k : Nat) : Int :=
  (List.range 128).foldl (fun acc c =>
    if (outs[c]?).getD false && laClass m c == k then (if c % 2 = 0 then acc + 1 else acc - 1) else acc) 0

/-- The result of an inference: votes in lanes 0 to 7, outputs in lanes 8 to 11 (R384). -/
def laInfer (m : Automaton) (x : BitVec 256) : Rec :=
  let outs := laOuts m x
  let votes := (List.range 8).foldl (fun acc k => acc + (BitVec.ofInt 32 (laVote m outs k)).toNat * 2 ^ (32 * k)) 0
  let bits := (List.range 128).foldl (fun acc c => acc + (if (outs[c]?).getD false then 2 ^ c else 0)) 0
  BitVec.ofNat 512 (votes + bits * 2 ^ 256)

/-- The lowest poisoned clause below NCL (R394). -/
def laBadBelow (m : Automaton) : Option Nat := (List.range m.ncl.toNat).find? (laBad m)

/-! ## Training (R382, R383) -/

/-- The draw of cell (c, l) in command n (R383). -/
def laDraw (m : Automaton) (c l : Nat) (n : BitVec 32) : Nat :=
  let x : BitVec 32 := (m.seed ^^^ BitVec.ofNat 32 (m.epoch.toNat * 2 ^ 16 + c * 2 ^ 9 + l)) + n * 0x9E3779B9#32
  let x := x ^^^ (x >>> 15)
  let x := x * 0x2C1B3C6D#32
  let x := x ^^^ (x >>> 12)
  x.toNat / 2 ^ 24

/-- A cell moved by ±1, saturated (R382). -/
def laMove (up : Bool) (v : BitVec 8) : BitVec 8 :=
  if up then (if v = 127#8 then v else v + 1) else (if v = 128#8 then v else v - 1)

/-- The new value of cell (c, l) in a command (R382); `o` is the clause's output before the update. -/
def laStep (m : Automaton) (q : LaCmd) (c : Nat) (o : Bool) (l : Nat) : BitVec 8 :=
  let v := laCell m c l
  let e := laEntry m (8 * (q.op - 1) + 4 * o.toNat + 2 * (litVal q.feat l).toNat + (included v).toNat)
  let act := e / 256
  let thr := e % 256
  if (act = 1 ∨ act = 2) ∧ (thr = 255 ∨ laDraw m c l q.n < thr) then laMove (act == 1) v else v

/-- Clause c after a command has updated it (R382, R394). -/
def laClauseAfter (m : Automaton) (q : LaCmd) (c : Nat) : Automaton :=
  if q.mask.toNat / 2 ^ c % 2 = 1 ∧ !laBad m c then
    let o := laOut m q.feat q.nf c
    let lits := (List.range 512).filter fun l => decide (l % 256 < q.nf)
    { m with cells := spSetAll (-1) m.cells (lits.map fun l => (512 * c + l, laStep m q c o l)) }
  else m

/-! ## The queue -/

/-- A command or record of the array's queue is a pushed command (R381, R390). -/
def laPushed (m : Automaton) : Nat := (m.queue.filter fun q => q.record.isNone).length

/-- The sample queue holds a record, staged or accepted (R390). -/
def laSamples (m : Automaton) : Bool := !m.staged.isEmpty || m.queue.any fun q => q.record.isSome

/-- A command or record is accepted in cycle `now`: training takes a number (R381, R390). -/
def laAccept (now : Nat) (op : Nat) (feat : BitVec 256) (mask : BitVec 128) (record : Option (Nat × Word))
    (slot thread : Nat) (m : Automaton) : Automaton :=
  let q : LaCmd :=
    { op := op, feat := feat, mask := mask, n := m.count, record := record, slot := slot, thread := thread,
      nf := m.nf.toNat, ncl := m.ncl.toNat }
  { m with
    queue := m.queue ++ [q]
    count := if op = 3 then m.count else m.count + 1
    start := if m.queue.isEmpty then now + 1 else m.start
    clause := if m.queue.isEmpty then 0 else m.clause }

/-- The running command is complete; the next one starts in cycle `next` (R381). -/
def laPop (next : Nat) (m : Automaton) : Automaton :=
  { m with queue := m.queue.drop 1, start := next, clause := 0, result := none }

/-- The array, changed. -/
def onLa (f : Automaton → Automaton) (s : State) : State := { s with me := { s.me with la := f s.me.la } }

/-- After a completion: pushers wake on a free entry, and a TGT-2 CARSUB once the sample queue is empty (R381, R390). -/
def laCompleted (s : State) : State :=
  let s := wake (fun w => w == .queue .automaton) s
  if laSamples s.me.la then s else wake (fun w => w == .carSub) s

/-! ## The words -/

/-- LAINF's result reaches vd in the 16th cycle after issue (R384). -/
def execLainf (d a : BitVec 4) (s : State) : Out State :=
  enter ⟨[.v d, .v a], [.v d]⟩ s fun s =>
    match laBadBelow s.me.la with
    | some c => trap cPoison (BitVec.ofNat 64 (512 * c)) s
    | none =>
      let x : BitVec 256 := (recOf (rdV s a)).setWidth 256
      waitFor (.lainf (s.clock + 16) d.toNat (laInfer s.me.la x)) s

/-- LAFB1 and LAFB2 (R381). -/
def lafb (op : Nat) (d : BitVec 7) (a : BitVec 4) (s : State) : Out State :=
  if 4 ≤ laPushed s.me.la then park (.queue .automaton) s
  else
    let r := recOf (rdV s a)
    let n := s.me.la.count
    retireWr d (n.setWidth 64)
      (onLa (laAccept s.clock op (r.setWidth 256) (r.extractLsb' 256 128) none s.iss.slot (cur s).thread) s)

/-- LAFB1 (R381). -/
def execLafb1 (d : BitVec 7) (a : BitVec 4) (s : State) : Out State :=
  enter ⟨[.g d, .v a], [.g d]⟩ s fun s => lafb 1 d a s

/-- LAFB2 (R381). -/
def execLafb2 (d : BitVec 7) (a : BitVec 4) (s : State) : Out State :=
  enter ⟨[.g d, .v a], [.g d]⟩ s fun s => lafb 2 d a s

/-- SPACE of an index word (R378). -/
def laSpace (a : Word) : Nat := bits a 16 2
/-- CLAUSE -/
def laClauseOf (a : Word) : Nat := bits a 9 7
/-- LIT -/
def laLit (a : Word) : Nat := bits a 0 9

/-- The index word names an item (R378). -/
def laIndexOk (a : Word) : Bool :=
  decide (a.toNat < 2 ^ 18) && (match laSpace a with
    | 0 => true
    | 1 => laLit a == 0
    | 2 => laClauseOf a == 0 && decide (laLit a < 16)
    | _ => laClauseOf a == 0 && decide (laLit a ≤ 4))

/-- The value of an item (R378). -/
def laItem (m : Automaton) (a : Word) : Word :=
  match laSpace a with
  | 0 => (laCell m (laClauseOf a) (laLit a)).signExtend 64
  | 1 => BitVec.ofNat 64 (laClass m (laClauseOf a))
  | 2 => BitVec.ofNat 64 (laEntry m (laLit a))
  | _ => match laLit a with
    | 0 => m.seed.setWidth 64
    | 1 => m.epoch.setWidth 64
    | 2 => m.count.setWidth 64
    | 3 => m.nf.setWidth 64
    | _ => m.ncl.setWidth 64

/-- The index names an item that LAWR may write (R380). -/
def laWritable (a : Word) : Bool := laIndexOk a && !(laSpace a == 3 && decide (laLit a < 3))

/-- The value lies in the item's range (R378, R380). -/
def laInRange (a b : Word) : Bool :=
  match laSpace a with
  | 0 => decide (-128 ≤ b.toInt) && decide (b.toInt ≤ 127)
  | 1 => decide (b.toNat < 8)
  | 2 => decide (b.toNat < 3 * 256)
  | _ => decide (1 ≤ b.toNat) && decide (b.toNat ≤ if laLit a = 3 then 256 else 128)

/-- An item written (R380). -/
def laWrite (a b : Word) (m : Automaton) : Automaton :=
  match laSpace a with
  | 0 => { m with cells := spSet (-1) m.cells (512 * laClauseOf a + laLit a) (b.setWidth 8) }
  | 1 => { m with classes := spSet 0 m.classes (laClauseOf a) (b.setWidth 3) }
  | 2 => { m with entries := spSet 0 m.entries (laLit a) (b.setWidth 10) }
  | _ => if laLit a = 3 then { m with nf := b.setWidth 9 } else { m with ncl := b.setWidth 8 }

/-- Every cell written, every mark cleared (R380, R394). -/
def laClear (v : BitVec 8) (m : Automaton) : Automaton :=
  { m with
    cells := if v = (-1 : BitVec 8) then [] else (List.range 65536).map fun k => (k, v)
    poison := 0 }

/-- What LARD, LAWR, LASEED and LACLR do once the array is drained (R380, R394). `form` is the fn4. -/
def laAct (form d : Nat) (a b : Word) (s : State) : Out State :=
  match form with
  | 3 =>
    if laSpace a = 0 ∧ laBad s.me.la (laClauseOf a) then trap cPoison a s
    else retire (wrN d (laItem s.me.la a) s)
  | 4 => retire (onLa (laWrite a b) s)
  | 5 => retire (onLa (fun m => { m with seed := a.setWidth 32, epoch := b.setWidth 16, count := 0 }) s)
  | _ => retire (onLa (laClear (a.setWidth 8)) s)

/-- The wait for the drain, or the effect at once (R380). -/
def laDrained (form d : Nat) (a b : Word) (s : State) : Out State :=
  if s.me.la.queue.isEmpty then laAct form d a b s else waitFor (.laDrain form d a b) s

/-- LARD (R380). -/
def execLard (d a : BitVec 7) (s : State) : Out State :=
  enter ⟨[.g d, .g a], [.g d]⟩ s fun s =>
    if !laIndexOk (rd s a) then trap cIllegal (rd s a) s else laDrained 3 d.toNat (rd s a) 0 s

/-- LAWR (R380). -/
def execLawr (a b : BitVec 7) (s : State) : Out State :=
  enter ⟨[.g a, .g b], []⟩ s fun s =>
    if !laWritable (rd s a) then trap cIllegal (rd s a) s
    else if !laInRange (rd s a) (rd s b) then trap cIllegal (rd s b) s
    else laDrained 4 0 (rd s a) (rd s b) s

/-- LASEED (R380). -/
def execLaseed (a b : BitVec 7) (s : State) : Out State :=
  enter ⟨[.g a, .g b], []⟩ s fun s =>
    if 2 ^ 32 ≤ (rd s a).toNat then trap cIllegal (rd s a) s
    else if 2 ^ 16 ≤ (rd s b).toNat then trap cIllegal (rd s b) s
    else laDrained 5 0 (rd s a) (rd s b) s

/-- LACLR (R380). -/
def execLaclr (a : BitVec 7) (s : State) : Out State :=
  enter ⟨[.g a], []⟩ s fun s =>
    if 2 ^ 8 ≤ (rd s a).toNat then trap cIllegal (rd s a) s else laDrained 6 0 (rd s a) 0 s

/-! ## The array's own steps -/

/-- The cycle in which the running training command's next clause takes effect, or in which a command over no clause
is complete (R382). -/
def laNextUpdate (m : Automaton) (q : LaCmd) : Nat := if q.ncl = 0 then m.start else m.start + 64 * m.clause + 64

/-- LA_CLAUSE_UPDATE (R382, R385): the running command's next clause takes effect. -/
def execLaClauseUpdate (s : State) : Out State :=
  match s.me.la.queue with
  | q :: _ =>
    if q.op = 3 ∨ s.clock < laNextUpdate s.me.la q then .refused (.notDue "LA_CLAUSE_UPDATE")
    else
      let s := onLa (fun m =>
        let m := if m.clause < q.ncl then laClauseAfter m q m.clause else m
        { m with clause := m.clause + 1 }) s
      if q.ncl ≤ s.me.la.clause then .next (laCompleted (onLa (fun m => laPop (m.start + 64 * q.ncl) m) s)) else .next s
  | [] => .refused (.notDue "LA_CLAUSE_UPDATE")

/-- The 64 bytes of a record, lowest first. -/
def recBytes (r : Rec) : List Byte := (List.range 64).map fun k => r.extractLsb' (8 * k) 8

/-- INFERENCE_RECORD (R391, R394): the record reads the bank in its first cycle; in its last cycle its result goes to the core's
own scratchpad, as its bank is granted (R27), marked if a clause that it read was poisoned. -/
def execInferenceRecord (s : State) : Out State :=
  match s.me.la.queue with
  | q :: _ =>
    match q.record, s.me.la.result with
    | some _, none =>
      if q.op ≠ 3 ∨ s.clock < s.me.la.start then .refused (.notDue "INFERENCE_RECORD")
      else .next (onLa (fun m => { m with result := some (laInfer m q.feat, (laBadBelow m).isSome) }) s)
    | some (pos, user), some (val, bad) =>
      if q.op ≠ 3 ∨ s.clock < s.me.la.start + 15 then .refused (.notDue "INFERENCE_RECORD")
      else
        let h := scratchHome s.me.num ((bits user 6 13 * 64 + 64 * pos) % 2 ^ 19)
        let s := writeBytes ⟨s.me.num, 15, 2⟩ ((recBytes val).mapIdx fun k b => (h + k, b)) s
        let s := if bad then { s with poison := s.poison ++ [h / 32, h / 32 + 1] } else s
        .next (laCompleted (onLa (laPop (s.clock + 1)) s))
    | none, _ => .refused (.notDue "INFERENCE_RECORD")
  | [] => .refused (.notDue "INFERENCE_RECORD")

/-- CELL_SOFT_ERROR (R394): an uncorrectable error poisons its clause, and firmware receives a report. -/
def execCellSoftError (clause : Nat) (s : State) : Out State :=
  .next (onLa (fun m => { m with poison := m.poison ||| BitVec.ofNat 128 (2 ^ clause) })
    { s with fw := { s.fw with reports := s.fw.reports ++ [2 ^ 59 + clause] } })

/-! ## Records of a caught start (R389, R390) -/

/-- OP of a record as it counts: a reserved OP or a nonzero reserved byte makes it 0 (R389). -/
def sampleOp (r : Rec) : Nat :=
  let op := recNat r 48 1
  if 4 ≤ op ∨ recNat r 49 15 ≠ 0 then 0 else op

/-- The records of a start are accepted at its last block, in record order (R390). -/
def laAcceptStaged (slot thread : Nat) (user : Word) (s : State) : State :=
  let rs := s.me.la.staged
  let s := onLa (fun m => { m with staged := [] }) s
  onLa (fun m => (rs.zipIdx).foldl (fun m e =>
    let op := sampleOp e.1
    if op = 0 then m
    else laAccept s.clock op (e.1.setWidth 256) (e.1.extractLsb' 256 128) (some (e.2, user)) slot thread m) m) s

end Sys2Proof.Machine
end

