-- ==== Sys2Proof/Machine/Geometry.lean ====
section
/-!
DEFINITION. The intersection tests (R191 to R195), as the words BOXT, TRIT and SPLT run them and as the intersection unit
runs them on a caught record (R169).
-/

namespace Sys2Proof.Machine

/-- Sixteen 32-bit lanes of a record or of a vector register (R31). -/
abbrev Lanes := Nat → BitVec 32

/-- The value of an FP32 lane. -/
def laneNum (l : Lanes) (j : Nat) : Num := unpack fmtS (l j).toNat

/-- A real zero has no sign: it rounds to +0. DEDUCED (log entry 31). -/
def plainZero (x : Num) : Num := match x with | .fin _ 0 _ => .fin false 0 0 | y => y

/-- What a missed test writes (R191). -/
def missWord : Word := BitVec.allOnes 64

/-- A three-vector of exact values. -/
abbrev Vec3 := Nat → Num

/-- Lanes j, j+1, j+2 as a three-vector. -/
def vec3 (l : Lanes) (j : Nat) : Vec3 := fun k => laneNum l (j + k)
/-- x - y -/
def sub3 (x y : Vec3) : Vec3 := fun k => addN (x k) (negN (y k))
/-- x · (y × z), exact (R193). -/
def det3 (x y z : Vec3) : Num :=
  let c (i j : Nat) : Num := addN (mulN (y i) (z j)) (negN (mulN (y j) (z i)))
  addN (mulN (x 0) (c 1 2)) (addN (mulN (x 1) (c 2 0)) (mulN (x 2) (c 0 1)))

/-- A NaN among the FP32 inputs, an infinite origin or direction component, or tmin > tmax: every test misses (R191). -/
def rayMisses (ray rec : Lanes) (reads : List Nat) : Bool :=
  (List.range 8).any (fun j => isNan (laneNum ray j)) || reads.any (fun j => isNan (laneNum rec j)) ||
    (List.range 6).any (fun j => !isFin (laneNum ray j)) || ltN (laneNum ray 7) (laneNum ray 6)

/-- The slab of axis k: nothing for a miss, else lo and hi, rounded outward (R192). -/
def slab (ray rec : Lanes) (k : Nat) : Option (Nat × Nat) :=
  let o := laneNum ray k
  let d := laneNum ray (3 + k)
  let mn := laneNum rec (2 + k)
  let mx := laneNum rec (5 + k)
  if ltN mx mn then none
  else if eqN d (.fin false 0 0) then
    if leN mn o && leN o mx then some (fmtS.signBit + fmtS.infPat, fmtS.infPat) else none
  else
    let p := plainZero (divN (addN mn (negN o)) d)
    let q := plainZero (divN (addN mx (negN o)) d)
    some (fMin fmtS (roundTo fmtS .rd p) (roundTo fmtS .rd q), fMax fmtS (roundTo fmtS .ru p) (roundTo fmtS .ru q))

/-- Two FP32 patterns packed as a result. DEDUCED (log entry 31). -/
def packHit (hi lo : Nat) : Word := BitVec.ofNat 64 (hi * 2 ^ 32 + lo)

/-- BOXT (R192). -/
def boxTest (ray rec : Lanes) : Option Word :=
  if rayMisses ray rec [2, 3, 4, 5, 6, 7] then none
  else
    match slab ray rec 0, slab ray rec 1, slab ray rec 2 with
    | some (lx, hx), some (ly, hy), some (lz, hz) =>
      let entry := fMax fmtS (fMax fmtS lx ly) lz
      let exit_ := fMin fmtS (fMin fmtS hx hy) hz
      let tmin := (ray 6).toNat
      let tmax := (ray 7).toNat
      let le (a b : Nat) : Bool := leN (unpack fmtS a) (unpack fmtS b)
      if le entry exit_ && le entry tmax && le tmin exit_
      then some (packHit (fMax fmtS entry tmin) (fMin fmtS exit_ tmax))
      else none
    | _, _, _ => none

/-- The hit at t = RNE(n / s), or a miss where t is infinite or outside the ray's range (R193, R195). -/
def hitAt (ray : Lanes) (n s : Num) (id : BitVec 32) : Option Word :=
  let t := roundTo fmtS .rne (plainZero (divN n s))
  let x := unpack fmtS t
  if !isFin x || ltN x (laneNum ray 6) || ltN (laneNum ray 7) x then none else some (packHit t id.toNat)

/-- The value is zero. -/
def isZero (x : Num) : Bool := eqN x (.fin false 0 0)
/-- The value is at least zero. -/
def nonNeg (x : Num) : Bool := leN (.fin false 0 0) x
/-- The value is at most zero. -/
def nonPos (x : Num) : Bool := leN x (.fin false 0 0)

/-- TRIT (R193). -/
def triTest (ray rec : Lanes) : Option Word :=
  if rayMisses ray rec [2, 3, 4, 5, 6, 7, 8, 9, 10] || [2, 3, 4, 5, 6, 7, 8, 9, 10].any (fun j => !isFin (laneNum rec j))
  then none
  else
    let o := vec3 ray 0
    let d := vec3 ray 3
    let e0 := sub3 (vec3 rec 2) o
    let e1 := sub3 (vec3 rec 5) o
    let e2 := sub3 (vec3 rec 8) o
    let w0 := det3 d e1 e2
    let w1 := det3 d e2 e0
    let w2 := det3 d e0 e1
    let sum := addN w0 (addN w1 w2)
    if isZero sum then none
    else if (nonNeg w0 && nonNeg w1 && nonNeg w2) || (nonPos w0 && nonPos w1 && nonPos w2)
    then hitAt ray (det3 e0 e1 e2) sum (rec 1)
    else none

/-- SPLT (R195): c in lanes 2 to 4, u in 5 to 7, w in 8 to 10, CUT in lane 11. -/
def splatTest (ray rec : Lanes) : Option Word :=
  if rayMisses ray rec [2, 3, 4, 5, 6, 7, 8, 9, 10, 11] ||
    [2, 3, 4, 5, 6, 7, 8, 9, 10].any (fun j => !isFin (laneNum rec j))
  then none
  else
    let d := vec3 ray 3
    let g := sub3 (vec3 rec 2) (vec3 ray 0)
    let u := vec3 rec 5
    let w := vec3 rec 8
    let dd := det3 d u w
    let a := det3 d g w
    let b := det3 d u g
    let cut := laneNum rec 11
    if isZero dd || ltN cut (.fin false 0 0) then none
    else if ltN (mulN cut (mulN dd dd)) (addN (mulN a a) (mulN b b)) then none
    else hitAt ray (det3 g u w) dd (rec 1)

/-- The lanes of eight register words. -/
def lanesOfWords (ws : List Word) : Lanes := fun j => lane32 ws j

/-- BOXT (R191, R192). -/
def execBoxt (d : BitVec 7) (a b : BitVec 4) (s : State) : Out State :=
  enter ⟨[.g d, .v a, .v b], [.g d]⟩ s fun s =>
    retireWr d ((boxTest (lanesOfWords (rdV s a)) (lanesOfWords (rdV s b))).getD missWord) s

/-- TRIT (R191, R193): a hold of 2 turns. -/
def execTrit (d : BitVec 7) (a b : BitVec 4) (s : State) : Out State :=
  enter ⟨[.g d, .v a, .v b], [.g d]⟩ s fun s =>
    hold 2 (pendG d ((triTest (lanesOfWords (rdV s a)) (lanesOfWords (rdV s b))).getD missWord)) s

/-- SPLT (R191, R195): a hold of 3 turns. -/
def execSplt (d : BitVec 7) (a b : BitVec 4) (s : State) : Out State :=
  enter ⟨[.g d, .v a, .v b], [.g d]⟩ s fun s =>
    hold 3 (pendG d ((splatTest (lanesOfWords (rdV s a)) (lanesOfWords (rdV s b))).getD missWord)) s

end Sys2Proof.Machine
end

