-- ==== Sys2Proof/Machine/Rays.lean ====
section
/-!
DEFINITION. The ray pool: segment selectors (R150), what goes to the carousel controller (R147), the words RAYPUT, RAYGET,
RAYSUB, HITPOP and RAYKILL (R186 to R189), and the intersection unit's tests of caught records (R162 to R174).
-/

namespace Sys2Proof.Machine

/-! ## Tracks, selectors, the way to the controller -/

/-- Track t. -/
def trackAt (s : State) (t : Nat) : Track := spGet startTrack s.tracks t
/-- Track t, set. -/
def setTrack (t : Nat) (v : Track) (s : State) : State := { s with tracks := spSet startTrack s.tracks t v }

/-- A segment that no timetable holds. -/
def noSegment : Segment := { kind := 0, len := 0, src := 0, user := 0, hold := false }
/-- The segment at entry e of track t. -/
def segAt (s : State) (t e : Nat) : Segment := ((trackAt s t).segs[e]?).getD noSegment

/-- Why a selector traps, if it does (R150). -/
def selFault (s : State) (w : Word) : Option (BitVec 5) :=
  if w.toNat / 2 ^ 12 ≠ 0 then some cIllegal
  else if !s.ctx.tracks.contains (w.toNat / 256) then some cPerm
  else if (trackAt s (w.toNat / 256)).segs.length ≤ w.toNat % 256 then some cIllegal
  else none

/-- A word goes on with the track and the entry of its selector, or traps (R150, R176). -/
def withSel (w : Word) (s : State) (k : Nat → Nat → State → Out State) : Out State :=
  match selFault s w with
  | some c => trap c w s
  | none => k (w.toNat / 256) (w.toNat % 256) s

/-- A word goes on with its ray index, or traps (R176). -/
def withRay (w : Word) (s : State) (k : Nat → State → Out State) : Out State :=
  if 4096 ≤ w.toNat then trap cIllegal w s else k w.toNat s

/-- What a word of the issuing slot sends to the controller, which takes it 64 cycles later (R147). -/
def ctlSend (track : Nat) (what : CtlWhat) (s : State) : State :=
  { s with ctl := s.ctl ++ [⟨s.clock + 64, s.me.num, s.iss.slot, track, what⟩] }

/-- A new subscription of the core acting, under the package's next number (R147, R155). -/
def ctlSubscribe (track entry : Nat) (s : State) : State :=
  ctlSend track (.sub ⟨s.serial, s.me.num, track, entry, s.clock, false⟩) { s with serial := s.serial + 1 }

/-- The controller no longer holds subscription `id`: it has completed. -/
def forgetSub (id : Nat) (s : State) : State :=
  { s with
    taken := s.taken.filter fun t => t.id != id
    ctl := s.ctl.filter fun m => match m.what with | .sub t => t.id != id | _ => true }

/-- A start of the entry that has been called begins after cycle `retired` (R147). -/
def calledAfter (s : State) (track entry retired : Nat) : Bool :=
  (trackAt s track).starts.any fun x => x.entry == entry && decide (retired < x.slot)

/-- Subscription `id` stays and catches the next start of its segment to begin after now (R135, R162, R167, R174). -/
def recatchSub (id : Nat) (s : State) : State :=
  { s with
    taken := s.taken.map fun t =>
      if t.id = id then { t with retired := s.clock, covered := calledAfter s t.track t.entry s.clock } else t
    ctl := s.ctl.map fun m => match m.what with
      | .sub t => if t.id = id then { m with what := .sub { t with retired := s.clock, covered := false } } else m
      | _ => m }

/-! ## Ray records in scratchpad (R163 to R166) -/

/-- The home of a byte of ray i's record. -/
def rayHome (s : State) (i off : Nat) : Nat := scratchHome s.me.num (64 * i + off)

/-- n bytes of ray i's record, little-endian. -/
def rayNat (s : State) (i off n : Nat) : Nat := leNat ((List.range n).map fun k => memAt s (rayHome s i (off + k)))

/-- The unit writes n bytes of ray i's record. -/
def rayPut (i off n v : Nat) (s : State) : State :=
  writeBytes ⟨s.me.num, 15, 2⟩ ((leBytes n v).mapIdx fun k b => (rayHome s i (off + k), b)) s

/-- The lanes of ray i's record. -/
def rayLanes (s : State) (i : Nat) : Lanes := fun j => BitVec.ofNat 32 (rayNat s i (4 * j) 4)

/-- Bit n of FLAGS set (R166). -/
def raySetFlag (n i : Nat) (s : State) : State := rayPut i 40 1 (rayNat s i 40 1 ||| 2 ^ n) s

/-- ORD of ray i's record (R166). -/
def rayOrd (s : State) (i : Nat) : Bool := rayNat s i 40 1 % 2 == 1

/-- The ray is live (R163). -/
def rayLive (s : State) (i : Nat) : Bool := s.me.live.contains i

/-- The subscriptions that ray i holds with V = 1. A store of the program to a SUB word of a live record changes DIST, which
the unit reads there, and no subscription. DESIGN CHOICE (log entry 75). -/
def raySubsOf (s : State) (i : Nat) : List RaySub := s.me.raySubs.filter fun x => x.ray == i

/-- The side list of ray i (R172). -/
def sideOf (s : State) (i : Nat) : List (Word × Nat) := spGet [] s.me.side i

/-- The side list of ray i, set. -/
def setSide (i : Nat) (l : List (Word × Nat)) (s : State) : State :=
  { s with me := { s.me with side := spSet [] s.me.side i l } }

/-- The entries that the core's side lists hold (R172). -/
def sideTotal (s : State) : Nat := s.me.side.foldl (fun n e => n + e.2.length) 0

/-- CARWAIT.RAY wakes once its ray holds no subscription (R184). -/
def rayWake (i : Nat) (s : State) : State := if (raySubsOf s i).isEmpty then wake (fun w => w == .carRay i) s else s

/-- The test of ray i that is under way: starts of one track follow one another, and a ray may have caught the next before
the unit has tested the last record of the one before (R162, R167). -/
def firstTest (s : State) (i : Nat) : Option RayTest := s.me.tests.find? fun t => t.ray == i

/-- The unit comes to the start that a test is against (R169): UT := 1, SKIP := 0, and what a cut pass goes back to. -/
def openTest (t : RayTest) (s : State) : State :=
  let hi := 48 + 4 * t.sub + 3
  let u : RayTest :=
    { t with
      skip := 0, tmax0 := BitVec.ofNat 32 (rayNat s t.ray 28 4), hit0 := BitVec.ofNat 32 (rayNat s t.ray 32 4)
      side0 := sideOf s t.ray, dist0 := BitVec.ofNat 16 (rayNat s t.ray (48 + 4 * t.sub) 2) }
  let s := rayPut t.ray hi 1 (rayNat s t.ray hi 1 ||| 64) (rayPut t.ray 42 2 0 s)
  { s with me := { s.me with tests := s.me.tests.map fun x => if x = t then u else x } }

/-- The next test of ray i, if it has caught another start, is under way. -/
def nextTest (i : Nat) (s : State) : State := match firstTest s i with | some t => openTest t s | none => s

/-- A visit of the unit to ray i's record waits its turn (R27). -/
def askVisit (kind : VisitKind) (ray sub start : Nat) (s : State) : State :=
  { s with me := { s.me with work := s.me.work ++ [⟨kind, ray, sub, start⟩] } }

/-- The visits that the test takes for over are made no more. -/
def dropVisits (p : RayVisit → Bool) (s : State) : State :=
  { s with me := { s.me with work := s.me.work.filter fun v => !p v } }

/-- Ray subscription x is gone: its SUB word is 0 and neither a test nor a visit of it is left. -/
def raySubGone (x : RaySub) (s : State) : State :=
  let ends := match firstTest s x.ray with | some t => t.sub == x.sub | none => false
  let s := dropVisits (fun v => v.ray == x.ray && v.sub == x.sub && v.kind != .late) s
  let s := rayWake x.ray (rayPut x.ray (48 + 4 * x.sub) 4 0
    { s with me := { s.me with
      raySubs := s.me.raySubs.filter fun y => y.id != x.id
      tests := s.me.tests.filter fun t => !(t.ray == x.ray && t.sub == x.sub) } })
  if ends then nextTest x.ray s else s

/-- Ray subscription x withdrawn (R147, R189). -/
def raySubWithdraw (x : RaySub) (s : State) : State := ctlSend (x.sel / 256) (.unsub x.id) (raySubGone x s)

/-- Ray subscription x complete (R165). -/
def raySubComplete (x : RaySub) (s : State) : State := forgetSub x.id (raySubGone x s)

/-! ## RAYPUT, RAYGET, RAYSUB, HITPOP, RAYKILL -/

/-- The homes of ray i's record. -/
def rayHomes (s : State) (i : Nat) : List Nat := (List.range 64).map (rayHome s i)

/-- A word that accesses the records of rays: its grant at their banks (R27). The thread's earlier accesses to the records, in its
core's own scratchpad, were applied as they issued (R249). -/
def onRecords (l : List Nat) (s : State) (k : State → Out State) : Out State :=
  let hs := l.flatMap (rayHomes s)
  if banksBusy s hs then forfeit (ownBanks s hs) s else k s

/-- A word that accesses ray i's record. -/
def onRecord (i : Nat) (s : State) (k : State → Out State) : Out State := onRecords [i] s k

/-- The 64 bytes that RAYPUT leaves of a record (R186): bytes 39:0 and FLAGS<3:0>. -/
def rayPutBytes (r : Rec) : Nat := r.toNat % 2 ^ 320 + r.toNat / 2 ^ 320 % 16 * 2 ^ 320

/-- RAYPUT (R186). -/
def execRayput (d : BitVec 4) (a : BitVec 7) (s : State) : Out State :=
  enter ⟨[.v d, .g a], []⟩ s fun s => withRay (rd s a) s fun i s =>
    if !(raySubsOf s i).isEmpty then trap cSchedule (rd s a) s
    else onRecord i s fun s =>
      let l := (leBytes 64 (rayPutBytes (recOf (rdV s d)))).mapIdx fun k b => (rayHome s i k, b)
      let s := setSide i [] (writeBytes ⟨s.me.num, s.iss.slot, 0⟩ l s)
      retire { s with me := { s.me with live := if rayLive s i then s.me.live else i :: s.me.live } }

/-- RAYGET (R186). DEDUCED (log entry 30). -/
def execRayget (d : BitVec 4) (a : BitVec 7) (s : State) : Out State :=
  enter ⟨[.v d, .g a], [.v d]⟩ s fun s => withRay (rd s a) s fun i s => onRecord i s fun s =>
    retireV d ((List.range 8).map fun k => BitVec.ofNat 64 (rayNat s i (8 * k) 8)) s

/-- A DIST as it compares: NaN counts as -Inf (R173, R187). -/
def distVal (x : Nat) : Num := match unpack fmtH x with | .nan => .inf true | y => y

/-- RAYSUB (R187). Where the old DIST and the new one compare equal and differ in their bits, as +0 and -0 or NaN and -Inf do, the
old pattern stays: the spec does not say which one does. DESIGN CHOICE (log entry 75). -/
def execRaysub (d a b : BitVec 7) (s : State) : Out State :=
  enter ⟨[.g d, .g a, .g b], [.g d]⟩ s fun s => withSel (rd s b) s fun t e s => withRay (rd s a) s fun i s =>
    let kind := (segAt s t e).kind
    let dist := (rd s d).toNat % 2 ^ 16
    if kind ≠ 1 ∧ kind ≠ 2 then trap cIllegal (rd s b) s
    else if !rayLive s i then trap cSchedule (rd s a) s
    else onRecord i s fun s =>
      match (raySubsOf s i).find? fun x => x.sel == t * 256 + e with
      | some x =>
        let s := if ltN (distVal dist) (distVal (rayNat s i (48 + 4 * x.sub) 2))
          then rayPut i (48 + 4 * x.sub) 2 dist s else s
        retireWr d (BitVec.ofNat 64 x.sub) s
      | none =>
        match (List.range 4).find? fun j => !(raySubsOf s i).any fun x => x.sub == j with
        | none => retireWr d (BitVec.allOnes 64) s
        | some j =>
          let x : RaySub := ⟨s.serial, i, j, t * 256 + e, kind, s.clock⟩
          let s := ctlSubscribe t e (rayPut i (48 + 4 * j) 4 (2 ^ 31 + t * 2 ^ 24 + e * 2 ^ 16 + dist) s)
          retireWr d (BitVec.ofNat 64 j) { s with me := { s.me with raySubs := s.me.raySubs ++ [x] } }

/-- The release frontier of ray i (R173). -/
def frontier (s : State) (i : Nat) : Num :=
  (raySubsOf s i).foldl (fun f x =>
    let v := distVal (rayNat s i (48 + 4 * x.sub) 2)
    if ltN v f then v else f) (.inf false)

/-- t of a side-list entry. -/
def hitT (w : Word) : Num := unpack fmtS (w.toNat / 2 ^ 32)

/-- HITPOP (R188). -/
def execHitpop (d a : BitVec 7) (s : State) : Out State :=
  enter ⟨[.g d, .g a], [.g d]⟩ s fun s => withRay (rd s a) s fun i s =>
    match sideOf s i with
    | e :: l =>
      if !rayLive s i then retireWr d (BitVec.allOnes 64) s
      else onRecord i s fun s =>
        if leN (hitT e.1) (frontier s i) then retireWr d e.1 (setSide i l s) else retireWr d (BitVec.allOnes 64) s
    | [] => retireWr d (BitVec.allOnes 64) s

/-- The unit is done with ray i, of which it has nothing left to write (R189). -/
def leaveRay (i : Nat) (s : State) : State :=
  dropVisits (fun v => v.ray == i) { s with me := { s.me with tests := s.me.tests.filter fun t => t.ray != i } }

/-- RAYKILL (R189): what the unit has written before stays, and it writes the killed record no more. -/
def execRaykill (d a : BitVec 7) (s : State) : Out State :=
  enter ⟨[.g d, .g a], [.g d]⟩ s fun s => withRay (rd s a) s fun i s =>
    if !rayLive s i then retireWr d 0 s
    else onRecord i s fun s =>
      let s := leaveRay i s
      let subs := raySubsOf s i
      let n := (sideOf s i).length
      let s := setSide i [] (subs.foldl (fun s x => raySubWithdraw x s) s)
      retireWr d (BitVec.ofNat 64 (n * 256 + subs.length))
        { s with me := { s.me with live := s.me.live.filter fun j => j != i } }

/-! ## Passes that are cut, and hits -/

/-- The subscription of the test t catches the next start of its segment to begin after now. -/
def catchNext (t : RayTest) (s : State) : State :=
  let s := { s with me := { s.me with
    raySubs := s.me.raySubs.map fun (x : RaySub) => if x.ray = t.ray ∧ x.sub = t.sub then { x with retired := s.clock } else x } }
  (s.me.raySubs.filter fun x => x.ray == t.ray && x.sub == t.sub).foldl (fun s x => recatchSub x.id s) s

/-- The test t ends before its start does: UT := 0. -/
def endTest (t : RayTest) (s : State) : State :=
  let s := { s with me := { s.me with tests := s.me.tests.filter fun u => u != t } }
  let hi := 48 + 4 * t.sub + 3
  rayPut t.ray hi 1 (rayNat s t.ray hi 1 % 64 + rayNat s t.ray hi 1 / 128 * 128) s

/-- The test t ends before its start does, and `f` is what it leaves of the pass; if it was under way, SKIP := 0 and the
ray's next test is under way. -/
def cutTest (t : RayTest) (f : State → State) (s : State) : State :=
  let first := firstTest s t.ray == some t
  let s := f (endTest t s)
  if first then nextTest t.ray (rayPut t.ray 42 2 0 s) else s

/-- The ordered hits of a pass are dropped (R135, R162, R190). -/
def dropPass (ray start : Nat) (s : State) : State := setSide ray ((sideOf s ray).filter fun e => e.2 != start) s

/-- A test whose blocks have overrun the ring, as the unit visits its record (R162). -/
def overrunTest (t : RayTest) (s : State) : State :=
  cutTest t (fun s =>
    raySetFlag 3 t.ray (rayPut t.ray (48 + 4 * t.sub) 2 t.dist0.toNat (dropPass t.ray t.start s))) s

/-- A test that met a poisoned block (R174). The ray's side list is put back whole, with the entries that HITPOP has released since
and whatever other rays have stored meanwhile, so that the store may hold more than 256. DESIGN CHOICE (log entry 75). -/
def taintTest (t : RayTest) (s : State) : State :=
  cutTest t (fun s =>
    raySetFlag 1 t.ray (rayPut t.ray 28 8 (t.tmax0.toNat + t.hit0.toNat * 2 ^ 32) (setSide t.ray t.side0 s))) (catchNext t s)

/-- Entry v comes before entry w: by t, then by id (R172). -/
def hitBefore (v w : Word) : Bool :=
  ltN (hitT v) (hitT w) || (eqN (hitT v) (hitT w) && decide (v.toNat % 2 ^ 32 < w.toNat % 2 ^ 32))

/-- A side list with one more entry in its place. -/
def sideInsert (e : Word × Nat) : List (Word × Nat) → List (Word × Nat)
  | [] => [e]
  | x :: l => if hitBefore e.1 x.1 then e :: x :: l else x :: sideInsert e l

/-- An ordered hit within the ray's range (R172). -/
def acceptOrdered (t : RayTest) (w : Word) (s : State) : State :=
  let l := sideOf s t.ray
  if l.length = 4 then raySetFlag 2 t.ray (setSide t.ray ((sideInsert (w, t.start) l).take 4) s)
  else if 256 ≤ sideTotal s then raySetFlag 2 t.ray s
  else setSide t.ray (sideInsert (w, t.start) l) s

/-- A closest hit within the ray's range (R171, R172). -/
def acceptClosest (i : Nat) (w : Word) (s : State) : State :=
  let tmax := unpack fmtS (rayNat s i 28 4)
  let id := w.toNat % 2 ^ 32
  if ltN (hitT w) tmax || (eqN (hitT w) tmax && decide (id < rayNat s i 32 4)) then
    setSide i ((sideOf s i).filter fun e => !ltN (hitT w) (hitT e.1)) (rayPut i 28 8 (w.toNat / 2 ^ 32 + id * 2 ^ 32) s)
  else s

/-! ## RECORD_TEST (R162, R168, R169) -/

/-- Test t goes on with a skip count of n. -/
def setSkip (t : RayTest) (n : Nat) (s : State) : State :=
  let s := { s with me := { s.me with tests := s.me.tests.map fun u => if u = t then { t with skip := n } else u } }
  if Nat.min t.skip 0xFFFF = Nat.min n 0xFFFF then s else rayPut t.ray 42 2 (Nat.min n 0xFFFF) s

/-- One record against one ray that is not skipping it, whose record the unit reads (R27, R169). -/
def testRecord (rec : Lanes) (t : RayTest) (s : State) : State :=
  let s := if (rec 0).toNat = 0 ∨ 3 < (rec 0).toNat then s else askBanks [rayHome s t.ray 0] s
  match (rec 0).toNat with
  | 1 => if (boxTest (rayLanes s t.ray) rec).isSome then s else setSkip t (rec 1).toNat s
  | 2 =>
    match triTest (rayLanes s t.ray) rec with
    | some w =>
      if (rec 11).toNat % 2 = 0 then acceptClosest t.ray w s
      else if rayOrd s t.ray then acceptOrdered t w s else s
    | none => s
  | 3 =>
    match splatTest (rayLanes s t.ray) rec with
    | some w => if rayOrd s t.ray then acceptOrdered t w s else s
    | none => s
  | _ => s

/-- The unit of a stopping core stands at the end of a block: it tests no more (R133 step 5). -/
def unitRests (s : State) : Bool := s.me.stopped && s.me.ringRec == 0

/-- The tests of a start that walk its records. DEDUCED (log entry 29). -/
def walkers (s : State) (start : Nat) : List RayTest :=
  if unitRests s then []
  else s.me.tests.filter fun t => t.start == start && t.walks && !s.me.work.contains ⟨.overrun, t.ray, t.sub, t.start⟩

/-- One record against every ray under test against its start. DEDUCED (log entry 29). -/
def testAll (rec : Lanes) (start : Nat) (s : State) : State :=
  (walkers s start).foldl (fun s t => if 0 < t.skip then setSkip t (t.skip - 1) s else testRecord rec t s) s

/-- What a record costs the unit, in cycles (R162). -/
def recordCost (kind n : Nat) : Nat :=
  match kind with
  | 1 => (n + 7) / 8
  | 2 => (n + 1) / 2
  | 3 => (n + 1) / 2
  | _ => 0

/-- Lane j of record r of a block's bytes. -/
def blockLanes (data : List Byte) (r : Nat) : Lanes := fun j =>
  BitVec.ofNat 32 (leNat ((data.drop (64 * r + 4 * j)).take 4))

/-- The TAINT message of a core (R175). -/
def taintMessage (core sel index rays subs count : Nat) : Message :=
  let n (k : Nat) : Word := BitVec.ofNat 64 k
  ⟨mkHdr count 0xF4 core 15 core 0 false false, [n sel, n index, n rays, n subs, n count, 0, 0], 0, 0⟩

/-- A TAINT message of the core acting (R175). -/
def sendTaint (sel index rays subs count : Nat) (s : State) : State :=
  sendNet (taintMessage s.me.num sel index rays subs count) false s

/-- A poisoned block of the ring is met whole (R174, R175). -/
def testBad (b : RingBlock) (s : State) : State :=
  let ts := walkers s b.start
  let hit := ts.filter fun t => decide (t.skip < 4)
  let s := ts.foldl (fun s t => if t.skip < 4 then taintTest t s else setSkip t (t.skip - 4) s) s
  if hit.length = 0 ∧ b.subs = 0 then s else sendTaint b.sel b.index hit.length b.subs b.starts s

/-- The test t is complete once its start's last record has passed (R165, R169). -/
def completeTest (t : RayTest) (s : State) : State :=
  (s.me.raySubs.filter fun x => x.ray == t.ray && x.sub == t.sub).foldl (fun s x =>
    raySubComplete x (if firstTest s t.ray = some t then rayPut t.ray 42 2 0 s else s)) s

/-- The tests of a start. -/
def testsOf (start : Nat) (s : State) : List RayTest := s.me.tests.filter fun t => t.start == start

/-- Every test of a start is complete. -/
def completeTests (start : Nat) (s : State) : State := (testsOf start s).foldl (fun s t => completeTest t s) s

/-- The ring's first block leaves it. -/
def ringPop (s : State) : State := { s with me := { s.me with ring := s.me.ring.drop 1, ringRec := 0 } }

/-- A pass under test is cut (R135): its ordered hits are dropped, its entry distance goes back. -/
def stopTest (t : RayTest) (s : State) : State :=
  rayPut t.ray 42 2 0 (rayPut t.ray (48 + 4 * t.sub) 2 t.dist0.toNat (dropPass t.ray t.start (endTest t s)))

/-- A unit at rest withdraws the core's ray subscriptions from roll call, which stay recorded (R133, R135); the blocks that wait
in its ring deliver the TAINT messages that they owe for core subscriptions (R175), and it visits the records under test to cut
their passes. -/
def unitStop (s : State) : State :=
  if unitRests s then
    let s := s.me.ring.foldl (fun s b =>
      if b.bad ∧ b.subs ≠ 0 then sendTaint b.sel b.index 0 b.subs b.starts s else s) s
    let s := s.me.tests.foldl (fun s t => askVisit .stop t.ray t.sub t.start s) s
    let s := s.me.raySubs.foldl (fun s x => forgetSub x.id s) s
    { s with me := { s.me with ring := [] } }
  else s

/-- A block has left the ring: with the last one of a start its tests are complete, and a stopping core's unit rests. -/
def blockDone (b : RingBlock) (s : State) : State := unitStop (if b.last then completeTests b.start s else s)

/-- The unit makes a visit; one to a test that is over does nothing. -/
def makeVisit (v : RayVisit) (s : State) : State :=
  match v.kind, s.me.tests.find? fun t => t.ray == v.ray && t.sub == v.sub && t.start == v.start with
  | .late, _ => raySetFlag 3 v.ray s
  | .opens, some t => openTest t s
  | .overrun, some t => overrunTest t s
  | .complete, some t => completeTest t s
  | .stop, some t => stopTest t s
  | _, none => s

/-- The visits that the unit makes next: those up to the first whose record lies in another bank than the first one's (R27, R224).
DESIGN CHOICE (log entry 75). -/
def nextVisits (l : List RayVisit) : List RayVisit :=
  match l with
  | v :: _ => l.takeWhile fun u => u.ray / 256 == v.ray / 256
  | [] => []

/-- The unit makes its next visits. -/
def makeVisits (s : State) : State :=
  let now := nextVisits s.me.work
  now.foldl (fun s v => makeVisit v s) { s with me := { s.me with work := s.me.work.drop now.length } }

/-- RECORD_TEST (R162, R168, R169, R174): the unit makes its visits, and then tests the next record of its ring, or meets a poisoned
block. A record takes effect at the start of the cycles it costs, and its block leaves the ring as its last record takes effect.
DESIGN CHOICE (log entry 75). -/
def execRecordTest (s : State) : Out State :=
  if !s.me.work.isEmpty then .next (makeVisits s) else
  match s.me.ring with
  | b :: _ =>
    if s.clock < s.me.ringFree then .refused (.notDue "RECORD_TEST")
    else if b.bad then
      .next (blockDone b (ringPop (testBad b s)))
    else
      let line := blockLanes b.data s.me.ringRec
      let n := ((walkers s b.start).filter fun t => t.skip == 0).length
      let s := testAll line b.start { s with me := { s.me with ringFree := s.clock + recordCost (line 0).toNat n } }
      if s.me.ringRec = 3 then .next (blockDone b (ringPop s))
      else .next { s with me := { s.me with ringRec := s.me.ringRec + 1 } }
  | [] => .refused (.notDue "RECORD_TEST")

end Sys2Proof.Machine
end

