-- ==== Sys2Proof/Machine/Carousel.lean ====
section
/-!
DEFINITION. The carousel: the CAR words (R178 to R185), what the controller takes and calls (R147, R148, R155 to R158,
R399), the delivery of blocks and their catches (R153, R160 to R162, R174, R175, R390, R392), and descriptor writes
(R197, R198).
-/

namespace Sys2Proof.Machine

/-! ## The catch word and the core's subscriptions -/

/-- TGT of a catch word (R178). -/
def catchTgt (b : Word) : Nat := bits b 62 2
/-- HND -/
def catchHnd (b : Word) : Nat := bits b 48 6
/-- OFF -/
def catchOff (b : Word) : Nat := bits b 0 19

/-- Core subscription n of the core acting. -/
def csubAt (s : State) (n : Nat) : Option CoreSub := spGet none s.me.csubs n
/-- Core subscription n, set. -/
def setCsub (n : Nat) (x : Option CoreSub) (s : State) : State :=
  { s with me := { s.me with csubs := spSet none s.me.csubs n x } }
/-- The lowest free core-subscription number (R179). -/
def freeCsub (s : State) : Option Nat := (List.range 16).find? fun n => (csubAt s n).isNone

/-- Subscription n of the core is over: its number is free, and what waits for that wakes (R179, R198, R390). -/
def csubGone (n : Nat) (x : CoreSub) (s : State) : State :=
  let s := wake (fun w => w == .carSub) (setCsub n none s)
  wakeAll (fun w => w == .segPort (x.sel / 256) (x.sel % 256)) s

/-- Blocks staged for the automaton are dropped (R392). -/
def unstage (x : CoreSub) (s : State) : State :=
  if catchTgt x.catch_ = 2 then onLa (fun m => { m with staged := [] }) s else s

/-- The blocks of a subscription that wait for their scratchpad bank are written no more (R180). -/
def dropCatches (id : Nat) (s : State) : State :=
  { s with me := { s.me with catches := s.me.catches.filter fun r => r.sub != id } }

/-- Core subscription n withdrawn: no further block of it is written, and its handle is FREE (R180). -/
def csubWithdraw (n : Nat) (x : CoreSub) (s : State) : State :=
  ctlSend (x.sel / 256) (.unsub x.id) (hFree (catchHnd x.catch_) (unstage x (csubGone n x (dropCatches x.id s))))

/-- The core holds a TGT-2 subscription (R390). -/
def hasSampleSub (s : State) : Bool := s.me.csubs.any fun e => match e.2 with
  | some x => catchTgt x.catch_ == 2
  | none => false

/-- The ILLEGAL checks of CARSUB (R179, R390). -/
def catchIllegal (b : Word) (seg : Segment) : Bool :=
  let off := catchOff b
  bits b 54 8 != 0 || bits b 19 29 != 0 || bits b 0 8 != 0 || catchTgt b == 3 ||
  (catchTgt b == 0 && decide (Config.scratchBytes < off + 256 * seg.len)) ||
  (catchTgt b == 1 && (seg.kind != 3 || decide (Config.weightBytes < off + 256 * seg.len))) ||
  (catchTgt b == 2 && (seg.kind != 4 || off != 0 || decide (64 < seg.len)))

/-- CARSUB (R179, R390). -/
def execCarsub (d a b : BitVec 7) (s : State) : Out State :=
  enter ⟨[.g d, .g a, .g b], [.g d]⟩ s fun s => withSel (rd s a) s fun t e s =>
    let w := rd s b
    let seg := segAt s t e
    let h := catchHnd w
    if catchIllegal w seg then trap cIllegal w s
    else if (hGet s h).st ≠ .free then trap cSchedule (BitVec.ofNat 64 h) s
    else if catchTgt w = 2 ∧ (hasSampleSub s ∨ laSamples s.me.la) then park .carSub s
    else
      match freeCsub s with
      | none => park .carSub s
      | some n =>
        let x : CoreSub := ⟨s.serial, s.iss.slot, t * 256 + e, w, s.clock, none, false, false⟩
        let s := setCsub n (some x) (ctlSubscribe t e (hTake h 21 (8 * seg.len) s))
        retireWr d (BitVec.ofNat 64 ((hGet s h).gen.toNat * 2 ^ 16 + n)) s

/-- CARUNSUB (R180). -/
def execCarunsub (d a b : BitVec 7) (s : State) : Out State :=
  enter ⟨[.g d, .g a, .g b], [.g d]⟩ s fun s => withSel (rd s a) s fun t e s =>
    let n := (rd s b).toNat % 16
    match csubAt s n with
    | some x =>
      if x.slot = s.iss.slot ∧ x.sel = t * 256 + e then retireWr d (if x.wrote then 2 else 1) (csubWithdraw n x s)
      else retireWr d 0 s
    | none => retireWr d 0 s

/-- The slot's verdict record becomes (sel, PENDING), and its request goes out (R181 to R183). -/
def carRequest (promo defer : Bool) (t e : Nat) (s : State) : State :=
  let r : Request := ⟨promo, s.me.num, s.iss.slot, e, defer, false, s.serial⟩
  ctlSend t (.request r)
    (onCur (fun c => { c with verdict := some ⟨t * 256 + e, 0, s.serial⟩ }) { s with serial := s.serial + 1 })

/-- What the unit still has to write of starts that ray i has missed is written. -/
def lateFirst (i : Nat) (s : State) : State :=
  let late (v : RayVisit) : Bool := v.ray == i && v.kind == .late
  if s.me.work.any late then raySetFlag 3 i (dropVisits late s) else s

/-- A ray subscription that CARSKIP withdraws: a pass under test is cut, and SKIP is 0 if it is the one that its ray shows (R164,
R189, R190). -/
def skipRaySub (x : RaySub) (s : State) : State :=
  let s := lateFirst x.ray s
  let s := (s.me.tests.filter fun t => t.ray == x.ray && t.sub == x.sub).foldl (fun s t =>
    dropPass t.ray t.start (if firstTest s t.ray = some t then rayPut t.ray 42 2 0 s else s)) s
  raySubWithdraw x s

/-- CARSKIP (R181). -/
def execCarskip (a : BitVec 7) (s : State) : Out State :=
  enter ⟨[.g a], []⟩ s fun s => withSel (rd s a) s fun t e s =>
    let sel := t * 256 + e
    onRecords ((s.me.raySubs.filter fun x => x.sel == sel).map (·.ray)) s fun s =>
    let s := (List.range 16).foldl (fun s n => match csubAt s n with
      | some x => if x.sel = sel then csubWithdraw n x s else s
      | none => s) s
    let s := (s.me.raySubs.filter fun x => x.sel == sel).foldl (fun s x => skipRaySub x s) s
    retire (carRequest false false t e s)

/-- CARPROMO (R182). -/
def execCarpromo (a b : BitVec 7) (s : State) : Out State :=
  enter ⟨[.g a, .g b], []⟩ s fun s => withSel (rd s a) s fun t e s =>
    retire (carRequest true (bits (rd s b) 0 1 == 1) t e s)

/-! ## CARPOS and CARWAIT -/

/-- Promotions placed within the current pass window (R156). -/
def promosInPass (k : Track) : Nat := (k.promos.filter fun p => decide (k.adv < p + k.segs.length)).length

/-- Pending promotion requests (R157). -/
def promosPending (k : Track) : Nat := (k.pending.filter fun q => q.promo).length

/-- CUR, PROMS, PEND and STARTS of a position word, as the track stands (R185). PROMS reads 0 to 4: a pass that an append has
lengthened may hold the promotions of two, and then reads 4. DEDUCED (log entry 33). -/
def posFields (k : Track) : Word :=
  BitVec.ofNat 64 (k.count % 2 ^ 16 * 2 ^ 32 + k.cursor * 2 ^ 16 + Nat.min 4 (promosInPass k) * 2 ^ 12 + promosPending k)

/-- The records of positions and starts that a read 64 cycles later may still need. -/
def logPos (now : Nat) (k : Track) : Track :=
  let old := k.posLog.filter fun e => decide (e.1 + 64 ≤ now)
  let new := k.posLog.filter fun e => decide (now < e.1 + 64)
  { k with posLog := old.drop (old.length - 1) ++ new ++ [(now, posFields k)] }

/-- The starts that a position read may still name: the last that has begun 64 cycles ago, and all later ones. -/
def logAir (now : Nat) (e : Nat × Nat × Nat) (k : Track) : Track :=
  let old := k.airLog.filter fun x => decide (x.1 + 64 ≤ now)
  let new := k.airLog.filter fun x => decide (now < x.1 + 64)
  { k with airLog := old.drop (old.length - 1) ++ new ++ [e] }

/-- A track's position as it stood in cycle T (R185). -/
def posAt (k : Track) (T : Nat) : Word :=
  let f : Word := (((k.posLog.filter fun e => decide (e.1 ≤ T)).getLast?).map (·.2)).getD 0
  match (k.airLog.filter fun e => decide (e.1 ≤ T)).getLast? with
  | some (slot, entry, len) =>
    let on := decide (T < slot + 4 * len)
    f + BitVec.ofNat 64 ((if on then (T - slot) / 4 else 0) * 2 ^ 48 + entry * 2 ^ 24 + on.toNat * 2 ^ 15)
  | none => f

/-- CARPOS (R185). -/
def execCarpos (d a : BitVec 7) (s : State) : Out State :=
  enter ⟨[.g d, .g a], [.g d]⟩ s fun s => withSel (rd s a) s fun t _ s =>
    retireWr d (if s.clock < 64 then 0 else posAt (trackAt s t) (s.clock - 64)) s

/-- CARWAIT.RAY (R184). -/
def execCarwaitRay (d a : BitVec 7) (s : State) : Out State :=
  enter ⟨[.g d, .g a], [.g d]⟩ s fun s => withRay (rd s a) s fun i s =>
    if !rayLive s i then retireWr d (BitVec.ofNat 64 (2 ^ 63)) s
    else if (raySubsOf s i).isEmpty then onRecord i s fun s => retireWr d (BitVec.ofNat 64 (rayNat s i 40 2)) s
    else park (.carRay i) s

/-- CARWAIT.START (R184): the wake carries the roll call, and the word that issues again retires with it. -/
def execCarwaitStart (d a : BitVec 7) (s : State) : Out State :=
  enter ⟨[.g d, .g a], [.g d]⟩ s fun s => withSel (rd s a) s fun t e s =>
    match (cur s).started with
    | some (sel, roll) =>
      let s := onCur (fun c => { c with started := none }) s
      if sel = t * 256 + e then retireWr d (BitVec.ofNat 64 roll) s else park (.carStart (t * 256 + e)) s
    | none => park (.carStart (t * 256 + e)) s

/-- CARWAIT.VERDICT (R184). -/
def execCarwaitVerdict (d a : BitVec 7) (s : State) : Out State :=
  enter ⟨[.g d, .g a], [.g d]⟩ s fun s => withSel (rd s a) s fun t e s =>
    match (cur s).verdict with
    | some v =>
      if v.sel ≠ t * 256 + e then retireWr d 0 s
      else if v.code = 0 then park (.carVerdict (t * 256 + e)) s
      else retireWr d (BitVec.ofNat 64 v.code) s
    | none => retireWr d 0 s

/-! ## Taking (R147, R148) -/

/-- A verdict reaches the slot whose record still waits for that request (R183). -/
def giveVerdict (r : Request) (code : Nat) (s : State) : State :=
  withCore r.core (fun s =>
    match (slotOf s r.slot).verdict with
    | some v =>
      if v.serial = r.serial ∧ v.code = 0 then
        let c := slotOf s r.slot
        let c := { c with verdict := some { v with code := code } }
        setSlot r.slot (match c.st with
          | .parked (.carVerdict _) => wakeSlot s.clock c
          | _ => c) s
      else s
    | none => s) s

/-- A start of the entry has been called and has not begun (R148). -/
def calledNotBegun (k : Track) (entry now : Nat) : Bool :=
  k.starts.any fun x => x.entry == entry && decide (now < x.slot)

/-- The controller takes a skip or a promotion (R148, R157). A promotion of a segment of which a start is called and has not
begun is PROMOTED, whether or not 16 are pending. DESIGN CHOICE (log entry 75). -/
def takeRequest (t : Nat) (r : Request) (s : State) : State :=
  let k := trackAt s t
  if calledNotBegun k r.entry s.clock then giveVerdict r (if r.promo then 3 else 2) s
  else if r.promo && decide (16 ≤ promosPending k) then giveVerdict r 4 s
  else setTrack t (logPos s.clock { k with pending := k.pending ++ [r] }) s

/-- The controller takes one message (R147). -/
def takeMsg (m : CtlMsg) (s : State) : State :=
  match m.what with
  | .sub x => { s with taken := s.taken ++ [{ x with covered := x.covered || calledAfter s x.track x.entry x.retired }] }
  | .unsub id => { s with taken := s.taken.filter fun x => x.id != id }
  | .request r => takeRequest m.track r s

/-- m is taken before n: in an earlier cycle, or from a lower (CORE, SLOT) of the same one (R147). -/
def takenBefore (m n : CtlMsg) : Bool :=
  decide (m.due < n.due) || (m.due == n.due && decide (16 * m.core + m.slot < 16 * n.core + n.slot))

/-- The message that the controller takes next. -/
def nextTake : List CtlMsg → Option CtlMsg
  | [] => none
  | m :: l => match nextTake l with
    | none => some m
    | some n => some (if takenBefore n m then n else m)

/-- CONTROLLER_TAKE (R147). -/
def execControllerTake (s : State) : Out State :=
  match nextTake s.ctl with
  | some m =>
    if s.clock < m.due then .refused (.notDue "CONTROLLER_TAKE") else .next (takeMsg m { s with ctl := s.ctl.erase m })
  | none => .refused (.notDue "CONTROLLER_TAKE")

/-! ## Calls (R147, R156, R157, R399) -/

/-- The roll call of an entry (R147, R155). -/
def rollCall (s : State) (t e : Nat) : Nat :=
  (s.taken.filter fun x => x.track == t && x.entry == e && !x.covered).length % 2 ^ 32

/-- What a call has come to so far: the requests that stay pending, the verdicts given, the entries considered, and the
entry placed by a promotion. -/
structure Call where
  kept     : List Request
  verdicts : List (Request × Nat)
  seen     : List Nat
  placed   : Option Nat

/-- The entry is held or does not exist. -/
def heldEntry (k : Track) (e : Nat) : Bool := match k.segs[e]? with | some g => g.hold | none => true

/-- One pending request at a call, in taken order (R157, R399). A skip stays for the end of the call, but for one that HOLD has
kept from an earlier call: it is judged at the first call after HOLD is clear, whatever that call considers. -/
def judgeRequest (k : Track) (roll : Nat → Nat) (c : Call) (q : Request) : Call :=
  if k.segs.length ≤ q.entry then { c with verdicts := c.verdicts ++ [(q, 1)] }
  else if heldEntry k q.entry then { c with kept := c.kept ++ [{ q with held := true }] }
  else if !q.promo && q.held then { c with verdicts := c.verdicts ++ [(q, if roll q.entry = 0 then 1 else 2)] }
  else if !q.promo || c.placed.isSome then { c with kept := c.kept ++ [q] }
  else
    let c := { c with seen := q.entry :: c.seen }
    if roll q.entry = 0 then { c with verdicts := c.verdicts ++ [(q, 1)] }
    else if promosInPass k < 4 then { c with verdicts := c.verdicts ++ [(q, 3)], placed := some q.entry }
    else if !q.defer then { c with verdicts := c.verdicts ++ [(q, 4)] }
    else { c with kept := c.kept ++ [q] }

/-- The timetable scan from the cursor: the entries it considers, and how many entries the cursor passes if one of them
has a roll call (R147, R399). -/
def scanFrom (k : Track) (roll : Nat → Nat) : Nat → Nat → List Nat → List Nat × Option Nat
  | 0, _, seen => (seen, none)
  | n + 1, i, seen =>
    let e := (k.cursor + i) % k.segs.length
    if heldEntry k e then scanFrom k roll n (i + 1) seen
    else if roll e = 0 then scanFrom k roll n (i + 1) (e :: seen)
    else (e :: seen, some i)

/-- Pending requests that a call has decided besides: a skip of an entry it considered, a promotion of the entry it placed (R148,
R157). -/
def settleRequest (roll : Nat → Nat) (seen : List Nat) (placed : Option Nat) (q : Request) : Option Nat :=
  if q.promo then (if placed = some q.entry then some 3 else none)
  else if seen.contains q.entry then some (if roll q.entry = 0 then 1 else 2) else none

/-- An entry gets the start slot: its start covers every subscription that its roll call counted (R147). -/
def placeStart (t e : Nat) (k : Track) (s : State) : State :=
  let seg := (k.segs[e]?).getD noSegment
  let S := k.next
  let x : Start := ⟨s.serial, S, e, seg, rollCall s t e, false, 0⟩
  let k := logAir s.clock (S, e, seg.len)
    { k with next := S + 4 * seg.len + 32, starts := k.starts ++ [x], count := k.count + 1 }
  setTrack t k { s with
    serial := s.serial + 1
    taken := s.taken.map fun y => if y.track = t ∧ y.entry = e then { y with covered := true } else y }

/-- A call of track t (R147, R157). -/
def callTrack (t : Nat) (s : State) : State :=
  let k := trackAt s t
  let roll := rollCall s t
  let c := k.pending.foldl (judgeRequest k roll) ⟨[], [], [], none⟩
  let scan := if c.placed.isSome then (c.seen, none) else scanFrom k roll k.segs.length 0 c.seen
  let byScan := scan.2.map fun i => (k.cursor + i) % k.segs.length
  let placed := match c.placed with | some e => some e | none => byScan
  let more := c.kept.filterMap fun q => (settleRequest roll scan.1 placed q).map fun v => (q, v)
  let kept := c.kept.filter fun q => (settleRequest roll scan.1 placed q).isNone
  let k := { k with pending := kept, promos := k.promos.filter fun p => decide (k.adv < p + 256) }
  let k := match c.placed, scan.2 with
    | some _, _ => { k with promos := k.promos ++ [k.adv] }
    | none, some i => { k with adv := k.adv + i + 1, cursor := (k.cursor + i + 1) % k.segs.length }
    | none, none => { k with next := k.next + 32 }
  let s := match placed with
    | some e => placeStart t e k s
    | none => setTrack t k s
  let s := setTrack t (logPos s.clock (trackAt s t)) s
  (c.verdicts ++ more).foldl (fun s v => giveVerdict v.1 v.2 s) s

/-- SEGMENT_CALL (R147): the next start slot S is called at S - 256. -/
def execSegmentCall (track : Nat) (s : State) : Out State :=
  if !s.ctx.tracks.contains track || decide (s.clock + 256 < (trackAt s track).next)
  then .refused (.notDue "SEGMENT_CALL")
  else .next (callTrack track s)

/-! ## Delivery (R153, R154, R160 to R162, R174) -/

/-- The cores that hold anything and have not saved: a core that has saved catches no more (R140). -/
def catchCores (s : State) : List Nat := (s.me.num :: spKeys s.others).filter fun c => !(coreOf s c).saved

/-- Subscription `id` is covered by the start it is catching. DEDUCED (log entry 41). -/
def coverSub (id : Nat) (s : State) : State :=
  { s with
    taken := s.taken.map fun t => if t.id = id then { t with covered := true } else t
    ctl := s.ctl.map fun m => match m.what with
      | .sub t => if t.id = id then { m with what := .sub { t with covered := true } } else m
      | _ => m }

/-- Ray subscription y is under test. -/
def underTest (s : State) (y : RaySub) : Bool := s.me.tests.any fun t => t.ray == y.ray && t.sub == y.sub

/-- A ray subscription catches a start, or misses it while its ray is under test against a start of another track (R154,
R167, R169). The unit tests the start if its kind is the one that RAYSUB found (R187). DEDUCED (log entry 41). A start whose KIND
has changed leaves the ray under test until it ends, so starts of other tracks miss it; of two starts of different tracks that begin
in one cycle, the one on the track that the context lists later is missed. DESIGN CHOICE (log entry 41). -/
def beginRay (x : Start) (y : RaySub) (s : State) : State :=
  if s.me.raySubs.any fun z => z.ray == y.ray && z.sel / 256 != y.sel / 256 && underTest s z then
    askVisit .late y.ray y.sub x.id (recatchSub y.id
      { s with me := { s.me with
        raySubs := s.me.raySubs.map fun (z : RaySub) => if z.id = y.id then { z with retired := s.clock } else z } })
  else
    let first := (firstTest s y.ray).isNone
    let t : RayTest :=
      { ray := y.ray, sub := y.sub, start := x.id, walks := x.seg.kind == y.kind, skip := 0
        tmax0 := BitVec.ofNat 32 (rayNat s y.ray 28 4), hit0 := BitVec.ofNat 32 (rayNat s y.ray 32 4)
        side0 := sideOf s y.ray, dist0 := BitVec.ofNat 16 (rayNat s y.ray (48 + 4 * y.sub) 2) }
    let s := coverSub y.id { s with me := { s.me with tests := s.me.tests ++ [t] } }
    if first then askVisit .opens y.ray y.sub x.id s else s

/-- A start begins at the core acting: subscriptions that retired before it catch it, and CARWAIT.START wakes
(R147, R154, R184). -/
def beginCore (x : Start) (sel : Nat) (s : State) : State :=
  let now := s.clock
  let s := (List.range 16).foldl (fun s n => match csubAt s n with
    | some y =>
      if y.sel = sel ∧ y.retired < x.slot ∧ y.start = none then
        coverSub y.id (setCsub n (some { y with start := some x.id, cut := false }) s)
      else s
    | none => s) s
  let s := if unitRests s then s
    else (s.me.raySubs.filter fun y => y.sel == sel && decide (y.retired < x.slot) && !underTest s y).foldl
      (fun s y => beginRay x y s) s
  { s with me := { s.me with slots := s.me.slots.map fun e => match e.2.st with
      | .parked (.carStart z) => if z = sel then (e.1, wakeSlot now { e.2 with started := some (sel, x.roll) }) else e
      | _ => e } }

/-- The page that a block of a segment lies on, if it may be read there (R152). -/
def carPage (s : State) (va : Nat) : Option Tr :=
  if inDevice va then none
  else match walk s va with
    | some t => if bits t.w0 2 1 = 1 then some t else none
    | none => none

/-- A block as the controller reads it (R152, R174): its bytes and whether it comes poisoned, with the report that
firmware receives. A page that may not be read, the device region and a memory controller that is down count as an
uncorrectable error, too. The report names the first bad atom of the block only, and the block's first atom where the read itself
fails. DESIGN CHOICE (log entry 75). -/
def readBlock (s : State) (va : Nat) (failed : Bool) : List Byte × Option Nat :=
  match carPage s va with
  | some t =>
    let hs := (List.range 256).map fun j => homeIn s t (va + j)
    let bad := (hs.find? fun h => isBad s h || controllerDown s h).orElse fun _ => if failed then hs.head? else none
    (hs.map (memAt s), bad.map (· / 32))
  | none => ([], some (2 ^ 58 + va / 32))

/-- The block of 256 bytes at home `h` written by a catch, which asks for no bank of group 3 (R27). -/
def catchWrite (h : Nat) (data : List Byte) (s : State) : State :=
  { writeBytes ⟨s.me.num, 15, 2⟩ (data.mapIdx fun k b => (h + k, b)) s with asked := s.asked }

/-- The records of a SAMPLE block. -/
def blockRecs (data : List Byte) : List Rec :=
  (List.range 4).map fun r => BitVec.ofNat 512 (leNat ((data.drop (64 * r)).take 64))

/-- A block asks for its scratchpad bank: among those of its cycle in ascending core-subscription number, behind those that
have come before (R27). -/
def queueCatch (r : Catch) : List Catch → List Catch
  | [] => [r]
  | x :: l => if x.since < r.since ∨ (x.since = r.since ∧ x.n ≤ r.n) then x :: queueCatch r l else r :: x :: l

/-- Block k of a start on its way to the scratchpad bank of core subscription n. -/
def askCatch (x : CoreSub) (n : Nat) (st : Start) (k : Nat) (data : List Byte) (bad : Bool) (s : State) : State :=
  let r : Catch := ⟨s.clock, n, x.id, st.id, scratchHome s.me.num (catchOff x.catch_ + 256 * k), data, bad⟩
  { s with me := { s.me with catches := queueCatch r s.me.catches } }

/-- A good block of core subscription n has been written: it counts 8 sectors, and with the handle FULL the subscription is
complete (R161, R390). -/
def countCatch (x : CoreSub) (n : Nat) (user : Word) (s : State) : State :=
  let h := catchHnd x.catch_
  let s := hCount h 8 (setCsub n (some { x with wrote := true }) s)
  if (hGet s h).st = .full then
    let s := if catchTgt x.catch_ = 2 then laAcceptStaged x.slot (slotOf s x.slot).thread user s else s
    csubGone n x (forgetSub x.id s)
  else s

/-- Core subscription n takes a good block (R160, R161, R390): a scratchpad block goes to its bank; a block of the weight buffer
clears its mark (R368). -/
def catchGood (x : CoreSub) (n : Nat) (st : Start) (k : Nat) (data : List Byte) (s : State) : State :=
  let off := catchOff x.catch_ + 256 * k
  match catchTgt x.catch_ with
  | 0 => askCatch x n st k data false s
  | 1 =>
    let s := catchWrite (weightHome s.me.num off) data s
    countCatch x n st.seg.user { s with me := { s.me with wpoison := s.me.wpoison.filter fun b => b != off / 256 } }
  | _ => countCatch x n st.seg.user (onLa (fun m => { m with staged := m.staged ++ blockRecs data }) s)

/-- A poisoned block at its catch target (R174, R368, R392). DESIGN CHOICE (log entry 34). -/
def catchBad (x : CoreSub) (n : Nat) (st : Start) (k : Nat) (s : State) : State :=
  let off := catchOff x.catch_ + 256 * k
  match catchTgt x.catch_ with
  | 0 => let (bytes, s) := drawBytes 256 s; askCatch x n st k bytes true s
  | 1 =>
    let (bytes, s) := drawBytes 256 s
    let s := catchWrite (weightHome s.me.num off) bytes s
    { s with me := { s.me with wpoison := off / 256 :: s.me.wpoison.filter fun b => b != off / 256 } }
  | _ => onLa (fun m => { m with staged := [] }) s

/-- Core subscription n meets a poisoned block: the start is cut for it (R174). A block of the weight buffer has been written, marked
as it is (R368); one for the automaton array writes nothing (R392). -/
def catchCut (x : CoreSub) (n : Nat) (st : Start) (k : Nat) (s : State) : State :=
  let h := catchHnd x.catch_
  let s := hPut h { hGet s h with counted := 0 } (catchBad x n st k s)
  recatchSub x.id (setCsub n (some { x with wrote := x.wrote || catchTgt x.catch_ == 1, cut := true, retired := s.clock }) s)

/-- Core subscription n catches the start: no poisoned block has cut it, and for the automaton array no bell has, either
(R392). -/
def catching (s : State) (st : Start) (n : Nat) : Option CoreSub :=
  match csubAt s n with
  | some x => if x.start = some st.id ∧ x.cut = false ∧ !(s.me.stopped && catchTgt x.catch_ == 2) then some x else none
  | none => none

/-- A catch is granted its bank (R27): the block is written, a poisoned one with its marks (R174), and a good one counts if its
subscription still catches that start. -/
def serveCatch (r : Catch) (s : State) : State :=
  let s := grantBanks none true ((bankOf r.home).toList)
    (catchWrite r.home r.data { s with me := { s.me with catches := s.me.catches.erase r } })
  let s := if r.bad then { s with poison := s.poison ++ (List.range 8).map fun j => r.home / 32 + j } else s
  match csubAt s r.n with
  | some x =>
    if x.id ≠ r.sub then s
    else if r.bad then setCsub r.n (some { x with wrote := true }) s
    else if x.start = some r.start ∧ x.cut = false then countCatch x r.n 0 s
    else s
  | none => s

/-- The next catch of a core whose bank serves no other catch in this cycle (R27). -/
def nextCatch (s : State) (c : Nat) : Option Catch :=
  (coreOf s c).catches.find? fun r => !(s.banks.any fun g => some g.bank == bankOf r.home && g.cycle == s.clock)

/-- The next catch that is granted its bank, with its core. -/
def firstCatch (s : State) : Option (Nat × Catch) :=
  (s.me.num :: spKeys s.others).findSome? fun c => (nextCatch s c).map fun r => (c, r)

/-- Block k at every core subscription that catches the start; how many a poisoned block affects. -/
def catchCore (st : Start) (k : Nat) (data : List Byte) (bad : Bool) (s : State) : Nat × State :=
  (List.range 16).foldl (fun r n => match catching r.2 st n with
    | some x => if bad then (r.1 + 1, catchCut x n st k r.2) else (r.1, catchGood x n st k data r.2)
    | none => r) (0, s)

/-- A block enters the catch ring, or overruns it (R162, R175): the subscriptions of the tests that walk its start catch the next
one, and the unit visits their records. -/
def ringPush (b : RingBlock) (s : State) : State :=
  if 64 ≤ s.me.ring.length then
    let s := (walkers s b.start).foldl (fun s t => askVisit .overrun t.ray t.sub t.start (catchNext t s)) s
    if b.bad ∧ b.subs ≠ 0 then sendTaint b.sel b.index 0 b.subs b.starts s else s
  else
    let free := if s.me.ring.isEmpty then Nat.max s.me.ringFree s.clock else s.me.ringFree
    { s with me := { s.me with ring := s.me.ring ++ [b], ringFree := free } }

/-- The subscriptions that still wait at the end of a start, for no block on its way to a bank, catch the next one. One made after its
descriptor was replaced that catches a start called under the old one counts that start's blocks against the 8 * LEN of its own
descriptor, and after a shorter start the count goes on into the next. DESIGN CHOICE (log entry 75). -/
def endCatches (st : Start) (s : State) : State :=
  (List.range 16).foldl (fun s n => match csubAt s n with
    | some x =>
      if x.start = some st.id ∧ !(s.me.catches.any fun r => r.sub == x.id && !r.bad && !x.cut) then
        recatchSub x.id (setCsub n (some { x with start := none, cut := false, retired := s.clock }) s)
      else s
    | none => s) s

/-- Block k of a start at the core acting (R160 to R162, R174, R175). -/
def deliverCore (st : Start) (sel k count : Nat) (data : List Byte) (bad : Bool) (s : State) : State :=
  let last := decide (k + 1 = st.seg.len)
  let (subs, s) := catchCore st k data bad s
  let s :=
    if !(walkers s st.id).isEmpty then ringPush ⟨st.id, sel, k, last, data, bad, subs, count⟩ s
    else if subs ≠ 0 then sendTaint sel k 0 subs count s
    else s
  if last then
    endCatches st (if (walkers s st.id).isEmpty then
      (testsOf st.id s).foldl (fun s t => askVisit .complete t.ray t.sub t.start s) s else s)
  else s

/-- HOLD set in a descriptor (R174). -/
def setHold (v : Bool) (t e : Nat) (s : State) : State :=
  let k := trackAt s t
  match k.segs[e]? with
  | some g => setTrack t { k with segs := k.segs.set e { g with hold := v } } s
  | none => s

/-- An input that says that the controller's read of a block of track t fails (R152, R174). MODEL'S OWN (log entry 60). -/
def failsRead (t now : Nat) (i : Input) : Bool :=
  match i.step with
  | .blockDelivery u bad => u == t && bad && decide (i.due ≤ now)
  | _ => false

/-- The first such input is used up. -/
def takeFailure (t : Nat) (s : State) : State := { s with inputs := s.inputs.eraseP (failsRead t s.clock) }

/-- The next block of the start on the air reaches every core (R153, R174). The start count that a TAINT message carries in word 5
(R175) is taken here, at the block's delivery, for a block that waits in the catch ring, too: the spec does not say when.
DESIGN CHOICE (log entry 75). -/
def deliverBlock (t : Nat) (st : Start) (failed : Bool) (s : State) : State :=
  let k := st.sent
  let sel := t * 256 + st.entry
  let (data, fault) := readBlock s (st.seg.src + 256 * k) failed
  let s := if failed then takeFailure t s else s
  let s := match fault with
    | some a => setHold true t st.entry { s with fw := { s.fw with reports := s.fw.reports ++ [a] } }
    | none => s
  let tk := trackAt s t
  let rest := tk.starts.drop 1
  let s := setTrack t
    { tk with starts := if k + 1 < st.seg.len then { st with sent := k + 1 } :: rest else rest } s
  (catchCores s).foldl (fun s c => withCore c (deliverCore st sel k tk.count data fault.isSome) s) s

/-- The start on the air begins. -/
def beginStart (t : Nat) (st : Start) (s : State) : State :=
  let tk := trackAt s t
  let s := setTrack t { tk with starts := { st with begun := true } :: tk.starts.drop 1 } s
  (catchCores s).foldl (fun s c => withCore c (beginCore st (t * 256 + st.entry)) s) s

/-- The start at the head of a track begins in this cycle, or its next block is wholly delivered. -/
def deliveryDue (s : State) (t : Nat) : Bool :=
  match (trackAt s t).starts with
  | st :: _ => if st.begun then decide (st.slot + 4 * st.sent + 3 ≤ s.clock) else decide (st.slot ≤ s.clock)
  | [] => false

/-- Once no track has anything to deliver in the cycle, the blocks that have come to their cores are granted their banks, one
after another (R27). -/
def deliverCaught (s : State) : Out State :=
  if s.ctx.tracks.any (deliveryDue s) then .refused (.notDue "BLOCK_DELIVERY")
  else match firstCatch s with
    | some (c, r) => .next (withCore c (serveCatch r) s)
    | none => .refused (.notDue "BLOCK_DELIVERY")

/-- BLOCK_DELIVERY (R153): a start begins in its slot cycle, and its block k is wholly delivered three cycles into its
four; caught blocks are written as their banks are granted (R27). -/
def execBlockDelivery (track : Nat) (bad : Bool) (s : State) : Out State :=
  match (trackAt s track).starts with
  | st :: _ =>
    if deliveryDue s track then .next (if st.begun then deliverBlock track st bad s else beginStart track st s)
    else deliverCaught s
  | [] => deliverCaught s

/-- An atom of the segment's source keeps HOLD set (R174, R243): it carries a mark, or it has been reported and its channel's
table does not hold it. For a block on a page that is unmapped or may not be read, for which no entry is made, the spec
gives no condition, and nothing keeps HOLD set. DESIGN CHOICE (log entry 75). -/
def sourceBad (s : State) (g : Segment) : Bool :=
  !(s.poison.isEmpty && s.fw.reports.isEmpty) && (List.range (8 * g.len)).any fun j =>
    let va := g.src + 32 * j
    match carPage s va with
    | some t =>
      let a := homeIn s t va / 32
      s.poison.contains a || (s.fw.reports.contains a && !s.remap.contains a)
    | none => false

/-- HOLD_CLEAR (R174): firmware clears HOLD, once no atom of the source is bad; a waiting descriptor write wakes. -/
def execHoldClear (track entry : Nat) (s : State) : Out State :=
  match (trackAt s track).segs[entry]? with
  | some g =>
    if g.hold && !sourceBad s g then
      .next (wakeAll (fun w => w == .segPort track entry) (setHold false track entry s))
    else .refused (.notDue "HOLD_CLEAR")
  | none => .refused (.notDue "HOLD_CLEAR")

/-! ## Descriptor writes (R151, R197, R198) -/

/-- TRACK of a descriptor record. -/
def dscTrack (r : Rec) : Nat := recNat r 11 1
/-- ENTRY -/
def dscEntry (r : Rec) : Nat := recNat r 12 1
/-- ON -/
def dscOn (r : Rec) : Bool := recNat r 13 1 % 2 == 1

/-- The segment that a descriptor record describes (R151). -/
def dscSegment (r : Rec) : Segment :=
  { kind := recNat r 10 1, len := recNat r 8 2, src := recNat r 0 8, user := BitVec.ofNat 64 (recNat r 16 8),
    hold := recNat r 13 1 / 2 % 2 == 1 }

/-- TVAL of the CMD_RESERVED trap that a descriptor write takes, for a track of n entries (rows 2 to 8 of R198). -/
def dscFault (r : Rec) (n : Nat) : Option Nat :=
  let g := dscSegment r
  if 2 ^ 57 ≤ g.src then some 0
  else if 4 ≤ recNat r 13 1 then some 13
  else if recNat r 14 2 ≠ 0 then some 14
  else if recNat r 24 8 ≠ 0 then some 24
  else if recNat r 32 32 ≠ 0 then some 32
  else if g.kind = 0 ∨ 6 ≤ g.kind then some 10
  else if g.len = 0 then some 8
  else if g.src % 256 ≠ 0 then some 0
  else if g.hold then some 13
  else if g.user ≠ 0 ∧ g.kind ≠ 4 then some 16
  else if (dscOn r ∧ n < dscEntry r) ∨ (!dscOn r ∧ (dscEntry r + 1 ≠ n ∨ n = 1)) then some 12
  else none

/-- A core subscription to a segment is outstanding anywhere in the package (R198). -/
def coreSubscribed (s : State) (sel : Nat) : Bool :=
  let has (m : Core) : Bool := m.csubs.any fun e => match e.2 with | some x => x.sel == sel | none => false
  has s.me || s.others.any fun e => match e.2 with | some m => has m | none => false

/-- A descriptor write takes effect: it appends, removes or replaces an entry (row 11 of R198). -/
def dscApply (r : Rec) (k : Track) : Track :=
  let e := dscEntry r
  if !dscOn r then { k with segs := k.segs.take e, cursor := if k.cursor = e then 0 else k.cursor }
  else if e = k.segs.length then { k with segs := k.segs ++ [dscSegment r] }
  else { k with segs := k.segs.set e (dscSegment r) }

/-- A descriptor write at the controller (R198). Row 9 looks at writes that replace an entry. DESIGN CHOICE (log entry 75). -/
def dscWrite (r : Rec) (s : State) : Out State :=
  let t := dscTrack r
  let e := dscEntry r
  if !s.ctx.tracks.contains t then trap cPerm (BitVec.ofNat 64 (t * 256 + e)) s
  else
    let k := trackAt s t
    match dscFault r k.segs.length with
    | some o => trap cCmdReserved (BitVec.ofNat 64 o) s
    | none =>
      let old := (k.segs[e]?).getD noSegment
      let new := dscSegment r
      let changes := dscOn r && decide (e < k.segs.length) &&
        (old.kind != new.kind || old.len != new.len || old.src != new.src)
      if (changes && coreSubscribed s (t * 256 + e)) || old.hold then park (.segPort t e) s
      else retire (setTrack t (logPos s.clock (dscApply r k)) s)

/-- SEGMENT_DESCRIPTOR_WRITE (R197, R198): the 64 bytes of an STV to the segment port. -/
def execSegmentDescriptorWrite (r : Rec) (s : State) : Out State := enter ⟨[], []⟩ s fun s => dscWrite r s

end Sys2Proof.Machine
end

