-- ==== Sys2Proof/Machine/Integer.lean ====
section
/-!
DEFINITION. The integer, field, immediate, pointer and relative-register words (R62 to R72) and VKEY (R196).
-/

namespace Sys2Proof.Machine

/-- ADD (R62). -/
def execAdd (d a b : BitVec 7) (s : State) : Out State :=
  enter ⟨[.g d, .g a, .g b], [.g d]⟩ s fun s => retireWr d (rd s a + rd s b) s

/-- SUB (R62). -/
def execSub (d a b : BitVec 7) (s : State) : Out State :=
  enter ⟨[.g d, .g a, .g b], [.g d]⟩ s fun s => retireWr d (rd s a - rd s b) s

/-- AND (R62). -/
def execAnd (d a b : BitVec 7) (s : State) : Out State :=
  enter ⟨[.g d, .g a, .g b], [.g d]⟩ s fun s => retireWr d (rd s a &&& rd s b) s

/-- OR (R62). -/
def execOr (d a b : BitVec 7) (s : State) : Out State :=
  enter ⟨[.g d, .g a, .g b], [.g d]⟩ s fun s => retireWr d (rd s a ||| rd s b) s

/-- XOR (R62). -/
def execXor (d a b : BitVec 7) (s : State) : Out State :=
  enter ⟨[.g d, .g a, .g b], [.g d]⟩ s fun s => retireWr d (rd s a ^^^ rd s b) s

/-- ANDN (R62). -/
def execAndn (d a b : BitVec 7) (s : State) : Out State :=
  enter ⟨[.g d, .g a, .g b], [.g d]⟩ s fun s => retireWr d (rd s a &&& ~~~rd s b) s

/-- SHL (R62): by b<5:0>. -/
def execShl (d a b : BitVec 7) (s : State) : Out State :=
  enter ⟨[.g d, .g a, .g b], [.g d]⟩ s fun s => retireWr d (rd s a <<< ((rd s b).toNat % 64)) s

/-- SHR (R62). -/
def execShr (d a b : BitVec 7) (s : State) : Out State :=
  enter ⟨[.g d, .g a, .g b], [.g d]⟩ s fun s => retireWr d (rd s a >>> ((rd s b).toNat % 64)) s

/-- SAR (R62). -/
def execSar (d a b : BitVec 7) (s : State) : Out State :=
  enter ⟨[.g d, .g a, .g b], [.g d]⟩ s fun s => retireWr d ((rd s a).sshiftRight ((rd s b).toNat % 64)) s

/-- ROL (R62). -/
def execRol (d a b : BitVec 7) (s : State) : Out State :=
  enter ⟨[.g d, .g a, .g b], [.g d]⟩ s fun s => retireWr d ((rd s a).rotateLeft ((rd s b).toNat % 64)) s

/-- ROR (R62). -/
def execRor (d a b : BitVec 7) (s : State) : Out State :=
  enter ⟨[.g d, .g a, .g b], [.g d]⟩ s fun s => retireWr d ((rd s a).rotateRight ((rd s b).toNat % 64)) s

/-- SLT (R62). -/
def execSlt (d a b : BitVec 7) (s : State) : Out State :=
  enter ⟨[.g d, .g a, .g b], [.g d]⟩ s fun s => retireWr d (flag (ltS (rd s a) (rd s b))) s

/-- SLTU (R62). -/
def execSltu (d a b : BitVec 7) (s : State) : Out State :=
  enter ⟨[.g d, .g a, .g b], [.g d]⟩ s fun s => retireWr d (flag (ltU (rd s a) (rd s b))) s

/-- SEQ (R62). -/
def execSeq (d a b : BitVec 7) (s : State) : Out State :=
  enter ⟨[.g d, .g a, .g b], [.g d]⟩ s fun s => retireWr d (flag (rd s a == rd s b)) s

/-- MIN (R62). -/
def execMin (d a b : BitVec 7) (s : State) : Out State :=
  enter ⟨[.g d, .g a, .g b], [.g d]⟩ s fun s => retireWr d (if ltS (rd s b) (rd s a) then rd s b else rd s a) s

/-- MAX (R62). -/
def execMax (d a b : BitVec 7) (s : State) : Out State :=
  enter ⟨[.g d, .g a, .g b], [.g d]⟩ s fun s => retireWr d (if ltS (rd s a) (rd s b) then rd s b else rd s a) s

/-- MINU (R63). -/
def execMinu (d a b : BitVec 7) (s : State) : Out State :=
  enter ⟨[.g d, .g a, .g b], [.g d]⟩ s fun s => retireWr d (if ltU (rd s b) (rd s a) then rd s b else rd s a) s

/-- MAXU (R63). -/
def execMaxu (d a b : BitVec 7) (s : State) : Out State :=
  enter ⟨[.g d, .g a, .g b], [.g d]⟩ s fun s => retireWr d (if ltU (rd s a) (rd s b) then rd s b else rd s a) s

/-- MUL (R63). -/
def execMul (d a b : BitVec 7) (s : State) : Out State :=
  enter ⟨[.g d, .g a, .g b], [.g d]⟩ s fun s => retireWr d (rd s a * rd s b) s

/-- MULH (R63). -/
def execMulh (d a b : BitVec 7) (s : State) : Out State :=
  enter ⟨[.g d, .g a, .g b], [.g d]⟩ s fun s => retireWr d (BitVec.ofInt 64 ((rd s a).toInt * (rd s b).toInt / 2 ^ 64)) s

/-- MULHU (R63). -/
def execMulhu (d a b : BitVec 7) (s : State) : Out State :=
  enter ⟨[.g d, .g a, .g b], [.g d]⟩ s fun s => retireWr d (BitVec.ofNat 64 ((rd s a).toNat * (rd s b).toNat / 2 ^ 64)) s

/-- SEL (R63). -/
def execSel (d a b : BitVec 7) (s : State) : Out State :=
  enter ⟨[.g d, .g a, .g b], [.g d]⟩ s fun s => retireWr d (if rd s d ≠ 0 then rd s a else rd s b) s

/-- ILV2 (R65). -/
def execIlv2 (d a b : BitVec 7) (s : State) : Out State :=
  enter ⟨[.g d, .g a, .g b], [.g d]⟩ s fun s => retireWr d (ilv2W (rd s a) (rd s b)) s

/-- ILV3 (R65). -/
def execIlv3 (d a b : BitVec 7) (s : State) : Out State :=
  enter ⟨[.g d, .g a, .g b], [.g d]⟩ s fun s => retireWr d (ilv3W (rd s a) (rd s b) (rd s d)) s

/-- DILV2 (R65). -/
def execDilv2 (d a b : BitVec 7) (s : State) : Out State :=
  enter ⟨[.g d, .g a, .g b], [.g d]⟩ s fun s => retireWr d (dilv2W (rd s a) (rd s b)) s

/-- DILV3 (R65). -/
def execDilv3 (d a b : BitVec 7) (s : State) : Out State :=
  enter ⟨[.g d, .g a, .g b], [.g d]⟩ s fun s => retireWr d (dilv3W (rd s a) (rd s b)) s

/-- EXTR (R66). -/
def execExtr (d a b : BitVec 7) (s : State) : Out State :=
  enter ⟨[.g d, .g a, .g b], [.g d]⟩ s fun s => retireWr d (extrW (rd s a) (rd s b)) s

/-- DEPO (R66). -/
def execDepo (d a b : BitVec 7) (s : State) : Out State :=
  enter ⟨[.g d, .g a, .g b], [.g d]⟩ s fun s => retireWr d (depoW (rd s a) (rd s b) (rd s d)) s

/-- MKPTR (R71). -/
def execMkptr (d a b : BitVec 7) (s : State) : Out State :=
  enter ⟨[.g d, .g a, .g b], [.g d]⟩ s fun s => retireWr d (BitVec.ofNat 64 ((rd s b).toNat % 128 * 2 ^ 57 + addrOf (rd s a))) s

/-- The visibility key of R196: a depth that is negative or NaN always loses; a zero depth counts as +0. -/
def vkeyW (a b : Word) : Word :=
  let z := a.toNat % 2 ^ 32
  let z := if z = 0x80000000 then 0 else z
  if isNan (unpack fmtS z) || fNeg? fmtS z then BitVec.allOnes 64
  else BitVec.ofNat 64 (z * 2 ^ 32 + b.toNat % 2 ^ 32)

/-- VKEY (R196). -/
def execVkey (d a b : BitVec 7) (s : State) : Out State :=
  enter ⟨[.g d, .g a, .g b], [.g d]⟩ s fun s => retireWr d (vkeyW (rd s a) (rd s b)) s

/-- DIV (R63, R64), held 8 turns (R26). -/
def execDiv (d a b : BitVec 7) (s : State) : Out State :=
  enter ⟨[.g d, .g a, .g b], [.g d]⟩ s fun s => hold 8 (pendG d (divW (rd s a) (rd s b))) s

/-- DIVU (R63, R64), held 8 turns. -/
def execDivu (d a b : BitVec 7) (s : State) : Out State :=
  enter ⟨[.g d, .g a, .g b], [.g d]⟩ s fun s => hold 8 (pendG d (divuW (rd s a) (rd s b))) s

/-- REM (R63, R64), held 8 turns. -/
def execRem (d a b : BitVec 7) (s : State) : Out State :=
  enter ⟨[.g d, .g a, .g b], [.g d]⟩ s fun s => hold 8 (pendG d (remW (rd s a) (rd s b))) s

/-- REMU (R63, R64), held 8 turns. -/
def execRemu (d a b : BitVec 7) (s : State) : Out State :=
  enter ⟨[.g d, .g a, .g b], [.g d]⟩ s fun s => hold 8 (pendG d (remuW (rd s a) (rd s b))) s

/-- ADDP (R70). -/
def execAddp (d a b : BitVec 7) (s : State) : Out State :=
  enter ⟨[.g d, .g a, .g b], [.g d]⟩ s fun s => addPtr d (rd s a) (rd s b).toInt s

/-- CLZ (R63). -/
def execClz (d a : BitVec 7) (s : State) : Out State :=
  enter ⟨[.g d, .g a], [.g d]⟩ s fun s => retireWr d (BitVec.ofNat 64 (clzW (rd s a))) s

/-- CTZ (R63). -/
def execCtz (d a : BitVec 7) (s : State) : Out State :=
  enter ⟨[.g d, .g a], [.g d]⟩ s fun s => retireWr d (BitVec.ofNat 64 (ctzW (rd s a))) s

/-- POPC (R63). -/
def execPopc (d a : BitVec 7) (s : State) : Out State :=
  enter ⟨[.g d, .g a], [.g d]⟩ s fun s => retireWr d (BitVec.ofNat 64 (popcW (rd s a))) s

/-- BREV (R63). -/
def execBrev (d a : BitVec 7) (s : State) : Out State :=
  enter ⟨[.g d, .g a], [.g d]⟩ s fun s => retireWr d (brevW (rd s a)) s

/-- BSWAP (R66). -/
def execBswap (d a : BitVec 7) (s : State) : Out State :=
  enter ⟨[.g d, .g a], [.g d]⟩ s fun s => retireWr d (bswapW (rd s a)) s

/-- PTAG (R71). -/
def execPtag (d a : BitVec 7) (s : State) : Out State :=
  enter ⟨[.g d, .g a], [.g d]⟩ s fun s => retireWr d (BitVec.ofNat 64 ((rd s a).toNat / 2 ^ 57)) s

/-- ADDI (R67). -/
def execAddi (d a : BitVec 7) (imm : BitVec 11) (s : State) : Out State :=
  enter ⟨[.g d, .g a], [.g d]⟩ s fun s => retireWr d (rd s a + imm.signExtend 64) s

/-- ANDI (R67). -/
def execAndi (d a : BitVec 7) (imm : BitVec 11) (s : State) : Out State :=
  enter ⟨[.g d, .g a], [.g d]⟩ s fun s => retireWr d (rd s a &&& imm.signExtend 64) s

/-- ORI (R67). -/
def execOri (d a : BitVec 7) (imm : BitVec 11) (s : State) : Out State :=
  enter ⟨[.g d, .g a], [.g d]⟩ s fun s => retireWr d (rd s a ||| imm.signExtend 64) s

/-- XORI (R67). -/
def execXori (d a : BitVec 7) (imm : BitVec 11) (s : State) : Out State :=
  enter ⟨[.g d, .g a], [.g d]⟩ s fun s => retireWr d (rd s a ^^^ imm.signExtend 64) s

/-- SLTI (R67). -/
def execSlti (d a : BitVec 7) (imm : BitVec 11) (s : State) : Out State :=
  enter ⟨[.g d, .g a], [.g d]⟩ s fun s => retireWr d (flag (ltS (rd s a) (imm.signExtend 64))) s

/-- SHLI (R68). -/
def execShli (d a : BitVec 7) (n : BitVec 6) (s : State) : Out State :=
  enter ⟨[.g d, .g a], [.g d]⟩ s fun s => retireWr d (rd s a <<< n.toNat) s

/-- SHRI (R68). -/
def execShri (d a : BitVec 7) (n : BitVec 6) (s : State) : Out State :=
  enter ⟨[.g d, .g a], [.g d]⟩ s fun s => retireWr d (rd s a >>> n.toNat) s

/-- SARI (R68). -/
def execSari (d a : BitVec 7) (n : BitVec 6) (s : State) : Out State :=
  enter ⟨[.g d, .g a], [.g d]⟩ s fun s => retireWr d ((rd s a).sshiftRight n.toNat) s

/-- ROLI (R68). -/
def execRoli (d a : BitVec 7) (n : BitVec 6) (s : State) : Out State :=
  enter ⟨[.g d, .g a], [.g d]⟩ s fun s => retireWr d ((rd s a).rotateLeft n.toNat) s

/-- RORI (R68). -/
def execRori (d a : BitVec 7) (n : BitVec 6) (s : State) : Out State :=
  enter ⟨[.g d, .g a], [.g d]⟩ s fun s => retireWr d ((rd s a).rotateRight n.toNat) s

/-- ADDPI (R70). -/
def execAddpi (d a : BitVec 7) (imm : BitVec 11) (s : State) : Out State :=
  enter ⟨[.g d, .g a], [.g d]⟩ s fun s => addPtr d (rd s a) imm.toInt s

/-- LDI (R69). -/
def execLdi (d : BitVec 7) (imm : BitVec 18) (s : State) : Out State :=
  enter ⟨[.g d], [.g d]⟩ s fun s => retireWr d (imm.signExtend 64) s

/-- LDIH (R69). -/
def execLdih (d : BitVec 7) (imm : BitVec 18) (s : State) : Out State :=
  enter ⟨[.g d], [.g d]⟩ s fun s => retireWr d ((rd s d <<< 18) ||| imm.setWidth 64) s

/-- MOVX (R72): the index has passed order 5. -/
def execMovx (d a : BitVec 7) (imm : BitVec 11) (s : State) : Out State :=
  enter ⟨[.g d, .g a, .idx a imm], [.g d]⟩ s fun s => retireWr d (rdN s (movIdx s a imm).toNat) s

/-- MOVXS (R72): the index has passed order 5. -/
def execMovxs (d a : BitVec 7) (imm : BitVec 11) (s : State) : Out State :=
  enter ⟨[.g d, .g a, .idx a imm], [.idx a imm]⟩ s fun s => retire (wrN (movIdx s a imm).toNat (rd s d) s)

end Sys2Proof.Machine
end

