-- ==== Sys2Proof/Machine/Messages.lean ====
section
/-!
DEFINITION. Messages: SEND, RECV, RECVA and MBOX (R91 to R95), a message's arrival at its core and the start of a thread
(R29, R110 to R113, R123, R398), and the tasks of DYNAMIC placement (R116).
-/

namespace Sys2Proof.Machine

/-! ## Vector-table entries and slot classes -/

/-- The vector-table entry of a message type (R110). -/
def vectorOf (m : Core) (type : Nat) : Word := spGet 0 m.vectors type
/-- EN -/
def vEn (e : Word) : Bool := bits e 63 1 == 1
/-- PRV -/
def vPrv (e : Word) : Bool := bits e 62 1 == 1
/-- CLASS -/
def vClass (e : Word) : Nat := bits e 60 2
/-- PRIO -/
def vPrio (e : Word) : Nat := bits e 58 2
/-- The words of the window, 8 · (WIN + 1). -/
def vWin (e : Word) : Nat := 8 * (bits e 54 4 + 1)
/-- The address of the handler's pair. -/
def vHandler (e : Word) : Nat := bits e 0 54 * 8

/-- The class of a slot (R111). -/
def classOf (slot : Nat) : Nat := if slot < 8 then 0 else if slot < 12 then 1 else if slot < 14 then 2 else 3

/-- Slot `slot` of core `core` is the principal's (R106). -/
def principalSlot (core slot : Nat) : Bool := slot == 15 && core == principalCore (dieOf core)

/-- Slot k of a core holds no thread and may be given one (R106, R111). -/
def slotFree (m : Core) (k : Nat) : Bool :=
  !principalSlot m.num k && (spGet emptySlot m.slots k).st == .empty

/-- The lowest-numbered EMPTY slot of a class (R112). -/
def freeSlot (m : Core) (cls : Nat) : Option Nat := (List.range 16).find? fun k => classOf k == cls && slotFree m k

/-- The lowest run of n free pool words that begins at a multiple of 8 (R29). The principal's thread in slot 15 of a die's first core, of
which the spec gives no WINSIZE, takes no words of the pool. DESIGN CHOICE (log entry 72). -/
def findWindow (m : Core) (n : Nat) : Option Nat :=
  ((List.range 256).map (8 * ·)).find? fun b =>
    decide (b + n ≤ Config.poolWords) &&
      m.slots.all fun e => e.2.st == .empty || decide (b + n ≤ e.2.winBase) || decide (e.2.winBase + e.2.winSize ≤ b)

/-! ## Starting a thread (R113) -/

/-- The thread that a message starts, in slot k, which last issued in cycle `last` (R22), with its window at `base`. DEDUCED (log entry 22).
DEDUCED (log entry 25). -/
def newSlot (now core k base : Nat) (last : Option Nat) (e : Word) (m : Message) : Slot :=
  let launch := m.tag != 0
  let task := ((m.body[0]?).getD 0).toNat
  { emptySlot with
    lastIssue := last
    st := .runnable, winBase := base, winSize := vWin e, pa := vHandler e, widx := 0
    thread := if launch then task else 2 ^ 22 + 16 * core + k
    task := if launch then task else 0
    ntask := if launch then m.ntask else 0
    tag := m.tag, prv := vPrv e, cls := vClass e, elig := now + 1 }

/-- THREAD_CREATE (R113): the thread begins at its handler with the message in g0 to g7. DEDUCED (log entry 25). -/
def createThread (k base : Nat) (m : Message) (s : State) : State :=
  let e := vectorOf s.me (hdrType m.hdr)
  let s := { s with me := { s.me with
    pool := spClear s.me.pool base (vWin e)
    created := some s.clock } }
  let s := setSlot k (newSlot s.clock s.me.num k base (slotOf s k).lastIssue e m) s
  wrSlotRun k 0 (m.hdr :: m.body) s

/-! ## Arrival (R95, R112, R398) -/

/-- A message is core-addressed and waits in the mailbox for a slot of a class. -/
def waitsFor (m : Core) (cls : Nat) (x : Message) : Bool :=
  !hdrDk x.hdr && vClass (vectorOf m (hdrType x.hdr)) == cls

/-- A thread can be created now for a message of vector entry e: the slot and the window (R29, R112). From the cycle of a pre-emption
request on, messages enter the mailbox and start nothing (R141). -/
def canStart (s : State) (e : Word) : Option (Nat × Nat) :=
  if s.me.created = some s.clock ∨ s.switch ≠ .resident then none
  else
    match freeSlot s.me (vClass e), findWindow s.me (vWin e) with
    | some k, some b => some (k, b)
    | _, _ => none

/-- A message is discarded (R95). -/
def discard (s : State) : State := addDrops 1 s

/-- A message enters the mailbox, which wakes RECV and RECVA (R94). -/
def putMail (x : Message) (s : State) : State :=
  wake (fun w => w == .recv) { s with me := { s.me with mbox := s.me.mbox ++ [x] } }

/-- The types of the device's own units that wait in the network for an entry: FAULT and PFAULT (R398). -/
def waitsInNet (type : Nat) : Bool := type == 0xF1 || type == 0xF2

/-- The message is one of a device unit for the principal (R127, R129). -/
def forPrincipal (s : State) (held : Bool) (x : Message) : Bool :=
  !held && waitsInNet (hdrType x.hdr) && hdrDk x.hdr && principalSlot s.me.num (hdrSlot x.hdr)

/-- Bytes of the replay log go to HBM, where the configuration gives it a place (R299). -/
def logData (l : List Byte) (s : State) : State :=
  match s.ctx.logBase with
  | some at_ =>
    let used := s.fw.logUsed
    { writeBytes ⟨s.me.num, 15, 2⟩ (toHomes s (l.mapIdx fun j b => (at_ + used + j, b))) s with
      fw := { s.fw with logUsed := used + l.length } }
  | none => s

/-- Bytes of the replay log for a launch record or a message, which the spec does not lay out: their values are free (R299).
DESIGN CHOICE (log entry 70). -/
def logBytes (n : Nat) (s : State) : State :=
  if s.ctx.logBase.isSome then
    let (l, s) := drawBytes n s
    logData l s
  else s

/-- Event n of an event ring (R294): count, kind, payload; the ring lies in HBM or host memory. -/
def writeEvent (ring n kind : Nat) (body : List Word) (s : State) : State :=
  let at_ := ring + 64 * (n % 4096)
  let ws := BitVec.ofNat 64 n :: BitVec.ofNat 64 kind :: body ++ List.replicate (6 - body.length) 0
  writeBytes ⟨s.me.num, 15, 2⟩
    (toHomes s (ws.mapIdx fun k w => (leBytes 8 w.toNat).mapIdx fun j b => (at_ + 8 * k + j, b)).flatten) s

/-- An event of a context that is not the present one, by the address of its command line. -/
def awayEvent (kind : Nat) (body : List Word) (s : State) (e : Nat × Option CtxFw) : State :=
  match e.2 with
  | some x =>
    let s := writeEvent x.cfg.eventRing x.events kind body s
    { s with away := spSet none s.away e.1 (some { x with events := x.events + 1 }) }
  | none => s

/-- An event is appended to the ring of the context that holds the package (R294); where none does, to those of all that have been
created. DESIGN CHOICE (log entry 37). -/
def appendEvent (kind : Nat) (body : List Word) (s : State) : State :=
  if s.ctx.cores.isEmpty then s.away.foldl (awayEvent kind body) s
  else
    { writeEvent s.ctx.eventRing s.fw.events kind body s with fw := { s.fw with events := s.fw.events + 1 } }

/-- The principal takes a FAULT, which it passes to the host as an event, or a PFAULT, which firmware answers
(R127, R129, R294). DEDUCED (log entry 15). -/
def principalTakes (x : Message) (s : State) : State :=
  let w (k : Nat) : Word := (x.body[k]?).getD 0
  if hdrType x.hdr = 0xF1 then appendEvent 1 (x.body.take 6) s
  else { s with fw := { s.fw with pfaults := s.fw.pfaults ++ [((w 0).toNat, (w 2).toNat, (w 3).toNat)] } }

/-- Fixed mode logs a class-0 message as it enters a mailbox (R299). -/
def logMail (x : Message) (s : State) : State :=
  if s.ctx.fixed && hdrNc x.hdr == 0 then logBytes 72 { s with fw := { s.fw with msgLog := s.fw.msgLog ++ [(s.clock, x)] } }
  else s

/-- A message enters the mailbox of the core acting, and the principal takes its own at once, which frees the entry again. -/
def enterMail (held : Bool) (x : Message) (s : State) : State :=
  let s := logMail x s
  if forPrincipal s held x then principalTakes x s else putMail x s

/-- A message that must have an entry takes its reserved one, or a free one (R398). -/
def enterBox (held : Bool) (x : Message) (s : State) : State :=
  if held || decide (0 < freeEntries s.me) then enterMail held x s
  else if waitsInNet (hdrType x.hdr) then { s with me := { s.me with devWait := s.me.devWait ++ [x] } }
  else discard s

/-- No older waiting message of the class has higher or equal priority (R112). -/
def noOlder (m : Core) (e : Word) : Bool :=
  !m.mbox.any fun x => waitsFor m (vClass e) x && decide (vPrio e ≤ vPrio (vectorOf m (hdrType x.hdr)))

/-- The slot that a slot-addressed message names is EMPTY (R95). -/
def slotEmpty (s : State) (k : Nat) : Bool := !principalSlot s.me.num k && (slotOf s k).st == .empty

/-- A message for a thread on its way to another die follows it (R95). -/
def follow (x : Message) (s : State) : State :=
  let c := s.me.num
  let k := hdrSlot x.hdr
  { s with dies := s.dies.map fun e => (e.1, { e.2 with arrivals := e.2.arrivals.map fun g =>
      if g.core = c ∧ g.from_ = k then { g with late := g.late ++ [x] } else g }) }

/-- A message reaches the core acting (R95, R112, R398): one that starts a thread at once has entered the mailbox on its way, which
fixed mode logs (R299). `held`: its SEND reserved its entry. -/
def arrive (held : Bool) (x : Message) (s : State) : State :=
  let e := vectorOf s.me (hdrType x.hdr)
  if hdrDk x.hdr then
    if slotEmpty s (hdrSlot x.hdr) then discard s
    else if (slotOf s (hdrSlot x.hdr)).st = .migrating then follow x s
    else enterBox held x s
  else if !vEn e then discard s
  else if noOlder s.me e then
    match canStart s e with
    | some (k, b) => createThread k b x (logMail x s)
    | none => enterBox held x s
  else enterBox held x s

/-- The entry that a SEND reserved is no longer reserved: the message is in the mailbox, started a thread, or is
discarded (R92). -/
def unreserve (held : Bool) (s : State) : State :=
  if held then { s with me := { s.me with reserved := s.me.reserved - 1 } } else s

/-- Senders wake if the mailbox has more free entries than before (R24, R92). -/
def freedSince (before : Nat) (s : State) : State := if before < freeEntries s.me then mailboxFreed s else s

/-- The first message on the network that is due at the core acting and equals m. -/
def netFind (s : State) (m : Message) : Option NetMsg :=
  s.net.find? fun n => n.msg == m && hdrCore n.msg.hdr == s.me.num && decide (n.due ≤ s.clock)

/-- MESSAGE_ARRIVAL (R112). -/
def execMessageArrival (m : Message) (s : State) : Out State :=
  match netFind s m with
  | some n =>
    let before := freeEntries s.me
    .next (freedSince before (arrive n.held m (unreserve n.held { s with net := s.net.erase n })))
  | none => .refused (.notDue "MESSAGE_ARRIVAL")

/-- The waiting message of a class that starts next: the highest PRIO, the oldest among equals (R112). -/
def nextWaiting (m : Core) (cls : Nat) : Option Message :=
  (m.mbox.filter (waitsFor m cls)).foldl (fun best x =>
    match best with
    | none => some x
    | some y => if vPrio (vectorOf m (hdrType y.hdr)) < vPrio (vectorOf m (hdrType x.hdr)) then some x else best) none

/-- WAITING_MESSAGE_START (R112): the waiting message of the class starts its thread. -/
def execWaitingMessageStart (cls : Nat) (s : State) : Out State :=
  match nextWaiting s.me cls with
  | some x =>
    match canStart s (vectorOf s.me (hdrType x.hdr)) with
    | some (k, b) =>
      .next (mailboxFreed (createThread k b x { s with me := { s.me with mbox := s.me.mbox.erase x } }))
    | none => .refused (.notDue "WAITING_MESSAGE_START")
  | none => .refused (.notDue "WAITING_MESSAGE_START")

/-- DEVICE_MESSAGE_ENTRY (R398): the oldest waiting FAULT or PFAULT enters. -/
def execDeviceMessageEntry (s : State) : Out State :=
  match s.me.devWait with
  | x :: l =>
    if 0 < freeEntries s.me then .next (mailboxFreed (enterMail false x { s with me := { s.me with devWait := l } }))
    else .refused (.notDue "DEVICE_MESSAGE_ENTRY")
  | [] => .refused (.notDue "DEVICE_MESSAGE_ENTRY")

/-! ## SEND, RECV, RECVA, MBOX -/

/-- SEND (R92). -/
def execSend (ty : BitVec 8) (a b : BitVec 7) (s : State) : Out State :=
  enter ⟨[.g a, .run b 7], []⟩ s fun s =>
    let w := rd s a
    let dst := bits w 12 12
    if bits w 24 24 ≠ 0 ∨ bits w 0 6 ≠ 0 then trap cIllegal w s
    else if !inPartition s dst then trap cPerm w s
    else publish s fun s =>
      if freeEntries (coreOf s dst) = 0 ∨ (coreOf s dst).devWait ≠ [] then park (.mailbox dst) s
      else
      let hdr := mkHdr (bits w 48 16) ty.toNat s.me.num s.iss.slot dst (bits w 8 4) (bits w 7 1 == 1) (bits w 6 1 == 1)
      let x : Message := ⟨hdr, rdRun s b.toNat 7, 0, 0⟩
      retire (sendNet x true (withCore dst (fun s => { s with me := { s.me with reserved := s.me.reserved + 1 } }) s))

/-- The message is eligible for RECV and RECVA of the issuing slot (R94). -/
def recvEligible (s : State) (x : Message) : Bool :=
  if hdrDk x.hdr then hdrSlot x.hdr == s.iss.slot
  else vClass (vectorOf s.me (hdrType x.hdr)) == classOf s.iss.slot

/-- RECV and RECVA: the oldest eligible message that `want` accepts (R94). -/
def recvWhere (b : BitVec 7) (want : Message → Bool) (s : State) : Out State :=
  match s.me.mbox.find? fun x => recvEligible s x && want x with
  | some x =>
    retire (wrRun b.toNat (x.hdr :: x.body) (mailboxFreed { s with me := { s.me with mbox := s.me.mbox.erase x } }))
  | none => park .recv s

/-- RECV (R94). -/
def execRecv (a b : BitVec 7) (s : State) : Out State :=
  enter ⟨[.g a, .run b 8], [.run b 8]⟩ s fun s =>
    let w := rd s a
    recvWhere b (fun x => hdrSeq x.hdr == bits w 48 16 && hdrFrom x.hdr == bits w 24 16) s

/-- RECVA (R94). -/
def execRecva (b : BitVec 7) (s : State) : Out State :=
  enter ⟨[.run b 8], [.run b 8]⟩ s fun s => recvWhere b (fun _ => true) s

/-- MBOX (R95). -/
def execMbox (b : BitVec 7) (s : State) : Out State :=
  enter ⟨[.g b], [.g b]⟩ s fun s =>
    let mine := (s.me.mbox.filter (isFor s.iss.slot)).length
    let waits := (s.me.mbox.filter fun x => !hdrDk x.hdr).length
    retireWr b (BitVec.ofNat 64 (s.me.drops.toNat * 2 ^ 48 + freeEntries s.me * 2 ^ 16 + mine * 2 ^ 8 + waits)) s

/-! ## DYNAMIC placement (R116) -/

/-- The message that a task of a range starts its thread with (R114, R116). -/
def taskMessage (type task core : Nat) (r : TaskRange) : Message :=
  ⟨mkHdr task type (principalCore (dieOf core)) 15 core 0 false false, BitVec.ofNat 64 task :: r.args, r.tag, r.ntask⟩

/-- The core requests a task of the range (R116, R123). -/
def requests (s : State) (r : TaskRange) (c : Nat) : Option (Nat × Nat) :=
  let s := focus c s
  let e := vectorOf s.me r.type
  if r.cores.contains c && vEn e && !s.me.mbox.any (waitsFor s.me (vClass e)) then canStart s e else none

/-- DYNAMIC_TASK_DISPATCH (R116): the oldest range's next task goes to the lowest requesting core, once in a cycle. -/
def execDynamicTaskDispatch (cluster : Nat) (s : State) : Out State :=
  let cl := clusterAt s cluster
  match (if cl.served = some s.clock then [] else cl.dispatch) with
  | [] => .refused (.notDue "DYNAMIC_TASK_DISPATCH")
  | r :: rs =>
    match r.cores.find? fun c => (requests s r c).isSome with
    | none => .refused (.notDue "DYNAMIC_TASK_DISPATCH")
    | some c =>
      match requests s r c with
      | none => .refused (.notDue "DYNAMIC_TASK_DISPATCH")
      | some (k, b) =>
        let r' := { r with next := r.next + 1 }
        let s := setCluster cluster
          { cl with dispatch := (if r'.next < r.stop then r' :: rs else rs), served := some s.clock } s
        .next (withCore c (createThread k b (taskMessage r.type r.next c r)) s)

end Sys2Proof.Machine
end

