-- ==== Sys2Proof/Machine/Engines.lean ====
section
/-!
DEFINITION. What the engines share: a queued command, engine accesses (R277), the end of a command by an engine fault
(R278), counting at the command's handle (R240), the messages of an engine to its pusher (R278, R283, R398), and the
checks of a push (R207, R366).
-/

namespace Sys2Proof.Machine

/-! ## Commands -/

/-- KIND of a command (R207, R336). -/
def engKind (r : Rec) : Nat := recNat r 0 1

/-- HND of a record: byte 6 of XSTRIPE and REPROJ records, byte 1 of the others (R200, R208, R280). -/
def engHnd (r : Rec) : Nat := recNat r (if engKind r = 0x21 ∨ engKind r = 0x50 then 6 else 1) 1

/-- The handle that a command names. -/
def cmdHnd (c : EngCmd) : Nat := engHnd c.recd % 64

/-- The command that the issuing slot pushes: its rights, the generation of its handle, the decode table and the layout
entries as they stand at acceptance (R279, R322). -/
def newCmd (r src dst : Rec) (s : State) : EngCmd :=
  { recd := r, core := s.me.num, slot := s.iss.slot, thread := (cur s).thread, prv := (cur s).prv
    gen := (hGet s (engHnd r % 64)).gen, table := tableOf s, src := src, dst := dst, done := 0, found := 0
    fault := none, denied := false, ready := s.clock + 1 }

/-- Slots of the cores in `at_` that are parked on an engine queue wake (R23). -/
def queueFreed (q : QueueId) (at_ : Nat → Bool) (s : State) : State := wakeIn at_ (fun w => w == .queue q) s

/-! ## Pushes -/

/-- The lowest offset among the errors of a record. -/
def lowest (l : List (Bool × Nat)) : Option Nat :=
  l.foldl (fun m e => if e.1 then (match m with | none => some e.2 | some k => some (Nat.min k e.2)) else m) none

/-- A push once its record has passed its own checks: the handle, the queue, then acceptance in the pusher's turn
(R201, R207, R313, R366, R374). -/
def pushTail (h : Nat) (full : Bool) (q : QueueId) (accept : State → State) (s : State) : Out State :=
  if (hGet s h).st ≠ .free then trap cSchedule (BitVec.ofNat 64 h) s
  else if full then park (.queue q) s
  else retire (accept s)

/-- A push whose record breaks a rule traps CMD_RESERVED with the lowest offset in error, and goes on otherwise. -/
def pushChecked (bad : Option Nat) (s : State) (k : State → Out State) : Out State :=
  match bad with
  | some o => trap cCmdReserved (BitVec.ofNat 64 o) s
  | none => k s

/-- A pointer field with a nonzero bit above bit 56. -/
def farPtr (p : Nat) : Bool := decide (2 ^ 57 ≤ p)

/-! ## Engine accesses (R277) -/

/-- What stops an engine access: a page without a valid leaf, or a fault. -/
inductive EngStop where
  | wait (va : Nat) (kind : AccKind)
  | fault (cause : BitVec 5) (va : Int)
  deriving DecidableEq, Repr

/-- The translation an engine of the core acting takes: the cluster's L2 TLB, then a walk (R237, R277). -/
def engTr (s : State) (va : Nat) : Option Tr :=
  match (clusterAt s (myCluster s)).l2.find? fun t => holds t va with
  | some t => some t
  | none => walk s va

/-- The checks of an engine access at one address, with its pusher's core acting (R277): the home, or what stops it. An AMO
on a page of host memory is a PERM fault (R268). -/
def engAt (c : EngCmd) (k : AccKind) (va : Int) (s : State) : Except EngStop Nat :=
  if outside va then .error (.fault cAddrOvf va)
  else
    let a := va.toNat
    if inDevice a then
      match deviceHome s a with
      | some h => if h < 2 ^ 61 then .ok h else .error (.fault cPerm va)
      | none => .error (.fault cPerm va)
    else
      match engTr s a with
      | none => .error (.wait a k)
      | some t =>
        if (k == .atomic && trTgt t == 1) || pageForbids c.prv (clusterOf c.core) k t then .error (.fault cPerm va)
        else if trReach t = 0 ∧ trHdie t ≠ dieOf c.core then .error (.fault cReach va)
        else .ok (homeIn s t a)

/-- The home of an address that has passed its checks. -/
def engHome (c : EngCmd) (k : AccKind) (va : Int) (s : State) : Nat :=
  match engAt c k va s with
  | .ok h => h
  | .error _ => portHome

/-- The first address of a list that an engine access cannot reach. -/
def engProbe (c : EngCmd) (ps : List (Int × AccKind)) (s : State) : Option EngStop :=
  ps.findSome? fun p => match engAt c p.2 p.1 s with
    | .ok _ => none
    | .error e => some e

/-- The memory that serves an address is down (R212, R277). -/
def engDown (va : Int) (h : Nat) (s : State) : Bool := controllerDown s h || onStuck s va.toNat

/-- The first read of a list that finds its memory controller down or a poisoned atom (R277). -/
def engReadStop (c : EngCmd) (vas : List Int) (s : State) : Option EngStop :=
  vas.findSome? fun va =>
    let h := engHome c .read va s
    if engDown va h s then some (.fault cMemDown va)
    else if isBad s h then some (.fault cPoison va)
    else none

/-- An engine reads at addresses: it asks for the banks of those that lie in a scratchpad (R27). -/
def engAsk (c : EngCmd) (vas : List Int) (s : State) : State := askBanks (vas.map fun va => engHome c .read va s) s

/-- n bytes from an address, read as one little-endian number. -/
def engNat (c : EngCmd) (va : Int) (n : Nat) (s : State) : Nat :=
  let h := engHome c .read va s
  leNat ((List.range n).map fun k => byteAt s (h + k))

/-- The addresses of the 32-byte atoms that n bytes from an address touch, the first at the address itself. -/
def atomAddrs (va : Int) (n : Nat) : List Int :=
  if n = 0 then []
  else
    let first := va / 32
    let last := (va + n - 1) / 32
    (List.range ((last - first).toNat + 1)).map fun (k : Nat) => if k = 0 then va else (first + (k : Int)) * 32

/-- n bytes from an address, atom by atom. -/
def engBytes (c : EngCmd) (va : Int) (n : Nat) (s : State) : List Byte :=
  ((atomAddrs va n).map fun a =>
    let h := engHome c .read a s
    (List.range ((a / 32 + 1) * 32 - a).toNat).map fun k => byteAt s (h + k)).flatten.take n

/-- The byte writes of consecutive bytes from an address, atom by atom. -/
def engPut (c : EngCmd) (va : Int) (l : List Byte) (s : State) : List (Nat × Byte) :=
  (atomAddrs va l.length).flatMap fun a =>
    let h := engHome c .write a s
    ((l.drop (a - va).toNat).take ((a / 32 + 1) * 32 - a).toNat).mapIdx fun k b => (h + k, b)

/-- An engine of the core acting writes bytes at their homes (R257). -/
def engWrite (c : EngCmd) (l : List (Nat × Byte)) (s : State) : State :=
  if l.isEmpty then s else writeBytes ⟨c.core, 15, 2⟩ l s

/-! ## Shootdowns (R210, R229) -/

/-- An access of a core that was translated by a page that the test accepts has not been applied yet. -/
def usesPages (p : Tr → Bool) (m : Core) : Bool :=
  m.relaxed.any (fun a => a.pages.any p) || m.posted.any (fun x => x.pages.any p) ||
    m.slots.any fun e => match e.2.st with | .waiting (.reply a) => a.pages.any p | _ => false

/-- Such an access is under way anywhere in the package. -/
def anyInFlight (p : Tr → Bool) (s : State) : Bool :=
  usesPages p s.me || s.others.any fun e => match e.2 with | some m => usesPages p m | none => false

/-- A core's TLBs without the entries that the test accepts. -/
def dropTlb (p : Tr → Bool) (m : Core) : Core :=
  { m with itlb := m.itlb.filter (fun e => !p e.tr), dtlb := m.dtlb.filter fun e => !p e.tr }

/-- Every TLB of the package without the entries that the test accepts. -/
def shootDown (p : Tr → Bool) (s : State) : State :=
  { s with
    me := dropTlb p s.me
    others := s.others.map fun e => (e.1, e.2.map (dropTlb p))
    clusters := s.clusters.map fun e => (e.1, { e.2 with l2 := e.2.l2.filter fun t => !p t }) }

/-- A page as no walk gives it any more; a page that is re-striped has its own shootdown (R210, R229). -/
def stale (s : State) (t : Tr) : Bool :=
  !(s.restripes.any fun r => r.vbase == t.vbase) && walk s t.vbase != some t

/-! ## Counting, messages, ends -/

/-- n sectors counted at the command's handle, with its pusher's core acting (R240). -/
def engCount (c : EngCmd) (n : Nat) (s : State) : State :=
  if (hGet s (cmdHnd c)).gen = c.gen then hCount (cmdHnd c) n s else s

/-- The handle takes its EXPECTED at the command's end, and is FULL (R286, R348). -/
def engFull (c : EngCmd) (n : Nat) (s : State) : State :=
  let v := hGet s (cmdHnd c)
  if v.gen = c.gen then
    hSet (cmdHnd c) { v with st := .full, counted := BitVec.ofNat 28 n, expected := BitVec.ofNat 28 n } s
  else s

/-- The handle reference of a command at its acceptance. -/
def cmdRef (c : EngCmd) : Word := BitVec.ofNat 64 (c.gen.toNat * 2 ^ 16 + cmdHnd c)

/-- A message to the pusher enters its mailbox, or is discarded and counted (R278, R283, R398). -/
def engMessage (c : EngCmd) (type : Nat) (body : List Word) (s : State) : State :=
  let m : Message := ⟨mkHdr c.gen.toNat type c.core c.slot c.core c.slot true false, body, 0, 0⟩
  if c.live then arrive false m s else discard s

/-- A word that the spec leaves unstated. -/
def drawWord (s : State) : Word × State := (Config.freeWord s.freeUsed, { s with freeUsed := s.freeUsed + 1 })

/-- The progress word of a command (R134): the spec gives the matrix and the transfer engine one, and the others
none. -/
def progressOf (c : EngCmd) (s : State) : Word × State :=
  if engKind c.recd < 0x30 then (BitVec.ofNat 64 c.done, s) else drawWord s

/-- The end of a command by a fault (R278): the EFAULT, then the handle FREE. The command leaves its queue beside
this. -/
def engFault (c : EngCmd) (cause : BitVec 5) (va : Word) (s : State) : State :=
  let (p, s) := progressOf c s
  let s := engMessage c 0xF6
    [BitVec.ofNat 64 (engKind c.recd), cmdRef c, cause.setWidth 64, va, p, 0, 0] s
  if (hGet s (cmdHnd c)).gen = c.gen then hFree (cmdHnd c) s else s

/-- The codes of an engine's access kinds in a PFAULT (R277). -/
def engKindCode (k : AccKind) : Nat := match k with | .read => 4 | .write => 5 | _ => 7

/-- An engine waits on a page without a valid leaf: its PFAULT goes out (R277, R129). -/
def engPfault (c : EngCmd) (va : Nat) (k : AccKind) (s : State) : State :=
  sendPrincipal 0xF2 c.slot
    [BitVec.ofNat 64 va, BitVec.ofNat 64 (engKindCode k), BitVec.ofNat 64 c.thread, BitVec.ofNat 64 (16 * c.core + c.slot),
      0, 0, 0] (dieOf c.core) s

/-- The command with a wait noted on it. -/
def waiting (c : EngCmd) (va : Nat) : EngCmd := { c with fault := some va, denied := false }

/-- The command's next step comes one cycle and a delay later. -/
def nextStep (c : EngCmd) (s : State) : EngCmd × State :=
  let (d, s) := popDelay s
  ({ c with ready := s.clock + 1 + d }, s)

/-- An address that PWAKE has denied is a PERM fault; a command that still waits takes no step (R277). -/
def deniedAt (c : EngCmd) : Option Nat := if c.denied then c.fault else none

/-- The command may take its next step in this cycle. -/
def canStep (s : State) (c : EngCmd) : Bool := decide (c.ready ≤ s.clock) && (c.fault.isNone || c.denied)

end Sys2Proof.Machine
end

