-- ==== Sys2Proof/Machine/Routing.lean ====
section
/-!
DEFINITION. The routing engine of a cluster: the push of an RTSORT record (R313) and its run (R314).
-/

namespace Sys2Proof.Machine

/-- NPAIR -/
def rtPairs (r : Rec) : Nat := recNat r 2 2
/-- NEXP -/
def rtExperts (r : Rec) : Nat := recNat r 4 2
/-- SRC -/
def rtSrc (r : Rec) : Nat := recNat r 8 8
/-- PERM -/
def rtPerm (r : Rec) : Nat := recNat r 16 8
/-- CNT -/
def rtCnt (r : Rec) : Nat := recNat r 24 8
/-- OFFS -/
def rtOffs (r : Rec) : Nat := recNat r 32 8

/-- Check 1 of R313. -/
def sortBad (r : Rec) : Option Nat :=
  lowest [(recNat r 1 1 / 64 != 0, 1), (rtPairs r == 0 || decide (4096 < rtPairs r), 2),
    (rtExperts r == 0 || decide (256 < rtExperts r), 4), (recNat r 6 2 != 0, 6),
    (farPtr (rtSrc r) || rtSrc r % 8 != 0, 8), (farPtr (rtPerm r) || rtPerm r % 32 != 0, 16),
    (farPtr (rtCnt r) || rtCnt r % 32 != 0, 24), (farPtr (rtOffs r) || rtOffs r % 32 != 0, 32),
    (recNat r 40 24 != 0, 40)]

/-- ⌈n / 32⌉ -/
def sectors (n : Nat) : Nat := (n + 31) / 32

/-- EXPECTED of a command, and what its three regions count (R313, R314). -/
def rtSectors (r : Rec) : Nat :=
  sectors (8 * rtPairs r) + sectors (4 * rtExperts r) + sectors (4 * (rtExperts r + 1))

/-- The command enters the cluster's queue. -/
def sortAccept (r : Rec) (s : State) : State :=
  let c := newCmd r 0 0 s
  let k := myCluster s
  hTake (engHnd r % 64) 18 (rtSectors r) (setCluster k { clusterAt s k with rq := (clusterAt s k).rq ++ [c] } s)

/-- A push to the routing queue (R313). -/
def pushSort (r : Rec) (s : State) : Out State :=
  if engKind r ≠ 0x30 then trap cCmdReserved 0 s
  else pushChecked (sortBad r) s fun s =>
    pushTail (engHnd r % 64) (decide (8 ≤ (clusterAt s (myCluster s)).rq.length)) .routing (sortAccept r) s

/-- An input entry: its index and its 64 bits. -/
abbrev RouteEntry := Nat × Nat

/-- The expert of an entry. -/
def reExpert (e : RouteEntry) : Nat := e.2 / 2 ^ 16 % 256
/-- The token of an entry. -/
def reToken (e : RouteEntry) : Nat := e.2 % 2 ^ 16
/-- The key order of R314: expert, token, input index. -/
def reBefore (a b : RouteEntry) : Bool :=
  decide (reExpert a < reExpert b) ||
    (reExpert a == reExpert b && (decide (reToken a < reToken b) || (reToken a == reToken b && decide (a.1 < b.1))))

/-- An entry put in its place. -/
def reInsert (e : RouteEntry) : List RouteEntry → List RouteEntry
  | [] => [e]
  | x :: xs => if reBefore e x then e :: x :: xs else x :: reInsert e xs

/-- The entries sorted by key. -/
def reSort (l : List RouteEntry) : List RouteEntry := l.foldr reInsert []

/-- The output entry of a sorted input entry (R313). -/
def reOut (e : RouteEntry) : Nat := e.2 / 2 ^ 32 * 2 ^ 32 + reToken e * 2 ^ 16 + e.1 % 2 ^ 12

/-- counts[e] -/
def reCount (l : List RouteEntry) (e : Nat) : Nat := (l.filter fun x => reExpert x == e).length
/-- offsets[e]: the sum of the counts below e -/
def reOffset (l : List RouteEntry) (e : Nat) : Nat := (l.filter fun x => decide (reExpert x < e)).length

/-- The byte writes of a run: the permutation, the counts, the offsets. -/
def sortWrites (c : EngCmd) (l : List RouteEntry) (s : State) : List (Nat × Byte) :=
  let r := c.recd
  let n := rtExperts r
  engPut c (rtPerm r) ((reSort l).flatMap fun e => leBytes 8 (reOut e)) s ++
    engPut c (rtCnt r) ((List.range n).flatMap fun e => leBytes 4 (reCount l e)) s ++
    engPut c (rtOffs r) ((List.range (n + 1)).flatMap fun e => leBytes 4 (reOffset l e)) s

/-- The head of a cluster's routing queue leaves it. -/
def routingPop (k : Nat) (s : State) : State :=
  queueFreed .routing (fun c => clusterOf c == k) (setCluster k { clusterAt s k with rq := (clusterAt s k).rq.drop 1 } s)

/-- The head of the cluster's queue stops: it waits on a page, or ends by a fault (R277, R278). -/
def routingStop (k : Nat) (c : EngCmd) (e : EngStop) (s : State) : State :=
  match e with
  | .wait va kind =>
    engPfault c va kind (setCluster k { clusterAt s k with rq := waiting c va :: (clusterAt s k).rq.drop 1 } s)
  | .fault cause va => engFault c cause (BitVec.ofInt 64 va) (routingPop k s)

/-- The run of a command, with its pusher's core acting (R314): every entry is read before anything is written. -/
def routingRun (k : Nat) (c : EngCmd) (s : State) : State :=
  let r := c.recd
  let src := atomAddrs (rtSrc r) (8 * rtPairs r)
  let dst := atomAddrs (rtPerm r) (8 * rtPairs r) ++ atomAddrs (rtCnt r) (4 * rtExperts r) ++
    atomAddrs (rtOffs r) (4 * (rtExperts r + 1))
  match deniedAt c with
  | some va => routingStop k c (.fault cPerm va) s
  | none =>
    match engProbe c (src.map fun a => (a, .read)) s with
    | some e => routingStop k c e s
    | none =>
      match engReadStop c src s with
      | some e => routingStop k c e s
      | none =>
        let l : List RouteEntry := (List.range (rtPairs r)).map fun i => (i, engNat c (rtSrc r + 8 * i : Nat) 8 s)
        match l.find? fun e => decide (rtExperts r ≤ reExpert e) || e.2 / 2 ^ 24 % 256 != 0 with
        | some e => routingStop k c (.fault cCmdReserved (rtSrc r + 8 * e.1 : Nat)) s
        | none =>
          match engProbe c (dst.map fun a => (a, .write)) s with
          | some e => routingStop k c e s
          | none =>
            match dst.find? fun a => engDown a (engHome c .write a s) s with
            | some a => routingStop k c (.fault cMemDown a) s
            | none => engCount c (rtSectors r) (routingPop k (engWrite c (sortWrites c l s) (engAsk c src s)))

/-- The routing engine of a cluster runs the head of its queue (R313, R314). -/
def execRoutingRun (cluster : Nat) (s : State) : Out State :=
  match (clusterAt s cluster).rq with
  | c :: _ => if canStep s c then .next (withCore c.core (routingRun cluster c) s) else .refused (.notDue "ROUTING_RUN")
  | [] => .refused (.notDue "ROUTING_RUN")

end Sys2Proof.Machine
end

