-- ==== Sys2Proof/Machine/Reproj.lean ====
section
/-!
DEFINITION. The reprojection unit of a die: the push of a REPROJ record (R200, R201) and its run (R202).
-/

namespace Sys2Proof.Machine

/-- W -/
def rpW (r : Rec) : Nat := recNat r 2 2
/-- H -/
def rpH (r : Rec) : Nat := recNat r 4 2
/-- SRC -/
def rpSrc (r : Rec) : Nat := recNat r 8 8
/-- DST -/
def rpDst (r : Rec) : Nat := recNat r 16 8
/-- GUIDE -/
def rpGuide (r : Rec) : Nat := recNat r 24 8
/-- MAT -/
def rpMat (r : Rec) : Nat := recNat r 32 8
/-- DTOL -/
def rpTol (r : Rec) : Num := unpack fmtS (recNat r 40 4)

/-- A dimension that is 0 or above 16,384. -/
def rpDimBad (n : Nat) : Bool := n == 0 || decide (16384 < n)

/-- DTOL is negative, infinite or NaN; -0 is no negative value. DEDUCED (log entry 49). -/
def tolBad (x : Num) : Bool := !isFin x || ltN x (.fin false 0 0)

/-- The lowest field of a REPROJ record in error (R126, R200, R201). DEDUCED (log entry 49). -/
def reprojBad (r : Rec) : Option Nat :=
  lowest [(recNat r 1 1 != 0, 1), (rpDimBad (rpW r), 2), (rpDimBad (rpH r), 4), (recNat r 6 1 / 64 != 0, 6), (recNat r 7 1 != 0, 7),
    (farPtr (rpSrc r) || rpSrc r % 8 != 0 || (rpSrc r == rpDst r && rpGuide r != 0), 8),
    (farPtr (rpDst r) || rpDst r % 8 != 0, 16), (farPtr (rpGuide r) || rpGuide r % 4 != 0, 24),
    (farPtr (rpMat r) || rpMat r % 64 != 0, 32), (rpGuide r != 0 && tolBad (rpTol r), 40), (recNat r 44 20 != 0, 44)]

/-- The record enters the die's queue. -/
def reprojAccept (r : Rec) (s : State) : State :=
  let c := newCmd r 0 0 s
  let d := myDie s
  hTake (engHnd r % 64) 20 ((rpW r * rpH r + 3) / 4) (setDie d { dieAt s d with pq := (dieAt s d).pq ++ [c] } s)

/-- A push to the reprojection queue (R201). -/
def pushReproj (r : Rec) (s : State) : Out State :=
  if engKind r ≠ 0x50 then trap cCmdReserved 0 s
  else pushChecked (reprojBad r) s fun s =>
    pushTail (engHnd r % 64) (decide (8 ≤ (dieAt s (myDie s)).pq.length)) .reproj (reprojAccept r) s

/-! ## The run -/

/-- RNE to FP32, as a value. -/
def rneS (x : Num) : Num := unpack fmtS (roundTo fmtS .rne x)

/-- x + 0.5 -/
def halfPast (x : Nat) : Num := .fin false (2 * x + 1) (-1)

/-- M[i][j], from the copy of the 64 bytes at MAT. -/
def matAt (m : Rec) (i j : Nat) : Num := unpack fmtS (recNat m (16 * i + 4 * j) 4)

/-- p_i of R202: exact until it is rounded once. -/
def rpRow (m : Rec) (v : List Num) (i : Nat) : Num :=
  rneS ((List.range 4).foldl (fun acc j => addN acc (mulN (matAt m i j) ((v[j]?).getD .nan))) (.fin true 0 0))

/-- The floor of a finite value. -/
def floorN (x : Num) : Int := match x with | .fin neg m e => roundInt .rd neg m e | _ => -1

/-- Where a pixel's key goes (R202): the destination pixel and zd, if the pixel is carried so far. -/
def rpTarget (m : Rec) (w h x y key : Nat) : Option (Nat × Num) :=
  if key = 2 ^ 64 - 1 then none
  else
    let v : List Num := [halfPast x, halfPast y, unpack fmtS (key / 2 ^ 32), .fin false 1 0]
    let p (i : Nat) : Num := rpRow m v i
    if !((List.range 4).all fun i => isFin (p i)) || !ltN (.fin false 0 0) (p 3) then none
    else
      let xd := rneS (divN (p 0) (p 3))
      let yd := rneS (divN (p 1) (p 3))
      let zd := rneS (divN (p 2) (p 3))
      if !isFin xd || !isFin yd then none
      else
        let cx := floorN xd
        let cy := floorN yd
        if decide (0 ≤ cx) && decide (cx < w) && decide (0 ≤ cy) && decide (cy < h) && leN (.fin false 0 0) zd
        then some ((cy * w + cx).toNat, zd) else none

/-- The depth-consistency test (R202). -/
def rpAgrees (tol g zd : Num) : Bool :=
  isFin g && leN (.fin false 0 0) g && leN (absN (addN zd (negN g))) (mulN tol g)

/-- The key that is offered: VKEY(zd, K<31:0>). -/
def rpKey (zd : Num) (key : Nat) : Nat :=
  (vkeyW (BitVec.ofNat 64 (roundTo fmtS .rne zd)) (BitVec.ofNat 64 (key % 2 ^ 32))).toNat

/-- An engine read of n bytes within one atom: its number and the state that has asked for its bank (R27), or what stops it
(R277). -/
def engRead (c : EngCmd) (va n : Nat) (s : State) : Except EngStop (Nat × State) :=
  match engProbe c [((va : Int), .read)] s with
  | some e => .error e
  | none => match engReadStop c [(va : Int)] s with
    | some e => .error e
    | none => .ok (engNat c va n s, engAsk c [(va : Int)] s)

/-- An engine's AMOMINU.D at a plain address (R199, R277). DEDUCED (log entry 53). -/
def engAmoMinu (c : EngCmd) (va key : Nat) (s : State) : Except EngStop State :=
  match engAt c .atomic va s with
  | .error e => .error e
  | .ok h =>
    if engDown va h s then .error (.fault cMemDown va)
    else if isBad s h then .error (.fault cPoison va)
    else
      let old := leNat ((List.range 8).map fun k => byteAt s (h + k))
      let new := if key < old then key else old
      .ok (engWrite c ((leBytes 8 new).mapIdx fun k b => (h + k, b)) s)

/-- One source pixel (R202). -/
def rpPixel (c : EngCmd) (s : State) : Except EngStop State :=
  let r := c.recd
  let w := rpW r
  let h := rpH r
  match engRead c (rpSrc r + 8 * c.done) 8 s with
  | .error e => .error e
  | .ok (key, s) =>
    match rpTarget c.src w h (c.done % w) (c.done / w) key with
    | none => .ok s
    | some (at_, zd) =>
      if rpGuide r = 0 then engAmoMinu c (rpDst r + 8 * at_) (rpKey zd key) s
      else
        match engRead c (rpGuide r + 4 * at_) 4 s with
        | .error e => .error e
        | .ok (g, s) =>
          if rpAgrees (rpTol r) (unpack fmtS g) zd then engAmoMinu c (rpDst r + 8 * at_) (rpKey zd key) s else .ok s

/-- Up to `n` pixels, until the end of their run of four or of the record: the command, the state, and what stopped
it. -/
def rpPixels (c : EngCmd) : Nat → State → EngCmd × State × Option EngStop
  | 0, s => (c, s, none)
  | n + 1, s =>
    match rpPixel c s with
    | .error e => (c, s, some e)
    | .ok s' =>
      let c' := { c with done := c.done + 1 }
      if c'.done % 4 = 0 ∨ c'.done = rpW c.recd * rpH c.recd then (c', s', none)
      else rpPixels c' n s'

/-- The head of a die's reprojection queue becomes c. -/
def reprojHead (d : Nat) (c : EngCmd) (s : State) : State :=
  setDie d { dieAt s d with pq := c :: (dieAt s d).pq.drop 1 } s

/-- The head of a die's reprojection queue leaves it. -/
def reprojPop (d : Nat) (s : State) : State :=
  queueFreed .reproj (fun c => dieOf c == d) (setDie d { dieAt s d with pq := (dieAt s d).pq.drop 1 } s)

/-- The running record stops. -/
def reprojStop (d : Nat) (c : EngCmd) (e : EngStop) (s : State) : State :=
  match e with
  | .wait va k => engPfault c va k (reprojHead d (waiting c va) s)
  | .fault cause va => engFault c cause (BitVec.ofInt 64 va) (reprojPop d s)

/-- The bytes at MAT, read once at the start of a record. -/
def rpReadMat (c : EngCmd) (s : State) : Except EngStop EngCmd :=
  if c.found = 1 then .ok c
  else
    let ps := atomAddrs (rpMat c.recd) 64
    match engProbe c (ps.map fun a => (a, .read)) s with
    | some e => .error e
    | none => match engReadStop c ps s with
      | some e => .error e
      | none => .ok { c with found := 1, src := BitVec.ofNat 512 (leNat (engBytes c (rpMat c.recd) 64 s)) }

/-- A run of four pixels, with the pusher's core acting. -/
def reprojRun (d : Nat) (c : EngCmd) (s : State) : State :=
  match deniedAt c with
  | some va => reprojStop d c (.fault cPerm va) s
  | none =>
    match rpReadMat c s with
    | .error e => reprojStop d c e s
    | .ok c =>
      match rpPixels c 4 (if c.done = 0 then engAsk c (atomAddrs (rpMat c.recd) 64) s else s) with
      | (c', s', some e) => reprojStop d c' e s'
      | (c', s', none) =>
        if c'.done = rpW c.recd * rpH c.recd then engCount c' 1 (reprojPop d s')
        else
          let (c', s') := nextStep { c' with fault := none, denied := false } s'
          reprojHead d c' (engCount c' 1 s')

/-- The reprojection unit of a die takes the next run of four pixels of its head record (R201, R202). -/
def execReprojRun (die : Nat) (s : State) : Out State :=
  match (dieAt s die).pq with
  | c :: _ => if canStep s c then .next (withCore c.core (reprojRun die c) s) else .refused (.notDue "REPROJ_RUN")
  | [] => .refused (.notDue "REPROJ_RUN")

end Sys2Proof.Machine
end

