-- ==== Sys2Proof/Machine/Collective.lean ====
section
/-!
DEFINITION. The collective engine of a die: the push of its four records (R374 to R376), the start of a command with
its group list and matches (R347, R374), the results (R348, R349) and the ends by a fault (R350).
-/

namespace Sys2Proof.Machine

/-! ## Records -/

/-- GID -/
def clGid (r : Rec) : Nat := recNat r 2 2
/-- NPART -/
def clParts (r : Rec) : Nat := recNat r 4 4
/-- A2AV -/
def isA2av (r : Rec) : Bool := engKind r == 0x40
/-- GRP -/
def clGrp (r : Rec) : Nat := recNat r (if isA2av r then 8 else 16) 8
/-- SBUF -/
def avSbuf (r : Rec) : Nat := recNat r 16 8
/-- SCNTP -/
def avScnt (r : Rec) : Nat := recNat r 24 8
/-- RBUF -/
def avRbuf (r : Rec) : Nat := recNat r 32 8
/-- RCNTP -/
def avRcnt (r : Rec) : Nat := recNat r 40 8
/-- RCAP -/
def avRcap (r : Rec) : Nat := recNat r 48 4
/-- EFMT -/
def arFmt (r : Rec) : Nat := recNat r 8 1
/-- OP -/
def arOp (r : Rec) : Nat := recNat r 9 1
/-- SRC -/
def arSrc (r : Rec) : Nat := recNat r 24 8
/-- DST -/
def arDst (r : Rec) : Nat := recNat r 32 8
/-- COUNT -/
def arCount (r : Rec) : Nat := recNat r 40 4
/-- Element bytes. -/
def arE (r : Rec) : Nat := elemBytes (arFmt r)
/-- Input bytes (R376). -/
def arIn (r : Rec) : Nat := arCount r * arE r
/-- Output bytes (R376). -/
def arOut (r : Rec) : Nat :=
  match engKind r with
  | 0x42 => clParts r * arCount r * arE r
  | 0x43 => arCount r / clParts r * arE r
  | _ => arCount r * arE r

/-- A pointer that is not plain, or not a multiple of n. -/
def ptrBad (p n : Nat) : Bool := farPtr p || p % n != 0

/-- NPART outside 1 to 8,192. -/
def partsBad (r : Rec) : Bool := clParts r == 0 || decide (8192 < clParts r)

/-- Order 1 of R366 for A2AV (R375). -/
def a2avBad (r : Rec) : Option Nat :=
  lowest [(recNat r 1 1 / 64 != 0, 1), (partsBad r, 4), (ptrBad (clGrp r) 2, 8), (ptrBad (avSbuf r) 32, 16),
    (ptrBad (avScnt r) 8, 24), (ptrBad (avRbuf r) 32, 32), (ptrBad (avRcnt r) 32, 40), (avRcap r % 32 != 0, 48),
    (recNat r 52 12 != 0, 52)]

/-- The input and the output range overlap (R376): AREDUCE in place is no overlap. -/
def arOverlap (r : Rec) : Bool :=
  !(engKind r == 0x41 && arSrc r == arDst r) &&
    decide (Nat.max (arSrc r) (arDst r) < Nat.min (arSrc r + arIn r) (arDst r + arOut r))

/-- Order 1 of R366 for AREDUCE, AGATHER and RSCATTER (R376). A COUNT of RSCATTER that is no multiple of NPART is an error of the
two fields together, the lower of which is NPART at 4. DEDUCED (log entry 48). -/
def foldBad (r : Rec) : Option Nat :=
  let n := arCount r
  lowest [(recNat r 1 1 / 64 != 0, 1), (partsBad r || (engKind r == 0x43 && n % clParts r != 0), 4), (!([0x01, 0x02, 0x04, 0x13].contains (arFmt r)), 8),
    (decide (2 < arOp r) || (engKind r == 0x42 && arOp r != 0), 9), (recNat r 10 6 != 0, 10),
    (ptrBad (clGrp r) 2, 16), (ptrBad (arSrc r) 32 || arOverlap r, 24), (ptrBad (arDst r) 32, 32),
    (n == 0 || decide (2 ^ 31 < n) || decide (2 ^ 28 - 1 < (arOut r + 31) / 32), 40),
    (recNat r 44 20 != 0, 44)]

/-- EXPECTED at acceptance (R375, R376). -/
def clExpected (r : Rec) : Nat := if isA2av r then 2 ^ 28 - 1 else (arOut r + 31) / 32

/-- The command enters its die's queue, as the next of its GID (R374). -/
def collAccept (r : Rec) (s : State) : State :=
  let c := newCmd r 0 0 s
  let d := myDie s
  let v := dieAt s d
  let n := spGet 0 v.gids (clGid r)
  hTake (engHnd r % 64) 19 (clExpected r)
    (setDie d { v with
      cq := v.cq ++ [{ cmd := c, started := false, ranks := [], order := n }]
      gids := spSet 0 v.gids (clGid r) (n + 1) } s)

/-- What follows the record's own checks (R374). -/
def collTail (bad : Option Nat) (r : Rec) (s : State) : Out State :=
  pushChecked bad s fun s =>
    pushTail (engHnd r % 64) (decide (8 ≤ (dieAt s (myDie s)).cq.length)) .collective (collAccept r) s

/-- A push of an A2AV record. -/
def pushA2av (r : Rec) (s : State) : Out State := collTail (a2avBad r) r s
/-- A push of an AREDUCE, AGATHER or RSCATTER record. -/
def pushFold (r : Rec) (s : State) : Out State := collTail (foldBad r) r s

/-- A push to the collective queue (R374). -/
def pushCollective (r : Rec) (s : State) : Out State :=
  match engKind r with
  | 0x40 => pushA2av r s
  | 0x41 => pushFold r s
  | 0x42 => pushFold r s
  | 0x43 => pushFold r s
  | _ => trap cCmdReserved 0 s

/-! ## Group lists -/

/-- PKG of an entry. -/
def grPkg (e : BitVec 16) : Nat := e.toNat / 8 % 1024
/-- Virtual DIE of an entry. -/
def grDie (e : BitVec 16) : Nat := e.toNat % 8

/-- The group list that a command names, with its pusher's core acting. -/
def groupList (c : EngCmd) (s : State) : List (BitVec 16) :=
  (List.range (clParts c.recd)).map fun i => BitVec.ofNat 16 (engNat c (clGrp c.recd + 2 * i : Nat) 2 s)

/-- The entries rise strictly and no reserved bit is set. -/
def groupRises : List (BitVec 16) → Bool
  | [] => true
  | [x] => decide (x.toNat < 2 ^ 13)
  | x :: y :: l => decide (x.toNat < 2 ^ 13) && decide (x.toNat < y.toNat) && groupRises (y :: l)

/-- An entry names a die of the partition: of this package as the context gives its cores, of another as the pod configuration
says. -/
def inGroup (s : State) (e : BitVec 16) : Bool :=
  if grPkg e = s.pkg then dieInPartition s (grDie e)
  else s.ctx.pod.members.any fun m => m.1 == grPkg e && m.2.contains (grDie e)

/-- The fault of a list (R374). -/
def groupFault (die : Nat) (c : EngCmd) (l : List (BitVec 16)) (s : State) : Option EngStop :=
  if !groupRises l || !(l.any fun e => grPkg e == s.pkg && grDie e == die) then
    some (.fault cCmdReserved (clGrp c.recd : Int))
  else
    match (List.range l.length).find? fun i => !inGroup s ((l[i]?).getD 0) with
    | some i => some (.fault cPerm (clGrp c.recd + 2 * i : Nat))
    | none => none

/-- A read of n bytes that may stop. -/
def collReads (c : EngCmd) (va n : Nat) (s : State) : Option EngStop :=
  let ps := atomAddrs va n
  match engProbe c (ps.map fun a => (a, .read)) s with
  | some e => some e
  | none => engReadStop c ps s

/-- A write of n bytes that may stop. -/
def collWrites (c : EngCmd) (va n : Nat) (s : State) : Option EngStop :=
  let ps := atomAddrs va n
  match engProbe c (ps.map fun a => (a, .write)) s with
  | some e => some e
  | none => ps.findSome? fun a => if engDown a (engHome c .write a s) s then some (.fault cMemDown a) else none

/-! ## Ends by a fault (R350) -/

/-- The head of a die's collective queue. -/
def collHead (s : State) (d : Nat) : Option CollCmd := (dieAt s d).cq.head?

/-- The head of a die's queue becomes x. -/
def setCollHead (d : Nat) (x : CollCmd) (s : State) : State :=
  setDie d { dieAt s d with cq := x :: (dieAt s d).cq.drop 1 } s

/-- The head of a die's queue leaves it. -/
def collPop (d : Nat) (s : State) : State :=
  queueFreed .collective (fun c => dieOf c == d) (setDie d { dieAt s d with cq := (dieAt s d).cq.drop 1 } s)

/-- The head of die d ends by a fault, which later matches will find. -/
def collFault (d : Nat) (cause : BitVec 5) (va : Word) (s : State) : State :=
  match collHead s d with
  | some x =>
    let v := dieAt s d
    let s := collPop d (setDie d { v with failed := v.failed ++ [(clGid x.cmd.recd, x.order)] } s)
    withCore x.cmd.core (engFault x.cmd cause va) s
  | none => s

/-- A fault at die d; the other participants of this package take SCHEDULE with address 0 (R350). -/
def collFaultAll (dies : List Nat) (d : Nat) (cause : BitVec 5) (va : Word) (s : State) : State :=
  dies.foldl (fun s k => if k = d then collFault k cause va s else collFault k cSchedule 0 s) s

/-- What stops a participant: the head of die d waits, or every participant of this package ends. -/
def collStop (dies : List Nat) (d : Nat) (x : CollCmd) (e : EngStop) (s : State) : State :=
  match e with
  | .wait va k =>
    withCore x.cmd.core (engPfault x.cmd va k) (setCollHead d { x with cmd := waiting x.cmd va } s)
  | .fault cause va => collFaultAll dies d cause (BitVec.ofInt 64 va) s

/-! ## Starting (R347, R348, R349, R374, R375) -/

/-- Input entry p of an A2AV: SCNT and SOFF. -/
def avEntry (c : EngCmd) (p : Nat) (s : State) : Nat × Nat :=
  let v := engNat c (avScnt c.recd + 8 * p : Nat) 8 s
  (v % 2 ^ 32, v / 2 ^ 32)

/-- The fault of an A2AV's input entries (R375). -/
def avFault (c : EngCmd) (s : State) : Option EngStop :=
  (List.range (clParts c.recd)).findSome? fun p =>
    let (n, off) := avEntry c p s
    let at_ : Int := (avScnt c.recd + 8 * p : Nat)
    if n % 32 ≠ 0 ∨ off % 32 ≠ 0 then some (.fault cCmdReserved at_)
    else if 2 ^ 57 < avSbuf c.recd + off + n then some (.fault cAddrOvf at_)
    else none

/-- What stops the reading of a participant's input. -/
def inputStop (c : EngCmd) (s : State) : Option EngStop :=
  if isA2av c.recd then
    match collReads c (avScnt c.recd) (8 * clParts c.recd) s with
    | some e => some e
    | none =>
      match avFault c s with
      | some e => some e
      | none => (List.range (clParts c.recd)).findSome? fun p =>
          let (n, off) := avEntry c p s
          collReads c (avSbuf c.recd + off) n s
  else collReads c (arSrc c.recd) (arIn c.recd) s

/-- A participant of this package in its list, as its command tells the others: what it brings is read later. -/
def rankHead (rank : Nat) (x : CollCmd) : RemoteRank :=
  { rank := rank, recd := x.cmd.recd, group := x.group, input := [], sends := [], failed := false }

/-- What a participant of this package brings, with its pusher's core acting. DEDUCED (log entry 52). -/
def rankOf (rank : Nat) (x : CollCmd) (s : State) : RemoteRank :=
  let c := x.cmd
  { rankHead rank x with
    input := if isA2av c.recd then [] else engBytes c (arSrc c.recd) (arIn c.recd) s
    sends := if isA2av c.recd then (List.range (clParts c.recd)).map fun p =>
        let (n, off) := avEntry c p s
        engBytes c (avSbuf c.recd + off : Nat) n s
      else [] }

/-- Two matching commands differ in kind, element format, operation or element count, or in their lists (R347,
R374). -/
def differ (a b : RemoteRank) : Bool :=
  engKind a.recd != engKind b.recd || a.group != b.group ||
    (!isA2av a.recd && (arFmt a.recd != arFmt b.recd || arOp a.recd != arOp b.recd || arCount a.recd != arCount b.recd))

/-- The head of die d is the command with this GID and position, may step, and has not started. -/
def headMatches (s : State) (gid order d : Nat) : Bool :=
  match collHead s d with
  | some x => clGid x.cmd.recd == gid && x.order == order && !x.started && canStep s x.cmd
  | none => false

/-- The dies of this package that a list names. -/
def localDies (s : State) (l : List (BitVec 16)) : List Nat :=
  (l.filter fun e => grPkg e == s.pkg).map grDie

/-- The rank of a die of this package in a list. -/
def rankIn (s : State) (l : List (BitVec 16)) (d : Nat) : Nat :=
  ((List.range l.length).find? fun i => grPkg ((l[i]?).getD 0) == s.pkg && grDie ((l[i]?).getD 0) == d).getD 0

/-- What stops a participant before its input is read: its denied page, or its list. `s` has its pusher's core acting. -/
def listStop (d : Nat) (c : EngCmd) (s : State) : Option EngStop :=
  match deniedAt c with
  | some va => some (.fault cPerm va)
  | none => (collReads c (clGrp c.recd) (2 * clParts c.recd) s).orElse fun _ => groupFault d c (groupList c s) s

/-- The addresses that a participant reads of its input. -/
def inputReads (c : EngCmd) (s : State) : List Int :=
  if isA2av c.recd then
    atomAddrs (avScnt c.recd) (8 * clParts c.recd) ++ (List.range (clParts c.recd)).flatMap fun p =>
      let (n, off) := avEntry c p s
      atomAddrs (avSbuf c.recd + off : Nat) n
  else atomAddrs (arSrc c.recd) (arIn c.recd)

/-- The command goes on: a wait on a page is over, and its next step comes a cycle and a delay later. -/
def collGoOn (x : CollCmd) (s : State) : CollCmd × State :=
  let (c, s) := nextStep { x.cmd with fault := none, denied := false } s
  ({ x with cmd := c }, s)

/-- Every local participant starts, with what the ranks of other packages bring. -/
def startAll (dies : List Nat) (remote : List RemoteRank) (s : State) : State :=
  dies.foldl (fun s d => match collHead s d with
    | some x =>
      let (x, s) := collGoOn x s
      setCollHead d { x with started := true, ranks := remote } s
    | none => s) s

/-- What the participants of this package bring goes to each other package of the list in a flit of TYPE 0 (R295, R347).
DESIGN CHOICE (log entry 59). -/
def tellRanks (l : List (BitVec 16)) (s : State) : State :=
  ((l.map grPkg).filter (· != s.pkg)).eraseDups.foldl (fun s p => sendTo p 0 none s) s

/-- The list of a die's head, once it has been read. -/
def listAt (s : State) (d : Nat) : Option (List (BitVec 16)) :=
  match collHead s d with
  | some x => if x.group.isEmpty then none else some x.group
  | none => none

/-- The lists of the matching commands at hand that have to do with a list: those of its own dies, and those that name one of
them. -/
def listsAbout (s : State) (gid order : Nat) (l : List (BitVec 16)) : List (List (BitVec 16)) :=
  ((List.range 8).filter (headMatches s gid order)).filterMap fun d =>
    match listAt s d with
    | some m => if (localDies s l).contains d || (localDies s m).any ((localDies s l).contains ·) then some m else none
    | none => none

/-- A participant has completed its match under another list. -/
def passedOther (s : State) (gid order : Nat) (l : List (BitVec 16)) : Bool :=
  (localDies s l).any fun d => (dieAt s d).passed.any fun e => e.1 == gid && e.2.1 == order && e.2.2 != l

/-- The participants' lists differ: every die that one of them names takes an EFAULT CMD_RESERVED, at once or when its command
comes (R347, R374). -/
def mixAll (gid order : Nat) (ls : List (List (BitVec 16))) (s : State) : State :=
  let (w, s) := drawWord s
  (ls.flatMap (localDies s)).eraseDups.foldl (fun s d =>
    if headMatches s gid order d then collFault d cCmdReserved w s
    else setDie d { dieAt s d with mixed := (dieAt s d).mixed ++ [(gid, order)] } s) s

/-- The engine of a die reads the list of its head, in its pusher's place among what reaches a home (R247, R374). -/
def readList (die : Nat) (x : CollCmd) (s : State) : State :=
  let c := x.cmd
  let sc := focus c.core s
  match listStop die c sc with
  | some e => collStop [die] die x e s
  | none =>
    setCollHead die { x with group := groupList c sc }
      (withCore c.core (engAsk c (atomAddrs (clGrp c.recd) (2 * clParts c.recd))) s)

/-- The head of die d, whose list has been read, is looked for its matches (R347, R374). -/
def matchHead (die : Nat) (x : CollCmd) (remote : List RemoteRank) (s : State) : Out State :=
  let l := x.group
  let dies := localDies s l
  let gid := clGid x.cmd.recd
  if (dieAt s die).mixed.contains (gid, x.order) || passedOther s gid x.order l then
    let (w, s) := drawWord s
    .next (collFault die cCmdReserved w s)
  else if dies.all (headMatches s gid x.order) && (listsAbout s gid x.order l).any (· != l) then
    .next (mixAll gid x.order (listsAbout s gid x.order l) s)
  else if (dies.any fun d => (dieAt s d).failed.contains (gid, x.order)) || (remote.any fun q => q.failed) then
    .next (collFault die cSchedule 0 s)
  else if !(dies.all fun d => headMatches s gid x.order d && (listAt s d).isSome) ||
      !((List.range l.length).all fun i => grPkg ((l[i]?).getD 0) == s.pkg || remote.any fun q => q.rank == i) then
    .refused (.notDue "COLLECTIVE_START")
  else
    let all := remote ++ dies.filterMap fun d => (collHead s d).map (rankHead (rankIn s l d))
    if all.any (differ (rankHead (rankIn s l die) x)) then
      let (w, s) := drawWord s
      .next (dies.foldl (fun s d => collFault d cCmdReserved w s) s)
    else .next (startAll dies remote s)

/-- COLLECTIVE_START (R347, R374): the engine of a die reads the list of its head, and the head starts once every participant has
accepted its match. `remote` is what the participants of other packages bring. A participant of this package whose list stops it
ends or waits before its matches are looked for. DEDUCED (log entry 52). DESIGN CHOICE (log entry 59). -/
def execCollectiveStart (die : Nat) (remote : List RemoteRank) (s : State) : Out State :=
  match collHead s die with
  | none => .refused (.notDue "COLLECTIVE_START")
  | some x =>
    if x.started || !canStep s x.cmd then .refused (.notDue "COLLECTIVE_START")
    else if x.group.isEmpty then .next (readList die x s)
    else matchHead die x remote s

/-! ## Results -/

/-- The bytes of a list as elements of e bytes. -/
def elementAt (e : Nat) (l : List Byte) (i : Nat) : Nat := leNat ((l.drop (e * i)).take e)

/-- The format of EFMT. -/
def collFmt (f : Nat) : Fmt := match f with | 0x01 => fmtD | 0x02 => fmtS | _ => fmtBh

/-- x op y of R349, on patterns. -/
def collOp (f op x y : Nat) : Nat :=
  if f = 0x13 then
    let a := (BitVec.ofNat 32 x).toInt
    let b := (BitVec.ofNat 32 y).toInt
    match op with
    | 0 => (x + y) % 2 ^ 32
    | 1 => if b < a then y else x
    | _ => if a < b then y else x
  else
    let m := collFmt f
    if isNan (unpack m x) || isNan (unpack m y) then m.nanPat
    else match op with
      | 0 => fAdd m x y
      | 1 => fMin m x y
      | _ => fMax m x y

/-- An element on its own: a NaN is canonical (R349, R377). -/
def collOne (f x : Nat) : Nat := if f ≠ 0x13 ∧ isNan (unpack (collFmt f) x) then (collFmt f).nanPat else x

/-- Element i of the fold in ascending rank (R349). -/
def foldElem (r : Rec) (ranks : List RemoteRank) (i : Nat) : Nat :=
  match ranks.map fun q => elementAt (arE r) q.input i with
  | [] => 0
  | x :: xs => xs.foldl (collOp (arFmt r) (arOp r)) (collOne (arFmt r) x)

/-- The result bytes of AREDUCE, RSCATTER and AGATHER at a rank (R349, R376). -/
def foldBytes (r : Rec) (ranks : List RemoteRank) (rank : Nat) : List Byte :=
  match engKind r with
  | 0x42 => ranks.flatMap fun q => q.input
  | 0x43 =>
    let n := arCount r / clParts r
    ((List.range n).map (rank * n + ·)).flatMap fun i => leBytes (arE r) (foldElem r ranks i)
  | _ => (List.range (arCount r)).flatMap fun i => leBytes (arE r) (foldElem r ranks i)

/-- The bytes that rank p is sent, in ascending sender rank. -/
def avBlocks (ranks : List RemoteRank) (p : Nat) : List (List Byte) := ranks.map fun q => (q.sends[p]?).getD []

/-- What an A2AV writes at rank p (R348): what fits of the blocks, and the output entries. -/
def avResult (r : Rec) (ranks : List RemoteRank) (p : Nat) : List Byte × List Byte :=
  let bs := avBlocks ranks p
  let data := bs.flatten.take (avRcap r)
  let entries := (List.range bs.length).flatMap fun q =>
    let off := ((bs.take q).map List.length).foldl (· + ·) 0
    leBytes 8 (off % 2 ^ 32 * 2 ^ 32 + ((bs[q]?).getD []).length)
  (data, entries)

/-- The regions that a started command writes: address and bytes. -/
def collRegions (s : State) (d : Nat) (x : CollCmd) : List (Nat × List Byte) :=
  let r := x.cmd.recd
  let rank := rankIn s x.group d
  if isA2av r then
    let (data, entries) := avResult r x.ranks rank
    [(avRbuf r, data), (avRcnt r, entries)]
  else [(arDst r, foldBytes r x.ranks rank)]

/-- Contributions in rank order. -/
def inRankOrder (n : Nat) (l : List RemoteRank) : List RemoteRank := (List.range n).filterMap fun i => l.find? fun q => q.rank == i

/-- What a participant brings reaches every participant of this package. -/
def shareRank (n : Nat) (q : RemoteRank) (dies : List Nat) (s : State) : State :=
  dies.foldl (fun s d => match collHead s d with
    | some x => setCollHead d { x with ranks := inRankOrder n (x.ranks ++ [q]) } s
    | none => s) s

/-- Every local participant of the head's command has come as far as the test asks. -/
def allHeads (s : State) (p : CollCmd → Bool) (x : CollCmd) : Bool :=
  (localDies s x.group).all fun d => match collHead s d with
    | some y => clGid y.cmd.recd == clGid x.cmd.recd && y.order == x.order && p y
    | none => false

/-- The participant on die d reads its own input, in its pusher's place among what reaches a home (R247). -/
def readInput (d : Nat) (x : CollCmd) (s : State) : State :=
  let c := x.cmd
  let dies := localDies s x.group
  match (deniedAt c).map (fun va => EngStop.fault cPerm (va : Int)) |>.orElse fun _ => inputStop c (focus c.core s) with
  | some e => collStop dies d x e s
  | none =>
    let q := rankOf (rankIn s x.group d) x (focus c.core s)
    let s := withCore c.core (fun s => engAsk c (inputReads c s) s) s
    let (x, s) := collGoOn x s
    let s := shareRank x.group.length q dies (setCollHead d { x with read := true } s)
    if allHeads s (·.read) x then tellRanks x.group s else s

/-- What stops the writes of the participant on die d. -/
def writeStop (d : Nat) (x : CollCmd) (s : State) : Option EngStop :=
  match deniedAt x.cmd with
  | some va => some (.fault cPerm va)
  | none => (collRegions s d x).findSome? fun g => collWrites x.cmd g.1 g.2.length (focus x.cmd.core s)

/-- One participant completes: its handle is FULL (R348, R376), and its command leaves the queue. -/
def collDone (d : Nat) (s : State) : State :=
  match collHead s d with
  | none => s
  | some x =>
    let total := if isA2av x.cmd.recd then ((collRegions s d x).map fun g => (g.2.length + 31) / 32).foldl (· + ·) 0
      else clExpected x.cmd.recd
    let s := setDie d { dieAt s d with passed := (dieAt s d).passed ++ [(clGid x.cmd.recd, x.order, x.group)] } s
    collPop d (withCore x.cmd.core (engFull x.cmd total) s)

/-- The participant on die d writes its results, in its pusher's place among what reaches a home (R247); with the last of this
package all are complete, so that a fault of one leaves no handle FULL (R350). -/
def writeOutput (d : Nat) (x : CollCmd) (s : State) : State :=
  match writeStop d x s with
  | some e => collStop (localDies s x.group) d x e s
  | none =>
    let regions := collRegions s d x
    let s := withCore x.cmd.core (fun s => engWrite x.cmd (regions.flatMap fun g => engPut x.cmd g.1 g.2 s) s) s
    let s := setCollHead d { x with wrote := true } s
    if allHeads s (·.wrote) x then (localDies s x.group).foldl (fun s d => collDone d s) s else s

/-- COLLECTIVE_COMPLETE (R348 to R350): a participant of a started command reads its input; once every participant of this package
has, it writes its results. -/
def execCollectiveComplete (die : Nat) (s : State) : Out State :=
  match collHead s die with
  | none => .refused (.notDue "COLLECTIVE_COMPLETE")
  | some x =>
    if !x.started || !canStep s x.cmd then .refused (.notDue "COLLECTIVE_COMPLETE")
    else if !x.read then .next (readInput die x s)
    else if !x.wrote && allHeads s (·.read) x then .next (writeOutput die x s)
    else .refused (.notDue "COLLECTIVE_COMPLETE")

end Sys2Proof.Machine
end

