-- ==== Sys2Proof/Machine/Handles.lean ====
section
/-!
DEFINITION. The buffer-handle words HTAKE, HGIVE, HWAIT, HSTAT, HGEN and HRING (R214, R270 to R276).
-/

namespace Sys2Proof.Machine

/-- A handle reference as a word gives it (R270). -/
inductive HandleRef where
  | handle (gen : BitVec 16) (h : Nat)
  | ring (h0 : Nat)
  deriving DecidableEq, Repr

/-- The reference in a, or nothing where a bit that its form does not define is set (R270). -/
def handleRef (a : Word) : Option HandleRef :=
  let h := a.toNat % 64
  if a.toNat / 64 % 2 = 1 then (if a.toNat / 128 = 0 then some (.ring h) else none)
  else if a.toNat / 2 ^ 32 ≠ 0 ∨ a.toNat / 2 ^ 6 % 2 ^ 10 ≠ 0 then none
  else some (.handle (a.extractLsb' 16 16) h)

/-- A role, 0 producer or 2 consumer (R271). -/
def roleOk (b : Word) : Bool := b == 0 || b == 2

/-- Handle h begins a ring (R272). -/
def beginsRing (s : State) (h : Nat) : Bool := (hGet s h).ring && (hGet s h).rh0.toNat == h

/-- The ring that begins at h0: its members. -/
def ringMembers (s : State) (h0 : Nat) : List Nat :=
  (List.range ((hGet s h0).rlen.toNat + 1)).map (h0 + ·)

/-- The stage after index k of a ring of n. -/
def ringNext (n : Nat) (k : BitVec 4) : BitVec 4 := BitVec.ofNat 4 ((k.toNat + 1) % n)

/-- Every member of the ring at h0 with its producer or its consumer index advanced (R241, R274). -/
def ringAdvance (h0 : Nat) (consumer : Bool) (s : State) : State :=
  let n := (hGet s h0).rlen.toNat + 1
  (ringMembers s h0).foldl (fun s h =>
    let v := hGet s h
    hPut h (if consumer then { v with cidx := ringNext n v.cidx } else { v with pidx := ringNext n v.pidx }) s) s

/-- A handle once a slot has taken it as producer or as consumer (R272). -/
def hTakenBySlot (slot : Nat) (consumer : Bool) (v : Handle) : Handle :=
  if consumer then { v with st := .draining, owner := BitVec.ofNat 5 slot }
  else { v with st := .filling, owner := BitVec.ofNat 5 slot, expected := 0, counted := 0 }

/-- The state in which HTAKE wants its handle. -/
def wanted (consumer : Bool) : HState := if consumer then .full else .free

/-- The mark of an abandoned stage goes with the word that finds it. -/
def clearSpurned (s : State) : State := onCur (fun c => { c with spurned := none }) s

/-- HTAKE on handle h: `ring` is the first handle of the ring whose index it moves (R272). -/
def takeStage (d : BitVec 7) (h : Nat) (ring : Option Nat) (consumer : Bool) (s : State) : Out State :=
  if (hGet s h).st ≠ wanted consumer then park (.handle h) s
  else
    let s := hSet h (hTakenBySlot s.iss.slot consumer (hGet s h)) s
    let s := match ring with | some h0 => ringAdvance h0 consumer s | none => s
    retireWr d (hRef s h) s

/-- HTAKE (R272, R239). DEDUCED (log entry 32). -/
def execHtake (d a b : BitVec 7) (s : State) : Out State :=
  enter ⟨[.g d, .g a, .g b], [.g d]⟩ s fun s =>
    let spurned := (cur s).spurned
    let s := clearSpurned s
    let w := rd s a
    match handleRef w with
    | none => trap cIllegal w s
    | some r =>
      if !roleOk (rd s b) then trap cIllegal (rd s b) s
      else
        let consumer := rd s b == 2
        match r with
        | .ring h0 =>
          if !beginsRing s h0 then trap cSchedule w s
          else
            let v := hGet s h0
            let h := h0 + (if consumer then v.cidx.toNat else v.pidx.toNat)
            if consumer && (match spurned with | some j => (ringMembers s h0).contains j | none => false) then trap cSchedule w s
            else takeStage d h (some h0) consumer s
        | .handle gen h =>
          if gen ≠ (hGet s h).gen ∨ (hGet s h).ring then trap cSchedule w s else takeStage d h none consumer s

/-- HGIVE's effect on a handle, or nothing where it traps SCHEDULE (R273). -/
def given (slot : Nat) (consumer : Bool) (v : Handle) : Option Handle :=
  let mine := v.owner.toNat == slot
  match consumer, v.st with
  | false, .filling => if mine then some { v with st := .full, counted := v.expected } else none
  | true, .draining => if mine then some (hFreed v) else none
  | true, .full => some (hFreed v)
  | _, _ => none

/-- HGIVE (R273), ordered after the slot's earlier blocking accesses, those to host memory among them, which are complete at the host
(R248). DEDUCED (log entry 12). DEDUCED (log entry 32). -/
def execHgive (d a b : BitVec 7) (s : State) : Out State :=
  enter ⟨[.g d, .g a, .g b], [.g d]⟩ s fun s =>
    let w := rd s a
    match handleRef w with
    | some (.handle gen h) =>
      if !roleOk (rd s b) then trap cIllegal (rd s b) s
      else if gen ≠ (hGet s h).gen then trap cSchedule w s
      else match given s.iss.slot (rd s b == 2) (hGet s h) with
        | some v => publish s fun s =>
          let s := hSet h v s
          retireWr d (hRef s h) s
        | none => trap cSchedule w s
    | _ => trap cIllegal w s

/-- The number of a handle state (R239). -/
def hCode (st : HState) : Nat :=
  match st with
  | .free => 0
  | .filling => 1
  | .full => 2
  | .draining => 3

/-- HWAIT (R214). -/
def execHwait (d a b : BitVec 7) (s : State) : Out State :=
  enter ⟨[.g d, .g a, .g b], [.g d]⟩ s fun s =>
    let s := clearSpurned s
    let w := rd s a
    match handleRef w with
    | some (.handle gen h) =>
      let v := hGet s h
      if 4 ≤ (rd s b).toNat then trap cIllegal (rd s b) s
      else if gen ≠ v.gen then trap cSchedule w s
      else if hCode v.st = (rd s b).toNat then retireWr d (v.counted.setWidth 64) s
      else park (.handle h) s
    | _ => trap cIllegal w s

/-- Word 0 of a handle record (R274). -/
def hWord0 (v : Handle) : Word :=
  BitVec.ofNat 64 (v.gen.toNat * 2 ^ 48 + hCode v.st * 2 ^ 46 + v.owner.toNat * 2 ^ 41 + v.counted.toNat)

/-- Word 1 of a handle record (R274). -/
def hWord1 (v : Handle) : Word :=
  BitVec.ofNat 64 (v.ring.toNat * 2 ^ 63 + v.rlen.toNat * 2 ^ 59 + v.rh0.toNat * 2 ^ 53 + v.pidx.toNat * 2 ^ 49 +
    v.cidx.toNat * 2 ^ 45 + v.expected.toNat)

/-- HSTAT (R274). -/
def execHstat (d a b : BitVec 7) (s : State) : Out State :=
  enter ⟨[.g d, .g a, .g b], [.g d]⟩ s fun s =>
    let w := rd s a
    if w.toNat / 2 ^ 32 ≠ 0 ∨ w.toNat / 2 ^ 6 % 2 ^ 10 ≠ 0 then trap cIllegal w s
    else if 2 ≤ (rd s b).toNat then trap cIllegal (rd s b) s
    else
      let v := hGet s (w.toNat % 64)
      retireWr d (if rd s b = 0 then hWord0 v else hWord1 v) s

/-- HGEN (R274). -/
def execHgen (d a : BitVec 7) (s : State) : Out State :=
  enter ⟨[.g d, .g a], [.g d]⟩ s fun s =>
    let w := rd s a
    if 64 ≤ w.toNat then trap cIllegal w s else retireWr d (hRef s w.toNat) s

/-- The handles of the ring that HRING forms, joined (R241, R275). -/
def formRing (h0 n : Nat) (s : State) : State :=
  (List.range n).foldl (fun s k =>
    hPut (h0 + k) { hGet s (h0 + k) with
      ring := true, rlen := BitVec.ofNat 4 (n - 1), rh0 := BitVec.ofNat 6 h0, pidx := 0, cidx := 0 } s) s

/-- A list of handles, each in no ring. -/
def unring (hs : List Nat) (s : State) : State :=
  hs.foldl (fun s h => hPut h { hGet s h with ring := false, rlen := 0, rh0 := 0, pidx := 0, cidx := 0 } s) s

/-- HRING (R275). -/
def execHring (d a b : BitVec 7) (s : State) : Out State :=
  enter ⟨[.g d, .g a, .g b], [.g d]⟩ s fun s =>
    let w := rd s a
    let h0 := w.toNat
    let n := (rd s b).toNat
    if 64 ≤ w.toNat then trap cIllegal w s
    else if n = 0 then
      if !beginsRing s h0 || !(ringMembers s h0).all fun h => (hGet s h).st == .free then trap cSchedule w s
      else
        let s := unring (ringMembers s h0) s
        retireWr d 0 s
    else if n = 1 ∨ 17 ≤ n then trap cIllegal (rd s b) s
    else if 64 < h0 + n then trap cIllegal (rd s b) s
    else if (List.range n).any fun k => (hGet s (h0 + k)).st != .free || (hGet s (h0 + k)).ring then trap cSchedule w s
    else
      let s := formRing h0 n s
      retireWr d (BitVec.ofNat 64 (0x40 + h0)) s

end Sys2Proof.Machine
end

