-- ==== Sys2Proof/Machine/LoadStore.lean ====
section
/-!
DEFINITION. LD and ST (R260, R261), the vector accesses (R262 to R267), the atomics (R268) and WATCH (R99). The pushes
of engine records, which are STV words to the control window, join STV in `Push.lean`.
-/

namespace Sys2Proof.Machine

/-- A scalar access of n bytes from its base and offset on (R261). -/
def scalar (kind : AccKind) (rx : Bool) (n : Nat) (base : Word) (off : Int) (act : AccAct) (s : State) : Out State :=
  let ea : Int := addrOf base + (n : Int) * off
  if outside ea then trap cAddrOvf (BitVec.ofInt 64 ea) s
  else if ea.toNat % n ≠ 0 then trap cMisalign (BitVec.ofNat 64 ea.toNat) s
  else access kind rx false ea.toNat act s

/-- ldB (R261). -/
def execLdB (d a imm : BitVec 7) (s : State) : Out State :=
  enter ⟨[.g d, .g a], [.g d]⟩ s fun s =>
    scalar .read false 1 (rd s a) imm.toInt (.load d.toNat 1 true) s

/-- ldBRx (R261, R249). -/
def execLdBRx (d a imm : BitVec 7) (s : State) : Out State :=
  enter ⟨[.g d, .g a], [.g d]⟩ s fun s =>
    scalar .read true 1 (rd s a) imm.toInt (.load d.toNat 1 true) s

/-- ldBu (R261). -/
def execLdBu (d a imm : BitVec 7) (s : State) : Out State :=
  enter ⟨[.g d, .g a], [.g d]⟩ s fun s =>
    scalar .read false 1 (rd s a) imm.toInt (.load d.toNat 1 false) s

/-- ldBuRx (R261, R249). -/
def execLdBuRx (d a imm : BitVec 7) (s : State) : Out State :=
  enter ⟨[.g d, .g a], [.g d]⟩ s fun s =>
    scalar .read true 1 (rd s a) imm.toInt (.load d.toNat 1 false) s

/-- ldH (R261). -/
def execLdH (d a imm : BitVec 7) (s : State) : Out State :=
  enter ⟨[.g d, .g a], [.g d]⟩ s fun s =>
    scalar .read false 2 (rd s a) imm.toInt (.load d.toNat 2 true) s

/-- ldHRx (R261, R249). -/
def execLdHRx (d a imm : BitVec 7) (s : State) : Out State :=
  enter ⟨[.g d, .g a], [.g d]⟩ s fun s =>
    scalar .read true 2 (rd s a) imm.toInt (.load d.toNat 2 true) s

/-- ldHu (R261). -/
def execLdHu (d a imm : BitVec 7) (s : State) : Out State :=
  enter ⟨[.g d, .g a], [.g d]⟩ s fun s =>
    scalar .read false 2 (rd s a) imm.toInt (.load d.toNat 2 false) s

/-- ldHuRx (R261, R249). -/
def execLdHuRx (d a imm : BitVec 7) (s : State) : Out State :=
  enter ⟨[.g d, .g a], [.g d]⟩ s fun s =>
    scalar .read true 2 (rd s a) imm.toInt (.load d.toNat 2 false) s

/-- ldW (R261). -/
def execLdW (d a imm : BitVec 7) (s : State) : Out State :=
  enter ⟨[.g d, .g a], [.g d]⟩ s fun s =>
    scalar .read false 4 (rd s a) imm.toInt (.load d.toNat 4 true) s

/-- ldWRx (R261, R249). -/
def execLdWRx (d a imm : BitVec 7) (s : State) : Out State :=
  enter ⟨[.g d, .g a], [.g d]⟩ s fun s =>
    scalar .read true 4 (rd s a) imm.toInt (.load d.toNat 4 true) s

/-- ldWu (R261). -/
def execLdWu (d a imm : BitVec 7) (s : State) : Out State :=
  enter ⟨[.g d, .g a], [.g d]⟩ s fun s =>
    scalar .read false 4 (rd s a) imm.toInt (.load d.toNat 4 false) s

/-- ldWuRx (R261, R249). -/
def execLdWuRx (d a imm : BitVec 7) (s : State) : Out State :=
  enter ⟨[.g d, .g a], [.g d]⟩ s fun s =>
    scalar .read true 4 (rd s a) imm.toInt (.load d.toNat 4 false) s

/-- ldD (R261). -/
def execLdD (d a imm : BitVec 7) (s : State) : Out State :=
  enter ⟨[.g d, .g a], [.g d]⟩ s fun s =>
    scalar .read false 8 (rd s a) imm.toInt (.load d.toNat 8 false) s

/-- ldDRx (R261, R249). -/
def execLdDRx (d a imm : BitVec 7) (s : State) : Out State :=
  enter ⟨[.g d, .g a], [.g d]⟩ s fun s =>
    scalar .read true 8 (rd s a) imm.toInt (.load d.toNat 8 false) s

/-- stB (R261). -/
def execStB (d a imm : BitVec 7) (s : State) : Out State :=
  enter ⟨[.g d, .g a], []⟩ s fun s =>
    scalar .write false 1 (rd s a) imm.toInt (.store 1 (rd s d)) s

/-- stBRx (R261, R249). -/
def execStBRx (d a imm : BitVec 7) (s : State) : Out State :=
  enter ⟨[.g d, .g a], []⟩ s fun s =>
    scalar .write true 1 (rd s a) imm.toInt (.store 1 (rd s d)) s

/-- stH (R261). -/
def execStH (d a imm : BitVec 7) (s : State) : Out State :=
  enter ⟨[.g d, .g a], []⟩ s fun s =>
    scalar .write false 2 (rd s a) imm.toInt (.store 2 (rd s d)) s

/-- stHRx (R261, R249). -/
def execStHRx (d a imm : BitVec 7) (s : State) : Out State :=
  enter ⟨[.g d, .g a], []⟩ s fun s =>
    scalar .write true 2 (rd s a) imm.toInt (.store 2 (rd s d)) s

/-- stW (R261). -/
def execStW (d a imm : BitVec 7) (s : State) : Out State :=
  enter ⟨[.g d, .g a], []⟩ s fun s =>
    scalar .write false 4 (rd s a) imm.toInt (.store 4 (rd s d)) s

/-- stWRx (R261, R249). -/
def execStWRx (d a imm : BitVec 7) (s : State) : Out State :=
  enter ⟨[.g d, .g a], []⟩ s fun s =>
    scalar .write true 4 (rd s a) imm.toInt (.store 4 (rd s d)) s

/-- stD (R261). -/
def execStD (d a imm : BitVec 7) (s : State) : Out State :=
  enter ⟨[.g d, .g a], []⟩ s fun s =>
    scalar .write false 8 (rd s a) imm.toInt (.store 8 (rd s d)) s

/-- stDRx (R261, R249). -/
def execStDRx (d a imm : BitVec 7) (s : State) : Out State :=
  enter ⟨[.g d, .g a], []⟩ s fun s =>
    scalar .write true 8 (rd s a) imm.toInt (.store 8 (rd s d)) s

/-! ## Vector accesses -/

/-- FMT of a pointer (R218). -/
def fmtOf (p : Word) : Nat := p.toNat / 2 ^ 59
/-- BL of a pointer. -/
def blOf (p : Word) : Nat := p.toNat / 2 ^ 57 % 4

/-- A pointer that a vector access refuses with FORMAT (R219). -/
def badFormat (p : Word) : Bool :=
  !fmtKnown (fmtOf p) ||
  (blOf p != 0 && (!(fmtOf p == 0x08 || fmtOf p == 0x09) || p.toNat / 2 ^ 56 % 2 == 1))

/-- How many bytes LDV and STV move (R262). For a reserved FMT, whose ADDR_OVF and MISALIGN checks come before FORMAT (R265), the
spec gives no size: the model takes elements of 1 byte, 16 bytes in all. DESIGN CHOICE (log entry 20). -/
def vecBytes (fmt : Nat) : Nat :=
  match fmt with
  | 0x00 => 64
  | 0x01 => 64
  | 0x09 => 8
  | f => 16 * elemBytes f

/-- The elements of LDV and STV from a base (R262): a RAW access moves eight 8-byte patterns. -/
def linearElems (fmt base : Nat) : List (Nat × Bool) :=
  match fmt with
  | 0x00 => (List.range 8).map fun j => (base + 8 * j, false)
  | 0x01 => (List.range 8).map fun j => (base + 8 * j, false)
  | 0x09 => (List.range 16).map fun j => (base + j / 2, j % 2 == 1)
  | f => (List.range 16).map fun j => (base + elemBytes f * j, false)

/-- The format in which LDV and STV move their elements: RAW as patterns of 8 bytes. -/
def moveFmt (fmt : Nat) : Nat := if fmt = 0 then 1 else fmt

/-- The base of LDV and STV, and its checks before R234 (R265); `k` takes it. -/
def vecBase (p : Word) (imm : BitVec 7) (s : State) (k : Nat → State → Out State) : Out State :=
  let base : Int := addrOf p + 64 * imm.toInt
  let fmt := fmtOf p
  if base < 0 ∨ (2 ^ 57 : Int) ≤ base + (vecBytes fmt : Int) - 1 then trap cAddrOvf (BitVec.ofInt 64 base) s
  else if base.toNat % elemBytes fmt ≠ 0 then trap cMisalign (BitVec.ofNat 64 base.toNat) s
  else if badFormat p then trap cFormat p s
  else k base.toNat s

/-- LDV (R265). -/
def loadVec (rx : Bool) (d : BitVec 4) (a imm : BitVec 7) (s : State) : Out State :=
  let p := rd s a
  vecBase p imm s fun base s =>
    access .read rx true base
      (.vload d.toNat (moveFmt (fmtOf p)) (blOf p) (linearElems (fmtOf p) base) (tableOf s)) s

/-- The lanes of a vector register, in the order of its elements (R262). -/
def lanesOf (fmt : Nat) (ws : List Word) : List Word :=
  if fmt = 0x01 then ws else (List.range 16).map fun j => (lane32 ws j).setWidth 64

/-- STV to memory (R265). -/
def storeVec (rx : Bool) (ws : List Word) (p : Word) (imm : BitVec 7) (s : State) : Out State :=
  vecBase p imm s fun base s =>
    let f := moveFmt (fmtOf p)
    access .write rx true base (.vstore f (blOf p) (linearElems (fmtOf p) base) (lanesOf f ws) (tableOf s)) s

/-- The address of element j at index x, exact, and whether it is a high nibble (R266). -/
def indexed (fmt base : Nat) (x : Int) : Int × Bool :=
  if fmt = 0x09 then ((base : Int) + x / 2, x % 2 == 1) else ((base : Int) + x * (elemBytes fmt : Int), false)

/-- The indices that vb holds for a pointer's format (R266). -/
def indicesOf (fmt : Nat) (ws : List Word) : List Int :=
  if fmt = 0x01 then ws.map (·.toInt) else (List.range 16).map fun j => (lane32 ws j).toInt

/-- The elements of GATHER and SCATTER, and their checks before R234 (R266); `k` takes them. -/
def indexedElems (p : Word) (ix : List Int) (s : State) (k : List (Nat × Bool) → State → Out State) : Out State :=
  let fmt := fmtOf p
  let es := ix.map (indexed fmt (addrOf p))
  match es.find? fun e => outside e.1 with
  | some e => trap cAddrOvf (BitVec.ofInt 64 e.1) s
  | none =>
    match es.find? fun e => e.1.toNat % elemBytes fmt != 0 with
    | some e => trap cMisalign (BitVec.ofNat 64 e.1.toNat) s
    | none => if badFormat p then trap cFormat p s else k (es.map fun e => (e.1.toNat, e.2)) s

/-- GATHER (R266): through a RAW pointer each element is a byte, zero-extended. TVAL of a POISON trap is the pointer's ADDR, which
is the load's address (R126, R128), though no element need touch it: a gather has several, and the spec does not say which
is meant. DESIGN CHOICE (log entry 20). -/
def gatherVec (rx : Bool) (d : BitVec 4) (a : BitVec 7) (vb : BitVec 4) (s : State) : Out State :=
  let p := rd s a
  indexedElems p (indicesOf (fmtOf p) (rdV s vb)) s fun es s =>
    access .read rx false (addrOf p) (.vload d.toNat (fmtOf p) (blOf p) es (tableOf s)) s

/-- SCATTER (R266). -/
def scatterVec (rx : Bool) (d : BitVec 4) (a : BitVec 7) (vb : BitVec 4) (s : State) : Out State :=
  let p := rd s a
  let ws := rdV s d
  indexedElems p (indicesOf (fmtOf p) (rdV s vb)) s fun es s =>
    access .write rx false (addrOf p) (.vstore (fmtOf p) (blOf p) es (lanesOf (fmtOf p) ws) (tableOf s)) s

/-- LDV (R265). -/
def execLdv (d : BitVec 4) (a imm : BitVec 7) (s : State) : Out State :=
  enter ⟨[.v d, .g a], [.v d]⟩ s fun s => loadVec false d a imm s

/-- LDV.rx (R267). -/
def execLdvRx (d : BitVec 4) (a imm : BitVec 7) (s : State) : Out State :=
  enter ⟨[.v d, .g a], [.v d]⟩ s fun s => loadVec true d a imm s

/-- STV.rx (R267). -/
def execStvRx (d : BitVec 4) (a imm : BitVec 7) (s : State) : Out State :=
  enter ⟨[.v d, .g a], []⟩ s fun s => storeVec true (rdV s d) (rd s a) imm s

/-- GATHER (R266). -/
def execGather (d : BitVec 4) (a : BitVec 7) (vb : BitVec 4) (s : State) : Out State :=
  enter ⟨[.v d, .g a, .v vb], [.v d]⟩ s fun s => gatherVec false d a vb s

/-- GATHER.rx (R267). -/
def execGatherRx (d : BitVec 4) (a : BitVec 7) (vb : BitVec 4) (s : State) : Out State :=
  enter ⟨[.v d, .g a, .v vb], [.v d]⟩ s fun s => gatherVec true d a vb s

/-- SCATTER (R266). -/
def execScatter (d : BitVec 4) (a : BitVec 7) (vb : BitVec 4) (s : State) : Out State :=
  enter ⟨[.v d, .g a, .v vb], []⟩ s fun s => scatterVec false d a vb s

/-- SCATTER.rx (R267). -/
def execScatterRx (d : BitVec 4) (a : BitVec 7) (vb : BitVec 4) (s : State) : Out State :=
  enter ⟨[.v d, .g a, .v vb], []⟩ s fun s => scatterVec true d a vb s

/-! ## Atomics -/

/-- A page of host memory, where AMOs are not applied (R268). -/
def onHost (s : State) (va : Nat) : Bool :=
  !inDevice va && (match tlbFind s.me.dtlb s.iss.slot va with | some t => trTgt t == 1 | none => false)

/-- An AMO on w bytes (R268). -/
def amo (op : AmoOp) (w : Nat) (d a b : BitVec 7) (s : State) : Out State :=
  let ea := addrOf (rd s a)
  if ea % w ≠ 0 then trap cMisalign (BitVec.ofNat 64 ea) s
  else if onHost s ea then trap cPerm (BitVec.ofNat 64 ea) s
  else access .atomic false false ea (.amo d.toNat w op (rd s b) (rd s d)) s

/-- AMOADD.W (R268). -/
def execAmoaddW (d a b : BitVec 7) (s : State) : Out State :=
  enter ⟨[.g d, .g a, .g b], [.g d]⟩ s fun s => amo .add 4 d a b s

/-- AMOADD.D (R268). -/
def execAmoaddD (d a b : BitVec 7) (s : State) : Out State :=
  enter ⟨[.g d, .g a, .g b], [.g d]⟩ s fun s => amo .add 8 d a b s

/-- AMOAND.W (R268). -/
def execAmoandW (d a b : BitVec 7) (s : State) : Out State :=
  enter ⟨[.g d, .g a, .g b], [.g d]⟩ s fun s => amo .and 4 d a b s

/-- AMOAND.D (R268). -/
def execAmoandD (d a b : BitVec 7) (s : State) : Out State :=
  enter ⟨[.g d, .g a, .g b], [.g d]⟩ s fun s => amo .and 8 d a b s

/-- AMOOR.W (R268). -/
def execAmoorW (d a b : BitVec 7) (s : State) : Out State :=
  enter ⟨[.g d, .g a, .g b], [.g d]⟩ s fun s => amo .or 4 d a b s

/-- AMOOR.D (R268). -/
def execAmoorD (d a b : BitVec 7) (s : State) : Out State :=
  enter ⟨[.g d, .g a, .g b], [.g d]⟩ s fun s => amo .or 8 d a b s

/-- AMOXOR.W (R268). -/
def execAmoxorW (d a b : BitVec 7) (s : State) : Out State :=
  enter ⟨[.g d, .g a, .g b], [.g d]⟩ s fun s => amo .xor 4 d a b s

/-- AMOXOR.D (R268). -/
def execAmoxorD (d a b : BitVec 7) (s : State) : Out State :=
  enter ⟨[.g d, .g a, .g b], [.g d]⟩ s fun s => amo .xor 8 d a b s

/-- AMOMIN.W (R268). -/
def execAmominW (d a b : BitVec 7) (s : State) : Out State :=
  enter ⟨[.g d, .g a, .g b], [.g d]⟩ s fun s => amo .min 4 d a b s

/-- AMOMIN.D (R268). -/
def execAmominD (d a b : BitVec 7) (s : State) : Out State :=
  enter ⟨[.g d, .g a, .g b], [.g d]⟩ s fun s => amo .min 8 d a b s

/-- AMOMAX.W (R268). -/
def execAmomaxW (d a b : BitVec 7) (s : State) : Out State :=
  enter ⟨[.g d, .g a, .g b], [.g d]⟩ s fun s => amo .max 4 d a b s

/-- AMOMAX.D (R268). -/
def execAmomaxD (d a b : BitVec 7) (s : State) : Out State :=
  enter ⟨[.g d, .g a, .g b], [.g d]⟩ s fun s => amo .max 8 d a b s

/-- AMOMINU.W (R268). -/
def execAmominuW (d a b : BitVec 7) (s : State) : Out State :=
  enter ⟨[.g d, .g a, .g b], [.g d]⟩ s fun s => amo .minu 4 d a b s

/-- AMOMINU.D (R268). -/
def execAmominuD (d a b : BitVec 7) (s : State) : Out State :=
  enter ⟨[.g d, .g a, .g b], [.g d]⟩ s fun s => amo .minu 8 d a b s

/-- AMOMAXU.W (R268). -/
def execAmomaxuW (d a b : BitVec 7) (s : State) : Out State :=
  enter ⟨[.g d, .g a, .g b], [.g d]⟩ s fun s => amo .maxu 4 d a b s

/-- AMOMAXU.D (R268). -/
def execAmomaxuD (d a b : BitVec 7) (s : State) : Out State :=
  enter ⟨[.g d, .g a, .g b], [.g d]⟩ s fun s => amo .maxu 8 d a b s

/-- AMOSWAP.W (R268). -/
def execAmoswapW (d a b : BitVec 7) (s : State) : Out State :=
  enter ⟨[.g d, .g a, .g b], [.g d]⟩ s fun s => amo .swap 4 d a b s

/-- AMOSWAP.D (R268). -/
def execAmoswapD (d a b : BitVec 7) (s : State) : Out State :=
  enter ⟨[.g d, .g a, .g b], [.g d]⟩ s fun s => amo .swap 8 d a b s

/-- AMOCAS.W (R268). -/
def execAmocasW (d a b : BitVec 7) (s : State) : Out State :=
  enter ⟨[.g d, .g a, .g b], [.g d]⟩ s fun s => amo .cas 4 d a b s

/-- AMOCAS.D (R268). -/
def execAmocasD (d a b : BitVec 7) (s : State) : Out State :=
  enter ⟨[.g d, .g a, .g b], [.g d]⟩ s fun s => amo .cas 8 d a b s

/-! ## WATCH (R99) -/

/-- WATCH (R99): a blocking read that parks while the word equals b; the slot watches the line from the read on. -/
def execWatch (d a b : BitVec 7) (s : State) : Out State :=
  enter ⟨[.g d, .g a, .g b], [.g d]⟩ s fun s =>
    let ea := addrOf (rd s a)
    let va := BitVec.ofNat 64 ea
    if ea % 8 ≠ 0 then trap cMisalign va s
    else if Config.controlWindow ≤ ea ∧ ea < Config.deviceTop then trap cPerm va s
    else access .read false false ea (.watch d.toNat (rd s b)) s

end Sys2Proof.Machine
end

