-- ==== Sys2Proof/Machine/Matrix.lean ====
section
/-!
DEFINITION. The matrix engine: the checks of its four records (R366 to R371), its steps (R338 to R341, R367 to R372),
its energy budget and its power state (R342 to R346), and BURST (R345).
-/

namespace Sys2Proof.Machine

/-! ## The records (R316, R369, R370, R371) -/

/-- M -/
def mxM (r : Rec) : Nat := recNat r 6 2
/-- N -/
def mxN (r : Rec) : Nat := recNat r 8 2
/-- K -/
def mxK (r : Rec) : Nat := recNat r 10 2
/-- AFMT -/
def mxAfmt (r : Rec) : Nat := recNat r 2 1
/-- BFORM<1:0> -/
def mxForm (r : Rec) : Nat := recNat r 3 1 % 4
/-- BL of BFORM -/
def mxBl (r : Rec) : Nat := recNat r 3 1 / 4 % 4
/-- ZEROC -/
def mxZeroc (r : Rec) : Bool := recNat r 5 1 % 2 == 1
/-- GATHER -/
def mxGather (r : Rec) : Bool := recNat r 5 1 / 2 % 2 == 1
/-- AOFF -/
def mxAoff (r : Rec) : Nat := recNat r 12 4
/-- ASTR -/
def mxAstr (r : Rec) : Nat := recNat r 16 2
/-- CSTR -/
def mxCstr (r : Rec) : Nat := recNat r 18 2
/-- COFF -/
def mxCoff (r : Rec) : Nat := recNat r 20 4
/-- WOFF of MXMAC -/
def mxWoff (r : Rec) : Nat := recNat r 24 4
/-- IDX -/
def mxIdx (r : Rec) : Nat := recNat r 28 4
/-- ROW0 -/
def mxRow0 (r : Rec) : Nat := recNat r 32 2
/-- TOK0 -/
def mxTok0 (r : Rec) : Nat := recNat r 34 2
/-- AROWS -/
def mxArows (r : Rec) : Nat := recNat r 36 2

/-- The paths of R338. -/
inductive MxPath where
  | e8m10 | fp32 | fp64
  deriving DecidableEq, Repr

/-- The path that AFMT selects. -/
def mxPath (r : Rec) : MxPath := if mxAfmt r = 0x02 then .fp32 else if mxAfmt r = 0x01 then .fp64 else .e8m10

/-- e_C of an MXMAC, or of an MXZERO or MXEPI by its W. -/
def mxEc (r : Rec) : Nat :=
  if engKind r = 0x10 then (if mxAfmt r = 0x01 then 8 else 4) else (if recNat r 2 1 % 2 = 1 then 8 else 4)

/-- Z of R339. -/
def mxZ (r : Rec) : Nat :=
  match mxForm r with
  | 0 => 1280
  | 3 => if mxAfmt r = 0x01 then 8192 else 4096
  | _ => 768

/-- AFMT and BFORM form a pair that R338 lists. -/
def mxPairOk (r : Rec) : Bool :=
  match mxAfmt r with
  | 0x02 => true
  | 0x01 => mxForm r == 3
  | f => (f == 0x03 || f == 0x04 || f == 0x08) && mxForm r != 3

/-- The last byte of the C footprint, plus one. -/
def mxCend (r : Rec) : Nat := mxCoff r + mxCstr r * (mxM r - 1) + mxEc r * mxN r
/-- The last byte of the A footprint, plus one. -/
def mxAend (r : Rec) : Nat :=
  mxAoff r + mxAstr r * ((if mxGather r then mxArows r else mxM r) - 1) + mxK r * elemBytes (mxAfmt r)

/-- A dimension that is not a multiple of 32 from 32 to 4,096. -/
def mxDimBad (n : Nat) : Bool := n == 0 || n % 32 != 0 || decide (4096 < n)

/-- Order 1 of R366 for MXMAC (R367). -/
def macBad (r : Rec) : Option Nat :=
  let ea := elemBytes (mxAfmt r)
  let g := mxGather r
  lowest [(recNat r 1 1 / 64 != 0, 1), (!mxPairOk r || (mxForm r == 3 && mxBl r != 0), 2),
    (recNat r 3 1 / 16 != 0 || mxBl r == 3, 3), (recNat r 4 1 / 4 != 0, 4), (recNat r 5 1 / 4 != 0, 5),
    (mxM r == 0 || decide (4096 < mxM r), 6), (mxDimBad (mxN r), 8), (mxDimBad (mxK r), 10),
    (mxAoff r % ea != 0 || decide (0x80000 < mxAend r), 12), (mxAstr r % ea != 0, 16),
    (mxCstr r % mxEc r != 0 || decide (mxCstr r < mxEc r * mxN r), 18),
    (mxCoff r % mxEc r != 0 || decide (0x80000 < mxCend r), 20),
    (mxWoff r % 256 != 0 || decide (262144 < mxWoff r + mxZ r * (mxN r / 32) * (mxK r / 32)), 24),
    (!g && (mxIdx r != 0 || mxRow0 r != 0 || mxTok0 r != 0 || mxArows r != 0), 28),
    (g && (mxIdx r % 8 != 0 || decide (524288 < mxIdx r + 8 * (mxRow0 r + mxM r))), 28),
    (g && (mxArows r == 0 || decide (4096 < mxArows r)), 36), (recNat r 38 26 != 0, 38)]

/-- The lowest byte that two ranges [a, b) and [c, d) share. -/
def rangeMeet (a b c d : Nat) : Option Nat :=
  let lo := Nat.max a c
  if lo < Nat.min b d then some lo else none

/-- The lowest of the meetings of a list. -/
def lowestMeet (l : List (Option Nat)) : Option Nat := lowest (l.map fun o => (o.isSome, o.getD 0))

/-- The ALIAS condition of MXMAC (R316, R367): the lowest overlapping byte of C. -/
def macAlias (r : Rec) : Option Nat :=
  lowestMeet [rangeMeet (mxCoff r) (mxCend r) (mxAoff r) (mxAend r),
    if mxGather r then
      rangeMeet (mxCoff r) (mxCend r) (mxIdx r + 8 * mxRow0 r) (mxIdx r + 8 * (mxRow0 r + mxM r))
    else none]

/-- LEN of MXWLD -/
def wldLen (r : Rec) : Nat := recNat r 20 4
/-- WOFF of MXWLD -/
def wldWoff (r : Rec) : Nat := recNat r 16 4
/-- SRC of MXWLD -/
def wldSrc (r : Rec) : Nat := recNat r 8 8

/-- Order 1 of R366 for MXWLD (R369). -/
def wldBad (r : Rec) : Option Nat :=
  let len := wldLen r
  lowest [(recNat r 1 1 / 64 != 0, 1), (recNat r 2 6 != 0, 2), (farPtr (wldSrc r) || wldSrc r % 32 != 0, 8),
    (wldWoff r % 256 != 0 || decide (262144 < wldWoff r + len), 16),
    (len % 256 != 0 || len == 0 || decide (262144 < len), 20), (recNat r 24 40 != 0, 24)]

/-- The fields that MXZERO and MXEPI share (R370, R371). -/
def tileBad (r : Rec) : List (Bool × Nat) :=
  [(recNat r 1 1 / 64 != 0, 1), (recNat r 2 1 / 2 != 0, 2), (mxM r == 0 || decide (4096 < mxM r), 6),
    (mxDimBad (mxN r), 8), (recNat r 10 8 != 0, 10),
    (mxCstr r % mxEc r != 0 || decide (mxCstr r < mxEc r * mxN r), 18),
    (mxCoff r % mxEc r != 0 || decide (0x80000 < mxCend r), 20)]

/-- Order 1 of R366 for MXZERO (R370). -/
def zeroBad (r : Rec) : Option Nat := lowest ((recNat r 3 3 != 0, 3) :: (recNat r 24 40 != 0, 24) :: tileBad r)

/-- DST of MXEPI -/
def epiDst (r : Rec) : Word := BitVec.ofNat 64 (recNat r 24 8)
/-- FMT of MXEPI's destination -/
def epiFmt (r : Rec) : Nat := fmtOf (epiDst r)
/-- DSTR -/
def epiDstr (r : Rec) : Nat := recNat r 32 4
/-- ALPHA -/
def epiAlpha (r : Rec) : Num := unpack fmtS (recNat r 36 4)
/-- e of MXEPI -/
def epiE (r : Rec) : Nat := elemBytes (epiFmt r)
/-- The byte past the destination's last, as an address. -/
def epiEnd (r : Rec) : Nat := addrOf (epiDst r) + epiDstr r * (mxM r - 1) + epiE r * mxN r

/-- Order 1 of R366 for MXEPI (R371); FP64 with W = 0 is an error of the two fields together, the lower of which is W at 2.
DEDUCED (log entry 48). -/
def epiBad (r : Rec) : Option Nat :=
  let f := epiFmt r
  let fmtOk := [0x01, 0x02, 0x03, 0x04, 0x08, 0x10, 0x11, 0x12, 0x13].contains f
  lowest ([(f == 0x01 && recNat r 2 1 % 2 == 0, 2), (decide (4 < recNat r 3 1 % 8) || recNat r 3 1 / 16 != 0, 3), (recNat r 4 2 != 0, 4),
    (!fmtOk || blOf (epiDst r) != 0, 24), (epiDstr r % epiE r != 0 || decide (epiDstr r < epiE r * mxN r), 32),
    (!isFin (epiAlpha r), 36), (recNat r 40 24 != 0, 40)] ++ tileBad r)

/-- The ALIAS condition of MXEPI (R371): the destination reaches the issuing core's scratchpad through either window
and meets the C footprint. -/
def epiAlias (core : Nat) (r : Rec) : Option Nat :=
  let meet (base : Nat) : Option Nat :=
    (rangeMeet (addrOf (epiDst r)) (epiEnd r) (base + mxCoff r) (base + mxCend r)).map (· - base)
  lowestMeet [meet Config.scratchWindow,
    meet (Config.clusterWindow + core % Config.coresPerCluster * Config.scratchBytes)]

/-! ## The power state (R344) -/

/-- An MXMAC command. -/
def isMac (c : EngCmd) : Bool := engKind c.recd == 0x10

/-- The engine kindles for n cycles from this one; for none it is HOT at once. -/
def kindleFor (n : Nat) (s : State) : State :=
  { s with me := { s.me with power := if n = 0 then .hot else .kindle (s.clock + n) } }

/-- KINDLE(64 - n) out of QUENCH(n). -/
def rekindle (stop : Nat) (s : State) : State := kindleFor (64 - (stop - s.clock)) s

/-- COLD with an MXMAC at the head of the queue: the engine kindles. -/
def headKindles (s : State) : State :=
  match s.me.power, s.me.mq with
  | .cold, c :: _ => if isMac c then kindleFor 64 s else s
  | _, _ => s

/-- HOT with no MXMAC queued after a step or an EFAULT of one: the engine quenches. -/
def quenchIfIdle (s : State) : State :=
  if s.me.power = .hot ∧ s.me.mq.any isMac = false then { s with me := { s.me with power := .quench (s.clock + 64) } }
  else s

/-- The floor class of a path (R338). -/
def floorClass (p : MxPath) : Nat := match p with | .e8m10 => 0 | .fp32 => 2 | .fp64 => 3

/-- What a step costs (R343). -/
def stepCost (r : Rec) : Nat := 2 ^ Nat.max (recNat r 4 1 % 4) (floorClass (mxPath r))

/-- The k-, n- and m-tiles of a command; MXMAC alone has a k loop (R340). -/
def tilesK (r : Rec) : Nat := if engKind r = 0x10 then mxK r / 32 else 1
/-- N in tiles -/
def tilesN (r : Rec) : Nat := mxN r / 32
/-- M in tiles -/
def tilesM (r : Rec) : Nat := (mxM r + 31) / 32

/-- mt, nt and kt of step k (R340). -/
def tileAt (r : Rec) (k : Nat) : Nat × Nat × Nat :=
  (k / (tilesN r * tilesK r), k / tilesK r % tilesN r, k % tilesK r)

/-- The valid rows of row tile mt. -/
def tileRows (r : Rec) (mt : Nat) : Nat := Nat.min 32 (mxM r - 32 * mt)

/-- The steps of a command. -/
def stepsOf (r : Rec) : Nat :=
  if engKind r = 0x11 then wldLen r / 256 else tilesM r * tilesN r * tilesK r

/-- Cycles of an MXMAC step with r rows (R338). -/
def stepCycles (c : Rec) (rows : Nat) : Nat :=
  match mxPath c with
  | .e8m10 => if mxForm c = 2 then (rows + 1) / 2 else rows
  | .fp32 => 16 * rows
  | .fp64 => 64 * rows

/-- The head command's next step issues if it may (R343, R344). -/
def mxTryIssue (s : State) : State :=
  match s.me.mq, s.me.inFlight with
  | c :: _, none =>
    if s.switch ≠ .resident ∨ c.fault.isSome then s
    else if isMac c then
      let cost := stepCost c.recd
      if s.me.power = .hot ∧ cost ≤ s.me.level.toNat ∧ c.ready ≤ s.clock then
        let (d, s) := popDelay s
        { s with me := { s.me with
            level := s.me.level - BitVec.ofNat 32 cost
            inFlight := some (s.clock + stepCycles c.recd (tileRows c.recd (tileAt c.recd c.done).1) + d) } }
      else s
    else
      let (d, s) := popDelay s
      { s with me := { s.me with inFlight := some (s.clock + 1 + d) } }
  | _, _ => s

/-! ## Pushes (R336, R366) -/

/-- EXPECTED of a command. -/
def mxExpected (r : Rec) : Nat :=
  match engKind r with
  | 0x11 => wldLen r / 32
  | 0x12 => mxM r * epiE r * mxN r / 32
  | _ => mxM r * mxEc r * mxN r / 32

/-- A command is accepted. -/
def mxAccept (r : Rec) (s : State) : State :=
  let c := { newCmd r 0 0 s with ready := s.clock }
  let s := hTake (engHnd r % 64) 17 (mxExpected r) { s with me := { s.me with mq := s.me.mq ++ [c] } }
  let s := if isMac c then (match s.me.power with | .quench stop => rekindle stop s | _ => s) else s
  mxTryIssue (headKindles s)

/-- The orders of R366 after order 1. -/
def mxPushTail (r : Rec) (al : Option Nat) (s : State) : Out State :=
  match al with
  | some off => trap cAlias (BitVec.ofNat 64 (Config.scratchWindow + off)) s
  | none => pushTail (engHnd r % 64) (decide (16 ≤ s.me.mq.length)) .matrix (mxAccept r) s

/-- A push of an MXMAC record. -/
def pushMac (r : Rec) (s : State) : Out State := pushChecked (macBad r) s fun s => mxPushTail r (macAlias r) s
/-- A push of an MXWLD record. -/
def pushWld (r : Rec) (s : State) : Out State := pushChecked (wldBad r) s fun s => mxPushTail r none s
/-- A push of an MXEPI record. -/
def pushEpi (r : Rec) (s : State) : Out State :=
  pushChecked (epiBad r) s fun s => mxPushTail r (epiAlias s.me.num r) s
/-- A push of an MXZERO record. -/
def pushZero (r : Rec) (s : State) : Out State := pushChecked (zeroBad r) s fun s => mxPushTail r none s

/-- A push to the matrix queue (R366): any other kind byte traps with TVAL 0. -/
def pushMatrix (r : Rec) (s : State) : Out State :=
  match engKind r with
  | 0x10 => pushMac r s
  | 0x11 => pushWld r s
  | 0x12 => pushEpi r s
  | 0x13 => pushZero r s
  | _ => trap cCmdReserved 0 s

/-! ## Operands of an MXMAC step (R316, R338, R339) -/

/-- n bytes of the core's own scratchpad. -/
def padNat (s : State) (off n : Nat) : Nat :=
  leNat ((List.range n).map fun k => memAt s (scratchHome s.me.num (off + k)))
/-- n bytes of the core's weight buffer. -/
def weightNat (s : State) (off n : Nat) : Nat :=
  leNat ((List.range n).map fun k => memAt s (weightHome s.me.num (off + k)))

/-- The index entry of row i (R316). -/
def idxOff (r : Rec) (i : Nat) : Nat := mxIdx r + 8 * (mxRow0 r + i)

/-- The A row of row i: a gathered row may lie outside the A rows. -/
def aRow (r : Rec) (i : Nat) (s : State) : Int :=
  if mxGather r then (padNat s (idxOff r i + 2) 2 : Int) - mxTok0 r else i

/-- The first byte of A[row][k]. -/
def aOff (r : Rec) (row k : Nat) : Nat := mxAoff r + mxAstr r * row + elemBytes (mxAfmt r) * k

/-- A[row][k] (R338). -/
def aVal (c : EngCmd) (row k : Nat) (s : State) : Num :=
  let p := padNat s (aOff c.recd row k) (elemBytes (mxAfmt c.recd))
  match mxAfmt c.recd with
  | 0x01 => unpack fmtD p
  | 0x02 => unpack fmtS p
  | 0x03 => unpack fmtH p
  | 0x04 => unpack fmtBh p
  | _ => tblVal c.table p

/-- The weight-buffer offset of sub-tile (kt, nt). -/
def subTile (r : Rec) (kt nt : Nat) : Nat := mxWoff r + mxZ r * (nt * (mxK r / 32) + kt)

/-- SC of R339. -/
def scaleBase (r : Rec) : Nat := match mxForm r with | 0 => 1024 | 1 => 512 | _ => 640

/-- The scale byte of column n at k. -/
def bScale (r : Rec) (base k n : Nat) (s : State) : Nat :=
  match mxBl r with
  | 1 => weightNat s (base + scaleBase r + 32 * (k / 16) + n) 1
  | 2 => weightNat s (base + scaleBase r + n) 1
  | _ => 127

/-- A code of B under its scale, rounded to E8M10 (R330, R339). -/
def bCode (c : EngCmd) (t4 : Bool) (base code k n : Nat) (s : State) : Num :=
  unpack fmtE (roundTo fmtE .rne (codeVal c.table t4 code (bScale c.recd base k n s)))

/-- The kept values j of a column at position k of a sparse sub-tile, in ascending j. -/
def keptAt (base k n : Nat) (s : State) : List Nat :=
  let meta_ := weightNat s (base + 512 + 4 * n) 4
  [k / 4 * 2, k / 4 * 2 + 1].filter fun j => meta_ / 2 ^ (2 * j) % 4 == k % 4

/-- What B contributes at (k, n) of the sub-tile at `base` (R339): one value, or each value kept there, or +0 where
none is. -/
def bVals (c : EngCmd) (base k n : Nat) (s : State) : List Num :=
  match mxForm c.recd with
  | 0 => [bCode c false base (weightNat s (base + 32 * k + n) 1) k n s]
  | 1 =>
    let b := weightNat s (base + 16 * k + n / 2) 1
    [bCode c true base (if n % 2 = 0 then b % 16 else b / 16) k n s]
  | 2 =>
    match keptAt base k n s with
    | [] => [.fin false 0 0]
    | js => js.map fun j => bCode c false base (weightNat s (base + 32 * j + n) 1) k n s
  | _ =>
    if mxAfmt c.recd = 0x01 then [unpack fmtD (weightNat s (base + 256 * k + 8 * n) 8)]
    else [unpack fmtS (weightNat s (base + 128 * k + 4 * n) 4)]

/-- RNE32, as a value. -/
def rne32 (x : Num) : Num := unpack fmtS (roundTo fmtS .rne x)
/-- RNE in binary64, as a value. -/
def rne64 (x : Num) : Num := unpack fmtD (roundTo fmtD .rne x)

/-- One group of eight products on the E8M10 path, summed exactly (R341). -/
def groupSum (a : Nat → Num) (b : Nat → List Num) (g : Nat) : Num :=
  ((List.range 8).map (8 * g + ·)).foldl
    (fun acc k => (b k).foldl (fun acc v => addN acc (mulN (a k) v)) acc) (.fin false 0 0)

/-- acc after the 32 positions of a sub-tile (R341). -/
def accumulate (p : MxPath) (a : Nat → Num) (b : Nat → List Num) (acc : Num) : Num :=
  match p with
  | .e8m10 => (List.range 4).foldl (fun acc g => rne32 (addN acc (rne32 (groupSum a b g)))) acc
  | .fp32 => (List.range 32).foldl (fun acc k => (b k).foldl (fun acc v => rne32 (addN (mulN (a k) v) acc)) acc) acc
  | .fp64 => (List.range 32).foldl (fun acc k => (b k).foldl (fun acc v => rne64 (addN (mulN (a k) v) acc)) acc) acc

/-- The first byte of C[row][n]. -/
def cOff (r : Rec) (row n : Nat) : Nat := mxCoff r + mxCstr r * row + mxEc r * n

/-- The format of C. -/
def cFmt (r : Rec) : Fmt := if mxEc r = 8 then fmtD else fmtS

/-- C as the step finds it. -/
def cVal (r : Rec) (row n : Nat) (s : State) : Num := unpack (cFmt r) (padNat s (cOff r row n) (mxEc r))

/-- The byte writes of an MXMAC step. -/
def macWrites (c : EngCmd) (s : State) : List (Nat × Byte) :=
  let r := c.recd
  let (mt, nt, kt) := tileAt r c.done
  let base := subTile r kt nt
  let rows := (List.range (tileRows r mt)).map (32 * mt + ·)
  let cols := List.range 32
  let bs := cols.map fun n => (List.range 32).map fun k => bVals c base k n s
  rows.flatMap fun i =>
    let as := (List.range 32).map fun k => aVal c (aRow r i s).toNat (32 * kt + k) s
    cols.flatMap fun n =>
      let col := (bs[n]?).getD []
      let acc0 : Num := if kt = 0 ∧ mxZeroc r then .fin false 0 0 else cVal r i (32 * nt + n) s
      let acc := accumulate (mxPath r) (fun k => (as[k]?).getD .nan) (fun k => (col[k]?).getD []) acc0
      (leBytes (mxEc r) (roundTo (cFmt r) .rne acc)).mapIdx fun j b =>
        (scratchHome s.me.num (cOff r i (32 * nt + n) + j), b)

/-! ## What ends an MXMAC (R316, R368) -/

/-- The first atom of n bytes of the own scratchpad that is marked poisoned: its own-window address. -/
def padBad (s : State) (off n : Nat) : Option Word :=
  if n = 0 then none
  else
    ((List.range ((off + n - 1) / 32 - off / 32 + 1)).map (off / 32 + ·)).findSome? fun a =>
      if isBad s (scratchHome s.me.num (32 * a)) then some (BitVec.ofNat 64 (Config.scratchWindow + 32 * a)) else none

/-- The weight-buffer blocks that a sub-tile's bytes lie in, counted from its own first (R339). -/
def tileBlocks (r : Rec) : List Nat :=
  match mxForm r with
  | 0 => [0, 1, 2, 3] ++ (if mxBl r = 0 then [] else [4])
  | 1 => [0, 1] ++ (if mxBl r = 0 then [] else [2])
  | 2 => [0, 1, 2]
  | _ => List.range (mxZ r / 256)

/-- The EFAULT that a step of MXMAC meets: index entries, then rows outside the A rows, then A, B and C.
DEDUCED (log entry 50). -/
def macFault (c : EngCmd) (s : State) : Option (BitVec 5 × Word) :=
  let r := c.recd
  let (mt, nt, kt) := tileAt r c.done
  let rows := (List.range (tileRows r mt)).map (32 * mt + ·)
  let ea := elemBytes (mxAfmt r)
  let poison (o : Option Word) : Option (BitVec 5 × Word) := o.map fun a => (cPoison, a)
  let index := if mxGather r then rows.findSome? fun i => padBad s (idxOff r i) 8 else none
  let outsideRow := if mxGather r then
      rows.find? fun i => decide (aRow r i s < 0) || decide ((mxArows r : Int) ≤ aRow r i s)
    else none
  match poison index, outsideRow with
  | some f, _ => some f
  | none, some i => some (cPerm, BitVec.ofNat 64 (Config.scratchWindow + idxOff r i))
  | none, none =>
    let a := rows.findSome? fun i => padBad s (aOff r (aRow r i s).toNat (32 * kt)) (32 * ea)
    let b := (tileBlocks r).findSome? fun k =>
      let blk := subTile r kt nt / 256 + k
      if s.me.wpoison.contains blk then some (BitVec.ofNat 64 (2 ^ 63 + 256 * blk)) else none
    let cc := if kt = 0 ∧ mxZeroc r then none
      else rows.findSome? fun i => padBad s (cOff r i (32 * nt)) (32 * mxEc r)
    match poison a, poison b with
    | some f, _ => some f
    | none, some f => some f
    | none, none => poison cc

/-! ## The other steps (R369, R370, R372) -/

/-- The byte writes of an MXZERO step. -/
def zeroWrites (c : EngCmd) (s : State) : List (Nat × Byte) :=
  let r := c.recd
  let (mt, nt, _) := tileAt r c.done
  ((List.range (tileRows r mt)).map (32 * mt + ·)).flatMap fun i =>
    (List.range (32 * mxEc r)).map fun j => (scratchHome s.me.num (cOff r i (32 * nt) + j), 0)

/-- y of R372, as a pattern. -/
def epiOut (c : EngCmd) (row n : Nat) (s : State) : Nat :=
  let r := c.recd
  let mode := recNat r 3 1
  let v := mulN (cVal r row n s) (epiAlpha r)
  let v : Num := match v with
    | .nan => .nan
    | .inf neg => if mode / 8 % 2 = 1 ∧ neg then .fin false 0 0 else v
    | .fin neg _ _ => if mode / 8 % 2 = 1 ∧ neg then .fin false 0 0 else v
  let rnd := rndOf (mode % 8) (row % 16) (n % 16)
  let int (w : Nat) (lo hi : Int) : Nat := (BitVec.ofInt w (toIntSat rnd lo hi v)).toNat
  match epiFmt r with
  | 0x01 => roundTo fmtD rnd v
  | 0x02 => roundTo fmtS rnd v
  | 0x03 => roundTo fmtH rnd v
  | 0x04 => roundTo fmtBh rnd v
  | 0x08 => tblEncode c.table false rnd v
  | 0x10 => int 8 (-128) 127
  | 0x11 => int 8 0 255
  | 0x12 => int 16 (-32768) 32767
  | _ => int 32 (-(2 ^ 31)) (2 ^ 31 - 1)

/-- The destination of row i of an MXEPI tile. -/
def epiRow (r : Rec) (i nt : Nat) : Int := (addrOf (epiDst r) + epiDstr r * i + epiE r * (32 * nt) : Nat)

/-- The byte writes of an MXEPI step. -/
def epiWrites (c : EngCmd) (s : State) : List (Nat × Byte) :=
  let r := c.recd
  let (mt, nt, _) := tileAt r c.done
  ((List.range (tileRows r mt)).map (32 * mt + ·)).flatMap fun i =>
    engPut c (epiRow r i nt) ((List.range 32).flatMap fun n => leBytes (epiE r) (epiOut c i (32 * nt + n) s)) s

/-- What stops an MXEPI step: a destination page or address, a poisoned sector of C, a memory controller that is
down (R277). -/
def epiStop (c : EngCmd) (s : State) : Option EngStop :=
  let r := c.recd
  let (mt, nt, _) := tileAt r c.done
  let rows := (List.range (tileRows r mt)).map (32 * mt + ·)
  let ps := rows.flatMap fun i => atomAddrs (epiRow r i nt) (32 * epiE r)
  match engProbe c (ps.map fun a => (a, .write)) s with
  | some e => some e
  | none =>
    match rows.findSome? fun i => padBad s (cOff r i (32 * nt)) (32 * mxEc r) with
    | some a => some (.fault cPoison (a.toNat : Int))
    | none => ps.findSome? fun a => if engDown a (engHome c .write a s) s then some (.fault cMemDown a) else none

/-- The source address of an MXWLD step. -/
def wldAt (c : EngCmd) : Int := (wldSrc c.recd + 256 * c.done : Nat)

/-- What stops an MXWLD step (R277). -/
def wldStop (c : EngCmd) (s : State) : Option EngStop :=
  let ps := atomAddrs (wldAt c) 256
  match engProbe c (ps.map fun a => (a, .read)) s with
  | some e => some e
  | none => engReadStop c ps s

/-- The weight-buffer bytes of an MXWLD step are written; the block's mark clears (R368, R369). -/
def wldWrite (c : EngCmd) (s : State) : State :=
  let off := wldWoff c.recd + 256 * c.done
  let l := (engBytes c (wldAt c) 256 s).mapIdx fun j b => (weightHome s.me.num (off + j), b)
  let s := { s with mem := spSetAll 0 s.mem l }
  { s with me := { s.me with wpoison := s.me.wpoison.filter fun b => b != off / 256 } }

/-! ## Steps -/

/-- What stops the head's step. DEDUCED (log entry 50). -/
def mxStop (c : EngCmd) (s : State) : Option EngStop :=
  match deniedAt c with
  | some va => some (.fault cPerm va)
  | none =>
    match engKind c.recd with
    | 0x10 => (macFault c s).map fun f => .fault f.1 (f.2.toNat : Int)
    | 0x11 => wldStop c s
    | 0x12 => epiStop c s
    | _ => none

/-- The homes that the head's step reads (R369, R370, R372). -/
def mxReads (c : EngCmd) (s : State) : List Nat :=
  let r := c.recd
  let (mt, nt, kt) := tileAt r c.done
  let rows := (List.range (tileRows r mt)).map (32 * mt + ·)
  let pad (off n : Nat) : List Nat := (List.range ((off + n - 1) / 32 - off / 32 + 1)).map fun k => scratchHome s.me.num (off + 32 * k)
  match engKind r with
  | 0x10 => rows.flatMap fun i =>
      (if mxGather r then pad (idxOff r i) 8 else []) ++
        pad (aOff r (aRow r i s).toNat (32 * kt)) (32 * elemBytes (mxAfmt r)) ++
        (if kt = 0 ∧ mxZeroc r then [] else pad (cOff r i (32 * nt)) (32 * mxEc r))
  | 0x11 => (atomAddrs (wldAt c) 256).map fun a => engHome c .read a s
  | 0x12 => rows.flatMap fun i => pad (cOff r i (32 * nt)) (32 * mxEc r)
  | _ => []

/-- The writes of the head's step. DEDUCED (log entry 51). -/
def mxWrite (c : EngCmd) (s : State) : State :=
  match engKind c.recd with
  | 0x10 => engWrite c (macWrites c s) s
  | 0x11 => wldWrite c s
  | 0x12 => engWrite c (epiWrites c s) s
  | _ => engWrite c (zeroWrites c s) s

/-- The sectors that a step counts (R340, R367, R369, R370, R372). -/
def mxSectors (c : EngCmd) : Nat :=
  let r := c.recd
  let (mt, nt, kt) := tileAt r c.done
  match engKind r with
  | 0x10 => if kt + 1 = tilesK r then mxEc r * tileRows r mt else 0
  | 0x11 => 8
  | 0x12 => if nt + 1 = tilesN r then tileRows r mt * (epiE r * mxN r / 32) else 0
  | _ => if nt + 1 = tilesN r then tileRows r mt * (mxEc r * mxN r / 32) else 0

/-- The head leaves the queue: parked pushers wake, and an MXMAC that becomes the head kindles (R336, R344). -/
def mxPop (s : State) : State :=
  let n := s.me.num
  headKindles (queueFreed .matrix (fun k => k == n) { s with me := { s.me with mq := s.me.mq.drop 1 } })

/-- The step of the head command that is in flight retires (R340, R344, R368). DEDUCED (log entry 51). -/
def mxRetire (c : EngCmd) (s : State) : State :=
  let s := { s with me := { s.me with inFlight := none } }
  let after (s : State) : State := if isMac c then quenchIfIdle s else s
  match mxStop c s with
  | some (.wait va k) => engPfault c va k { s with me := { s.me with mq := waiting c va :: s.me.mq.drop 1 } }
  | some (.fault cause va) => after (engFault c cause (BitVec.ofInt 64 va) (mxPop s))
  | none =>
    let n := mxSectors c
    let s := mxWrite c (askBanks (mxReads c s) s)
    let s := if n = 0 then s else engCount c n s
    let c' := { c with done := c.done + 1, fault := none, denied := false }
    if stepsOf c.recd ≤ c.done + 1 then after (mxPop s)
    else { s with me := { s.me with mq := c' :: s.me.mq.drop 1 } }

/-- The matrix engine of the core acting takes its next action: the step in flight retires, or the head's step issues
(R337, R340, R343). A denied page ends the command where it waits (R277). -/
def execMatrixStep (s : State) : Out State :=
  match s.me.mq, s.me.inFlight with
  | c :: _, some t => if t ≤ s.clock then .next (mxTryIssue (mxRetire c s)) else .refused (.notDue "MATRIX_STEP")
  | c :: _, none =>
    if c.denied then .next (mxTryIssue (mxRetire c s))
    else
      let s' := mxTryIssue s
      if s'.me.inFlight.isSome then .next s' else .refused (.notDue "MATRIX_STEP")
  | [], _ => .refused (.notDue "MATRIX_STEP")

/-- The refill of R343, in every cycle in which CLOCK<9:0> = 0. -/
def execEnergyRefill (s : State) : Out State :=
  if coreClock s s.me % 1024 = 0 ∧ s.me.refilled ≠ s.clock then
    .next { s with me := { s.me with
      level := BitVec.ofNat 32 (Nat.min s.me.cap.toNat (s.me.level.toNat + s.me.rate.toNat)), refilled := s.clock } }
  else .refused (.notDue "ENERGY_REFILL")

/-- KINDLE reaches 0: HOT, and the head's step issues if it may (R344). -/
def execKindleEnd (s : State) : Out State :=
  match s.me.power with
  | .kindle stop =>
    if stop ≤ s.clock then .next (mxTryIssue { s with me := { s.me with power := .hot } })
    else .refused (.notDue "KINDLE_END")
  | _ => .refused (.notDue "KINDLE_END")

/-- QUENCH reaches 0: COLD (R344). -/
def execQuenchEnd (s : State) : Out State :=
  match s.me.power with
  | .quench stop =>
    if stop ≤ s.clock then .next { s with me := { s.me with power := .cold } } else .refused (.notDue "QUENCH_END")
  | _ => .refused (.notDue "QUENCH_END")

/-- The burst deadline has passed in HOT with no MXMAC queued: QUENCH(64) in the next cycle (R344).
DEDUCED (log entry 36). -/
def execBurstDeadline (s : State) : Out State :=
  if s.me.power = .hot ∧ s.me.burst ∧ s.me.deadline ≤ s.clock ∧ s.me.mq.any isMac = false then
    .next { s with me := { s.me with power := .quench (s.clock + 65), burst := false } }
  else .refused (.notDue "BURST_DEADLINE")

/-- BURST (R345). DEDUCED (log entry 36). -/
def execBurst (n : BitVec 16) (s : State) : Out State :=
  enter ⟨[], []⟩ s fun s =>
    let s := { s with me := { s.me with burst := true, deadline := Nat.max s.me.deadline (s.clock + n.toNat) } }
    retire (match s.me.power with
      | .cold => kindleFor 64 s
      | .quench stop => mxTryIssue (rekindle stop s)
      | _ => s)

end Sys2Proof.Machine
end

