-- ==== Sys2Proof/Machine/Control.lean ====
section
/-!
DEFINITION. Control: branches and jumps (R79 to R82), the SYS words but BURST (R83 to R88, R250, R269), MFS and MTS with
the rotation table, the bell and the other special registers (R16 to R19, R49, R90, R125, R131, R136, R323, R342), and
TID (R100).
-/

namespace Sys2Proof.Machine

/-! ## Branches and jumps -/

/-- BEQ (R79). -/
def execBeq (a b : BitVec 7) (imm : BitVec 8) (s : State) : Out State :=
  enter ⟨[.g a, .g b], []⟩ s fun s => branch (rd s a == rd s b) imm.toInt s

/-- BNE (R79). -/
def execBne (a b : BitVec 7) (imm : BitVec 8) (s : State) : Out State :=
  enter ⟨[.g a, .g b], []⟩ s fun s => branch (rd s a != rd s b) imm.toInt s

/-- BLT (R79). -/
def execBlt (a b : BitVec 7) (imm : BitVec 8) (s : State) : Out State :=
  enter ⟨[.g a, .g b], []⟩ s fun s => branch (ltS (rd s a) (rd s b)) imm.toInt s

/-- BGE (R79). -/
def execBge (a b : BitVec 7) (imm : BitVec 8) (s : State) : Out State :=
  enter ⟨[.g a, .g b], []⟩ s fun s => branch (!ltS (rd s a) (rd s b)) imm.toInt s

/-- BLTU (R79). -/
def execBltu (a b : BitVec 7) (imm : BitVec 8) (s : State) : Out State :=
  enter ⟨[.g a, .g b], []⟩ s fun s => branch (ltU (rd s a) (rd s b)) imm.toInt s

/-- BGEU (R79). -/
def execBgeu (a b : BitVec 7) (imm : BitVec 8) (s : State) : Out State :=
  enter ⟨[.g a, .g b], []⟩ s fun s => branch (!ltU (rd s a) (rd s b)) imm.toInt s

/-- BSET (R79). -/
def execBset (a b : BitVec 7) (imm : BitVec 8) (s : State) : Out State :=
  enter ⟨[.g a, .g b], []⟩ s fun s => branch (bitN (rd s a) ((rd s b).toNat % 64) == 1) imm.toInt s

/-- BCLR (R79). -/
def execBclr (a b : BitVec 7) (imm : BitVec 8) (s : State) : Out State :=
  enter ⟨[.g a, .g b], []⟩ s fun s => branch (bitN (rd s a) ((rd s b).toNat % 64) == 0) imm.toInt s

/-- BEQZ (R80). -/
def execBeqz (a : BitVec 7) (imm : BitVec 15) (s : State) : Out State :=
  enter ⟨[.g a], []⟩ s fun s => branch (rd s a == 0) imm.toInt s

/-- BNEZ (R80). -/
def execBnez (a : BitVec 7) (imm : BitVec 15) (s : State) : Out State :=
  enter ⟨[.g a], []⟩ s fun s => branch (rd s a != 0) imm.toInt s

/-- BLTZ (R80). -/
def execBltz (a : BitVec 7) (imm : BitVec 15) (s : State) : Out State :=
  enter ⟨[.g a], []⟩ s fun s => branch (ltS (rd s a) 0) imm.toInt s

/-- BGEZ (R80). -/
def execBgez (a : BitVec 7) (imm : BitVec 15) (s : State) : Out State :=
  enter ⟨[.g a], []⟩ s fun s => branch (!ltS (rd s a) 0) imm.toInt s

/-- BGTZ (R80). -/
def execBgtz (a : BitVec 7) (imm : BitVec 15) (s : State) : Out State :=
  enter ⟨[.g a], []⟩ s fun s => branch (ltS 0 (rd s a)) imm.toInt s

/-- BLEZ (R80). -/
def execBlez (a : BitVec 7) (imm : BitVec 15) (s : State) : Out State :=
  enter ⟨[.g a], []⟩ s fun s => branch (!ltS 0 (rd s a)) imm.toInt s

/-- The link of JAL and JALR: PA + 8 (R44). -/
def linkOf (s : State) : Word := BitVec.ofNat 64 (s.iss.pa + 8)

/-- JMP (R81). -/
def execJmp (imm : BitVec 25) (s : State) : Out State :=
  enter ⟨[], []⟩ s fun s => branch true imm.toInt s

/-- JAL (R81). -/
def execJal (d : BitVec 7) (imm : BitVec 18) (s : State) : Out State :=
  enter ⟨[.g d], [.g d]⟩ s fun s => branch true imm.toInt (wr d (linkOf s) s)

/-- JALR (R81): a is read before gd is written. -/
def execJalr (d a : BitVec 7) (imm : BitVec 11) (s : State) : Out State :=
  enter ⟨[.g d, .g a], [.g d]⟩ s fun s =>
    let t : Int := addrOf (rd s a) + 8 * imm.toInt
    if t % 8 ≠ 0 then trap cMisalign (BitVec.ofInt 64 t) s
    else if outside t then trap cAddrOvf (BitVec.ofInt 64 t) s
    else .next (goTo t.toNat (wr d (linkOf s) s))

/-! ## SYS -/

/-- NOP (R83). -/
def execNop (s : State) : Out State := enter ⟨[], []⟩ s retire

/-- END (R84): waits for the thread's relaxed accesses, then the slot becomes EMPTY. -/
def execEndThread (s : State) : Out State :=
  enterReporting ⟨[], []⟩ s fun s =>
    if hasRelaxed s s.iss.slot || hasTraining s s.iss.slot then waitFor .ending s
    else .next (setRes .retired (endSlot s.iss.slot s))

/-- YIELD (R85): not eligible in the next 16 cycles. -/
def execYield (s : State) : Out State :=
  enter ⟨[], []⟩ s fun s => .next (onCur (fun c => { c with elig := Nat.max c.elig (s.clock + 17) }) (advance s))

/-- SWTRAP (R86). -/
def execSwtrap (n : BitVec 20) (s : State) : Out State :=
  enter ⟨[], []⟩ s fun s => trap cSwtrap (n.setWidth 64) s

/-- RETT (R87). -/
def execRett (s : State) : Out State := enter ⟨[], []⟩ s fun s => .next (returnFrom s)

/-- LINEUP (R88): parks until its group is released, then retires as it issues again. -/
def execLineup (n : BitVec 8) (s : State) : Out State :=
  enter ⟨[], []⟩ s fun s =>
    if (cur s).released then retire (onCur (fun c => { c with released := false }) s)
    else park (.lineup n.toNat s.iss.pa s.clock) s

/-! ## Fences (R249, R250, R269) -/

/-- An engine command of the thread in slot k of the core acting. -/
def isMine (s : State) (k : Nat) (c : EngCmd) : Bool := c.live && c.core == s.me.num && c.slot == k

/-- The thread of slot k has an engine operation under way, carousel catches left out (R251, R252). -/
def hasEngine (s : State) (k : Nat) : Bool :=
  let mine := isMine s k
  s.me.mq.any mine || s.me.xq.any mine || (clusterAt s (myCluster s)).rq.any mine ||
    (dieAt s (myDie s)).pq.any mine || (dieAt s (myDie s)).cq.any (fun c => mine c.cmd) ||
    hasTraining s k

/-- How many relaxed accesses slot k has outstanding. -/
def relaxedCount (s : State) (k : Nat) : Nat := (s.me.relaxed.filter fun a => a.slot == k).length

/-- The condition of a fence: 0 FENCE.rx, 1 FENCE.eng, 2 FENCE.sys, 3 WAITRX n (R250, R269). -/
def fenceDone (s : State) (k kind n : Nat) : Bool :=
  match kind with
  | 0 => !hasRelaxed s k
  | 1 => !hasRelaxed s k && !hasEngine s k
  | 2 => !hasRelaxed s k && !hasEngine s k && !s.me.posted.any fun p => p.live && p.slot == k
  | _ => decide (relaxedCount s k ≤ n)

/-- A fence retires in its turn, or waits (R269). -/
def fence (kind n : Nat) (s : State) : Out State :=
  if fenceDone s s.iss.slot kind n then retire s else waitFor (.fence kind n) s

/-- FENCE.rx (R250). -/
def execFenceRx (s : State) : Out State := enterReporting ⟨[], []⟩ s fun s => fence 0 0 s
/-- FENCE.eng (R250). -/
def execFenceEng (s : State) : Out State := enterReporting ⟨[], []⟩ s fun s => fence 1 0 s
/-- FENCE.sys (R250). -/
def execFenceSys (s : State) : Out State := enterReporting ⟨[], []⟩ s fun s => fence 2 0 s
/-- WAITRX (R249). -/
def execWaitrx (n : BitVec 5) (s : State) : Out State := enterReporting ⟨[], []⟩ s fun s => fence 3 n.toNat s

/-! ## Special registers -/

/-- ROTTABn as MFS reads it: the shadow copy (R16, R19). -/
def rotWord (tab : List (BitVec 16)) (n : Nat) : Word :=
  BitVec.ofNat 64 ((List.range 4).foldl (fun acc j => acc + ((tab[4 * n + j]?).getD 0).toNat * 2 ^ (16 * j)) 0)

/-- The value of a special register (R49, R90). -/
def srValue (s : State) (sr : Nat) : Option Word :=
  let c := cur s
  let nat (n : Nat) : Option Word := some (BitVec.ofNat 64 n)
  match sr with
  | 0x000 => nat c.thread
  | 0x001 => nat s.iss.slot
  | 0x002 => nat s.me.num
  | 0x003 => nat (myCluster s)
  | 0x004 => nat (myDie s)
  | 0x005 => nat s.pkg
  | 0x010 => nat (coreClock s s.me)
  | 0x011 => nat c.task
  | 0x012 => nat c.ntask
  | 0x020 => nat c.winBase
  | 0x021 => nat c.winSize
  | 0x030 => nat (c.tvec.toNat * 8)
  | 0x031 => nat (c.tpc.toNat * 8)
  | 0x032 => nat c.tcause.toNat
  | 0x033 => some c.tval
  | 0x034 => nat c.tpair.toNat
  | 0x040 => some (rotWord s.me.shadow 0)
  | 0x041 => some (rotWord s.me.shadow 1)
  | 0x042 => some (rotWord s.me.shadow 2)
  | 0x043 => some (rotWord s.me.shadow 3)
  | 0x044 => nat s.me.rotPol.toNat
  | 0x050 => some (s.me.cap ++ s.me.level)
  | 0x051 => nat s.me.rate.toNat
  | 0x060 => nat s.me.bell.toNat
  | 0x070 => some (tblCfg (tableOf s))
  | 0x080 => nat s.me.footprint.toNat
  | _ => none

/-- MFS (R90). -/
def execMfs (d : BitVec 7) (sr : BitVec 12) (s : State) : Out State :=
  enter ⟨[.g d], [.g d]⟩ s fun s =>
    match srValue s sr.toNat with
    | some v => retireWr d v s
    | none => trap cIllegal (patternOf (.mfs d sr) s) s

/-- The four entries of a value written to ROTTABn (R16). -/
def rotEntries (v : Word) : List (BitVec 16) := (List.range 4).map fun j => v.extractLsb' (16 * j) 16

/-- MTS to ROTTABn (R19): the shadow copy takes it. -/
def mtsRottab (n : Nat) (v : Word) (s : State) : Out State :=
  if (rotEntries v).any fun e => e.extractLsb' 4 11 != 0 then trap cIllegal v s
  else retire { s with me := { s.me with
    shadow := s.me.shadow.take (4 * n) ++ rotEntries v ++ s.me.shadow.drop (4 * n + 4) } }

/-- Entry p, with the entries at lower positions, breaks R18: its slot is named before, and not just once, 8 positions
back. DEDUCED (log entry 14). -/
def rotBreaks (tab : List (BitVec 16)) (p : Nat) : Bool :=
  let e := (tab[p]?).getD 0
  let before := (List.range p).filter fun q => namesSlot ((tab[q]?).getD 0) (e.toNat % 16)
  e.toNat / 2 ^ 15 == 1 && (match before with
    | [] => false
    | [q] => q + 8 != p
    | _ => true)

/-- The position of the first entry that breaks R18 (R19). DEDUCED (log entry 14). -/
def rotFault (tab : List (BitVec 16)) : Option Nat := (List.range 16).find? (rotBreaks tab)

/-- The policy that a context may have: FIXED in fixed mode, whatever is asked for (R297). -/
def policyFor (fixed : Bool) (p : BitVec 1) : BitVec 1 := if fixed then 0 else p

/-- MTS to ROTPOL (R19): the shadow table and the policy wait for position 0. -/
def mtsRotpol (v : Word) (s : State) : Out State :=
  if v.toNat / 2 ≠ 0 then trap cIllegal v s
  else
    match rotFault s.me.shadow with
    | some p => trap cIllegal (BitVec.ofNat 64 p) s
    | none => retire { s with me := { s.me with rotPend := some (policyFor s.ctx.fixed (v.setWidth 1), s.me.shadow) } }

/-- MTS to TVEC or TPC (R49, R125): bits 56:3 are kept. -/
def mtsTvec (tpc : Bool) (v : Word) (s : State) : Out State :=
  if v.toNat % 8 ≠ 0 then trap cIllegal v s
  else
    let x : BitVec 54 := v.extractLsb' 3 54
    retire (onCur (fun c => if tpc then { c with tpc := x } else { c with tvec := x }) s)

/-- MTS to TPAIR (R49). -/
def mtsTpair (v : Word) (s : State) : Out State :=
  if 1 < v.toNat then trap cIllegal v s else retire (onCur (fun c => { c with tpair := v.setWidth 1 }) s)

/-- The matrix queue of the core acting, where a step that waits is judged on a new LEVEL from the next cycle (R346). -/
def waitingStep (s : State) : List EngCmd :=
  match s.me.mq, s.me.inFlight with
  | c :: q, none => { c with ready := Nat.max c.ready (s.clock + 1) } :: q
  | q, _ => q

/-- MTS to EBUDGET (R342). -/
def mtsEbudget (v : Word) (s : State) : Out State :=
  let cap : BitVec 32 := v.extractLsb' 32 32
  let level : BitVec 32 := v.extractLsb' 0 32
  if cap.toNat < 8 ∨ cap.toNat < level.toNat then trap cIllegal v s
  else retire { s with me := { s.me with cap := cap, level := level, mq := waitingStep s } }

/-- MTS to EFILL (R342). -/
def mtsEfill (v : Word) (s : State) : Out State :=
  if v.toNat = 0 ∨ 2 ^ 16 ≤ v.toNat then trap cIllegal v s
  else retire { s with me := { s.me with rate := v.setWidth 16, rateCfg := v.setWidth 16 } }

/-- MTS to BELL (R131). -/
def mtsBell (v : Word) (s : State) : Out State :=
  if 2 ^ 48 ≤ v.toNat then trap cIllegal v s else retire { s with me := { s.me with bell := v.setWidth 48 } }

/-- MTS to TBLCFG (R323): H4, ORD and H are recomputed from the entries. -/
def mtsTblcfg (v : Word) (s : State) : Out State :=
  let infC : BitVec 7 := v.extractLsb' 8 7
  let infV := bits v 15 1 == 1
  let nanC : BitVec 7 := v.extractLsb' 16 7
  let nanV := bits v 23 1 == 1
  if 2 ^ 27 ≤ v.toNat ∨ (infV ∧ infC = 0) ∨ (nanV ∧ nanC = 0) ∨ (infV ∧ nanV ∧ infC = nanC) then trap cIllegal v s
  else retire { s with me := { s.me with
    table := { s.me.table with infV := infV, infC := infC, nanV := nanV, nanC := nanC } } }

/-- MTS to FOOTPRINT (R136). -/
def mtsFootprint (v : Word) (s : State) : Out State :=
  if 2 ^ 35 ≤ v.toNat then trap cIllegal v s
  else retire { s with me := { s.me with footprint := v.setWidth 35 } }

/-- The effect of MTS on each register that it may write (R49). DEDUCED (log entry 62). -/
def mtsEffect (sr : Nat) (v pattern : Word) (s : State) : Out State :=
  match sr with
  | 0x030 => mtsTvec false v s
  | 0x031 => mtsTvec true v s
  | 0x034 => mtsTpair v s
  | 0x040 => mtsRottab 0 v s
  | 0x041 => mtsRottab 1 v s
  | 0x042 => mtsRottab 2 v s
  | 0x043 => mtsRottab 3 v s
  | 0x044 => mtsRotpol v s
  | 0x050 => mtsEbudget v s
  | 0x051 => mtsEfill v s
  | 0x060 => mtsBell v s
  | 0x070 => mtsTblcfg v s
  | 0x080 => mtsFootprint v s
  | _ => trap cIllegal pattern s

/-- MTS (R49, R90). -/
def execMts (d : BitVec 7) (sr : BitVec 12) (s : State) : Out State :=
  let p := patternOf (.mts d sr) s
  enterWith ⟨[.g d], []⟩ (if privSr sr.toNat then some p else none) false s fun s => mtsEffect sr.toNat (rd s d) p s

/-! ## The steps that MTS to a named register is, by the register -/

/-- A step that stands for an MTS of `v` to a register, with its privilege check; the word's register field is g0.
DEDUCED (log entry 62). -/
def mtsStep (sr : BitVec 12) (v : Word) (s : State) : Out State :=
  let p := patternOf (.mts 0 sr) s
  enterWith ⟨[], []⟩ (if privSr sr.toNat then some p else none) false s fun s => mtsEffect sr.toNat v p s

/-- ROTTAB_WRITE (R19). -/
def execRottabWrite (n : BitVec 2) (v : Word) (s : State) : Out State := mtsStep (0x040 + n.setWidth 12) v s
/-- ROTPOL_WRITE (R19). -/
def execRotpolWrite (v : Word) (s : State) : Out State := mtsStep 0x044 v s
/-- TVEC_WRITE, and the same of TPC (R125). -/
def execTvecWrite (tpc : Bool) (v : Word) (s : State) : Out State := mtsStep (if tpc then 0x031 else 0x030) v s
/-- BELL_WRITE (R131). -/
def execBellWrite (v : Word) (s : State) : Out State := mtsStep 0x060 v s
/-- TBLCFG_WRITE (R323). -/
def execTblcfgWrite (v : Word) (s : State) : Out State := mtsStep 0x070 v s
/-- EBUDGET_WRITE (R342). -/
def execEbudgetWrite (v : Word) (s : State) : Out State := mtsStep 0x050 v s
/-- EFILL_WRITE (R342). -/
def execEfillWrite (v : Word) (s : State) : Out State := mtsStep 0x051 v s
/-- FOOTPRINT_WRITE (R136). -/
def execFootprintWrite (v : Word) (s : State) : Out State := mtsStep 0x080 v s

/-- ROTATION_SWITCH (R19): at position 0 the waiting table and policy take effect, and the spare pointer starts
at 0. -/
def execRotationSwitch (s : State) : Out State :=
  match s.me.rotPend with
  | some (p, t) =>
    if posOf s.clock s.me = 0 then
      .next { s with me := { s.me with rot := t, rotPol := p, rotPend := none, spare := 0 } }
    else .refused (.notDue "ROTATION_SWITCH")
  | none => .refused (.notDue "ROTATION_SWITCH")

/-- UNASSIGNED_ENCODING (R47): a word that decodes to no form traps ILLEGAL with its own pattern. -/
def execUnassignedEncoding (w : BitVec 32) (s : State) : Out State := trap cIllegal (w.setWidth 64) s

/-- TID (R100). -/
def execTid (d : BitVec 7) (s : State) : Out State :=
  enter ⟨[.g d], [.g d]⟩ s fun s =>
    retireWr d (BitVec.ofNat 64 ((cur s).thread * 2 ^ 16 + s.me.num * 16 + s.iss.slot)) s

end Sys2Proof.Machine
end

