-- ==== Sys2Proof/Machine/Scalar.lean ====
section
/-!
DEFINITION. Scalar floating point (R73 to R75) and FCVT (R76 to R78, R364).
-/

namespace Sys2Proof.Machine

/-- A register as a pattern. -/
def pat (w : Word) : Nat := w.toNat

/-- FADD.D, binary64 (R74). -/
def execFaddD (d a b : BitVec 7) (s : State) : Out State :=
  enter ⟨[.g d, .g a, .g b], [.g d]⟩ s fun s => retireWr d (BitVec.ofNat 64 (fAdd fmtD (pat (rd s a)) (pat (rd s b)))) s

/-- FSUB.D, binary64 (R74). -/
def execFsubD (d a b : BitVec 7) (s : State) : Out State :=
  enter ⟨[.g d, .g a, .g b], [.g d]⟩ s fun s => retireWr d (BitVec.ofNat 64 (fSub fmtD (pat (rd s a)) (pat (rd s b)))) s

/-- FMUL.D, binary64 (R74). -/
def execFmulD (d a b : BitVec 7) (s : State) : Out State :=
  enter ⟨[.g d, .g a, .g b], [.g d]⟩ s fun s => retireWr d (BitVec.ofNat 64 (fMul fmtD (pat (rd s a)) (pat (rd s b)))) s

/-- FMIN.D, binary64 (R74). -/
def execFminD (d a b : BitVec 7) (s : State) : Out State :=
  enter ⟨[.g d, .g a, .g b], [.g d]⟩ s fun s => retireWr d (BitVec.ofNat 64 (fMin fmtD (pat (rd s a)) (pat (rd s b)))) s

/-- FMAX.D, binary64 (R74). -/
def execFmaxD (d a b : BitVec 7) (s : State) : Out State :=
  enter ⟨[.g d, .g a, .g b], [.g d]⟩ s fun s => retireWr d (BitVec.ofNat 64 (fMax fmtD (pat (rd s a)) (pat (rd s b)))) s

/-- FDIV.D, held 6 turns (R26, R74). -/
def execFdivD (d a b : BitVec 7) (s : State) : Out State :=
  enter ⟨[.g d, .g a, .g b], [.g d]⟩ s fun s =>
    hold 6 (pendG d (BitVec.ofNat 64 (fDiv fmtD (pat (rd s a)) (pat (rd s b))))) s

/-- FSQRT.D, held 6 turns (R26, R74). -/
def execFsqrtD (d a : BitVec 7) (s : State) : Out State :=
  enter ⟨[.g d, .g a], [.g d]⟩ s fun s => hold 6 (pendG d (BitVec.ofNat 64 (fSqrt fmtD (pat (rd s a))))) s

/-- FMA.D with gd as the addend (R74). -/
def execFmaD (d a b : BitVec 7) (s : State) : Out State :=
  enter ⟨[.g d, .g a, .g b], [.g d]⟩ s fun s =>
    retireWr d (BitVec.ofNat 64 (fFma fmtD (pat (rd s a)) (pat (rd s b)) (pat (rd s d)))) s

/-- FEQ.D (R74). -/
def execFeqD (d a b : BitVec 7) (s : State) : Out State :=
  enter ⟨[.g d, .g a, .g b], [.g d]⟩ s fun s =>
    retireWr d (flag (eqN (unpack fmtD (pat (rd s a))) (unpack fmtD (pat (rd s b))))) s

/-- FLT.D (R74). -/
def execFltD (d a b : BitVec 7) (s : State) : Out State :=
  enter ⟨[.g d, .g a, .g b], [.g d]⟩ s fun s =>
    retireWr d (flag (ltN (unpack fmtD (pat (rd s a))) (unpack fmtD (pat (rd s b))))) s

/-- FLE.D (R74). -/
def execFleD (d a b : BitVec 7) (s : State) : Out State :=
  enter ⟨[.g d, .g a, .g b], [.g d]⟩ s fun s =>
    retireWr d (flag (leN (unpack fmtD (pat (rd s a))) (unpack fmtD (pat (rd s b))))) s

/-- FCLASS.D (R75). -/
def execFclassD (d a : BitVec 7) (s : State) : Out State :=
  enter ⟨[.g d, .g a], [.g d]⟩ s fun s => retireWr d (BitVec.ofNat 64 (fClass fmtD (pat (rd s a)))) s

/-- FSGNJ.D (R74). -/
def execFsgnjD (d a b : BitVec 7) (s : State) : Out State :=
  enter ⟨[.g d, .g a, .g b], [.g d]⟩ s fun s =>
    retireWr d (BitVec.ofNat 64 (fSetSign fmtD (pat (rd s a)) (fNeg? fmtD (pat (rd s b))))) s

/-- FSGNJN.D (R74). -/
def execFsgnjnD (d a b : BitVec 7) (s : State) : Out State :=
  enter ⟨[.g d, .g a, .g b], [.g d]⟩ s fun s =>
    retireWr d (BitVec.ofNat 64 (fSetSign fmtD (pat (rd s a)) (!fNeg? fmtD (pat (rd s b))))) s

/-- FADD.S, binary32 (R74). -/
def execFaddS (d a b : BitVec 7) (s : State) : Out State :=
  enter ⟨[.g d, .g a, .g b], [.g d]⟩ s fun s => retireWr d (BitVec.ofNat 64 (fAdd fmtS (pat (rd s a)) (pat (rd s b)))) s

/-- FSUB.S, binary32 (R74). -/
def execFsubS (d a b : BitVec 7) (s : State) : Out State :=
  enter ⟨[.g d, .g a, .g b], [.g d]⟩ s fun s => retireWr d (BitVec.ofNat 64 (fSub fmtS (pat (rd s a)) (pat (rd s b)))) s

/-- FMUL.S, binary32 (R74). -/
def execFmulS (d a b : BitVec 7) (s : State) : Out State :=
  enter ⟨[.g d, .g a, .g b], [.g d]⟩ s fun s => retireWr d (BitVec.ofNat 64 (fMul fmtS (pat (rd s a)) (pat (rd s b)))) s

/-- FMIN.S, binary32 (R74). -/
def execFminS (d a b : BitVec 7) (s : State) : Out State :=
  enter ⟨[.g d, .g a, .g b], [.g d]⟩ s fun s => retireWr d (BitVec.ofNat 64 (fMin fmtS (pat (rd s a)) (pat (rd s b)))) s

/-- FMAX.S, binary32 (R74). -/
def execFmaxS (d a b : BitVec 7) (s : State) : Out State :=
  enter ⟨[.g d, .g a, .g b], [.g d]⟩ s fun s => retireWr d (BitVec.ofNat 64 (fMax fmtS (pat (rd s a)) (pat (rd s b)))) s

/-- FDIV.S, held 3 turns (R26, R74). -/
def execFdivS (d a b : BitVec 7) (s : State) : Out State :=
  enter ⟨[.g d, .g a, .g b], [.g d]⟩ s fun s =>
    hold 3 (pendG d (BitVec.ofNat 64 (fDiv fmtS (pat (rd s a)) (pat (rd s b))))) s

/-- FSQRT.S, held 3 turns (R26, R74). -/
def execFsqrtS (d a : BitVec 7) (s : State) : Out State :=
  enter ⟨[.g d, .g a], [.g d]⟩ s fun s => hold 3 (pendG d (BitVec.ofNat 64 (fSqrt fmtS (pat (rd s a))))) s

/-- FMA.S with gd as the addend (R74). -/
def execFmaS (d a b : BitVec 7) (s : State) : Out State :=
  enter ⟨[.g d, .g a, .g b], [.g d]⟩ s fun s =>
    retireWr d (BitVec.ofNat 64 (fFma fmtS (pat (rd s a)) (pat (rd s b)) (pat (rd s d)))) s

/-- FEQ.S (R74). -/
def execFeqS (d a b : BitVec 7) (s : State) : Out State :=
  enter ⟨[.g d, .g a, .g b], [.g d]⟩ s fun s =>
    retireWr d (flag (eqN (unpack fmtS (pat (rd s a))) (unpack fmtS (pat (rd s b))))) s

/-- FLT.S (R74). -/
def execFltS (d a b : BitVec 7) (s : State) : Out State :=
  enter ⟨[.g d, .g a, .g b], [.g d]⟩ s fun s =>
    retireWr d (flag (ltN (unpack fmtS (pat (rd s a))) (unpack fmtS (pat (rd s b))))) s

/-- FLE.S (R74). -/
def execFleS (d a b : BitVec 7) (s : State) : Out State :=
  enter ⟨[.g d, .g a, .g b], [.g d]⟩ s fun s =>
    retireWr d (flag (leN (unpack fmtS (pat (rd s a))) (unpack fmtS (pat (rd s b))))) s

/-- FCLASS.S (R75). -/
def execFclassS (d a : BitVec 7) (s : State) : Out State :=
  enter ⟨[.g d, .g a], [.g d]⟩ s fun s => retireWr d (BitVec.ofNat 64 (fClass fmtS (pat (rd s a)))) s

/-- FSGNJ.S (R74). -/
def execFsgnjS (d a b : BitVec 7) (s : State) : Out State :=
  enter ⟨[.g d, .g a, .g b], [.g d]⟩ s fun s =>
    retireWr d (BitVec.ofNat 64 (fSetSign fmtS (pat (rd s a)) (fNeg? fmtS (pat (rd s b))))) s

/-- FSGNJN.S (R74). -/
def execFsgnjnS (d a b : BitVec 7) (s : State) : Out State :=
  enter ⟨[.g d, .g a, .g b], [.g d]⟩ s fun s =>
    retireWr d (BitVec.ofNat 64 (fSetSign fmtS (pat (rd s a)) (!fNeg? fmtS (pat (rd s b))))) s

/-- FCVT (R76 to R78, R364): the table is that of the issue cycle. -/
def execFcvt (rnd : BitVec 3) (d a : BitVec 7) (dst src : BitVec 3) (s : State) : Out State :=
  enter ⟨[.g d, .g a], [.g d]⟩ s fun s =>
    retireWr d (fcvtWord (tableOf s) rnd.toNat dst.toNat src.toNat (rd s a) (rd s d)) s

end Sys2Proof.Machine
end

