-- ==== Sys2Proof/Machine/Shading.lean ====
section
/-!
DEFINITION. The cluster's shading cache: TSREQ, TSFILL and TSWAIT (R203 to R205).
-/

namespace Sys2Proof.Machine

/-- The way of a cluster's cache at number w, nothing if it is ABSENT. -/
def wayAt (cl : Cluster) (w : Nat) : Option ShadeWay := spGet none cl.shade w

/-- The numbers of the four ways of a key's set (R203). -/
def waysOf (key : Nat) : List Nat := (List.range 4).map (4 * (key % 1024) + ·)

/-- The way that holds a key. -/
def wayOf (cl : Cluster) (key : Nat) : Option (Nat × ShadeWay) :=
  (waysOf key).findSome? fun w => match wayAt cl w with
    | some x => if x.key = key then some (w, x) else none
    | none => none

/-- The VALID way of a set that was filled earliest. -/
def earliest (cl : Cluster) (key : Nat) : Option Nat :=
  ((waysOf key).foldl (fun best w =>
    match wayAt cl w, best with
    | some x, none => if x.valid then some (w, x.filled) else none
    | some x, some (b, f) => if x.valid && decide (x.filled < f) then some (w, x.filled) else some (b, f)
    | none, b => b) none).map (·.1)

/-- The way that a claim takes: the lowest ABSENT one, else the VALID one filled earliest (R205). -/
def claimable (cl : Cluster) (key : Nat) : Option Nat :=
  match (waysOf key).find? fun w => (wayAt cl w).isNone with
  | some w => some w
  | none => earliest cl key

/-- A way of the core's own cluster, set. -/
def setWay (w : Nat) (x : ShadeWay) (s : State) : State :=
  let cl := clusterAt s (myCluster s)
  setCluster (myCluster s) { cl with shade := spSet none cl.shade w (some x) } s

/-- The key of a shading word, which traps ILLEGAL where a<63:48> is not 0 (R204). -/
def withKey (a : BitVec 7) (s : State) (k : Nat → State → Out State) : Out State :=
  if (rd s a).toNat / 2 ^ 48 ≠ 0 then trap cIllegal (rd s a) s else k (rd s a).toNat s

/-- TSREQ (R205). The cluster's cache serves a request in the cycle of its issue. DESIGN CHOICE (log entry 6). -/
def execTsreq (d a : BitVec 7) (b : BitVec 4) (s : State) : Out State :=
  enter ⟨[.g d, .g a, .v b], [.g d, .v b]⟩ s fun s => withKey a s fun key s =>
    let cl := clusterAt s (myCluster s)
    match wayOf cl key with
    | some (_, x) => if x.valid then retireWr d 2 (wrV b (wordsOf x.data) s) else retireWr d 1 s
    | none =>
      match claimable cl key with
      | some w => retireWr d 0 (setWay w ⟨key, false, (cur s).thread, 0, 0⟩ s)
      | none => retireWr d 3 s

/-- A PENDING way filled (R205). -/
def fillWay (w : Nat) (x : ShadeWay) (data : Rec) (s : State) : State :=
  let c := myCluster s
  let cl := clusterAt s c
  let s := setCluster c { cl with
    fills := cl.fills + 1
    shade := spSet none cl.shade w (some ⟨x.key, true, x.owner, data, cl.fills⟩) } s
  wakeIn (fun k => clusterOf k == c) (fun p => p == .tsWait x.key) s

/-- TSFILL (R205). -/
def execTsfill (d a : BitVec 7) (b : BitVec 4) (s : State) : Out State :=
  enter ⟨[.g d, .g a, .v b], [.g d]⟩ s fun s => withKey a s fun key s =>
    match wayOf (clusterAt s (myCluster s)) key with
    | some (w, x) =>
      if !x.valid && x.owner == (cur s).thread then publish s fun s => retireWr d 2 (fillWay w x (recOf (rdV s b)) s)
      else retireWr d 4 s
    | none => retireWr d 4 s

/-- TSWAIT (R205). -/
def execTswait (d a : BitVec 7) (b : BitVec 4) (s : State) : Out State :=
  enter ⟨[.g d, .g a, .v b], [.g d, .v b]⟩ s fun s => withKey a s fun key s =>
    match wayOf (clusterAt s (myCluster s)) key with
    | some (_, x) => if x.valid then retireWr d 2 (wrV b (wordsOf x.data) s) else park (.tsWait key) s
    | none => retireWr d 4 s

end Sys2Proof.Machine
end

