-- ==== Sys2Proof/Machine/Vector.lean ====
section
/-!
DEFINITION. The vector words: VOP (R352), VFOP and VFOP64 (R353), VMISC (R354 to R363), and TBLW and TBLR (R365).
-/

namespace Sys2Proof.Machine

/-- Saturation to a signed 32-bit integer (R352). -/
def sat32 (k : Int) : BitVec 32 := BitVec.ofInt 32 (if k < -(2 ^ 31) then -(2 ^ 31) else if 2 ^ 31 - 1 < k then 2 ^ 31 - 1 else k)

/-- A lane-wise operation on sixteen 32-bit lanes. -/
def vop (f : BitVec 32 → BitVec 32 → BitVec 32) (d a b : BitVec 4) (s : State) : Out State :=
  let x := rdV s a
  let y := rdV s b
  retireV d (words32 fun j => f (lane32 x j) (lane32 y j)) s

/-- The lanes of a lane-wise operation on binary32. -/
def vfS (f : Nat → Nat → Nat → Nat) (x y z : List Word) : List Word :=
  words32 fun j => BitVec.ofNat 32 (f (lane32 x j).toNat (lane32 y j).toNat (lane32 z j).toNat)

/-- The lanes of a lane-wise operation on binary64. -/
def vfD (f : Nat → Nat → Nat → Nat) (x y z : List Word) : List Word :=
  words64 fun j => BitVec.ofNat 64 (f (lane64 x j).toNat (lane64 y j).toNat (lane64 z j).toNat)

/-- VADD (R352). -/
def execVadd (d a b : BitVec 4) (s : State) : Out State :=
  enter ⟨[.v d, .v a, .v b], [.v d]⟩ s fun s => vop (fun x y => x + y) d a b s

/-- VSUB (R352). -/
def execVsub (d a b : BitVec 4) (s : State) : Out State :=
  enter ⟨[.v d, .v a, .v b], [.v d]⟩ s fun s => vop (fun x y => x - y) d a b s

/-- VAND (R352). -/
def execVand (d a b : BitVec 4) (s : State) : Out State :=
  enter ⟨[.v d, .v a, .v b], [.v d]⟩ s fun s => vop (fun x y => x &&& y) d a b s

/-- VOR (R352). -/
def execVor (d a b : BitVec 4) (s : State) : Out State :=
  enter ⟨[.v d, .v a, .v b], [.v d]⟩ s fun s => vop (fun x y => x ||| y) d a b s

/-- VXOR (R352). -/
def execVxor (d a b : BitVec 4) (s : State) : Out State :=
  enter ⟨[.v d, .v a, .v b], [.v d]⟩ s fun s => vop (fun x y => x ^^^ y) d a b s

/-- VSHL (R352). -/
def execVshl (d a b : BitVec 4) (s : State) : Out State :=
  enter ⟨[.v d, .v a, .v b], [.v d]⟩ s fun s => vop (fun x y => x <<< (y.toNat % 32)) d a b s

/-- VSHR (R352). -/
def execVshr (d a b : BitVec 4) (s : State) : Out State :=
  enter ⟨[.v d, .v a, .v b], [.v d]⟩ s fun s => vop (fun x y => x >>> (y.toNat % 32)) d a b s

/-- VSAR (R352). -/
def execVsar (d a b : BitVec 4) (s : State) : Out State :=
  enter ⟨[.v d, .v a, .v b], [.v d]⟩ s fun s => vop (fun x y => x.sshiftRight (y.toNat % 32)) d a b s

/-- VMIN (R352). -/
def execVmin (d a b : BitVec 4) (s : State) : Out State :=
  enter ⟨[.v d, .v a, .v b], [.v d]⟩ s fun s => vop (fun x y => if y.toInt < x.toInt then y else x) d a b s

/-- VMAX (R352). -/
def execVmax (d a b : BitVec 4) (s : State) : Out State :=
  enter ⟨[.v d, .v a, .v b], [.v d]⟩ s fun s => vop (fun x y => if x.toInt < y.toInt then y else x) d a b s

/-- VMINU (R352). -/
def execVminu (d a b : BitVec 4) (s : State) : Out State :=
  enter ⟨[.v d, .v a, .v b], [.v d]⟩ s fun s => vop (fun x y => if y.toNat < x.toNat then y else x) d a b s

/-- VMAXU (R352). -/
def execVmaxu (d a b : BitVec 4) (s : State) : Out State :=
  enter ⟨[.v d, .v a, .v b], [.v d]⟩ s fun s => vop (fun x y => if x.toNat < y.toNat then y else x) d a b s

/-- VMUL (R352). -/
def execVmul (d a b : BitVec 4) (s : State) : Out State :=
  enter ⟨[.v d, .v a, .v b], [.v d]⟩ s fun s => vop (fun x y => x * y) d a b s

/-- VMULH (R352). -/
def execVmulh (d a b : BitVec 4) (s : State) : Out State :=
  enter ⟨[.v d, .v a, .v b], [.v d]⟩ s fun s => vop (fun x y => BitVec.ofInt 32 (x.toInt * y.toInt / 2 ^ 32)) d a b s

/-- VADDS (R352). -/
def execVadds (d a b : BitVec 4) (s : State) : Out State :=
  enter ⟨[.v d, .v a, .v b], [.v d]⟩ s fun s => vop (fun x y => sat32 (x.toInt + y.toInt)) d a b s

/-- VSUBS (R352). -/
def execVsubs (d a b : BitVec 4) (s : State) : Out State :=
  enter ⟨[.v d, .v a, .v b], [.v d]⟩ s fun s => vop (fun x y => sat32 (x.toInt - y.toInt)) d a b s

/-- VFADD.S (R353). -/
def execVfaddS (d a b : BitVec 4) (s : State) : Out State :=
  enter ⟨[.v d, .v a, .v b], [.v d]⟩ s fun s => retireV d (vfS (fun x y _ => fAdd fmtS x y) (rdV s a) (rdV s b) []) s

/-- VFSUB.S (R353). -/
def execVfsubS (d a b : BitVec 4) (s : State) : Out State :=
  enter ⟨[.v d, .v a, .v b], [.v d]⟩ s fun s => retireV d (vfS (fun x y _ => fSub fmtS x y) (rdV s a) (rdV s b) []) s

/-- VFMUL.S (R353). -/
def execVfmulS (d a b : BitVec 4) (s : State) : Out State :=
  enter ⟨[.v d, .v a, .v b], [.v d]⟩ s fun s => retireV d (vfS (fun x y _ => fMul fmtS x y) (rdV s a) (rdV s b) []) s

/-- VFMIN.S (R353). -/
def execVfminS (d a b : BitVec 4) (s : State) : Out State :=
  enter ⟨[.v d, .v a, .v b], [.v d]⟩ s fun s => retireV d (vfS (fun x y _ => fMin fmtS x y) (rdV s a) (rdV s b) []) s

/-- VFMAX.S (R353). -/
def execVfmaxS (d a b : BitVec 4) (s : State) : Out State :=
  enter ⟨[.v d, .v a, .v b], [.v d]⟩ s fun s => retireV d (vfS (fun x y _ => fMax fmtS x y) (rdV s a) (rdV s b) []) s

/-- VFMA.S with vd as the addend (R353). -/
def execVfmaS (d a b : BitVec 4) (s : State) : Out State :=
  enter ⟨[.v d, .v a, .v b], [.v d]⟩ s fun s => retireV d (vfS (fFma fmtS) (rdV s a) (rdV s b) (rdV s d)) s

/-- VFDIV.S, held 4 turns (R351, R353). -/
def execVfdivS (d a b : BitVec 4) (s : State) : Out State :=
  enter ⟨[.v d, .v a, .v b], [.v d]⟩ s fun s =>
    hold 4 (pendV d (vfS (fun x y _ => fDiv fmtS x y) (rdV s a) (rdV s b) [])) s

/-- VFSQRT.S, held 4 turns (R351, R353). -/
def execVfsqrtS (d a : BitVec 4) (s : State) : Out State :=
  enter ⟨[.v d, .v a], [.v d]⟩ s fun s => hold 4 (pendV d (vfS (fun x _ _ => fSqrt fmtS x) (rdV s a) [] [])) s

/-- VFADD.D (R353). -/
def execVfaddD (d a b : BitVec 4) (s : State) : Out State :=
  enter ⟨[.v d, .v a, .v b], [.v d]⟩ s fun s => retireV d (vfD (fun x y _ => fAdd fmtD x y) (rdV s a) (rdV s b) []) s

/-- VFSUB.D (R353). -/
def execVfsubD (d a b : BitVec 4) (s : State) : Out State :=
  enter ⟨[.v d, .v a, .v b], [.v d]⟩ s fun s => retireV d (vfD (fun x y _ => fSub fmtD x y) (rdV s a) (rdV s b) []) s

/-- VFMUL.D (R353). -/
def execVfmulD (d a b : BitVec 4) (s : State) : Out State :=
  enter ⟨[.v d, .v a, .v b], [.v d]⟩ s fun s => retireV d (vfD (fun x y _ => fMul fmtD x y) (rdV s a) (rdV s b) []) s

/-- VFMIN.D (R353). -/
def execVfminD (d a b : BitVec 4) (s : State) : Out State :=
  enter ⟨[.v d, .v a, .v b], [.v d]⟩ s fun s => retireV d (vfD (fun x y _ => fMin fmtD x y) (rdV s a) (rdV s b) []) s

/-- VFMAX.D (R353). -/
def execVfmaxD (d a b : BitVec 4) (s : State) : Out State :=
  enter ⟨[.v d, .v a, .v b], [.v d]⟩ s fun s => retireV d (vfD (fun x y _ => fMax fmtD x y) (rdV s a) (rdV s b) []) s

/-- VFMA.D with vd as the addend (R353). -/
def execVfmaD (d a b : BitVec 4) (s : State) : Out State :=
  enter ⟨[.v d, .v a, .v b], [.v d]⟩ s fun s => retireV d (vfD (fFma fmtD) (rdV s a) (rdV s b) (rdV s d)) s

/-- VFDIV.D, held 8 turns (R351, R353). -/
def execVfdivD (d a b : BitVec 4) (s : State) : Out State :=
  enter ⟨[.v d, .v a, .v b], [.v d]⟩ s fun s =>
    hold 8 (pendV d (vfD (fun x y _ => fDiv fmtD x y) (rdV s a) (rdV s b) [])) s

/-- VFSQRT.D, held 8 turns (R351, R353). -/
def execVfsqrtD (d a : BitVec 4) (s : State) : Out State :=
  enter ⟨[.v d, .v a], [.v d]⟩ s fun s => hold 8 (pendV d (vfD (fun x _ _ => fSqrt fmtD x) (rdV s a) [] [])) s

/-! ## Broadcast, extract, insert, permute (R354 to R356) -/

/-- VBCAST (R354). -/
def execVbcast (d : BitVec 4) (a : BitVec 7) (s : State) : Out State :=
  enter ⟨[.v d, .g a], [.v d]⟩ s fun s => retireV d (words32 fun _ => (rd s a).setWidth 32) s

/-- VBCAST.D (R354). -/
def execVbcastD (d : BitVec 4) (a : BitVec 7) (s : State) : Out State :=
  enter ⟨[.v d, .g a], [.v d]⟩ s fun s => retireV d (words64 fun _ => rd s a) s

/-- A lane index that VEXT and VINS refuse (R355). -/
def badLane (b : Word) : Bool := b.toNat / 2 ^ 5 != 0 || b.toNat / 8 % 4 == 3

/-- VEXT (R355). -/
def execVext (d : BitVec 7) (a : BitVec 4) (b : BitVec 7) (s : State) : Out State :=
  enter ⟨[.g d, .v a, .g b], [.g d]⟩ s fun s =>
    let n := rd s b
    if badLane n then trap cIllegal n s
    else if n.toNat / 16 % 2 = 0 then retireWr d ((lane32 (rdV s a) (n.toNat % 16)).setWidth 64) s
    else retireWr d (lane64 (rdV s a) (n.toNat % 8)) s

/-- VINS (R355). -/
def execVins (d : BitVec 4) (a b : BitVec 7) (s : State) : Out State :=
  enter ⟨[.v d, .g a, .g b], [.v d]⟩ s fun s =>
    let n := rd s b
    let old := rdV s d
    if badLane n then trap cIllegal n s
    else if n.toNat / 16 % 2 = 0 then
      retireV d (words32 fun j => if j = n.toNat % 16 then (rd s a).setWidth 32 else lane32 old j) s
    else retireV d (words64 fun j => if j = n.toNat % 8 then rd s a else lane64 old j) s

/-- VPERM (R356). -/
def execVperm (d a b : BitVec 4) (s : State) : Out State :=
  enter ⟨[.v d, .v a, .v b], [.v d]⟩ s fun s =>
    let x := rdV s a
    let y := rdV s b
    retireV d (words32 fun j =>
      let n := (lane32 y j).toNat
      if n / 16 % 2 = 0 then lane32 x (n % 16) else 0) s

/-! ## VRED (R357): a fold in ascending lane order -/

/-- The fold of sixteen 32-bit lanes. -/
def fold32 (f : BitVec 32 → BitVec 32 → BitVec 32) (ws : List Word) : BitVec 32 :=
  (List.range 15).foldl (fun acc j => f acc (lane32 ws (j + 1))) (lane32 ws 0)

/-- The fold of eight 64-bit lanes. -/
def fold64 (f : Word → Word → Word) (ws : List Word) : Word :=
  (List.range 7).foldl (fun acc j => f acc (lane64 ws (j + 1))) (lane64 ws 0)

/-- A binary32 operation on lanes. -/
def onS (f : Nat → Nat → Nat) (x y : BitVec 32) : BitVec 32 := BitVec.ofNat 32 (f x.toNat y.toNat)
/-- A binary64 operation on lanes. -/
def onD (f : Nat → Nat → Nat) (x y : Word) : Word := BitVec.ofNat 64 (f x.toNat y.toNat)

/-- vredAddW (R357). -/
def execVredAddW (d : BitVec 7) (a : BitVec 4) (s : State) : Out State :=
  enter ⟨[.g d, .v a], [.g d]⟩ s fun s => retireWr d ((fold32 (fun x y => x + y) (rdV s a)).signExtend 64) s

/-- vredMinW (R357). -/
def execVredMinW (d : BitVec 7) (a : BitVec 4) (s : State) : Out State :=
  enter ⟨[.g d, .v a], [.g d]⟩ s fun s => retireWr d ((fold32 (fun x y => if y.toInt < x.toInt then y else x) (rdV s a)).signExtend 64) s

/-- vredMaxW (R357). -/
def execVredMaxW (d : BitVec 7) (a : BitVec 4) (s : State) : Out State :=
  enter ⟨[.g d, .v a], [.g d]⟩ s fun s => retireWr d ((fold32 (fun x y => if x.toInt < y.toInt then y else x) (rdV s a)).signExtend 64) s

/-- vredMinuW (R357). -/
def execVredMinuW (d : BitVec 7) (a : BitVec 4) (s : State) : Out State :=
  enter ⟨[.g d, .v a], [.g d]⟩ s fun s => retireWr d ((fold32 (fun x y => if y.toNat < x.toNat then y else x) (rdV s a)).setWidth 64) s

/-- vredMaxuW (R357). -/
def execVredMaxuW (d : BitVec 7) (a : BitVec 4) (s : State) : Out State :=
  enter ⟨[.g d, .v a], [.g d]⟩ s fun s => retireWr d ((fold32 (fun x y => if x.toNat < y.toNat then y else x) (rdV s a)).setWidth 64) s

/-- vredAndW (R357). -/
def execVredAndW (d : BitVec 7) (a : BitVec 4) (s : State) : Out State :=
  enter ⟨[.g d, .v a], [.g d]⟩ s fun s => retireWr d ((fold32 (fun x y => x &&& y) (rdV s a)).setWidth 64) s

/-- vredOrW (R357). -/
def execVredOrW (d : BitVec 7) (a : BitVec 4) (s : State) : Out State :=
  enter ⟨[.g d, .v a], [.g d]⟩ s fun s => retireWr d ((fold32 (fun x y => x ||| y) (rdV s a)).setWidth 64) s

/-- vredXorW (R357). -/
def execVredXorW (d : BitVec 7) (a : BitVec 4) (s : State) : Out State :=
  enter ⟨[.g d, .v a], [.g d]⟩ s fun s => retireWr d ((fold32 (fun x y => x ^^^ y) (rdV s a)).setWidth 64) s

/-- vredFminS (R357). -/
def execVredFminS (d : BitVec 7) (a : BitVec 4) (s : State) : Out State :=
  enter ⟨[.g d, .v a], [.g d]⟩ s fun s => retireWr d ((fold32 (onS (fMin fmtS)) (rdV s a)).setWidth 64) s

/-- vredFmaxS (R357). -/
def execVredFmaxS (d : BitVec 7) (a : BitVec 4) (s : State) : Out State :=
  enter ⟨[.g d, .v a], [.g d]⟩ s fun s => retireWr d ((fold32 (onS (fMax fmtS)) (rdV s a)).setWidth 64) s

/-- vredFminD (R357). -/
def execVredFminD (d : BitVec 7) (a : BitVec 4) (s : State) : Out State :=
  enter ⟨[.g d, .v a], [.g d]⟩ s fun s => retireWr d (fold64 (onD (fMin fmtD)) (rdV s a)) s

/-- vredFmaxD (R357). -/
def execVredFmaxD (d : BitVec 7) (a : BitVec 4) (s : State) : Out State :=
  enter ⟨[.g d, .v a], [.g d]⟩ s fun s => retireWr d (fold64 (onD (fMax fmtD)) (rdV s a)) s

/-- vred.fadd.s (R357), held 2 turns (R351). -/
def execVredFaddS (d : BitVec 7) (a : BitVec 4) (s : State) : Out State :=
  enter ⟨[.g d, .v a], [.g d]⟩ s fun s => hold 2 (pendG d ((fold32 (onS (fAdd fmtS)) (rdV s a)).setWidth 64)) s

/-- vred.fadd.d (R357), held 2 turns (R351). -/
def execVredFaddD (d : BitVec 7) (a : BitVec 4) (s : State) : Out State :=
  enter ⟨[.g d, .v a], [.g d]⟩ s fun s => hold 2 (pendG d (fold64 (onD (fAdd fmtD)) (rdV s a))) s

/-- vred.add.d (R357). -/
def execVredAddD (d : BitVec 7) (a : BitVec 4) (s : State) : Out State :=
  enter ⟨[.g d, .v a], [.g d]⟩ s fun s => retireWr d (fold64 (· + ·) (rdV s a)) s

/-! ## VCMP and VSEL (R358, R359) -/

/-- All ones or 0 in each lane: the comparison of the old vd with va, by type 0 .w, 1 .s, 2 .d, 3 .l. -/
def vcmpLanes (ty : Nat) (fi : Int → Int → Bool) (ff : Num → Num → Bool) (x y : List Word) : List Word :=
  let m32 (c : Bool) : BitVec 32 := if c then BitVec.allOnes 32 else 0
  let m64 (c : Bool) : Word := if c then BitVec.allOnes 64 else 0
  match ty with
  | 0 => words32 fun j => m32 (fi (lane32 x j).toInt (lane32 y j).toInt)
  | 1 => words32 fun j => m32 (ff (unpack fmtS (lane32 x j).toNat) (unpack fmtS (lane32 y j).toNat))
  | 2 => words64 fun j => m64 (ff (unpack fmtD (lane64 x j).toNat) (unpack fmtD (lane64 y j).toNat))
  | _ => words64 fun j => m64 (fi (lane64 x j).toInt (lane64 y j).toInt)

/-- The unsigned comparisons, of types .w and .l only. -/
def vcmpLanesU (ty : Nat) (f : Nat → Nat → Bool) (x y : List Word) : List Word :=
  match ty with
  | 0 => words32 fun j => if f (lane32 x j).toNat (lane32 y j).toNat then BitVec.allOnes 32 else 0
  | _ => words64 fun j => if f (lane64 x j).toNat (lane64 y j).toNat then BitVec.allOnes 64 else 0

/-- vcmp.eq (R358). -/
def execVcmpEq (d a : BitVec 4) (ty : BitVec 2) (s : State) : Out State :=
  enter ⟨[.v d, .v a], [.v d]⟩ s fun s =>
    retireV d (vcmpLanes ty.toNat (fun p q => decide (p = q)) (fun p q => eqN p q) (rdV s d) (rdV s a)) s

/-- vcmp.ne (R358). -/
def execVcmpNe (d a : BitVec 4) (ty : BitVec 2) (s : State) : Out State :=
  enter ⟨[.v d, .v a], [.v d]⟩ s fun s =>
    retireV d (vcmpLanes ty.toNat (fun p q => decide (p ≠ q)) (fun p q => !eqN p q) (rdV s d) (rdV s a)) s

/-- vcmp.lt (R358). -/
def execVcmpLt (d a : BitVec 4) (ty : BitVec 2) (s : State) : Out State :=
  enter ⟨[.v d, .v a], [.v d]⟩ s fun s =>
    retireV d (vcmpLanes ty.toNat (fun p q => decide (p < q)) (fun p q => ltN p q) (rdV s d) (rdV s a)) s

/-- vcmp.ge (R358). -/
def execVcmpGe (d a : BitVec 4) (ty : BitVec 2) (s : State) : Out State :=
  enter ⟨[.v d, .v a], [.v d]⟩ s fun s =>
    retireV d (vcmpLanes ty.toNat (fun p q => decide (q ≤ p)) (fun p q => leN q p) (rdV s d) (rdV s a)) s

/-- vcmp.ltu (R358). -/
def execVcmpLtu (d a : BitVec 4) (ty : BitVec 2) (s : State) : Out State :=
  enter ⟨[.v d, .v a], [.v d]⟩ s fun s =>
    retireV d (vcmpLanesU ty.toNat (fun p q => decide (p < q)) (rdV s d) (rdV s a)) s

/-- vcmp.geu (R358). -/
def execVcmpGeu (d a : BitVec 4) (ty : BitVec 2) (s : State) : Out State :=
  enter ⟨[.v d, .v a], [.v d]⟩ s fun s =>
    retireV d (vcmpLanesU ty.toNat (fun p q => decide (q ≤ p)) (rdV s d) (rdV s a)) s

/-- VSEL (R359): bit by bit under the old vd. -/
def execVsel (d a b : BitVec 4) (s : State) : Out State :=
  enter ⟨[.v d, .v a, .v b], [.v d]⟩ s fun s =>
    let m := rdV s d
    let x := rdV s a
    let y := rdV s b
    retireV d (words64 fun j => (lane64 x j &&& lane64 m j) ||| (lane64 y j &&& ~~~lane64 m j)) s

/-! ## VCVT (R360, R361) -/

/-- The mode of lane j: under DITHER the row is bits 3:0 of the old vd lane 0, the column j (R361). -/
def laneRnd (mode : BitVec 3) (old : List Word) (j : Nat) : Rnd := rndOf mode.toNat (lane32 old 0).toNat j

/-- Sixteen binary32 lanes, each rounded into `f` and written as binary32 (R360). -/
def vcvtVia (f : Fmt) (mode : BitVec 3) (d a : BitVec 4) (s : State) : Out State :=
  let x := rdV s a
  let old := rdV s d
  retireV d (words32 fun j =>
    BitVec.ofNat 32 (roundTo fmtS .rne (unpack f (roundTo f (laneRnd mode old j) (unpack fmtS (lane32 x j).toNat))))) s

/-- vcvt.h.s (R360). -/
def execVcvtHS (d a : BitVec 4) (mode : BitVec 3) (s : State) : Out State :=
  enter ⟨[.v d, .v a], [.v d]⟩ s fun s => vcvtVia fmtH mode d a s

/-- vcvt.bh.s (R360). -/
def execVcvtBhS (d a : BitVec 4) (mode : BitVec 3) (s : State) : Out State :=
  enter ⟨[.v d, .v a], [.v d]⟩ s fun s => vcvtVia fmtBh mode d a s

/-- vcvt.e.s (R360). -/
def execVcvtES (d a : BitVec 4) (mode : BitVec 3) (s : State) : Out State :=
  enter ⟨[.v d, .v a], [.v d]⟩ s fun s => vcvtVia fmtE mode d a s

/-- vcvt.w.s (R360). -/
def execVcvtWS (d a : BitVec 4) (mode : BitVec 3) (s : State) : Out State :=
  enter ⟨[.v d, .v a], [.v d]⟩ s fun s =>
    let x := rdV s a
    let old := rdV s d
    retireV d (words32 fun j => BitVec.ofInt 32
      (toIntSat (laneRnd mode old j) (-(2 ^ 31)) (2 ^ 31 - 1) (unpack fmtS (lane32 x j).toNat))) s

/-- vcvt.s.w (R360). -/
def execVcvtSW (d a : BitVec 4) (mode : BitVec 3) (s : State) : Out State :=
  enter ⟨[.v d, .v a], [.v d]⟩ s fun s =>
    let x := rdV s a
    let old := rdV s d
    retireV d (words32 fun j => BitVec.ofNat 32 (roundTo fmtS (laneRnd mode old j) (numOfInt (lane32 x j).toInt))) s

/-- vcvt.s.d (R360). -/
def execVcvtSD (d a : BitVec 4) (mode : BitVec 3) (s : State) : Out State :=
  enter ⟨[.v d, .v a], [.v d]⟩ s fun s =>
    let x := rdV s a
    let old := rdV s d
    retireV d (words32 fun j =>
      if j < 8 then BitVec.ofNat 32 (roundTo fmtS (laneRnd mode old j) (unpack fmtD (lane64 x j).toNat)) else 0) s

/-- vcvt.d.s (R360), always exact. -/
def execVcvtDS (d a : BitVec 4) (mode : BitVec 3) (s : State) : Out State :=
  enter ⟨[.v d, .v a], [.v d]⟩ s fun s =>
    let x := rdV s a
    let old := rdV s d
    retireV d (words64 fun j =>
      BitVec.ofNat 64 (roundTo fmtD (laneRnd mode old j) (unpack fmtS (lane32 x j).toNat))) s

/-- vcvt.l.d (R360). -/
def execVcvtLD (d a : BitVec 4) (mode : BitVec 3) (s : State) : Out State :=
  enter ⟨[.v d, .v a], [.v d]⟩ s fun s =>
    let x := rdV s a
    let old := rdV s d
    retireV d (words64 fun j => BitVec.ofInt 64
      (toIntSat (laneRnd mode old j) (-(2 ^ 63)) (2 ^ 63 - 1) (unpack fmtD (lane64 x j).toNat))) s

/-- vcvt.d.l (R360). -/
def execVcvtDL (d a : BitVec 4) (mode : BitVec 3) (s : State) : Out State :=
  enter ⟨[.v d, .v a], [.v d]⟩ s fun s =>
    let x := rdV s a
    let old := rdV s d
    retireV d (words64 fun j => BitVec.ofNat 64 (roundTo fmtD (laneRnd mode old j) (numOfInt (lane64 x j).toInt))) s

/-! ## VQ and VDQ (R362, R363) -/

/-- Codes and a scale byte packed as R362 lays them out. -/
def packCodes (t4 : Bool) (codes : List Nat) (sc : Nat) : List Word :=
  wordsOf (BitVec.ofNat 512 ((codes.mapIdx fun j c => c * 2 ^ (if t4 then 4 * j else 8 * j)).sum + sc * 2 ^ 128))

/-- Code j of a packed vector (R362). -/
def codeAt (t4 : Bool) (r : Rec) (j : Nat) : Nat := if t4 then r.toNat / 2 ^ (4 * j) % 16 else recNat r j 1

/-- The sixteen binary32 values of a vector. -/
def valuesS (ws : List Word) : List Num := (List.range 16).map fun j => unpack fmtS (lane32 ws j).toNat

/-- VQ at scale 127 (R362), held 2 turns (R351). -/
def execVq (d a : BitVec 4) (mode : BitVec 3) (fmt : BitVec 1) (s : State) : Out State :=
  enter ⟨[.v d, .v a], [.v d]⟩ s fun s =>
    let t4 := fmt == 1
    let old := rdV s d
    let codes := (valuesS (rdV s a)).mapIdx fun j y => tblEncode (tableOf s) t4 (laneRnd mode old j) y
    hold 2 (pendV d (packCodes t4 codes 127)) s

/-- VQ.SC: a block scale under R331 (R362), held 2 turns. -/
def execVqSc (d a : BitVec 4) (mode : BitVec 3) (fmt : BitVec 1) (s : State) : Out State :=
  enter ⟨[.v d, .v a], [.v d]⟩ s fun s =>
    let t4 := fmt == 1
    let old := rdV s d
    let q := quantise (tableOf s) t4 (laneRnd mode old) (valuesS (rdV s a))
    hold 2 (pendV d (packCodes t4 q.2 q.1)) s

/-- The binary32 lanes of packed codes under a scale byte (R330, R363). -/
def dequantise (t : Table) (t4 : Bool) (r : Rec) (sc : Nat) : List Word :=
  words32 fun j => BitVec.ofNat 32 (roundTo fmtS .rne (codeVal t t4 (codeAt t4 r j) sc))

/-- VDQ at scale 127 (R363). -/
def execVdq (d a : BitVec 4) (fmt : BitVec 1) (s : State) : Out State :=
  enter ⟨[.v d, .v a], [.v d]⟩ s fun s => retireV d (dequantise (tableOf s) (fmt == 1) (recOf (rdV s a)) 127) s

/-- VDQ.SC: the scale is byte 16 (R363). -/
def execVdqSc (d a : BitVec 4) (fmt : BitVec 1) (s : State) : Out State :=
  enter ⟨[.v d, .v a], [.v d]⟩ s fun s =>
    let r := recOf (rdV s a)
    retireV d (dequantise (tableOf s) (fmt == 1) r (recNat r 16 1)) s

/-! ## TBLW and TBLR (R365) -/

/-- TBLW (R365): an entry and its partner. -/
def execTblw (a b : BitVec 7) (s : State) : Out State :=
  enter ⟨[.g a, .g b], []⟩ s fun s =>
    if (rd s a).toNat / 2 ^ 8 ≠ 0 then trap cIllegal (rd s a) s
    else if (rd s b).toNat / 2 ^ 19 ≠ 0 then trap cIllegal (rd s b) s
    else retire { s with me := { s.me with table := tblPut s.me.table (rd s a).toNat ((rd s b).setWidth 19) } }

/-- TBLR (R365). -/
def execTblr (d a : BitVec 7) (s : State) : Out State :=
  enter ⟨[.g d, .g a], [.g d]⟩ s fun s =>
    if (rd s a).toNat / 2 ^ 8 ≠ 0 then trap cIllegal (rd s a) s
    else retireWr d ((tblEntry (tableOf s) (rd s a).toNat).setWidth 64) s

end Sys2Proof.Machine
end

