-- ==== Sys2Proof/Machine/Pairs.lean ====
section
/-!
DEFINITION. Pairs: the checks of R48 that concern both words, a parallel pair's two words as one issue (R34), and what
becomes of word 1 when word 0 waits (R26, R34).
-/

namespace Sys2Proof.Machine

/-- The word is class A (R43): its major is 0x20 or above. -/
def classA (w : BitVec 32) : Bool := w.extractLsb' 30 1 == 1

/-- Bit 31 of a word. -/
def pBit (w : BitVec 32) : Bool := w.extractLsb' 31 1 == 1

/-- The effect of a class A word; a word of class C has none here. -/
def execA (i : Instr) (s : State) : Option (Out State) :=
  match i with
  | .add d a b => some (execAdd d a b s)
  | .sub d a b => some (execSub d a b s)
  | .and d a b => some (execAnd d a b s)
  | .or d a b => some (execOr d a b s)
  | .xor d a b => some (execXor d a b s)
  | .andn d a b => some (execAndn d a b s)
  | .shl d a b => some (execShl d a b s)
  | .shr d a b => some (execShr d a b s)
  | .sar d a b => some (execSar d a b s)
  | .rol d a b => some (execRol d a b s)
  | .ror d a b => some (execRor d a b s)
  | .slt d a b => some (execSlt d a b s)
  | .sltu d a b => some (execSltu d a b s)
  | .seq d a b => some (execSeq d a b s)
  | .min d a b => some (execMin d a b s)
  | .max d a b => some (execMax d a b s)
  | .minu d a b => some (execMinu d a b s)
  | .maxu d a b => some (execMaxu d a b s)
  | .mul d a b => some (execMul d a b s)
  | .mulh d a b => some (execMulh d a b s)
  | .mulhu d a b => some (execMulhu d a b s)
  | .div d a b => some (execDiv d a b s)
  | .divu d a b => some (execDivu d a b s)
  | .rem d a b => some (execRem d a b s)
  | .remu d a b => some (execRemu d a b s)
  | .sel d a b => some (execSel d a b s)
  | .clz d a => some (execClz d a s)
  | .ctz d a => some (execCtz d a s)
  | .popc d a => some (execPopc d a s)
  | .brev d a => some (execBrev d a s)
  | .ilv2 d a b => some (execIlv2 d a b s)
  | .ilv3 d a b => some (execIlv3 d a b s)
  | .dilv2 d a b => some (execDilv2 d a b s)
  | .dilv3 d a b => some (execDilv3 d a b s)
  | .extr d a b => some (execExtr d a b s)
  | .depo d a b => some (execDepo d a b s)
  | .bswap d a => some (execBswap d a s)
  | .addp d a b => some (execAddp d a b s)
  | .mkptr d a b => some (execMkptr d a b s)
  | .ptag d a => some (execPtag d a s)
  | .vkey d a b => some (execVkey d a b s)
  | .addi d a imm => some (execAddi d a imm s)
  | .andi d a imm => some (execAndi d a imm s)
  | .ori d a imm => some (execOri d a imm s)
  | .xori d a imm => some (execXori d a imm s)
  | .shli d a n => some (execShli d a n s)
  | .shri d a n => some (execShri d a n s)
  | .sari d a n => some (execSari d a n s)
  | .roli d a n => some (execRoli d a n s)
  | .rori d a n => some (execRori d a n s)
  | .slti d a imm => some (execSlti d a imm s)
  | .addpi d a imm => some (execAddpi d a imm s)
  | .ldi d imm => some (execLdi d imm s)
  | .ldih d imm => some (execLdih d imm s)
  | .movx d a imm => some (execMovx d a imm s)
  | .movxs d a imm => some (execMovxs d a imm s)
  | .faddD d a b => some (execFaddD d a b s)
  | .fsubD d a b => some (execFsubD d a b s)
  | .fmulD d a b => some (execFmulD d a b s)
  | .fdivD d a b => some (execFdivD d a b s)
  | .fsqrtD d a => some (execFsqrtD d a s)
  | .fmaD d a b => some (execFmaD d a b s)
  | .fminD d a b => some (execFminD d a b s)
  | .fmaxD d a b => some (execFmaxD d a b s)
  | .feqD d a b => some (execFeqD d a b s)
  | .fltD d a b => some (execFltD d a b s)
  | .fleD d a b => some (execFleD d a b s)
  | .fclassD d a => some (execFclassD d a s)
  | .fsgnjD d a b => some (execFsgnjD d a b s)
  | .fsgnjnD d a b => some (execFsgnjnD d a b s)
  | .faddS d a b => some (execFaddS d a b s)
  | .fsubS d a b => some (execFsubS d a b s)
  | .fmulS d a b => some (execFmulS d a b s)
  | .fdivS d a b => some (execFdivS d a b s)
  | .fsqrtS d a => some (execFsqrtS d a s)
  | .fmaS d a b => some (execFmaS d a b s)
  | .fminS d a b => some (execFminS d a b s)
  | .fmaxS d a b => some (execFmaxS d a b s)
  | .feqS d a b => some (execFeqS d a b s)
  | .fltS d a b => some (execFltS d a b s)
  | .fleS d a b => some (execFleS d a b s)
  | .fclassS d a => some (execFclassS d a s)
  | .fsgnjS d a b => some (execFsgnjS d a b s)
  | .fsgnjnS d a b => some (execFsgnjnS d a b s)
  | .fcvt rnd d a dst src => some (execFcvt rnd d a dst src s)
  | .vadd d a b => some (execVadd d a b s)
  | .vsub d a b => some (execVsub d a b s)
  | .vand d a b => some (execVand d a b s)
  | .vor d a b => some (execVor d a b s)
  | .vxor d a b => some (execVxor d a b s)
  | .vshl d a b => some (execVshl d a b s)
  | .vshr d a b => some (execVshr d a b s)
  | .vsar d a b => some (execVsar d a b s)
  | .vmin d a b => some (execVmin d a b s)
  | .vmax d a b => some (execVmax d a b s)
  | .vminu d a b => some (execVminu d a b s)
  | .vmaxu d a b => some (execVmaxu d a b s)
  | .vmul d a b => some (execVmul d a b s)
  | .vmulh d a b => some (execVmulh d a b s)
  | .vadds d a b => some (execVadds d a b s)
  | .vsubs d a b => some (execVsubs d a b s)
  | .vfaddS d a b => some (execVfaddS d a b s)
  | .vfsubS d a b => some (execVfsubS d a b s)
  | .vfmulS d a b => some (execVfmulS d a b s)
  | .vfdivS d a b => some (execVfdivS d a b s)
  | .vfsqrtS d a => some (execVfsqrtS d a s)
  | .vfmaS d a b => some (execVfmaS d a b s)
  | .vfminS d a b => some (execVfminS d a b s)
  | .vfmaxS d a b => some (execVfmaxS d a b s)
  | .vfaddD d a b => some (execVfaddD d a b s)
  | .vfsubD d a b => some (execVfsubD d a b s)
  | .vfmulD d a b => some (execVfmulD d a b s)
  | .vfdivD d a b => some (execVfdivD d a b s)
  | .vfsqrtD d a => some (execVfsqrtD d a s)
  | .vfmaD d a b => some (execVfmaD d a b s)
  | .vfminD d a b => some (execVfminD d a b s)
  | .vfmaxD d a b => some (execVfmaxD d a b s)
  | .vbcast d a => some (execVbcast d a s)
  | .vbcastD d a => some (execVbcastD d a s)
  | .vext d a b => some (execVext d a b s)
  | .vins d a b => some (execVins d a b s)
  | .vperm d a b => some (execVperm d a b s)
  | .vredAddW d a => some (execVredAddW d a s)
  | .vredMinW d a => some (execVredMinW d a s)
  | .vredMaxW d a => some (execVredMaxW d a s)
  | .vredMinuW d a => some (execVredMinuW d a s)
  | .vredMaxuW d a => some (execVredMaxuW d a s)
  | .vredAndW d a => some (execVredAndW d a s)
  | .vredOrW d a => some (execVredOrW d a s)
  | .vredXorW d a => some (execVredXorW d a s)
  | .vredFaddS d a => some (execVredFaddS d a s)
  | .vredFminS d a => some (execVredFminS d a s)
  | .vredFmaxS d a => some (execVredFmaxS d a s)
  | .vredFaddD d a => some (execVredFaddD d a s)
  | .vredFminD d a => some (execVredFminD d a s)
  | .vredFmaxD d a => some (execVredFmaxD d a s)
  | .vredAddD d a => some (execVredAddD d a s)
  | .vcmpEq d a ty => some (execVcmpEq d a ty s)
  | .vcmpNe d a ty => some (execVcmpNe d a ty s)
  | .vcmpLt d a ty => some (execVcmpLt d a ty s)
  | .vcmpGe d a ty => some (execVcmpGe d a ty s)
  | .vcmpLtu d a ty => some (execVcmpLtu d a ty s)
  | .vcmpGeu d a ty => some (execVcmpGeu d a ty s)
  | .vsel d a b => some (execVsel d a b s)
  | .vcvtHS d a mode => some (execVcvtHS d a mode s)
  | .vcvtBhS d a mode => some (execVcvtBhS d a mode s)
  | .vcvtES d a mode => some (execVcvtES d a mode s)
  | .vcvtWS d a mode => some (execVcvtWS d a mode s)
  | .vcvtSW d a mode => some (execVcvtSW d a mode s)
  | .vcvtSD d a mode => some (execVcvtSD d a mode s)
  | .vcvtDS d a mode => some (execVcvtDS d a mode s)
  | .vcvtLD d a mode => some (execVcvtLD d a mode s)
  | .vcvtDL d a mode => some (execVcvtDL d a mode s)
  | .vq d a mode fmt => some (execVq d a mode fmt s)
  | .vqSc d a mode fmt => some (execVqSc d a mode fmt s)
  | .vdq d a fmt => some (execVdq d a fmt s)
  | .vdqSc d a fmt => some (execVdqSc d a fmt s)
  | .boxt d a b => some (execBoxt d a b s)
  | .trit d a b => some (execTrit d a b s)
  | .splt d a b => some (execSplt d a b s)
  | _ => none

/-- The result of an outcome's issue; a stop has none. -/
def resOf (o : Out State) : Res := match o with | .next s => s.iss.res | _ => .running

/-- The issue turns to word k. -/
def onWord (k : Nat) (s : State) : State := { s with iss := { s.iss with word := k, res := .running } }

/-- The lowest register word that both words write (R34, order 6 of R48). -/
def doubleWrite (s : State) (u0 u1 : Uses) : Option Nat :=
  (List.range 128).find? fun k => (writtenRegs s u0).contains k && (writtenRegs s u1).contains k

/-- Word 0 waits with its effect under way, so that word 1 will retire with it (R34); the other waits issue the pair
again (R25, R235, R249). -/
def waitsInside (w : WaitWhy) : Bool :=
  match w with
  | .reply _ => true
  | .fence _ _ => true
  | .laDrain _ _ _ _ => true
  | .lainf _ _ _ => true
  | _ => false

/-- The cycle in which a hold that word 1 has issued ends, 0 if it holds for none. -/
def holdOf (s : State) : Nat := match (cur s).st with | .held stop => stop | _ => 0

/-- The effect of word 1 where the slot holds a thread that is not about to issue: it changes registers only, and the
slot's state stays (R34). A result that waits for a hold's end is written at once, and the thread's next issue comes
after that end. -/
def settledWord1 (st : SlotState) (s : State) : State :=
  let c := cur s
  let s := wrAll s.iss.slot c.pend s
  onCur (fun x => { x with st := st, pend := [], elig := Nat.max x.elig (match c.st with | .held t => t | _ => 0) }) s

/-- The poisoned marks of the issuing slot, set. -/
def withMarks (l : List PoisonMark) (s : State) : State := onCur (fun c => { c with poisoned := l }) s

/-- Word 1 takes effect after word 0 has retired in the same issue. It reads its operands as they stood before the pair
(R34), so it waits for no access that word 0 has just issued (R25), and meets no mark that word 0 has left: `s0` is the state
that the pair found. -/
def word1After (i1 : Instr) (s0 s : State) : Out State :=
  let st := (cur s).st
  match execA i1 (onWord 1 (withMarks (cur s0).poisoned (withRelaxed s0.me.relaxed s))) with
  | some (.next t) =>
    let t := withMarks (cur s).poisoned (withRelaxed s.me.relaxed t)
    if st = .runnable then .next t else .next (settledWord1 st t)
  | some o => o
  | none => .next s

/-- Word 0 waits with word 1 beside it. -/
def withPartner (p : Partner) (s : State) : State := onCur (fun c => { c with partner := some p }) s

/-- END in word 0 of a pair whose word 1 passes its checks (R84): what word 1 writes goes with the window, so the slot is
EMPTY at once, unless word 1 holds the thread to cycle `stop`, when the pair retires (R26, R34). `s0` is the state once END
has retired, `s` the state before the pair. -/
def endsPair (i1 : Instr) (stop : Nat) (s s0 : State) : Out State :=
  match s.iss.latch with
  | some l => if stop = 0 then .next s0 else onNext (withPartner ⟨i1, l, stop⟩) (waitFor .ending s)
  | none => .next s0

/-- A message of this issue is taken by the controller 64 cycles after the pair has retired, in cycle `stop` (R147). -/
def ctlAt (stop : Nat) (m : CtlMsg) : CtlMsg :=
  { m with
    due := stop + 64
    what := match m.what with
      | .sub x => .sub { x with retired := stop }
      | w => w }

/-- Word 0 has taken its effect, and its pair retires with the hold of word 1, in cycle `stop` (R34): what counts from the cycle in
which its word retires, its messages to the controller, its subscriptions (R147) and the rest of YIELD (R85), counts from
that one. `s` is the state before the pair. DEDUCED (log entry 17). -/
def retireAt (stop : Nat) (s s0 : State) : State :=
  let s0 := { s0 with ctl := s0.ctl.take s.ctl.length ++ (s0.ctl.drop s.ctl.length).map (ctlAt stop) }
  let s0 := { s0 with me := { s0.me with
    csubs := s0.me.csubs.map fun e =>
      (e.1, e.2.map fun x => if s.serial ≤ x.id then { x with retired := stop } else x)
    raySubs := s0.me.raySubs.map fun (x : RaySub) => if s.serial ≤ x.id then { x with retired := stop } else x } }
  onCur (fun c => if c.elig = (cur s).elig then c else { c with elig := c.elig + (stop - s.clock) }) s0

/-- A parallel pair after its checks of orders 5 and 6 (R34): word 0 runs, word 1 is tried on the operands as they
stood before the pair, and both take effect or neither. DEDUCED (log entry 17). -/
def runBoth (ex : Instr → State → Out State) (i0 i1 : Instr) (s : State) : Out State :=
  let o0 := ex i0 s
  match o0 with
  | .next s0 =>
    match s0.iss.res with
    | .trapped => o0
    | .parked => o0
    | .forfeited => o0
    | .running => o0
    | .waiting =>
      match (cur s0).st with
      | .waiting w =>
        match execA i1 (onWord 1 s) with
        | some (.next s1) =>
          if s1.iss.res = .trapped then .next s1
          else if waitsInside w || w == .ending then
            match s.iss.latch with
            | some l => .next (withPartner ⟨i1, l, holdOf s1⟩ s0)
            | none => o0
          else o0
        | _ => o0
      | _ => o0
    | _ =>
      match execA i1 (onWord 1 s) with
      | some (.next s1) =>
        if s1.iss.res = .trapped then .next s1
        else if (cur s0).st = .empty then endsPair i1 (holdOf s1) s s0
        else word1After i1 s (if holdOf s1 = 0 then s0 else retireAt (holdOf s1) s s0)
      | _ => o0
  | _ => o0

/-- A parallel pair (R34, orders 4 to 8 of R48) whose words have decoded. DEDUCED (log entry 17). -/
def runPair (ex : Instr → State → Out State) (i0 i1 : Instr) (s : State) : Out State :=
  let s := { s with iss := { s.iss with word := 0, par := true, latch := some ⟨s.me.pool, s.me.table⟩, res := .running } }
  let u0 := uses i0
  let u1 := uses i1
  let ks := awaited s u0 ++ awaited s u1
  if ks ≠ [] then waitFor (.regs ks) s
  else
    match boundsFault s u0.names, boundsFault s u1.names, doubleWrite s u0 u1 with
    | some v, _, _ => trap cRegBounds v s
    | none, some v, _ => trap cRegBounds v (onWord 1 s)
    | none, none, some k => trap cIllegal (BitVec.ofNat 64 k) (onWord 1 s)
    | none, none, none => runBoth ex i0 i1 s

/-! ## The end of a wait -/

/-- The issue that slot k's waiting word belongs to. -/
def reissue (k : Nat) (s : State) : State :=
  let c := slotOf s k
  { s with iss :=
      { slot := k, pa := c.pa, word := c.widx, par := c.partner.isSome, latch := c.partner.map (·.latch)
        cycle := s.clock, res := .running } }

/-- Slot k is RUNNABLE again, in the cycle in which its wait ends (R24). -/
def freeSlotAgain (k : Nat) (s : State) : State :=
  setSlot k { wakeSlot s.clock (slotOf s k) with partner := none } s

/-- Word 1 of the pair whose word 0 has just retired takes effect; a hold of it that has not ended holds the slot
(R26, R34). -/
def finishPartner (k : Nat) (p : Partner) (s : State) : State :=
  match execA p.instr { s with iss := { s.iss with word := 1, par := true, latch := some p.latch, res := .running } } with
  | some (.next t) =>
    match (slotOf t k).st with
    | .held _ =>
      if s.clock < p.stop then setSlot k { slotOf t k with st := .held p.stop } t
      else setSlot k { slotOf t k with st := .runnable, pend := [] } (wrAll k (slotOf t k).pend t)
    | _ => t
  | _ => s

/-- A wait of slot k ends in outcome `o` of its word: the slot is RUNNABLE once the word has retired, and the partner
word retires with it. A slot whose word traps may issue from the next cycle on, too (R24). -/
def endWait (k : Nat) (f : State → Out State) (s : State) : Out State :=
  let p := (slotOf s k).partner
  match f (reissue k s) with
  | .next t =>
    if t.iss.res = .retired then
      let t := freeSlotAgain k t
      match p with
      | some x => .next (finishPartner k x t)
      | none => .next t
    else if (slotOf t k).st = .runnable then .next (setSlot k (wakeSlot s.clock (slotOf t k)) t)
    else .next (setSlot k { slotOf t k with partner := none } t)
  | o => o

/-- What a waiting slot comes to in a cycle in which no reply arrives: a fence whose condition holds retires, END
retires once its thread's relaxed accesses and its training commands are complete (R381), a word of the automaton array acts once the array has drained;
a poisoned relaxed load is reported first (R84, R127, R128, R269, R380). Once a pre-emption request has reached the core,
a fence and WAITRX wait on and are saved at their own word (R133). DEDUCED (log entry 18). -/
def settleSlot (k : Nat) (s : State) : Out State :=
  let c := slotOf s k
  match c.st with
  | .waiting (.fence kind n) =>
    if s.me.stopped then .next s
    else
      match c.poisoned with
      | p :: _ => endWait k (trapPoison p) s
      | [] => if fenceDone s k kind n then endWait k (fun s => retire s) s else .next s
  | .waiting .ending =>
    match c.poisoned with
    | p :: _ => endWait k (trapPoison p) s
    | [] =>
      if hasRelaxed s k || hasTraining s k || (match c.partner with | some x => decide (s.clock < x.stop) | none => false) then .next s
      else .next (endSlot k s)
  | .waiting .endingFault => if hasRelaxed s k then .next s else .next (endFault k s)
  | .waiting (.laDrain form d a b) =>
    if s.me.la.queue.isEmpty then endWait k (fun s => laAct form d a b s) s else .next s
  | _ => .next s

/-- The next state of an outcome, or the state before it. -/
def nextOr (s : State) (o : Out State) : State := match o with | .next t => t | _ => s

/-- Every slot of the core acting, settled. DEDUCED (log entry 18). -/
def settle (s : State) : State := (List.range 16).foldl (fun s k => nextOr s (settleSlot k s)) s

end Sys2Proof.Machine
end

