-- ==== Sys2Proof/Machine/Replies.lean ====
section
/-!
DEFINITION. What comes back to a core: replies and completions (R24, R26, R248, R249, R384), dropped watches (R99),
LINEUP releases (R88), instruction lines (R122), translations (R236, R237) and PWAKE (R130), and migration (R235).
-/

namespace Sys2Proof.Machine

/-! ## Replies -/

/-- The atoms of an access that may be applied now, ahead of the rest (R246): the first that is due, and with an atom of another
core's scratchpad the others there (R224). -/
def dueParts (s : State) (a : Access) : List Nat :=
  match a.parts.find? fun p => decide (p.2 ≤ s.clock) with
  | some p => if farAtom s a p.1 then (a.parts.map (·.1)).filter (farAtom s a) else [p.1]
  | none => []

/-- What an access may be applied to now: all that is left, or some of it. -/
def nowParts (s : State) (a : Access) : List Nat := if a.due ≤ s.clock then leftAtoms a else dueParts s a

/-- Atoms of an access that is not complete are applied, after the thread's earlier accesses to them (R246, R249). -/
def applyParts (a : Access) (s : State) : Access × State := applyAtoms (dueParts s a) a (settleParts (dueParts s a) a s)

/-- BLOCKING_REPLY (R24, R246): the access is applied, and its pair retires; a vector access may have some of its atoms
applied before the others. -/
def execBlockingReply (slot : Nat) (s : State) : Out State :=
  match (slotOf s slot).st with
  | .waiting (.reply a) =>
    if farBlocked (nowParts s a) a s then .refused (.notDue "BLOCKING_REPLY")
    else if a.due ≤ s.clock then endWait slot (fun s => finishAccess a s) s
    else if nowParts s a = [] then .refused (.notDue "BLOCKING_REPLY")
    else
      let (a, s) := applyParts a s
      .next (setSlot slot { slotOf s slot with st := .waiting (.reply a) } s)
  | _ => .refused (.notDue "BLOCKING_REPLY")

/-- RELAXED_ACCESS_COMPLETE (R249): the access is applied after the thread's earlier accesses to its atoms. -/
def execRelaxedAccessComplete (id : Nat) (s : State) : Out State :=
  match s.me.relaxed.find? fun a => a.id == id with
  | some a =>
    if farBlocked (nowParts s a) a s then .refused (.notDue "RELAXED_ACCESS_COMPLETE")
    else if a.due ≤ s.clock then .next (completeRelaxed a (settleBefore a s))
    else if nowParts s a = [] then .refused (.notDue "RELAXED_ACCESS_COMPLETE")
    else
      let (a, s) := applyParts a s
      .next (putRelaxed a s)
  | none => .refused (.notDue "RELAXED_ACCESS_COMPLETE")

/-- HOLD_END (R26): the results are written and the slot is RUNNABLE in this cycle. -/
def execHoldEnd (slot : Nat) (s : State) : Out State :=
  let c := slotOf s slot
  match c.st with
  | .held stop =>
    if stop ≤ s.clock then
      .next (setSlot slot { c with st := .runnable, pend := [] } (wrAll slot c.pend s))
    else .refused (.notDue "HOLD_END")
  | _ => .refused (.notDue "HOLD_END")

/-- LAINF_COMPLETE (R384). -/
def execLainfComplete (slot : Nat) (s : State) : Out State :=
  match (slotOf s slot).st with
  | .waiting (.lainf due vd val) =>
    if due ≤ s.clock then endWait slot (fun s => retire (wrRun (8 * vd) (wordsOf val) s)) s
    else .refused (.notDue "LAINF_COMPLETE")
  | _ => .refused (.notDue "LAINF_COMPLETE")

/-- The first posted store of each thread is the one that the host takes next (R248). -/
def nextPosted (s : State) : Option Posted :=
  s.me.posted.find? fun p =>
    decide (p.due ≤ s.clock) && (s.me.posted.find? fun q => q.slot == p.slot) == some p

/-- POSTED_WRITE_DRAIN (R245, R248). -/
def execPostedWriteDrain (s : State) : Out State :=
  match nextPosted s with
  | some p => .next (postedWake p.slot (takePosted p { s with me := { s.me with posted := s.me.posted.erase p } }))
  | none => .refused (.notDue "POSTED_WRITE_DRAIN")

/-- WATCH_DROP (R99): the thread reads its word again. -/
def execWatchDrop (slot : Nat) (s : State) : Out State :=
  match (slotOf s slot).st with
  | .parked (.watch _ _) => .next (setSlot slot (wakeSlot s.clock (slotOf s slot)) s)
  | _ => .refused (.notDue "WATCH_DROP")

/-! ## LINEUP (R88) -/

/-- A slot that is parked at LINEUP n at a pair address with a tag. -/
def linedUp (n pa : Nat) (tag : Word) (c : Slot) : Bool :=
  c.tag == tag && (match c.st with | .parked (.lineup m p _) => m == n && p == pa | _ => false)

/-- The cores of the cluster of the core acting. -/
def clusterCores (s : State) : List Core :=
  (s.ctx.cores.filter fun c => clusterOf c == myCluster s).map (coreOf s)

/-- Every thread of the cluster with the tag is parked at LINEUP n at that pair; tag 0 has no peers.
DEDUCED (log entry 28). -/
def lineupReady (s : State) (n pa : Nat) (tag : Word) : Bool :=
  let slots := (clusterCores s).flatMap fun m => m.slots.map (·.2)
  slots.any (linedUp n pa tag) && (tag == 0 || slots.all fun c => c.st == .empty || c.tag != tag || linedUp n pa tag c)

/-- A core's threads of the group, released. -/
def lineupCore (now n pa : Nat) (tag : Word) (m : Core) : Core :=
  { m with slots := m.slots.map fun e =>
      if linedUp n pa tag e.2 then (e.1, { wakeSlot now e.2 with released := true }) else e }

/-- The group, released: the threads of the cluster parked there. -/
def lineupFree (n pa : Nat) (tag : Word) (s : State) : State :=
  let k := myCluster s
  { s with
    me := lineupCore s.clock n pa tag s.me
    others := s.others.map fun e =>
      if clusterOf e.1 = k then (e.1, e.2.map (lineupCore s.clock n pa tag)) else e }

/-- LINEUP_RELEASE (R88). -/
def execLineupRelease (n pa : Nat) (tag : Word) (s : State) : Out State :=
  if lineupReady s n pa tag then .next (lineupFree n pa tag s) else .refused (.notDue "LINEUP_RELEASE")

/-- Some thread of the group has been parked there for 4,096 cycles (R88). -/
def lineupLate (s : State) (n pa : Nat) (tag : Word) : Bool :=
  ((clusterCores s).flatMap fun m => m.slots.map (·.2)).any fun c =>
    linedUp n pa tag c && (match c.st with | .parked (.lineup _ _ since) => decide (since + 4096 ≤ s.clock) | _ => false)

/-- LINEUP_TIMEOUT (R88). -/
def execLineupTimeout (n pa : Nat) (tag : Word) (s : State) : Out State :=
  if lineupLate s n pa tag then .next (lineupFree n pa tag s) else .refused (.notDue "LINEUP_TIMEOUT")

/-! ## Instruction lines (R122) -/

/-- Some slot of a core is parked on the line. -/
def wantsLine (line : Nat) (m : Core) : Bool :=
  m.slots.any fun e => match e.2.st with | .parked (.fetchLine l) => l == line | _ => false

/-- A core's buffer of 256 lines takes the line, and its waiters wake; a full buffer loses the line that arrived longest
ago. DESIGN CHOICE (log entry 69). -/
def takeLine (now line : Nat) (m : Core) : Core :=
  if wantsLine line m then
    wakeCore now (fun w => match w with | .fetchLine l => l == line | _ => false)
      { m with lines := (line :: m.lines.filter (· != line)).take 256 }
  else m

/-- Some slot of the cluster of the core acting is parked on the line. -/
def lineWanted (s : State) (line : Nat) : Bool :=
  wantsLine line s.me ||
    s.others.any fun e => clusterOf e.1 == myCluster s && (match e.2 with | some m => wantsLine line m | none => false)

/-- The lines that the 256 KiB instruction cache of a cluster holds (R1, R122). -/
abbrev cacheLines : Nat := 4096

/-- A cluster whose port serves a line in a cycle: its cache holds the line, and loses, when it is full, the line that it served
longest ago. DESIGN CHOICE (log entry 69). -/
def serveFrom (now line : Nat) (cl : Cluster) : Cluster :=
  { cl with
    port := some now, icache := (line :: cl.icache.filter (· != line)).take cacheLines
    filling := cl.filling.filter fun f => f.1 != line }

/-- One broadcast answers every core of the cluster that waits for the line (R122). -/
def broadcast (line : Nat) (s : State) : State :=
  let k := myCluster s
  setCluster k (serveFrom s.clock line (clusterAt s k)) { s with
    me := takeLine s.clock line s.me
    others := s.others.map fun e => if clusterOf e.1 = k then (e.1, e.2.map (takeLine s.clock line)) else e }

/-- A line that is in no cluster cache is on its way to it, for a delay. DESIGN CHOICE (log entry 6). -/
def fetchLine (line : Nat) (s : State) : State :=
  let k := myCluster s
  let (d, s) := popDelay s
  setCluster k { clusterAt s k with filling := (clusterAt s k).filling ++ [(line, s.clock + capDelay false d)] } s

/-- FETCH_LINE_BROADCAST (R122): the cluster's port serves one line in a cycle from the cluster's instruction cache, which takes a
line that it lacks from memory first. DESIGN CHOICE (log entry 16). -/
def execFetchLineBroadcast (line : Nat) (s : State) : Out State :=
  let cl := clusterAt s (myCluster s)
  if !lineWanted s line then .refused (.notDue "FETCH_LINE_BROADCAST")
  else if cl.icache.contains line || cl.filling.any (fun f => f.1 == line && decide (f.2 ≤ s.clock)) then
    if cl.port != some s.clock then .next (broadcast line s) else .refused (.notDue "FETCH_LINE_BROADCAST")
  else if cl.filling.any fun f => f.1 == line then .refused (.notDue "FETCH_LINE_BROADCAST")
  else .next (fetchLine line s)

/-! ## Translations (R236, R237) -/

/-- A TLB with one more entry, the least recently used one evicted when it is full. -/
def tlbAdd (size slot : Nat) (t : Tr) (tlb : List TlbEntry) : List TlbEntry :=
  (⟨slot, t⟩ :: tlb.filter fun e => !(e.slot == slot && e.tr.vbase == t.vbase)).take size

/-- The entry goes to the TLB that the slot's access looks in. -/
def tlbFill (slot : Nat) (k : AccKind) (t : Tr) (m : Core) : Core :=
  match k with
  | .execute => { m with itlb := tlbAdd 16 slot t m.itlb }
  | _ => { m with dtlb := tlbAdd 32 slot t m.dtlb }

/-- L2_TLB_HIT (R236): the cluster's L2 TLB supplies the entry that a slot misses, and the slot wakes. -/
def execL2TlbHit (slot : Nat) (s : State) : Out State :=
  let c := slotOf s slot
  match c.st with
  | .parked (.tlb va k) =>
    match (clusterAt s (myCluster s)).l2.find? fun t => holds t va with
    | some t => .next (setSlot slot (wakeSlot s.clock c) { s with me := tlbFill slot k t s.me })
    | none => .refused (.notDue "L2_TLB_HIT")
  | _ => .refused (.notDue "L2_TLB_HIT")

/-- The slots of a core that are parked on a TLB miss that the test accepts. -/
def tlbWaiters (p : Nat → Bool) (m : Core) : List Nat :=
  m.slots.filterMap fun e => match e.2.st with | .parked (.tlb va _) => if p va then some e.1 else none | _ => none

/-- The waiters of a core take the entry and wake. -/
def fillCore (now : Nat) (t : Tr) (m : Core) : Core :=
  (tlbWaiters (holds t) m).foldl (fun m k =>
    match (spGet emptySlot m.slots k).st with
    | .parked (.tlb _ kind) =>
      let m := tlbFill k kind t m
      { m with slots := spSet emptySlot m.slots k (wakeSlot now (spGet emptySlot m.slots k)) }
    | _ => m) m

/-- The code of an access kind in a PFAULT (R129). -/
def kindCode (k : AccKind) : Nat := match k with | .read => 0 | .write => 1 | .execute => 2 | .atomic => 3

/-- The waiters of the core acting on an address whose walk found no valid leaf: they stay parked, and each sends its
PFAULT (R129, R237). -/
def faultWaiters (p : Nat → Bool) (s : State) : State :=
  (tlbWaiters p s.me).foldl (fun s k =>
    match (slotOf s k).st with
    | .parked (.tlb va kind) =>
      sendPrincipal 0xF2 k
        [BitVec.ofNat 64 va, BitVec.ofNat 64 (kindCode kind), BitVec.ofNat 64 (slotOf s k).thread,
          BitVec.ofNat 64 (16 * s.me.num + k), 0, 0, 0] (myDie s)
        (setSlot k { slotOf s k with st := .parked (.fault va kind) } s)
    | _ => s) s

/-- A walk that has found its page: the L2 TLB takes it, and every slot of the cluster parked on the page wakes. A full TLB loses
the entry that it took longest ago. DESIGN CHOICE (log entry 69). -/
def walkFound (t : Tr) (s : State) : State :=
  let k := myCluster s
  let cl := clusterAt s k
  let s := setCluster k { cl with l2 := (t :: cl.l2.filter fun u => u.vbase != t.vbase).take 4096 } s
  { s with
    me := fillCore s.clock t s.me
    others := s.others.map fun e => if clusterOf e.1 = k then (e.1, e.2.map (fillCore s.clock t)) else e }

/-- Some slot of the cluster of the core acting is parked on a miss that the test accepts. -/
def anyWaiter (s : State) (p : Nat → Bool) : Bool :=
  !(tlbWaiters p s.me).isEmpty || s.others.any fun e =>
    clusterOf e.1 == myCluster s && (match e.2 with | some m => !(tlbWaiters p m).isEmpty | none => false)

/-- Two addresses miss on the same page: the page that a walk of the first finds, or, where it finds no leaf, the same 64 KiB
frame. -/
def samePage (s : State) (a b : Nat) : Bool :=
  match walk s a with
  | some t => holds t b
  | none => a / 2 ^ 16 == b / 2 ^ 16

/-- The walks of the cluster of the core acting, in arrival order, but for any that no slot waits for any more (R237). -/
def walksOf (s : State) : List PageWalk :=
  (clusterAt s (myCluster s)).walks.filter fun w => anyWaiter s (samePage s w.va)

/-- Those walks, set. -/
def setWalks (l : List PageWalk) (s : State) : State :=
  setCluster (myCluster s) { clusterAt s (myCluster s) with walks := l } s

/-- A walk has been made: what waits for its page gets its translation, or sends its PFAULT (R129, R237). -/
def endWalk (va : Nat) (s : State) : State :=
  match walk s va with
  | some t => walkFound t s
  | none =>
    let p (x : Nat) : Bool := x / 2 ^ 16 == va / 2 ^ 16
    let k := myCluster s
    let there := (s.others.filter fun e => clusterOf e.1 == k && e.2.isSome).map (·.1)
    there.foldl (fun s c => withCore c (faultWaiters p) s) (faultWaiters p s)

/-- The 8 walkers of a cluster serve the first walks (R237). -/
abbrev pageWalkers : Nat := 8

/-- WALK_COMPLETE (R129, R237): the miss of `va` joins a walk of its page or begins one; one of the 8 walkers takes a walk, in
arrival order, for a delay; at its end the page's waiters get what it has found. DESIGN CHOICE (log entry 6). -/
def execWalkComplete (va : Nat) (s : State) : Out State :=
  let ws := walksOf s
  if !anyWaiter s (· == va) then .refused (.notDue "WALK_COMPLETE")
  else
    match ws.findIdx? fun w => samePage s w.va va with
    | none => .next (setWalks (ws ++ [⟨va, none⟩]) s)
    | some i =>
      match (ws[i]?).bind (·.due) with
      | some t =>
        if t ≤ s.clock then .next (endWalk va (setWalks (ws.eraseIdx i) s)) else .refused (.notDue "WALK_COMPLETE")
      | none =>
        if pageWalkers ≤ i then .refused (.notDue "WALK_COMPLETE")
        else
          let (d, s) := popDelay s
          .next (setWalks (ws.modify i fun w => { w with due := some (s.clock + capDelay false d) }) s)

/-! ## PWAKE (R129, R130, R277) -/

/-- The command waits for this PWAKE. -/
def awaits (addr thread coreSlot : Nat) (c : EngCmd) : Bool :=
  c.fault == some addr && c.thread == thread && 16 * c.core + c.slot == coreSlot

/-- The answer noted on the command. -/
def answer (addr : Nat) (deny : Bool) (thread coreSlot : Nat) (c : EngCmd) : EngCmd :=
  if awaits addr thread coreSlot c then (if deny then { c with denied := true } else { c with fault := none }) else c

/-- The slot that a PWAKE names is parked on its address. DEDUCED (log entry 64). -/
def pwaked (addr thread : Nat) (c : Slot) : Bool :=
  c.thread == thread && (match c.st with | .parked (.fault va _) => va == addr | _ => false)

/-- The answer reaches the slot it names if that is parked on the address, else the engine command that waits on it;
otherwise it is discarded, as it is for a slot while the context stops (R130, R133). DEDUCED (log entry 64). -/
def pwakeAt (addr : Nat) (deny : Bool) (thread coreSlot : Nat) (s : State) : State :=
  let k := coreSlot % 16
  if pwaked addr thread (slotOf s k) then
    if s.switch = .resident then
      setSlot k { wakeSlot s.clock (slotOf s k) with denied := if deny then some addr else none } s
    else s
  else mapEngines (answer addr deny thread coreSlot) s

/-- PWAKE (R129, R130): firmware answers a request for a page. What its changes of page tables have made stale has left
every TLB, and no access in flight uses it (R229). -/
def execPwake (addr : Nat) (deny : Bool) (thread coreSlot : Nat) (s : State) : Out State :=
  if anyInFlight (stale s) s then .refused (.notDue "PWAKE")
  else
    let s := shootDown (stale s) { s with fw := { s.fw with pfaults := s.fw.pfaults.erase (addr, thread, coreSlot) } }
    .next (withCore (coreSlot / 16) (pwakeAt addr deny thread coreSlot) s)

/-! ## Migration (R235, R254) -/

/-- The slot holds a core subscription that has not completed. -/
def hasCsub (s : State) (k : Nat) : Bool :=
  s.me.csubs.any fun e => match e.2 with | some x => x.slot == k | none => false

/-- A message that the slot has sent has entered no mailbox yet: it is on a network, or follows a migrating thread (R95, R254). -/
def hasSent (s : State) (k : Nat) : Bool :=
  let mine (m : Message) : Bool := hdrFrom m.hdr == 16 * s.me.num + k
  s.net.any (fun n => mine n.msg) || s.dies.any fun e => e.2.arrivals.any fun g => g.late.any mine

/-- A posted store of the thread that holds slot k. -/
def ownPosted (k : Nat) (p : Posted) : Bool := p.live && p.slot == k

/-- The thread of slot k leaves for a die: its window, its status, its position, its tag and its mailbox entries.
DEDUCED (log entry 43). -/
def depart (k die mask : Nat) (s : State) : State :=
  let c := slotOf s k
  let g : Migrant :=
    { slot := c, words := (List.range c.winSize).map fun j => spGet 0 s.me.pool (c.winBase + j)
      mail := s.me.mbox.filter (isFor k), core := s.me.num, from_ := k, mask := mask }
  let s := if g.mail.isEmpty then s
    else mailboxFreed { s with me := { s.me with mbox := s.me.mbox.filter fun m => !isFor k m } }
  setSlot k { c with st := .migrating }
    (setDie die { dieAt s die with arrivals := (dieAt s die).arrivals ++ [g] } s)

/-- MIGRATION_DEPART (R235, R254): the thread's drains are over, those of its stores to host memory with them, so that what it
does on its home die comes after all of them. DEDUCED (log entry 43). -/
def execMigrationDepart (slot : Nat) (s : State) : Out State :=
  match (slotOf s slot).st with
  | .waiting (.migrate die mask) =>
    if hasRelaxed s slot || hasEngine s slot || hasCsub s slot || hasSent s slot || s.me.posted.any (ownPosted slot) then
      .refused (.notDue "MIGRATION_DEPART")
    else .next (depart slot die mask s)
  | _ => .refused (.notDue "MIGRATION_DEPART")

/-- Where a migrant may land: the lowest partition core of the die that its mask names with a free slot of its class and
room for its window. DEDUCED (log entry 43). -/
def landing (s : State) (die : Nat) (g : Migrant) : Option (Nat × Nat × Nat) :=
  (s.ctx.cores.filter fun c => dieOf c == die && g.mask / 2 ^ clusterOf c % 2 == 1).findSome? fun c =>
    let m := coreOf s c
    match freeSlot m g.slot.cls, findWindow m g.slot.winSize with
    | some k, some b => some (c, k, b)
    | _, _ => none

/-- A message re-addressed to the thread's new slot. -/
def readdress (core k : Nat) (m : Message) : Message :=
  { m with hdr := (m.hdr &&& ~~~0xFFFFFF#64) ||| (m.hdr &&& 0xFF#64) |||
      BitVec.ofNat 64 (core % 2 ^ 12 * 2 ^ 12 + k % 16 * 2 ^ 8) }

/-- The old slot becomes EMPTY: its TLB entries are dropped and its handles are released; the thread's shading claims
stay (R203, R235). -/
def vacate (k : Nat) (s : State) : State :=
  let c := slotOf s k
  let s := hAbandon k s
  setSlot k (vacated c) { s with me := { s.me with
    pool := spClear s.me.pool c.winBase c.winSize
    itlb := s.me.itlb.filter fun e => e.slot != k
    dtlb := s.me.dtlb.filter fun e => e.slot != k } }

/-- The thread in its new slot, which last issued in cycle `last`: it keeps its window, its status block, its position and
its launch tag (R33), and from the next cycle it may issue (R24). -/
def landedSlot (now b : Nat) (last : Option Nat) (c : Slot) : Slot :=
  { emptySlot with
    st := .runnable, winBase := b, winSize := c.winSize, pa := c.pa, widx := c.widx, thread := c.thread, task := c.task
    ntask := c.ntask, tag := c.tag, prv := c.prv, cls := c.cls, tvec := c.tvec, tpc := c.tpc, tcause := c.tcause
    tpair := c.tpair, tval := c.tval, lastIssue := last, elig := now + 1, migrated := true }

/-- A message for the thread that has landed in slot k enters its new core's mailbox, if that has room (R95). -/
def landMail (k : Nat) (s : State) (m : Message) : State :=
  if freeEntries s.me = 0 then discard s else putMail (readdress s.me.num k m) s

/-- The thread takes slot k of the core acting, with its window at b and its mailbox entries (R95, R235); messages that have come
for it on its way enter their first mailbox here, which fixed mode logs (R299). A landing is no creation: the core may
create a thread in the same cycle (R112). DESIGN CHOICE (log entry 25). -/
def land (g : Migrant) (k b : Nat) (s : State) : State :=
  let s := { s with me := { s.me with pool := spClear s.me.pool b g.slot.winSize } }
  let s := wrSlotRun k 0 g.words (setSlot k (landedSlot s.clock b (slotOf s k).lastIssue g.slot) s)
  let s := g.mail.foldl (landMail k) s
  g.late.foldl (fun s m => landMail k (if freeEntries s.me = 0 then s else logMail (readdress s.me.num k m) s) m) s

/-- The first migrant of a die that can land, with its landing. -/
def firstLanding (s : State) (die : Nat) : List Migrant → Option (Migrant × Nat × Nat × Nat)
  | [] => none
  | g :: gs => match landing s die g with
    | some (c, k, b) => some (g, c, k, b)
    | none => firstLanding s die gs

/-- MIGRATION_ARRIVAL (R235): the thread is RUNNABLE in its new slot, and the old slot is EMPTY. -/
def execMigrationArrival (die : Nat) (s : State) : Out State :=
  match firstLanding s die (dieAt s die).arrivals with
  | some (g, c, k, b) =>
    let s := setDie die { dieAt s die with arrivals := (dieAt s die).arrivals.erase g } s
    .next (withCore g.core (vacate g.from_) (withCore c (land g k b) s))
  | none => .refused (.notDue "MIGRATION_ARRIVAL")

end Sys2Proof.Machine
end

