-- ==== Sys2Proof/Machine/Transfer.lean ====
section
/-!
DEFINITION. The transfer engine: layout entries (R225, R279), the checks of XCOPY, XFILL, XSCAN and XSTRIPE (R209, R280,
R284, R285), its chunks (R281 to R284, R286), re-striping (R210 to R212) and its faults (R277, R278).
-/

namespace Sys2Proof.Machine

/-! ## Layout-table entries (R225, R279) -/

/-- Entry n of the layout table of the core acting. -/
def layoutAt (s : State) (n : Nat) : Rec := spGet 0 s.me.layouts n

/-- BASE -/
def entBase (e : Rec) : Word := BitVec.ofNat 64 (recNat e 0 8)
/-- STRIDEk -/
def entStride (e : Rec) (k : Nat) : Int := (e.extractLsb' (8 * (4 * k + 8)) 32).toInt
/-- EXTk -/
def entExt (e : Rec) (k : Nat) : Nat := recNat e (4 * k + 24) 4
/-- SPACE -/
def entSpace (e : Rec) : Nat := recNat e 40 1
/-- ROT -/
def entRot (e : Rec) : Nat := recNat e 41 1
/-- CORE -/
def entCore (e : Rec) : Nat := recNat e 42 2
/-- FMT of an entry's elements. -/
def entFmt (e : Rec) : Nat := fmtOf (entBase e)
/-- BL of an entry's elements. -/
def entBl (e : Rec) : Nat := blOf (entBase e)

/-- The lowest field of a layout record that its first group of checks finds in error (R126, R279).
DEDUCED (log entry 39). -/
def layoutBad (e : Rec) : Option Nat :=
  lowest ([(badFormat (entBase e), 0), ((entSpace e == 1 || entSpace e == 2) && decide (2 ^ 19 ≤ addrOf (entBase e)), 0)] ++
    (List.range 4).map (fun k => (entExt e k == 0, 24 + 4 * k)) ++
    [(decide (3 ≤ entSpace e), 40), (decide (31 < entRot e) || (entSpace e == 0 && entRot e != 0), 41),
     (decide (95 < entCore e) || (entSpace e != 2 && entCore e != 0), 42), (recNat e 44 20 != 0, 44)])

/-- The address or the stride of a layout record that is not aligned to its elements (R279).
DEDUCED (log entry 39). -/
def layoutMisfit (e : Rec) : Option Nat :=
  let b := elemBytes (entFmt e)
  lowest ((addrOf (entBase e) % b != 0, 0) ::
    (List.range 4).map fun k =>
      (entStride e k % (b : Int) != 0 || (k == 0 && entFmt e == 0x09 && entStride e 0 != 0), 8 + 4 * k))

/-- A write of layout entry n (R279). -/
def layoutWrite (n : Nat) (e : Rec) (s : State) : Out State :=
  pushChecked ((layoutBad e).orElse fun _ => layoutMisfit e) s fun s =>
    retire { s with me := { s.me with layouts := spSet 0 s.me.layouts n e } }

/-- The offset of the element at tile coordinates i (R225, R279). -/
def entOffset (e : Rec) (i : Nat → Int) : Int :=
  (addrOf (entBase e) : Int) + (if entFmt e = 0x09 then i 0 / 2 else i 0 * entStride e 0) + i 1 * entStride e 1 +
    i 2 * entStride e 2 + i 3 * entStride e 3

/-- The address of the element at tile coordinates i and whether it is a high nibble (R225, R277). -/
def entElem (e : Rec) (i : Nat → Int) : Except EngStop (Int × Bool) :=
  let o := entOffset e i
  let hi := entFmt e == 0x09 && i 0 % 2 == 1
  if entSpace e = 0 then .ok (o, hi)
  else
    let base : Nat :=
      if entSpace e = 1 then Config.scratchWindow else Config.clusterWindow + entCore e * Config.scratchBytes
    if o < 0 ∨ (2 ^ 19 : Int) ≤ o then .error (.fault cPerm ((base : Int) + o))
    else
      let bank := (o.toNat / 2 ^ 14 + entRot e * (i 1).toNat) % 32
      .ok (((base + bank * 2 ^ 14 + o.toNat % 2 ^ 14 : Nat) : Int), hi)

/-! ## XCOPY and XFILL: the record (R280, R284) -/

/-- The command is an XFILL. -/
def isFill (r : Rec) : Bool := engKind r == 0x23
/-- Nk -/
def xN (r : Rec) (k : Nat) : Nat := recNat r (52 + 2 * k) 2
/-- DORGk -/
def xDorg (r : Rec) (k : Nat) : Int := (r.extractLsb' (8 * (36 + 4 * k)) 32).toInt
/-- SORGk -/
def xSorg (r : Rec) (k : Nat) : Int := (r.extractLsb' (8 * (20 + 4 * k)) 32).toInt
/-- ALPHA -/
def xAlpha (r : Rec) : Nat := recNat r 12 4
/-- BETA -/
def xBeta (r : Rec) : Nat := recNat r 16 4
/-- BETA is ±0. -/
def noBeta (r : Rec) : Bool := xBeta r % 2 ^ 31 == 0
/-- EXPECTED -/
def xExpected (r : Rec) : Nat := recNat r 60 4
/-- A block's elements (R329). -/
def blockLen (bl : Nat) : Nat := 2 ^ (bl + 3)

/-- The destination entry's STRIDE0 is its element bytes, 0 for T4 (R280). -/
def denseRows (e : Rec) : Bool := entStride e 0 == (if entFmt e = 0x09 then 0 else (elemBytes (entFmt e) : Int))

/-- A block-scaled destination whose rows do not hold whole blocks (R280). -/
def raggedBlocks (r e : Rec) : Bool :=
  let n := blockLen (entBl e)
  entBl e != 0 && (xDorg r 0 % (n : Int) != 0 || xN r 0 % n != 0 || entExt e 0 % n != 0)

/-- RAW on one side only, or with a factor (R280). DEDUCED (log entry 40). -/
def rawMisuse (r se de : Rec) : Bool :=
  (entFmt de == 0 && entFmt se != 0) ||
  ((entFmt de == 0 || entFmt se == 0) && (xAlpha r != 0x3F800000 || !noBeta r))

/-- The lowest field of an XCOPY or XFILL record in error (R280, R284). DEDUCED (log entry 40). -/
def copyBad (r se de : Rec) : Option Nat :=
  let fill := isFill r
  lowest ([(decide (64 ≤ recNat r 1 1), 1), (if fill then recNat r 2 1 != 0 else decide (64 ≤ recNat r 2 1), 2),
    (decide (64 ≤ recNat r 3 1), 3), (decide (2 ≤ recNat r 4 1), 4),
    (if fill then recNat r 5 3 != 0 else recNat r 5 7 != 0, 5), (fill && recNat r 16 20 != 0, 16),
    (!fill && rawMisuse r se de, 2), (!denseRows de || raggedBlocks r de, 3), (decide (2 ^ 28 ≤ xExpected r), 60)] ++
    (List.range 4).map fun k => (xN r k == 0, 52 + 2 * k))

/-- The transfer queue's 8 entries are taken (R207). -/
def transferFull (s : State) : Bool := decide (8 ≤ s.me.xq.length)

/-- A command enters the transfer queue (R207, R239). -/
def transferAccept (expected : Nat) (r src dst : Rec) (s : State) : State :=
  let c := newCmd r src dst s
  let s := hTake (cmdHnd c) 16 expected s
  { s with me := { s.me with xq := s.me.xq ++ [c] } }

/-- A push of XCOPY or XFILL (R280, R284). -/
def pushCopy (r : Rec) (s : State) : Out State :=
  let se := layoutAt s (recNat r 2 1 % 64)
  let de := layoutAt s (recNat r 3 1 % 64)
  pushChecked (copyBad r se de) s fun s =>
    pushTail (engHnd r) (transferFull s) .transfer (transferAccept (xExpected r) r se de) s

/-! ## XSCAN: the record (R285) -/

/-- SRC of an XSCAN, a fat pointer. -/
def scanSrc (r : Rec) : Word := BitVec.ofNat 64 (recNat r 8 8)
/-- FMT of the elements scanned. -/
def scanFmt (r : Rec) : Nat := fmtOf (scanSrc r)
/-- DST -/
def scanDst (r : Rec) : Nat := recNat r 16 8
/-- COUNT -/
def scanCount (r : Rec) : Nat := recNat r 32 4
/-- MAXOUT -/
def scanMax (r : Rec) : Nat := recNat r 36 4
/-- CNT -/
def scanCnt (r : Rec) : Nat := recNat r 40 8

/-- The lowest field of an XSCAN record in error (R285). -/
def scanBad (r : Rec) : Option Nat :=
  lowest [(decide (64 ≤ recNat r 1 1), 1), (recNat r 2 6 != 0, 2),
    (!([0x02, 0x03, 0x04, 0x10, 0x11, 0x12, 0x13].contains (scanFmt r)) || blOf (scanSrc r) != 0 ||
      addrOf (scanSrc r) % elemBytes (scanFmt r) != 0, 8),
    (scanDst r % 8 != 0, 16), (scanCount r == 0, 32), (decide (2 ^ 26 < scanMax r), 36), (scanCnt r % 8 != 0, 40),
    (recNat r 48 16 != 0, 48)]

/-- A push of XSCAN (R285). -/
def pushScan (r : Rec) (s : State) : Out State :=
  pushChecked (scanBad r) s fun s =>
    pushTail (engHnd r) (transferFull s) .transfer (transferAccept (2 ^ 28 - 1) r 0 0) s

/-! ## XSTRIPE: the record (R208 to R210) -/

/-- VA -/
def stripeVa (r : Rec) : Nat := recNat r 8 8
/-- PLACE -/
def stripePlace (r : Rec) : Word := BitVec.ofNat 64 (recNat r 16 8)

/-- The lowest reserved field of an XSTRIPE record that is not 0, or a misaligned VA (rows 1 and 2 of R209). -/
def stripeBad (r : Rec) : Option Nat :=
  (lowest [(recNat r 1 5 != 0, 1), (decide (64 ≤ recNat r 6 1), 6), (recNat r 7 1 != 0, 7), (farPtr (stripeVa r), 8),
    (recNat r 24 40 != 0, 24)]).orElse fun _ => if stripeVa r % 65536 ≠ 0 then some 8 else none

/-- PLACE holds a value that the push refuses (row 5 of R209). -/
def placeBad (s : State) (t : Tr) (p : Word) : Bool :=
  badPlacement s (trTgt t) p || bits p (32 + myCluster s) 1 == 0 ||
  ((List.range 32).any fun k => bits p (32 + k) 1 == 1 && !clusterInPartition s k) ||
  bits p 29 3 != (trGen t + 1) % 8

/-- A page as its leaf gives it now: while an XSTRIPE of it runs, an older translation stays in use (R210), and the old GEN of
another push is the leaf's. DEDUCED (log entry 76). -/
def leafNow (s : State) (t : Tr) : Tr := (walk s t.vbase).getD t

/-- The home of the leaf of an address, in a walk from the table at `table`. -/
def leafFrom (s : State) (va : Nat) : Nat → List (Nat × Nat × Bool × Nat) → Nat
  | table, [] => table
  | table, (lo, n, _, _) :: ls =>
    let e := table + 16 * (va / 2 ^ lo % 2 ^ n)
    let w0 := word64At s e
    if bits w0 1 1 = 1 then e else leafFrom s va (bits w0 9 30 * 2 ^ 9) ls

/-- The old frames of a page under re-striping. -/
def oldPage (r : Restripe) : Tr := ⟨r.vbase, r.size, r.old0, r.old1⟩

/-- The pages of every context that firmware knows, and the old frames of pages under re-striping. -/
def takenPages (s : State) : List Tr :=
  mappedPages s ++ ((awayContexts s).flatMap fun x => mappedPages { s with ctx := x.cfg }) ++ (allStripes s).map oldPage

/-- What the checkpoints of every context hold, whole or being copied: a resumption brings it back to its place (R302). -/
def checkpointed (s : State) : List (Nat × Nat) :=
  ([s.ckCopy, s.ckWhole] ++ (awayContexts s).flatMap fun x => [x.ckCopy, x.ckWhole]).flatMap fun k =>
    match k with
    | some k => k.ranges
    | none => []

/-- New frames for a page are good: the leaf is valid, and they hold no byte of a page, of a checkpoint, of the region reserved
for the buddy, or of anything else that has been written (R229, R300, R302). DESIGN CHOICE (log entry 35). -/
def frameFits (s : State) (t : Tr) : Bool :=
  let runs := frameRuns t
  !badLeaf s t.w0 t.w1 t.size && !rangesMeet runs (s.ctx.pod.region :: checkpointed s) &&
    (takenPages s).all (fun u => !rangesMeet runs (frameRuns u)) && s.mem.all fun e => !inRanges runs e.1

/-- The new page under the place that an XSTRIPE asks for, with frames of a number. -/
def newPage (t : Tr) (place : Word) (f : Nat) : Tr :=
  { t with w0 := (t.w0 &&& 0xFFF000000000FFFF#64) ||| BitVec.ofNat 64 (f % 2 ^ 36 * 2 ^ 16), w1 := place }

/-- The frame word of a page's new frames (R210): those that firmware has ready, or those of a free number, if they are good,
and else the first good ones. DESIGN CHOICE (log entry 35). -/
def takeFrame (t : Tr) (place : Word) (s : State) : Word × State :=
  match s.fw.frames with
  | f :: fs => ((newPage t place (bits f 16 36)).w0, { s with fw := { s.fw with frames := fs } })
  | [] =>
    let free := (Config.newFrame s.freeUsed place).toNat
    let f := ((free :: List.range 32768).find? fun n => frameFits s (newPage t place n)).getD free
    ((newPage t place f).w0, { s with freeUsed := s.freeUsed + 1 })

/-- An XSTRIPE is accepted: new frames, both leaf words, and the re-striping begins (R209, R210). -/
def stripeAccept (t : Tr) (r : Rec) (s : State) : State :=
  let place := stripePlace r
  let (w0, s) := takeFrame t place s
  let leaf := leafFrom s (stripeVa r) s.ctx.root walkLevels
  let l := (leBytes 8 w0.toNat ++ leBytes 8 place.toNat).mapIdx fun k b => (leaf + k, b)
  let s := writeBytes ⟨s.me.num, 15, 2⟩ l s
  transferAccept (t.size / 32) r 0 0
    { s with restripes := s.restripes ++ [⟨t.vbase, t.size, t.w0, t.w1, w0, place, 0, s.me.num, false, false⟩] }

/-- A push of XSTRIPE (R209): its translation uses the TLB entry of its page (R236). -/
def pushStripe (r : Rec) (s : State) : Out State :=
  pushChecked (stripeBad r) s fun s =>
    let va := stripeVa r
    match tlbFind s.me.dtlb s.iss.slot va with
    | none => match (cur s).denied with
      | some d => trap cPerm (BitVec.ofNat 64 d) (onCur (fun c => { c with denied := none }) s)
      | none => park (.tlb va .write) s
    | some t =>
      let s := { s with me := { s.me with dtlb := touchTlb s.iss.slot [t] s.me.dtlb } }
      if pageForbids (cur s).prv (myCluster s) .write t then trap cPerm (BitVec.ofNat 64 va) s
      else if va ≠ t.vbase then trap cCmdReserved 8 s
      else if placeBad s (leafNow s t) (stripePlace r) then trap cCmdReserved 16 s
      else if s.restripes.any fun x => x.vbase == va then trap cSchedule (BitVec.ofNat 64 va) s
      else pushTail (engHnd r) (transferFull s) .transfer (stripeAccept t r) s

/-- A push to the transfer queue (R207). -/
def pushTransfer (r : Rec) (s : State) : Out State :=
  match engKind r with
  | 0x20 => pushCopy r s
  | 0x21 => pushStripe r s
  | 0x22 => pushScan r s
  | 0x23 => pushCopy r s
  | _ => trap cCmdReserved 0 s

/-! ## The tile of an XCOPY or XFILL -/

/-- The least written coordinate on axis k (R283). -/
def boxLo (c : EngCmd) (k : Nat) : Int :=
  let d := max 0 (-xDorg c.recd k)
  if isFill c.recd then d else max d (-xSorg c.recd k)

/-- One past the greatest written coordinate on axis k (R283). -/
def boxHi (c : EngCmd) (k : Nat) : Int :=
  let d := min (xN c.recd k : Int) ((entExt c.dst k : Int) - xDorg c.recd k)
  if isFill c.recd then d else min d ((entExt c.src k : Int) - xSorg c.recd k)

/-- No position of the tile is written. -/
def boxEmpty (c : EngCmd) : Bool := (List.range 4).any fun k => decide (boxHi c k ≤ boxLo c k)

/-- Some position of the tile is clipped. -/
def clipped (c : EngCmd) : Bool := (List.range 4).any fun k => boxLo c k != 0 || boxHi c k != (xN c.recd k : Int)

/-- The tile position of linear index L (R281). -/
def coordOf (r : Rec) (L k : Nat) : Nat :=
  match k with
  | 0 => L % xN r 0
  | 1 => L / xN r 0 % xN r 1
  | 2 => L / (xN r 0 * xN r 1) % xN r 2
  | _ => L / (xN r 0 * xN r 1 * xN r 2)

/-- Position L is written, looking at the axes from `from_` on. -/
def inBox (c : EngCmd) (from_ L : Nat) : Bool :=
  (List.range 4).all fun k => decide (k < from_) || (decide (boxLo c k ≤ coordOf c.recd L k) &&
    decide ((coordOf c.recd L k : Int) < boxHi c k))

/-- The positions of the tile. -/
def tileSize (r : Rec) : Nat := xN r 0 * xN r 1 * xN r 2 * xN r 3

/-- The positions of a chunk (R282). -/
def perChunk (c : EngCmd) : Nat := if entFmt c.dst = 0x09 then 8192 else 4096 / elemBytes (entFmt c.dst)

/-- The linear index at which a progress of `done` bytes stands, and back (R282). -/
def doneToL (c : EngCmd) : Nat := if entFmt c.dst = 0x09 then 2 * c.done else c.done / elemBytes (entFmt c.dst)
/-- The bytes that L positions stand for. -/
def lToDone (c : EngCmd) (L : Nat) : Nat := if entFmt c.dst = 0x09 then L / 2 else elemBytes (entFmt c.dst) * L

/-- The sectors of one written row (R282). -/
def rowSectors (c : EngCmd) : Nat :=
  let w := (boxHi c 0 - boxLo c 0).toNat
  let b := if entFmt c.dst = 0x09 then (w + 1) / 2 else elemBytes (entFmt c.dst) * w
  (b + 31) / 32

/-- The sectors of the whole command (R282, R283). -/
def allSectors (c : EngCmd) : Nat :=
  if boxEmpty c then 0
  else rowSectors c * (boxHi c 1 - boxLo c 1).toNat * (boxHi c 2 - boxLo c 2).toNat * (boxHi c 3 - boxLo c 3).toNat

/-- A written position: its source element, if the command has one, and its destination element. -/
structure Cell where
  src : Int × Bool
  dst : Int × Bool

/-- The elements of position L (R281). -/
def cellAt (c : EngCmd) (L : Nat) : Except EngStop Cell :=
  let i (k : Nat) : Int := coordOf c.recd L k
  match entElem c.dst (fun k => xDorg c.recd k + i k) with
  | .error e => .error e
  | .ok d =>
    if isFill c.recd then .ok ⟨d, d⟩
    else
      match entElem c.src (fun k => xSorg c.recd k + i k) with
      | .error e => .error e
      | .ok x => .ok ⟨x, d⟩

/-- The scale byte's address of an element, as an integer. -/
def scaleOf (e : Rec) (va : Int) : Int := (scaleAddr (entFmt e) (entBl e) va.toNat : Int)

/-- The elements of the block that holds an element (R329). -/
def blockElems (e : Rec) (va : Int) : List (Int × Bool) :=
  let bl := entBl e
  if entFmt e = 0x09 then
    let a := va / (2 ^ (bl + 2) : Int) * 2 ^ (bl + 2)
    (List.range (blockLen bl)).map fun j => (a + (j / 2 : Nat), j % 2 == 1)
  else
    let a := va / (2 ^ (bl + 3) : Int) * 2 ^ (bl + 3)
    (List.range (blockLen bl)).map fun (j : Nat) => (a + (j : Int), false)

/-- The elements of written blocks that the chunk does not write itself (R332). -/
def restOfBlocks (e : Rec) (cells : List Cell) : List (Int × Bool) :=
  if entBl e = 0 then []
  else
    let dsts := cells.map (·.dst)
    let heads := ((dsts.map fun d => ((blockElems e d.1).headD d).1)).eraseDups
    (heads.flatMap (blockElems e)).filter fun x => !dsts.contains x

/-- Every address that a chunk reads at its source. -/
def srcReads (c : EngCmd) (cells : List Cell) : List Int :=
  if isFill c.recd then []
  else cells.flatMap fun x => if entBl c.src = 0 then [x.src.1] else [x.src.1, scaleOf c.src x.src.1]

/-- Every address that a chunk reads at its destination: for BETA, and for blocks written in part (R281, R332). -/
def dstReads (c : EngCmd) (cells : List Cell) : List Int :=
  let els := (if isFill c.recd || noBeta c.recd then [] else cells.map (·.dst)) ++ restOfBlocks c.dst cells
  els.flatMap fun x => if entBl c.dst = 0 then [x.1] else [x.1, scaleOf c.dst x.1]

/-- Every address that a chunk writes. -/
def dstWrites (c : EngCmd) (cells : List Cell) : List Int :=
  (cells.map (·.dst.1)) ++ (restOfBlocks c.dst cells).map (·.1) ++
    (if entBl c.dst = 0 then [] else cells.map fun x => scaleOf c.dst x.dst.1)

/-! ## Values (R262, R263, R281, R284, R331) -/

/-- The value of a decoded lane of a format. A byte of a RAW source is not interpreted (R321), and the spec gives it no number: it is a
free value. DESIGN CHOICE (log entry 40). -/
def laneValue (fmt : Nat) (w : Word) : Num :=
  match fmt with
  | 0x00 => numOfInt (Config.rawValue (w.toNat % 256))
  | 0x01 => unpack fmtD w.toNat
  | 0x10 => numOfInt (w.setWidth 32).toInt
  | 0x11 => numOfInt (w.setWidth 32).toInt
  | 0x12 => numOfInt (w.setWidth 32).toInt
  | 0x13 => numOfInt (w.setWidth 32).toInt
  | _ => unpack fmtS (w.toNat % 2 ^ 32)

/-- The bits of an element: of T4, its nibble. -/
def elemPat (c : EngCmd) (e : Rec) (x : Int × Bool) (s : State) : Nat :=
  let v := engNat c x.1 (elemBytes (entFmt e)) s
  if entFmt e = 0x09 then (if x.2 then v / 16 else v % 16) else v

/-- The scale byte of an element; 127 where its array is not block-scaled. -/
def elemScale (c : EngCmd) (e : Rec) (x : Int × Bool) (s : State) : Nat :=
  if entBl e = 0 then 127 else engNat c (scaleOf e x.1) 1 s

/-- An element decoded as a vector load decodes it (R262, R263). -/
def elemValue (c : EngCmd) (e : Rec) (x : Int × Bool) (s : State) : Num :=
  let v := engNat c x.1 (elemBytes (entFmt e)) s
  laneValue (entFmt e) (decodeElem c.table (entFmt e) v x.2 (elemScale c e x s))

/-- The pattern of a value in an unscaled format, rounded once (R281). -/
def patOf (t : Table) (fmt : Nat) (y : Num) : Nat :=
  match fmt with
  | 0x01 => roundTo fmtD .rne y
  | 0x02 => roundTo fmtS .rne y
  | 0x03 => roundTo fmtH .rne y
  | 0x04 => roundTo fmtBh .rne y
  | 0x08 => tblEncode t false .rne y
  | 0x09 => tblEncode t true .rne y
  | 0x10 => (BitVec.ofInt 8 (toIntSat .rne (-128) 127 y)).toNat
  | 0x12 => (BitVec.ofInt 16 (toIntSat .rne (-(2 ^ 15)) (2 ^ 15 - 1) y)).toNat
  | 0x13 => (BitVec.ofInt 32 (toIntSat .rne (-(2 ^ 31)) (2 ^ 31 - 1) y)).toNat
  | _ => (toIntSat .rne 0 255 y).toNat

/-- VALUE of an XFILL as its destination's format reads it (R284). -/
def fillValue (r : Rec) (fmt : Nat) : Num :=
  let v : Word := BitVec.ofNat 64 (recNat r 8 8)
  match fmt with
  | 0x00 => numOfInt (v.toNat % 256 : Nat)
  | 0x10 => numOfInt v.toInt
  | 0x11 => numOfInt v.toInt
  | 0x12 => numOfInt v.toInt
  | 0x13 => numOfInt v.toInt
  | _ => unpack fmtD v.toNat

/-- The bits of the source element are copied (R281). -/
def copiesBits (c : EngCmd) : Bool :=
  !isFill c.recd && xAlpha c.recd == 0x3F800000 && noBeta c.recd && entFmt c.src == entFmt c.dst &&
    entBl c.src == 0 && entBl c.dst == 0

/-- y of a position (R281, R284). -/
def cellValue (c : EngCmd) (x : Cell) (s : State) : Num :=
  if isFill c.recd then fillValue c.recd (entFmt c.dst)
  else
    let ax := mulN (unpack fmtS (xAlpha c.recd)) (elemValue c c.src x.src s)
    if noBeta c.recd then ax else addN ax (mulN (unpack fmtS (xBeta c.recd)) (elemValue c c.dst x.dst s))

/-- A write of the bits of a byte that `mask` names: home, mask and byte. -/
abbrev BitsPut := Nat × Byte × Byte

/-- Whole bytes, written. -/
def wholeBytes (l : List (Nat × Byte)) : List BitsPut := l.map fun e => (e.1, 0xFF, e.2)

/-- Writes of bits, in order, as writes of bytes: a byte's other bits are as they stand, or as an earlier write of the list leaves
them. -/
def mergeBits (s : State) : List BitsPut → List (Nat × Byte) → List (Nat × Byte)
  | [], l => l
  | (h, m, b) :: ps, l => mergeBits s ps (l ++ [(h, masked (overlaid s l h) m b)])

/-- The writes of one pattern at an unscaled element: a T4 code writes its nibble alone, so that what stands in its byte's other
nibble when the write is applied, a clipped neighbour, is untouched (R281). -/
def patPut (c : EngCmd) (s : State) (x : Int × Bool) (p : Nat) : List BitsPut :=
  let h := engHome c .write x.1 s
  if entFmt c.dst = 0x09 then [if x.2 then (h, 0xF0, BitVec.ofNat 8 (16 * p)) else (h, 0x0F, BitVec.ofNat 8 p)]
  else wholeBytes ((leBytes (elemBytes (entFmt c.dst)) p).mapIdx fun k b => (h + k, b))

/-- The writes of one block of a block-scaled destination (R331, R332): `ys` are the values that the chunk gives. -/
def blockWrites (c : EngCmd) (ys : List ((Int × Bool) × Num)) (head : Int) (s : State) : List (Nat × Byte) :=
  let els := blockElems c.dst head
  let t4 := entFmt c.dst == 0x09
  let vals := els.map fun x => match ys.find? fun y => y.1 == x with
    | some y => y.2
    | none => codeVal c.table t4 (elemPat c c.dst x s) (elemScale c c.dst x s)
  let (sc, codes) := quantise c.table t4 (fun _ => .rne) vals
  let at_ (va : Int) : Nat := engHome c .write va s
  let code (j : Nat) : Nat := (codes[j]?).getD 0
  (if t4 then (List.range (els.length / 2)).map fun (m : Nat) =>
      (at_ ((els.headD (head, false)).1 + (m : Int)), BitVec.ofNat 8 (code (2 * m) + 16 * code (2 * m + 1)))
    else els.mapIdx fun j x => (at_ x.1, BitVec.ofNat 8 (code j))) ++
  [(at_ (scaleOf c.dst head), BitVec.ofNat 8 sc)]

/-- The writes of a chunk (R281, R284). -/
def chunkPuts (c : EngCmd) (cells : List Cell) (s : State) : List BitsPut :=
  if entBl c.dst = 0 then
    cells.flatMap fun x =>
      patPut c s x.dst (if copiesBits c then elemPat c c.src x.src s else patOf c.table (entFmt c.dst) (cellValue c x s))
  else
    let ys := cells.map fun x => (x.dst, cellValue c x s)
    let heads := (cells.map fun x => ((blockElems c.dst x.dst.1).headD x.dst).1).eraseDups
    heads.flatMap fun h => wholeBytes (blockWrites c ys h s)

/-- The bytes that the writes of a chunk leave, where nothing is written between them. -/
def chunkWrites (c : EngCmd) (cells : List Cell) (s : State) : List (Nat × Byte) := mergeBits s (chunkPuts c cells s) []

/-! ## Steps of the engine -/

/-- The head of the transfer queue becomes c. -/
def setHead (c : EngCmd) (s : State) : State := { s with me := { s.me with xq := c :: s.me.xq.drop 1 } }

/-- The head of the transfer queue is over: its entry frees (R207). -/
def transferPop (s : State) : State :=
  let n := s.me.num
  queueFreed .transfer (fun k => k == n) { s with me := { s.me with xq := s.me.xq.drop 1 } }

/-- The head command stops: it waits on a page, or ends by a fault (R277, R278). -/
def transferStop (c : EngCmd) (e : EngStop) (s : State) : State :=
  match e with
  | .wait va k => engPfault c va k (setHead (waiting c va) s)
  | .fault cause va => engFault c cause (BitVec.ofInt 64 va) (transferPop s)

/-- The head command goes on after a step. -/
def transferGoOn (c : EngCmd) (s : State) : State :=
  let (c, s) := nextStep c s
  setHead c s

/-- The CLIP message of a command (R283). -/
def sendClip (c : EngCmd) (s : State) : State :=
  let pack (f : Nat → Int) : Word := BitVec.ofNat 64 (if boxEmpty c then 0 else
    (f 0).toNat + (f 1).toNat * 2 ^ 16 + (f 2).toNat * 2 ^ 32 + (f 3).toNat * 2 ^ 48)
  engMessage c 0xF5 [cmdRef c, pack (boxLo c), pack (boxHi c), BitVec.ofNat 64 (allSectors c), 0, 0, 0] s

/-- The written rows whose last position lies in a chunk (R282). -/
def rowsEnded (c : EngCmd) (l0 n : Nat) : Nat :=
  ((List.range n).filter fun k =>
    (l0 + k + 1) % xN c.recd 0 == 0 && decide (boxLo c 0 < boxHi c 0) && inBox c 1 (l0 + k)).length

/-- The linear index of the last position of the last written row (R283); of the whole tile, if none is written. -/
def lastWritten (c : EngCmd) : Nat :=
  let r := c.recd
  let hi (k : Nat) : Nat := (boxHi c k).toNat - 1
  if boxEmpty c then tileSize r - 1
  else xN r 0 - 1 + xN r 0 * (hi 1 + xN r 1 * (hi 2 + xN r 2 * hi 3))

/-- A chunk's writes are complete: its ended rows count, after the CLIP message if the last row is among them, and the command
goes on or is over (R282, R283, R284). -/
def copyEnd (c : EngCmd) (s : State) : State :=
  let l0 := doneToL c
  let n := Nat.min (perChunk c) (tileSize c.recd - l0)
  let last := l0 + n == tileSize c.recd
  let s := if decide (l0 ≤ lastWritten c) && decide (lastWritten c < l0 + n) && recNat c.recd 4 1 % 2 == 1 && clipped c
    then sendClip c s else s
  let s := engCount c (rowsEnded c l0 n * rowSectors c) s
  if last then transferPop s else transferGoOn { c with done := lToDone c (l0 + n) } s

/-- The writes of the chunk under way whose time has come are applied; the chunk is complete with the last (R246, R282,
R333). -/
def copyOn (c : EngCmd) (s : State) : State :=
  let s := engWrite c (mergeBits s ((c.out.filter fun w => decide (w.1 ≤ s.clock)).flatMap (·.2)) []) s
  let c := { c with out := c.out.filter fun w => decide (s.clock < w.1) }
  if c.out.isEmpty then copyEnd c s else setHead c s

/-- The writes of a chunk, atom by atom, each with the cycle from which it may be applied (R246). DESIGN CHOICE (log entry
6). -/
def chunkParts (l : List BitsPut) (s : State) : List (Nat × List BitsPut) × State :=
  let (times, s) := drawDelays true (atomsOf (l.map (·.1))) s
  (times.map fun t => (t.2, l.filter fun e => e.1 / 32 == t.1), s)

/-- A chunk of XCOPY or XFILL (R281 to R284): every source element is read, then what is needed of the destination, and only
then it writes. -/
def copyChunk (c : EngCmd) (s : State) : State :=
  let l0 := doneToL c
  let n := Nat.min (perChunk c) (tileSize c.recd - l0)
  let res := ((List.range n).map (l0 + ·)).filter (inBox c 0) |>.map (cellAt c)
  match res.findSome? fun r => match r with | .error e => some e | .ok _ => none with
  | some e => transferStop c e s
  | none =>
    let cells := res.filterMap fun r => match r with | .ok x => some x | .error _ => none
    let rds := srcReads c cells ++ dstReads c cells
    let wrs := dstWrites c cells
    match engProbe c (rds.map (·, .read) ++ wrs.map (·, .write)) s with
    | some e => transferStop c e s
    | none =>
      match (engReadStop c rds s).orElse fun _ => wrs.findSome? fun va =>
          if engDown va (engHome c .write va s) s then some (.fault cMemDown va) else none with
      | some e => transferStop c e s
      | none =>
        let (parts, s') := chunkParts (chunkPuts c cells s) (askBanks (rds.map fun va => engHome c .read va s) s)
        copyOn { c with out := parts } s'

/-- An element exceeds the threshold of a scan (R286). -/
def scanHit (r : Rec) (w : Word) : Bool :=
  let v := laneValue (scanFmt r) w
  let t : Word := BitVec.ofNat 64 (recNat r 24 8)
  if [0x02, 0x03, 0x04].contains (scanFmt r) then ltN (unpack fmtD t.toNat) v else ltN (numOfInt t.toInt) v

/-- The pages of the source are not pages of HBM (R286). -/
def scanForeign (va : Int) (s : State) : Bool :=
  inDevice va.toNat || (match engTr s va.toNat with | some t => trTgt t != 0 | none => false)

/-- An XSCAN as it is saved, at the last 4 KiB boundary that it has passed (R134). -/
def scanSaved (c : EngCmd) : EngCmd :=
  if engKind c.recd = 0x22 ∧ c.done % 4096 ≠ 0 then { c with done := c.done / 4096 * 4096, found := c.src.toNat } else c

/-- A chunk of XSCAN (R286). Its command keeps the count of hits before the chunk beside the count of all. -/
def scanChunk (c : EngCmd) (s : State) : State :=
  let r := c.recd
  let e := elemBytes (scanFmt r)
  let j0 := c.done / e
  let n := Nat.min (4096 / e) (scanCount r - j0)
  let va (j : Nat) : Int := (addrOf (scanSrc r) + e * j : Nat)
  let vas := (List.range n).map fun k => va (j0 + k)
  match (engProbe c (vas.map (·, .read)) s).orElse fun _ =>
      (vas.find? (scanForeign · s)).map (EngStop.fault cPerm ·) with
  | some x => transferStop c x s
  | none =>
    match engReadStop c vas s with
    | some x => transferStop c x s
    | none =>
      let lane (j : Nat) : Word := decodeElem c.table (scanFmt r) (engNat c (va j) e s) false 127
      let hits := ((List.range n).map (j0 + ·)).filter fun j => scanHit r (lane j)
      let outs := (hits.zipIdx c.found).filter fun x => decide (x.2 < scanMax r)
      let dst (m : Nat) : Int := (scanDst r + 8 * m : Nat)
      match (engProbe c (outs.map fun x => (dst x.2, .write)) s).orElse fun _ => outs.findSome? fun x =>
          if engDown (dst x.2) (engHome c .write (dst x.2) s) s then some (.fault cMemDown (dst x.2)) else none with
      | some x => transferStop c x s
      | none =>
        let l := outs.flatMap fun x =>
          engPut c (dst x.2) (leBytes 8 ((lane x.1).toNat % 2 ^ 32 * 2 ^ 32 + x.1)) s
        transferGoOn { c with done := c.done + e * n, found := c.found + hits.length, src := BitVec.ofNat 512 c.found } (engWrite c l s)

/-- The head of the transfer queue, if it may take a step now. -/
def transferHead (s : State) : Option EngCmd :=
  match s.me.xq with
  | c :: _ => if canStep s c then some c else none
  | [] => none

/-- The scan has read its whole range. -/
def scanDone (c : EngCmd) : Bool := decide (scanCount c.recd * elemBytes (scanFmt c.recd) ≤ c.done)

/-- The head of the transfer queue has writes of its chunk to apply, and the time of one has come. -/
def copyWaits (s : State) : Option (EngCmd × Bool) :=
  match s.me.xq with
  | c :: _ => if c.out.isEmpty then none else some (c, c.out.any fun w => decide (w.1 ≤ s.clock))
  | [] => none

/-- The next chunk of the head command begins. -/
def beginChunk (s : State) : Out State :=
  match transferHead s with
  | some c =>
    match deniedAt c with
    | some a => .next (engFault c cPerm (BitVec.ofNat 64 a) (transferPop s))
    | none =>
      if engKind c.recd = 0x21 ∨ (engKind c.recd = 0x22 ∧ scanDone c) then .refused (.notDue "TRANSFER_CHUNK")
      else if engKind c.recd = 0x22 then .next (scanChunk { c with fault := none } s)
      else .next (copyChunk { c with fault := none } s)
  | none => .refused (.notDue "TRANSFER_CHUNK")

/-- TRANSFER_CHUNK (R282, R284, R286): the head command's next chunk, or writes of the chunk under way. -/
def execTransferChunk (s : State) : Out State :=
  match copyWaits s with
  | some (c, true) => .next (copyOn c s)
  | some (_, false) => .refused (.notDue "TRANSFER_CHUNK")
  | none => beginChunk s

/-- SCAN_COMPLETE (R286): the count word, and the handle FULL. -/
def execScanComplete (s : State) : Out State :=
  match transferHead s with
  | some c =>
    if engKind c.recd = 0x22 ∧ scanDone c then
      let va : Int := scanCnt c.recd
      match deniedAt c with
      | some a => .next (engFault c cPerm (BitVec.ofNat 64 a) (transferPop s))
      | none =>
        match engProbe c [(va, .write)] s with
        | some e => .next (transferStop c e s)
        | none =>
          if engDown va (engHome c .write va s) s then .next (transferStop c (.fault cMemDown va) s)
          else
            let s := engWrite c (engPut c va (leBytes 8 c.found) s) s
            .next (transferPop (engFull c ((8 * Nat.min c.found (scanMax c.recd) + 31) / 32 + 1) s))
    else .refused (.notDue "SCAN_COMPLETE")
  | none => .refused (.notDue "SCAN_COMPLETE")

/-! ## Re-striping (R210 to R212) -/

/-- The re-striping of the head command. -/
def stripeOf (s : State) (c : EngCmd) : Option Restripe :=
  if engKind c.recd = 0x21 then s.restripes.find? fun x => x.vbase == stripeVa c.recd else none

/-- One re-striping of the package, changed. -/
def setStripe (x y : Restripe) (s : State) : State :=
  { s with restripes := s.restripes.map fun z => if z = x then y else z }

/-- The writes of a chunk under way that go to an atom's old home go to its new one (R210). -/
def forward (old new : Nat) (m : Core) : Core :=
  let moved (e : BitsPut) : BitsPut := if e.1 / 32 = old / 32 then (new / 32 * 32 + e.1 % 32, e.2) else e
  { m with xq := m.xq.map fun (c : EngCmd) => { c with out := c.out.map fun w => (w.1, w.2.map moved) } }

/-- The bytes and the poison mark of an atom, copied to its new home, to which what is on its way is forwarded (R210,
R212). -/
def copyAtom (old new : Nat) (s : State) : State :=
  let l := (List.range 32).map fun k => (new + k, memAt s (old + k))
  let s := { s with
    me := forward old new s.me
    others := s.others.map fun e => (e.1, e.2.map (forward old new))
    mem := spSetAll 0 s.mem l
    poison := (s.poison.filter fun a => a != new / 32) ++ (if isBad s old then [new / 32] else []) }
  wakeAll (fun p => match p with | .watch lo hi => lo == old / 32 || hi == old / 32 | _ => false) s

/-- XSTRIPE_ATOM_SWITCH (R210, R212): the next atom of the page moves to its new home. Whichever of its two homes has its controller
down, the report names the atom by the old one: the spec does not say which. DESIGN CHOICE (log entry 35). -/
def execXstripeAtomSwitch (s : State) : Out State :=
  match transferHead s with
  | some c =>
    match stripeOf s c with
    | some x =>
      if x.shooting || x.stuck then .refused (.notDue "XSTRIPE_ATOM_SWITCH")
      else
        let old := pageHome x.old0 x.old1 (32 * x.switched)
        let new := pageHome x.new0 x.new1 (32 * x.switched)
        if controllerDown s old || controllerDown s new then
          .next (setStripe x { x with stuck := true } { s with fw := { s.fw with reports := s.fw.reports ++ [old / 32] } })
        else
          let last := x.switched + 1 == x.size / 32
          let s := setStripe x { x with switched := x.switched + 1, shooting := last } (copyAtom old new s)
          let s := if last then s else engCount c 1 s
          .next (transferGoOn { c with done := 32 * (x.switched + 1) } s)
    | none => .refused (.notDue "XSTRIPE_ATOM_SWITCH")
  | none => .refused (.notDue "XSTRIPE_ATOM_SWITCH")

/-- A translation of the page under its old placement (R210). -/
def isOld (x : Restripe) (t : Tr) : Bool := t.vbase == x.vbase && t.w1 == x.old1

/-- Writes of an engine's chunk that are on their way to one of the page's homes. -/
def writesTo (x : Restripe) (m : Core) : Bool :=
  m.xq.any fun c => c.out.any fun w => w.2.any fun e => inRanges (frameRuns ⟨x.vbase, x.size, x.new0, x.new1⟩) e.1

/-- The shootdown of a page may pass: no access in flight uses its old placement (R210). -/
def shootReady (x : Restripe) (s : State) : Bool :=
  x.shooting && !anyInFlight (isOld x) s &&
    !(writesTo x s.me || s.others.any fun e => match e.2 with | some m => writesTo x m | none => false)

/-- SHOOTDOWN_PASSED (R210, R211): no TLB holds the old placement, the old frames go back, the handle is FULL. -/
def execShootdownPassed (s : State) : Out State :=
  match transferHead s with
  | some c =>
    match stripeOf s c with
    | some x =>
      if shootReady x s then
        let s := shootDown (isOld x) s
        let s := { s with
          restripes := s.restripes.filter fun z => z != x
          fw := { s.fw with released := s.fw.released ++ [x.old0] } }
        .next (transferPop (engCount c 1 s))
      else .refused (.notDue "SHOOTDOWN_PASSED")
    | none => .refused (.notDue "SHOOTDOWN_PASSED")
  | none => .refused (.notDue "SHOOTDOWN_PASSED")

end Sys2Proof.Machine
end

