-- ==== Sys2Proof/Machine/Context.lean ====
section
/-!
DEFINITION. The bell and the context switch: BELL_RING (R131), the pre-emption request (R132, R133), a core's save area
(R137, R138), the partition save record (R139, R140), the resume (R142), the start of a context (R144) and the map of
dies (R143, R290).
-/

namespace Sys2Proof.Machine

/-! ## The bell and the request -/

/-- The 16 bytes of an entry of a trace ring (R257). -/
def traceBytes (e : TraceEntry) : List Byte :=
  leBytes 16 (e.stamp.toNat * 2 ^ 80 + e.score.toNat * 2 ^ 68 + e.sslot.toNat * 2 ^ 64 + e.atom.toNat * 2 ^ 50 +
    e.kind.toNat * 2 ^ 48)

/-- The trace ring of the core acting goes to the context's replay log in HBM; a ring that has lost entries marks the log
LOST for its port (R257, R299). -/
def drainTrace (s : State) : State :=
  let s := logData (s.me.trace.flatMap traceBytes) s
  { s with
    fw := { s.fw with
      log := s.fw.log ++ s.me.trace.map fun e => (s.me.num, e)
      logLost := if s.me.lost then s.fw.logLost ++ [s.me.num] else s.fw.logLost }
    me := { s.me with trace := [], lost := false } }

/-- A core that a request has reached issues no more (R133 step 1), and any answer that firmware owes its bell is given. -/
def stopCore (m : Core) : Core := { m with stopped := true, rung := false }

/-- The request reaches the core acting, whose unit finishes the block that it tests (R133). -/
def stopHere (s : State) : State := unitStop { s with me := stopCore s.me }

/-- Every core of the partition stops, unless it has (R132, R133). -/
def stopCores (s : State) : State :=
  s.ctx.cores.foldl (fun s c => withCore c (fun s => if s.me.stopped then s else stopHere s) s) s

/-- A pre-emption request is made, which reaches every core of the partition in the next cycle (R132, R133). -/
def preempt (s : State) : State := { s with switch := .stopping, stopAt := s.clock + 1 }

/-- At the end of the cycle in which the request has reached the cores, they stop: what has issued in the cycle stands (R133, R141). -/
def reachCores (s : State) : State := if s.switch = .stopping ∧ s.stopAt ≤ s.clock then stopCores s else s

/-- PREEMPTION_REQUEST (R132, R133). -/
def execPreemptionRequest (s : State) : Out State :=
  if s.switch = .resident ∧ s.ctx.cores ≠ [] then .next (preempt s)
  else .refused (.notDue "PREEMPTION_REQUEST")

/-! ## Words in memory -/

/-- The byte writes of words at an address. -/
def putWords (at_ : Nat) (ws : List Word) : List (Nat × Byte) :=
  (ws.flatMap fun w => leBytes 8 w.toNat).mapIdx fun j b => (at_ + j, b)

/-- n words read at an address. -/
def getWords (s : State) (at_ n : Nat) : List Word := (List.range n).map fun k => word64At s (at_ + 8 * k)

/-- Bytes written at an address by firmware or a saving core; an atom written whole loses its mark (R243). -/
def storeBytesAt (at_ : Nat) (l : List Byte) (s : State) : State :=
  let n := l.length
  { s with
    mem := spSetAll 0 s.mem (l.mapIdx fun k b => (at_ + k, b))
    poison := s.poison.filter fun a => !(decide (at_ ≤ 32 * a) && decide (32 * a + 32 ≤ at_ + n)) }

/-- Words written at an address by firmware or a saving core. -/
def storeWords (at_ : Nat) (ws : List Word) (s : State) : State := storeBytesAt at_ (ws.flatMap fun w => leBytes 8 w.toNat) s

/-- n bytes copied from one home to another, with the marks of their atoms. -/
def copyMem (src dst n : Nat) (s : State) : State :=
  let lo := dst / 32
  let moved := (s.poison.filter fun a => decide (src / 32 ≤ a) && decide (a < (src + n) / 32)).map (· - src / 32 + lo)
  { s with
    mem := spPaste 0 s.mem dst n (spSlice s.mem src n)
    poison := (s.poison.filter fun a => !(decide (lo ≤ a) && decide (a < (dst + n) / 32))) ++ moved }

/-- n bytes at a home read as zeros. -/
def zeroMem (dst n : Nat) (s : State) : State :=
  { s with
    mem := spClear s.mem dst n
    poison := s.poison.filter fun a => !(decide (dst / 32 ≤ a) && decide (a < (dst + n) / 32)) }

/-! ## The save area of a core (R137, R138) -/

/-- The slots that hold a thread. -/
def occupied (m : Core) : List Nat := (List.range 16).filter fun k => !((spGet emptySlot m.slots k).st == .empty)

/-- OCC (R137). -/
def occBits (m : Core) : Nat := (occupied m).foldl (fun acc k => acc + 2 ^ k) 0

/-- The position word (R137). -/
def posWord (c : Slot) : Word := BitVec.ofNat 64 (c.pa / 8 * 8 + c.widx % 2)

/-- WCAUSE and WARG (R138): a wait after BAR, and nothing else. -/
def waitArg (c : Slot) : Nat × Nat :=
  match c.st with
  | .parked (.bar scope _ id ph _) => (1, scope % 8 * 2 ^ 15 + id % 128 * 2 ^ 8 + ph.toNat % 256)
  | _ => (0, 0)

/-- The status block (R138). DEDUCED (log entry 44). -/
def statusBlock (c : Slot) : List Word :=
  [BitVec.ofNat 64 (c.tcause.toNat * 2 ^ 59 + c.tvec.toNat * 2 ^ 5 + (c.winSize / 8 - 1) % 16 * 2 + c.prv.toNat),
   BitVec.ofNat 64 (c.tpc.toNat * 2 ^ 10 + c.tpair.toNat * 2 ^ 9 + c.cls % 4 * 2 ^ 7 + (waitArg c).1 * 2 ^ 3),
   c.tval,
   BitVec.ofNat 64 (c.thread % 2 ^ 23 * 2 ^ 41 + c.ntask % 2 ^ 23 * 2 ^ 18 + (waitArg c).2)]

/-- The thread record of slot k (R137). -/
def threadRecord (m : Core) (k : Nat) : List Word :=
  let c := spGet emptySlot m.slots k
  [posWord c, c.tag, 0, 0] ++ statusBlock c ++ (List.range c.winSize).map fun j => spGet 0 m.pool (c.winBase + j)

/-- A barrier instance as 8 bytes (R137). -/
def barWord (v : Barrier) : Word := BitVec.ofNat 64 (v.phase.toNat * 2 ^ 48 + v.count % 2 ^ 16 * 2 ^ 32 + v.n % 2 ^ 32)

/-- The words of a queue of n records, head first; the entries not in use are 0. -/
def queueWords (n : Nat) (q : List EngCmd) : List Word :=
  (q.take n).flatMap (fun c => wordsOf c.recd) ++ List.replicate (8 * (n - (q.take n).length)) 0

/-- The progress words of a queue (R134): VALID and the count of its head. DEDUCED (log entry 38). -/
def progressWords (n : Nat) (q : List EngCmd) : List Word :=
  match q with
  | c :: _ => BitVec.ofNat 64 (2 ^ 63 + c.done) :: List.replicate (n - 1) 0
  | [] => List.replicate n 0

/-- The decode table's words, two entries each (R137). -/
def tableWords (t : Table) : List Word :=
  (List.range 128).map fun k => BitVec.ofNat 64 ((tblEntry t (2 * k)).toNat + 2 ^ 32 * (tblEntry t (2 * k + 1)).toNat)

/-- The fixed part of a core's save area, with STATE (R137). -/
def fixedWords (st : Nat) (m : Core) : List (Nat × List Word) :=
  [(0, [BitVec.ofNat 64 st, m.footprint.setWidth 64, m.cap ++ m.level, m.rate.setWidth 64, m.bell.setWidth 64,
      tblCfg m.table, BitVec.ofNat 64 (occBits m), BitVec.ofNat 64 m.mbox.length])] ++
  (occupied m).map (fun k => (0x40 + 0x440 * k, threadRecord m k)) ++
  [(0x4440, m.mbox.flatMap fun x => x.hdr :: x.body),
   (0x4C40, (List.range 64).flatMap fun h => [hWord0 (spGet freeHandle m.handles h), hWord1 (spGet freeHandle m.handles h)]),
   (0x5040, queueWords 16 m.mq), (0x5440, progressWords 16 m.mq), (0x54C0, queueWords 8 m.xq),
   (0x56C0, progressWords 8 (m.xq.map scanSaved)), (0x5700, tableWords m.table),
   (0x5B00, (List.range 64).flatMap fun n => wordsOf (spGet 0 m.layouts n)),
   (0x6B00, (List.range 256).map fun n => spGet 0 m.vectors n),
   (0x7300, (List.range 128).map fun n => barWord (spGet zeroBarrier m.bars n))]

/-- Bit b of FOOTPRINT (R136). -/
def footBit (f : BitVec 35) (b : Nat) : Bool := f.toNat / 2 ^ b % 2 == 1

/-- The banks that a footprint names, in ascending order. -/
def footBanks (f : BitVec 35) : List Nat := (List.range 32).filter (footBit f)

/-- Offsets of RAYS, LA and WBUF in a save area (R137). -/
def raysOff (f : BitVec 35) : Nat := 0x7700 + 0x4000 * (footBanks f).length
/-- Where LA stands. -/
def laOff (f : BitVec 35) : Nat := raysOff f + (if footBit f 32 then 0x1000 else 0)
/-- Where WBUF stands. -/
def wbufOff (f : BitVec 35) : Nat := laOff f + (if footBit f 33 then 0x11000 else 0)

/-- Free bytes: the part of a save area whose inner layout the spec does not give. DESIGN CHOICE (log entry 46). -/
def storeFree (at_ n : Nat) (s : State) : State :=
  let (l, s) := drawBytes n s
  storeBytesAt at_ l s

/-- The image of the automaton array (R388). -/
def laImage (m : Automaton) : List Byte :=
  (List.range 65536).map (spGet (-1) m.cells) ++
  (List.range 128).map (fun c => (spGet 0 m.classes c).setWidth 8) ++
  (List.range 16).flatMap (fun e => leBytes 2 (spGet 0 m.entries e).toNat) ++
  leBytes 4 m.seed.toNat ++ leBytes 4 m.epoch.toNat ++ leBytes 4 m.count.toNat ++ leBytes 2 m.nf.toNat ++
  leBytes 2 m.ncl.toNat ++ leBytes 16 m.poison.toNat ++ List.replicate 0xF40 0

/-- n bytes read at an address, as a number. -/
def numAt (s : State) (at_ n : Nat) : Nat := leNat ((List.range n).map fun k => memAt s (at_ + k))

/-- A list of values by number, those equal to `d` left out. -/
def listed {α : Type} [DecidableEq α] (d : α) (n : Nat) (f : Nat → α) : Sp α :=
  ((List.range n).map fun k => (k, f k)).filter fun e => decide (e.2 ≠ d)

/-- The array as its image at an address gives it (R388). -/
def laOfImage (s : State) (at_ : Nat) : Automaton :=
  { startAutomaton with
    cells := listed (-1) 65536 fun k => memAt s (at_ + k)
    classes := listed 0 128 fun c => (memAt s (at_ + 0x10000 + c)).setWidth 3
    entries := listed 0 16 fun e => BitVec.ofNat 10 (numAt s (at_ + 0x10080 + 2 * e) 2)
    seed := BitVec.ofNat 32 (numAt s (at_ + 0x100A0) 4), epoch := BitVec.ofNat 16 (numAt s (at_ + 0x100A4) 2)
    count := BitVec.ofNat 32 (numAt s (at_ + 0x100A8) 4), nf := BitVec.ofNat 9 (numAt s (at_ + 0x100AC) 2)
    ncl := BitVec.ofNat 8 (numAt s (at_ + 0x100AE) 1), poison := BitVec.ofNat 128 (numAt s (at_ + 0x100B0) 16) }

/-- The parts that FOOTPRINT names (R136, R137). -/
def savePartsOf (area : Nat) (s : State) : State :=
  let f := s.me.footprint
  let c := s.me.num
  let s := (List.range (footBanks f).length).foldl (fun s j =>
    copyMem (scratchHome c (0x4000 * ((footBanks f)[j]?).getD 0)) (area + 0x7700 + 0x4000 * j) 0x4000 s) s
  let s := if footBit f 32 then storeFree (area + raysOff f) 0x1000 s else s
  let s := if footBit f 33 then storeBytesAt (area + laOff f) (laImage s.me.la) s else s
  if footBit f 34 then copyMem (weightHome c 0) (area + wbufOff f) Config.weightBytes s else s

/-! ## Stopping (R133) -/

/-- A slot of which step 2 of R133 waits: a reply, a hold, END, or a word of the automaton array; or one in transit. -/
def busySlot (c : Slot) : Bool :=
  match c.st with
  | .held _ => true
  | .migrating => true
  | .waiting (.reply _) => true
  | .waiting .ending => true
  | .waiting .endingFault => true
  | .waiting (.laDrain _ _ _ _) => true
  | .waiting (.lainf _ _ _) => true
  | _ => false

/-- The head of the transfer queue stands at a stop point (R134): a scan that has read its whole range completes first, unless it
waits on a page; a page that has stopped for good stays there. -/
def transferRests (s : State) : Bool :=
  match s.me.xq with
  | c :: _ =>
    (engKind c.recd != 0x21 && c.out.isEmpty && !(engKind c.recd == 0x22 && scanDone c && c.fault.isNone)) ||
      (engKind c.recd == 0x21 && c.done % 4096 == 0) || s.restripes.any fun x => x.stuck && x.core == s.me.num
  | [] => true

/-- A PFAULT of the core acting that has not entered the principal's mailbox. -/
def waitingPfault (c : Nat) (m : Message) : Bool := hdrType m.hdr == 0xF2 && hdrFrom m.hdr / 16 == c

/-- Steps 1 to 6 of R133 are over for the core acting. -/
def coreDrained (s : State) : Bool :=
  let c := s.me.num
  !(s.me.slots.any fun e => busySlot e.2) && s.me.relaxed.isEmpty && s.me.posted.isEmpty &&
  s.dies.all (fun e => e.2.arrivals.isEmpty) && s.me.inFlight.isNone && transferRests s && s.me.la.queue.isEmpty &&
  s.me.ringRec == 0 && !((clusterAt s (myCluster s)).rq.any fun x => x.core == c) &&
  !((dieAt s (myDie s)).pq.any fun x => x.core == c && x.found == 1) &&
  !((dieAt s (myDie s)).cq.any fun x => x.cmd.core == c && x.started) &&
  s.me.catches.isEmpty && s.me.work.isEmpty && !(s.net.any fun n => hdrCore n.msg.hdr == c && !waitingPfault c n.msg)

/-- Steps 1 to 6 of R133 are over: no core of the partition saves before what the others share with it, such as a running record
of the die's reprojection unit, has finished. DESIGN CHOICE (log entry 46). -/
def drained (s : State) : Bool := s.ctx.cores.all fun c => coreDrained (focus c s)

/-- A core subscription is withdrawn and stays recorded (R140): it catches no more, and its handle keeps FILLING and counts
from 0. -/
def stopCsub (n : Nat) (s : State) : State :=
  match csubAt s n with
  | some x =>
    let h := catchHnd x.catch_
    forgetSub x.id (hPut h { hGet s h with counted := 0 } (unstage x (setCsub n (some { x with start := none }) s)))
  | none => s

/-- The PFAULTs of the core acting that have not entered are withdrawn, from a principal that has saved, too (R398). -/
def dropPfaults (s : State) : State :=
  let c := s.me.num
  let keepIn (m : Core) : Core := { m with devWait := m.devWait.filter fun x => !waitingPfault c x }
  { s with
    net := s.net.filter fun n => !waitingPfault c n.msg
    me := keepIn s.me
    others := s.others.map fun e => (e.1, e.2.map keepIn)
    kept := s.kept.map fun e =>
      (e.1, e.2.map fun x => { x with devWait := x.devWait.filter fun m => !waitingPfault c m }) }

/-- The core's pending requests leave the controller, which CARPOS shows (R185), and its verdict records are lost (R183). -/
def stopRequests (s : State) : State :=
  let c := s.me.num
  { s with
    me := { s.me with slots := s.me.slots.map fun e => (e.1, { e.2 with verdict := none }) }
    tracks := s.tracks.map fun e =>
      (e.1, logPos s.clock { e.2 with pending := e.2.pending.filter fun q => q.core != c })
    ctl := s.ctl.filter fun m => match m.what with | .request q => q.core != c | _ => true }

/-- Step 5 of R133 for what the core holds: core subscriptions, requests, the shading cache. Its ray subscriptions have been
withdrawn as its unit came to rest. -/
def stopUnits (s : State) : State :=
  let s := (List.range 16).foldl (fun s n => stopCsub n s) s
  let s := stopRequests (dropPfaults { s with me := { s.me with power := .cold, burst := false } })
  setCluster (myCluster s) { clusterAt s (myCluster s) with shade := [] } s

/-- What the save area has no stated layout or no field for. DESIGN CHOICE (log entry 46). -/
def keep (m : Core) : KeptCore :=
  { live := m.live, side := m.side, raySubs := m.raySubs, mq := m.mq, xq := m.xq.map scanSaved, wpoison := m.wpoison
    devWait := m.devWait, mail := m.mbox.map fun x => (x.tag, x.ntask), rateCfg := m.rateCfg }

/-- CONTEXT_SAVE (R133 step 7, R137): the core acting writes its save area, and STATE := 1; in fixed mode its trace ring is
drained first (R257, R299). -/
def execContextSave (area : Nat) (s : State) : Out State :=
  if s.switch = .stopping ∧ s.me.stopped ∧ s.me.saved = false ∧ inPartition s s.me.num ∧ drained s then
    let s := stopUnits (if s.ctx.fixed then drainTrace s else s)
    let s := (fixedWords 1 s.me).foldl (fun s e => storeWords (area + e.1) e.2 s) s
    let s := savePartsOf area s
    .next { s with
      kept := spSet none s.kept area (some (keep s.me))
      me := { s.me with saved := true, saveArea := area, itlb := [], dtlb := [] } }
  else .refused (.notDue "CONTEXT_SAVE")

/-! ## The partition save record (R139, R140) -/

/-- The entry of core subscription n (R140). -/
def csubWords (o : Option CoreSub) : List Word :=
  match o with
  | some x => [BitVec.ofNat 64 (2 ^ 63 + x.slot % 16 * 2 ^ 56 + x.sel % 4096), x.catch_]
  | none => [0, 0]

/-- The words of barrier instances. -/
def barWords (n : Nat) (m : Sp Barrier) : List Word := (List.range n).map fun k => barWord (spGet zeroBarrier m k)

/-- The pusher of a command, as CORE · 16 + SLOT. -/
def pusher (c : EngCmd) : Word := BitVec.ofNat 64 (16 * c.core + c.slot)

/-- The die block of a die (R139). The header counts at most 7 reprojection records; an eighth, which stands where none of
the seven has started, is kept beside the record. DESIGN CHOICE (log entry 46). -/
def dieBlock (s : State) (d : Nat) : List (Nat × List Word) :=
  let v := dieAt s d
  let saved := v.cq.map (·.cmd)
  ((s.ctx.cores.filter fun c => dieOf c == d).map fun c =>
    (256 * (c % Config.coresPerDie), (List.range 16).flatMap fun n => csubWords (spGet none (coreOf s c).csubs n))) ++
  [(0x18000, (List.range 4).flatMap fun j => barWords 768 (clusterAt s (4 * d + j)).quadBars),
   (0x1E000, (List.range 4).flatMap fun j => barWords 64 (clusterAt s (4 * d + j)).bars),
   (0x1E800, barWords 32 v.bars),
   (0x1E900, ((BitVec.ofNat 64 (v.pq.take 7).length :: (v.pq.take 7).map pusher) ++ List.replicate 7 0).take 8),
   (0x1E940, queueWords 7 v.pq),
   (0x1EB00, BitVec.ofNat 64 saved.length :: List.replicate 7 0),
   (0x1EB40, queueWords 8 saved),
   (0x1ED40, (saved.map pusher ++ List.replicate 8 0).take 8),
   (0x1ED80, List.replicate 592 0)]

/-- The dies of the partition in this package. -/
def partDies (s : State) : List Nat := (List.range 8).filter (dieInPartition s)

/-- The whole partition save record (R139). -/
def partWords (s : State) : List (Nat × List Word) :=
  [(0, [1, BitVec.ofNat 64 (partDies s).length, 0, 0, 0, 0, 0, 0]), (0x40, barWords 16 s.pkgBars),
   (0xC0, barWords 8 s.podBars), (0x100, List.replicate 480 0)] ++
  (partDies s).flatMap fun d => (dieBlock s d).map fun e => (0x1000 + 0x20000 * d + e.1, e.2)

/-- Core c has saved. -/
def hasSaved (s : State) (c : Nat) : Bool := (coreOf s c).saved

/-- The bytes of a core's save area whose parts FOOTPRINT names (R137). -/
def areaBytes (f : BitVec 35) : Nat := wbufOff f + (if footBit f 34 then Config.weightBytes else 0)

/-- The bytes that firmware reserves for a core's save area: every part named (R137). -/
def fullArea : Nat := 0xD9700

/-- The pages in HBM that the context maps. -/
def hbmPages (s : State) : List Tr := (mappedPages s).filter fun t => trTgt t == 0

/-- What a checkpoint copies (R301 step 2): the save area of each core, every HBM page that the context maps, and what is needed
to restore them: the partition save record, the page tables, and the old frames of pages under re-striping (R210).
DESIGN CHOICE (log entry 58). -/
def checkpointRanges (base : Nat) (areas : List (Nat × Nat)) (s : State) : List (Nat × Nat) :=
  areas.map (fun e => (e.2, areaBytes (BitVec.ofNat 35 (bits (word64At s (e.2 + 8)) 0 35)))) ++ [(base, 0x101000)] ++
    tablesFrom s s.ctx.root walkLevels ++ (hbmPages s ++ s.restripes.map oldPage).flatMap frameRuns

/-- A checkpoint that has been asked for is copied once to the buddy's region, in flits of TYPE 2 (R301 step 2).
DESIGN CHOICE (log entry 58). -/
def copyCheckpoint (base : Nat) (s : State) : State :=
  match s.fw.copying, spGet none s.keptPart base with
  | some n, some p =>
    if s.ckCopy.any fun k => k.number == n then s else
    let ranges := checkpointRanges base p.areas s
    let k : Checkpoint :=
      { number := n, base := base, ranges := ranges, mem := s.mem.filter fun e => inRanges ranges e.1
        poison := s.poison.filter fun a => inRanges ranges (32 * a)
        kept := s.kept.filter fun e => (p.areas.map (·.2)).contains e.1, keptPart := [(base, some p)], stripes := s.restripes }
    sendTo s.ctx.pod.buddy 2 none { s with ckCopy := some k }
  | _, _ => s

/-- PARTITION_SAVE_RECORD (R132, R139): once every core has saved, firmware writes the record. -/
def execPartitionSaveRecord (base : Nat) (s : State) : Out State :=
  if s.switch = .stopping ∧ s.ctx.cores.all (hasSaved s) then
    let s := (partWords s).foldl (fun s e => storeWords (base + e.1) e.2 s) s
    let areas := s.ctx.cores.map fun c => (c, (coreOf s c).saveArea)
    .next (copyCheckpoint base { s with
      switch := .saved, wakes := [], ctxBase := some base
      keptPart := spSet none s.keptPart base (some ⟨s.ctx, s.clusters, s.dies, s.tracks, s.kernels, areas, s.replay⟩) })
  else .refused (.notDue "PARTITION_SAVE_RECORD")

/-! ## The resume (R142) -/

/-- A barrier instance from its 8 bytes. -/
def barOf (w : Word) : Barrier := { n := bits w 0 32, count := bits w 32 16, phase := BitVec.ofNat 16 (bits w 48 16) }

/-- Barrier instances from words. -/
def barsOf (ws : List Word) : Sp Barrier :=
  (ws.mapIdx fun k w => (k, barOf w)).filter fun e => decide (e.2 ≠ zeroBarrier)

/-- A handle from its record (R274). -/
def handleOf (w0 w1 : Word) : Handle :=
  { gen := BitVec.ofNat 16 (bits w0 48 16)
    st := match bits w0 46 2 with | 0 => .free | 1 => .filling | 2 => .full | _ => .draining
    owner := BitVec.ofNat 5 (bits w0 41 5), counted := BitVec.ofNat 28 (bits w0 0 28)
    expected := BitVec.ofNat 28 (bits w1 0 28), ring := bits w1 63 1 == 1, rlen := BitVec.ofNat 4 (bits w1 59 4)
    rh0 := BitVec.ofNat 6 (bits w1 53 6), pidx := BitVec.ofNat 4 (bits w1 49 4), cidx := BitVec.ofNat 4 (bits w1 45 4) }

/-- The handles from their records. -/
def handlesOf (ws : List Word) : Sp Handle :=
  ((List.range 64).map fun h => (h, handleOf ((ws[2 * h]?).getD 0) ((ws[2 * h + 1]?).getD 0))).filter fun e =>
    decide (e.2 ≠ freeHandle)

/-- A mailbox entry from its 64 bytes and what was kept beside them. -/
def messageOf (ws : List Word) (beside : Option (Word × Nat)) : Message :=
  { hdr := (ws[0]?).getD 0, body := ws.drop 1, tag := (beside.map (·.1)).getD 0, ntask := (beside.map (·.2)).getD 0 }

/-- A queue's commands from their saved records and progress, with the rights and copies that were kept. -/
def commandsOf (s : State) (recs progress : Nat) (kept : List EngCmd) : List EngCmd :=
  kept.mapIdx fun k c =>
    let p := word64At s (progress + 8 * k)
    { c with
      recd := recOf (getWords s (recs + 64 * k) 8)
      done := if bits p 63 1 = 1 then bits p 0 48 else 0
      fault := none, denied := false, ready := s.clock + 1 }

/-- The decode table from its words and TBLCFG (R323). -/
def tableOfWords (ws : List Word) (cfg : Word) : Table :=
  { half := (List.range 128).map fun c => BitVec.ofNat 19 (bits ((ws[c / 2]?).getD 0) (32 * (c % 2)) 19)
    infV := bits cfg 15 1 == 1, infC := BitVec.ofNat 7 (bits cfg 8 7)
    nanV := bits cfg 23 1 == 1, nanC := BitVec.ofNat 7 (bits cfg 16 7) }

/-- A thread from its record (R137, R138, R142 step 3), in a slot that last issued in cycle `last`, with its window at b; a wait after BAR goes on while the
low 8 bits of its instance's phase are those it joined. A ring HTAKE that an abandonment had woken (R239) finds no SCHEDULE
pending: the record has no field for it. DEDUCED (log entry 44). -/
def restoredSlot (s : State) (ws : List Word) (b : Nat) (last : Option Nat) : Slot :=
  let w (k : Nat) : Word := (ws[k]?).getD 0
  let thread := bits (w 7) 41 23
  let arg := bits (w 7) 0 18
  let scope := arg / 2 ^ 15
  let id := arg / 2 ^ 8 % 2 ^ 7
  let waits := bits (w 5) 3 4 == 1 && (barGet s scope id).phase.toNat % 256 == arg % 256
  { emptySlot with
    st := if waits then .parked (.bar scope (barCell scope s.me.num) id (BitVec.ofNat 16 (arg % 256)) true) else .runnable
    winBase := b, winSize := 8 * (bits (w 4) 1 4 + 1), pa := bits (w 0) 3 54 * 8, widx := bits (w 0) 0 1
    thread := thread, task := if thread < 2 ^ 22 then thread else 0, ntask := bits (w 7) 18 23, tag := w 1
    prv := bits (w 4) 0 1 == 1, cls := bits (w 5) 7 2, tvec := BitVec.ofNat 54 (bits (w 4) 5 54)
    tpc := BitVec.ofNat 54 (bits (w 5) 10 54), tcause := BitVec.ofNat 5 (bits (w 4) 59 5)
    tpair := BitVec.ofNat 1 (bits (w 5) 9 1), tval := w 6, lastIssue := last, elig := s.clock + 1 }

/-- The thread of slot k is recreated (R142 step 3): its window by R29, its words, its status. -/
def restoreThread (area k : Nat) (s : State) : State :=
  let at_ := area + 0x40 + 0x440 * k
  let ws := getWords s at_ 8
  let n := 8 * (bits ((ws[4]?).getD 0) 1 4 + 1)
  match findWindow s.me n with
  | some b => wrSlotRun k 0 (getWords s (at_ + 0x40) n) (setSlot k (restoredSlot s ws b (slotOf s k).lastIssue) s)
  | none => s

/-- The parts that FOOTPRINT names are read back; the others read as zeros (R136). -/
def restoreParts (area : Nat) (s : State) : State :=
  let f := s.me.footprint
  let c := s.me.num
  let s := (List.range 32).foldl (fun s b => if footBit f b then s else zeroMem (scratchHome c (0x4000 * b)) 0x4000 s) s
  let s := (List.range (footBanks f).length).foldl (fun s j =>
    copyMem (area + 0x7700 + 0x4000 * j) (scratchHome c (0x4000 * ((footBanks f)[j]?).getD 0)) 0x4000 s) s
  if footBit f 34 then copyMem (area + wbufOff f) (weightHome c 0) Config.weightBytes s
  else zeroMem (weightHome c 0) Config.weightBytes s

/-- An array whose every part reads as zero (R136). -/
def zeroAutomaton : Automaton :=
  { startAutomaton with cells := (List.range 65536).map fun k => (k, 0), nf := 0, ncl := 0 }

/-- The core acting before its threads are recreated. What belongs to the core and not to the context stays: the rotation
table and policy, but FIXED for a context in fixed mode (R297), DROPS, CLOCK and the slots' last issues (R20, R22, R49, R95).
DEDUCED (log entry 45). -/
def restoredCore (s : State) (area : Nat) (x : KeptCore) : Core :=
  let w (k : Nat) : Word := word64At s (area + 8 * k)
  let f := BitVec.ofNat 35 (bits (w 1) 0 35)
  { bareCore s.me with
    rotPol := policyFor s.ctx.fixed s.me.rotPol, rotPend := s.me.rotPend.map fun p => (policyFor s.ctx.fixed p.1, p.2)
    footprint := f, cap := BitVec.ofNat 32 (bits (w 2) 32 32), level := BitVec.ofNat 32 (bits (w 2) 0 32)
    rate := BitVec.ofNat 16 (bits (w 3) 0 16), bell := BitVec.ofNat 48 (bits (w 4) 0 48)
    table := tableOfWords (getWords s (area + 0x5700) 128) (w 5)
    mbox := (List.range (Nat.min (w 7).toNat 32)).map fun j => messageOf (getWords s (area + 0x4440 + 64 * j) 8) x.mail[j]?
    handles := handlesOf (getWords s (area + 0x4C40) 128)
    mq := commandsOf s (area + 0x5040) (area + 0x5440) x.mq, xq := commandsOf s (area + 0x54C0) (area + 0x56C0) x.xq
    layouts := ((List.range 64).map fun n => (n, recOf (getWords s (area + 0x5B00 + 64 * n) 8))).filter fun e => decide (e.2 ≠ 0)
    vectors := ((List.range 256).map fun n => (n, word64At s (area + 0x6B00 + 8 * n))).filter fun e => decide (e.2 ≠ 0)
    bars := barsOf (getWords s (area + 0x7300) 128)
    live := if footBit f 32 then x.live else [], side := if footBit f 32 then x.side else []
    la := if footBit f 33 then laOfImage s (area + laOff f) else zeroAutomaton
    wpoison := if footBit f 34 then x.wpoison else [], devWait := x.devWait, rateCfg := x.rateCfg, refilled := s.clock
    stopped := true, saved := true }

/-- A ray subscription is made again, mid-segment (R135, R142 step 5, R154). -/
def resubRay (x : RaySub) (s : State) : State :=
  let y : RaySub := { x with id := s.serial, retired := s.clock }
  ctlSubscribe (x.sel / 256) (x.sel % 256) { s with me := { s.me with raySubs := s.me.raySubs ++ [y] } }

/-- A core subscription is made again from its entry, with its number (R140). -/
def resubCore (w0 w1 : Word) (n : Nat) (s : State) : State :=
  if bits w0 63 1 = 1 then
    let sel := bits w0 0 12
    let x : CoreSub := ⟨s.serial, bits w0 56 4, sel, w1, s.clock, none, false, false⟩
    setCsub n (some x) (ctlSubscribe (sel / 256) (sel % 256) s)
  else s

/-- The commands of a queue that firmware saved with a partition, of whose records n stand in memory.
DEDUCED (log entry 38). -/
def savedCommands (s : State) (n recs : Nat) (kept : List EngCmd) : List EngCmd :=
  kept.mapIdx fun k c =>
    { c with recd := if k < n then recOf (getWords s (recs + 64 * k) 8) else c.recd, fault := none, denied := false
             ready := s.clock + 1 }

/-- The shared state of a die from its block (R139, R142 step 1). -/
def restoredDie (s : State) (at_ : Nat) (v : Die) : Die :=
  let cmds := savedCommands s 8 (at_ + 0x1EB40) (v.cq.map (·.cmd))
  { v with
    bars := barsOf (getWords s (at_ + 0x1E800) 32)
    pq := savedCommands s 7 (at_ + 0x1E940) v.pq
    cq := v.cq.mapIdx fun k x => { x with cmd := (cmds[k]?).getD x.cmd, started := false, group := [], ranks := [] } }

/-- The barriers of a cluster from its die's block; its L2 TLB, its instruction cache and its shading cache hold nothing (R143).
DESIGN CHOICE (log entry 16). -/
def restoredCluster (s : State) (at_ j : Nat) (v : Cluster) : Cluster :=
  { v with
    quadBars := barsOf (getWords s (at_ + 0x18000 + 6144 * j) 768), bars := barsOf (getWords s (at_ + 0x1E000 + 512 * j) 64)
    l2 := [], shade := [], walks := [], icache := [], filling := [] }

/-- The starts of a track whose context has stopped, as CARPOS shows them (R185): one that has not begun has not been on the air,
and one that was on the air ended with the block last delivered. -/
def cutLog (k : Track) : List (Nat × Nat × Nat) :=
  k.airLog.filterMap fun e => match k.starts.find? fun x => x.slot == e.1 with
    | some x => if x.begun then some (e.1, e.2.1, x.sent) else none
    | none => some e

/-- A track that keeps of `old` only what belongs to the track itself: how many starts it has placed since reset (R175), and the
positions that its catch ports have yet to show (R185). -/
def bareTrack (now : Nat) (old : Track) : Track :=
  logPos now { startTrack with next := now + 256, count := old.count, airLog := cutLog old, posLog := old.posLog }

/-- A track of a context that comes back: its starts are over, and its next start slot lies 256 cycles or more ahead; `old` is
the track as it stands. DEDUCED (log entry 33). -/
def restartTrack (now : Nat) (old k : Track) : Track :=
  logPos now { k with
    starts := [], next := Nat.max k.next (now + 256), count := old.count, airLog := cutLog old, posLog := old.posLog }

/-! ## The contexts that firmware knows (R290, R292, R294) -/

/-- What firmware keeps for the present context. -/
def ownFw (s : State) : CtxFw :=
  { cfg := s.ctx, base := s.ctxBase, lastSeq := s.fw.lastSeq, events := s.fw.events, thermal := s.fw.thermal
    copying := s.fw.copying, complete := s.fw.complete, pfaults := s.fw.pfaults, recLog := s.fw.recLog, log := s.fw.log
    logLost := s.fw.logLost, msgLog := s.fw.msgLog, logUsed := s.fw.logUsed, digests := s.fw.digests, dieMap := s.dieMap
    restripes := s.restripes, ckCopy := s.ckCopy, ckWhole := s.ckWhole, faultAt := s.fw.faultAt, queued := [] }

/-- The present context is the one that firmware keeps x for. -/
def setOwnFw (x : CtxFw) (s : State) : State :=
  { s with
    ctx := x.cfg, ctxBase := x.base, dieMap := x.dieMap, restripes := x.restripes, ckCopy := x.ckCopy, ckWhole := x.ckWhole
    fw := { s.fw with
      lastSeq := x.lastSeq, events := x.events, thermal := x.thermal, copying := x.copying, complete := x.complete
      pfaults := x.pfaults, recLog := x.recLog, log := x.log, logLost := x.logLost, msgLog := x.msgLog
      logUsed := x.logUsed, digests := x.digests, faultAt := x.faultAt } }

/-- Where firmware keeps the record of one more context of a command line: at its address, or 2^64 higher for each that it has
there already. -/
def freeRecord (cmdLine : Nat) (s : State) : Nat :=
  let at_ (j : Nat) : Nat := cmdLine + 2 ^ 64 * j
  at_ (((List.range (s.away.length + 1)).find? fun j => (spGet none s.away (at_ j)).isNone).getD 0)

/-- A record joins those that firmware keeps. -/
def addRecord (x : CtxFw) (s : State) : State :=
  { s with away := spSet none s.away (freeRecord x.cfg.cmdLine s) (some x) }

/-- The present context joins those that firmware keeps beside it. -/
def putAway (s : State) : State := if s.ctx.cores.isEmpty then s else addRecord (ownFw s) s

/-- What belongs to a physical die moves from virtual die to virtual die when the map changes (R143, R290): of its cores
what is a core's own, its memory controllers, their remap tables, and whether its cores are in reset. -/
def rekeyDies (old new : List Nat) (s : State) : State :=
  if old = new then s
  else
    let was (d : Nat) : Nat := (old.findIdx? fun p => some p == new[d]?).getD d
    let now (d : Nat) : Nat := (new.findIdx? fun p => some p == old[d]?).getD d
    let core (f : Nat → Nat) (c : Nat) : Nat := Config.coresPerDie * f (dieOf c) + c % Config.coresPerDie
    let own (c : Nat) (m : Core) : Core :=
      let p := coreOf s (core was c)
      { m with
        phase := p.phase, spare := p.spare, born := p.born, rot := p.rot, rotPol := p.rotPol, shadow := p.shadow
        rotPend := p.rotPend, drops := p.drops
        slots := (List.range 16).foldl (fun l k => spSet emptySlot l k
          { spGet emptySlot m.slots k with lastIssue := (spGet emptySlot p.slots k).lastIssue }) m.slots }
    let held := (s.me.num :: spKeys s.others).flatMap fun c => [c, core now c]
    let unit (k n : Nat) : Nat := now (k / n) * n + k % n
    { s with
      me := own s.me.num s.me
      others := held.foldl (fun l c => if c = s.me.num then l else spSet none l c (some (own c (coreOf s c)))) s.others
      dies := (List.range 8).foldl (fun l d =>
        spSet startDie l d { dieAt s d with inReset := (dieAt s (was d)).inReset }) s.dies
      memDown := s.memDown.map fun k => unit k 32
      degraded := s.degraded.map fun k => unit k 32
      remap := s.remap.map fun a => unit a (2 ^ 31) }

/-- The record that firmware keeps of a context of configuration cfg, with its place: of one that has been created and not started
(`base` none), or of the one suspended with its partition save record at an address. -/
def recordOn (cfg : CtxConfig) (base : Option Nat) (s : State) : Option (Nat × CtxFw) :=
  s.away.findSome? fun e => match e.2 with
    | some x => if x.cfg = cfg ∧ x.base = base then some (e.1, x) else none
    | none => none

/-- What firmware keeps for a context that is to start: a context that has been created has its record, another one is new, even
while its like stands suspended (R292, R294). -/
def recordFor (cfg : CtxConfig) (s : State) : CtxFw := ((recordOn cfg none s).map (·.2)).getD (newCtxFw cfg)

/-- Context x, whose record stands at `at_`, becomes the present one, in place of the one that stands suspended. -/
def becomePresent (at_ : Option Nat) (x : CtxFw) (s : State) : State :=
  let s := putAway (match at_ with | some k => { s with away := spSet none s.away k none } | none => s)
  rekeyDies s.dieMap x.dieMap (setOwnFw x s)

/-- The present context is the one of configuration cfg whose partition save record stands at `base`. -/
def presentIs (cfg : CtxConfig) (base : Nat) (s : State) : Bool :=
  s.ctx == cfg && (s.ctxBase == some base || (recordOn cfg (some base) s).isNone)

/-- What firmware keeps for the context of configuration cfg whose partition save record stands at `base`. -/
def suspendedFor (cfg : CtxConfig) (base : Nat) (s : State) : CtxFw :=
  if presentIs cfg base s then ownFw s else ((recordOn cfg (some base) s).map (·.2)).getD (newCtxFw cfg)

/-- That context becomes the present one. -/
def presentFor (cfg : CtxConfig) (base : Nat) (s : State) : State :=
  if presentIs cfg base s then s
  else becomePresent ((recordOn cfg (some base) s).map (·.1)) (suspendedFor cfg base s) s

/-- The tracks of the package with those of a context put in place; the others keep only what is theirs (R175). -/
def placeTracks (now : Nat) (f : Nat → Track → Track) (ts : List Nat) (tracks : Sp Track) : Sp Track :=
  spSetAll startTrack (tracks.map fun e => (e.1, bareTrack now e.2)) (ts.map fun t => (t, f t (spGet startTrack tracks t)))

/-- Firmware restores the shared state of the partition save record (R142 step 1). -/
def restorePart (base : Nat) (x : KeptPart) (s : State) : State :=
  let s := presentFor x.ctx base s
  let s := { s with
    clusters := x.clusters, dies := x.dies.map fun e => (e.1, { e.2 with inReset := (dieAt s e.1).inReset })
    tracks := placeTracks s.clock (fun t old => restartTrack s.clock old (spGet startTrack x.tracks t)) x.ctx.tracks s.tracks
    kernels := x.kernels, replay := x.replay, ctxBase := some base
    pkgBars := barsOf (getWords s (base + 0x40) 16), podBars := barsOf (getWords s (base + 0xC0) 8), wakes := [] }
  (partDies s).foldl (fun s d =>
    let at_ := base + 0x1000 + 0x20000 * d
    let s := setDie d (restoredDie s at_ (dieAt s d)) s
    (List.range 4).foldl (fun s j =>
      setCluster (4 * d + j) (restoredCluster s at_ j (clusterAt s (4 * d + j))) s) s) s

/-- A circuit of the connection table: kind, source, destination (R288). -/
def hasCircuit (s : State) (kind src dst : Nat) : Bool :=
  s.conn.any fun e =>
    let w := e.2
    bits w 63 1 == 1 && bits w 61 2 == kind && bits w 32 8 == src && bits w 24 8 == dst

/-- The physical die of a virtual die (R290). -/
def physDie (s : State) (d : Nat) : Nat := (s.dieMap[d]?).getD d

/-- The circuits that a partition whose virtual dies stand as `map` says needs to start or resume (R289). -/
def circuitsSet (s : State) (map : List Nat) (cfg : CtxConfig) : Bool :=
  let dies := ((List.range 8).filter fun d => cfg.cores.any fun c => dieOf c == d).map fun d => (map[d]?).getD d
  dies.all (fun a => dies.all fun b => a == b || hasCircuit s 0 a b) && cfg.tracks.all (hasCircuit s 1 8) &&
    hasCircuit s 2 8 0

/-- The words of the core's subscription list in the record (R140). -/
def csubList (s : State) (base c : Nat) : List Word :=
  getWords s (base + 0x1000 + 0x20000 * dieOf c + 256 * (c % Config.coresPerDie)) 32

/-- The core acting is restored (R142 steps 2 to 6); a restored MXMAC at the head of the matrix queue kindles the engine
(R134, R344). DEDUCED (log entry 45). -/
def resumeCore (area base : Nat) (x : KeptCore) (s : State) : State :=
  let occ := word64At s (area + 48)
  let s := { s with me := restoredCore s area x }
  let s := restoreParts area s
  let s := ((List.range 16).filter fun k => bits occ k 1 == 1).foldl (fun s k => restoreThread area k s) s
  let s := if footBit s.me.footprint 32 then x.raySubs.foldl (fun s y => resubRay y s) s else s
  let ws := csubList s base s.me.num
  let s := (List.range 16).foldl (fun s n => resubCore ((ws[2 * n]?).getD 0) ((ws[2 * n + 1]?).getD 0) n s) s
  let s := storeWords area [0] s
  headKindles { s with me := { s.me with saved := false, resuming := true } }

/-- Every core of the partition has been restored: the context is resident again. -/
def residentAgain (s : State) : State :=
  if s.ctx.cores.all fun c => !hasSaved s c then
    { s with
      switch := .resident
      me := { s.me with stopped := false }
      others := s.others.map fun e => (e.1, e.2.map fun m => { m with stopped := false }) }
  else s

/-- Cores of a context that is to be restored are marked, so that the partition counts as suspended until each has been
restored. -/
def markSaved (cores : List Nat) (s : State) : State :=
  cores.foldl (fun s c => withCore c (fun s => { s with me := { s.me with saved := true, stopped := true } }) s) s

/-- The core acting is restored from its save area, after the partition's shared state if it is the first core of the
partition to be restored. -/
def resumeAt (area base : Nat) (x : KeptCore) (p : KeptPart) (s : State) : State :=
  let first := presentIs p.ctx base s = false ∨ s.ctx.cores.all (hasSaved s)
  let s := if first then markSaved p.ctx.cores (restorePart base p s) else s
  let s := resumeCore area base x s
  residentAgain { s with kept := spSet none s.kept area none }

/-- CONTEXT_RESUME (R142): the core acting is restored from its save area; the first core to be restored brings the
partition's shared state back from its record. -/
def execContextResume (area base : Nat) (s : State) : Out State :=
  match spGet none s.kept area, spGet none s.keptPart base with
  | some x, some p =>
    let own := suspendedFor p.ctx base s
    if s.switch ≠ .saved ∨ word64At s area ≠ 1 ∨ word64At s base ≠ 1 ∨ !circuitsSet s own.dieMap p.ctx ∨ own.thermal ∨
        !p.ctx.cores.contains s.me.num then .refused (.notDue "CONTEXT_RESUME")
    else .next (resumeAt area base x p s)
  | _, _ => .refused (.notDue "CONTEXT_RESUME")

/-! ## The start of a context (R144) -/

/-- The core acting at the start of a context: its start state, the partition's quantum and firmware's vectors; the
principal writes the partition's rotation table to the shadow and sets the policy, which take effect at position 0 (R19,
R20, R106, R297). A configuration's table that breaks R18 or sets a reserved bit is taken as it is: the spec does not say what the
principal does with one. DESIGN CHOICE (log entry 72). -/
def contextCore (cfg : CtxConfig) (now : Nat) (m : Core) : Core :=
  { bareCore m with
    shadow := cfg.rotTab, rotPend := some (policyFor cfg.fixed cfg.rotPol, cfg.rotTab), bell := cfg.quantum
    vectors := spSetAll 0 [] (cfg.fwVectors.filter fun e => decide (0xF0 ≤ e.1) && decide (e.1 < 0x100)), refilled := now }

/-- Core c with its scratchpad and weight buffer at the start of a context. -/
def startOn (cfg : CtxConfig) (c : Nat) (s : State) : State :=
  let s := focus c s
  zeroMem (weightHome c 0) Config.weightBytes (zeroMem (scratchHome c 0) Config.scratchBytes
    { s with me := contextCore cfg s.clock s.me })

/-- A link with its fresh key: SHAKE256 of the partition secret, the link identity and the key epoch (R296). -/
def rekeyed (secret port : Nat) (l : Link) : Link :=
  { l with key := Config.shake256 [secret, port, l.epoch + 1] % 2 ^ 256, epoch := l.epoch + 1, flits := 0, expect := 0, next := 0
           sent := [] }

/-- The lower generation of the two ends of a port's link (R295). -/
def linkGen (p : PodConfig) (port : Nat) : Nat := match p.ports[port]? with | some g => Nat.min g.1 g.2 | none => 3

/-- Each of the 32 links of the package takes a fresh key (R296) and runs the lower generation of its ends (R295). -/
def rekeyAll (p : PodConfig) (s : State) : State :=
  { s with links := (List.range 32).foldl (fun l k =>
      spSet startLink l k { rekeyed p.secret k (spGet startLink l k) with gen := linkGen p k }) s.links }

/-- The context is to replay a log that is marked LOST (R257, R299), or of a run of another shape (R299). -/
def replayRefused (cfg : CtxConfig) : Bool :=
  match cfg.replay with
  | some l => l.lost || l.shape != (cfg.cores, cfg.tracks, cfg.packages)
  | none => false

/-- A replay that has not begun. -/
def startReplay (l : ReplayLog) : Replay := { left := l.entries, early := false, launches := l.records }

/-- The bytes that a context takes in its buddy's region: a save area for each core, and its HBM pages (R300, R301).
DESIGN CHOICE (log entry 58). -/
def contextBytes (cfg : CtxConfig) (s : State) : Nat :=
  cfg.cores.length * fullArea + ((hbmPages { s with ctx := cfg }).map (·.size)).sum

/-- A page of the context takes part of the region that this package reserves for its buddy (R300). -/
def inReserved (cfg : CtxConfig) (s : State) : Bool :=
  (hbmPages { s with ctx := cfg }).any fun t => rangesMeet (frameRuns t) [cfg.pod.region]

/-- A context can start (R105, R289, R290, R300): its partition's cores ascend, its dies are virtual dies 0 to k - 1, its
circuits are set up, its buddy is another package in another power domain whose region it fits, it leaves the region alone
that this package reserves, and in fixed mode its replay log has a place in HBM (R299). -/
def canStartContext (cfg : CtxConfig) (s : State) : Bool :=
  let dies := (List.range 8).filter fun d => cfg.cores.any fun c => dieOf c == d
  !cfg.cores.isEmpty && decide (cfg.cores.Pairwise (· < ·)) && dies == List.range dies.length &&
  decide (1 ≤ cfg.packages) && decide (cfg.packages ≤ 1024) && decide (s.pkg < 1024) &&
  circuitsSet s (recordFor cfg s).dieMap cfg && cfg.pod.buddy != s.pkg && cfg.pod.domain != cfg.pod.buddyDom &&
  decide (contextBytes cfg s ≤ cfg.pod.buddyRoom) && !inReserved cfg s && (!cfg.fixed || cfg.logBase.isSome)

/-- No context is present, or the one that is stands suspended. -/
def seatFree (s : State) : Bool := s.ctx.cores.isEmpty || s.switch == .saved

/-- A die at the start of a context, with the launch queues that have been registered for it (R293). -/
def startedDie (x : CtxFw) (d : Nat) (v : Die) : Die :=
  { startDie with principal := v.principal, inReset := v.inReset, queues := (spGet startDie x.queued d).queues }

/-- The context starts (R144, R293, R296). -/
def startContext (cfg : CtxConfig) (s : State) : State :=
  let x := recordFor cfg s
  let s := becomePresent ((recordOn cfg none s).map (·.1)) x s
  let s := cfg.cores.foldl (fun s c => startOn cfg c s) s
  rekeyAll cfg.pod { s with
    others := s.others.map fun e => (e.1, if cfg.cores.contains e.1 then e.2 else e.2.map bareCore)
    clusters := []
    dies := s.dies.map fun e => (e.1, startedDie x e.1 e.2)
    tracks := placeTracks s.clock (fun _ old => bareTrack s.clock old) cfg.tracks s.tracks
    ctx := cfg, ctxBase := none, switch := .resident, kernels := [], net := [], wakes := [], pkgBars := []
    podBars := [], ctl := [], taken := [], replay := cfg.replay.map startReplay }

/-- Hokupen has created the context, which firmware watches from now on and which has not started (R289, R292). -/
def createContext (cfg : CtxConfig) (s : State) : State :=
  if (recordOn cfg none s).isSome then s else addRecord (newCtxFw cfg) s

/-- A context beside the present one is ready for its partition: it shares a core with that one, and it can start, or it has been
suspended and can resume (R131, R142, R289, R309). DESIGN CHOICE (log entry 66). -/
def readyBeside (s : State) (x : CtxFw) : Bool :=
  (x.cfg.cores.any fun c => inPartition s c) && !x.thermal &&
    (match x.base with
      | some _ => circuitsSet s x.dieMap x.cfg
      | none => canStartContext x.cfg s && !replayRefused x.cfg)

/-- Firmware has another context ready for the partition (R131). -/
def otherReady (s : State) : Bool := (awayContexts s).any (readyBeside s)

/-- BELL_RING (R131): the count of resident cycles has reached QUANTUM; in fixed mode the ring is drained (R257). Firmware answers it
with a pre-emption request if it has another context ready for the partition. DEDUCED (log entry 19).
DESIGN CHOICE (log entry 72). -/
def execBellRing (s : State) : Out State :=
  if s.switch = .resident ∧ s.me.bell ≠ 0 ∧ s.me.bell.toNat ≤ s.me.bellCount then
    let s := if s.ctx.fixed then drainTrace s else s
    .next { s with me := { s.me with bellCount := 0, rung := otherReady s } }
  else .refused (.notDue "BELL_RING")

/-- CONTEXT_START (R144, R289, R292, R296, R299, R300, R303): the context is created, and it starts if it can and no other
is resident; a replay whose log is marked LOST is refused (R257). DESIGN CHOICE (log entry 37). -/
def execContextStart (cfg : CtxConfig) (s : State) : Out State :=
  if s.fw.running && !replayRefused cfg && !(cfg.cmdLine == s.ctx.cmdLine && !seatFree s) then
    if seatFree s && canStartContext cfg s then .next (startContext cfg s) else .next (createContext cfg s)
  else .refused (.notDue "CONTEXT_START")

/-- A one-to-one map of the eight dies. -/
def isDieMap (m : List Nat) : Bool := m.length == 8 && m.all (· < 8) && decide (m.eraseDups.length = 8)

/-- The map of the context's virtual dies goes onto the physical dies of its partition (R290). -/
def ontoPartition (s : State) (map : List Nat) : Bool :=
  let old := (partDies s).map (physDie s)
  (partDies s).all fun d => old.contains ((map[d]?).getD 8)

/-- A context beside the present one can be remapped so: it is suspended, and its map changes. -/
def canRemap (map : List Nat) (s : State) (o : Option CtxFw) : Bool :=
  match o with
  | some x => x.base.isSome && ontoPartition (setOwnFw x s) map && x.dieMap != map
  | none => false

/-- The map of a suspended context beside the present one changes; its dies take their places as it becomes the present one.
Which of several that it fits is firmware's choice, a free value. DESIGN CHOICE (log entry 37). -/
def remapAway (map : List Nat) (s : State) : Option State :=
  let l := s.away.filter fun e => canRemap map s e.2
  l[(Config.freeWord s.freeUsed).toNat % l.length]?.map fun e =>
    { s with
      freeUsed := s.freeUsed + 1
      away := spSet none s.away e.1 (e.2.map fun x => { x with dieMap := map }) }

/-- DIE_REMAP (R143, R290): only of a context that is suspended, the present one before any other. Virtual stack k belongs to
virtual die k, and firmware moves its data, so every virtual address of HBM reads as before; what is a core's own goes with
the physical core. -/
def execDieRemap (map : List Nat) (s : State) : Out State :=
  let own := s.switch == .saved && ontoPartition s map
  if !isDieMap map then .refused (.notDue "DIE_REMAP")
  else if own && map != s.dieMap then .next (rekeyDies s.dieMap map { s with dieMap := map })
  else
    match remapAway map s with
    | some t => .next t
    | none => if own then .next s else .refused (.notDue "DIE_REMAP")

end Sys2Proof.Machine
end

