-- ==== Sys2Proof/Machine/Launch.lean ====
section
/-!
DEFINITION. Launch queues (R101 to R109): a die's principal reads the next record, checks its lap and its fields, and
launches, refuses or stops the queue (R114 to R116). Addresses of queues are device physical or host addresses, whose bytes
are read and written at their homes (R255).
-/

namespace Sys2Proof.Machine

/-! ## The queue's lines -/

/-- TAIL (R101). -/
def tailOf (s : State) (q : LaunchQueue) : Nat := (dpaWord s q.base).toNat
/-- The address of HEAD for a die. -/
def headAt (base die : Nat) : Nat := base + 0x40 + 8 * die
/-- The address of a die's status word. -/
def statusAt (base die : Nat) : Nat := base + 0x80 + 8 * die
/-- The sixteen words of record r, which stands in slot r mod N. DEDUCED (log entry 9). -/
def recordOf (s : State) (q : LaunchQueue) : List Word :=
  (List.range 16).map fun k => dpaWord s (q.base + 0x100 + 128 * (q.r % q.slots) + 8 * k)

/-- The lap number of record r of a queue of n slots (R102). -/
def lapOf (n r : Nat) : Nat := 2 * r / n % 2 ^ 16

/-- A word written by the principal of a die, which wakes a WATCH on its line. -/
def principalStore (die at_ : Nat) (w : Word) (s : State) : State :=
  writeBytes ⟨principalCore die, 15, 0⟩ (toHomes s (putWords at_ [w])) s

/-- A status word (R109). -/
def statusWord (code bad lap last : Nat) : Word :=
  BitVec.ofNat 64 (code % 2 ^ 8 * 2 ^ 56 + bad % 2 ^ 8 * 2 ^ 48 + lap % 2 ^ 16 * 2 ^ 32 + last % 2 ^ 32)

/-- Queue `base` of a die, changed. -/
def setQueue (die base : Nat) (f : LaunchQueue → LaunchQueue) (s : State) : State :=
  setDie die { dieAt s die with queues := (dieAt s die).queues.map fun q => if q.base = base then f q else q } s

/-! ## The record (R104, R108) -/

/-- Word k of a record. -/
def recWord (r : List Word) (k : Nat) : Word := (r[k]?).getD 0
/-- LAP -/
def recLap (r : List Word) : Nat := bits (recWord r 0) 48 16
/-- OP -/
def recOp (r : List Word) : Nat := bits (recWord r 0) 40 8
/-- TPOL -/
def recDynamic (r : List Word) : Bool := bits (recWord r 0) 39 1 == 1
/-- NTASK -/
def recTasks (r : List Word) : Nat := (recWord r 2).toNat
/-- NCORE -/
def recCores (r : List Word) : Nat := bits (recWord r 3) 16 12
/-- CORE0 -/
def recFirst (r : List Word) : Nat := bits (recWord r 3) 0 12

/-- The kernel that a record names, if the context has registered it (R108). Of two with the same ENTRY it is the one registered
first. DESIGN CHOICE (log entry 69). -/
def recKernel (s : State) (r : List Word) : Option Kernel := s.kernels.find? fun k => k.entry == (recWord r 1).toNat

/-- A LAUNCH record passes (R108). -/
def recordGood (s : State) (r : List Word) : Bool :=
  bits (recWord r 0) 32 7 == 0 && bits (recWord r 3) 28 36 == 0 && bits (recWord r 3) 12 4 == 0 &&
  ((List.range 6).all fun k => recWord r (10 + k) == 0) && !(recDynamic r && s.ctx.fixed) && (recKernel s r).isSome &&
  decide (1 ≤ recTasks r) && decide (recTasks r ≤ 2 ^ 22) && decide (1 ≤ recCores r) &&
  decide (recFirst r + recCores r ≤ s.ctx.cores.length)

/-! ## Placing tasks (R114 to R116) -/

/-- Launch core j of a record: partition core CORE0 + j (R105). -/
def launchCore (s : State) (r : List Word) (j : Nat) : Nat := (s.ctx.cores[recFirst r + j]?).getD 0

/-- The launch tag of record n of a queue (R88). DEDUCED (log entry 28). -/
def launchTag (q : LaunchQueue) : Word := BitVec.ofNat 64 (2 ^ 63 + q.number % 2 ^ 15 * 2 ^ 48 + q.r % 2 ^ 48)

/-- The tasks from lo to hi - 1 of a record. -/
def launchRange (q : LaunchQueue) (r : List Word) (type lo hi : Nat) (cores : List Nat) : TaskRange :=
  { next := lo, stop := hi, type := type, ntask := recTasks r, tag := launchTag q
    args := (List.range 6).map fun k => recWord r (4 + k), cores := cores }

/-- The destination has no free mailbox entry: the sender parks (R92). -/
def mailboxFull (m : Core) : Bool := freeEntries m == 0 || !m.devWait.isEmpty

/-- A LAUNCH message goes out, its mailbox entry reserved (R92, R114). DEDUCED (log entry 22). -/
def sendLaunch (x : Message) (core : Nat) (s : State) : State :=
  sendNet x true (withCore core (fun s => { s with me := { s.me with reserved := s.me.reserved + 1 } }) s)

/-- FIXED placement: the messages of the tasks from t on that land on the die, in ascending order (R114, R115); at a full
mailbox the principal parks, and the answer names the task it has come to. The spec gives the principal's loop no pace: it sends all
that it can in one cycle. DESIGN CHOICE (log entry 72). -/
def sendTasks (die : Nat) (q : LaunchQueue) (r : List Word) (type : Nat) : Nat → Nat → State → State × Option Nat
  | 0, _, s => (s, none)
  | n + 1, t, s =>
    let c := launchCore s r (t % recCores r)
    if dieOf c ≠ die then sendTasks die q r type n (t + 1) s
    else if mailboxFull (coreOf s c) then (s, some t)
    else
      let x := taskMessage type t c (launchRange q r type 0 0 [])
      sendTasks die q r type n (t + 1) (sendLaunch x c s)

/-- The launch cores of a record that lie in clusters before cluster k. -/
def coresBefore (s : State) (r : List Word) (k : Nat) : Nat :=
  ((List.range (recCores r)).filter fun j => decide (clusterOf (launchCore s r j) < k)).length

/-- DYNAMIC placement: the ranges of the die's clusters from its cluster j on (R116); at a full dispatch queue the
principal parks, and the answer names the cluster it has come to. -/
def loadRanges (die : Nat) (q : LaunchQueue) (r : List Word) (type : Nat) : Nat → Nat → State → State × Option Nat
  | 0, _, s => (s, none)
  | n + 1, j, s =>
    let k := 4 * die + j
    let lo := recTasks r * coresBefore s r k / recCores r
    let hi := recTasks r * coresBefore s r (k + 1) / recCores r
    let cl := clusterAt s k
    if hi ≤ lo then loadRanges die q r type n (j + 1) s
    else if 4 ≤ cl.dispatch.length then (s, some j)
    else
      let cores := ((List.range (recCores r)).map (launchCore s r)).filter fun c => clusterOf c == k
      loadRanges die q r type n (j + 1)
        (setCluster k { cl with dispatch := cl.dispatch ++ [launchRange q r type lo hi cores] } s)

/-- A record that passes is launched, from task or cluster t on: what is left to do, if the principal parks. -/
def launchFrom (die : Nat) (q : LaunchQueue) (r : List Word) (t : Nat) (s : State) : State × Option Nat :=
  let type := ((recKernel s r).map (·.type)).getD 0
  if recDynamic r then loadRanges die q r type (4 - t) t s else sendTasks die q r type (recTasks r - t) t s

/-! ## One pass of the principal's loop (R107) -/

/-- Fixed mode logs a record as consumed (R299). -/
def logRecord (die : Nat) (q : LaunchQueue) (r : List Word) (s : State) : State :=
  if s.ctx.fixed then logBytes 144 { s with fw := { s.fw with recLog := s.fw.recLog ++ [⟨die, q.number, q.r, r⟩] } } else s

/-- The record has been consumed: r, HEAD, and in fixed mode the replay log (R107, R299). -/
def consume (die : Nat) (q : LaunchQueue) (r : List Word) (s : State) : State :=
  principalStore die (headAt q.base die) (BitVec.ofNat 64 (q.r + 1))
    (logRecord die q r (setQueue die q.base (fun q => { q with r := q.r + 1 }) s))

/-- A record is refused (R108): it launches nothing, BADCNT and LAST change, and it is consumed. -/
def refuseRecord (die : Nat) (q : LaunchQueue) (r : List Word) (s : State) : State :=
  let bad := (q.badcnt + 1) % 256
  let s := setQueue die q.base (fun q => { q with badcnt := bad }) s
  consume die q r (principalStore die (statusAt q.base die) (statusWord 0 bad 0 q.r) s)

/-- The queue stops on this die (R107, R109), and the host is told (R294). -/
def stopQueue (die code : Nat) (q : LaunchQueue) (r : List Word) (s : State) : State :=
  let w := statusWord code q.badcnt (recLap r) q.r
  let s := setQueue die q.base (fun q => { q with code := code }) s
  appendEvent 2 [BitVec.ofNat 64 q.base, w] (principalStore die (statusAt q.base die) w s)

/-- The launch that a die's principal has under way. -/
def setLaunching (die : Nat) (g : Option Launching) (s : State) : State := setDie die { dieAt s die with launching := g } s

/-- The launch goes on, to its end or to where the principal parks; at its end its record is consumed, if its queue still
waits for that. -/
def launchOn (die : Nat) (g : Launching) (s : State) : State :=
  match launchFrom die g.queue g.words g.next s with
  | (s, some t') => setLaunching die (some { g with next := t' }) s
  | (s, none) =>
    let s := setLaunching die none s
    if g.live then consume die g.queue g.words s else s

/-- The next record of a queue is read and acted on. -/
def readRecord (die : Nat) (q : LaunchQueue) (s : State) : State :=
  let r := recordOf s q
  let e := lapOf q.slots q.r
  if recLap r = (e + 2 ^ 16 - 2) % 2 ^ 16 then s
  else if recLap r = (e + 2) % 2 ^ 16 then stopQueue die 1 q r s
  else if recLap r ≠ e then stopQueue die 2 q r s
  else if recOp r = 0 then consume die q r s
  else if recOp r = 1 && recordGood s r then launchOn die ⟨q, r, 0, true⟩ s
  else refuseRecord die q r s

/-- The principal of a die reads queues: it has started, and its context is resident (R106). It does so while the timetable that
it has applied still waits for its position 0. DESIGN CHOICE (log entry 72). -/
def principalRuns (s : State) (die : Nat) : Bool := s.switch == .resident && (dieAt s die).principal

/-- The next recorded launch that a replay feeds to a die (R299). -/
def replayLaunch (s : State) (die : Nat) : Option LogRecord := s.replay.bind fun r => r.launches.find? fun x => x.die == die

/-- A recorded launch is fed: it is launched under the tag that it had, and its place in the log is used up (R299). -/
def feedLaunch (x : LogRecord) (s : State) : State :=
  let s := { s with replay := s.replay.map fun r => { r with launches := r.launches.erase x } }
  if recOp x.words = 1 && recordGood s x.words then
    launchOn x.die ⟨⟨0, 1, x.r, 0, 0, x.number⟩, x.words, 0, false⟩ s
  else s

/-- What the principal of a die does next for the queue at `base`. A launch under way keeps it from every queue; a replay
feeds its recorded launches, with 0 in a queue's place, before any queue is read. -/
inductive PrincipalStep where
  | goOn (g : Launching)
  | feed (x : LogRecord)
  | read (q : LaunchQueue)
  deriving DecidableEq, Repr

/-- The step of a die's principal for the queue at `base`. -/
def principalStep (s : State) (die base : Nat) : Option PrincipalStep :=
  match (dieAt s die).launching, replayLaunch s die with
  | some g, _ => if g.queue.base = base then some (.goOn g) else none
  | none, some x => if base = 0 then some (.feed x) else none
  | none, none =>
    ((dieAt s die).queues.find? fun q => q.base == base && q.code == 0 && decide (q.r < tailOf s q)).map .read

/-- LAUNCH_RECORD (R107): one pass of the principal's loop for the queue at `base`. A launch that parked goes on from the
record as it was read. -/
def execLaunchRecord (die base : Nat) (s : State) : Out State :=
  match (if principalRuns s die then principalStep s die base else none) with
  | some (.goOn g) => .next (launchOn die g s)
  | some (.feed x) => .next (feedLaunch x s)
  | some (.read q) => .next (readRecord die q s)
  | none => .refused (.notDue "LAUNCH_RECORD")

/-- A launch under way would go on. -/
def launchMoves (s : State) (die : Nat) (g : Launching) : Bool :=
  if recDynamic g.words then decide ((clusterAt s (4 * die + g.next)).dispatch.length < 4)
  else !mailboxFull (coreOf s (launchCore s g.words (g.next % recCores g.words)))

/-- The queues for which a pass of the principal's loop would do something; with several, the one registered first is read
first, as far as it goes. DESIGN CHOICE (log entry 69). -/
def launchBases (s : State) (die : Nat) : List Nat :=
  match (dieAt s die).launching, replayLaunch s die with
  | some g, _ => if launchMoves s die g then [g.queue.base] else []
  | none, some _ => [0]
  | none, none =>
    ((dieAt s die).queues.filter fun q => recLap (recordOf s q) != (lapOf q.slots q.r + 2 ^ 16 - 2) % 2 ^ 16).map (·.base)

end Sys2Proof.Machine
end

