-- ==== Sys2Proof/Machine/Firmware.lean ====
section
/-!
DEFINITION. Firmware and the package's frontiers: boot (R303), the command line and its commands (R288, R289, R292, R293,
R306), checkpoints and resumption (R301, R302), Afyar links and the host link (R291, R295, R296), power (R307 to R309),
the replay log's drains (R257), and memory that fails (R212, R233, R243).
-/

namespace Sys2Proof.Machine

/-! ## Boot (R303) -/

/-- The boot ROM accepts the image. -/
def verified (x : FirmwareImage) : Bool := x.verifies && decide (Config.rollbackFloor ≤ x.version)

/-- The boot ROM verifies an image: it runs and each die starts its principal, or no core runs a program. -/
def boot (x : FirmwareImage) (s : State) : State :=
  let s := { s with fw := { s.fw with image := x, running := verified x } }
  if verified x then (List.range 8).foldl (fun s d => setDie d { dieAt s d with principal := true } s) s else s

/-- FIRMWARE_BOOT (R303). -/
def execFirmwareBoot (s : State) : Out State :=
  if s.fw.running then .refused (.notDue "FIRMWARE_BOOT") else .next (boot s.fw.image s)

/-- FIRMWARE_IMAGE_WRITE (R303): after a failed boot the host writes a fresh image, and the ROM verifies again. -/
def execFirmwareImageWrite (img : FirmwareImage) (s : State) : Out State :=
  if s.fw.running then .refused (.notDue "FIRMWARE_IMAGE_WRITE") else .next (boot img s)

/-! ## The command line (R292) -/

/-- A word of the context's command line. -/
def cmdWord (s : State) (k : Nat) : Word := dpaWord s (s.ctx.cmdLine + 8 * k)

/-- Firmware runs for a context whose command line's word 0 carries the next SEQ. -/
def commandWaits (s : State) : Bool :=
  s.fw.running && !s.ctx.cores.isEmpty && bits (cmdWord s 0) 48 16 == (s.fw.lastSeq + 1).toNat

/-- The OP of word 0. -/
def cmdOp (s : State) : BitVec 8 := BitVec.ofNat 8 (bits (cmdWord s 0) 40 8)

/-- The package as it stands for a context that is not the present one: suspended, or created and not started. -/
def seenBy (x : CtxFw) (s : State) : State :=
  let t := setOwnFw x { s with switch := .saved, kernels := [], dies := [], tracks := [], replay := none }
  match x.base.bind (spGet none s.keptPart) with
  | some p => { t with dies := p.dies, kernels := p.kernels, tracks := p.tracks }
  | none => { t with dies := x.queued }

/-- What a change made for another context leaves: its record and its dies go back to where they are kept. -/
def keepSeen (k : Nat) (s t : State) : State :=
  let u := setOwnFw (ownFw s)
    { t with switch := s.switch, kernels := s.kernels, dies := s.dies, tracks := s.tracks, replay := s.replay }
  let u := { u with away := spSet none u.away k (some { ownFw t with queued := if t.ctxBase.isNone then t.dies else [] }) }
  match t.ctxBase with
  | some b => { u with keptPart := (match spGet none s.keptPart b with
      | some p => spSet none u.keptPart b (some { p with dies := t.dies })
      | none => u.keptPart) }
  | none => u

/-- The contexts beside the present one whose command waits, by the address of their command line. -/
def awayWaiting (s : State) : List (Nat × CtxFw) :=
  s.away.filterMap fun e => match e.2 with
    | some x => if commandWaits (seenBy x s) then some (e.1, x) else none
    | none => none

/-- STATUS of a reply: DONE, REFUSED, BUSY. -/
abbrev stDone : Nat := 0
/-- REFUSED -/
abbrev stRefused : Nat := 1
/-- BUSY -/
abbrev stBusy : Nat := 2

/-- Firmware has acted: the reply word, and the last SEQ acted on. -/
def reply (status : Nat) (s : State) : State :=
  let seq := s.fw.lastSeq + 1
  let w := BitVec.ofNat 64 (seq.toNat * 2 ^ 48 + status % 2 ^ 8)
  writeBytes ⟨s.me.num, 15, 2⟩ (toHomes s (putWords (s.ctx.cmdLine + 64) [w])) { s with fw := { s.fw with lastSeq := seq } }

/-- The command that waits on the command line has this OP and these words from 1 on. -/
def commandIs (op : BitVec 8) (ws : List Word) (s : State) : Bool :=
  commandWaits s && cmdOp s == op && (ws.mapIdx fun k w => cmdWord s (k + 1) == w).all id

/-- What a command has changed on the dies of a suspended context that is the present one comes back with it. -/
def keepDies (s : State) : State :=
  if s.switch = .saved then
    match s.ctxBase with
    | some b => match spGet none s.keptPart b with
      | some p => { s with keptPart := spSet none s.keptPart b (some { p with dies := s.dies }) }
      | none => s
    | none => s
  else s

/-- A command acts for the context on whose command line it waits: the present one before any other, the others in the
order of their command lines' addresses. DESIGN CHOICE (log entry 37). -/
def onCommand (name : String) (op : BitVec 8) (ws : List Word) (s : State) (act : State → Nat × State) : Out State :=
  let done (s : State) : State := reply (act s).1 (act s).2
  if commandIs op ws s then .next (keepDies (done s))
  else
    match if commandWaits s then none else (awayWaiting s).head? with
    | some (k, x) =>
      let t := seenBy x s
      if commandIs op ws t then .next (keepSeen k s (done t)) else .refused (.notDue name)
    | none => .refused (.notDue name)

/-! ## Launch queues (R101, R293) -/

/-- The link is in one of its PCIe modes (R291). -/
def pcieMode (m : LinkMode) : Bool := match m with | .pcie6 => true | .pcie5 => true | _ => false

/-- A queue registration is refused (R101, R291, R293). -/
def badQueue (s : State) (base n : Nat) : Bool :=
  !((List.range 13).any fun k => n == 2 ^ (k + 4)) || base % 256 != 0 ||
  (pcieMode s.hostLink && (isHost base || isHost s.ctx.cmdLine))

/-- A die's queues with one more, its read position 0. DESIGN CHOICE (log entry 23). -/
def addQueue (base n number : Nat) (d : Die) : Die :=
  { d with queues := (d.queues.filter fun q => q.base != base) ++ [⟨base, n, 0, 0, 0, number⟩] }

/-- A change made on every die of the partition. -/
def onDies (f : Nat → State → State) (s : State) : State := (partDies s).foldl (fun s d => f d s) s

/-- QREG (R293). DEDUCED (log entry 9). DESIGN CHOICE (log entry 23). -/
def execQreg (base n : Nat) (s : State) : Out State :=
  onCommand "QREG" 0x01 [BitVec.ofNat 64 base, BitVec.ofNat 64 n] s fun s =>
    if badQueue s base n then (stRefused, s)
    else (stDone, onDies (fun d s => setDie d (addQueue base n s.fw.qcount (dieAt s d)) s)
      { s with fw := { s.fw with qcount := s.fw.qcount + 1 } })

/-- A launch of the queue at `base` that has started on a die runs on without the queue (R293). -/
def detachLaunch (base d : Nat) (s : State) : State :=
  setDie d { dieAt s d with launching := (dieAt s d).launching.map fun g =>
    if g.queue.base = base then { g with live := false } else g } s

/-- A die's read position, HEAD and status word at 0, reading again at record 0; launches that have started run on
(R293). -/
def resetQueue (base d : Nat) (s : State) : State :=
  if (dieAt s d).queues.any fun q => q.base == base then
    principalStore d (statusAt base d) 0 (principalStore d (headAt base d) 0
      (setQueue d base (fun q => { q with r := 0, code := 0, badcnt := 0 }) (detachLaunch base d s)))
  else s

/-- QRESET (R293). -/
def execQreset (base : Nat) (s : State) : Out State :=
  onCommand "QRESET" 0x02 [BitVec.ofNat 64 base] s fun s => (stDone, onDies (resetQueue base) s)

/-- QREMOVE (R293). -/
def execQremove (base : Nat) (s : State) : Out State :=
  onCommand "QREMOVE" 0x03 [BitVec.ofNat 64 base] s fun s =>
    (stDone, onDies (fun d s =>
      let s := detachLaunch base d s
      setDie d { dieAt s d with queues := (dieAt s d).queues.filter fun q => q.base != base } s) s)

/-! ## Checkpoints (R301, R302) -/

/-- A checkpoint is begun: step 1 pre-empts a resident partition, and the copy follows its save. -/
def beginCheckpoint (s : State) : State :=
  preempt { s with fw := { s.fw with copying := some (s.fw.complete + 1) } }

/-- A checkpoint can begin: the context is resident and no checkpoint is under way. DEDUCED (log entry 55). -/
def canCheckpoint (s : State) : Bool := s.switch == .resident && !s.ctx.cores.isEmpty && s.fw.copying.isNone

/-- CKPT (R293, R301). DEDUCED (log entry 55). -/
def execCkpt (s : State) : Out State :=
  onCommand "CKPT" 0x10 [] s fun s => if canCheckpoint s then (stDone, beginCheckpoint s) else (stBusy, s)

/-- CHECKPOINT_SCHEDULE (R301). -/
def execCheckpointSchedule (s : State) : Out State :=
  if s.fw.running && canCheckpoint s then .next (beginCheckpoint s) else .refused (.notDue "CHECKPOINT_SCHEDULE")

/-- The flits of TYPE 2 that the package has sent are acknowledged. -/
def ackCheckpoint (s : State) : State :=
  { s with links := s.links.map fun e => (e.1, { e.2 with sent := e.2.sent.filter fun f => f.flit.type != 2 }) }

/-- CHECKPOINT_COMPLETE (R301): every package has confirmed the copy, which replaces the last complete one. -/
def execCheckpointComplete (s : State) : Out State :=
  match s.ckCopy with
  | some k =>
    .next (ackCheckpoint
      { s with ckCopy := none, ckWhole := some k, fw := { s.fw with copying := none, complete := k.number } })
  | none => .refused (.notDue "CHECKPOINT_COMPLETE")

/-- The context stops at once, without a save (R296, R302). -/
def stopAtOnce (s : State) : State :=
  { stopCores s with switch := .broken, net := [], wakes := [], ctl := [], taken := [] }

/-- This package detects a fault that interrupts the job: the partition stops, and the detection's cycle is kept (R7, R296, R302). -/
def detectFault (s : State) : State :=
  let s := stopAtOnce s
  { s with fw := { s.fw with faultAt := s.fw.faultAt.orElse fun _ => some s.clock } }

/-- The ranges of a checkpoint as it holds them: the save areas, the pages with their tables, and the record, and what was kept
beside them, the re-stripings under way among it. Other memory stays as it is. DESIGN CHOICE (log entry 58). -/
def restoreCheckpoint (k : Checkpoint) (s : State) : State :=
  { s with
    mem := spSetAll 0 (s.mem.filter fun e => !inRanges k.ranges e.1) k.mem
    poison := (s.poison.filter fun a => !inRanges k.ranges (32 * a)) ++ k.poison
    kept := k.kept.foldl (fun m e => spSet none m e.1 e.2) s.kept
    keptPart := k.keptPart.foldl (fun m e => spSet none m e.1 e.2) s.keptPart
    restripes := k.stripes
    ckCopy := none
    fw := { s.fw with copying := none }
    switch := .saved }

/-- Every core that a checkpoint saved is restored (R142, R302). -/
def resumeAll (base : Nat) (p : KeptPart) (s : State) : State :=
  p.areas.foldl (fun s e =>
    withCore e.1 (fun s => match spGet none s.kept e.2 with
      | some x => resumeAt e.2 base x p s
      | none => s) s) (markSaved p.ctx.cores s)

/-- The cycles of 8 s, within which a job resumes (R7, R302). -/
abbrev resumeBound : Nat := 21600000000

/-- The cycles from the detection of the fault to the resumption (R7, R294): since this package found the fault, if it did, and
otherwise those of the package that did. -/
def sinceFault (cycles : Nat) (s : State) : Bool :=
  decide (cycles ≤ resumeBound) && (match s.fw.faultAt with | some t => cycles == s.clock - t | none => true)

/-- JOB_FAULT_RESUME (R7, R302): the partition stops, the links take fresh keys, the last complete checkpoint is restored, the
context resumes, and the host is told; a context that its thermal limit holds back does not resume (R309). The spare that
takes the failed package's place is the pod's matter. -/
def execJobFaultResume (failed : Nat) (cycles : Nat) (s : State) : Out State :=
  match s.ckWhole with
  | some k =>
    match spGet none k.keptPart k.base with
    | some p =>
      if s.fw.running && !s.fw.thermal && circuitsSet s s.dieMap p.ctx && decide (failed < 1024) &&
          sinceFault cycles s then
        let s := rekeyAll p.ctx.pod (restoreCheckpoint k (stopAtOnce s))
        let s := resumeAll k.base p { s with fw := { s.fw with faultAt := none } }
        .next (appendEvent 5 [BitVec.ofNat 64 k.number, BitVec.ofNat 64 cycles] s)
      else .refused (.notDue "JOB_FAULT_RESUME")
    | none => .refused (.notDue "JOB_FAULT_RESUME")
  | none => .refused (.notDue "JOB_FAULT_RESUME")

/-! ## The other commands -/

/-- The host has issued a new PCAP: every context that a thermal limit has stopped may resume (R309). -/
def clearThermal (s : State) : State :=
  { s with
    fw := { s.fw with thermal := false }
    away := s.away.map fun e => (e.1, e.2.map fun x => { x with thermal := false }) }

/-- The watts that a cap may have (R307). -/
def capGood (watts : Nat) : Bool := decide (1200 ≤ watts) && decide (watts ≤ 2400)

/-- PCAP (R293, R307, R309): the cap is the package's, whatever context's command line carries it. One outside 1,200 to 2,400 W is
REFUSED: the spec gives the range and no status. DESIGN CHOICE (log entry 55). -/
def execPcap (watts : Nat) (s : State) : Out State :=
  onNext (if capGood watts then clearThermal else id)
    (onCommand "PCAP" 0x11 [BitVec.ofNat 64 watts] s fun s =>
      if capGood watts then (stDone, { s with fw := { s.fw with cap := watts } }) else (stRefused, s))

/-- A partition of the package needs the circuit that a connection-table entry sets up (R288, R289). -/
def usesCircuit (cfg : CtxConfig) (map : List Nat) (w : Word) : Bool :=
  let dies := ((List.range 8).filter fun d => cfg.cores.any fun c => dieOf c == d).map fun d => (map[d]?).getD d
  bits w 63 1 == 1 && (match bits w 61 2 with
    | 0 => dies.contains (bits w 32 8) && dies.contains (bits w 24 8)
    | 1 => cfg.tracks.contains (bits w 24 8)
    | 2 => true
    | _ => false)

/-- CONN (R288, R289, R293): a write to an entry that a context in the package uses is BUSY unless that context is
suspended. `present` is the context that holds the package. -/
def connWrite (present : State) (n : Nat) (v : Word) (s : State) : Nat × State :=
  if 127 < n then (stRefused, s)
  else if !seatFree present && usesCircuit present.ctx present.dieMap (spGet 0 s.conn n) then (stBusy, s)
  else (stDone, { s with conn := spSet 0 s.conn n v })

/-- CONN. -/
def execConn (n : Nat) (v : Word) (s : State) : Out State :=
  onCommand "CONN" 0x12 [BitVec.ofNat 64 n, v] s (connWrite s n v)

/-- Entries of a channel's remap table. -/
def remapCount (s : State) (chan : Nat) : Nat := (s.remap.filter fun a => a / 2 ^ 26 == chan).length

/-- A list as it stands in a report: its length first. -/
def counted (l : List Nat) : List Nat := l.length :: l

/-- A track and its timetable, as a report holds them (R298, R306). -/
def trackNumbers (s : State) (t : Nat) : List Nat :=
  t :: counted ((trackAt s t).segs.flatMap fun g => [g.kind, g.len, g.src, g.user.toNat])

/-- The numbers that an attestation report holds beside the nonce (R306): the digest of the firmware image, the certificate's
serial, the fixed-mode attribute, the partition's shape (R298: its packages, cores, tracks and timetables), the digests of
the images loaded for the context, and the remap entries used on each channel. -/
def reportNumbers (s : State) : List Nat :=
  [s.fw.image.digest, Config.certSerial, s.ctx.fixed.toNat, s.ctx.packages] ++ counted s.ctx.cores ++
    (s.ctx.tracks.length :: s.ctx.tracks.flatMap (trackNumbers s)) ++ counted s.fw.digests ++ (List.range 256).map (remapCount s)

/-- The bytes of an attestation report and its signature (R304, R306). -/
def attestation (nonce : Nat) (s : State) : List Byte :=
  let n := dpaBytes s nonce 32
  (List.range Config.attestLength).map (Config.attestByte Config.identityPrivate n (reportNumbers s))

/-- ATTEST (R306): the report and its signature, at the given address. -/
def execAttest (report nonce : Nat) (s : State) : Out State :=
  onCommand "ATTEST" 0x20 [BitVec.ofNat 64 report, BitVec.ofNat 64 nonce] s fun s =>
    (stDone, writeBytes ⟨s.me.num, 15, 2⟩ (toHomes s ((attestation nonce s).mapIdx fun k b => (report + k, b))) s)

/-- The OPs that R293 lists. -/
def knownOps : List (BitVec 8) := [0x01, 0x02, 0x03, 0x10, 0x11, 0x12, 0x20]

/-- REFUSED_COMMAND (R293): any other OP. -/
def execRefusedCommand (op : BitVec 8) (s : State) : Out State :=
  if knownOps.contains op then .refused (.notDue "REFUSED_COMMAND")
  else onCommand "REFUSED_COMMAND" op [] s fun s => (stRefused, s)

/-! ## Links (R291, R295, R296) -/

/-- A link of the package. -/
def linkAt (s : State) (port : Nat) : Link := spGet startLink s.links port
/-- A link, set. -/
def setLink (port : Nat) (l : Link) (s : State) : State := { s with links := spSet startLink s.links port l }

/-- What a flit for this package does once it is accepted: its payload reaches memory, at most 224 bytes of it, and a
barrier flit arrives at its pod barrier (R96, R97, R295). DESIGN CHOICE (log entry 59). -/
def takeFlit (f : Flit) (s : State) : State :=
  if f.dpkg ≠ s.pkg ∨ 4 ≤ f.type.toNat then s
  else
    let s := writeBytes ⟨s.me.num, 15, 2⟩ (f.payload.take 224) s
    match f.barrier with
    | some id => if f.type = 1 ∧ (barGet s 5 id).n ≠ 0 then countArrival 5 id s else s
    | none => s

/-- AFYAR_FLIT_RECEIVE (R295, R296): a flit whose tag verifies and whose counter is the next is acknowledged and acted on;
any other stops the partition, tells the host, and leaves memory alone. DESIGN CHOICE (log entry 59). -/
def execAfyarFlitReceive (port : Nat) (f : Flit) (s : State) : Out State :=
  let l := linkAt s port
  if 32 ≤ port ∨ s.fw.running = false then .refused (.notDue "AFYAR_FLIT_RECEIVE")
  else if flitVerified l port f ∧ f.ctr = l.expect then
    .next (takeFlit f (setLink port { l with acks := l.acks + 1, expect := l.expect + 1, flits := l.flits + 1 } s))
  else
    .next (appendEvent 4 [BitVec.ofNat 64 s.pkg, BitVec.ofNat 64 port, BitVec.ofNat 64 l.gen]
      (if s.ctx.cores = [] then s else detectFault s))

/-- Cycles of 2 µs without an acknowledgement, after which a flit is sent again (R296). -/
abbrev replayAfter : Nat := 5400

/-- A flit that has gone without an acknowledgement for too long. -/
def overdue (now : Nat) (f : SentFlit) : Bool := decide (f.at_ + replayAfter ≤ now) && decide (now < f.ack)

/-- LINK_REPLAY (R296): the first flit that has gone 2 µs without an acknowledgement is sent again. -/
def execLinkReplay (port : Nat) (s : State) : Out State :=
  let l := linkAt s port
  match l.sent.find? (overdue s.clock) with
  | some f =>
    let (d, s) := popDelay s
    let again : SentFlit := { f with at_ := s.clock, ack := s.clock + d }
    .next (setLink port { l with replays := l.replays + 1, sent := l.sent.map fun g => if g = f then again else g } s)
  | none => .refused (.notDue "LINK_REPLAY")

/-- LINK_REKEY (R296): after 2^40 flits the link takes a fresh key. Flits that it has sent under the old one stay to be
acknowledged or sent again. DESIGN CHOICE (log entry 59). -/
def execLinkRekey (port : Nat) (s : State) : Out State :=
  let l := linkAt s port
  if 2 ^ 40 ≤ l.flits then .next (setLink port { rekeyed s.ctx.pod.secret port l with sent := l.sent } s)
  else .refused (.notDue "LINK_REKEY")

/-- LINK_TRAINING (R291): the package supports every mode, so the link trains to the host's highest, and its port is up
(R245). -/
def execLinkTraining (host : LinkMode) (s : State) : Out State := .next { s with hostLink := host, hostDown := false }

/-! ## Power (R307 to R309) -/

/-- The RATE that firmware sets on a core at a comparison whose share is `share` 65,536ths: lower while the average is above
the cap and higher below 95% of it, in the same proportion on every core, never above the configured value, never 0
(R307). DESIGN CHOICE (log entry 54). -/
def newRate (share watts cap rate cfg : Nat) : Nat :=
  let part := rate * (share % 2 ^ 16) / 2 ^ 16
  if cap < watts then Nat.max 1 part
  else if 100 * watts < 95 * cap then Nat.min cfg (Nat.max (rate + 1) (rate + part))
  else rate

/-- A core with the rate that firmware sets. DESIGN CHOICE (log entry 54). -/
def setRate (share watts cap : Nat) (m : Core) : Core :=
  { m with rate := BitVec.ofNat 16 (newRate share watts cap m.rate.toNat m.rateCfg.toNat) }

/-- The saved EFILL word of a suspended core, rewritten (R308). -/
def setSavedRate (share watts cap area : Nat) (x : KeptCore) (s : State) : State :=
  let r := bits (word64At s (area + 24)) 0 16
  storeWords (area + 24) [BitVec.ofNat 64 (newRate share watts cap r x.rateCfg.toNat % 2 ^ 16)] s

/-- POWER_SAMPLE (R307, R308): the package's average power against the cap. -/
def execPowerSample (watts : Nat) (s : State) : Out State :=
  if s.fw.running then
    let cap := s.fw.cap
    let share := Config.efillShare s.freeUsed
    let s := { s with freeUsed := s.freeUsed + 1 }
    let s := s.kept.foldl (fun s e => match e.2 with | some x => setSavedRate share watts cap e.1 x s | none => s) s
    .next (s.ctx.cores.foldl (fun s c => withCore c (fun s => { s with me := setRate share watts cap s.me }) s) s)
  else .refused (.notDue "POWER_SAMPLE")

/-- The partition cores of a die. -/
def dieCores (s : State) (die : Nat) : List Nat := s.ctx.cores.filter fun c => dieOf c == die

/-- n free words. DESIGN CHOICE (log entry 57). -/
def drawWords : Nat → State → List Word × State
  | 0, s => ([], s)
  | n + 1, s => let (w, s) := drawWord s; let (ws, s) := drawWords n s; (w :: ws, s)

/-- THERMAL_LIMIT (R309): the die stays at its limit with EFILL at 1 on every core, so firmware pre-empts the partition and
writes a FAULT event with TCAUSE 0, whose other words the spec does not give. DESIGN CHOICE (log entry 57). -/
def execThermalLimit (die : Nat) (s : State) : Out State :=
  if s.fw.running && s.switch == .resident && !(dieCores s die).isEmpty &&
      (dieCores s die).all (fun c => (coreOf s c).rate == 1) then
    let (ws, s) := drawWords 6 s
    .next (appendEvent 1 (ws.set 3 0) (preempt { s with fw := { s.fw with thermal := true } }))
  else .refused (.notDue "THERMAL_LIMIT")

/-! ## The replay log (R257) -/

/-- TRACE_RING_DRAIN (R257). -/
def execTraceRingDrain (s : State) : Out State :=
  if s.ctx.fixed && decide (2048 ≤ s.me.trace.length) then .next (drainTrace s)
  else .refused (.notDue "TRACE_RING_DRAIN")

/-! ## Memory that fails (R212, R233, R243) -/

/-- An atom's mark, set or cleared. -/
def setMark (a : Nat) (bad : Bool) (s : State) : State :=
  { s with poison := if bad then (if s.poison.contains a then s.poison else a :: s.poison) else s.poison.filter (· != a) }

/-- REMAP_ENTRY (R243): after the retry read, an atom is served from the base die's SRAM; with the channel's table full
the channel is degraded and the atom stays poisoned. -/
def execRemapEntry (dpa : Nat) (clean : Bool) (s : State) : Out State :=
  let a := dpa / 32
  let chan := dpa / 2 ^ 31
  if 2 ^ 39 ≤ dpa then .fault (.noSuchHome dpa)
  else if s.fw.running = false then .refused (.notDue "REMAP_ENTRY")
  else if s.remap.contains a ∨ remapCount s chan < 1024 then
    .next (setMark a (!clean) { s with remap := if s.remap.contains a then s.remap else a :: s.remap })
  else
    .next (appendEvent 3 [BitVec.ofNat 64 (chan * 2 ^ 31)] (setMark a true
      { s with degraded := if s.degraded.contains chan then s.degraded else chan :: s.degraded }))

/-- MEM_CONTROLLER_DOWN (R212, R233, R245): accesses to the controller's homes trap MEM_DOWN, and a running XSTRIPE stops at
the first atom that meets it; firmware is told. Stack 8, channel 0 stands for the routing die's host-link port.
DESIGN CHOICE (log entry 73). -/
def execMemControllerDown (stack channel : Nat) (s : State) : Out State :=
  let k := 32 * stack + channel
  if stack < 8 ∧ channel < 32 then
    .next { s with memDown := if s.memDown.contains k then s.memDown else k :: s.memDown }
  else if stack = 8 ∧ channel = 0 then .next { s with hostDown := true }
  else .fault (.noSuchHome (k * 2 ^ 31))

/-- DIE_CORES_IN_RESET (R233): the die's cores enter reset while its memory controllers stay alive. -/
def execDieCoresInReset (die : Nat) (s : State) : Out State :=
  if die < 8 then .next (setDie die { dieAt s die with inReset := true } s)
  else .refused (.notDue "DIE_CORES_IN_RESET")

/-! ## The host's accesses (R245, R256) -/

/-- A host store; in a PCIe mode one to a host line wakes no WATCH (R291). -/
def hostStore (at_ : Nat) (data : List Byte) (s : State) : State :=
  if isHost at_ then
    let l := data.mapIdx fun k b => (at_ + k, b)
    if pcieMode s.hostLink then { s with mem := spSetAll 0 s.mem l } else writeBytes ⟨s.me.num, 15, 0⟩ l s
  else writeBytes ⟨s.me.num, 15, 0⟩ (data.mapIdx fun k b => (hostAtom s (at_ + k), b)) s

/-- HOST_ACCESS (R245, R256): a load changes nothing on the device; a store is applied at the atom's home. Without verified
firmware the device offers no CXL.mem, and the access does not reach HBM (R303). -/
def execHostAccess (dpa : Nat) (data : Option (List Byte)) (size : Nat) (s : State) : Out State :=
  if dpa + size ≤ 2 ^ 39 ∨ (isHost dpa ∧ dpa + size ≤ 2 ^ 61) then
    match data with
    | some bs => .next (if s.fw.running || isHost dpa then hostStore dpa (bs.take size) s else s)
    | none => .next s
  else .fault (.noSuchHome dpa)

end Sys2Proof.Machine
end

