-- ==== Sys2Proof/Machine/Image.lean ====
section
/-!
DEFINITION. Loading an image (R53 to R58, R110, R151, R152, R279, R311): didex resolves and checks everything first, and
then writes the sections and the vector, layout and segment entries and registers the kernels, or refuses the whole load,
changes nothing, and reports a line for each relocation that failed. Kernel descriptors and records are read from the
relocated bytes of their sections.
-/

namespace Sys2Proof.Machine

/-! ## Relocations (R57) -/

/-- How a relocation type writes its field: bytes of the site, bits of the field. -/
def relocField (type : Nat) : Option (Nat × Nat) :=
  match type with
  | 0 => some (0, 0)
  | 1 => some (8, 64)
  | 2 => some (4, 32)
  | 3 => some (8, 57)
  | 4 => some (4, 25)
  | 5 => some (4, 18)
  | 6 => some (4, 8)
  | 7 => some (4, 15)
  | 8 => some (4, 11)
  | 9 => some (4, 18)
  | 10 => some (4, 18)
  | 11 => some (4, 18)
  | 12 => some (4, 18)
  | 13 => some (4, 18)
  | _ => none

/-- v lies in the signed range of n bits. -/
def fitsSigned (n : Nat) (v : Int) : Bool := decide (-(2 : Int) ^ (n - 1) ≤ v) && decide (v < (2 : Int) ^ (n - 1))

/-- The least w with v < 2^w: 0 for a negative value (R58). -/
def bitsUnsigned (v : Int) : Nat := if v ≤ 0 then 0 else Nat.log2 v.toNat + 1

/-- The least w with -2^(w - 1) ≤ v < 2^(w - 1) (R58). -/
def bitsSigned (v : Int) : Nat := bitsUnsigned (if v < 0 then -v - 1 else v) + 1

/-- A signed field of n bits: v, or what is wrong with it. -/
def signedField (n : Nat) (v : Int) : Except LoadWhy Int :=
  if fitsSigned n v then .ok v else .error (.needs v (bitsSigned v) n)

/-- An unsigned field of n bits. -/
def unsignedField (n : Nat) (v : Int) : Except LoadWhy Int :=
  if 0 ≤ v ∧ v < (2 : Int) ^ n then .ok v else .error (.needs v (bitsUnsigned v) n)

/-- A displacement in pairs, in n bits. The remainder that the report gives of a displacement that is no multiple of 8 is the
one from 0 to 7, for a negative displacement too. DESIGN CHOICE (log entry 68). -/
def dispField (n : Nat) (d : Int) : Except LoadWhy Int :=
  if d % 8 = 0 then signedField n (d / 8) else .error (.misaligned (d % 8).toNat)

/-- The value of a relocation of a type at address `site`, whose symbol plus addend is worth `sa`, or why it fails
(R57, R58). -/
def relocValue (type : Nat) (sa : Int) (site : Nat) : Except LoadWhy Int :=
  let d := sa - (site / 8 * 8 : Nat)
  let u := (sa % (2 : Int) ^ 64).toNat
  match type with
  | 0 => .ok 0
  | 1 => .ok sa
  | 2 => unsignedField 32 sa
  | 3 => unsignedField 57 sa
  | 4 => dispField 25 d
  | 5 => dispField 18 d
  | 6 => dispField 8 d
  | 7 => dispField 15 d
  | 8 => signedField 11 sa
  | 9 => signedField 18 sa
  | 10 => .ok ((BitVec.ofNat 10 (u / 2 ^ 54)).toInt)
  | 11 => .ok (u / 2 ^ 36 % 2 ^ 18 : Nat)
  | 12 => .ok (u / 2 ^ 18 % 2 ^ 18 : Nat)
  | 13 => .ok (u % 2 ^ 18 : Nat)
  | _ => .error .unknownType

/-- A field of `n` bits at bit 0 of the number `old`, replaced. -/
def patchBits (old n : Nat) (v : Int) : Nat := old / 2 ^ n * 2 ^ n + (v % (2 : Int) ^ n).toNat

/-- The bytes of an image, by virtual address. -/
def imageBytes (x : Image) : Sp Byte :=
  x.sections.foldl (fun m e => spSetAll 0 m (e.bytes.mapIdx fun k b => (e.addr + k, b))) []

/-- The name at an offset of .strtab, without the 0 that ends it. -/
def nameAt (strtab : List Byte) (off : Nat) : List Byte := (strtab.drop off).takeWhile (· ≠ 0)

/-- A relocation's value, or why it fails (R57, R58). -/
def resolved (x : Image) (r : Reloc) : Except LoadWhy Int :=
  match (x.symbols[r.symbol]?).bind (·.value), x.sections[r.sect]? with
  | some v, some e => relocValue r.type ((v : Int) + r.addend) (e.addr + r.off)
  | none, _ => .error .undefined
  | _, none => .error .unknownType

/-- The line that didex reports of a relocation, if it fails (R58). -/
def reportOf (x : Image) (r : Reloc) : Option LoadLine :=
  match resolved x r with
  | .ok _ => none
  | .error why => some {
      type := r.type, symbol := nameAt x.strtab (((x.symbols[r.symbol]?).map (·.name)).getD 0), sect := r.sect, off := r.off
      file := ((x.sections[r.sect]?).map (·.file)).getD "", why := why }

/-- The order of the report: section index, then offset (R58). Lines equal in both keep the order of the image's relocations.
DESIGN CHOICE (log entry 68). -/
def lineBefore (a b : LoadLine) : Bool := decide (a.sect < b.sect) || (a.sect == b.sect && decide (a.off ≤ b.off))

/-- A line put in its place. -/
def placeLine (l : LoadLine) : List LoadLine → List LoadLine
  | [] => [l]
  | x :: xs => if lineBefore l x then l :: x :: xs else x :: placeLine l xs

/-- Didex's report of an image: a line for each relocation that fails, sorted (R58). -/
def report (x : Image) : List LoadLine := (x.relocs.filterMap (reportOf x)).foldr placeLine []

/-- A relocation applied to the image's bytes. The spec does not say what a site outside its section is: it is neither refused nor
reported, and of what it patches only bytes of sections are placed. DESIGN CHOICE (log entry 68). -/
def relocate (x : Image) (m : Sp Byte) (r : Reloc) : Sp Byte :=
  match resolved x r, relocField r.type, x.sections[r.sect]? with
  | .ok v, some (n, w), some e =>
    let at_ := e.addr + r.off
    let old := leNat ((List.range n).map fun k => spGet 0 m (at_ + k))
    spSetAll 0 m ((leBytes n (patchBits old w v)).mapIdx fun k b => (at_ + k, b))
  | _, _, _ => m

/-- The image's bytes with every relocation applied. -/
def relocated (x : Image) : Sp Byte := x.relocs.foldl (relocate x) (imageBytes x)

/-! ## Records, read from the relocated bytes -/

/-- The n-byte records of an image's sections of a name, in order. -/
def recordsIn (x : Image) (m : Sp Byte) (name : String) (n : Nat) : List (List Byte) :=
  (x.sections.filter fun e => e.name == name).flatMap fun e =>
    (List.range (e.bytes.length / n)).map fun k => (List.range n).map fun j => spGet 0 m (e.addr + n * k + j)

/-- Bytes lo to lo + n - 1 of a record, as a number. -/
def field (b : List Byte) (lo n : Nat) : Nat := leNat ((b.drop lo).take n)

/-- The kernel descriptors (R55). -/
def kernelsIn (x : Image) : List (List Byte) := recordsIn x (relocated x) ".zx.kernels" 32
/-- The layout records (R56). -/
def layoutsIn (x : Image) : List (List Byte) := recordsIn x (relocated x) ".zx.layouts" 128
/-- The vector records (R56). -/
def vectorsIn (x : Image) : List (List Byte) := recordsIn x (relocated x) ".zx.vectors" 16
/-- The segment descriptors (R151). -/
def segmentsIn (x : Image) : List (BitVec 256) :=
  (recordsIn x (relocated x) ".zx.segments" 32).map fun b => BitVec.ofNat 256 (leNat b)

/-- N of a layout record. -/
def layoutNum (b : List Byte) : Nat := field b 64 1
/-- ENTRY of a layout record. -/
def layoutEntry (b : List Byte) : Rec := BitVec.ofNat 512 (field b 0 64)
/-- TYPE of a vector record. -/
def vectorType (b : List Byte) : Nat := field b 8 1

/-! ## The checks of the first pass -/

/-- The header values of R53. -/
def headerGood (x : Image) : Bool :=
  x.eiClass == 2 && x.eiData == 1 && x.eiVersion == 1 && x.version == 1 && (x.eType == 1 || x.eType == 2) &&
  x.machine == 0xF960 && x.flags == 1

/-- A section's name, flags and alignment (R54), which for .data is what a .align has given, 8 to 65,536; whole pairs, descriptors or records in it, and it stands at its alignment. -/
def sectionGood (e : Section) : Bool :=
  (match e.name with
    | ".text" => e.alloc && !e.write && e.exec && e.align == 8 && e.bytes.length % 8 == 0
    | ".data" => e.alloc && e.write && !e.exec && (List.range 14).any (fun k => e.align == 2 ^ (k + 3))
    | ".zx.kernels" => e.alloc && !e.write && !e.exec && e.align == 8 && e.bytes.length % 32 == 0
    | ".zx.layouts" => e.alloc && !e.write && !e.exec && e.align == 64 && e.bytes.length % 128 == 0
    | ".zx.segments" => e.alloc && !e.write && !e.exec && e.align == 32 && e.bytes.length % 32 == 0
    | ".zx.vectors" => e.alloc && !e.write && !e.exec && e.align == 8 && e.bytes.length % 16 == 0
    | _ => false) && e.addr % e.align == 0

/-- A symbol's binding and type, and it is defined (R58); an STT_FUNC symbol is a kernel's name, with the size of that kernel's
text (R54). -/
def symbolGood (x : Image) (y : Symbol) : Bool :=
  y.bind != .other && y.kind != .other && y.value.isSome &&
  (y.kind != .func || (kernelsIn x).any fun b =>
    field b 20 4 == y.size && nameAt x.strtab (field b 8 8) == nameAt x.strtab y.name)

/-- A kernel's name is an STT_FUNC symbol whose st_size is the size of its text (R54). -/
def namedKernel (x : Image) (name size : Nat) : Bool :=
  x.symbols.any fun y => y.kind == .func && y.size == size && nameAt x.strtab y.name == nameAt x.strtab name

/-- A kernel descriptor within its limits (R54, R55). -/
def kernelGood (x : Image) (b : List Byte) : Bool :=
  field b 24 8 == 0 && field b 20 4 % 8 == 0 && field b 19 1 == 0 && decide (field b 18 1 < 4) && field b 16 2 % 8 == 0 &&
  decide (8 ≤ field b 16 2) && decide (field b 16 2 ≤ 128) && decide (field b 8 8 < x.strtab.length) &&
  decide (field b 0 8 < 2 ^ 57) && field b 0 8 % 8 == 0 && namedKernel x (field b 8 8) (field b 20 4)

/-- A vector record that didex accepts (R56). -/
def vectorGood (b : List Byte) : Bool :=
  field b 11 5 == 0 && decide (field b 10 1 < 2) && decide (vectorType b < 0x80) && decide (field b 0 8 < 2 ^ 57) &&
  field b 0 8 % 8 == 0

/-- A layout record that didex accepts: no reserved bit is set (R56). The limits of R279 are checked by the store that writes an
entry, and R56 lists none of them. DEDUCED (log entry 68). -/
def layoutGood (b : List Byte) : Bool :=
  field b 65 63 == 0 && decide (layoutNum b < 64) && recNat (layoutEntry b) 44 20 == 0

/-- No two of a list are the same. -/
def distinct (l : List Nat) : Bool := l.eraseDups.length == l.length

/-- The descriptor as the 64-byte record that the segment port would take. -/
def dscOf (b : BitVec 256) : Rec := b.setWidth 512

/-- A segment descriptor that didex accepts for this context (R150, R151). -/
def segmentGood (s : State) (b : BitVec 256) : Bool :=
  let r := dscOf b
  s.ctx.tracks.contains (dscTrack r) && (dscFault r (if dscOn r then dscEntry r else dscEntry r + 1)).isNone

/-- Entry e of a track is held. -/
def heldAt (k : Track) (e : Nat) : Bool := match k.segs[e]? with | some g => g.hold | none => false

/-- A track's entries, by number, after the image's descriptors for it; a held entry stays held, since only firmware clears HOLD
(R151). -/
def loadedSegs (x : Image) (t : Nat) (k : Track) : Sp (Option Segment) :=
  (segmentsIn x).foldl (fun m b =>
    let r := dscOf b
    if dscTrack r = t then
      spSet none m (dscEntry r) (if dscOn r then some { dscSegment r with hold := heldAt k (dscEntry r) } else none)
    else m)
    (k.segs.mapIdx fun j g => (j, some g))

/-- The entries with ON are exactly 0 to E - 1 (R152). -/
def noGap (m : Sp (Option Segment)) : Bool := (m.mapIdx fun j e => e.1 == j).all id

/-- The tracks that an image's descriptors name. -/
def imageTracks (x : Image) : List Nat := ((segmentsIn x).map fun b => dscTrack (dscOf b)).eraseDups

/-- The type of the next kernel: the lowest from 0x80 that no kernel of the context holds (R110). -/
def nextType (ks : List Kernel) : Nat :=
  (((List.range 112).map (0x80 + ·)).find? fun t => !(ks.any fun k => k.type == t)).getD 0

/-- The kernels of the context with an image's kernels registered in order. -/
def registerAll (ks : List Kernel) (ds : List (List Byte)) : List Kernel :=
  ds.foldl (fun ks d => ks ++ [⟨nextType ks, field d 0 8, field d 18 1, field d 16 2⟩]) ks

/-- Where the byte at a virtual address goes: the walk's page, through a re-stripe under way. -/
def loadHome (s : State) (va : Nat) : Option Nat := (walk s va).map fun t => homeIn s t va

/-- Every check of the first pass beside the relocations. DEDUCED (log entry 56). -/
def imageGood (s : State) (x : Image) : Bool :=
  headerGood x && x.sections.all sectionGood && x.symbols.all (symbolGood x) && x.relocs.all (·.rela) &&
  (kernelsIn x).all (kernelGood x) && (vectorsIn x).all vectorGood && (layoutsIn x).all layoutGood &&
  distinct ((vectorsIn x).map vectorType) && distinct ((layoutsIn x).map layoutNum) && (segmentsIn x).all (segmentGood s) &&
  (imageTracks x).all (fun t => noGap (loadedSegs x t (trackAt s t))) &&
  decide (s.kernels.length + (kernelsIn x).length ≤ 112)

/-! ## The second pass -/

/-- A vector-table entry (R110) with PRV 0. -/
def vectorWord (en : Bool) (cls prio win handler : Nat) : Word :=
  BitVec.ofNat 64 (en.toNat * 2 ^ 63 + cls % 4 * 2 ^ 60 + prio % 4 * 2 ^ 58 + win % 16 * 2 ^ 54 + handler / 8 % 2 ^ 54)

/-- The entry of a vector record (R56, R110). -/
def recordVector (b : List Byte) : Nat × Word :=
  let cw := field b 9 1
  (vectorType b, vectorWord (field b 10 1 == 1) (cw % 4) (cw / 4 % 4) (cw / 16) (field b 0 8))

/-- The vector entries that a load writes: those of its vector records, and those of the kernels it registers. -/
def loadVectors (x : Image) (before after : List Kernel) : List (Nat × Word) :=
  (vectorsIn x).map recordVector ++
  (after.drop before.length).map fun k => (k.type, vectorWord true k.cls 0 (k.win / 8 - 1) k.entry)

/-- The entries of a core's tables (R110, R311). -/
def loadTables (x : Image) (vs : List (Nat × Word)) (m : Core) : Core :=
  { m with
    vectors := spSetAll 0 m.vectors vs
    layouts := spSetAll 0 m.layouts ((layoutsIn x).map fun b => (layoutNum b, layoutEntry b)) }

/-- A track's entries after the load. -/
def loadTrack (x : Image) (s : State) (t : Nat) : State :=
  let k := trackAt s t
  let segs := (loadedSegs x t k).filterMap (·.2)
  setTrack t (logPos s.clock { k with segs := segs, cursor := if segs.length ≤ k.cursor then 0 else k.cursor }) s

/-- The bytes of an image at their homes, if every one of its pages is mapped. -/
def placed (s : State) (m : Sp Byte) (x : Image) : Option (List (Nat × Byte)) :=
  (x.sections.flatMap fun e => (List.range e.bytes.length).map (e.addr + ·)).mapM fun va =>
    (loadHome s va).map fun h => (h, spGet 0 m va)

/-- The image is loaded. -/
def loadImage (x : Image) (bytes : List (Nat × Byte)) (s : State) : State :=
  let ks := registerAll s.kernels (kernelsIn x)
  let vs := loadVectors x s.kernels ks
  let s := writeBytes ⟨s.me.num, 15, 2⟩ bytes s
  let s := { s with kernels := ks, fw := { s.fw with digests := s.fw.digests ++ [x.digest] } }
  let s := s.ctx.cores.foldl (fun s c => withCore c (fun s => { s with me := loadTables x vs s.me }) s) s
  (imageTracks x).foldl (loadTrack x) s

/-- What a load writes, if didex accepts it (R58). DEDUCED (log entry 56). -/
def accepted (s : State) (x : Image) : Option (List (Nat × Byte)) :=
  if (report x).isEmpty && imageGood s x then placed s (relocated x) x else none

/-- The load is refused: nothing but didex's report changes (R58). -/
def refuseLoad (x : Image) (s : State) : State := { s with fw := { s.fw with failure := some (report x) } }

/-- IMAGE_LOAD (R58), while firmware runs a resident context. DESIGN CHOICE (log entry 68). -/
def execImageLoad (img : Image) (s : State) : Out State :=
  if s.fw.running && s.switch == .resident && !s.ctx.cores.isEmpty then
    match accepted s img with
    | some l => .next (loadImage img l s)
    | none => .next (refuseLoad img s)
  else .refused (.notDue "IMAGE_LOAD")

end Sys2Proof.Machine
end

