-- ==== Sys2Proof/Machine/Push.lean ====
section
/-!
DEFINITION. STV (R265), with the control window that it pushes records into (R197, R207, R221, R279, R313, R336,
R374), and the pushes as the table's own rows.
-/

namespace Sys2Proof.Machine

/-- A push to a port of the control window by its offset. -/
def pushPort (off : Nat) (r : Rec) (s : State) : Option (Out State) :=
  match off with
  | 0x0800 => some (pushMatrix r s)
  | 0x0A00 => some (pushTransfer r s)
  | 0x0B00 => some (pushSort r s)
  | 0x0B40 => some (pushCollective r s)
  | 0x0C00 => some (dscWrite r s)
  | 0x0D00 => some (pushReproj r s)
  | _ => none

/-- The formats of which an STV writes 64 bytes as they are. -/
def rawRecord (fmt : Nat) : Bool := [0x00, 0x01, 0x02, 0x13].contains fmt

/-- STV to a formed address: a push where the address is a port's and the pointer RAW, a layout entry's where it is
one, and memory otherwise. -/
def stvAt (p : Word) (base : Nat) (ws : List Word) (imm : BitVec 7) (s : State) : Out State :=
  let o := base - Config.controlWindow
  if Config.controlWindow ≤ base ∧ fmtOf p = 0x00 ∧ (pushPort o 0 s).isSome then
    (pushPort o (recOf ws) s).getD (storeVec false ws p imm s)
  else if Config.controlWindow + 0x1000 ≤ base ∧ base < Config.controlWindow + 0x2000 ∧ o % 64 = 0 ∧
      rawRecord (fmtOf p) then
    layoutWrite ((o - 0x1000) / 64) (recOf ws) s
  else storeVec false ws p imm s

/-- STV (R265). -/
def execStv (d : BitVec 4) (a imm : BitVec 7) (s : State) : Out State :=
  enter ⟨[.v d, .g a], []⟩ s fun s =>
    vecBase (rd s a) imm s fun base s => stvAt (rd s a) base (rdV s d) imm s

/-- The record with KIND k in byte 0. -/
def withKind (k : Nat) (r : Rec) : Rec := (r >>> 8) <<< 8 ||| BitVec.ofNat 512 k

/-- A layout-table entry written (R279). -/
def execLayoutEntryWrite (n : BitVec 6) (r : Rec) (s : State) : Out State := enter ⟨[], []⟩ s fun s => layoutWrite n.toNat r s

/-- XCOPY (R280): its push. -/
def execXcopy (r : Rec) (s : State) : Out State := enter ⟨[], []⟩ s fun s => pushTransfer (withKind 0x20 r) s
/-- XSTRIPE (R208): its push. -/
def execXstripe (r : Rec) (s : State) : Out State := enter ⟨[], []⟩ s fun s => pushTransfer (withKind 0x21 r) s
/-- XSCAN (R285): its push. -/
def execXscan (r : Rec) (s : State) : Out State := enter ⟨[], []⟩ s fun s => pushTransfer (withKind 0x22 r) s
/-- XFILL (R284): its push. -/
def execXfill (r : Rec) (s : State) : Out State := enter ⟨[], []⟩ s fun s => pushTransfer (withKind 0x23 r) s
/-- MXMAC (R316, R367): its push. -/
def execMxmac (r : Rec) (s : State) : Out State := enter ⟨[], []⟩ s fun s => pushMatrix (withKind 0x10 r) s
/-- MXWLD (R369): its push. -/
def execMxwld (r : Rec) (s : State) : Out State := enter ⟨[], []⟩ s fun s => pushMatrix (withKind 0x11 r) s
/-- MXEPI (R371): its push. -/
def execMxepi (r : Rec) (s : State) : Out State := enter ⟨[], []⟩ s fun s => pushMatrix (withKind 0x12 r) s
/-- MXZERO (R370): its push. -/
def execMxzero (r : Rec) (s : State) : Out State := enter ⟨[], []⟩ s fun s => pushMatrix (withKind 0x13 r) s
/-- RTSORT (R313): its push. -/
def execRtsort (r : Rec) (s : State) : Out State := enter ⟨[], []⟩ s fun s => pushSort (withKind 0x30 r) s
/-- REPROJ (R200, R201): its push. -/
def execReproj (r : Rec) (s : State) : Out State := enter ⟨[], []⟩ s fun s => pushReproj (withKind 0x50 r) s
/-- A2AV (R375): its push. -/
def execA2av (r : Rec) (s : State) : Out State := enter ⟨[], []⟩ s fun s => pushCollective (withKind 0x40 r) s
/-- AREDUCE (R376): its push. -/
def execAreduce (r : Rec) (s : State) : Out State := enter ⟨[], []⟩ s fun s => pushCollective (withKind 0x41 r) s
/-- AGATHER (R376): its push. -/
def execAgather (r : Rec) (s : State) : Out State := enter ⟨[], []⟩ s fun s => pushCollective (withKind 0x42 r) s
/-- RSCATTER (R376): its push. -/
def execRscatter (r : Rec) (s : State) : Out State := enter ⟨[], []⟩ s fun s => pushCollective (withKind 0x43 r) s

end Sys2Proof.Machine
end

