-- ==== Sys2Proof/Machine/Cycle.lean ====
section
/-!
DEFINITION. A cycle: what is due without a word (the parts of the package that act on their own), which slot issues
(R15, R21, R22), fetching its pair (R39, R122, R236), issuing it (R34, R35, R48), and the order of what reaches memory in a
cycle (R27, R247). `ex` is the meaning of an instruction.
-/

namespace Sys2Proof.Machine

/-! ## Fetch -/

/-- An issue of slot k begins. A fault on the fetch of a pair that RETT has gone to belongs to word 0 (R82, R87); an issue that
forfeits at a bank gives back the slot's last issue time (R27). -/
def beginIssue (k sp : Nat) (s : State) : State :=
  let c := slotOf s k
  { s with
    me := { s.me with
      slots := spSet emptySlot s.me.slots k { c with lastIssue := some s.clock, forfeited := [] }, spare := sp }
    iss :=
      { slot := k, pa := c.pa, word := if c.landed then 0 else c.widx, par := false, latch := none, cycle := s.clock
        res := .running, prev := c.lastIssue } }

/-- A word at a home, little-endian (R39). -/
def word32At (s : State) (h : Nat) : BitVec 32 :=
  wordOfBytes (memAt s h) (memAt s (h + 1)) (memAt s (h + 2)) (memAt s (h + 3))

/-- The pair at the slot's position, once its page is translated and may be executed, and its line is in the core's
buffer; a poisoned pair traps (R122, R126, R233, R236). The pair's words are read from memory at the issue, so a line that
stands in the buffer shows a store made to it after it arrived: the spec does not say which it shows.
DESIGN CHOICE (log entry 16). -/
def fetchPair (s : State) (k : BitVec 32 → BitVec 32 → State → Out State) : Out State :=
  let pa := s.iss.pa
  onCheck (checkAccess s s.me.itlb false [(pa, .execute)]) s fun pages s =>
    let s := { s with me := { s.me with itlb := touchTlb s.iss.slot pages s.me.itlb } }
    if !s.me.lines.contains (pa / 64) then park (.fetchLine (pa / 64)) s
    else
      let h := homeOf s pages pa
      if isBad s h then trap cPoison (BitVec.ofNat 64 pa) s
      else k (word32At s h) (word32At s (h + 4)) (onCur (fun c => { c with landed := false }) s)

/-! ## Issue (R34, R35, R48) -/

/-- A word alone: its one form, or the ILLEGAL trap of R47. -/
noncomputable def runWord (ex : Instr → State → Out State) (w : BitVec 32) (s : State) : Out State :=
  match decodeWord w with
  | some i => ex i s
  | none => ex (.unassignedEncoding w) s

/-- A parallel pair, from order 2 of R48 on. -/
noncomputable def runParallel (ex : Instr → State → Out State) (w0 w1 : BitVec 32) (s : State) : Out State :=
  if classA w0 then trap cIllegal (w0.setWidth 64) (onWord 0 s)
  else if !classA w1 then trap cIllegal (w1.setWidth 64) (onWord 1 s)
  else
    match decodeWord w0, decodeWord w1 with
    | some i0, some i1 => runPair ex i0 i1 s
    | none, _ => ex (.unassignedEncoding w0) (onWord 0 s)
    | some _, none => ex (.unassignedEncoding w1) (onWord 1 s)

/-- The word of the pair that issues now, with its bit 31 as it stands in memory. -/
def onPattern (n : Nat) (bit31 : Bool) (s : State) : State :=
  let s := onWord n s
  { s with iss := { s.iss with bit31 := bit31 } }

/-- The pair issues: word 1 of a serial pair alone, if the slot has come to it; any other pair at its word 0, a parallel
pair whole whatever word RETT named (R35, R36, R87). -/
noncomputable def issuePair (ex : Instr → State → Out State) (w0 w1 : BitVec 32) (s : State) : Out State :=
  if pBit w0 ∧ (cur s).widx ≠ 0 then runWord ex w1 (onPattern 1 (pBit w1) s)
  else
    let s := onPattern 0 (pBit w0) (onCur (fun c => { c with widx := 0 }) s)
    if pBit w1 ∨ (w0 = 0 ∧ w1 = 0) then trap cIllegal (w1.setWidth 64) s
    else if pBit w0 then runWord ex w0 s
    else runParallel ex w0 w1 s

/-- The turn of slot k. -/
noncomputable def issueSlot (ex : Instr → State → Out State) (k sp : Nat) (s : State) : Out State :=
  fetchPair (beginIssue k sp s) (issuePair ex)

/-! ## A core's part of a cycle -/

/-- The core acting has taken its part of the cycle: its count of resident cycles advances (R131). -/
def endTurn (s : State) : State :=
  { newTurn s with me := { s.me with bellCount := if runsHere s then s.me.bellCount + 1 else s.me.bellCount } }

/-- The slot that issues on the core acting has its turn. -/
noncomputable def issueTurn (ex : Instr → State → Out State) (s : State) : Out State :=
  match issuing s with
  | some (k, sp) => issueSlot ex k sp s
  | none => .next s

/-- Core c as it stands when its slot issues: waits that are over are settled. -/
def turnState (c : Nat) (s : State) : State := settle (atZero (focus c s))

/-- Core c takes its part of the cycle; `rest` is what is left of the cycle after it. -/
noncomputable def coreTurn (ex : Instr → State → Out State) (c : Nat) (rest : List Turn) (s : State) : Out State :=
  onNext endTurn (issueTurn ex (turnState c { s with todo := rest }))

/-! ## What is due -/

/-- A step that may be due, on a core. -/
abbrev Due := Nat × Instr

/-- Steps on a core. -/
def at_ (c : Nat) (l : List Instr) : List Due := l.map fun i => (c, i)

/-- An access, or one of its atoms, may be applied. -/
def accReady (now : Nat) (a : Access) : Bool := decide (a.due ≤ now) || a.parts.any fun p => decide (p.2 ≤ now)

/-- The accesses of slot k of the core acting that may be applied. -/
noncomputable def accessDue (s : State) (k : Nat) : List Instr :=
  ((s.me.relaxed.filter fun a => a.slot == k && accReady s.clock a).map fun a => Instr.relaxedAccessComplete a.id) ++
    (match (slotOf s k).st with
      | .waiting (.reply a) => if accReady s.clock a then [.blockingReply k] else []
      | _ => [])

/-- What slot k of a core may have due besides, while the context runs or stops. -/
noncomputable def slotDue (now k : Nat) (x : Slot) : List Instr :=
  match x.st with
  | .held stop => if stop ≤ now then [.holdEnd k] else []
  | .waiting (.lainf due _ _) => if due ≤ now then [.lainfComplete k] else []
  | _ => []

/-- What slot k may have due only while the context is resident: wakes and departures (R133). A thread that waits for its drains
before a migration (R235 step 1) as the request comes departs no more: it is saved at its pair; 'migrations in flight' in
R133 does not say whether it has begun. DESIGN CHOICE (log entry 43). -/
noncomputable def parkedDue (k : Nat) (x : Slot) : List Instr :=
  match x.st with
  | .waiting (.migrate _ _) => [.migrationDepart k]
  | .parked (.tlb va _) => [.l2TlbHit k, .walkComplete va]
  | .parked (.fetchLine l) => [.fetchLineBroadcast l]
  | .parked (.lineup n pa _) => [.lineupRelease n pa x.tag, .lineupTimeout n pa x.tag]
  | _ => []

/-- The classes, in an order that turns from cycle to cycle, so that none of them waits for long (R118).
DESIGN CHOICE (log entry 69). -/
def waitingClasses (now : Nat) (m : Core) : List Nat :=
  if m.mbox.any fun x => !hdrDk x.hdr then (List.range 4).rotateLeft (now % 4) else []

/-- The matrix engine works: a stopping context's engine only retires the step in flight (R133, R134).
DEDUCED (log entry 65). -/
def matrixRuns (resident : Bool) (m : Core) : Bool := resident || m.inFlight.isSome

/-- What a core may have due that reaches no memory. -/
noncomputable def coreSteps (resident : Bool) (now : Nat) (m : Core) : List Instr :=
  [Instr.energyRefill, .rotationSwitch] ++
    m.slots.flatMap (fun e => slotDue now e.1 e.2) ++
    (if matrixRuns resident m then [.kindleEnd, .quenchEnd] else []) ++
    (if resident then m.slots.flatMap (fun e => parkedDue e.1 e.2) ++ [.bellRing] else []) ++
    (if m.trace.length < 2048 then [] else [.traceRingDrain]) ++ (if m.la.queue.isEmpty then [] else [.laClauseUpdate]) ++
    (if m.devWait.isEmpty then [] else [.deviceMessageEntry]) ++
    (waitingClasses now m).map fun k => .waitingMessageStart k

/-- The message that arrives next: of those due, the one from the lowest sender, the earliest among equals (R123); it starts
its thread at once, if it can, whatever the PRIO of another that arrives in the cycle. DESIGN CHOICE (log entry 69). -/
def nextArrival (s : State) : Option NetMsg :=
  (s.net.filter fun n => decide (n.due ≤ s.clock)).foldl (fun best n =>
    match best with
    | none => some n
    | some b => if hdrFrom n.msg.hdr < hdrFrom b.msg.hdr then some n else best) none

/-- Messages and barrier wakes that may be due. -/
noncomputable def networkDue (s : State) : List Due :=
  (match nextArrival s with | some n => [(hdrCore n.msg.hdr, .messageArrival n.msg)] | none => []) ++
  (s.wakes.map fun w => (s.me.num, .barrierWake w.scope w.cell w.id w.phase))

/-- What the dispatch queues of a die's clusters may have due. -/
noncomputable def dieSteps (s : State) (d : Nat) : List Instr :=
  (List.range 4).flatMap fun j =>
    if (clusterAt s (4 * d + j)).dispatch.isEmpty then [] else [.dynamicTaskDispatch (4 * d + j)]

/-- What the principal of a die may have due, in the turn of the die's first partition core: it is slot 15 of the die's first core, so
its accesses rank after those of that core's other slots and before those of every later core (R106, R247). -/
noncomputable def principalSteps (s : State) (c : Nat) : List Due :=
  let d := dieOf c
  if (s.ctx.cores.find? fun x => dieOf x == d) = some c then at_ (principalCore d) ((launchBases s d).map fun b => Instr.launchRecord d b)
  else []

/-- The controller's read of the block that track t delivers now fails (R152, R174). -/
def readFails (s : State) (t : Nat) : Bool := s.inputs.any (failsRead t s.clock)

/-- What the carousel may have due. Blocks that several tracks deliver in one cycle are taken, and enter a catch ring, in the order
of the context's list of tracks. DESIGN CHOICE (log entry 75). -/
noncomputable def carouselSteps (s : State) : List Instr :=
  [Instr.controllerTake] ++ s.ctx.tracks.map (fun t => .segmentCall t) ++
    s.ctx.tracks.map (fun t => .blockDelivery t (readFails s t)) ++
    s.ctx.tracks.flatMap fun t =>
      ((trackAt s t).segs.mapIdx fun j (g : Segment) => if g.hold then [Instr.holdClear t j] else []).flatten

/-- The command that waits on the command line of the context that holds the package (R292, R293). -/
noncomputable def commandOf (s : State) : Instr :=
  let a := (cmdWord s 1).toNat
  let b := (cmdWord s 2).toNat
  match (cmdOp s).toNat with
  | 0x01 => .qreg a b
  | 0x02 => .qreset a
  | 0x03 => .qremove a
  | 0x10 => .ckpt
  | 0x11 => .pcap a
  | 0x12 => .conn a (cmdWord s 2)
  | 0x20 => .attest a b
  | _ => .refusedCommand (cmdOp s)

/-- The command that firmware acts on next. -/
noncomputable def commandDue (s : State) : List Due :=
  if commandWaits s then [(s.me.num, commandOf s)]
  else match (awayWaiting s).head? with
    | some (_, x) => [(s.me.num, commandOf (seenBy x s))]
    | none => []

/-- The request that firmware makes because the bell of a core has rung and another context is ready for the partition (R131). -/
def bellDue (s : State) : List Due :=
  if s.switch == .resident && (s.ctx.cores.any fun c => (coreOf s c).rung) then [(s.me.num, .preemptionRequest)] else []

/-- Links whose flits are sent again, or that take a fresh key (R296). -/
noncomputable def linkDue (s : State) : List Due :=
  s.links.flatMap fun e => at_ s.me.num
    ((if e.2.sent.any (overdue s.clock) then [.linkReplay e.1] else []) ++ (if 2 ^ 40 ≤ e.2.flits then [.linkRekey e.1] else []))

/-! ## What reaches memory (R27, R247) -/

/-- The transfer engine's next step (R207, R212, R213): a stopping context's engine rests at 4 KiB boundaries, and completes a
scan that has read its whole range (R134). DEDUCED (log entry 65). -/
noncomputable def transferSteps (resident : Bool) (m : Core) : List Instr :=
  match m.xq with
  | c :: _ =>
    if engKind c.recd = 0x21 then
      (if resident ∨ c.done % 4096 ≠ 0 then [.xstripeAtomSwitch, .shootdownPassed] else [])
    else if resident ∨ !c.out.isEmpty ∨ (engKind c.recd = 0x22 ∧ scanDone c) then [.scanComplete, .transferChunk]
    else []
  | [] => []

/-- The units of a core that reach no memory but its scratchpad. -/
noncomputable def bankSteps (resident : Bool) (m : Core) : List Instr :=
  (if m.la.queue.isEmpty then [] else [.inferenceRecord]) ++
    (if m.work.isEmpty ∧ (m.ring.isEmpty ∨ (!resident ∧ m.ringRec = 0)) then [] else [.recordTest])

/-- Core c pushed the command. -/
def pushedBy (c : Nat) (x : EngCmd) : Bool := x.core == c

/-- The engines that rank under core c at a home (R27, R247): its intersection unit and its automaton array, its matrix engine, its
transfer engine, and its command at the head of a queue of its cluster or die. A reprojection record that has started runs on while
the context stops, and so does a started collective (R133). A reprojection record has started once its read of MAT has: one that
still waits for the page of MAT is saved as queued. DESIGN CHOICE (log entry 46). -/
noncomputable def engineSteps (resident : Bool) (s : State) (c : Nat) : List Due :=
  let d := dieOf c
  let v := dieAt s d
  let m := coreOf s c
  at_ c (bankSteps resident m ++ (if !m.mq.isEmpty && matrixRuns resident m then [.matrixStep] else []) ++ transferSteps resident m) ++
  at_ (principalCore d)
    ((match (clusterAt s (clusterOf c)).rq with | x :: _ => if pushedBy c x then [.routingRun (clusterOf c)] else [] | [] => []) ++
    (match v.pq with | x :: _ => if pushedBy c x ∧ (resident ∨ x.found = 1) then [.reprojRun d] else [] | [] => []) ++
    (match v.cq with
      | x :: _ =>
        if pushedBy c x.cmd then .collectiveComplete d :: (if resident then [.collectiveStart d []] else []) else []
      | [] => []))

/-- The context is resident or stopping, so its parts run. -/
def partsRun (s : State) : Bool := s.switch == .resident || s.switch == .stopping

/-- What may be due at the start of the present cycle, in the order in which it is tried: a migrating thread before a waiting
message (R112, R123, R235); the automaton array's own steps, so that a command whose last cycle has passed has left its queue
before a record comes (R381, R390); blocks and catches (R27, R373). Of several lines that wait at a cluster's fetch port, the one
wanted by the lowest slot of the lowest core is served. DESIGN CHOICE (log entry 66). DESIGN CHOICE (log entry 69). -/
noncomputable def startDue (s : State) : List Due :=
  let resident := s.switch == .resident
  (if partsRun s then
    (partDies s).map (fun d => (principalCore d, Instr.migrationArrival d)) ++
    s.ctx.cores.flatMap (fun c => at_ c (coreSteps resident s.clock (coreOf s c))) ++ networkDue s ++
    (partDies s).flatMap (fun d => at_ (principalCore d) (dieSteps s d)) ++ at_ s.me.num (carouselSteps s)
  else []) ++ bellDue s ++ commandDue s ++ linkDue s

/-- The accesses of core c's threads below its issuing slot that may be applied: they come before it at a home (R247). -/
noncomputable def threadsBefore (c : Nat) (s : State) : List Due :=
  if partsRun s then
    let k := ((issuing (turnState c s)).map (·.1)).getD 16
    (if c = principalCore (dieOf c) then [] else principalSteps s c) ++ at_ c ((List.range k).flatMap (accessDue (focus c s)))
  else []

/-- The accesses of core c's other threads that may be applied, its die's principal, if it sits there, and after them its engines
(R247). -/
noncomputable def threadsAfter (c : Nat) (s : State) : List Due :=
  if partsRun s then
    let m := coreOf s c
    at_ c ((List.range 16).flatMap (accessDue (focus c s)) ++ (if m.posted.isEmpty then [] else [.postedWriteDrain])) ++
      (if c = principalCore (dieOf c) then principalSteps s c else []) ++ engineSteps (s.switch == .resident) s c
  else []

/-- A step taken on a core. -/
def onCore (ex : Instr → State → Out State) (e : Due) (s : State) : Out State := ex e.2 (focus e.1 (newTurn s))

/-- A step that has nothing to do, or one whose write is not yet in turn (R257). -/
def passedOver (o : Out State) : Bool :=
  match o with
  | .refused _ => true
  | o => isEarly o

/-- The scratchpad banks that a step asks for (R27). -/
def askedBy (o : Out State) : List Nat :=
  match o with
  | .next t => t.asked.eraseDups
  | _ => []

/-- The banks that a step of group 3 asks for are those that were granted to it as the turns of the cycle began.
DESIGN CHOICE (log entry 16). -/
def served (s : State) (e : Due) (bs : List Nat) : Bool := bs.all (keptFor s e)

/-- A step's banks are granted to it. -/
def takeBanks (e : Due) (o : Out State) : Out State :=
  match o with
  | .next t =>
    if t.asked.isEmpty then .next t else .next { useBanks e (grantBanks (some e) true t.asked.eraseDups t) with asked := [] }
  | o => o

/-- The first of the steps that come about: one that would have nothing to do is passed over, and so is one that a replay or a
bank holds. DESIGN CHOICE (log entry 61). -/
def firstDue (ex : Instr → State → Out State) (s : State) : List Due → Option (Out State)
  | [] => none
  | e :: es =>
    if passedOver (onCore ex e s) || !served s e (askedBy (onCore ex e s)) then firstDue ex s es
    else some (takeBanks e (onCore ex e s))

/-! ## The grant of the banks (R27) -/

/-- The steps of a cycle's turns that may ask for a scratchpad bank in group 3: the engines, and accesses through the cluster
window. -/
noncomputable def groupThree (s : State) : List Due :=
  if partsRun s then
    s.ctx.cores.flatMap fun c =>
      engineSteps (s.switch == .resident) s c ++ at_ c ((List.range 16).flatMap (accessDue (focus c s)))
  else []

/-- The requests of group 3 in the order of their places: those that have been presented before and not been granted keep theirs,
and those that come now follow in rotating order (R27). DESIGN CHOICE (log entry 16). -/
noncomputable def ranked (s : State) : List Due :=
  let l := groupThree s
  (s.presented.filter (l.contains ·)) ++ (l.filter fun e => !s.presented.contains e).rotateLeft s.clock

/-- One request at its banks: each that is open is granted to it. With all of them it is served in this cycle; otherwise it has
forfeited, and is presented again for all (R27, R224). -/
def keepBanks (ex : Instr → State → Out State) (s : State) (e : Due) : State :=
  let o := onCore ex e s
  let bs := askedBy o
  if passedOver o || bs.isEmpty then s
  else
    let t := grantBanks (some e) false (bs.filter (bankOpen s)) s
    if bs.all (bankOpen s) then t else { t with presented := t.presented ++ [e] }

/-- As the turns of a cycle begin, each bank that no catch and no forfeited thread has is granted, once, over every request
presented to it (R27). -/
noncomputable def grantAll (ex : Instr → State → Out State) (s : State) : State :=
  (ranked s).foldl (keepBanks ex) { s with presented := [] }

/-- The first input whose cycle has come and that comes about; the others wait. -/
def firstInput (ex : Instr → State → Out State) (s : State) : List Input → Option (Out State)
  | [] => none
  | e :: es =>
    let o := onCore ex (e.core, e.step) { s with inputs := s.inputs.erase e }
    if s.clock < e.due || passedOver o then firstInput ex s es else some o

/-! ## A step of the package -/

/-- The turns of a cycle: the cores of the partition in ascending CORE, the threads of each before its engines, and the host
last (R247). -/
def turnsOf (s : State) : List Turn := s.ctx.cores.flatMap (fun c => [.issue c, .rest c]) ++ [.last]

/-- At the start of a cycle what is due comes about, one step after another; then the turns begin. -/
noncomputable def startCycle (ex : Instr → State → Out State) (s : State) : Out State :=
  (firstDue ex s (startDue s)).getD (.next { grantAll ex s with todo := turnsOf s })

/-- What issues on core c would make an access to memory. -/
noncomputable def issuesAccess (ex : Instr → State → Out State) (c : Nat) (s : State) : Bool :=
  match issueTurn ex (turnState c s) with
  | .next t => t.me.nextId != (turnState c s).me.nextId
  | _ => false

/-- What comes before the issue on core c: the accesses that rank before it at a home (R247), and, if it makes no access itself,
all the others, so that it finds the sectors of its cycle counted and the entries of its cycle free (R242, R276, R346). -/
noncomputable def beforeIssue (ex : Instr → State → Out State) (c : Nat) (s : State) : List Due :=
  threadsBefore c s ++ (match threadsAfter c s with
    | [] => []
    | l => if issuesAccess ex c s then [] else l)

/-- A burst deadline that has passed ends HOT once the slot of its cycle has issued (R344, R345). -/
noncomputable def burstDue (c : Nat) (s : State) : List Due := if partsRun s then at_ c [.burstDeadline] else []

/-- The inputs that land at a cycle's end: a failing read waits for its block (R174). -/
def lateInputs (s : State) : List Input :=
  s.inputs.filter fun i => match i.step with | .blockDelivery _ _ => false | _ => true

/-- A turn of the cycle, with what is left after it: what the turn of a core's engines has made true of a waiting slot is settled in
the same cycle (R24, R269), and a pre-emption request that has reached the cores stops them at the cycle's end (R141). -/
noncomputable def takeTurn (ex : Instr → State → Out State) (t : Turn) (rest : List Turn) (s : State) : Out State :=
  match t with
  | .issue c => (firstDue ex s (beforeIssue ex c s)).getD (coreTurn ex c rest s)
  | .rest c => (firstDue ex s (threadsAfter c s ++ burstDue c s)).getD (.next (settle (focus c { s with todo := rest })))
  | .last =>
    (firstInput ex s (lateInputs s)).getD (.next (let t := reachCores s; { t with todo := rest, clock := t.clock + 1 }))

/-- One step of the package: a turn of the cycle under way, or the start of a cycle. DESIGN CHOICE (log entry 1).
DESIGN CHOICE (log entry 66). -/
noncomputable def stepWith (ex : Instr → State → Out State) (s : State) : Out State :=
  match s.todo with
  | t :: ts => takeTurn ex t ts s
  | [] => startCycle ex s

/-! ## Placing a word where the next step fetches -/

/-- The leaf words of the page that a placed word lies on: readable and executable by every cluster, in stack 0. -/
def placedPage : Tr := { vbase := 0x10000, size := 0x10000, w0 := 0x17, w1 := 0xFFFFFFFF010C0001 }

/-- The core acting with slot 0 at word `widx` of the pair at 0x10000, translated and in the instruction buffer, and the
cycle's owner. -/
def placedCore (widx now : Nat) (m : Core) : Core :=
  let c := spGet emptySlot m.slots 0
  { m with
    slots := spSet emptySlot m.slots 0 { c with
      st := .runnable, winSize := if c.winSize = 0 then 128 else c.winSize, pa := 0x10000, widx := widx
      lastIssue := none, elig := 0, pend := [], partner := none, denied := none, landed := false }
    rot := resetRotation, phase := (16 - now % 16) % 16, stopped := false, resuming := false
    itlb := ⟨0, placedPage⟩ :: m.itlb.filter fun e => !(e.slot == 0 && holds e.tr 0x10000)
    lines := 0x400 :: m.lines.filter (· != 0x400) }

/-- A pair of words at 0x10000, which the next step fetches at word `widx` of slot 0. -/
def placePair (w0 w1 : BitVec 32) (widx : Nat) (s : State) : State :=
  let d := myDie s
  let s := setDie d { dieAt s d with inReset := false } s
  { s with
    me := placedCore widx s.clock s.me
    mem := spSetAll 0 s.mem ((bytesOfWord w0 ++ bytesOfWord w1).mapIdx fun k b => (k, b))
    poison := s.poison.filter (· != 0)
    memDown := s.memDown.filter (· != 0)
    restripes := s.restripes.filter fun r => !(decide (r.vbase ≤ 0x10000) && decide (0x10000 < r.vbase + r.size))
    switch := .resident
    todo := [.issue s.me.num] }

/-- A word placed where the next step fetches it: word 1 of a serial pair whose NOP has retired, or, with bit 31 set,
word 0 of a serial pair. DESIGN CHOICE (log entry 2). -/
def placeWord (w : BitVec 32) (s : State) : State :=
  if pBit w then placePair w 0 0 s else placePair 0x80000000 w 1 s

end Sys2Proof.Machine
end

