-- ==== Sys2Proof/Machine/Dispatch.lean ====
section
/-!
DEFINITION. The meaning of every instruction: one arm per constructor, each one call of that instruction's meaning.
-/

namespace Sys2Proof.Machine

/-- What an instruction does in a state. -/
def exec (i : Instr) (s : State) : Host.Outcome State Fault Refusal :=
  match i with
  | .nop => Sys2Proof.Machine.execNop s
  | .endThread => Sys2Proof.Machine.execEndThread s
  | .yield => Sys2Proof.Machine.execYield s
  | .swtrap n => Sys2Proof.Machine.execSwtrap n s
  | .rett => Sys2Proof.Machine.execRett s
  | .lineup n => Sys2Proof.Machine.execLineup n s
  | .burst n => Sys2Proof.Machine.execBurst n s
  | .fenceRx => Sys2Proof.Machine.execFenceRx s
  | .fenceEng => Sys2Proof.Machine.execFenceEng s
  | .fenceSys => Sys2Proof.Machine.execFenceSys s
  | .waitrx n => Sys2Proof.Machine.execWaitrx n s
  | .mfs d sr => Sys2Proof.Machine.execMfs d sr s
  | .mts d sr => Sys2Proof.Machine.execMts d sr s
  | .rottabWrite n v => Sys2Proof.Machine.execRottabWrite n v s
  | .rotpolWrite v => Sys2Proof.Machine.execRotpolWrite v s
  | .rotationSwitch => Sys2Proof.Machine.execRotationSwitch s
  | .tvecWrite tpc v => Sys2Proof.Machine.execTvecWrite tpc v s
  | .bellWrite v => Sys2Proof.Machine.execBellWrite v s
  | .tblcfgWrite v => Sys2Proof.Machine.execTblcfgWrite v s
  | .ebudgetWrite v => Sys2Proof.Machine.execEbudgetWrite v s
  | .efillWrite v => Sys2Proof.Machine.execEfillWrite v s
  | .footprintWrite v => Sys2Proof.Machine.execFootprintWrite v s
  | .jmp imm => Sys2Proof.Machine.execJmp imm s
  | .jal d imm => Sys2Proof.Machine.execJal d imm s
  | .jalr d a imm => Sys2Proof.Machine.execJalr d a imm s
  | .beq a b imm => Sys2Proof.Machine.execBeq a b imm s
  | .bne a b imm => Sys2Proof.Machine.execBne a b imm s
  | .blt a b imm => Sys2Proof.Machine.execBlt a b imm s
  | .bge a b imm => Sys2Proof.Machine.execBge a b imm s
  | .bltu a b imm => Sys2Proof.Machine.execBltu a b imm s
  | .bgeu a b imm => Sys2Proof.Machine.execBgeu a b imm s
  | .bset a b imm => Sys2Proof.Machine.execBset a b imm s
  | .bclr a b imm => Sys2Proof.Machine.execBclr a b imm s
  | .beqz a imm => Sys2Proof.Machine.execBeqz a imm s
  | .bnez a imm => Sys2Proof.Machine.execBnez a imm s
  | .bltz a imm => Sys2Proof.Machine.execBltz a imm s
  | .bgez a imm => Sys2Proof.Machine.execBgez a imm s
  | .bgtz a imm => Sys2Proof.Machine.execBgtz a imm s
  | .blez a imm => Sys2Proof.Machine.execBlez a imm s
  | .ldB d a imm => Sys2Proof.Machine.execLdB d a imm s
  | .ldBu d a imm => Sys2Proof.Machine.execLdBu d a imm s
  | .ldH d a imm => Sys2Proof.Machine.execLdH d a imm s
  | .ldHu d a imm => Sys2Proof.Machine.execLdHu d a imm s
  | .ldW d a imm => Sys2Proof.Machine.execLdW d a imm s
  | .ldWu d a imm => Sys2Proof.Machine.execLdWu d a imm s
  | .ldD d a imm => Sys2Proof.Machine.execLdD d a imm s
  | .ldBRx d a imm => Sys2Proof.Machine.execLdBRx d a imm s
  | .ldBuRx d a imm => Sys2Proof.Machine.execLdBuRx d a imm s
  | .ldHRx d a imm => Sys2Proof.Machine.execLdHRx d a imm s
  | .ldHuRx d a imm => Sys2Proof.Machine.execLdHuRx d a imm s
  | .ldWRx d a imm => Sys2Proof.Machine.execLdWRx d a imm s
  | .ldWuRx d a imm => Sys2Proof.Machine.execLdWuRx d a imm s
  | .ldDRx d a imm => Sys2Proof.Machine.execLdDRx d a imm s
  | .stB d a imm => Sys2Proof.Machine.execStB d a imm s
  | .stH d a imm => Sys2Proof.Machine.execStH d a imm s
  | .stW d a imm => Sys2Proof.Machine.execStW d a imm s
  | .stD d a imm => Sys2Proof.Machine.execStD d a imm s
  | .stBRx d a imm => Sys2Proof.Machine.execStBRx d a imm s
  | .stHRx d a imm => Sys2Proof.Machine.execStHRx d a imm s
  | .stWRx d a imm => Sys2Proof.Machine.execStWRx d a imm s
  | .stDRx d a imm => Sys2Proof.Machine.execStDRx d a imm s
  | .ldv d a imm => Sys2Proof.Machine.execLdv d a imm s
  | .stv d a imm => Sys2Proof.Machine.execStv d a imm s
  | .gather d a vb => Sys2Proof.Machine.execGather d a vb s
  | .scatter d a vb => Sys2Proof.Machine.execScatter d a vb s
  | .ldvRx d a imm => Sys2Proof.Machine.execLdvRx d a imm s
  | .stvRx d a imm => Sys2Proof.Machine.execStvRx d a imm s
  | .gatherRx d a vb => Sys2Proof.Machine.execGatherRx d a vb s
  | .scatterRx d a vb => Sys2Proof.Machine.execScatterRx d a vb s
  | .amoaddW d a b => Sys2Proof.Machine.execAmoaddW d a b s
  | .amoandW d a b => Sys2Proof.Machine.execAmoandW d a b s
  | .amoorW d a b => Sys2Proof.Machine.execAmoorW d a b s
  | .amoxorW d a b => Sys2Proof.Machine.execAmoxorW d a b s
  | .amominW d a b => Sys2Proof.Machine.execAmominW d a b s
  | .amomaxW d a b => Sys2Proof.Machine.execAmomaxW d a b s
  | .amominuW d a b => Sys2Proof.Machine.execAmominuW d a b s
  | .amomaxuW d a b => Sys2Proof.Machine.execAmomaxuW d a b s
  | .amoswapW d a b => Sys2Proof.Machine.execAmoswapW d a b s
  | .amocasW d a b => Sys2Proof.Machine.execAmocasW d a b s
  | .amoaddD d a b => Sys2Proof.Machine.execAmoaddD d a b s
  | .amoandD d a b => Sys2Proof.Machine.execAmoandD d a b s
  | .amoorD d a b => Sys2Proof.Machine.execAmoorD d a b s
  | .amoxorD d a b => Sys2Proof.Machine.execAmoxorD d a b s
  | .amominD d a b => Sys2Proof.Machine.execAmominD d a b s
  | .amomaxD d a b => Sys2Proof.Machine.execAmomaxD d a b s
  | .amominuD d a b => Sys2Proof.Machine.execAmominuD d a b s
  | .amomaxuD d a b => Sys2Proof.Machine.execAmomaxuD d a b s
  | .amoswapD d a b => Sys2Proof.Machine.execAmoswapD d a b s
  | .amocasD d a b => Sys2Proof.Machine.execAmocasD d a b s
  | .htake d a b => Sys2Proof.Machine.execHtake d a b s
  | .hgive d a b => Sys2Proof.Machine.execHgive d a b s
  | .hwait d a b => Sys2Proof.Machine.execHwait d a b s
  | .hstat d a b => Sys2Proof.Machine.execHstat d a b s
  | .hgen d a => Sys2Proof.Machine.execHgen d a s
  | .hring d a b => Sys2Proof.Machine.execHring d a b s
  | .send ty a b => Sys2Proof.Machine.execSend ty a b s
  | .recv a b => Sys2Proof.Machine.execRecv a b s
  | .recva b => Sys2Proof.Machine.execRecva b s
  | .mbox b => Sys2Proof.Machine.execMbox b s
  | .bar d scope id => Sys2Proof.Machine.execBar d scope id s
  | .bara d scope id => Sys2Proof.Machine.execBara d scope id s
  | .barw d scope id => Sys2Proof.Machine.execBarw d scope id s
  | .bari d scope id => Sys2Proof.Machine.execBari d scope id s
  | .carsub d a b => Sys2Proof.Machine.execCarsub d a b s
  | .carunsub d a b => Sys2Proof.Machine.execCarunsub d a b s
  | .carskip a => Sys2Proof.Machine.execCarskip a s
  | .carpromo a b => Sys2Proof.Machine.execCarpromo a b s
  | .carpos d a => Sys2Proof.Machine.execCarpos d a s
  | .carwaitRay d a => Sys2Proof.Machine.execCarwaitRay d a s
  | .carwaitStart d a => Sys2Proof.Machine.execCarwaitStart d a s
  | .carwaitVerdict d a => Sys2Proof.Machine.execCarwaitVerdict d a s
  | .rayput d a => Sys2Proof.Machine.execRayput d a s
  | .rayget d a => Sys2Proof.Machine.execRayget d a s
  | .raysub d a b => Sys2Proof.Machine.execRaysub d a b s
  | .hitpop d a => Sys2Proof.Machine.execHitpop d a s
  | .raykill d a => Sys2Proof.Machine.execRaykill d a s
  | .lainf d a => Sys2Proof.Machine.execLainf d a s
  | .lafb1 d a => Sys2Proof.Machine.execLafb1 d a s
  | .lafb2 d a => Sys2Proof.Machine.execLafb2 d a s
  | .lard d a => Sys2Proof.Machine.execLard d a s
  | .lawr a b => Sys2Proof.Machine.execLawr a b s
  | .laseed a b => Sys2Proof.Machine.execLaseed a b s
  | .laclr a => Sys2Proof.Machine.execLaclr a s
  | .tsreq d a b => Sys2Proof.Machine.execTsreq d a b s
  | .tsfill d a b => Sys2Proof.Machine.execTsfill d a b s
  | .tswait d a b => Sys2Proof.Machine.execTswait d a b s
  | .watch d a b => Sys2Proof.Machine.execWatch d a b s
  | .tid d => Sys2Proof.Machine.execTid d s
  | .tblw a b => Sys2Proof.Machine.execTblw a b s
  | .tblr d a => Sys2Proof.Machine.execTblr d a s
  | .add d a b => Sys2Proof.Machine.execAdd d a b s
  | .sub d a b => Sys2Proof.Machine.execSub d a b s
  | .and d a b => Sys2Proof.Machine.execAnd d a b s
  | .or d a b => Sys2Proof.Machine.execOr d a b s
  | .xor d a b => Sys2Proof.Machine.execXor d a b s
  | .andn d a b => Sys2Proof.Machine.execAndn d a b s
  | .shl d a b => Sys2Proof.Machine.execShl d a b s
  | .shr d a b => Sys2Proof.Machine.execShr d a b s
  | .sar d a b => Sys2Proof.Machine.execSar d a b s
  | .rol d a b => Sys2Proof.Machine.execRol d a b s
  | .ror d a b => Sys2Proof.Machine.execRor d a b s
  | .slt d a b => Sys2Proof.Machine.execSlt d a b s
  | .sltu d a b => Sys2Proof.Machine.execSltu d a b s
  | .seq d a b => Sys2Proof.Machine.execSeq d a b s
  | .min d a b => Sys2Proof.Machine.execMin d a b s
  | .max d a b => Sys2Proof.Machine.execMax d a b s
  | .minu d a b => Sys2Proof.Machine.execMinu d a b s
  | .maxu d a b => Sys2Proof.Machine.execMaxu d a b s
  | .mul d a b => Sys2Proof.Machine.execMul d a b s
  | .mulh d a b => Sys2Proof.Machine.execMulh d a b s
  | .mulhu d a b => Sys2Proof.Machine.execMulhu d a b s
  | .div d a b => Sys2Proof.Machine.execDiv d a b s
  | .divu d a b => Sys2Proof.Machine.execDivu d a b s
  | .rem d a b => Sys2Proof.Machine.execRem d a b s
  | .remu d a b => Sys2Proof.Machine.execRemu d a b s
  | .sel d a b => Sys2Proof.Machine.execSel d a b s
  | .clz d a => Sys2Proof.Machine.execClz d a s
  | .ctz d a => Sys2Proof.Machine.execCtz d a s
  | .popc d a => Sys2Proof.Machine.execPopc d a s
  | .brev d a => Sys2Proof.Machine.execBrev d a s
  | .ilv2 d a b => Sys2Proof.Machine.execIlv2 d a b s
  | .ilv3 d a b => Sys2Proof.Machine.execIlv3 d a b s
  | .dilv2 d a b => Sys2Proof.Machine.execDilv2 d a b s
  | .dilv3 d a b => Sys2Proof.Machine.execDilv3 d a b s
  | .extr d a b => Sys2Proof.Machine.execExtr d a b s
  | .depo d a b => Sys2Proof.Machine.execDepo d a b s
  | .bswap d a => Sys2Proof.Machine.execBswap d a s
  | .addp d a b => Sys2Proof.Machine.execAddp d a b s
  | .mkptr d a b => Sys2Proof.Machine.execMkptr d a b s
  | .ptag d a => Sys2Proof.Machine.execPtag d a s
  | .vkey d a b => Sys2Proof.Machine.execVkey d a b s
  | .addi d a imm => Sys2Proof.Machine.execAddi d a imm s
  | .andi d a imm => Sys2Proof.Machine.execAndi d a imm s
  | .ori d a imm => Sys2Proof.Machine.execOri d a imm s
  | .xori d a imm => Sys2Proof.Machine.execXori d a imm s
  | .shli d a n => Sys2Proof.Machine.execShli d a n s
  | .shri d a n => Sys2Proof.Machine.execShri d a n s
  | .sari d a n => Sys2Proof.Machine.execSari d a n s
  | .roli d a n => Sys2Proof.Machine.execRoli d a n s
  | .rori d a n => Sys2Proof.Machine.execRori d a n s
  | .slti d a imm => Sys2Proof.Machine.execSlti d a imm s
  | .addpi d a imm => Sys2Proof.Machine.execAddpi d a imm s
  | .ldi d imm => Sys2Proof.Machine.execLdi d imm s
  | .ldih d imm => Sys2Proof.Machine.execLdih d imm s
  | .movx d a imm => Sys2Proof.Machine.execMovx d a imm s
  | .movxs d a imm => Sys2Proof.Machine.execMovxs d a imm s
  | .faddD d a b => Sys2Proof.Machine.execFaddD d a b s
  | .fsubD d a b => Sys2Proof.Machine.execFsubD d a b s
  | .fmulD d a b => Sys2Proof.Machine.execFmulD d a b s
  | .fdivD d a b => Sys2Proof.Machine.execFdivD d a b s
  | .fsqrtD d a => Sys2Proof.Machine.execFsqrtD d a s
  | .fmaD d a b => Sys2Proof.Machine.execFmaD d a b s
  | .fminD d a b => Sys2Proof.Machine.execFminD d a b s
  | .fmaxD d a b => Sys2Proof.Machine.execFmaxD d a b s
  | .feqD d a b => Sys2Proof.Machine.execFeqD d a b s
  | .fltD d a b => Sys2Proof.Machine.execFltD d a b s
  | .fleD d a b => Sys2Proof.Machine.execFleD d a b s
  | .fclassD d a => Sys2Proof.Machine.execFclassD d a s
  | .fsgnjD d a b => Sys2Proof.Machine.execFsgnjD d a b s
  | .fsgnjnD d a b => Sys2Proof.Machine.execFsgnjnD d a b s
  | .faddS d a b => Sys2Proof.Machine.execFaddS d a b s
  | .fsubS d a b => Sys2Proof.Machine.execFsubS d a b s
  | .fmulS d a b => Sys2Proof.Machine.execFmulS d a b s
  | .fdivS d a b => Sys2Proof.Machine.execFdivS d a b s
  | .fsqrtS d a => Sys2Proof.Machine.execFsqrtS d a s
  | .fmaS d a b => Sys2Proof.Machine.execFmaS d a b s
  | .fminS d a b => Sys2Proof.Machine.execFminS d a b s
  | .fmaxS d a b => Sys2Proof.Machine.execFmaxS d a b s
  | .feqS d a b => Sys2Proof.Machine.execFeqS d a b s
  | .fltS d a b => Sys2Proof.Machine.execFltS d a b s
  | .fleS d a b => Sys2Proof.Machine.execFleS d a b s
  | .fclassS d a => Sys2Proof.Machine.execFclassS d a s
  | .fsgnjS d a b => Sys2Proof.Machine.execFsgnjS d a b s
  | .fsgnjnS d a b => Sys2Proof.Machine.execFsgnjnS d a b s
  | .fcvt rnd d a dst src => Sys2Proof.Machine.execFcvt rnd d a dst src s
  | .vadd d a b => Sys2Proof.Machine.execVadd d a b s
  | .vsub d a b => Sys2Proof.Machine.execVsub d a b s
  | .vand d a b => Sys2Proof.Machine.execVand d a b s
  | .vor d a b => Sys2Proof.Machine.execVor d a b s
  | .vxor d a b => Sys2Proof.Machine.execVxor d a b s
  | .vshl d a b => Sys2Proof.Machine.execVshl d a b s
  | .vshr d a b => Sys2Proof.Machine.execVshr d a b s
  | .vsar d a b => Sys2Proof.Machine.execVsar d a b s
  | .vmin d a b => Sys2Proof.Machine.execVmin d a b s
  | .vmax d a b => Sys2Proof.Machine.execVmax d a b s
  | .vminu d a b => Sys2Proof.Machine.execVminu d a b s
  | .vmaxu d a b => Sys2Proof.Machine.execVmaxu d a b s
  | .vmul d a b => Sys2Proof.Machine.execVmul d a b s
  | .vmulh d a b => Sys2Proof.Machine.execVmulh d a b s
  | .vadds d a b => Sys2Proof.Machine.execVadds d a b s
  | .vsubs d a b => Sys2Proof.Machine.execVsubs d a b s
  | .vfaddS d a b => Sys2Proof.Machine.execVfaddS d a b s
  | .vfsubS d a b => Sys2Proof.Machine.execVfsubS d a b s
  | .vfmulS d a b => Sys2Proof.Machine.execVfmulS d a b s
  | .vfdivS d a b => Sys2Proof.Machine.execVfdivS d a b s
  | .vfsqrtS d a => Sys2Proof.Machine.execVfsqrtS d a s
  | .vfmaS d a b => Sys2Proof.Machine.execVfmaS d a b s
  | .vfminS d a b => Sys2Proof.Machine.execVfminS d a b s
  | .vfmaxS d a b => Sys2Proof.Machine.execVfmaxS d a b s
  | .vfaddD d a b => Sys2Proof.Machine.execVfaddD d a b s
  | .vfsubD d a b => Sys2Proof.Machine.execVfsubD d a b s
  | .vfmulD d a b => Sys2Proof.Machine.execVfmulD d a b s
  | .vfdivD d a b => Sys2Proof.Machine.execVfdivD d a b s
  | .vfsqrtD d a => Sys2Proof.Machine.execVfsqrtD d a s
  | .vfmaD d a b => Sys2Proof.Machine.execVfmaD d a b s
  | .vfminD d a b => Sys2Proof.Machine.execVfminD d a b s
  | .vfmaxD d a b => Sys2Proof.Machine.execVfmaxD d a b s
  | .vbcast d a => Sys2Proof.Machine.execVbcast d a s
  | .vbcastD d a => Sys2Proof.Machine.execVbcastD d a s
  | .vext d a b => Sys2Proof.Machine.execVext d a b s
  | .vins d a b => Sys2Proof.Machine.execVins d a b s
  | .vperm d a b => Sys2Proof.Machine.execVperm d a b s
  | .vredAddW d a => Sys2Proof.Machine.execVredAddW d a s
  | .vredMinW d a => Sys2Proof.Machine.execVredMinW d a s
  | .vredMaxW d a => Sys2Proof.Machine.execVredMaxW d a s
  | .vredMinuW d a => Sys2Proof.Machine.execVredMinuW d a s
  | .vredMaxuW d a => Sys2Proof.Machine.execVredMaxuW d a s
  | .vredAndW d a => Sys2Proof.Machine.execVredAndW d a s
  | .vredOrW d a => Sys2Proof.Machine.execVredOrW d a s
  | .vredXorW d a => Sys2Proof.Machine.execVredXorW d a s
  | .vredFaddS d a => Sys2Proof.Machine.execVredFaddS d a s
  | .vredFminS d a => Sys2Proof.Machine.execVredFminS d a s
  | .vredFmaxS d a => Sys2Proof.Machine.execVredFmaxS d a s
  | .vredFaddD d a => Sys2Proof.Machine.execVredFaddD d a s
  | .vredFminD d a => Sys2Proof.Machine.execVredFminD d a s
  | .vredFmaxD d a => Sys2Proof.Machine.execVredFmaxD d a s
  | .vredAddD d a => Sys2Proof.Machine.execVredAddD d a s
  | .vcmpEq d a ty => Sys2Proof.Machine.execVcmpEq d a ty s
  | .vcmpNe d a ty => Sys2Proof.Machine.execVcmpNe d a ty s
  | .vcmpLt d a ty => Sys2Proof.Machine.execVcmpLt d a ty s
  | .vcmpGe d a ty => Sys2Proof.Machine.execVcmpGe d a ty s
  | .vcmpLtu d a ty => Sys2Proof.Machine.execVcmpLtu d a ty s
  | .vcmpGeu d a ty => Sys2Proof.Machine.execVcmpGeu d a ty s
  | .vsel d a b => Sys2Proof.Machine.execVsel d a b s
  | .vcvtHS d a mode => Sys2Proof.Machine.execVcvtHS d a mode s
  | .vcvtBhS d a mode => Sys2Proof.Machine.execVcvtBhS d a mode s
  | .vcvtES d a mode => Sys2Proof.Machine.execVcvtES d a mode s
  | .vcvtWS d a mode => Sys2Proof.Machine.execVcvtWS d a mode s
  | .vcvtSW d a mode => Sys2Proof.Machine.execVcvtSW d a mode s
  | .vcvtSD d a mode => Sys2Proof.Machine.execVcvtSD d a mode s
  | .vcvtDS d a mode => Sys2Proof.Machine.execVcvtDS d a mode s
  | .vcvtLD d a mode => Sys2Proof.Machine.execVcvtLD d a mode s
  | .vcvtDL d a mode => Sys2Proof.Machine.execVcvtDL d a mode s
  | .vq d a mode fmt => Sys2Proof.Machine.execVq d a mode fmt s
  | .vqSc d a mode fmt => Sys2Proof.Machine.execVqSc d a mode fmt s
  | .vdq d a fmt => Sys2Proof.Machine.execVdq d a fmt s
  | .vdqSc d a fmt => Sys2Proof.Machine.execVdqSc d a fmt s
  | .boxt d a b => Sys2Proof.Machine.execBoxt d a b s
  | .trit d a b => Sys2Proof.Machine.execTrit d a b s
  | .splt d a b => Sys2Proof.Machine.execSplt d a b s
  | .blockingReply slot => Sys2Proof.Machine.execBlockingReply slot s
  | .relaxedAccessComplete id => Sys2Proof.Machine.execRelaxedAccessComplete id s
  | .holdEnd slot => Sys2Proof.Machine.execHoldEnd slot s
  | .messageArrival m => Sys2Proof.Machine.execMessageArrival m s
  | .waitingMessageStart cls => Sys2Proof.Machine.execWaitingMessageStart cls s
  | .deviceMessageEntry => Sys2Proof.Machine.execDeviceMessageEntry s
  | .launchRecord die base => Sys2Proof.Machine.execLaunchRecord die base s
  | .dynamicTaskDispatch cluster => Sys2Proof.Machine.execDynamicTaskDispatch cluster s
  | .lineupRelease n pa tag => Sys2Proof.Machine.execLineupRelease n pa tag s
  | .lineupTimeout n pa tag => Sys2Proof.Machine.execLineupTimeout n pa tag s
  | .fetchLineBroadcast line => Sys2Proof.Machine.execFetchLineBroadcast line s
  | .barrierWake scope inst id phase => Sys2Proof.Machine.execBarrierWake scope inst id phase s
  | .l2TlbHit slot => Sys2Proof.Machine.execL2TlbHit slot s
  | .walkComplete va => Sys2Proof.Machine.execWalkComplete va s
  | .pwake addr deny thread coreSlot => Sys2Proof.Machine.execPwake addr deny thread coreSlot s
  | .migrationDepart slot => Sys2Proof.Machine.execMigrationDepart slot s
  | .migrationArrival die => Sys2Proof.Machine.execMigrationArrival die s
  | .bellRing => Sys2Proof.Machine.execBellRing s
  | .preemptionRequest => Sys2Proof.Machine.execPreemptionRequest s
  | .contextSave area => Sys2Proof.Machine.execContextSave area s
  | .partitionSaveRecord base => Sys2Proof.Machine.execPartitionSaveRecord base s
  | .contextResume area base => Sys2Proof.Machine.execContextResume area base s
  | .contextStart cfg => Sys2Proof.Machine.execContextStart cfg s
  | .dieRemap map => Sys2Proof.Machine.execDieRemap map s
  | .controllerTake => Sys2Proof.Machine.execControllerTake s
  | .segmentCall track => Sys2Proof.Machine.execSegmentCall track s
  | .blockDelivery track bad => Sys2Proof.Machine.execBlockDelivery track bad s
  | .recordTest => Sys2Proof.Machine.execRecordTest s
  | .holdClear track entry => Sys2Proof.Machine.execHoldClear track entry s
  | .remapEntry dpa clean => Sys2Proof.Machine.execRemapEntry dpa clean s
  | .memControllerDown stack channel => Sys2Proof.Machine.execMemControllerDown stack channel s
  | .segmentDescriptorWrite r => Sys2Proof.Machine.execSegmentDescriptorWrite r s
  | .layoutEntryWrite n r => Sys2Proof.Machine.execLayoutEntryWrite n r s
  | .xcopy r => Sys2Proof.Machine.execXcopy r s
  | .xstripe r => Sys2Proof.Machine.execXstripe r s
  | .xscan r => Sys2Proof.Machine.execXscan r s
  | .xfill r => Sys2Proof.Machine.execXfill r s
  | .transferChunk => Sys2Proof.Machine.execTransferChunk s
  | .xstripeAtomSwitch => Sys2Proof.Machine.execXstripeAtomSwitch s
  | .shootdownPassed => Sys2Proof.Machine.execShootdownPassed s
  | .scanComplete => Sys2Proof.Machine.execScanComplete s
  | .mxmac r => Sys2Proof.Machine.execMxmac r s
  | .mxwld r => Sys2Proof.Machine.execMxwld r s
  | .mxepi r => Sys2Proof.Machine.execMxepi r s
  | .mxzero r => Sys2Proof.Machine.execMxzero r s
  | .matrixStep => Sys2Proof.Machine.execMatrixStep s
  | .energyRefill => Sys2Proof.Machine.execEnergyRefill s
  | .kindleEnd => Sys2Proof.Machine.execKindleEnd s
  | .quenchEnd => Sys2Proof.Machine.execQuenchEnd s
  | .burstDeadline => Sys2Proof.Machine.execBurstDeadline s
  | .rtsort r => Sys2Proof.Machine.execRtsort r s
  | .routingRun cluster => Sys2Proof.Machine.execRoutingRun cluster s
  | .reproj r => Sys2Proof.Machine.execReproj r s
  | .reprojRun die => Sys2Proof.Machine.execReprojRun die s
  | .a2av r => Sys2Proof.Machine.execA2av r s
  | .areduce r => Sys2Proof.Machine.execAreduce r s
  | .agather r => Sys2Proof.Machine.execAgather r s
  | .rscatter r => Sys2Proof.Machine.execRscatter r s
  | .collectiveStart die remote => Sys2Proof.Machine.execCollectiveStart die remote s
  | .collectiveComplete die => Sys2Proof.Machine.execCollectiveComplete die s
  | .laClauseUpdate => Sys2Proof.Machine.execLaClauseUpdate s
  | .lainfComplete slot => Sys2Proof.Machine.execLainfComplete slot s
  | .inferenceRecord => Sys2Proof.Machine.execInferenceRecord s
  | .cellSoftError clause => Sys2Proof.Machine.execCellSoftError clause s
  | .hostAccess dpa data size => Sys2Proof.Machine.execHostAccess dpa data size s
  | .qreg base n => Sys2Proof.Machine.execQreg base n s
  | .qreset base => Sys2Proof.Machine.execQreset base s
  | .qremove base => Sys2Proof.Machine.execQremove base s
  | .ckpt => Sys2Proof.Machine.execCkpt s
  | .pcap watts => Sys2Proof.Machine.execPcap watts s
  | .conn n v => Sys2Proof.Machine.execConn n v s
  | .attest report nonce => Sys2Proof.Machine.execAttest report nonce s
  | .checkpointComplete => Sys2Proof.Machine.execCheckpointComplete s
  | .jobFaultResume failed cycles => Sys2Proof.Machine.execJobFaultResume failed cycles s
  | .afyarFlitReceive port f => Sys2Proof.Machine.execAfyarFlitReceive port f s
  | .linkReplay port => Sys2Proof.Machine.execLinkReplay port s
  | .linkRekey port => Sys2Proof.Machine.execLinkRekey port s
  | .linkTraining host => Sys2Proof.Machine.execLinkTraining host s
  | .firmwareBoot => Sys2Proof.Machine.execFirmwareBoot s
  | .powerSample watts => Sys2Proof.Machine.execPowerSample watts s
  | .thermalLimit die => Sys2Proof.Machine.execThermalLimit die s
  | .traceRingDrain => Sys2Proof.Machine.execTraceRingDrain s
  | .unassignedEncoding w => Sys2Proof.Machine.execUnassignedEncoding w s
  | .postedWriteDrain => Sys2Proof.Machine.execPostedWriteDrain s
  | .watchDrop slot => Sys2Proof.Machine.execWatchDrop slot s
  | .firmwareImageWrite img => Sys2Proof.Machine.execFirmwareImageWrite img s
  | .imageLoad img => Sys2Proof.Machine.execImageLoad img s
  | .checkpointSchedule => Sys2Proof.Machine.execCheckpointSchedule s
  | .refusedCommand op => Sys2Proof.Machine.execRefusedCommand op s
  | .dieCoresInReset die => Sys2Proof.Machine.execDieCoresInReset die s

end Sys2Proof.Machine
end

