-- ==== Sys2Proof/Machine/Step.lean ====
section
/-!
DEFINITION. One step of the package, and the placing of an instruction where the next step fetches.
-/

namespace Sys2Proof.Machine

/-- One step: one core's part of a cycle, or one step of a part that acts on its own, or one event from outside. -/
noncomputable def step (s : State) : Host.Outcome State Fault Refusal := stepWith exec s

/-- The state whose very next step fetches and runs the word `w`: slot 0 of the core acting owns the cycle.
DESIGN CHOICE (log entry 2). -/
def State.withFetchWord (s : State) (nbits w : Nat) : State := placeWord (BitVec.ofNat 32 (w % 2 ^ nbits)) s

end Sys2Proof.Machine
end

