-- ==== Sys2Proof/Safety.lean ====
section
/-!
DEFINITION. What counts as a safe run, and the words that claims are stated in: the canonical form of memory, when a
word may take its own effect, a register and a vector register as they stand, a core with nothing under way, and an
outcome that is a next state of a given kind.
-/

namespace Sys2Proof.Machine

/-- The memory stands in its canonical form. DESIGN CHOICE (log entry 60). -/
abbrev State.memOk (s : State) : Prop := Memory.wf s.mem = true

/-- A word that names `u` passes the checks before its own effect: no relaxed load has yet to write a register it names
(R25), every register it names lies in the slot's window (R32), and no poisoned mark is on one of them (R128). -/
abbrev Ready (u : Uses) (s : State) : Prop :=
  awaited s u = [] ∧ boundsFault s u.names = none ∧ poisonMark s u false = none

/-- The same for END, the fences and WAITRX, which name no register and report every mark of the slot (R128, R250). -/
abbrev Unmarked (s : State) : Prop := (cur s).poisoned = []

/-- Window register k of slot sl, as it stands (R28). -/
def regAt (s : State) (sl k : Nat) : Word := spGet 0 s.me.pool ((slotOf s sl).winBase + k)

/-- The eight words of vector register v of the issuing slot, as they stand (R31). -/
def vecAt (s : State) (v : BitVec 4) : List Word :=
  (List.range 8).map fun j => regAt s s.iss.slot (8 * v.toNat + j)

/-- Every access answers in its own cycle, and none is outstanding: no delay is scheduled, the context replays no log, and
the core has no relaxed access and no posted store under way (R248, R249, R257). -/
abbrev Prompt (s : State) : Prop := s.delays = [] ∧ s.replay = none ∧ s.me.relaxed = [] ∧ s.me.posted = []

/-- The homes of the eight bytes that firmware, the host or a principal names by an address (R255). -/
def wordHomes (s : State) (at_ : Nat) : List Nat := (List.range 8).map fun k => hostAtom s (at_ + k)

/-- The word at an address, at its homes in s, is v in t. -/
def Stored (s t : State) (at_ : Nat) (v : Word) : Prop := ∀ k < 8, memAt t (hostAtom s (at_ + k)) = v.extractLsb' (8 * k) 8

/-- What the checks of R233 from step 3 on, and of R234, come to for a word that touches the addresses `ps`, in element order:
the traps with their causes and TVALs, the park on a page that the slot's TLB lacks, and the migration. `vec`: it is LDV or STV. Which
byte of the device region TVAL names, and on which missing page the pair parks: DESIGN CHOICE (log entry 21). What stops an access
to host memory: DESIGN CHOICE (log entry 73). -/
def Checks (i : Instr) (vec : Bool) (ps : List Probe) (s : State) : Prop :=
  let traps (cause : BitVec 5) (va : Nat) : Prop :=
    exec i s = .next (takeTrap cause (BitVec.ofNat 64 va) (onCur (fun c => { c with denied := none }) s))
  let tlb (va : Nat) : Option Tr := tlbFind s.me.dtlb s.iss.slot va
  let closed (p : Probe) : Prop := inDevice p.1 = true ∧ ∀ h, deviceHome s p.1 = some h → deviceAllows p.2 vec h = false
  (∀ p ∈ ps, closed p → (∀ q ∈ ps, closed q → p.1 ≤ q.1) → traps cPerm p.1) ∧
  ((∀ p ∈ ps, ¬ closed p) →
    (∀ p, ps.find? (fun p => !inDevice p.1 && (tlb p.1).isNone) = some p →
      ((cur s).denied = none →
        exec i s = .next (setRes .parked (onCur (fun c => { c with st := .parked (.tlb p.1 p.2) }) s))) ∧
      ∀ va, (cur s).denied = some va → traps cPerm va) ∧
    ∀ pages : List Tr, pages.Pairwise (fun u v => u.vbase + u.size ≤ v.vbase) →
      (∀ p ∈ ps, inDevice p.1 = false → ∃ u ∈ pages, tlb p.1 = some u) →
      (∀ u ∈ pages, ∃ p ∈ ps, inDevice p.1 = false ∧ tlb p.1 = some u) →
      let on (u : Tr) (p : Probe) : Prop := p ∈ ps ∧ inDevice p.1 = false ∧ holds u p.1 = true
      let lowest (P : Tr → Prop) (u : Tr) : Prop := u ∈ pages ∧ P u ∧ ∀ v ∈ pages, P v → u.vbase ≤ v.vbase
      let forbids (u : Tr) : Prop := ∃ p, on u p ∧ pageForbids (cur s).prv (myCluster s) p.2 u = true
      let localAway (u : Tr) : Prop := trReach u = 0 ∧ trHdie u ≠ myDie s
      let away (u : Tr) : Prop := trReach u = 2 ∧ trHdie u ≠ myDie s
      let gone (u : Tr) : Prop :=
        away u ∧ ((dieAt s (trHdie u)).inReset = true ∨ (trTgt u = 1 ∧ s.hostDown = true))
      let lone (u : Tr) : Prop :=
        away u ∧ ¬ gone u ∧ ∀ c ∈ s.ctx.cores, dieOf c = trHdie u → bits u.w1 (32 + clusterOf c) 1 = 0
      let dead (u : Tr) : Prop := ∃ p, on u p ∧ (controllerDown s (homeIn s u p.1) = true ∨ onStuck s p.1 = true)
      ∀ (u : Tr) (va : Nat), (∃ p, on u p ∧ p.1 = va) → (∀ p, on u p → va ≤ p.1) →
        (lowest forbids u → traps cPerm va) ∧
        ((∀ v ∈ pages, ¬ forbids v) → lowest localAway u → traps cReach va) ∧
        ((∀ v ∈ pages, ¬ forbids v ∧ ¬ localAway v) →
          (∀ m, lowest (fun v => trReach v = 2) m →
            lowest (fun v => trReach v = 2 ∧ trHdie v ≠ trHdie m) u → traps cSplitHome va) ∧
          ((∀ v ∈ pages, ∀ w ∈ pages, trReach v = 2 → trReach w = 2 → trHdie v = trHdie w) →
            ((∀ v ∈ pages, ¬ gone v ∧ ¬ lone v) → lowest away u →
              exec i s = .next (setRes .waiting
                (onCur (fun c => { c with st := .waiting (.migrate (trHdie u) (bits u.w1 32 32)) }) s))) ∧
            ((∃ v ∈ pages, gone v ∨ lone v) ∨ (∀ v ∈ pages, ¬ away v) →
              lowest (fun v => gone v ∨ lone v ∨ dead v) u →
              (gone u → traps cHomeDown va) ∧ (lone u → traps cReach va) ∧
              (¬ gone u → ¬ lone u → traps cMemDown va)))))

/-- The outcome is a next state with P. -/
def Gives (o : Out State) (P : State → Prop) : Prop := ∃ t, o = .next t ∧ P t

end Sys2Proof.Machine
end

