-- ==== Sys2Proof/Certificates/Slice0/Obligations.lean ====
section
/-!
DEFINITION. The statements for the provers, rule by rule of the specification.
-/

section

open Sys2Proof Sys2Proof.Machine

/-- R62: every form of IOP writes gd as the rule's table says, with the shift amount in b<5:0>, and retires; it
changes nothing else. -/
def Obligations.IopResults : Prop :=
  ∀ (d a b : BitVec 7) (s : State), Ready ⟨[.g d, .g a, .g b], [.g d]⟩ s →
    let x := rd s a
    let y := rd s b
    let n := y.toNat % 64
    let gives (i : Instr) (v : Word) : Prop := exec i s = .next (advance (wr d v s))
    gives (.add d a b) (x + y) ∧ gives (.sub d a b) (x - y) ∧
    gives (.and d a b) (x &&& y) ∧ gives (.or d a b) (x ||| y) ∧ gives (.xor d a b) (x ^^^ y) ∧
    gives (.andn d a b) (x &&& ~~~y) ∧
    gives (.shl d a b) (BitVec.ofNat 64 (x.toNat * 2 ^ n)) ∧
    gives (.shr d a b) (BitVec.ofNat 64 (x.toNat / 2 ^ n)) ∧
    gives (.sar d a b) (BitVec.ofInt 64 (x.toInt / 2 ^ n)) ∧
    gives (.rol d a b) (x <<< n ||| x >>> (64 - n)) ∧ gives (.ror d a b) (x >>> n ||| x <<< (64 - n)) ∧
    gives (.slt d a b) (if x.toInt < y.toInt then 1 else 0) ∧
    gives (.sltu d a b) (if x.toNat < y.toNat then 1 else 0) ∧
    gives (.seq d a b) (if x = y then 1 else 0) ∧
    gives (.min d a b) (BitVec.ofInt 64 (min x.toInt y.toInt)) ∧
    gives (.max d a b) (BitVec.ofInt 64 (max x.toInt y.toInt))

/-- R63: the IOP2 forms that do not hold the thread, but ILV2 and ILV3: each writes gd and retires; the bit counts and
BREV are said bit by bit. -/
def Obligations.Iop2Results : Prop :=
  (∀ (d a b : BitVec 7) (s : State), Ready ⟨[.g d, .g a, .g b], [.g d]⟩ s →
    let x := rd s a
    let y := rd s b
    let gives (i : Instr) (v : Word) : Prop := exec i s = .next (advance (wr d v s))
    gives (.minu d a b) (BitVec.ofNat 64 (min x.toNat y.toNat)) ∧
    gives (.maxu d a b) (BitVec.ofNat 64 (max x.toNat y.toNat)) ∧
    gives (.mul d a b) (BitVec.ofInt 64 (x.toInt * y.toInt)) ∧
    gives (.mulh d a b) (BitVec.ofInt 64 (x.toInt * y.toInt / 2 ^ 64)) ∧
    gives (.mulhu d a b) (BitVec.ofNat 64 (x.toNat * y.toNat / 2 ^ 64)) ∧
    gives (.sel d a b) (if rd s d ≠ 0 then x else y)) ∧
  (∀ (d a : BitVec 7) (s : State), Ready ⟨[.g d, .g a], [.g d]⟩ s →
    let x := rd s a
    (∃ n ≤ 64, exec (.clz d a) s = .next (advance (wr d (BitVec.ofNat 64 n) s)) ∧
      (∀ k, 64 - n ≤ k → k < 64 → x.getLsbD k = false) ∧ (n < 64 → x.getLsbD (63 - n) = true)) ∧
    (∃ n ≤ 64, exec (.ctz d a) s = .next (advance (wr d (BitVec.ofNat 64 n) s)) ∧
      (∀ k < n, x.getLsbD k = false) ∧ (n < 64 → x.getLsbD n = true)) ∧
    exec (.popc d a) s =
      .next (advance (wr d (BitVec.ofNat 64 ((List.range 64).countP fun k => x.getLsbD k)) s)) ∧
    (∃ v : Word, exec (.brev d a) s = .next (advance (wr d v s)) ∧ ∀ i < 64, v.getLsbD (63 - i) = x.getLsbD i))

/-- R63, R64: the four divide forms hold the thread for 8 turns and write, when the hold ends, the quotient rounded
towards zero and the remainder with the dividend's sign; by zero they write all ones and a; the most negative number
by -1 gives itself and 0. -/
def Obligations.DivideResults : Prop :=
  ∀ (d a b : BitVec 7) (s : State), Ready ⟨[.g d, .g a, .g b], [.g d]⟩ s →
    let x := rd s a
    let y := rd s b
    let holds (i : Instr) (v : Word) : Prop :=
      exec i s = .next (setRes .held
        (onCur (fun c => { c with st := .held (holdStop s 8), pend := [(d.toNat, v)] }) (advance s)))
    (y = 0 → holds (.div d a b) (BitVec.allOnes 64) ∧ holds (.divu d a b) (BitVec.allOnes 64) ∧
      holds (.rem d a b) x ∧ holds (.remu d a b) x) ∧
    (x = BitVec.intMin 64 → y = BitVec.allOnes 64 → holds (.div d a b) (BitVec.intMin 64) ∧ holds (.rem d a b) 0) ∧
    (y ≠ 0 → ¬(x = BitVec.intMin 64 ∧ y = BitVec.allOnes 64) →
      ∃ q r : Word, holds (.div d a b) q ∧ holds (.rem d a b) r ∧ q.toInt * y.toInt + r.toInt = x.toInt ∧
        |r.toInt| < |y.toInt| ∧ 0 ≤ r.toInt * x.toInt) ∧
    (y ≠ 0 → ∃ q r : Word, holds (.divu d a b) q ∧ holds (.remu d a b) r ∧
      q.toNat * y.toNat + r.toNat = x.toNat ∧ r.toNat < y.toNat)

/-- R65, R66: the interleave and field forms, bit by bit. -/
def Obligations.FieldResults : Prop :=
  ∀ (d a b : BitVec 7) (s : State), Ready ⟨[.g d, .g a, .g b], [.g d]⟩ s →
    let x := rd s a
    let y := rd s b
    let z := rd s d
    let pos := y.toNat % 64
    let len := min (y.toNat / 2 ^ 8 % 128) 64
    let gives (i : Instr) (p : Word → Prop) : Prop := ∃ v, exec i s = .next (advance (wr d v s)) ∧ p v
    gives (.ilv2 d a b) (fun v => ∀ i < 32, v.getLsbD (2 * i) = x.getLsbD i ∧ v.getLsbD (2 * i + 1) = y.getLsbD i) ∧
    gives (.ilv3 d a b) (fun v => v.getLsbD 63 = false ∧ ∀ i < 21, v.getLsbD (3 * i) = x.getLsbD i ∧
      v.getLsbD (3 * i + 1) = y.getLsbD i ∧ v.getLsbD (3 * i + 2) = z.getLsbD i) ∧
    gives (.dilv2 d a b) (fun v => ∀ i < 64,
      v.getLsbD i = (decide (i < 32) && x.getLsbD (2 * i + y.toNat % 2))) ∧
    gives (.dilv3 d a b) (fun v => ∀ i < 64,
      v.getLsbD i = (decide (y.toNat % 4 ≠ 3) && decide (i < 21) && x.getLsbD (3 * i + y.toNat % 4))) ∧
    gives (.extr d a b) (fun v => ∀ i < 64, v.getLsbD i = (decide (i < len) && x.getLsbD (pos + i))) ∧
    gives (.depo d a b) (fun v => ∀ i < 64,
      v.getLsbD i = if pos ≤ i ∧ i < pos + len then x.getLsbD (i - pos) else z.getLsbD i)

/-- R66, R71, R196: BSWAP byte by byte, MKPTR, PTAG, and VKEY: a depth that is a negative number or NaN loses to every
key, and a zero of either sign counts as +0. -/
def Obligations.PointerAndKeyResults : Prop :=
  (∀ (d a : BitVec 7) (s : State), Ready ⟨[.g d, .g a], [.g d]⟩ s →
    (∃ v : Word, exec (.bswap d a) s = .next (advance (wr d v s)) ∧
      ∀ j < 8, v.extractLsb' (8 * (7 - j)) 8 = (rd s a).extractLsb' (8 * j) 8) ∧
    exec (.ptag d a) s = .next (advance (wr d (((rd s a).extractLsb' 57 7).setWidth 64) s))) ∧
  ∀ (d a b : BitVec 7) (s : State), Ready ⟨[.g d, .g a, .g b], [.g d]⟩ s →
    exec (.mkptr d a b) s =
      .next (advance (wr d ((rd s b).extractLsb' 0 7 ++ (rd s a).extractLsb' 0 57) s)) ∧
    ∃ v : Word, exec (.vkey d a b) s = .next (advance (wr d v s)) ∧
      let z : BitVec 32 := (rd s a).setWidth 32
      let n : BitVec 32 := (rd s b).setWidth 32
      (z = 0 ∨ z = 0x80000000 → v = (0 : BitVec 32) ++ n) ∧
      (z ≠ 0x80000000 → z.msb = true ∨ 0x7F800000 < z.toNat → v = BitVec.allOnes 64) ∧
      (z.toNat ≤ 0x7F800000 → v = z ++ n)

/-- R67, R68, R69: the immediate forms write gd with the operation on the sign-extended immediate, the shifts by the
amount in the word, LDI and LDIH. -/
def Obligations.ImmediateResults : Prop :=
  ∀ (d a : BitVec 7) (imm : BitVec 11) (n : BitVec 6) (k : BitVec 18) (s : State),
    Ready ⟨[.g d, .g a], [.g d]⟩ s →
    let x := rd s a
    let m := n.toNat
    let gives (i : Instr) (v : Word) : Prop := exec i s = .next (advance (wr d v s))
    gives (.addi d a imm) (BitVec.ofInt 64 (x.toInt + imm.toInt)) ∧
    gives (.andi d a imm) (x &&& BitVec.ofInt 64 imm.toInt) ∧
    gives (.ori d a imm) (x ||| BitVec.ofInt 64 imm.toInt) ∧
    gives (.xori d a imm) (x ^^^ BitVec.ofInt 64 imm.toInt) ∧
    gives (.slti d a imm) (if x.toInt < imm.toInt then 1 else 0) ∧
    gives (.shli d a n) (BitVec.ofNat 64 (x.toNat * 2 ^ m)) ∧
    gives (.shri d a n) (BitVec.ofNat 64 (x.toNat / 2 ^ m)) ∧
    gives (.sari d a n) (BitVec.ofInt 64 (x.toInt / 2 ^ m)) ∧
    gives (.roli d a n) (x <<< m ||| x >>> (64 - m)) ∧ gives (.rori d a n) (x >>> m ||| x <<< (64 - m)) ∧
    gives (.ldi d k) (BitVec.ofInt 64 k.toInt) ∧
    gives (.ldih d k) (BitVec.ofNat 64 ((rd s d).toNat * 2 ^ 18 + k.toNat))

/-- R70: ADDP and ADDPI move the address field by the signed offset and keep the tag; a sum outside 0 to 2^57 - 1
traps ADDR_OVF with the sum's low 64 bits, and gd keeps its value. R72: MOVX and MOVXS read and write the window
register whose number is s(gx) + k. -/
def Obligations.PointerAddAndMovx : Prop :=
  (∀ (d a b : BitVec 7) (imm : BitVec 11) (s : State), Ready ⟨[.g d, .g a, .g b], [.g d]⟩ s →
    let p := rd s a
    let does (i : Instr) (off : Int) : Prop :=
      let sum : Int := (p.toNat % 2 ^ 57 : Nat) + off
      (0 ≤ sum ∧ sum < 2 ^ 57 →
        exec i s = .next (advance (wr d (p.extractLsb' 57 7 ++ BitVec.ofInt 57 sum) s))) ∧
      (¬(0 ≤ sum ∧ sum < 2 ^ 57) → exec i s = .next (takeTrap cAddrOvf (BitVec.ofInt 64 sum) s))
    does (.addp d a b) (rd s b).toInt ∧ does (.addpi d a imm) imm.toInt) ∧
  (∀ (d a : BitVec 7) (imm : BitVec 11) (s : State),
    let idx := (rd s a).toInt + imm.toInt
    (Ready ⟨[.g d, .g a, .idx a imm], [.g d]⟩ s →
      exec (.movx d a imm) s = .next (advance (wr d (rdN s idx.toNat) s)) ∧
      exec (.movxs d a imm) s = .next (advance (wrN idx.toNat (rd s d) s))) ∧
    (awaited s ⟨[.g d, .g a, .idx a imm], [.g d]⟩ = [] → d.toNat < (cur s).winSize → a.toNat < (cur s).winSize →
      idx < 0 ∨ ((cur s).winSize : Int) ≤ idx →
      exec (.movx d a imm) s = .next (takeTrap cRegBounds (BitVec.ofInt 64 idx) s) ∧
      exec (.movxs d a imm) s = .next (takeTrap cRegBounds (BitVec.ofInt 64 idx) s)))

/-- R73, R74: the scalar floating-point forms on binary64 and on binary32 (whose result has bits 63:32 clear): the
exact result rounded once to nearest even; FDIV and FSQRT hold the thread 6 turns on binary64 and 3 on binary32. FMIN
and FMAX give the smaller or larger operand's pattern, -0 below +0; a NaN operand yields the other operand's pattern,
and two NaNs the canonical NaN. -/
def Obligations.FloatResults : Prop :=
  (∀ (d a b : BitVec 7) (s : State), Ready ⟨[.g d, .g a, .g b], [.g d]⟩ s →
    let x := unpack fmtD (rd s a).toNat
    let y := unpack fmtD (rd s b).toNat
    let z := unpack fmtD (rd s d).toNat
    let gives (i : Instr) (v : Word) : Prop := exec i s = .next (advance (wr d v s))
    let rounds (i : Instr) (r : Machine.Num) : Prop := gives i (BitVec.ofNat 64 (roundTo fmtD .rne r))
    let holds (i : Instr) (r : Machine.Num) : Prop :=
      exec i s = .next (setRes .held (onCur (fun c => { c with
        st := .held (holdStop s 6), pend := [(d.toNat, BitVec.ofNat 64 (roundTo fmtD .rne r))] }) (advance s)))
    rounds (.faddD d a b) (addN x y) ∧ rounds (.fsubD d a b) (addN x (negN y)) ∧ rounds (.fmulD d a b) (mulN x y) ∧
    rounds (.fmaD d a b) (addN (mulN x y) z) ∧ holds (.fdivD d a b) (divN x y) ∧ holds (.fsqrtD d a) (sqrtN x) ∧
    gives (.feqD d a b) (if eqN x y then 1 else 0) ∧ gives (.fltD d a b) (if ltN x y then 1 else 0) ∧
    gives (.fleD d a b) (if leN x y then 1 else 0) ∧
    gives (.fsgnjD d a b) ((rd s b).extractLsb' 63 1 ++ (rd s a).extractLsb' 0 63) ∧
    gives (.fsgnjnD d a b) (~~~(rd s b).extractLsb' 63 1 ++ (rd s a).extractLsb' 0 63)) ∧
  (∀ (d a b : BitVec 7) (s : State), Ready ⟨[.g d, .g a, .g b], [.g d]⟩ s →
    let x := unpack fmtS (rd s a).toNat
    let y := unpack fmtS (rd s b).toNat
    let z := unpack fmtS (rd s d).toNat
    let gives (i : Instr) (v : Word) : Prop := exec i s = .next (advance (wr d v s))
    let rounds (i : Instr) (r : Machine.Num) : Prop := gives i ((BitVec.ofNat 32 (roundTo fmtS .rne r)).setWidth 64)
    let holds (i : Instr) (r : Machine.Num) : Prop :=
      exec i s = .next (setRes .held (onCur (fun c => { c with
        st := .held (holdStop s 3), pend := [(d.toNat, (BitVec.ofNat 32 (roundTo fmtS .rne r)).setWidth 64)] })
        (advance s)))
    rounds (.faddS d a b) (addN x y) ∧ rounds (.fsubS d a b) (addN x (negN y)) ∧ rounds (.fmulS d a b) (mulN x y) ∧
    rounds (.fmaS d a b) (addN (mulN x y) z) ∧ holds (.fdivS d a b) (divN x y) ∧ holds (.fsqrtS d a) (sqrtN x) ∧
    gives (.feqS d a b) (if eqN x y then 1 else 0) ∧ gives (.fltS d a b) (if ltN x y then 1 else 0) ∧
    gives (.fleS d a b) (if leN x y then 1 else 0) ∧
    gives (.fsgnjS d a b) (((rd s b).extractLsb' 31 1 ++ (rd s a).extractLsb' 0 31).setWidth 64) ∧
    gives (.fsgnjnS d a b) ((~~~(rd s b).extractLsb' 31 1 ++ (rd s a).extractLsb' 0 31).setWidth 64)) ∧
  (∀ (d a b : BitVec 7) (s : State), Ready ⟨[.g d, .g a, .g b], [.g d]⟩ s →
    let picks (i : Instr) (f : Fmt) (w : Nat) (less : Bool) : Prop :=
      let p := (rd s a).toNat % 2 ^ w
      let q := (rd s b).toNat % 2 ^ w
      let x := unpack f p
      let y := unpack f q
      ∃ v : Nat, exec i s = .next (advance (wr d (BitVec.ofNat 64 v) s)) ∧
        (x = .nan → y = .nan → v = f.nanPat) ∧ (x = .nan → y ≠ .nan → v = q) ∧ (x ≠ .nan → y = .nan → v = p) ∧
        (ltN x y = true → v = if less then p else q) ∧ (ltN y x = true → v = if less then q else p) ∧
        (eqN x y = true → p / 2 ^ (w - 1) = 1 → q / 2 ^ (w - 1) = 0 → v = if less then p else q) ∧
        (eqN x y = true → p / 2 ^ (w - 1) = 0 → q / 2 ^ (w - 1) = 1 → v = if less then q else p) ∧
        (eqN x y = true → p = q → v = p)
    picks (.fminD d a b) fmtD 64 true ∧ picks (.fmaxD d a b) fmtD 64 false ∧
    picks (.fminS d a b) fmtS 32 true ∧ picks (.fmaxS d a b) fmtS 32 false)

/-- R75, R76: FCLASS writes SIGN, KIND and EXP, of a subnormal the place of its leading bit and of a zero 0, and FCVT
the converted value. R78: what FCVT writes for NaN, for infinities, and for finite values whose integer is out of
range, from a binary64 source under every rounding mode, and between the two integer types. -/
def Obligations.ConvertResults : Prop :=
  (∀ (d a : BitVec 7) (rnd dst src : BitVec 3) (s : State), Ready ⟨[.g d, .g a], [.g d]⟩ s →
    let classed (i : Instr) (f : Fmt) (x : Nat) : Prop :=
      ∃ v : Word, exec i s = .next (advance (wr d v s)) ∧
        v.toNat % 2 = x / 2 ^ (f.ew + f.fw) % 2 ∧ v.toNat / 2 ^ 32 = 0 ∧ v.toNat / 2 ^ 4 % 2 ^ 12 = 0 ∧
        (let ex := x / 2 ^ f.fw % 2 ^ f.ew
         let fr := x % 2 ^ f.fw
         let kind := v.toNat / 2 % 8
         (ex = 0 → fr = 0 → kind = 0 ∧ v.toNat / 2 ^ 16 = 0) ∧
         (∀ k : Nat, ex = 0 → 2 ^ k ≤ fr → fr < 2 ^ (k + 1) → kind = 1 ∧
           (v.extractLsb' 16 16).toInt = (k : Int) + 1 - (2 ^ (f.ew - 1) - 1 : Nat) - f.fw) ∧
         (0 < ex → ex < 2 ^ f.ew - 1 → kind = 2 ∧
           (v.extractLsb' 16 16).toInt = (ex : Int) - (2 ^ (f.ew - 1) - 1 : Nat)) ∧
         (ex = 2 ^ f.ew - 1 → v.toNat / 2 ^ 16 = 0 ∧
           kind = if fr = 0 then 3 else if 2 ^ (f.fw - 1) ≤ fr then 4 else 5))
    classed (.fclassD d a) fmtD (rd s a).toNat ∧ classed (.fclassS d a) fmtS ((rd s a).toNat % 2 ^ 32) ∧
    exec (.fcvt rnd d a dst src) s =
      .next (advance (wr d (fcvtWord (tableOf s) rnd.toNat dst.toNat src.toNat (rd s a) (rd s d)) s))) ∧
  (∀ (d a : BitVec 7) (rnd : BitVec 3) (s : State), Ready ⟨[.g d, .g a], [.g d]⟩ s →
    let x := unpack fmtD (rd s a).toNat
    let ex := (rd s a).toNat / 2 ^ 52 % 2 ^ 11
    let minus := (rd s a).msb
    let gives (i : Instr) (v : Word) : Prop := exec i s = .next (advance (wr d v s))
    (x = .nan → gives (.fcvt rnd d a 0 0) 0x7FF8000000000000 ∧ gives (.fcvt rnd d a 1 0) 0x7FC00000 ∧
      gives (.fcvt rnd d a 2 0) 0x7E00 ∧ gives (.fcvt rnd d a 3 0) 0x7FC0 ∧ gives (.fcvt rnd d a 7 0) 0x3FE00 ∧
      gives (.fcvt rnd d a 4 0) 0 ∧ gives (.fcvt rnd d a 5 0) 0) ∧
    (x = .inf false → gives (.fcvt rnd d a 0 0) 0x7FF0000000000000 ∧ gives (.fcvt rnd d a 1 0) 0x7F800000 ∧
      gives (.fcvt rnd d a 2 0) 0x7C00 ∧ gives (.fcvt rnd d a 3 0) 0x7F80 ∧ gives (.fcvt rnd d a 7 0) 0x3FC00 ∧ gives (.fcvt rnd d a 4 0) 0x7FFFFFFFFFFFFFFF ∧
      gives (.fcvt rnd d a 5 0) 0xFFFFFFFFFFFFFFFF) ∧
    (x = .inf true → gives (.fcvt rnd d a 0 0) 0xFFF0000000000000 ∧ gives (.fcvt rnd d a 1 0) 0xFF800000 ∧
      gives (.fcvt rnd d a 2 0) 0xFC00 ∧ gives (.fcvt rnd d a 3 0) 0xFF80 ∧ gives (.fcvt rnd d a 7 0) 0x7FC00 ∧ gives (.fcvt rnd d a 4 0) 0x8000000000000000 ∧
      gives (.fcvt rnd d a 5 0) 0) ∧
    (minus = false → 1086 ≤ ex → ex < 2047 → gives (.fcvt rnd d a 4 0) 0x7FFFFFFFFFFFFFFF) ∧
    (minus = true → 1086 ≤ ex → ex < 2047 → gives (.fcvt rnd d a 4 0) 0x8000000000000000) ∧
    (minus = false → 1087 ≤ ex → ex < 2047 → gives (.fcvt rnd d a 5 0) 0xFFFFFFFFFFFFFFFF) ∧
    (minus = true → ex < 2047 → gives (.fcvt rnd d a 5 0) 0) ∧
    ((rd s a).toInt < 0 → gives (.fcvt rnd d a 5 4) 0) ∧ (0 ≤ (rd s a).toInt → gives (.fcvt rnd d a 5 4) (rd s a)) ∧
    ((rd s a).toInt < 0 → gives (.fcvt rnd d a 4 5) 0x7FFFFFFFFFFFFFFF) ∧
    (0 ≤ (rd s a).toInt → gives (.fcvt rnd d a 4 5) (rd s a)))

/-- R79, R80: a branch that is taken retires and goes on at word 0 of the pair at PA + 8 · disp; one that is not taken
retires in its place. That a target is taken modulo 2^57, of a branch as of JMP and JAL, and that JALR's trap stands
for one outside that range, is the model's choice (log entry 11). R81: JMP, JAL and JALR. The link is PA + 8; JALR's
base is read before gd is written; a target that is not a multiple of 8 traps MISALIGN, and one outside the address
space ADDR_OVF. -/
def Obligations.BranchAndJumpResults : Prop :=
  (∀ (a b : BitVec 7) (d8 : BitVec 8) (d15 : BitVec 15) (s : State), Ready ⟨[.g a, .g b], []⟩ s →
    let x := rd s a
    let y := rd s b
    let branches (i : Instr) (taken : Prop) (disp : Int) : Prop :=
      (taken → exec i s = .next (goTo (((s.iss.pa : Int) + 8 * disp) % 2 ^ 57).toNat s)) ∧
      (¬taken → exec i s = .next (advance s))
    branches (.beq a b d8) (x = y) d8.toInt ∧ branches (.bne a b d8) (x ≠ y) d8.toInt ∧
    branches (.blt a b d8) (x.toInt < y.toInt) d8.toInt ∧ branches (.bge a b d8) (y.toInt ≤ x.toInt) d8.toInt ∧
    branches (.bltu a b d8) (x.toNat < y.toNat) d8.toInt ∧ branches (.bgeu a b d8) (y.toNat ≤ x.toNat) d8.toInt ∧
    branches (.bset a b d8) (x.getLsbD (y.toNat % 64) = true) d8.toInt ∧
    branches (.bclr a b d8) (x.getLsbD (y.toNat % 64) = false) d8.toInt ∧
    branches (.beqz a d15) (x.toInt = 0) d15.toInt ∧ branches (.bnez a d15) (x.toInt ≠ 0) d15.toInt ∧
    branches (.bltz a d15) (x.toInt < 0) d15.toInt ∧ branches (.bgez a d15) (0 ≤ x.toInt) d15.toInt ∧
    branches (.bgtz a d15) (0 < x.toInt) d15.toInt ∧ branches (.blez a d15) (x.toInt ≤ 0) d15.toInt) ∧
  (∀ (d a : BitVec 7) (d25 : BitVec 25) (d18 : BitVec 18) (imm : BitVec 11) (s : State),
    Ready ⟨[.g d, .g a], [.g d]⟩ s →
    let link : Word := BitVec.ofNat 64 (s.iss.pa + 8)
    let pcRel (disp : Int) : Nat := (((s.iss.pa : Int) + 8 * disp) % 2 ^ 57).toNat
    let t : Int := ((rd s a).toNat % 2 ^ 57 : Nat) + 8 * imm.toInt
    exec (.jmp d25) s = .next (goTo (pcRel d25.toInt) s) ∧
    exec (.jal d d18) s = .next (goTo (pcRel d18.toInt) (wr d link s)) ∧
    (t % 8 = 0 → 0 ≤ t → t < 2 ^ 57 → exec (.jalr d a imm) s = .next (goTo t.toNat (wr d link s))) ∧
    (t % 8 ≠ 0 → exec (.jalr d a imm) s = .next (takeTrap cMisalign (BitVec.ofInt 64 t) s)) ∧
    (t % 8 = 0 → t < 0 ∨ 2 ^ 57 ≤ t → exec (.jalr d a imm) s = .next (takeTrap cAddrOvf (BitVec.ofInt 64 t) s)))

/-- R83 to R88, R381: NOP only retires; YIELD retires and the slot is not eligible in the 16 cycles that follow;
SWTRAP traps with its operand; RETT goes to the pair at TPC and the word that TPAIR names; LINEUP parks until its
group is released and then retires; END with no relaxed access and no training command outstanding empties the slot
and frees its window and its mailbox entries, and with one outstanding waits; that it waits for a training command
reads R381 so (log entry 74). R249, R250: FENCE.rx, FENCE.eng, FENCE.sys and WAITRX retire once what they wait for is
complete, and wait before that; BURST (R344, R345) retires and sets the burst deadline if it is later, kindles in COLD
and goes back from QUENCH. -/
def Obligations.SysAndFenceResults : Prop :=
  (∀ (n20 : BitVec 20) (n8 : BitVec 8) (s : State), Unmarked s →
    let sl := s.iss.slot
    exec .nop s = .next (advance s) ∧
    exec .yield s = .next (onCur (fun c => { c with elig := max c.elig (s.clock + 17) }) (advance s)) ∧
    exec (.swtrap n20) s = .next (takeTrap cSwtrap (n20.setWidth 64) s) ∧
    exec .rett s = .next (setRes .retired
      (onCur (fun c => { c with pa := 8 * c.tpc.toNat, widx := c.tpair.toNat, landed := true }) s)) ∧
    ((cur s).released = true →
      exec (.lineup n8) s = .next (advance (onCur (fun c => { c with released := false }) s))) ∧
    ((cur s).released = false →
      exec (.lineup n8) s = .next (setRes .parked
        (onCur (fun c => { c with st := .parked (.lineup n8.toNat s.iss.pa s.clock) }) s))) ∧
    (hasRelaxed s sl = true ∨ (∃ q ∈ s.me.la.queue, q.record = none ∧ q.live = true ∧ q.slot = sl) →
      exec .endThread s = .next (setRes .waiting (onCur (fun c => { c with st := .waiting .ending }) s))) ∧
    (hasRelaxed s sl = false → (∀ q ∈ s.me.la.queue, q.record = none → q.live = true → q.slot ≠ sl) → Gives (exec .endThread s) fun t =>
      slotOf t sl = vacated (cur s) ∧ t.iss.res = .retired ∧ t.mem = s.mem ∧
      (∀ j < (cur s).winSize, spGet 0 t.me.pool ((cur s).winBase + j) = 0) ∧
      (∀ m ∈ t.me.mbox, isFor sl m = false) ∧ (∀ e ∈ t.me.dtlb ++ t.me.itlb, e.slot ≠ sl) ∧
      ∀ k, k ≠ sl → (slotOf t k).winBase = (slotOf s k).winBase ∧ (slotOf t k).pa = (slotOf s k).pa)) ∧
  (∀ (n5 : BitVec 5) (n16 : BitVec 16) (s : State), Unmarked s →
    let sl := s.iss.slot
    let count := (s.me.relaxed.filter fun a => a.slot == sl).length
    let fences (i : Instr) (kind n : Nat) (done : Prop) : Prop :=
      (done → exec i s = .next (advance s)) ∧
      (¬done → exec i s = .next (setRes .waiting (onCur (fun c => { c with st := .waiting (.fence kind n) }) s)))
    fences .fenceRx 0 0 (count = 0) ∧
    fences .fenceEng 1 0 (count = 0 ∧ hasEngine s sl = false) ∧
    fences .fenceSys 2 0 (count = 0 ∧ hasEngine s sl = false ∧ ∀ p ∈ s.me.posted, p.live = true → p.slot ≠ sl) ∧
    fences (.waitrx n5) 3 n5.toNat (count ≤ n5.toNat) ∧
    Gives (exec (.burst n16) s) fun t =>
      t.iss.res = .retired ∧ t.me.deadline = max s.me.deadline (s.clock + n16.toNat) ∧
      t.me.burst = true ∧ (s.me.power = .cold → t.me.power = .kindle (s.clock + 64)) ∧
      (∀ stop, s.me.power = .quench stop → t.me.power =
        (if 64 ≤ stop - s.clock then .hot else .kindle (s.clock + (64 - (stop - s.clock))))) ∧
      (s.me.power = .hot ∨ (∃ stop, s.me.power = .kindle stop) → t.me.power = s.me.power) ∧ t.me.slots = (advance s).me.slots ∧
      t.mem = s.mem ∧ t.me.pool = s.me.pool)

/-- R49, R90, R100: MFS reads every special register of the table, and TID its word of identity. -/
def Obligations.SpecialRegisterReads : Prop :=
  ∀ (d : BitVec 7) (s : State), Ready ⟨[.g d], [.g d]⟩ s →
    let c := cur s
    let m := s.me
    let nat (n : Nat) : Word := BitVec.ofNat 64 n
    let tab (k : Nat) : Word :=
      ((m.shadow[4 * k + 3]?).getD 0) ++ ((m.shadow[4 * k + 2]?).getD 0) ++ ((m.shadow[4 * k + 1]?).getD 0) ++
        ((m.shadow[4 * k]?).getD 0)
    let reads (sr : BitVec 12) (v : Word) : Prop := exec (.mfs d sr) s = .next (advance (wr d v s))
    reads 0x000 (nat c.thread) ∧ reads 0x001 (nat s.iss.slot) ∧ reads 0x002 (nat m.num) ∧
    reads 0x003 (nat (m.num / 96)) ∧ reads 0x004 (nat (m.num / 384)) ∧ reads 0x005 (nat s.pkg) ∧
    reads 0x010 (nat (s.clock - m.born)) ∧ reads 0x011 (nat c.task) ∧ reads 0x012 (nat c.ntask) ∧
    reads 0x020 (nat c.winBase) ∧ reads 0x021 (nat c.winSize) ∧
    reads 0x030 (c.tvec.setWidth 64 <<< 3) ∧ reads 0x031 (c.tpc.setWidth 64 <<< 3) ∧
    reads 0x032 (c.tcause.setWidth 64) ∧ reads 0x033 c.tval ∧ reads 0x034 (c.tpair.setWidth 64) ∧
    reads 0x040 (tab 0) ∧ reads 0x041 (tab 1) ∧ reads 0x042 (tab 2) ∧ reads 0x043 (tab 3) ∧
    reads 0x044 (m.rotPol.setWidth 64) ∧ reads 0x050 (m.cap ++ m.level) ∧ reads 0x051 (m.rate.setWidth 64) ∧
    reads 0x060 (m.bell.setWidth 64) ∧ reads 0x070 (tblCfg (tableOf s)) ∧ reads 0x080 (m.footprint.setWidth 64) ∧
    exec (.tid d) s = .next (advance (wr d (nat (c.thread * 2 ^ 16 + m.num * 16 + s.iss.slot)) s))

/-- R49, R19, R125, R131, R136, R323, R342, R346: MTS writes each register that may be written, TVEC, TPC, TPAIR and
TBLCFG by any thread, the others by a thread with privilege. A value that the entry refuses traps ILLEGAL with that
value, ROTPOL on a table that breaks R18 with the position of the entry, and the register keeps its value; a register
that may only be read traps ILLEGAL with the word's pattern. The steps that name the register are the same effect.
R49: a thread without privilege that writes a privileged register traps PRIV with the word's pattern, whatever the
value, and the register keeps its value. Rests on the model's own choice, log entries 14, 62 and 72. -/
def Obligations.SpecialRegisterWrites : Prop :=
  (∀ (d : BitVec 7) (s : State), Ready ⟨[.g d], []⟩ s →
    let v := rd s d
    let does (sr : BitVec 12) (named : Instr) (t : State) : Prop :=
      exec (.mts d sr) s = .next t ∧ (Ready ⟨[], []⟩ s → exec named s = .next t)
    let writes (sr : BitVec 12) (named : Instr) (t : State) : Prop := does sr named (advance t)
    let refuses (sr : BitVec 12) (named : Instr) (x : Word) : Prop := does sr named (takeTrap cIllegal x s)
    let me (f : Core → Core) : State := { s with me := f s.me }
    let shadowWith (n : Nat) : List (BitVec 16) :=
      s.me.shadow.take (4 * n) ++ [v.extractLsb' 0 16, v.extractLsb' 16 16, v.extractLsb' 32 16, v.extractLsb' 48 16] ++
        s.me.shadow.drop (4 * n + 4)
    let level := v.toNat % 2 ^ 32
    let cap := v.toNat / 2 ^ 32
    let tblGood : Prop := v.toNat < 2 ^ 27 ∧ (v.getLsbD 15 = true → v.extractLsb' 8 7 ≠ 0) ∧
      (v.getLsbD 23 = true → v.extractLsb' 16 7 ≠ 0) ∧
      ¬(v.getLsbD 15 = true ∧ v.getLsbD 23 = true ∧ v.extractLsb' 8 7 = v.extractLsb' 16 7)
    (v.toNat % 8 = 0 →
      writes 0x030 (.tvecWrite false v) (onCur (fun c => { c with tvec := v.extractLsb' 3 54 }) s) ∧
      writes 0x031 (.tvecWrite true v) (onCur (fun c => { c with tpc := v.extractLsb' 3 54 }) s)) ∧
    (v.toNat % 8 ≠ 0 → refuses 0x030 (.tvecWrite false v) v ∧ refuses 0x031 (.tvecWrite true v) v) ∧
    (v.toNat ≤ 1 → exec (.mts d 0x034) s = .next (advance (onCur (fun c => { c with tpair := v.setWidth 1 }) s))) ∧
    (1 < v.toNat → exec (.mts d 0x034) s = .next (takeTrap cIllegal v s)) ∧
    (tblGood → writes 0x070 (.tblcfgWrite v) (me fun m => { m with table := { m.table with
        infV := v.getLsbD 15, infC := v.extractLsb' 8 7, nanV := v.getLsbD 23, nanC := v.extractLsb' 16 7 } })) ∧
    (¬tblGood → refuses 0x070 (.tblcfgWrite v) v) ∧
    (∀ sr ∈ [0x000, 0x001, 0x002, 0x003, 0x004, 0x005, 0x010, 0x011, 0x012, 0x020, 0x021, 0x032, 0x033],
      exec (.mts d sr) s = .next (takeTrap cIllegal (patternOf (.mts d sr) s) s)) ∧
    ((cur s).prv = true →
      (v &&& 0x7FF07FF07FF07FF0 = 0 →
        writes 0x040 (.rottabWrite 0 v) (me fun m => { m with shadow := shadowWith 0 }) ∧
        writes 0x041 (.rottabWrite 1 v) (me fun m => { m with shadow := shadowWith 1 }) ∧
        writes 0x042 (.rottabWrite 2 v) (me fun m => { m with shadow := shadowWith 2 }) ∧
        writes 0x043 (.rottabWrite 3 v) (me fun m => { m with shadow := shadowWith 3 })) ∧
      (v &&& 0x7FF07FF07FF07FF0 ≠ 0 → refuses 0x040 (.rottabWrite 0 v) v ∧ refuses 0x041 (.rottabWrite 1 v) v ∧
        refuses 0x042 (.rottabWrite 2 v) v ∧ refuses 0x043 (.rottabWrite 3 v) v) ∧
      (v.toNat ≤ 1 → rotFault s.me.shadow = none → writes 0x044 (.rotpolWrite v)
        (me fun m => { m with rotPend := some (if s.ctx.fixed then 0 else v.setWidth 1, s.me.shadow) })) ∧
      (1 < v.toNat → refuses 0x044 (.rotpolWrite v) v) ∧
      (∀ p, v.toNat ≤ 1 → rotFault s.me.shadow = some p → refuses 0x044 (.rotpolWrite v) (BitVec.ofNat 64 p)) ∧
      (8 ≤ cap → level ≤ cap →
        writes 0x050 (.ebudgetWrite v)
          (me fun m => { m with cap := v.extractLsb' 32 32, level := v.extractLsb' 0 32, mq := waitingStep s }) ∧
        (s.me.mq = [] ∨ s.me.inFlight ≠ none → waitingStep s = s.me.mq) ∧
        ∀ c q, s.me.mq = c :: q → s.me.inFlight = none → waitingStep s = { c with ready := max c.ready (s.clock + 1) } :: q) ∧
      (cap < 8 ∨ cap < level → refuses 0x050 (.ebudgetWrite v) v) ∧
      (0 < v.toNat → v.toNat < 2 ^ 16 →
        writes 0x051 (.efillWrite v) (me fun m => { m with rate := v.setWidth 16, rateCfg := v.setWidth 16 })) ∧
      (v.toNat = 0 ∨ 2 ^ 16 ≤ v.toNat → refuses 0x051 (.efillWrite v) v) ∧
      (v.toNat < 2 ^ 48 → writes 0x060 (.bellWrite v) (me fun m => { m with bell := v.setWidth 48 })) ∧
      (2 ^ 48 ≤ v.toNat → refuses 0x060 (.bellWrite v) v) ∧
      (v.toNat < 2 ^ 35 → writes 0x080 (.footprintWrite v) (me fun m => { m with footprint := v.setWidth 35 })) ∧
      (2 ^ 35 ≤ v.toNat → refuses 0x080 (.footprintWrite v) v))) ∧
  (∀ (d : BitVec 7) (sr : BitVec 12) (s : State), Ready ⟨[.g d], []⟩ s → (cur s).prv = false →
    sr ∈ [0x040, 0x041, 0x042, 0x043, 0x044, 0x050, 0x051, 0x060, 0x080] →
    exec (.mts d sr) s = .next (takeTrap cPriv (patternOf (.mts d sr) s) s))

/-- R19: at position 0 the waiting table and policy take effect together, and the spare pointer starts at 0. R18, R19:
the table that an accepted ROTPOL write puts in waiting names no slot more than twice, and a slot named twice stands 8
positions apart. Rests on the model's own choice, log entry 14. -/
def Obligations.RotationTables : Prop :=
  (∀ (p : BitVec 1) (t : List (BitVec 16)) (s : State), s.me.rotPend = some (p, t) → (s.clock + s.me.phase) % 16 = 0 →
    exec .rotationSwitch s = .next { s with me := { s.me with rot := t, rotPol := p, rotPend := none, spare := 0 } }) ∧
  (∀ (d : BitVec 7) (s t : State), s.me.shadow.length = 16 → exec (.mts d 0x044) s = .next t → t.iss.res = .retired →
    ∃ (pol : BitVec 1), t.me.rotPend = some (pol, s.me.shadow) ∧
      ∀ p q e f, p < q → s.me.shadow[p]? = some e → s.me.shadow[q]? = some f →
        e.getLsbD 15 = true → f.getLsbD 15 = true → e.extractLsb' 0 4 = f.extractLsb' 0 4 → q = p + 8)

/-- R124, R125: taking a trap with TVEC not 0 sets TPC, TPAIR, TCAUSE and TVAL, puts the thread at word 0 of the pair
at TVEC, leaves it runnable with its window, and changes nothing else of the package. R127: a trap with TVEC = 0 and
no relaxed access outstanding ends the thread and sends a FAULT message, type 0xF1, to slot 15 of the principal's core
with the thread, the place, the cause and the value. R47, R126: a word that decodes to no form traps ILLEGAL with its
own pattern. -/
def Obligations.TrapEntry : Prop :=
  (∀ (cause : BitVec 5) (v : Word) (s : State), (cur s).tvec ≠ 0 →
    let t := takeTrap cause v s
    let c := cur t
    c.tpc = BitVec.ofNat 54 (s.iss.pa / 8) ∧ c.tpair = BitVec.ofNat 1 s.iss.word ∧ c.tcause = cause ∧ c.tval = v ∧
    c.pa = 8 * (cur s).tvec.toNat ∧ c.widx = 0 ∧ c.st = .runnable ∧ c.tvec = (cur s).tvec ∧
    c.winBase = (cur s).winBase ∧ c.winSize = (cur s).winSize ∧ c.thread = (cur s).thread ∧ c.prv = (cur s).prv ∧
    (∀ k, k ≠ s.iss.slot → slotOf t k = slotOf s k) ∧
    t = { s with me := { s.me with slots := t.me.slots }, iss := { s.iss with res := .trapped } }) ∧
  (∀ (cause : BitVec 5) (v : Word) (s : State), (cur s).tvec = 0 → hasRelaxed s s.iss.slot = false →
    let t := takeTrap cause v s
    slotOf t s.iss.slot = vacated (cur s) ∧ t.mem = s.mem ∧
    ∃ n : NetMsg, n ∈ t.net ∧ hdrType n.msg.hdr = 0xF1 ∧ hdrCore n.msg.hdr = 384 * (s.me.num / 384) % 2 ^ 12 ∧
      hdrSlot n.msg.hdr = 15 ∧
      n.msg.body = [BitVec.ofNat 64 (cur s).thread, (BitVec.ofNat 54 (s.iss.pa / 8)).setWidth 64 <<< 3,
        (BitVec.ofNat 1 s.iss.word).setWidth 64, cause.setWidth 64, v, BitVec.ofNat 64 (s.me.num * 16 + s.iss.slot), 0]) ∧
  (∀ (w : BitVec 32) (s : State),
    exec (.unassignedEncoding w) s = .next (takeTrap cIllegal (w.setWidth 64) s))

/-- R261: every blocking LD whose address lies in the space, is aligned, passes the checks, stays off other cores'
scratchpads and meets no poisoned atom writes gd with the bytes at the access's homes, sign- or zero-extended as the
form says, and retires; no byte of memory, no other register and no other part of the package changes. R261, R248:
every blocking ST that passes its checks to homes of the device off other cores' scratchpads, each byte at a home of
its own, writes the low bytes of gd there and retires; every other byte of memory and every register keeps its value.
-/
def Obligations.LoadStoreResults : Prop :=
  (∀ (d a imm : BitVec 7) (pages : List Tr) (s : State), Ready ⟨[.g d, .g a], [.g d]⟩ s → Prompt s →
    let loads (i : Instr) (n : Nat) (signed : Bool) : Prop :=
      let ea : Int := ((rd s a).toNat % 2 ^ 57 : Nat) + (n : Int) * imm.toInt
      let homes := (List.range n).map fun k => homeOf s pages (ea.toNat + k)
      let v := leNat (homes.map (byteAt s))
      0 ≤ ea → ea < 2 ^ 57 → ea % n = 0 → checkAccess s s.me.dtlb false [(ea.toNat, .read)] = .ok pages →
      (∀ h ∈ homes, isBad s h = false) → remoteHomes s.me.num homes = [] →
      Gives (exec i s) fun t =>
        t.iss.res = .retired ∧
        regAt t s.iss.slot d.toNat =
          (if signed = true ∧ 2 ^ (8 * n - 1) ≤ v then BitVec.ofInt 64 ((v : Int) - 2 ^ (8 * n)) else BitVec.ofNat 64 v) ∧
        (∀ j, j ≠ (cur s).winBase + d.toNat → spGet 0 t.me.pool j = spGet 0 s.me.pool j) ∧
        (∀ k, k ≠ s.iss.slot → slotOf t k = slotOf s k) ∧ cur t = cur (advance s) ∧
        t = { s with me := { s.me with pool := t.me.pool, slots := t.me.slots, dtlb := t.me.dtlb, nextId := t.me.nextId },
                     iss := t.iss }
    loads (.ldB d a imm) 1 true ∧ loads (.ldBu d a imm) 1 false ∧ loads (.ldH d a imm) 2 true ∧
    loads (.ldHu d a imm) 2 false ∧ loads (.ldW d a imm) 4 true ∧ loads (.ldWu d a imm) 4 false ∧
    loads (.ldD d a imm) 8 false) ∧
  (∀ (d a imm : BitVec 7) (pages : List Tr) (s : State), Ready ⟨[.g d, .g a], []⟩ s → Prompt s →
    let stores (i : Instr) (n : Nat) : Prop :=
      let ea : Int := ((rd s a).toNat % 2 ^ 57 : Nat) + (n : Int) * imm.toInt
      let homes := (List.range n).map fun k => homeOf s pages (ea.toNat + k)
      0 ≤ ea → ea < 2 ^ 57 → ea % n = 0 → checkAccess s s.me.dtlb false [(ea.toNat, .write)] = .ok pages →
      homes.Nodup → (∀ h ∈ homes, isHost h = false) → remoteHomes s.me.num homes = [] →
      Gives (exec i s) fun t =>
        t.iss.res = .retired ∧
        (∀ k < n, memAt t (homeOf s pages (ea.toNat + k)) = (rd s d).extractLsb' (8 * k) 8) ∧
        (∀ h, h ∉ homes → memAt t h = memAt s h) ∧ t.me.pool = s.me.pool ∧ (cur t).pa = (cur (advance s)).pa ∧
        t.me.vectors = s.me.vectors ∧ t.me.table = s.me.table
    stores (.stB d a imm) 1 ∧ stores (.stH d a imm) 2 ∧ stores (.stW d a imm) 4 ∧ stores (.stD d a imm) 8)

/-- R25, R26, R34, R48, R128: a parallel pair of words that decode. It waits for the relaxed loads that either word
names; then a register outside the window, of word 0 before word 1, traps REG_BOUNDS, and a register that both write
traps ILLEGAL with the lowest such number. After that both words act on the registers as they stood before the pair,
and both retire or neither: where word 0 traps, parks or forfeits, word 1 writes nothing; where word 1 traps, word 0
has no effect; where both retire, the registers that word 1 writes have what it gives alone, and all else is as word 0
leaves it; where word 1 holds the thread, the pair retires with its hold; where word 0 waits for its own effect, word
1 is kept beside it, and retires with it. Rests on the model's own choice, log entries 12 and 17. -/
def Obligations.PairResults : Prop :=
  (∀ (i0 i1 : Instr) (w0 w1 : BitVec 32) (s : State), encode i0 = some w0 → encode i1 = some w1 → classA w0 = false →
    classA w1 = true →
    let s' : State := { s with iss := { s.iss with
      word := 0, par := true, latch := some ⟨s.me.pool, s.me.table⟩, res := .running } }
    let sl := s.iss.slot
    let ks := awaited s' (uses i0) ++ awaited s' (uses i1)
    let both (k : Nat) : Prop := k ∈ writtenRegs s' (uses i0) ∧ k ∈ writtenRegs s' (uses i1)
    let run := runPair exec i0 i1 s
    (ks ≠ [] → run = .next (setRes .waiting (onCur (fun c => { c with st := .waiting (.regs ks) }) s'))) ∧
    (∀ v, ks = [] → boundsFault s' (uses i0).names = some v → run = .next (takeTrap cRegBounds v s')) ∧
    (∀ v, ks = [] → boundsFault s' (uses i0).names = none → boundsFault s' (uses i1).names = some v →
      run = .next (takeTrap cRegBounds v (onWord 1 s'))) ∧
    (ks = [] → boundsFault s' (uses i0).names = none → boundsFault s' (uses i1).names = none →
      (∀ k < 128, both k → (∀ j < k, ¬both j) → run = .next (takeTrap cIllegal (BitVec.ofNat 64 k) (onWord 1 s'))) ∧
      ((∀ k < 128, ¬both k) → ∀ t0, exec i0 s' = .next t0 →
        (t0.iss.res = .trapped ∨ t0.iss.res = .parked ∨ t0.iss.res = .forfeited → run = .next t0) ∧
        ∀ t1, exec i1 (onWord 1 s') = .next t1 →
          (t0.iss.res = .retired → t1.iss.res = .trapped → run = .next t1) ∧
          (t0.iss.res = .retired → (cur t0).st = .empty → t1.iss.res = .retired → (cur s).st = .runnable → run = .next t0) ∧
          (t0.iss.res = .retired → (cur t0).st ≠ .empty → (cur t0).pend = [] → t1.iss.res = .retired →
            (cur s).st = .runnable → Gives run fun t =>
            t.iss.res = .retired ∧ t.mem = t0.mem ∧ (cur t).pa = (cur t0).pa ∧ (cur t).widx = (cur t0).widx ∧
            (cur t).st = (cur t0).st ∧ (∀ k ∈ writtenRegs s' (uses i1), regAt t sl k = regAt t1 sl k) ∧
            ∀ k, k ∉ writtenRegs s' (uses i1) → regAt t sl k = regAt t0 sl k) ∧
          (∀ stop, t0.iss.res = .retired → (cur t0).st = .runnable → t1.iss.res = .held → (cur t1).st = .held stop →
            0 < stop → Gives run fun t => t.mem = t0.mem ∧ t.me.pool = t0.me.pool ∧ (cur t).pa = (cur t0).pa ∧
              (cur t).widx = (cur t0).widx ∧ (cur t).st = .held stop ∧ (cur t).pend = (cur t1).pend) ∧
          ∀ w, t0.iss.res = .waiting → (cur t0).st = .waiting w →
            (t1.iss.res = .trapped → run = .next t1) ∧
            (t1.iss.res ≠ .trapped → waitsInside w = false → w ≠ .ending → run = .next t0) ∧
            (t1.iss.res ≠ .trapped → waitsInside w = true ∨ w = .ending →
              run = .next (withPartner ⟨i1, ⟨s.me.pool, s.me.table⟩, holdOf t1⟩ t0))))) ∧
  ∀ (x : Access) (d : Nat) (dd aa bb : BitVec 7) (l : Latch) (s : State), x.act = .load d 8 false → x.got = [] →
    x.due ≤ s.clock → s.me.relaxed = [] → s.me.posted = [] →
    let c := slotOf s x.slot
    let homes := (List.range 8).map fun k => homeOf s x.pages (x.va + k)
    c.st = .waiting (.reply x) → c.partner = some ⟨.add dd aa bb, l, 0⟩ → c.poisoned = [] → c.widx = 0 →
    dd.toNat < c.winSize → aa.toNat < c.winSize → bb.toNat < c.winSize → d ≠ dd.toNat →
    (∀ h ∈ homes, isBad s h = false) → Gives (exec (.blockingReply x.slot) s) fun t =>
      (slotOf t x.slot).st = .runnable ∧ (slotOf t x.slot).pa = (c.pa + 8) % 2 ^ 57 / 8 * 8 ∧ (slotOf t x.slot).widx = 0 ∧
      (slotOf t x.slot).partner = none ∧ t.mem = s.mem ∧
      regAt t x.slot d = BitVec.ofNat 64 (leNat (homes.map (byteAt s))) ∧
      regAt t x.slot dd.toNat = spGet 0 l.pool (c.winBase + aa.toNat) + spGet 0 l.pool (c.winBase + bb.toNat)

/-- R27, R248, R249: a relaxed scalar access that passes its checks and leaves the core retires at once and stands
among the outstanding ones with its address, its pages and what it will do; nothing is read or written yet. One that
the core's own banks have granted is complete as it retires, a poisoned one leaving its mark. With 32 outstanding it
waits instead. R27, R249, R267: the relaxed vector accesses that pass their checks and touch no atom of the core's own
banks retire at once and stand among the outstanding ones; nothing is read or written yet. One that the core's own
banks hold whole is complete as it retires. A blocking one that reaches another core's scratchpad, and no atom of the
core's own, waits for its reply. R24, R27, R248: a blocking scalar access that passes its checks and either meets a
delay outside the device region or reaches another core's scratchpad waits in its place: it stands in the slot with
its address, its pages and what it will do, and nothing is read or written yet. Rests on the model's own choice, log
entries 6, 12 and 16. -/
def Obligations.RelaxedIssue : Prop :=
  (∀ (d a imm : BitVec 7) (pages : List Tr) (s : State), Ready ⟨[.g d, .g a], [.g d]⟩ s →
    let issues (i : Instr) (kind : AccKind) (n : Nat) (act : AccAct) (regs : List Nat) : Prop :=
      let ea : Int := ((rd s a).toNat % 2 ^ 57 : Nat) + (n : Int) * imm.toInt
      let mine := (s.me.relaxed.filter fun x => x.slot == s.iss.slot).length
      let homes := (List.range n).map fun k => homeOf s pages (ea.toNat + k)
      0 ≤ ea → ea < 2 ^ 57 → ea % n = 0 → checkAccess s s.me.dtlb false [(ea.toNat, kind)] = .ok pages →
      (mine < 32 → inDevice ea.toNat = false ∨ remoteHomes s.me.num homes ≠ [] → Gives (exec i s) fun t =>
        t.iss.res = .retired ∧ t.mem = s.mem ∧ t.me.pool = s.me.pool ∧ cur t = cur (advance s) ∧
        ∃ x : Access, t.me.relaxed = s.me.relaxed ++ [x] ∧ x.slot = s.iss.slot ∧ x.va = ea.toNat ∧ x.pages = pages ∧
          x.act = act ∧ x.regs = regs ∧ s.clock ≤ x.due) ∧
      (32 ≤ mine → Gives (exec i s) fun t =>
        t.iss.res = .waiting ∧ (cur t).st = .waiting .limit ∧ (cur t).pa = (cur s).pa ∧ (cur t).widx = (cur s).widx ∧
        t.mem = s.mem ∧ t.me.relaxed = s.me.relaxed)
    let own (n : Nat) (kind : AccKind) : Prop :=
      let ea : Int := ((rd s a).toNat % 2 ^ 57 : Nat) + (n : Int) * imm.toInt
      s.me.relaxed = [] ∧ s.me.posted = [] ∧ 0 ≤ ea ∧ ea < 2 ^ 57 ∧ ea % n = 0 ∧ inDevice ea.toNat = true ∧
        checkAccess s s.me.dtlb false [(ea.toNat, kind)] = .ok pages ∧
        remoteHomes s.me.num ((List.range n).map fun k => homeOf s pages (ea.toNat + k)) = []
    let loads (i : Instr) (n : Nat) (signed : Bool) : Prop :=
      let ea : Int := ((rd s a).toNat % 2 ^ 57 : Nat) + (n : Int) * imm.toInt
      let homes := (List.range n).map fun k => homeOf s pages (ea.toNat + k)
      let v := leNat (homes.map (byteAt s))
      own n .read →
      ((∀ h ∈ homes, isBad s h = false) → Gives (exec i s) fun t =>
        t.iss.res = .retired ∧ t.me.relaxed = [] ∧ t.mem = s.mem ∧ regAt t s.iss.slot d.toNat =
          (if signed = true ∧ 2 ^ (8 * n - 1) ≤ v then BitVec.ofInt 64 ((v : Int) - 2 ^ (8 * n)) else BitVec.ofNat 64 v)) ∧
      ((∃ h ∈ homes, isBad s h = true) → Gives (exec i s) fun t =>
        t.iss.res = .retired ∧ t.me.relaxed = [] ∧ t.mem = s.mem ∧ t.me.pool = s.me.pool ∧
        (cur t).poisoned = (cur s).poisoned ++ [⟨[d.toNat], ea.toNat⟩])
    let stores (i : Instr) (n : Nat) : Prop :=
      let ea : Int := ((rd s a).toNat % 2 ^ 57 : Nat) + (n : Int) * imm.toInt
      let homes := (List.range n).map fun k => homeOf s pages (ea.toNat + k)
      own n .write → homes.Nodup → (∀ h ∈ homes, isHost h = false) → Gives (exec i s) fun t =>
        t.iss.res = .retired ∧ t.me.relaxed = [] ∧ t.me.pool = s.me.pool ∧
        (∀ k < n, memAt t (homeOf s pages (ea.toNat + k)) = (rd s d).extractLsb' (8 * k) 8) ∧
        (∀ h, h ∉ homes → memAt t h = memAt s h)
    loads (.ldBRx d a imm) 1 true ∧ loads (.ldBuRx d a imm) 1 false ∧ loads (.ldHRx d a imm) 2 true ∧
    loads (.ldHuRx d a imm) 2 false ∧ loads (.ldWRx d a imm) 4 true ∧ loads (.ldWuRx d a imm) 4 false ∧
    loads (.ldDRx d a imm) 8 false ∧
    stores (.stBRx d a imm) 1 ∧ stores (.stHRx d a imm) 2 ∧ stores (.stWRx d a imm) 4 ∧ stores (.stDRx d a imm) 8 ∧
    let v := rd s d
    let g := d.toNat
    issues (.ldBRx d a imm) .read 1 (.load g 1 true) [g] ∧ issues (.ldBuRx d a imm) .read 1 (.load g 1 false) [g] ∧
    issues (.ldHRx d a imm) .read 2 (.load g 2 true) [g] ∧ issues (.ldHuRx d a imm) .read 2 (.load g 2 false) [g] ∧
    issues (.ldWRx d a imm) .read 4 (.load g 4 true) [g] ∧ issues (.ldWuRx d a imm) .read 4 (.load g 4 false) [g] ∧
    issues (.ldDRx d a imm) .read 8 (.load g 8 false) [g] ∧
    issues (.stBRx d a imm) .write 1 (.store 1 v) [] ∧ issues (.stHRx d a imm) .write 2 (.store 2 v) [] ∧
    issues (.stWRx d a imm) .write 4 (.store 4 v) [] ∧ issues (.stDRx d a imm) .write 8 (.store 8 v) []) ∧
  (∀ (d : BitVec 4) (a imm : BitVec 7) (vb : BitVec 4) (pages : List Tr) (s : State),
    Ready ⟨[.v d, .g a, .v vb], [.v d]⟩ s →
    let p := rd s a
    let f := moveFmt (fmtOf p)
    let base : Int := (p.toNat % 2 ^ 57 : Nat) + 64 * imm.toInt
    let es := (indicesOf (fmtOf p) (rdV s vb)).map (indexed (fmtOf p) (p.toNat % 2 ^ 57))
    let es' := es.map fun e => (e.1.toNat, e.2)
    let addrs (va : Nat) (act : AccAct) : List Nat := accAddrs
      { id := 0, slot := s.iss.slot, va := va, pages := pages, act := act, regs := [], due := 0 }
    let leaves (va : Nat) (act : AccAct) : Prop :=
      ∀ x ∈ addrs va act, inDevice x = false ∨ remoteHomes s.me.num [homeOf s pages x] ≠ []
    let issues (i : Instr) (kind : AccKind) (vec : Bool) (va : Nat) (act : AccAct) : Prop :=
      checkAccess s s.me.dtlb vec (probesOf kind
        { id := 0, slot := s.iss.slot, va := va, pages := pages, act := act, regs := [], due := 0 }) = .ok pages →
      (s.me.relaxed.filter fun x => x.slot == s.iss.slot).length < 32 → leaves va act →
      Gives (exec i s) fun t =>
        t.iss.res = .retired ∧ t.mem = s.mem ∧ t.me.pool = s.me.pool ∧ cur t = cur (advance s) ∧
        ∃ x : Access, t.me.relaxed = s.me.relaxed ++ [x] ∧ x.slot = s.iss.slot ∧ x.va = va ∧ x.pages = pages ∧ x.act = act
    let blocks (i : Instr) (kind : AccKind) (vec : Bool) (va : Nat) (act : AccAct) : Prop :=
      let x : Access :=
        { id := 0, slot := s.iss.slot, va := va, pages := pages, act := act, regs := [], due := 0 }
      checkAccess s s.me.dtlb vec (probesOf kind x) = .ok pages →
      remoteHomes s.me.num ((accAddrs x).map (homeOf s pages)) ≠ [] → leaves va act →
      Gives (exec i s) fun t =>
        t.iss.res = .waiting ∧ t.mem = s.mem ∧ t.me.pool = s.me.pool ∧ (cur t).pa = (cur s).pa ∧
        ∃ x : Access, (cur t).st = .waiting (.reply x) ∧ x.slot = s.iss.slot ∧ x.va = va ∧ x.pages = pages ∧ x.act = act
    let own (kind : AccKind) (vec : Bool) (va : Nat) (act : AccAct) : Prop :=
      s.me.relaxed = [] ∧ s.me.posted = [] ∧ checkAccess s s.me.dtlb vec (probesOf kind
        { id := 0, slot := s.iss.slot, va := va, pages := pages, act := act, regs := [], due := 0 }) = .ok pages ∧
      ∀ x ∈ addrs va act, inDevice x = true ∧ remoteHomes s.me.num [homeOf s pages x] = [] ∧ isHost (homeOf s pages x) = false
    let loads (i : Instr) (vec : Bool) (va f : Nat) (es : List (Nat × Bool)) : Prop :=
      let act : AccAct := .vload d.toNat f (blOf p) es (tableOf s)
      own .read vec va act → Gives (exec i s) fun t =>
        t.iss.res = .retired ∧ t.me.relaxed = [] ∧ t.mem = s.mem ∧
        ((∀ x ∈ addrs va act, isBad s (homeOf s pages x) = false) →
          vecAt t d = laneWords f (loadElems s pages f (blOf p) (tableOf s) es)) ∧
        ((∃ x ∈ addrs va act, isBad s (homeOf s pages x) = true) → t.me.pool = s.me.pool ∧
          (cur t).poisoned = (cur s).poisoned ++ [⟨(List.range 8).map (8 * d.toNat + ·), va⟩])
    let stores (i : Instr) (vec : Bool) (va f : Nat) (es : List (Nat × Bool)) : Prop :=
      let lanes := lanesOf f (rdV s d)
      own .write vec va (.vstore f (blOf p) es lanes (tableOf s)) → Gives (exec i s) fun t =>
        t.iss.res = .retired ∧ t.me.relaxed = [] ∧ t.me.pool = s.me.pool ∧
        t.mem = spSetAll 0 s.mem (storeBytes s pages f (blOf p) (tableOf s) es lanes)
    badFormat p = false →
    (0 ≤ base → base + vecBytes (fmtOf p) ≤ 2 ^ 57 → base % elemBytes (fmtOf p) = 0 →
      loads (.ldvRx d a imm) true base.toNat f (linearElems (fmtOf p) base.toNat) ∧
      (base < Config.controlWindow → stores (.stvRx d a imm) true base.toNat f (linearElems (fmtOf p) base.toNat)) ∧
      issues (.ldvRx d a imm) .read true base.toNat
        (.vload d.toNat f (blOf p) (linearElems (fmtOf p) base.toNat) (tableOf s)) ∧
      issues (.stvRx d a imm) .write true base.toNat
        (.vstore f (blOf p) (linearElems (fmtOf p) base.toNat) (lanesOf f (rdV s d)) (tableOf s)) ∧
      blocks (.ldv d a imm) .read true base.toNat
        (.vload d.toNat f (blOf p) (linearElems (fmtOf p) base.toNat) (tableOf s)) ∧
      (base < Config.controlWindow → blocks (.stv d a imm) .write true base.toNat
        (.vstore f (blOf p) (linearElems (fmtOf p) base.toNat) (lanesOf f (rdV s d)) (tableOf s)))) ∧
    ((∀ e ∈ es, 0 ≤ e.1 ∧ e.1 < 2 ^ 57 ∧ e.1 % elemBytes (fmtOf p) = 0) →
      loads (.gatherRx d a vb) false (p.toNat % 2 ^ 57) (fmtOf p) es' ∧
      stores (.scatterRx d a vb) false (p.toNat % 2 ^ 57) (fmtOf p) es' ∧
      issues (.gatherRx d a vb) .read false (p.toNat % 2 ^ 57) (.vload d.toNat (fmtOf p) (blOf p) es' (tableOf s)) ∧
      issues (.scatterRx d a vb) .write false (p.toNat % 2 ^ 57)
        (.vstore (fmtOf p) (blOf p) es' (lanesOf (fmtOf p) (rdV s d)) (tableOf s)) ∧
      blocks (.gather d a vb) .read false (p.toNat % 2 ^ 57) (.vload d.toNat (fmtOf p) (blOf p) es' (tableOf s)) ∧
      blocks (.scatter d a vb) .write false (p.toNat % 2 ^ 57)
        (.vstore (fmtOf p) (blOf p) es' (lanesOf (fmtOf p) (rdV s d)) (tableOf s)))) ∧
  (∀ (d a imm : BitVec 7) (pages : List Tr) (s : State), Ready ⟨[.g d, .g a], [.g d]⟩ s →
    let waits (i : Instr) (kind : AccKind) (n : Nat) (act : AccAct) : Prop :=
      let ea : Int := ((rd s a).toNat % 2 ^ 57 : Nat) + (n : Int) * imm.toInt
      let homes := (List.range n).map fun k => homeOf s pages (ea.toNat + k)
      0 ≤ ea → ea < 2 ^ 57 → ea % n = 0 → checkAccess s s.me.dtlb false [(ea.toNat, kind)] = .ok pages →
      remoteHomes s.me.num homes ≠ [] ∨ (inDevice ea.toNat = false ∧ ∃ k ks, s.delays = (k + 1) :: ks) →
      Gives (exec i s) fun t =>
        t.iss.res = .waiting ∧ t.mem = s.mem ∧ t.me.pool = s.me.pool ∧ t.me.relaxed = s.me.relaxed ∧
        ∃ x : Access, cur t = { cur s with st := .waiting (.reply x) } ∧ x.slot = s.iss.slot ∧ x.va = ea.toNat ∧
          x.pages = pages ∧ x.act = act ∧ s.clock < x.due
    let v := rd s d
    let g := d.toNat
    waits (.ldB d a imm) .read 1 (.load g 1 true) ∧ waits (.ldBu d a imm) .read 1 (.load g 1 false) ∧
    waits (.ldH d a imm) .read 2 (.load g 2 true) ∧ waits (.ldHu d a imm) .read 2 (.load g 2 false) ∧
    waits (.ldW d a imm) .read 4 (.load g 4 true) ∧ waits (.ldWu d a imm) .read 4 (.load g 4 false) ∧
    waits (.ldD d a imm) .read 8 (.load g 8 false) ∧
    waits (.stB d a imm) .write 1 (.store 1 v) ∧ waits (.stH d a imm) .write 2 (.store 2 v) ∧
    waits (.stW d a imm) .write 4 (.store 4 v) ∧ waits (.stD d a imm) .write 8 (.store 8 v))

/-- R249, R25, R128: a relaxed load that completes writes its register with the bytes at its homes and wakes a pair
that waits for it; where an atom is poisoned the register keeps its value and the slot carries the mark. A blocking
access whose reply arrives is applied, and its word retires. Neither comes about before its cycle. R26, R98, R248,
R266: a hold that has ended writes its results and leaves the slot runnable; of a posted store that the host takes,
the bits that the store writes are written, and every other bit and byte keeps its value; a thread that waited to
publish until it was complete is runnable. Rests on the model's own choice, log entries 6, 11, 12, 16 and 61. -/
def Obligations.AccessReplies : Prop :=
  (∀ (x : Access) (d n : Nat) (s : State),
    let homes := (List.range n).map fun k => homeOf s x.pages (x.va + k)
    let v : Word := BitVec.ofNat 64 (leNat (homes.map (byteAt s)))
    x.act = .load d n false → x.got = [] →
    (s.clock < x.due → x.parts = [] →
      (s.me.relaxed = [x] →
        exec (.relaxedAccessComplete x.id) s = .refused (.notDue "RELAXED_ACCESS_COMPLETE")) ∧
      ((slotOf s x.slot).st = .waiting (.reply x) →
        exec (.blockingReply x.slot) s = .refused (.notDue "BLOCKING_REPLY"))) ∧
    (x.due ≤ s.clock → s.me.relaxed = [x] → s.me.posted = [] → x.regs = [d] →
      ((∀ h ∈ homes, isBad s h = false) → Gives (exec (.relaxedAccessComplete x.id) s) fun t =>
        t.me.relaxed = [] ∧ regAt t x.slot d = v ∧ t.mem = s.mem ∧
        ((slotOf s x.slot).st = .waiting (.regs [d]) → (slotOf t x.slot).st = .runnable)) ∧
      ((∃ h ∈ homes, isBad s h = true) → Gives (exec (.relaxedAccessComplete x.id) s) fun t =>
        t.me.relaxed = [] ∧ t.me.pool = s.me.pool ∧ t.mem = s.mem ∧
        (slotOf t x.slot).poisoned = (slotOf s x.slot).poisoned ++ [⟨[d], x.va⟩])) ∧
    (x.due ≤ s.clock → s.me.relaxed = [] → s.me.posted = [] → (slotOf s x.slot).st = .waiting (.reply x) →
      (slotOf s x.slot).partner = none → (∀ h ∈ homes, isBad s h = false) →
      Gives (exec (.blockingReply x.slot) s) fun t =>
        regAt t x.slot d = v ∧ (slotOf t x.slot).st = .runnable ∧ t.mem = s.mem ∧
        ((slotOf s x.slot).widx = 0 → (slotOf t x.slot).widx = 1 ∧ (slotOf t x.slot).pa = (slotOf s x.slot).pa) ∧
        ((slotOf s x.slot).widx ≠ 0 → (slotOf t x.slot).widx = 0 ∧
          (slotOf t x.slot).pa = ((slotOf s x.slot).pa + 8) % 2 ^ 57 / 8 * 8))) ∧
  ((∀ (k j stop : Nat) (v : Word) (s : State), (slotOf s k).st = .held stop → stop ≤ s.clock →
    (slotOf s k).pend = [(j, v)] →
    Gives (exec (.holdEnd k) s) fun t =>
      (slotOf t k).st = .runnable ∧ (slotOf t k).pend = [] ∧ regAt t k j = v ∧ t.mem = s.mem ∧
      (∀ i, i ≠ (slotOf s k).winBase + j → spGet 0 t.me.pool i = spGet 0 s.me.pool i)) ∧
  ∀ (p : Posted) (s : State), s.me.posted = [p] → p.due ≤ s.clock →
    let home (e : Nat × Byte × Byte) : Nat := homeOf s p.pages e.1
    (p.bytes.map home).Nodup →
    Gives (exec .postedWriteDrain s) fun t =>
      t.me.posted = [] ∧
      (∀ e ∈ p.bytes, ∀ k < 8, (memAt t (home e)).getLsbD k =
        if e.2.1.getLsbD k = true then e.2.2.getLsbD k else (memAt s (home e)).getLsbD k) ∧
      (∀ h, h ∉ p.bytes.map home → memAt t h = memAt s h) ∧ t.me.pool = s.me.pool ∧
      ((slotOf s p.slot).st = .waiting .posted → (slotOf t p.slot).st = .runnable))

/-- R262, R265, R266: LDV and GATHER that pass their checks write the sixteen (or eight) lanes of vd with the elements
at the homes of their addresses, converted from the pointer's format and scaled, and retire; memory keeps every byte.
R264 to R266: STV and SCATTER that pass their checks and write no host page write, for each element in ascending
order, the lane's code at the homes of its address, and retire; every byte that no element names keeps its value.
Rests on the model's own choice, log entry 20. -/
def Obligations.VectorAccessResults : Prop :=
  (∀ (d : BitVec 4) (a imm : BitVec 7) (vb : BitVec 4) (pages : List Tr) (s : State),
    Ready ⟨[.v d, .g a, .v vb], [.v d]⟩ s → Prompt s →
    let p := rd s a
    let base : Int := (p.toNat % 2 ^ 57 : Nat) + 64 * imm.toInt
    let loads (i : Instr) (va f : Nat) (vec : Bool) (es : List (Nat × Bool)) : Prop :=
      let x : Access :=
        { id := 0, slot := s.iss.slot, va := va, pages := pages, act := .vload d.toNat f (blOf p) es (tableOf s), regs := [], due := 0 }
      checkAccess s s.me.dtlb vec (probesOf .read x) = .ok pages →
      (∀ v ∈ accAddrs x, isBad s (homeOf s pages v) = false) →
      remoteHomes s.me.num ((accAddrs x).map (homeOf s pages)) = [] →
      Gives (exec i s) fun t =>
        t.iss.res = .retired ∧ vecAt t d = laneWords f (loadElems s pages f (blOf p) (tableOf s) es) ∧ t.mem = s.mem ∧
        (∀ j, (j < (cur s).winBase + 8 * d.toNat ∨ (cur s).winBase + 8 * d.toNat + 8 ≤ j) →
          spGet 0 t.me.pool j = spGet 0 s.me.pool j) ∧ cur t = cur (advance s)
    badFormat p = false →
    (0 ≤ base → base + vecBytes (fmtOf p) ≤ 2 ^ 57 → base % elemBytes (fmtOf p) = 0 →
      loads (.ldv d a imm) base.toNat (moveFmt (fmtOf p)) true (linearElems (fmtOf p) base.toNat)) ∧
    (let es := (indicesOf (fmtOf p) (rdV s vb)).map (indexed (fmtOf p) (p.toNat % 2 ^ 57))
     (∀ e ∈ es, 0 ≤ e.1 ∧ e.1 < 2 ^ 57 ∧ e.1 % elemBytes (fmtOf p) = 0) →
      loads (.gather d a vb) (p.toNat % 2 ^ 57) (fmtOf p) false (es.map fun e => (e.1.toNat, e.2)))) ∧
  (∀ (d : BitVec 4) (a imm : BitVec 7) (vb : BitVec 4) (pages : List Tr) (s : State),
    Ready ⟨[.v d, .g a, .v vb], []⟩ s → Prompt s →
    let p := rd s a
    let base : Int := (p.toNat % 2 ^ 57 : Nat) + 64 * imm.toInt
    let stores (i : Instr) (va f : Nat) (vec : Bool) (es : List (Nat × Bool)) : Prop :=
      let lanes := lanesOf f (rdV s d)
      let x : Access :=
        { id := 0, slot := s.iss.slot, va := va, pages := pages, act := .vstore f (blOf p) es lanes (tableOf s), regs := [], due := 0 }
      let bytes := storeBytes s pages f (blOf p) (tableOf s) es lanes
      checkAccess s s.me.dtlb vec (probesOf .write x) = .ok pages → (∀ e ∈ bytes, isHost e.1 = false) →
      remoteHomes s.me.num ((accAddrs x).map (homeOf s pages)) = [] →
      Gives (exec i s) fun t =>
        t.iss.res = .retired ∧ (∀ h, memAt t h = spGet 0 (spSetAll 0 s.mem bytes) h) ∧
        (∀ h, h ∉ bytes.map (·.1) → memAt t h = memAt s h) ∧ t.me.pool = s.me.pool
    badFormat p = false →
    (0 ≤ base → base + vecBytes (fmtOf p) ≤ 2 ^ 57 → base % elemBytes (fmtOf p) = 0 → base < Config.controlWindow →
      stores (.stv d a imm) base.toNat (moveFmt (fmtOf p)) true (linearElems (fmtOf p) base.toNat)) ∧
    (let es := (indicesOf (fmtOf p) (rdV s vb)).map (indexed (fmtOf p) (p.toNat % 2 ^ 57))
     (∀ e ∈ es, 0 ≤ e.1 ∧ e.1 < 2 ^ 57 ∧ e.1 % elemBytes (fmtOf p) = 0) →
      stores (.scatter d a vb) (p.toNat % 2 ^ 57) (fmtOf p) false (es.map fun e => (e.1.toNat, e.2))))

/-- R268: every AMO that is aligned, passes its checks off host memory and meets no poisoned atom writes f(old, b) on
its 4 or 8 bytes and gd with the old value, sign-extended; every other byte and register keeps its value. In another
core's scratchpad it waits for its reply. Rests on the model's own choice, log entries 6 and 16. It is in the clause
of an AMO on another core's scratchpad, which waits for its reply. -/
def Obligations.AtomicResults : Prop :=
  ∀ (d a b : BitVec 7) (pages : List Tr) (s : State), Ready ⟨[.g d, .g a, .g b], [.g d]⟩ s → Prompt s →
    let ea := (rd s a).toNat % 2 ^ 57
    let amos (i : Instr) (n : Nat) (f : (x y c : BitVec (8 * n)) → BitVec (8 * n)) : Prop :=
      let homes := (List.range n).map fun k => homeOf s pages (ea + k)
      let old : BitVec (8 * n) := BitVec.ofNat (8 * n) (leNat (homes.map (byteAt s)))
      ea % n = 0 → onHost s ea = false → checkAccess s s.me.dtlb false [(ea, .atomic)] = .ok pages → homes.Nodup →
      (remoteHomes s.me.num homes ≠ [] → Gives (exec i s) fun t =>
        t.iss.res = .waiting ∧ t.mem = s.mem ∧ t.me.pool = s.me.pool ∧ ∃ x : Access, (cur t).st = .waiting (.reply x) ∧
          x.va = ea ∧ x.pages = pages ∧ x.regs = [d.toNat] ∧ s.clock < x.due) ∧
      (remoteHomes s.me.num homes = [] → (∀ h ∈ homes, isBad s h = false) →
      Gives (exec i s) fun t =>
        t.iss.res = .retired ∧ regAt t s.iss.slot d.toNat = old.signExtend 64 ∧
        (∀ k < n, memAt t (homeOf s pages (ea + k)) =
          (f old ((rd s b).setWidth (8 * n)) ((rd s d).setWidth (8 * n))).extractLsb' (8 * k) 8) ∧
        (∀ h, h ∉ homes → memAt t h = memAt s h) ∧
        (∀ j, j ≠ (cur s).winBase + d.toNat → spGet 0 t.me.pool j = spGet 0 s.me.pool j))
    amos (.amoaddW d a b) 4 (fun x y _ => x + y) ∧ amos (.amoaddD d a b) 8 (fun x y _ => x + y) ∧
    amos (.amoandW d a b) 4 (fun x y _ => x &&& y) ∧ amos (.amoandD d a b) 8 (fun x y _ => x &&& y) ∧
    amos (.amoorW d a b) 4 (fun x y _ => x ||| y) ∧ amos (.amoorD d a b) 8 (fun x y _ => x ||| y) ∧
    amos (.amoxorW d a b) 4 (fun x y _ => x ^^^ y) ∧ amos (.amoxorD d a b) 8 (fun x y _ => x ^^^ y) ∧
    amos (.amominW d a b) 4 (fun x y _ => if y.toInt < x.toInt then y else x) ∧
    amos (.amominD d a b) 8 (fun x y _ => if y.toInt < x.toInt then y else x) ∧
    amos (.amomaxW d a b) 4 (fun x y _ => if x.toInt < y.toInt then y else x) ∧
    amos (.amomaxD d a b) 8 (fun x y _ => if x.toInt < y.toInt then y else x) ∧
    amos (.amominuW d a b) 4 (fun x y _ => if y.toNat < x.toNat then y else x) ∧
    amos (.amominuD d a b) 8 (fun x y _ => if y.toNat < x.toNat then y else x) ∧
    amos (.amomaxuW d a b) 4 (fun x y _ => if x.toNat < y.toNat then y else x) ∧
    amos (.amomaxuD d a b) 8 (fun x y _ => if x.toNat < y.toNat then y else x) ∧
    amos (.amoswapW d a b) 4 (fun _ y _ => y) ∧ amos (.amoswapD d a b) 8 (fun _ y _ => y) ∧
    amos (.amocasW d a b) 4 (fun x y c => if x = c then y else x) ∧
    amos (.amocasD d a b) 8 (fun x y c => if x = c then y else x)

/-- R233, R261, R268, R99: every LD and ST, of each width, blocking or relaxed, traps ADDR_OVF where its address sum
leaves the space and MISALIGN where it is not aligned; then come the checks of R233 from step 3 on. An AMO traps
MISALIGN, then PERM on a host page; WATCH traps MISALIGN, then PERM in the control window. R219, R234, R265, R266: a
vector access traps ADDR_OVF with the base, or with the first element's address that leaves the space; then MISALIGN,
likewise; then FORMAT with the pointer where FMT is reserved or BL does not fit; then come the checks of its data and
scale bytes, all or nothing. STV to a port or a layout entry is a push, and not meant. R126, R233 step 10: a blocking
load, an AMO or WATCH, or an LDV or GATHER, that meets a poisoned atom traps POISON with its address, for GATHER the
pointer's ADDR. With a handler no trap changes a byte of memory or a register of the window. Rests on the model's own
choice, log entries 20, 21 and 73. It is in which page or byte of several a vector access names. -/
def Obligations.AccessTraps : Prop :=
  (∀ (d a b imm : BitVec 7) (s : State), Ready ⟨[.g d, .g a, .g b], [.g d]⟩ s →
    let ew : Nat := (rd s a).toNat % 2 ^ 57
    let scalar (n : Nat) (reads writes : List Instr) : Prop :=
      let ea : Int := (ew : Int) + (n : Int) * imm.toInt
      (∀ i ∈ reads ++ writes,
        (ea < 0 ∨ 2 ^ 57 ≤ ea → exec i s = .next (takeTrap cAddrOvf (BitVec.ofInt 64 ea) s)) ∧
        (0 ≤ ea → ea < 2 ^ 57 → ea % n ≠ 0 → exec i s = .next (takeTrap cMisalign (BitVec.ofInt 64 ea) s))) ∧
      (0 ≤ ea → ea < 2 ^ 57 → ea % n = 0 →
        (∀ i ∈ reads, Checks i false [(ea.toNat, .read)] s) ∧ ∀ i ∈ writes, Checks i false [(ea.toNat, .write)] s)
    let amos (n : Nat) (l : List Instr) : Prop := ∀ i ∈ l,
      (ew % n ≠ 0 → exec i s = .next (takeTrap cMisalign (BitVec.ofNat 64 ew) s)) ∧
      (ew % n = 0 →
        (onHost s ew = true → exec i s = .next (takeTrap cPerm (BitVec.ofNat 64 ew) s)) ∧
        (onHost s ew = false → Checks i false [(ew, .atomic)] s))
    scalar 1 [.ldB d a imm, .ldBu d a imm, .ldBRx d a imm, .ldBuRx d a imm] [.stB d a imm, .stBRx d a imm] ∧
    scalar 2 [.ldH d a imm, .ldHu d a imm, .ldHRx d a imm, .ldHuRx d a imm] [.stH d a imm, .stHRx d a imm] ∧
    scalar 4 [.ldW d a imm, .ldWu d a imm, .ldWRx d a imm, .ldWuRx d a imm] [.stW d a imm, .stWRx d a imm] ∧
    scalar 8 [.ldD d a imm, .ldDRx d a imm] [.stD d a imm, .stDRx d a imm] ∧
    amos 4 [.amoaddW d a b, .amoandW d a b, .amoorW d a b, .amoxorW d a b, .amominW d a b, .amomaxW d a b,
      .amominuW d a b, .amomaxuW d a b, .amoswapW d a b, .amocasW d a b] ∧
    amos 8 [.amoaddD d a b, .amoandD d a b, .amoorD d a b, .amoxorD d a b, .amominD d a b, .amomaxD d a b,
      .amominuD d a b, .amomaxuD d a b, .amoswapD d a b, .amocasD d a b] ∧
    let w := exec (.watch d a b) s
    (ew % 8 ≠ 0 → w = .next (takeTrap cMisalign (BitVec.ofNat 64 ew) s)) ∧
    (ew % 8 = 0 →
      (Config.controlWindow ≤ ew → ew < Config.deviceTop → w = .next (takeTrap cPerm (BitVec.ofNat 64 ew) s)) ∧
      (ew < Config.controlWindow ∨ Config.deviceTop ≤ ew → Checks (.watch d a b) false [(ew, .read)] s))) ∧
  (∀ (d : BitVec 4) (a imm : BitVec 7) (vb : BitVec 4) (s : State), Ready ⟨[.v d, .g a, .v vb], [.v d]⟩ s →
    let p := rd s a
    let f := p.toNat / 2 ^ 59
    let bl := p.toNat / 2 ^ 57 % 4
    let ew : Nat := p.toNat % 2 ^ 57
    let reserved : Prop := f ∉ [0x00, 0x01, 0x02, 0x03, 0x04, 0x08, 0x09, 0x10, 0x11, 0x12, 0x13] ∨
      (bl ≠ 0 ∧ (f ∉ [0x08, 0x09] ∨ p.toNat / 2 ^ 56 % 2 = 1))
    let touches (kind : AccKind) (va fmt : Nat) (es : List (Nat × Bool)) : List Probe :=
      let act : AccAct := if kind = .read then .vload d.toNat fmt bl es (tableOf s)
        else .vstore fmt bl es (lanesOf fmt (rdV s d)) (tableOf s)
      probesOf kind { id := 0, slot := s.iss.slot, va := va, pages := [], act := act, regs := [], due := 0 }
    let base : Int := (ew : Int) + 64 * imm.toInt
    let n : Int := elemBytes f
    let linear (kind : AccKind) (i : Instr) : Prop :=
      (base < 0 ∨ 2 ^ 57 < base + vecBytes f → exec i s = .next (takeTrap cAddrOvf (BitVec.ofInt 64 base) s)) ∧
      (0 ≤ base → base + vecBytes f ≤ 2 ^ 57 →
        (base % n ≠ 0 → exec i s = .next (takeTrap cMisalign (BitVec.ofInt 64 base) s)) ∧
        (base % n = 0 → reserved → exec i s = .next (takeTrap cFormat p s)) ∧
        (base % n = 0 → ¬ reserved →
          Checks i true (touches kind base.toNat (moveFmt f) (linearElems f base.toNat)) s))
    let es := (indicesOf f (rdV s vb)).map (indexed f ew)
    let indexedOne (kind : AccKind) (i : Instr) : Prop :=
      (∀ e, es.find? (fun e => decide (e.1 < 0 ∨ 2 ^ 57 ≤ e.1)) = some e →
        exec i s = .next (takeTrap cAddrOvf (BitVec.ofInt 64 e.1) s)) ∧
      ((∀ e ∈ es, 0 ≤ e.1 ∧ e.1 < 2 ^ 57) →
        (∀ e, es.find? (fun e => decide (e.1 % n ≠ 0)) = some e →
          exec i s = .next (takeTrap cMisalign (BitVec.ofInt 64 e.1) s)) ∧
        ((∀ e ∈ es, e.1 % n = 0) →
          (reserved → exec i s = .next (takeTrap cFormat p s)) ∧
          (¬ reserved → Checks i false (touches kind ew f (es.map fun e => (e.1.toNat, e.2))) s)))
    linear .read (.ldv d a imm) ∧ linear .read (.ldvRx d a imm) ∧ linear .write (.stvRx d a imm) ∧
    (base < Config.controlWindow ∨ Config.controlWindow + 0x2000 ≤ base → linear .write (.stv d a imm)) ∧
    indexedOne .read (.gather d a vb) ∧ indexedOne .read (.gatherRx d a vb) ∧
    indexedOne .write (.scatter d a vb) ∧ indexedOne .write (.scatterRx d a vb)) ∧
  (∀ (d a b imm : BitVec 7) (dv vb : BitVec 4) (pages : List Tr) (s : State), Prompt s → (cur s).tvec ≠ 0 →
    let ew : Nat := (rd s a).toNat % 2 ^ 57
    let reports (i : Instr) (kind : AccKind) (vec : Bool) (va : Nat) (act : AccAct) : Prop :=
      let x : Access := { id := 0, slot := s.iss.slot, va := va, pages := pages, act := act, regs := [], due := 0 }
      let homes := (accAddrs x).map (homeOf s pages)
      checkAccess s s.me.dtlb vec (probesOf kind x) = .ok pages → remoteHomes s.me.num homes = [] →
      (∃ h ∈ homes, isBad s h = true) →
      Gives (exec i s) fun t =>
        t.iss.res = .trapped ∧ (cur t).tcause = cPoison ∧ (cur t).tval = BitVec.ofNat 64 va ∧
        (cur t).tpc = BitVec.ofNat 54 (s.iss.pa / 8) ∧ (cur t).tpair = BitVec.ofNat 1 s.iss.word ∧
        (cur t).pa = 8 * (cur s).tvec.toNat ∧ (cur t).widx = 0 ∧ t.mem = s.mem ∧ t.me.pool = s.me.pool
    (Ready ⟨[.g d, .g a, .g b], [.g d]⟩ s →
      let loads (i : Instr) (n : Nat) (signed : Bool) : Prop :=
        let ea : Int := (ew : Int) + (n : Int) * imm.toInt
        0 ≤ ea → ea < 2 ^ 57 → ea % n = 0 → reports i .read false ea.toNat (.load d.toNat n signed)
      let amos (n : Nat) (l : List (Instr × AmoOp)) : Prop := ∀ x ∈ l, ew % n = 0 → onHost s ew = false →
        reports x.1 .atomic false ew (.amo d.toNat n x.2 (rd s b) (rd s d))
      loads (.ldB d a imm) 1 true ∧ loads (.ldBu d a imm) 1 false ∧ loads (.ldH d a imm) 2 true ∧
      loads (.ldHu d a imm) 2 false ∧ loads (.ldW d a imm) 4 true ∧ loads (.ldWu d a imm) 4 false ∧
      loads (.ldD d a imm) 8 false ∧
      amos 4 [(.amoaddW d a b, .add), (.amoandW d a b, .and), (.amoorW d a b, .or), (.amoxorW d a b, .xor),
        (.amominW d a b, .min), (.amomaxW d a b, .max), (.amominuW d a b, .minu), (.amomaxuW d a b, .maxu),
        (.amoswapW d a b, .swap), (.amocasW d a b, .cas)] ∧
      amos 8 [(.amoaddD d a b, .add), (.amoandD d a b, .and), (.amoorD d a b, .or), (.amoxorD d a b, .xor),
        (.amominD d a b, .min), (.amomaxD d a b, .max), (.amominuD d a b, .minu), (.amomaxuD d a b, .maxu),
        (.amoswapD d a b, .swap), (.amocasD d a b, .cas)] ∧
      (ew % 8 = 0 → ew < Config.controlWindow ∨ Config.deviceTop ≤ ew →
        reports (.watch d a b) .read false ew (.watch d.toNat (rd s b)))) ∧
    (Ready ⟨[.v dv, .g a, .v vb], [.v dv]⟩ s →
      let p := rd s a
      let base : Int := (ew : Int) + 64 * imm.toInt
      let es := (indicesOf (fmtOf p) (rdV s vb)).map (indexed (fmtOf p) ew)
      badFormat p = false →
      (0 ≤ base → base + vecBytes (fmtOf p) ≤ 2 ^ 57 → base % elemBytes (fmtOf p) = 0 →
        reports (.ldv dv a imm) .read true base.toNat
          (.vload dv.toNat (moveFmt (fmtOf p)) (blOf p) (linearElems (fmtOf p) base.toNat) (tableOf s))) ∧
      ((∀ e ∈ es, 0 ≤ e.1 ∧ e.1 < 2 ^ 57 ∧ e.1 % elemBytes (fmtOf p) = 0) →
        reports (.gather dv a vb) .read false ew
          (.vload dv.toNat (fmtOf p) (blOf p) (es.map fun e => (e.1.toNat, e.2)) (tableOf s)))))

/-- R352: every VOP form, lane by lane; the sixteen lanes are read before any is written. R351, R353: every VFOP and
VFOP64 form, lane by lane as the scalar form of the same name; VFDIV and VFSQRT hold the thread 4 turns on binary32
and 8 on binary64. -/
def Obligations.VectorArithmetic : Prop :=
  (∀ (d a b : BitVec 4) (s : State), Ready ⟨[.v d, .v a, .v b], [.v d]⟩ s →
    let lanes (i : Instr) (f : BitVec 32 → BitVec 32 → BitVec 32) : Prop :=
      ∃ ws : List Word, exec i s = .next (advance (wrV d ws s)) ∧ ws.length = 8 ∧
        ∀ j < 16, lane32 ws j = f (lane32 (rdV s a) j) (lane32 (rdV s b) j)
    let sat (k : Int) : BitVec 32 := BitVec.ofInt 32 (max (-(2 ^ 31)) (min (2 ^ 31 - 1) k))
    lanes (.vadd d a b) (· + ·) ∧ lanes (.vsub d a b) (· - ·) ∧ lanes (.vand d a b) (· &&& ·) ∧
    lanes (.vor d a b) (· ||| ·) ∧ lanes (.vxor d a b) (· ^^^ ·) ∧
    lanes (.vshl d a b) (fun x y => BitVec.ofNat 32 (x.toNat * 2 ^ (y.toNat % 32))) ∧
    lanes (.vshr d a b) (fun x y => BitVec.ofNat 32 (x.toNat / 2 ^ (y.toNat % 32))) ∧
    lanes (.vsar d a b) (fun x y => BitVec.ofInt 32 (x.toInt / 2 ^ (y.toNat % 32))) ∧
    lanes (.vmin d a b) (fun x y => BitVec.ofInt 32 (min x.toInt y.toInt)) ∧
    lanes (.vmax d a b) (fun x y => BitVec.ofInt 32 (max x.toInt y.toInt)) ∧
    lanes (.vminu d a b) (fun x y => BitVec.ofNat 32 (min x.toNat y.toNat)) ∧
    lanes (.vmaxu d a b) (fun x y => BitVec.ofNat 32 (max x.toNat y.toNat)) ∧
    lanes (.vmul d a b) (· * ·) ∧ lanes (.vmulh d a b) (fun x y => BitVec.ofInt 32 (x.toInt * y.toInt / 2 ^ 32)) ∧
    lanes (.vadds d a b) (fun x y => sat (x.toInt + y.toInt)) ∧
    lanes (.vsubs d a b) (fun x y => sat (x.toInt - y.toInt))) ∧
  (∀ (d a b : BitVec 4) (s : State), Ready ⟨[.v d, .v a, .v b], [.v d]⟩ s →
    let x := rdV s a
    let y := rdV s b
    let z := rdV s d
    let isS (ws : List Word) (f : Nat → Nat → Nat → Nat) : Prop := ws.length = 8 ∧
      ∀ j < 16, lane32 ws j = BitVec.ofNat 32 (f (lane32 x j).toNat (lane32 y j).toNat (lane32 z j).toNat)
    let isD (ws : List Word) (f : Nat → Nat → Nat → Nat) : Prop := ws.length = 8 ∧
      ∀ j < 8, lane64 ws j = BitVec.ofNat 64 (f (lane64 x j).toNat (lane64 y j).toNat (lane64 z j).toNat)
    let now (i : Instr) (p : List Word → Prop) : Prop := ∃ ws, exec i s = .next (advance (wrV d ws s)) ∧ p ws
    let later (i : Instr) (turns : Nat) (p : List Word → Prop) : Prop :=
      ∃ ws, exec i s = .next (setRes .held (onCur (fun c => { c with
        st := .held (holdStop s turns), pend := ws.mapIdx fun k w => (8 * d.toNat + k, w) }) (advance s))) ∧ p ws
    now (.vfaddS d a b) (isS · fun p q _ => fAdd fmtS p q) ∧ now (.vfaddD d a b) (isD · fun p q _ => fAdd fmtD p q) ∧
    now (.vfsubS d a b) (isS · fun p q _ => fSub fmtS p q) ∧ now (.vfsubD d a b) (isD · fun p q _ => fSub fmtD p q) ∧
    now (.vfmulS d a b) (isS · fun p q _ => fMul fmtS p q) ∧ now (.vfmulD d a b) (isD · fun p q _ => fMul fmtD p q) ∧
    now (.vfmaS d a b) (isS · (fFma fmtS)) ∧ now (.vfmaD d a b) (isD · (fFma fmtD)) ∧
    now (.vfminS d a b) (isS · fun p q _ => fMin fmtS p q) ∧ now (.vfminD d a b) (isD · fun p q _ => fMin fmtD p q) ∧
    now (.vfmaxS d a b) (isS · fun p q _ => fMax fmtS p q) ∧ now (.vfmaxD d a b) (isD · fun p q _ => fMax fmtD p q) ∧
    later (.vfdivS d a b) 4 (isS · fun p q _ => fDiv fmtS p q) ∧
    later (.vfdivD d a b) 8 (isD · fun p q _ => fDiv fmtD p q) ∧
    later (.vfsqrtS d a) 4 (isS · fun p _ _ => fSqrt fmtS p) ∧
    later (.vfsqrtD d a) 8 (isD · fun p _ _ => fSqrt fmtD p))

/-- R354, R355, R356, R359: VBCAST, VEXT, VINS, VPERM and VSEL; a lane index outside the two forms traps ILLEGAL with
the index. R357: every VRED form folds the lanes in ascending order; the two float sums hold the thread 2 turns
(R351). R358: VCMP writes all ones into the lanes where the old vd compares so with va, and 0 into the others; the
unsigned conditions have integer types only. -/
def Obligations.VectorMovesAndFolds : Prop :=
  (∀ (d a b : BitVec 4) (gd ga gb : BitVec 7) (s : State),
    Ready ⟨[.v d, .v a, .v b, .g gd, .g ga, .g gb], [.v d]⟩ s →
    let n := (rd s gb).toNat
    let vec (i : Instr) (p : List Word → Prop) : Prop :=
      ∃ ws : List Word, exec i s = .next (advance (wrV d ws s)) ∧ ws.length = 8 ∧ p ws
    vec (.vbcast d ga) (fun ws => ∀ j < 16, lane32 ws j = (rd s ga).setWidth 32) ∧
    vec (.vbcastD d ga) (fun ws => ∀ j < 8, lane64 ws j = rd s ga) ∧
    (n < 16 → exec (.vext gd a gb) s = .next (advance (wr gd ((lane32 (rdV s a) n).setWidth 64) s)) ∧
      vec (.vins d ga gb) (fun ws => lane32 ws n = (rd s ga).setWidth 32 ∧
        ∀ j < 16, j ≠ n → lane32 ws j = lane32 (rdV s d) j)) ∧
    (16 ≤ n → n < 24 → exec (.vext gd a gb) s = .next (advance (wr gd (lane64 (rdV s a) (n - 16)) s)) ∧
      vec (.vins d ga gb) (fun ws => lane64 ws (n - 16) = rd s ga ∧
        ∀ j < 8, j ≠ n - 16 → lane64 ws j = lane64 (rdV s d) j)) ∧
    (24 ≤ n → exec (.vext gd a gb) s = .next (takeTrap cIllegal (rd s gb) s) ∧
      exec (.vins d ga gb) s = .next (takeTrap cIllegal (rd s gb) s)) ∧
    vec (.vperm d a b) (fun ws => ∀ j < 16, lane32 ws j =
      if (lane32 (rdV s b) j).getLsbD 4 then 0 else lane32 (rdV s a) ((lane32 (rdV s b) j).toNat % 16)) ∧
    vec (.vsel d a b) (fun ws => ∀ j < 8, lane64 ws j =
      (lane64 (rdV s a) j &&& lane64 (rdV s d) j) ||| (lane64 (rdV s b) j &&& ~~~lane64 (rdV s d) j))) ∧
  (∀ (d : BitVec 7) (a : BitVec 4) (s : State), Ready ⟨[.g d, .v a], [.g d]⟩ s →
    let x (j : Nat) : BitVec 32 := lane32 (rdV s a) j
    let y (j : Nat) : Word := lane64 (rdV s a) j
    let fold32 (f : BitVec 32 → BitVec 32 → BitVec 32) : BitVec 32 :=
      (List.range' 1 15).foldl (fun acc j => f acc (x j)) (x 0)
    let fold64 (f : Word → Word → Word) : Word := (List.range' 1 7).foldl (fun acc j => f acc (y j)) (y 0)
    let gives (i : Instr) (v : Word) : Prop := exec i s = .next (advance (wr d v s))
    let holds (i : Instr) (v : Word) : Prop := exec i s = .next (setRes .held
      (onCur (fun c => { c with st := .held (holdStop s 2), pend := [(d.toNat, v)] }) (advance s)))
    gives (.vredAddW d a) ((fold32 (· + ·)).signExtend 64) ∧
    gives (.vredMinW d a) ((fold32 fun p q => if q.toInt < p.toInt then q else p).signExtend 64) ∧
    gives (.vredMaxW d a) ((fold32 fun p q => if p.toInt < q.toInt then q else p).signExtend 64) ∧
    gives (.vredMinuW d a) ((fold32 fun p q => if q.toNat < p.toNat then q else p).setWidth 64) ∧
    gives (.vredMaxuW d a) ((fold32 fun p q => if p.toNat < q.toNat then q else p).setWidth 64) ∧
    gives (.vredAndW d a) ((fold32 (· &&& ·)).setWidth 64) ∧ gives (.vredOrW d a) ((fold32 (· ||| ·)).setWidth 64) ∧
    gives (.vredXorW d a) ((fold32 (· ^^^ ·)).setWidth 64) ∧
    holds (.vredFaddS d a) ((fold32 fun p q => BitVec.ofNat 32 (fAdd fmtS p.toNat q.toNat)).setWidth 64) ∧
    gives (.vredFminS d a) ((fold32 fun p q => BitVec.ofNat 32 (fMin fmtS p.toNat q.toNat)).setWidth 64) ∧
    gives (.vredFmaxS d a) ((fold32 fun p q => BitVec.ofNat 32 (fMax fmtS p.toNat q.toNat)).setWidth 64) ∧
    holds (.vredFaddD d a) (fold64 fun p q => BitVec.ofNat 64 (fAdd fmtD p.toNat q.toNat)) ∧
    gives (.vredFminD d a) (fold64 fun p q => BitVec.ofNat 64 (fMin fmtD p.toNat q.toNat)) ∧
    gives (.vredFmaxD d a) (fold64 fun p q => BitVec.ofNat 64 (fMax fmtD p.toNat q.toNat)) ∧
    gives (.vredAddD d a) (fold64 (· + ·))) ∧
  (∀ (d a : BitVec 4) (ty : BitVec 2) (s : State), Ready ⟨[.v d, .v a], [.v d]⟩ s →
    let x := rdV s d
    let y := rdV s a
    let sS (j : Nat) : Machine.Num × Machine.Num := (unpack fmtS (lane32 x j).toNat, unpack fmtS (lane32 y j).toNat)
    let sD (j : Nat) : Machine.Num × Machine.Num := (unpack fmtD (lane64 x j).toNat, unpack fmtD (lane64 y j).toNat)
    let masks (i : Instr) (p : List Word → Prop) : Prop :=
      ∃ ws : List Word, exec i s = .next (advance (wrV d ws s)) ∧ ws.length = 8 ∧ p ws
    let m32 (f : Nat → Bool) (ws : List Word) : Prop := ∀ j < 16, lane32 ws j = if f j then BitVec.allOnes 32 else 0
    let m64 (f : Nat → Bool) (ws : List Word) : Prop := ∀ j < 8, lane64 ws j = if f j then BitVec.allOnes 64 else 0
    let cond (i : Instr) (fi : Int → Int → Bool) (ff : Machine.Num × Machine.Num → Bool) : Prop :=
      (ty = 0 → masks i (m32 fun j => fi (lane32 x j).toInt (lane32 y j).toInt)) ∧
      (ty = 1 → masks i (m32 fun j => ff (sS j))) ∧ (ty = 2 → masks i (m64 fun j => ff (sD j))) ∧
      (ty = 3 → masks i (m64 fun j => fi (lane64 x j).toInt (lane64 y j).toInt))
    cond (.vcmpEq d a ty) (fun p q => decide (p = q)) (fun n => eqN n.1 n.2) ∧
    cond (.vcmpNe d a ty) (fun p q => decide (p ≠ q)) (fun n => !eqN n.1 n.2) ∧
    cond (.vcmpLt d a ty) (fun p q => decide (p < q)) (fun n => ltN n.1 n.2) ∧
    cond (.vcmpGe d a ty) (fun p q => decide (q ≤ p)) (fun n => leN n.2 n.1) ∧
    (ty = 0 → masks (.vcmpLtu d a ty) (m32 fun j => decide ((lane32 x j).toNat < (lane32 y j).toNat)) ∧
      masks (.vcmpGeu d a ty) (m32 fun j => decide ((lane32 y j).toNat ≤ (lane32 x j).toNat))) ∧
    (ty = 3 → masks (.vcmpLtu d a ty) (m64 fun j => decide ((lane64 x j).toNat < (lane64 y j).toNat)) ∧
      masks (.vcmpGeu d a ty) (m64 fun j => decide ((lane64 y j).toNat ≤ (lane64 x j).toNat))))

/-- R360 to R363, R365: VCVT lane by lane under its mode (under DITHER the row is bits 3:0 of the old vd lane 0, the
column the lane), VQ and VDQ through the table of the issue, held 2 turns, and TBLW and TBLR. -/
def Obligations.ConversionResults : Prop :=
  ∀ (d a : BitVec 4) (ga gb : BitVec 7) (mode : BitVec 3) (fmt : BitVec 1) (s : State),
    Ready ⟨[.v d, .v a, .g ga, .g gb], [.v d]⟩ s →
    let x := rdV s a
    let r (j : Nat) : Rnd := rndOf mode.toNat (lane32 (rdV s d) 0).toNat j
    let fS (j : Nat) : Machine.Num := unpack fmtS (lane32 x j).toNat
    let fD (j : Nat) : Machine.Num := unpack fmtD (lane64 x j).toNat
    let vec (i : Instr) (p : List Word → Prop) : Prop :=
      ∃ ws : List Word, exec i s = .next (advance (wrV d ws s)) ∧ ws.length = 8 ∧ p ws
    let to32 (f : Nat → BitVec 32) (ws : List Word) : Prop := ∀ j < 16, lane32 ws j = f j
    let to64 (f : Nat → Word) (ws : List Word) : Prop := ∀ j < 8, lane64 ws j = f j
    let via (f : Fmt) (j : Nat) : BitVec 32 := BitVec.ofNat 32 (roundTo fmtS .rne (unpack f (roundTo f (r j) (fS j))))
    let later (i : Instr) (ws : List Word) : Prop :=
      exec i s = .next (setRes .held (onCur (fun c => { c with
        st := .held (holdStop s 2), pend := ws.mapIdx fun k w => (8 * d.toNat + k, w) }) (advance s)))
    let t4 := fmt == 1
    let codes := (List.range 16).map fun j => tblEncode (tableOf s) t4 (r j) (fS j)
    let q := quantise (tableOf s) t4 r ((List.range 16).map fS)
    vec (.vcvtHS d a mode) (to32 (via fmtH)) ∧ vec (.vcvtBhS d a mode) (to32 (via fmtBh)) ∧
    vec (.vcvtES d a mode) (to32 (via fmtE)) ∧
    vec (.vcvtWS d a mode) (to32 fun j => BitVec.ofInt 32 (toIntSat (r j) (-(2 ^ 31)) (2 ^ 31 - 1) (fS j))) ∧
    vec (.vcvtSW d a mode) (to32 fun j => BitVec.ofNat 32 (roundTo fmtS (r j) (numOfInt (lane32 x j).toInt))) ∧
    vec (.vcvtSD d a mode) (to32 fun j => if j < 8 then BitVec.ofNat 32 (roundTo fmtS (r j) (fD j)) else 0) ∧
    vec (.vcvtDS d a mode) (to64 fun j => BitVec.ofNat 64 (roundTo fmtD (r j) (fS j))) ∧
    vec (.vcvtLD d a mode) (to64 fun j => BitVec.ofInt 64 (toIntSat (r j) (-(2 ^ 63)) (2 ^ 63 - 1) (fD j))) ∧
    vec (.vcvtDL d a mode) (to64 fun j => BitVec.ofNat 64 (roundTo fmtD (r j) (numOfInt (lane64 x j).toInt))) ∧
    later (.vq d a mode fmt) (packCodes t4 codes 127) ∧ later (.vqSc d a mode fmt) (packCodes t4 q.2 q.1) ∧
    vec (.vdq d a fmt) (to32 fun j =>
      BitVec.ofNat 32 (roundTo fmtS .rne (codeVal (tableOf s) t4 (codeAt t4 (recOf x) j) 127))) ∧
    vec (.vdqSc d a fmt) (to32 fun j =>
      BitVec.ofNat 32 (roundTo fmtS .rne (codeVal (tableOf s) t4 (codeAt t4 (recOf x) j) (recNat (recOf x) 16 1)))) ∧
    ((rd s ga).toNat < 256 →
      exec (.tblr gb ga) s = .next (advance (wr gb ((tblEntry (tableOf s) (rd s ga).toNat).setWidth 64) s)) ∧
      ((rd s gb).toNat < 2 ^ 19 → s.me.table.half.length = 128 → Gives (exec (.tblw ga gb) s) fun t =>
        t.iss.res = .retired ∧ tblEntry t.me.table (rd s ga).toNat = (rd s gb).setWidth 19 ∧
        tblEntry t.me.table ((rd s ga).toNat ^^^ 0x80) = (rd s gb).setWidth 19 ^^^ 0x40000 ∧
        (∀ c < 256, c % 128 ≠ (rd s ga).toNat % 128 → tblEntry t.me.table c = tblEntry s.me.table c) ∧
        t = { s with me := { s.me with table := t.me.table, slots := t.me.slots }, iss := t.iss })) ∧
    (256 ≤ (rd s ga).toNat → exec (.tblr gb ga) s = .next (takeTrap cIllegal (rd s ga) s) ∧
      exec (.tblw ga gb) s = .next (takeTrap cIllegal (rd s ga) s))

/-- R214, R239, R270 to R275: the handle words. HTAKE takes a FREE handle as producer and a FULL one as consumer, and
as producer parks while it is not FREE; HGIVE fills or frees it, once its thread's blocking stores to host memory are
complete; HWAIT retires with COUNTED in the state it names; HSTAT and HGEN read; HRING forms a ring of FREE handles;
an HGIVE with a generation that is not the handle's traps SCHEDULE. Rests on the model's own choice, log entry 12. It
is in HGIVE's wait for its thread's posted stores. -/
def Obligations.HandleResults : Prop :=
  ∀ (d a b : BitVec 7) (h : Nat) (s : State), Ready ⟨[.g d, .g a, .g b], [.g d]⟩ s → h < 64 →
    let sl := s.iss.slot
    let v := hGet s h
    let named := rd s a = BitVec.ofNat 64 (v.gen.toNat * 2 ^ 16 + h)
    let gives (i : Instr) (w : Word) (v' : Handle) : Prop := Gives (exec i s) fun t =>
      t.iss.res = .retired ∧ regAt t sl d.toNat = w ∧ hGet t h = v' ∧ (∀ k, k ≠ h → hGet t k = hGet s k) ∧ t.mem = s.mem
    (named → v.ring = false → rd s b = 0 → v.st = .free →
      gives (.htake d a b) (rd s a) { v with st := .filling, owner := BitVec.ofNat 5 sl, expected := 0, counted := 0 }) ∧
    (named → v.ring = false → rd s b = 2 → v.st = .full →
      gives (.htake d a b) (rd s a) { v with st := .draining, owner := BitVec.ofNat 5 sl }) ∧
    (named → v.ring = false → rd s b = 0 → v.st ≠ .free → Gives (exec (.htake d a b) s) fun t =>
      (cur t).st = .parked (.handle h) ∧ t.iss.res = .parked ∧ (cur t).pa = (cur s).pa ∧ hGet t h = v) ∧
    (let fills := rd s b = 0 ∧ v.st = .filling ∧ v.owner.toNat = sl
     let frees := rd s b = 2 ∧ (v.st = .full ∨ (v.st = .draining ∧ v.owner.toNat = sl))
     (named → hasPosted s sl = false → fills →
      gives (.hgive d a b) (rd s a) { v with st := .full, counted := v.expected }) ∧
     (named → hasPosted s sl = false → frees →
      gives (.hgive d a b) (BitVec.ofNat 64 ((v.gen + 1).toNat * 2 ^ 16 + h))
        { v with st := .free, gen := v.gen + 1, owner := 31, counted := 0, expected := 0 }) ∧
     (named → hasPosted s sl = true → fills ∨ frees →
      exec (.hgive d a b) s = .next (setRes .waiting (onCur (fun c => { c with st := .waiting .posted }) s)))) ∧
    (named → (rd s b).toNat = hCode v.st → gives (.hwait d a b) (v.counted.setWidth 64) v) ∧
    (rd s a = BitVec.ofNat 64 h → rd s b = 0 → gives (.hstat d a b)
      (v.gen ++ BitVec.ofNat 2 (hCode v.st) ++ v.owner ++ (0 : BitVec 13) ++ v.counted) v) ∧
    (rd s a = BitVec.ofNat 64 h → gives (.hgen d a) (BitVec.ofNat 64 (v.gen.toNat * 2 ^ 16 + h)) v) ∧
    (rd s a = BitVec.ofNat 64 h → ∀ n : Nat, rd s b = BitVec.ofNat 64 n → 2 ≤ n → n ≤ 16 → h + n ≤ 64 →
      (∀ k < n, (hGet s (h + k)).st = .free ∧ (hGet s (h + k)).ring = false) →
      Gives (exec (.hring d a b) s) fun t =>
        t.iss.res = .retired ∧ regAt t sl d.toNat = BitVec.ofNat 64 (0x40 + h) ∧
        ∀ k < n, hGet t (h + k) = { hGet s (h + k) with
          ring := true, rlen := BitVec.ofNat 4 (n - 1), rh0 := BitVec.ofNat 6 h, pidx := 0, cidx := 0 }) ∧
    (∀ g : BitVec 16, g ≠ v.gen → rd s a = BitVec.ofNat 64 (g.toNat * 2 ^ 16 + h) → rd s b = 0 →
      exec (.hgive d a b) s = .next (takeTrap cSchedule (rd s a) s))

/-- R91 to R95, R98, R253, R398: SEND to a partition core with a free mailbox entry builds the header, reserves the
entry and puts the message on the network; it parks while the mailbox is full or a device unit's message waits to
enter it, and waits while a blocking store of its thread to host memory is not complete; RECV and RECVA take the
oldest eligible message into eight registers and free its entry, and park while there is none; MBOX reads the
mailbox's state. Rests on the model's own choice, log entry 12. It is in SEND's wait for its thread's posted stores.
-/
def Obligations.MessageWords : Prop :=
  (∀ (ty : BitVec 8) (a b : BitVec 7) (s : State), Ready ⟨[.g a, .run b 7], []⟩ s →
    let w := rd s a
    let dst := w.toNat / 2 ^ 12 % 2 ^ 12
    let m := coreOf s dst
    w &&& 0x0000FFFFFF00003F = 0 → dst ∈ s.ctx.cores →
    (hasPosted s s.iss.slot = true →
      exec (.send ty a b) s = .next (setRes .waiting (onCur (fun c => { c with st := .waiting .posted }) s))) ∧
    (hasPosted s s.iss.slot = false → m.mbox.length + m.reserved < 32 → m.devWait = [] → Gives (exec (.send ty a b) s) fun t =>
      t.iss.res = .retired ∧ (coreOf t dst).reserved = m.reserved + 1 ∧ t.mem = s.mem ∧ t.me.pool = s.me.pool ∧
      ∃ n : NetMsg, t.net = s.net ++ [n] ∧ n.held = true ∧ n.msg.body = rdRun s b.toNat 7 ∧ s.clock ≤ n.due ∧
        hdrType n.msg.hdr = ty.toNat ∧ hdrSeq n.msg.hdr = w.toNat / 2 ^ 48 ∧ hdrCore n.msg.hdr = dst ∧
        hdrSlot n.msg.hdr = w.toNat / 2 ^ 8 % 16 ∧ hdrDk n.msg.hdr = w.getLsbD 7 ∧ n.msg.hdr.getLsbD 6 = w.getLsbD 6 ∧
        n.msg.hdr.toNat % 2 ^ 6 = 0 ∧ hdrFrom n.msg.hdr = (s.me.num % 2 ^ 12) * 16 + s.iss.slot % 16) ∧
    (hasPosted s s.iss.slot = false → 32 ≤ m.mbox.length + m.reserved ∨ m.devWait ≠ [] → Gives (exec (.send ty a b) s) fun t =>
      (cur t).st = .parked (.mailbox dst) ∧ t.net = s.net ∧ (cur t).pa = (cur s).pa)) ∧
  (∀ (a b : BitVec 7) (x : Message) (s : State), Ready ⟨[.g a, .run b 8], [.run b 8]⟩ s → x.body.length = 7 →
    let took (t : State) : Prop :=
      t.iss.res = .retired ∧ t.me.mbox = s.me.mbox.erase x ∧ t.mem = s.mem ∧
      ∀ k < 8, regAt t s.iss.slot (b.toNat + k) = ((x.hdr :: x.body)[k]?).getD 0
    (s.me.mbox.find? (recvEligible s) = some x → Gives (exec (.recva b) s) took) ∧
    (s.me.mbox.find? (fun y => recvEligible s y && (hdrSeq y.hdr == (rd s a).toNat / 2 ^ 48) &&
        (hdrFrom y.hdr == (rd s a).toNat / 2 ^ 24 % 2 ^ 16)) = some x → Gives (exec (.recv a b) s) took) ∧
    (s.me.mbox.find? (fun y => recvEligible s y && (hdrSeq y.hdr == (rd s a).toNat / 2 ^ 48) &&
        (hdrFrom y.hdr == (rd s a).toNat / 2 ^ 24 % 2 ^ 16)) = none →
      exec (.recv a b) s = .next (setRes .parked (onCur (fun c => { c with st := .parked .recv }) s))) ∧
    (s.me.mbox.find? (recvEligible s) = none →
      exec (.recva b) s = .next (setRes .parked (onCur (fun c => { c with st := .parked .recv }) s)))) ∧
  ∀ (b : BitVec 7) (s : State), Ready ⟨[.g b], [.g b]⟩ s → s.me.mbox.length + s.me.reserved ≤ 32 →
    exec (.mbox b) s = .next (advance (wr b (BitVec.ofNat 64 (s.me.drops.toNat * 2 ^ 48 +
      (32 - s.me.mbox.length - s.me.reserved) * 2 ^ 16 +
      (s.me.mbox.filter fun y => hdrDk y.hdr && hdrSlot y.hdr == s.iss.slot).length * 2 ^ 8 +
      (s.me.mbox.filter fun y => !hdrDk y.hdr).length)) s))

/-- R92, R95, R112, R113, R299, R398: a message that is due at its core arrives. A core-addressed one whose vector
entry is enabled starts a thread in the lowest empty slot of its class with the lowest free window, at the handler,
with the message in g0 to g7, or goes to the mailbox where no thread can start or an older one waits; one whose entry
is not enabled is discarded and counted. A slot-addressed one is discarded and counted where the slot is empty,
follows a thread that migrates, and else goes to the mailbox and wakes RECV. In the mailbox it takes the entry that
its SEND reserved, or a free one, or is discarded and counted: so TAINT, CLIP and EFAULT. FAULT and PFAULT for the
principal become an event for the host and a request to firmware, or wait in the network while the mailbox is full.
The waiting message of a class starts its thread once one can start. Fixed mode logs a class-0 message that enters or
starts. R278, R283, R398: a message of an engine to the thread that pushed its command, which must not be lost to
another thread: it enters the mailbox if the thread still holds its slot and an entry is free, and is else discarded
and counted. Rests on the model's own choice, log entries 15, 25, 69 and 70. -/
def Obligations.MessageArrivals : Prop :=
  ((∀ (x : Message) (due : Nat) (held : Bool) (s : State), netFind s x = some ⟨x, due, held⟩ → x.body.length = 7 →
    let e := vectorOf s.me (hdrType x.hdr)
    let sl := hdrSlot x.hdr
    let arrives (p : State → Prop) : Prop := Gives (exec (.messageArrival x) s) fun t =>
      t.net = s.net.erase ⟨x, due, held⟩ ∧ t.me.reserved = s.me.reserved - held.toNat ∧ p t
    let drops (t : State) : Prop :=
      t.me.drops = s.me.drops + 1 ∧ t.me.mbox = s.me.mbox ∧ t.me.pool = s.me.pool ∧ t.mem = s.mem
    let logged (t : State) : Prop := (s.ctx.fixed = false → t.mem = s.mem ∧ t.fw = s.fw) ∧
      (s.ctx.fixed = true → hdrNc x.hdr = 0 → t.fw.msgLog = s.fw.msgLog ++ [(s.clock, x)])
    let enters (t : State) : Prop :=
      t.me.mbox = s.me.mbox ++ [x] ∧ t.me.drops = s.me.drops ∧ t.me.pool = s.me.pool ∧
      (∀ k, (slotOf s k).st = .parked .recv → (slotOf t k).st = .runnable) ∧ logged t
    let room := s.me.mbox.length + s.me.reserved < 32
    let unit := held = false ∧ hdrType x.hdr ≠ 0xF1 ∧ hdrType x.hdr ≠ 0xF2
    (hdrDk x.hdr = false → vEn e = true → noOlder s.me e = true → s.me.created ≠ some s.clock → s.switch = .resident →
      ∀ k b, freeSlot s.me (vClass e) = some k → findWindow s.me (vWin e) = some b → arrives fun t =>
        (slotOf t k).st = .runnable ∧ (slotOf t k).pa = (e.toNat % 2 ^ 54) * 8 ∧ (slotOf t k).widx = 0 ∧
        (slotOf t k).winBase = b ∧ (slotOf t k).winSize = 8 * (e.toNat / 2 ^ 54 % 16 + 1) ∧
        (slotOf t k).prv = e.getLsbD 62 ∧ (slotOf t k).elig = s.clock + 1 ∧
        (slotOf t k).lastIssue = (slotOf s k).lastIssue ∧
        (∀ j < 8, regAt t k j = ((x.hdr :: x.body)[j]?).getD 0) ∧
        (∀ j, 8 ≤ j → j < (slotOf t k).winSize → regAt t k j = 0) ∧ t.me.mbox = s.me.mbox ∧ logged t) ∧
    (hdrDk x.hdr = false → vEn e = true → noOlder s.me e = false ∨ canStart s e = none →
      (held = true ∨ room → arrives enters) ∧ (unit → ¬ room → arrives drops)) ∧
    (hdrDk x.hdr = false → vEn e = false → arrives drops) ∧
    (hdrDk x.hdr = true → slotEmpty s sl = true → arrives drops) ∧
    (hdrDk x.hdr = true → slotEmpty s sl = false → (slotOf s sl).st ≠ .migrating → forPrincipal s held x = false →
      (held = true ∨ room → arrives enters) ∧ (unit → ¬ room → arrives drops)) ∧
    (hdrDk x.hdr = true → slotEmpty s sl = false → (slotOf s sl).st = .migrating → arrives fun t =>
      t.me.mbox = s.me.mbox ∧ t.me.drops = s.me.drops ∧ t.mem = s.mem ∧
      ∀ k, ∀ g ∈ (dieAt s k).arrivals, g.core = s.me.num → g.from_ = sl →
        { g with late := g.late ++ [x] } ∈ (dieAt t k).arrivals) ∧
    (forPrincipal s held x = true → slotEmpty s sl = false → (slotOf s sl).st ≠ .migrating → s.ctx.cores ≠ [] →
      (s.me.mbox.length + s.me.reserved < 32 → arrives fun t => t.me.mbox = s.me.mbox ∧
        (hdrType x.hdr = 0xF1 → t.fw.events = s.fw.events + 1 ∧ t.fw.pfaults = s.fw.pfaults) ∧
        (hdrType x.hdr = 0xF2 → t.fw.events = s.fw.events ∧ t.fw.pfaults = s.fw.pfaults ++
          [(((x.body[0]?).getD 0).toNat, ((x.body[2]?).getD 0).toNat, ((x.body[3]?).getD 0).toNat)])) ∧
      (32 ≤ s.me.mbox.length + s.me.reserved → arrives fun t =>
        t.me.devWait = s.me.devWait ++ [x] ∧ t.me.mbox = s.me.mbox ∧ t.fw = s.fw ∧ t.mem = s.mem))) ∧
  (∀ (x : Message) (cls k b : Nat) (s : State), nextWaiting s.me cls = some x →
    canStart s (vectorOf s.me (hdrType x.hdr)) = some (k, b) → x.body.length = 7 →
    Gives (exec (.waitingMessageStart cls) s) fun t =>
      t.me.mbox = s.me.mbox.erase x ∧ (slotOf t k).st = .runnable ∧ (slotOf t k).winBase = b ∧
      (slotOf t k).pa = vHandler (vectorOf s.me (hdrType x.hdr)) ∧ (slotOf t k).elig = s.clock + 1 ∧
      (∀ j < 8, regAt t k j = ((x.hdr :: x.body)[j]?).getD 0) ∧ t.mem = s.mem) ∧
  ∀ (x : Message) (l : List Message) (s : State), s.me.devWait = x :: l → s.me.mbox.length + s.me.reserved < 32 →
    s.ctx.cores ≠ [] → Gives (exec .deviceMessageEntry s) fun t => t.me.devWait = l ∧
      (forPrincipal s false x = true → t.me.mbox = s.me.mbox ∧
        (hdrType x.hdr = 0xF1 → t.fw.events = s.fw.events + 1) ∧
        (hdrType x.hdr = 0xF2 → t.fw.pfaults = s.fw.pfaults ++
          [(((x.body[0]?).getD 0).toNat, ((x.body[2]?).getD 0).toNat, ((x.body[3]?).getD 0).toNat)]))) ∧
  (∀ (c : EngCmd) (type : Nat) (body : List Word) (s : State), c.slot < 16 → type < 256 → type ≠ 0xF1 → type ≠ 0xF2 →
    (slotOf s c.slot).st ≠ .migrating →
    let x : Message := ⟨mkHdr c.gen.toNat type c.core c.slot c.core c.slot true false, body, 0, 0⟩
    let t := engMessage c type body s
    let lost := c.live = false ∨ slotEmpty s c.slot = true ∨ 32 ≤ s.me.mbox.length + s.me.reserved
    t.me.pool = s.me.pool ∧
    (¬ lost → t.me.mbox = s.me.mbox ++ [x] ∧ t.me.drops = s.me.drops) ∧
    (lost → t.me.mbox = s.me.mbox ∧ t.me.drops = s.me.drops + 1 ∧ t.mem = s.mem))

/-- R96 to R98, R121, R133, R141, R248: BAR and BARA wait while a blocking store of their thread to host memory is not
complete; at a barrier of any scope they write the joined phase, which is the phase at the cycle's start, and count
the arrival; the arrival that reaches N completes the phase, and BAR parks the thread at its next word until the
joined phase is complete; BARW waits while the phase is the one named; BARI sets N; a completed phase's wake makes its
waiters runnable, and is discarded from a pre-emption request on; an uninitialised barrier traps SCHEDULE with its id.
Rests on the model's own choice, log entries 12, 24 and 26. Log 12 is in the wait of BAR and BARA for their thread's
posted stores. -/
def Obligations.BarrierResults : Prop :=
  ∀ (d id : BitVec 7) (scope : BitVec 3) (s : State), Ready ⟨[.g d], [.g d]⟩ s →
    let sc := scope.toNat
    let cell := barCell sc s.me.num
    let v := barGet s sc id.toNat
    let joined : BitVec 16 := if v.cycle = s.clock then v.start else v.phase
    let v' : Barrier := { v with start := joined, cycle := s.clock }
    let at_ (i : Instr) (st : SlotState) (v' : Barrier) : Prop := hasPosted s s.iss.slot = false → Gives (exec i s) fun t =>
      t.iss.res = .retired ∧ regAt t s.iss.slot d.toNat = joined.setWidth 64 ∧ barGet t sc id.toNat = v' ∧
      (cur t).st = st ∧ (cur t).pa = (cur (advance s)).pa ∧ (cur t).widx = (cur (advance s)).widx ∧ t.mem = s.mem
    (v.n ≠ 0 → v.count + 1 ≠ v.n →
      at_ (.bara d scope id) (cur s).st { v' with count := v.count + 1 } ∧
      (v.phase = joined → at_ (.bar d scope id) (.parked (.bar sc cell id.toNat joined false)) { v' with count := v.count + 1 }) ∧
      (v.phase ≠ joined → at_ (.bar d scope id) (cur s).st { v' with count := v.count + 1 })) ∧
    (v.n ≠ 0 → v.count + 1 = v.n →
      at_ (.bara d scope id) (cur s).st { v' with count := 0, phase := v.phase + 1 } ∧
      (v.phase + 1 ≠ joined → at_ (.bar d scope id) (cur s).st { v' with count := 0, phase := v.phase + 1 })) ∧
    (v.n ≠ 0 → hasPosted s s.iss.slot = true →
      let w := setRes .waiting (onCur (fun c => { c with st := .waiting .posted }) s)
      exec (.bar d scope id) s = .next w ∧ exec (.bara d scope id) s = .next w) ∧
    (v.n = 0 → exec (.bar d scope id) s = .next (takeTrap cSchedule (id.setWidth 64) s) ∧
      exec (.bara d scope id) s = .next (takeTrap cSchedule (id.setWidth 64) s)) ∧
    (v.phase ≠ (rd s d).setWidth 16 → exec (.barw d scope id) s = .next (advance s)) ∧
    (v.phase = (rd s d).setWidth 16 → exec (.barw d scope id) s = .next (setRes .parked
      (onCur (fun c => { c with st := .parked (.barw sc cell id.toNat) }) s))) ∧
    (let n := (rd s d).toNat % 2 ^ 32
     sc < 4 ∨ (cur s).prv = true → 1 ≤ n → n ≤ barMax s sc → v.count = 0 → barWaited s sc cell id.toNat = false →
      Gives (exec (.bari d scope id) s) fun t => t.iss.res = .retired ∧ barGet t sc id.toNat = { v with n := n, count := 0 } ∧
        t.me.pool = s.me.pool ∧ t.mem = s.mem) ∧
    ∀ (k : Nat) (ph : BitVec 16) (w : BarWake), s.wakes = [w] → w.scope = sc → w.cell = cell → w.id = id.toNat →
      w.phase = ph → w.due ≤ s.clock →
      (s.switch = .resident → s.me.stopped = false →
        (slotOf s k).st = .parked (.bar sc cell id.toNat ph false) →
        Gives (exec (.barrierWake sc cell id.toNat ph) s) fun t =>
          t.wakes = [] ∧ (slotOf t k).st = .runnable ∧ s.clock < (slotOf t k).elig) ∧
      (s.switch ≠ .resident → exec (.barrierWake sc cell id.toNat ph) s = .next { s with wakes := [] })

/-- R191 to R195: BOXT writes its packed result, or all ones for a miss; TRIT and SPLT do the same after holding the
thread 2 and 3 turns; a NaN among the ray's eight lanes, an infinite origin or direction, or tmin above tmax is a miss
of every test. Rests on the model's own choice, log entry 31. -/
def Obligations.IntersectionResults : Prop :=
  ∀ (d : BitVec 7) (a b : BitVec 4) (s : State), Ready ⟨[.g d, .v a, .v b], [.g d]⟩ s →
    let ray (j : Nat) : BitVec 32 := lane32 (rdV s a) j
    let rec_ (j : Nat) : BitVec 32 := lane32 (rdV s b) j
    let held (turns : Nat) (v : Word) : State := setRes .held
      (onCur (fun c => { c with st := .held (holdStop s turns), pend := [(d.toNat, v)] }) (advance s))
    ∃ v w x : Word,
      exec (.boxt d a b) s = .next (advance (wr d v s)) ∧ v = (boxTest ray rec_).getD (BitVec.allOnes 64) ∧
      exec (.trit d a b) s = .next (held 2 w) ∧ w = (triTest ray rec_).getD (BitVec.allOnes 64) ∧
      exec (.splt d a b) s = .next (held 3 x) ∧ x = (splatTest ray rec_).getD (BitVec.allOnes 64) ∧
      ((∃ j < 8, unpack fmtS (ray j).toNat = .nan) ∨ (∃ j < 6, isFin (unpack fmtS (ray j).toNat) = false) ∨
        ltN (unpack fmtS (ray 7).toNat) (unpack fmtS (ray 6).toNat) = true →
        v = BitVec.allOnes 64 ∧ w = BitVec.allOnes 64 ∧ x = BitVec.allOnes 64)

/-- R178 to R185, R390: the CAR words on a segment of a held track. CARSUB takes its handle and the lowest free number
and sends the subscription to the controller, which takes it 64 cycles later; an illegal catch word and a handle that
is not FREE trap, and no free number, or a second subscription for the automaton array, parks. CARUNSUB withdraws it,
and says whether a block of it has been written. CARSKIP withdraws the core's subscriptions to the segment; it and
CARPROMO set the slot's verdict record to PENDING and send a request; CARPOS reads the position as of 64 cycles ago;
the CARWAIT forms read what has come or park. -/
def Obligations.CarouselWords : Prop :=
  ∀ (d a b : BitVec 7) (t e : Nat) (s : State), Ready ⟨[.g d, .g a, .g b], [.g d]⟩ s →
    rd s a = BitVec.ofNat 64 (256 * t + e) → t < 16 → e < 256 → t ∈ s.ctx.tracks → e < (trackAt s t).segs.length →
    let sl := s.iss.slot
    let w := rd s b
    let sel := 256 * t + e
    let sent (u : State) (what : CtlWhat) : Prop := (⟨s.clock + 64, s.me.num, sl, t, what⟩ : CtlMsg) ∈ u.ctl
    let sample := catchTgt w = 2 ∧ (hasSampleSub s = true ∨ laSamples s.me.la = true)
    let parks := setRes .parked (onCur (fun c => { c with st := .parked .carSub }) s)
    (catchIllegal w (segAt s t e) = true → exec (.carsub d a b) s = .next (takeTrap cIllegal w s)) ∧
    (catchIllegal w (segAt s t e) = false → (hGet s (catchHnd w)).st ≠ .free →
      exec (.carsub d a b) s = .next (takeTrap cSchedule (BitVec.ofNat 64 (catchHnd w)) s)) ∧
    (catchIllegal w (segAt s t e) = false → (hGet s (catchHnd w)).st = .free →
      sample ∨ (∀ n < 16, csubAt s n ≠ none) → exec (.carsub d a b) s = .next parks) ∧
    (∀ n, catchIllegal w (segAt s t e) = false → (hGet s (catchHnd w)).st = .free → ¬ sample →
      n < 16 → csubAt s n = none → (∀ k < n, csubAt s k ≠ none) → Gives (exec (.carsub d a b) s) fun u =>
        u.iss.res = .retired ∧
        regAt u sl d.toNat = BitVec.ofNat 64 ((hGet s (catchHnd w)).gen.toNat * 2 ^ 16 + n) ∧
        csubAt u n = some ⟨s.serial, sl, sel, w, s.clock, none, false, false⟩ ∧
        hGet u (catchHnd w) = hTaken 21 (8 * (segAt s t e).len) (hGet s (catchHnd w)) ∧
        sent u (.sub ⟨s.serial, s.me.num, t, e, s.clock, false⟩) ∧ u.mem = s.mem) ∧
    (∀ x, csubAt s (w.toNat % 16) = some x → x.slot = sl → x.sel = sel → Gives (exec (.carunsub d a b) s) fun u =>
        u.iss.res = .retired ∧ regAt u sl d.toNat = (if x.wrote = true then 2 else 1) ∧ csubAt u (w.toNat % 16) = none ∧
        (hGet u (catchHnd x.catch_)).st = .free ∧ (hGet u (catchHnd x.catch_)).counted = 0 ∧
        (∀ r ∈ u.me.catches, r.sub ≠ x.id) ∧ (∀ r ∈ s.me.catches, r.sub ≠ x.id → r ∈ u.me.catches) ∧
        u.me.la = (if catchTgt x.catch_ = 2 then { s.me.la with staged := [] } else s.me.la) ∧
        sent u (.unsub x.id) ∧ u.mem = s.mem) ∧
    ((∀ x, csubAt s (w.toNat % 16) = some x → x.slot ≠ sl ∨ x.sel ≠ sel) →
      exec (.carunsub d a b) s = .next (advance (wr d 0 s))) ∧
    (let mine := s.me.raySubs.filter fun x => x.sel == sel
     let homes := (mine.map (·.ray)).flatMap (rayHomes s)
     (banksBusy s homes = true → exec (.carskip a) s = forfeit (ownBanks s homes) s) ∧
     (banksBusy s homes = false → s.me.raySubs.Pairwise (fun x y => x.id ≠ y.id) → Gives (exec (.carskip a) s) fun u =>
      u.iss.res = .retired ∧ (cur u).verdict = some ⟨sel, 0, s.serial⟩ ∧
      sent u (.request ⟨false, s.me.num, sl, e, false, false, s.serial⟩) ∧ u.me.pool = s.me.pool ∧
      (∀ n < 16, ∀ x, csubAt s n = some x →
        (x.sel = sel → csubAt u n = none ∧ (hGet u (catchHnd x.catch_)).st = .free ∧ sent u (.unsub x.id)) ∧
        (x.sel ≠ sel → csubAt u n = some x)) ∧
      u.me.raySubs = (s.me.raySubs.filter fun x => x.sel != sel) ∧ (∀ x ∈ mine, sent u (.unsub x.id)) ∧
      (mine = [] → u.mem = s.mem))) ∧
    (Gives (exec (.carpromo a b) s) fun u =>
      u.iss.res = .retired ∧ (cur u).verdict = some ⟨sel, 0, s.serial⟩ ∧
      sent u (.request ⟨true, s.me.num, sl, e, w.getLsbD 0, false, s.serial⟩) ∧ u.mem = s.mem ∧ u.me.pool = s.me.pool) ∧
    exec (.carpos d a) s =
      .next (advance (wr d (if s.clock < 64 then 0 else posAt (trackAt s t) (s.clock - 64)) s)) ∧
    (∀ roll, (cur s).started = some (sel, roll) →
      exec (.carwaitStart d a) s =
        .next (advance (wr d (BitVec.ofNat 64 roll) (onCur (fun c => { c with started := none }) s)))) ∧
    ((cur s).started = none → exec (.carwaitStart d a) s =
      .next (setRes .parked (onCur (fun c => { c with st := .parked (.carStart sel) }) s))) ∧
    (∀ v, (cur s).verdict = some v → v.sel = sel →
      (v.code ≠ 0 → exec (.carwaitVerdict d a) s = .next (advance (wr d (BitVec.ofNat 64 v.code) s))) ∧
      (v.code = 0 → exec (.carwaitVerdict d a) s =
        .next (setRes .parked (onCur (fun c => { c with st := .parked (.carVerdict sel) }) s))))

/-- R147, R157, R174: the controller takes a message 64 cycles after its word; a call of a track with no pending
request gives the start slot to the entry at the cursor if somebody has subscribed to it, and moves the next slot past
its blocks and the gap of 32 cycles; with no roll call at all the slot passes in 32 cycles; HOLD is cleared once no
mark is left and every reported atom is remapped; a descriptor write appends its entry. R27, R153, R160, R161, R174,
R175: a start begins in its slot cycle, and three cycles into each four a block is delivered: a scratchpad
subscription that catches the start queues the 256 bytes for their offset; after its last block the start is over.
Once no track has more to deliver in the cycle a queued block whose bank serves no other catch is written, its bank is
granted to it, and its handle counts 8 sectors: with the count EXPECTED it is FULL, which ends the subscription and
wakes who waits for it. Where the controller's read fails, HOLD is set, the atom is reported, the start is cut for the
subscription, its handle counts from 0, and a TAINT message goes out. Rests on the model's own choice, log entries 33,
41 and 75. -/
def Obligations.CarouselController : Prop :=
  ((∀ (due core slot t : Nat) (x : TakenSub) (s : State), s.ctl = [⟨due, core, slot, t, .sub x⟩] → due ≤ s.clock →
    x.covered = false → calledAfter s x.track x.entry x.retired = false →
    exec .controllerTake s = .next { s with ctl := [], taken := s.taken ++ [x] }) ∧
  (∀ (t i : Nat) (g : Segment) (s : State), t ∈ s.ctx.tracks → (trackAt s t).next ≤ s.clock + 256 →
    (trackAt s t).pending = [] → (trackAt s t).cursor = i → (trackAt s t).segs[i]? = some g → g.hold = false →
    0 < rollCall s t i → Gives (exec (.segmentCall t) s) fun u =>
      let k := trackAt u t
      k.next = (trackAt s t).next + 4 * g.len + 32 ∧ k.cursor = (i + 1) % (trackAt s t).segs.length ∧
      k.starts = (trackAt s t).starts ++ [⟨s.serial, (trackAt s t).next, i, g, rollCall s t i, false, 0⟩] ∧
      k.count = (trackAt s t).count + 1 ∧ (∀ y ∈ u.taken, y.track = t → y.entry = i → y.covered = true) ∧
      u.mem = s.mem ∧ u.me = s.me) ∧
  (∀ (t : Nat) (s : State), t ∈ s.ctx.tracks → (trackAt s t).next ≤ s.clock + 256 → (trackAt s t).pending = [] →
    (∀ e, rollCall s t e = 0) → Gives (exec (.segmentCall t) s) fun u =>
      (trackAt u t).next = (trackAt s t).next + 32 ∧ (trackAt u t).starts = (trackAt s t).starts ∧
      (trackAt u t).cursor = (trackAt s t).cursor ∧ u.mem = s.mem) ∧
  (∀ (t e : Nat) (g : Segment) (s : State), (trackAt s t).segs[e]? = some g → g.hold = true → sourceBad s g = false →
    Gives (exec (.holdClear t e) s) fun u => (trackAt u t).segs[e]? = some { g with hold := false } ∧ u.mem = s.mem) ∧
  ∀ (r : Rec) (s : State), Ready ⟨[], []⟩ s → dscTrack r ∈ s.ctx.tracks →
    dscFault r (trackAt s (dscTrack r)).segs.length = none → dscOn r = true →
    dscEntry r = (trackAt s (dscTrack r)).segs.length → Gives (exec (.segmentDescriptorWrite r) s) fun u =>
      u.iss.res = .retired ∧ (trackAt u (dscTrack r)).segs = (trackAt s (dscTrack r)).segs ++ [dscSegment r] ∧
      u.mem = s.mem ∧ u.me.pool = s.me.pool) ∧
  ((∀ (t : Nat) (st : Start) (rest : List Start) (bad : Bool) (s : State), (trackAt s t).starts = st :: rest →
    st.begun = false → st.slot ≤ s.clock → Gives (exec (.blockDelivery t bad) s) fun u =>
      (trackAt u t).starts = { st with begun := true } :: rest) ∧
  (∀ (t n : Nat) (st : Start) (rest : List Start) (x : CoreSub) (pg : Tr) (s : State), (trackAt s t).starts = st :: rest →
    st.begun = true → st.slot + 4 * st.sent + 3 ≤ s.clock → s.others = [] → n < 16 →
    s.me.csubs = [(n, some x)] → x.start = some st.id → x.cut = false → catchTgt x.catch_ = 0 → s.me.tests = [] →
    s.me.saved = false → s.hostDown = false →
    let va := st.seg.src + 256 * st.sent
    let off := catchOff x.catch_ + 256 * st.sent
    carPage s va = some pg → s.poison = [] → s.memDown = [] → s.me.catches = [] →
    Gives (exec (.blockDelivery t false) s) (fun u =>
      (trackAt u t).starts = (if st.sent + 1 < st.seg.len then { st with sent := st.sent + 1 } :: rest else rest) ∧
      u.mem = s.mem ∧ csubAt u n = some x ∧
      u.me.catches = [⟨s.clock, n, x.id, st.id, scratchHome s.me.num off,
        (List.range 256).map fun j => memAt s (homeIn s pg (va + j)), false⟩]) ∧
    ∀ g, (trackAt s t).segs[st.entry]? = some g → st.sent + 1 < st.seg.len →
      Gives (exec (.blockDelivery t true) s) fun u =>
        (trackAt u t).starts = { st with sent := st.sent + 1 } :: rest ∧ u.mem = s.mem ∧
        (trackAt u t).segs[st.entry]? = some { g with hold := true } ∧
        u.fw.reports = s.fw.reports ++ [homeIn s pg va / 32] ∧
        csubAt u n = some { x with cut := true, retired := s.clock } ∧ (hGet u (catchHnd x.catch_)).counted = 0 ∧
        ∃ due, (⟨taintMessage s.me.num (t * 256 + st.entry) st.sent 0 1 (trackAt s t).count, due, false⟩ : NetMsg) ∈ u.net) ∧
  ∀ (t : Nat) (r : Catch) (rest : List Catch) (x : CoreSub) (s : State), s.me.catches = r :: rest → s.others = [] →
    (∀ g ∈ s.banks, g.cycle = s.clock → some g.bank ≠ bankOf r.home) → (∀ k ∈ s.ctx.tracks, deliveryDue s k = false) →
    deliveryDue s t = false → r.data.length = 256 → r.bad = false → csubAt s r.n = some x → x.id = r.sub →
    x.start = some r.start → x.cut = false →
    let v := hGet s (catchHnd x.catch_)
    v.st = .filling → v.counted.toNat < v.expected.toNat → catchTgt x.catch_ = 0 → r.n < 16 →
    Gives (exec (.blockDelivery t false) s) fun u =>
      u.me.catches = rest ∧ (∀ j < 256, memAt u (r.home + j) = (r.data[j]?).getD 0) ∧
      (∀ h, (h < r.home ∨ r.home + 256 ≤ h) → memAt u h = memAt s h) ∧
      (∀ b, bankOf r.home = some b → (⟨b, s.clock, none, true⟩ : Grant) ∈ u.banks) ∧
      (hGet u (catchHnd x.catch_)).counted = v.counted + 8 ∧
      (v.counted.toNat + 8 < v.expected.toNat →
        (hGet u (catchHnd x.catch_)).st = .filling ∧ csubAt u r.n = some { x with wrote := true }) ∧
      (v.expected.toNat ≤ v.counted.toNat + 8 → (hGet u (catchHnd x.catch_)).st = .full ∧ csubAt u r.n = none ∧
        u.taken = (s.taken.filter fun y => y.id != x.id) ∧
        ∀ k, (slotOf s k).st = .parked (.handle (catchHnd x.catch_)) ∨ (slotOf s k).st = .parked .carSub →
          (slotOf u k).st = .runnable))

/-- R163, R186 to R189, R184: the ray-pool words. RAYPUT makes a ray live with bytes 39:0 and FLAGS<3:0> of vd and an
empty side list; RAYGET reads its record; RAYSUB writes a subscription to the lowest free place; HITPOP takes the
first side-list entry at or before the frontier, and else writes all ones; RAYKILL ends the ray and its subscriptions;
CARWAIT.RAY reads FLAGS once nothing is subscribed. RAYPUT of a ray with subscriptions, and RAYSUB of one that is not
live, trap SCHEDULE. Each of them that accesses the record forfeits its cycle where the record's bank is busy. R27,
R133, R162, R167 to R172: the intersection unit first makes the visits to records that wait, which open a test or note
a start that was missed; it tests the records of its ring's first block in order and drops the block after the fourth,
at which the unit of a stopping core empties its ring; a triangle that a ray under test hits nearer than its closest
hit so far becomes its closest hit. Rests on the model's own choice, log entries 16, 29, 30 and 75. -/
def Obligations.RayResults : Prop :=
  (∀ (d : BitVec 4) (gd ga gb : BitVec 7) (i : Nat) (s : State),
    Ready ⟨[.v d, .g gd, .g ga, .g gb], [.v d]⟩ s → rd s ga = BitVec.ofNat 64 i → i < 4096 →
    let sl := s.iss.slot
    let home (k : Nat) : Nat := scratchHome s.me.num (64 * i + k)
    (banksBusy s (rayHomes s i) = true → raySubsOf s i = [] →
      exec (.rayput d ga) s = forfeit (ownBanks s (rayHomes s i)) s ∧
      exec (.rayget d ga) s = forfeit (ownBanks s (rayHomes s i)) s) ∧
    (banksBusy s (rayHomes s i) = true → rayLive s i = true →
      exec (.raykill gd ga) s = forfeit (ownBanks s (rayHomes s i)) s ∧
      (sideOf s i ≠ [] → exec (.hitpop gd ga) s = forfeit (ownBanks s (rayHomes s i)) s) ∧
      (raySubsOf s i = [] → exec (.carwaitRay gd ga) s = forfeit (ownBanks s (rayHomes s i)) s) ∧
      ∀ t e, rd s gb = BitVec.ofNat 64 (256 * t + e) → t < 16 → e < 256 → t ∈ s.ctx.tracks →
        e < (trackAt s t).segs.length → (segAt s t e).kind = 1 ∨ (segAt s t e).kind = 2 →
        exec (.raysub gd ga gb) s = forfeit (ownBanks s (rayHomes s i)) s) ∧
    (raySubsOf s i ≠ [] → exec (.rayput d ga) s = .next (takeTrap cSchedule (rd s ga) s)) ∧
    (banksBusy s (rayHomes s i) = false → raySubsOf s i = [] → Gives (exec (.rayput d ga) s) fun t =>
      t.iss.res = .retired ∧ rayLive t i = true ∧ sideOf t i = [] ∧
      (∀ k < 40, memAt t (home k) = (recOf (rdV s d)).extractLsb' (8 * k) 8) ∧
      memAt t (home 40) = (recOf (rdV s d)).extractLsb' 320 8 &&& 15 ∧
      (∀ k, 41 ≤ k → k < 64 → memAt t (home k) = 0) ∧
      (∀ h, (h < home 0 ∨ home 64 ≤ h) → memAt t h = memAt s h) ∧ t.me.pool = s.me.pool) ∧
    (banksBusy s (rayHomes s i) = false →
      exec (.rayget d ga) s = .next (advance (wrV d ((List.range 8).map fun k => BitVec.ofNat 64 (leNat
        ((List.range 8).map fun j => memAt s (home (8 * k + j))))) s))) ∧
    (∀ t e, rd s gb = BitVec.ofNat 64 (256 * t + e) → t < 16 → e < 256 → t ∈ s.ctx.tracks →
      e < (trackAt s t).segs.length → (segAt s t e).kind = 1 ∨ (segAt s t e).kind = 2 →
      (rayLive s i = false → exec (.raysub gd ga gb) s = .next (takeTrap cSchedule (rd s ga) s)) ∧
      (rayLive s i = true → banksBusy s (rayHomes s i) = false → (∀ x ∈ raySubsOf s i, x.sel ≠ 256 * t + e) →
        (∀ l < 4, ∃ x ∈ raySubsOf s i, x.sub = l) →
        exec (.raysub gd ga gb) s = .next (advance (wr gd (BitVec.allOnes 64) s))) ∧
      ∀ j, rayLive s i = true → banksBusy s (rayHomes s i) = false →
      (∀ x ∈ raySubsOf s i, x.sel ≠ 256 * t + e) → j < 4 → (∀ x ∈ raySubsOf s i, x.sub ≠ j) →
      (∀ l < j, ∃ x ∈ raySubsOf s i, x.sub = l) → Gives (exec (.raysub gd ga gb) s) fun u =>
        u.iss.res = .retired ∧ regAt u sl gd.toNat = BitVec.ofNat 64 j ∧
        u.me.raySubs = s.me.raySubs ++ [⟨s.serial, i, j, 256 * t + e, (segAt s t e).kind, s.clock⟩] ∧
        memAt u (home (48 + 4 * j)) = (rd s gd).extractLsb' 0 8 ∧
        memAt u (home (49 + 4 * j)) = (rd s gd).extractLsb' 8 8 ∧
        memAt u (home (50 + 4 * j)) = BitVec.ofNat 8 e ∧ memAt u (home (51 + 4 * j)) = BitVec.ofNat 8 (128 + t) ∧
        (⟨s.clock + 64, s.me.num, sl, t, .sub ⟨s.serial, s.me.num, t, e, s.clock, false⟩⟩ : CtlMsg) ∈ u.ctl) ∧
    (sideOf s i = [] → exec (.hitpop gd ga) s = .next (advance (wr gd (BitVec.allOnes 64) s))) ∧
    (∀ w start l, sideOf s i = (w, start) :: l →
      (rayLive s i = true → leN (hitT w) (frontier s i) = true → banksBusy s (rayHomes s i) = false →
        Gives (exec (.hitpop gd ga) s) fun u =>
          u.iss.res = .retired ∧ regAt u sl gd.toNat = w ∧ sideOf u i = l ∧ u.mem = s.mem) ∧
      (rayLive s i = false ∨ (leN (hitT w) (frontier s i) = false ∧ banksBusy s (rayHomes s i) = false) →
        exec (.hitpop gd ga) s = .next (advance (wr gd (BitVec.allOnes 64) s)))) ∧
    (rayLive s i = true → banksBusy s (rayHomes s i) = false → Gives (exec (.raykill gd ga) s) fun u =>
      let subs := raySubsOf s i
      u.iss.res = .retired ∧ rayLive u i = false ∧ sideOf u i = [] ∧ raySubsOf u i = [] ∧ (∀ t ∈ u.me.tests, t.ray ≠ i) ∧
      regAt u sl gd.toNat = BitVec.ofNat 64 (256 * (sideOf s i).length + subs.length) ∧
      (∀ x ∈ subs, (⟨s.clock + 64, s.me.num, sl, x.sel / 256, .unsub x.id⟩ : CtlMsg) ∈ u.ctl ∧
        ∀ k < 4, memAt u (home (48 + 4 * x.sub + k)) = 0) ∧
      ∀ h, (∀ x ∈ subs, h < home (48 + 4 * x.sub) ∨ home (52 + 4 * x.sub) ≤ h) → memAt u h = memAt s h) ∧
    (rayLive s i = false → exec (.raykill gd ga) s = .next (advance (wr gd 0 s)) ∧
      exec (.carwaitRay gd ga) s = .next (advance (wr gd (BitVec.ofNat 64 (2 ^ 63)) s))) ∧
    (rayLive s i = true → raySubsOf s i = [] → banksBusy s (rayHomes s i) = false →
      exec (.carwaitRay gd ga) s = .next (advance (wr gd
      (BitVec.ofNat 64 ((memAt s (home 40)).toNat + 256 * (memAt s (home 41)).toNat)) s))) ∧
    (rayLive s i = true → raySubsOf s i ≠ [] → exec (.carwaitRay gd ga) s =
      .next (setRes .parked (onCur (fun c => { c with st := .parked (.carRay i) }) s)))) ∧
  ((∀ (v : RayVisit) (s : State), s.me.work = [v] →
    let home (k : Nat) : Nat := scratchHome s.me.num (64 * v.ray + k)
    (v.kind = .late → Gives (exec .recordTest s) fun t => t.me.work = [] ∧ t.me.ring = s.me.ring ∧
      memAt t (home 40) = memAt s (home 40) ||| 8 ∧ ∀ h, h ≠ home 40 → memAt t h = memAt s h) ∧
    (∀ u : RayTest, v.kind = .opens →
      (s.me.tests.find? fun x => x.ray == v.ray && x.sub == v.sub && x.start == v.start) = some u → v.sub < 4 →
      Gives (exec .recordTest s) fun t => t.me.work = [] ∧ t.me.ring = s.me.ring ∧
        memAt t (home 42) = 0 ∧ memAt t (home 43) = 0 ∧
        memAt t (home (51 + 4 * v.sub)) = memAt s (home (51 + 4 * v.sub)) ||| 64 ∧
        (∀ h, h ≠ home 42 → h ≠ home 43 → h ≠ home (51 + 4 * v.sub) → memAt t h = memAt s h) ∧
        ({ u with skip := 0, tmax0 := BitVec.ofNat 32 (rayNat s u.ray 28 4), hit0 := BitVec.ofNat 32 (rayNat s u.ray 32 4),
                  side0 := sideOf s u.ray, dist0 := BitVec.ofNat 16 (rayNat s u.ray (48 + 4 * u.sub) 2) }) ∈ t.me.tests)) ∧
  ∀ (b : RingBlock) (rest : List RingBlock) (s : State), s.me.ring = b :: rest → s.me.ringFree ≤ s.clock → b.bad = false →
    s.me.work = [] →
    (s.me.ringRec < 3 → Gives (exec .recordTest s) fun t => t.me.ringRec = s.me.ringRec + 1 ∧ t.me.ring = s.me.ring) ∧
    (s.me.ringRec = 3 → b.last = false → Gives (exec .recordTest s) fun t =>
      t.me.ringRec = 0 ∧ t.me.ring = if s.me.stopped then [] else rest) ∧
    ∀ (u : RayTest) (w : Word), walkers s b.start = [u] → u.skip = 0 → s.me.ringRec < 3 →
      let line := blockLanes b.data s.me.ringRec
      let home (k : Nat) : Nat := scratchHome s.me.num (64 * u.ray + k)
      line 0 = 2 → (line 11).getLsbD 0 = false → triTest (rayLanes s u.ray) line = some w →
      ltN (hitT w) (unpack fmtS (rayNat s u.ray 28 4)) = true → Gives (exec .recordTest s) fun t =>
        (∀ k < 4, memAt t (home (28 + k)) = w.extractLsb' (32 + 8 * k) 8 ∧
          memAt t (home (32 + k)) = w.extractLsb' (8 * k) 8) ∧
        (∀ h, (h < home 28 ∨ home 36 ≤ h) → memAt t h = memAt s h) ∧
        t.me.ringFree = s.clock + 1)

/-- R203 to R205: the shading cache. A key of more than 48 bits traps ILLEGAL. TSREQ of a key that no way holds claims
the first ABSENT way, else the VALID one filled earliest, else says FULL; it reads PENDING and VALID; TSFILL by the
claimant makes the way VALID and wakes who waits for it, once the thread's blocking stores to host memory are complete
(R253), and says 4 to any other thread; TSWAIT reads a VALID way, parks on a PENDING one, and says 4 for none. Rests
on the model's own choice, log entries 6 and 12. Log 12 is in TSFILL's wait for its thread's posted stores. -/
def Obligations.ShadingResults : Prop :=
  ∀ (d a : BitVec 7) (b : BitVec 4) (s : State), Ready ⟨[.g d, .g a, .v b], [.g d, .v b]⟩ s →
    let key := (rd s a).toNat
    let cl := clusterAt s (s.me.num / 96)
    let sl := s.iss.slot
    let claims (w : Nat) : Prop :=
      ((waysOf key).find? (fun w => (wayAt cl w).isNone) = some w) ∨
      ((∀ v ∈ waysOf key, wayAt cl v ≠ none) ∧ w ∈ waysOf key ∧ ∃ x, wayAt cl w = some x ∧ x.valid = true ∧
        ∀ v ∈ waysOf key, v ≠ w → ∀ y, wayAt cl v = some y → y.valid = true → x.filled < y.filled)
    (2 ^ 48 ≤ key → exec (.tsreq d a b) s = .next (takeTrap cIllegal (rd s a) s) ∧
      exec (.tsfill d a b) s = .next (takeTrap cIllegal (rd s a) s) ∧
      exec (.tswait d a b) s = .next (takeTrap cIllegal (rd s a) s)) ∧
    (key < 2 ^ 48 →
    (wayOf cl key = none → (∀ v ∈ waysOf key, ∃ x, wayAt cl v = some x ∧ x.valid = false) →
      exec (.tsreq d a b) s = .next (advance (wr d 3 s))) ∧
    (∀ w, wayOf cl key = none → claims w →
      Gives (exec (.tsreq d a b) s) fun t => t.iss.res = .retired ∧ regAt t sl d.toNat = 0 ∧
        wayAt (clusterAt t (s.me.num / 96)) w = some ⟨key, false, (cur s).thread, 0, 0⟩ ∧ t.mem = s.mem) ∧
    (∀ w x, wayOf cl key = some (w, x) → x.valid = false →
      exec (.tsreq d a b) s = .next (advance (wr d 1 s)) ∧
      exec (.tswait d a b) s = .next (setRes .parked (onCur (fun c => { c with st := .parked (.tsWait key) }) s)) ∧
      (x.owner = (cur s).thread → hasPosted s sl = true →
        exec (.tsfill d a b) s = .next (setRes .waiting (onCur (fun c => { c with st := .waiting .posted }) s))) ∧
      (x.owner = (cur s).thread → hasPosted s sl = false → Gives (exec (.tsfill d a b) s) fun t =>
        t.iss.res = .retired ∧ regAt t sl d.toNat = 2 ∧ t.mem = s.mem ∧
        wayAt (clusterAt t (s.me.num / 96)) w = some ⟨x.key, true, x.owner, recOf (rdV s b), cl.fills⟩ ∧
        ∀ k, (slotOf s k).st = .parked (.tsWait key) → (slotOf t k).st = .runnable)) ∧
    (∀ w x, wayOf cl key = some (w, x) → x.valid = true ∨ x.owner ≠ (cur s).thread →
      exec (.tsfill d a b) s = .next (advance (wr d 4 s))) ∧
    (∀ w x, wayOf cl key = some (w, x) → x.valid = true →
      exec (.tsreq d a b) s = .next (advance (wr d 2 (wrV b (wordsOf x.data) s))) ∧
      exec (.tswait d a b) s = .next (advance (wr d 2 (wrV b (wordsOf x.data) s)))) ∧
    (wayOf cl key = none → exec (.tswait d a b) s = .next (advance (wr d 4 s)) ∧
      exec (.tsfill d a b) s = .next (advance (wr d 4 s))))

/-- R27, R99: WATCH reads its word: a value other than b is written and the word retires; the value b parks the thread
on the line, and a dropped watch makes it read again. In another core's scratchpad the read waits for its reply, as
any blocking read, and what the reply brings decides in the same way. Rests on the model's own choice, log entry 16.
-/
def Obligations.WatchResults : Prop :=
  (∀ (d a b : BitVec 7) (pages : List Tr) (s : State), Ready ⟨[.g d, .g a, .g b], [.g d]⟩ s → Prompt s →
    let ea := (rd s a).toNat % 2 ^ 57
    let homes := (List.range 8).map fun k => homeOf s pages (ea + k)
    let v : Word := BitVec.ofNat 64 (leNat (homes.map (byteAt s)))
    ea % 8 = 0 → ea < Config.controlWindow ∨ Config.deviceTop ≤ ea → checkAccess s s.me.dtlb false [(ea, .read)] = .ok pages →
    (remoteHomes s.me.num homes ≠ [] → Gives (exec (.watch d a b) s) fun t =>
      t.iss.res = .waiting ∧ t.mem = s.mem ∧ t.me.pool = s.me.pool ∧ ∃ x : Access, (cur t).st = .waiting (.reply x) ∧
        x.va = ea ∧ x.pages = pages ∧ x.act = .watch d.toNat (rd s b) ∧ s.clock < x.due) ∧
    (remoteHomes s.me.num homes = [] → (∀ h ∈ homes, isBad s h = false) →
    (v ≠ rd s b → Gives (exec (.watch d a b) s) fun t =>
      t.iss.res = .retired ∧ regAt t s.iss.slot d.toNat = v ∧ t.mem = s.mem) ∧
    (v = rd s b → Gives (exec (.watch d a b) s) fun t =>
      t.iss.res = .parked ∧ t.me.pool = s.me.pool ∧ t.mem = s.mem ∧ (cur t).pa = (cur s).pa ∧
      (cur t).st = .parked (.watch (homeOf s pages (ea / 64 * 64) / 32) (homeOf s pages (ea / 64 * 64 + 32) / 32))))) ∧
  (∀ (x : Access) (d : Nat) (w : Word) (s : State), x.act = .watch d w → x.got = [] → x.due ≤ s.clock →
    s.me.relaxed = [] → s.me.posted = [] → (slotOf s x.slot).st = .waiting (.reply x) → (slotOf s x.slot).partner = none →
    let homes := (List.range 8).map fun k => homeOf s x.pages (x.va + k)
    let v : Word := BitVec.ofNat 64 (leNat (homes.map (byteAt s)))
    (∀ h ∈ homes, isBad s h = false) →
    (v ≠ w → Gives (exec (.blockingReply x.slot) s) fun t =>
      (slotOf t x.slot).st = .runnable ∧ regAt t x.slot d = v ∧ t.mem = s.mem) ∧
    (v = w → Gives (exec (.blockingReply x.slot) s) fun t => t.me.pool = s.me.pool ∧ t.mem = s.mem ∧
      (slotOf t x.slot).st = .parked (.watch (homeOf s x.pages (x.va / 64 * 64) / 32)
        (homeOf s x.pages (x.va / 64 * 64 + 32) / 32)))) ∧
  ∀ (k lo hi : Nat) (s : State), (slotOf s k).st = .parked (.watch lo hi) → Gives (exec (.watchDrop k) s) fun t =>
    (slotOf t k).st = .runnable ∧ (slotOf t k).pa = (slotOf s k).pa ∧ t.mem = s.mem ∧ t.me.pool = s.me.pool

/-- R39, R246, R248: bytes written at homes read back there, and no other byte, register or slot place changes. R257,
R299: where no log is replayed, a write leaves it so. In a replay, a write of one byte that reaches a scratchpad
through the cluster window uses up the first entry left for its atom at that port if core, slot and kind agree, and
comes early if they do not; where no entry is left for the atom it is free. What comes early is passed over, and a
blocking access that would come early, by an earlier relaxed access to its atoms, waits for its reply. Rests on the
model's own choice, log entries 3, 8 and 67. -/
def Obligations.WriteThenRead : Prop :=
  (∀ (w : Writer) (l : List (Nat × Byte)) (s : State),
    let t := writeBytes w l s
    ((l.map (·.1)).Nodup → ∀ e ∈ l, memAt t e.1 = e.2) ∧
    (∀ h, h ∉ l.map (·.1) → memAt t h = memAt s h) ∧ (s.memOk → t.memOk) ∧
    t.me.pool = s.me.pool ∧ t.me.handles = s.me.handles ∧ t.me.mbox = s.me.mbox ∧ t.clock = s.clock ∧
    (∀ k, (slotOf t k).pa = (slotOf s k).pa ∧ (slotOf t k).widx = (slotOf s k).widx ∧
      (slotOf t k).winBase = (slotOf s k).winBase ∧ (slotOf t k).prv = (slotOf s k).prv) ∧
    ∀ a ∈ t.poison, a ∈ s.poison) ∧
  ((∀ (w : Writer) (l : List (Nat × Byte)) (s : State), s.replay = none → (writeBytes w l s).replay = none) ∧
  (∀ (w : Writer) (h c : Nat) (b : Byte) (r : Replay) (s : State), scratchCore (h / 32) = some c → c ≠ w.core →
    s.replay = some r →
    let first := r.left.find? fun x => x.1 == c && x.2.atom == BitVec.ofNat 14 (h / 32)
    let t := writeBytes w [(h, b)] s
    (first = none → t.replay = some r) ∧
    ∀ x, first = some x →
      (x.2.score = BitVec.ofNat 12 w.core ∧ x.2.sslot = BitVec.ofNat 4 w.slot ∧ x.2.kind = BitVec.ofNat 2 w.kind →
        t.replay = some { r with left := r.left.erase x }) ∧
      (x.2.score ≠ BitVec.ofNat 12 w.core ∨ x.2.sslot ≠ BitVec.ofNat 4 w.slot ∨ x.2.kind ≠ BitVec.ofNat 2 w.kind →
        t.replay = some { r with early := true })) ∧
  (∀ (e : Due) (es : List Due) (s : State), isEarly (onCore exec e s) = true → firstDue exec s (e :: es) = firstDue exec s es) ∧
  ∀ (va : Nat) (act : AccAct) (pages : List Tr) (s : State), s.replay ≠ none → accVector act = false →
    let r := newAccess false va act pages { s with me := { s.me with dtlb := touchTlb s.iss.slot pages s.me.dtlb } }
    r.1.due ≤ s.clock → isEarly (finishAccess r.1 r.2) = true → Gives (issueAccess false va act pages s) fun t =>
      t.iss.res = .waiting ∧ (cur t).st = .waiting (.reply r.1) ∧ r.1.va = va ∧ r.1.act = act ∧ r.1.pages = pages ∧
      r.1.slot = s.iss.slot ∧ t.mem = s.mem ∧ t.me.pool = s.me.pool ∧ t.replay = s.replay)

/-- R378 to R381, R384, R395: the words of the learning-automaton array. LAINF waits 16 cycles for the outputs and
votes of the features; LAFB1 and LAFB2 take a number and a place in the queue, and park while four commands wait;
LARD, LAWR, LASEED and LACLR read and write the array once it is drained, and wait before that. -/
def Obligations.AutomatonWords : Prop :=
  ∀ (d a : BitVec 4) (gd ga gb : BitVec 7) (s : State), Ready ⟨[.v d, .v a, .g gd, .g ga, .g gb], [.v d, .g gd]⟩ s →
    let m := s.me.la
    let x : BitVec 256 := (recOf (rdV s a)).setWidth 256
    let idle := m.queue = []
    let k := (rd s ga).toNat
    let waits (i : Instr) (form : Nat) (dst : Nat) (v w : Word) : Prop := ¬idle →
      exec i s = .next (setRes .waiting (onCur (fun c => { c with st := .waiting (.laDrain form dst v w) }) s))
    let reads (v : Word) : Prop := exec (.lard gd ga) s = .next (advance (wr gd v s))
    let learns (i : Instr) (op : Nat) : Prop :=
      (laPushed m < 4 → Gives (exec i s) fun t =>
        t.iss.res = .retired ∧ regAt t s.iss.slot gd.toNat = m.count.setWidth 64 ∧ t.me.la.count = m.count + 1 ∧
        t.me.la.cells = m.cells ∧ t.mem = s.mem ∧
        ∃ q : LaCmd, t.me.la.queue = m.queue ++ [q] ∧ q.op = op ∧ q.feat = x ∧
          q.mask = (recOf (rdV s a)).extractLsb' 256 128 ∧ q.n = m.count ∧ q.nf = m.nf.toNat ∧ q.ncl = m.ncl.toNat) ∧
      (4 ≤ laPushed m →
        exec i s = .next (setRes .parked (onCur (fun c => { c with st := .parked (.queue .automaton) }) s)))
    ((∀ c < m.ncl.toNat, laBad m c = false) → spWf (-1) m.cells = true → Gives (exec (.lainf d a) s) fun t =>
      t.iss.res = .waiting ∧ t.me.pool = s.me.pool ∧ t.mem = s.mem ∧ t.me.la = m ∧
      ∃ v : Rec, (cur t).st = .waiting (.lainf (s.clock + 16) d.toNat v) ∧
        (let out (c : Nat) : Bool := v.getLsbD (256 + c)
         (∀ c < 128, out c = true ↔ c < m.ncl.toNat ∧
           ∀ l < 512, l % 256 < m.nf.toNat → 0 ≤ (laCell m c l).toInt → litVal x l = true) ∧
         (∀ j < 8, ((v.extractLsb' (32 * j) 32).toInt : Int) =
           ((List.range 128).countP fun c => out c && laClass m c == j && c % 2 == 0 : Nat) -
           ((List.range 128).countP fun c => out c && laClass m c == j && c % 2 == 1 : Nat)))) ∧
    (∀ c, laBadBelow m = some c → exec (.lainf d a) s = .next (takeTrap cPoison (BitVec.ofNat 64 (512 * c)) s)) ∧
    learns (.lafb1 gd a) 1 ∧ learns (.lafb2 gd a) 2 ∧
    (idle → (∀ c l, k = 512 * c + l → c < 128 → l < 512 → laBad m c = false → reads ((laCell m c l).signExtend 64)) ∧
      (∀ c, k = 2 ^ 16 + 512 * c → c < 128 → reads (BitVec.ofNat 64 (laClass m c))) ∧
      (∀ e, k = 2 ^ 17 + e → e < 16 → reads (BitVec.ofNat 64 (laEntry m e))) ∧
      (k = 3 * 2 ^ 16 → reads (m.seed.setWidth 64)) ∧ (k = 3 * 2 ^ 16 + 1 → reads (m.epoch.setWidth 64)) ∧
      (k = 3 * 2 ^ 16 + 2 → reads (m.count.setWidth 64)) ∧ (k = 3 * 2 ^ 16 + 3 → reads (m.nf.setWidth 64)) ∧
      (k = 3 * 2 ^ 16 + 4 → reads (m.ncl.setWidth 64)) ∧
      (∀ c l, k = 512 * c + l → c < 128 → l < 512 → -128 ≤ (rd s gb).toInt → (rd s gb).toInt ≤ 127 →
        Gives (exec (.lawr ga gb) s) fun t => t.iss.res = .retired ∧ laCell t.me.la c l = (rd s gb).setWidth 8 ∧
          (∀ j, j ≠ 512 * c + l → spGet (-1) t.me.la.cells j = spGet (-1) m.cells j) ∧ t.me.pool = s.me.pool ∧
          t.mem = s.mem) ∧
      (k < 2 ^ 32 → (rd s gb).toNat < 2 ^ 16 → exec (.laseed ga gb) s = .next (advance { s with me := { s.me with
        la := { m with seed := (rd s ga).setWidth 32, epoch := (rd s gb).setWidth 16, count := 0 } } })) ∧
      (k < 256 → Gives (exec (.laclr ga) s) fun t => t.iss.res = .retired ∧ t.me.la.poison = 0 ∧ t.mem = s.mem ∧
        ∀ c < 128, ∀ l < 512, laCell t.me.la c l = (rd s ga).setWidth 8)) ∧
    (laIndexOk (rd s ga) = true → waits (.lard gd ga) 3 gd.toNat (rd s ga) 0) ∧
    (k < 2 ^ 16 → -128 ≤ (rd s gb).toInt → (rd s gb).toInt ≤ 127 → waits (.lawr ga gb) 4 0 (rd s ga) (rd s gb)) ∧
    (k < 2 ^ 32 → (rd s gb).toNat < 2 ^ 16 → waits (.laseed ga gb) 5 0 (rd s ga) (rd s gb)) ∧
    (k < 256 → waits (.laclr ga) 6 0 (rd s ga) 0)

/-- R382 to R385, R391, R394: the array's own steps. The running command's next clause takes effect 64 cycles after
the last; in a clause that the command selects and that is not poisoned, each active cell moves as the table and the
draw say, and every other cell keeps its value. LAINF's result reaches its register; an inference record reads the
bank in its first cycle and stores its result in the core's own scratchpad in its 16th, marked if it read a poisoned
clause; a soft error poisons its clause and is reported. -/
def Obligations.AutomatonSteps : Prop :=
  (∀ (k due vd : Nat) (v : Rec) (s : State), (slotOf s k).st = .waiting (.lainf due vd v) → due ≤ s.clock →
    (slotOf s k).partner = none → Gives (exec (.lainfComplete k) s) fun t =>
      (slotOf t k).st = .runnable ∧ t.mem = s.mem ∧ ∀ j < 8, regAt t k (8 * vd + j) = v.extractLsb' (64 * j) 64) ∧
  (∀ (q : LaCmd) (rest : List LaCmd) (s : State), s.me.la.queue = q :: rest → q.op ≠ 3 →
    let m := s.me.la
    m.clause < q.ncl → m.start + 64 * m.clause + 64 ≤ s.clock → Gives (exec .laClauseUpdate s) fun t =>
      let n := t.me.la
      t.mem = s.mem ∧ t.me.pool = s.me.pool ∧
      (m.clause + 1 < q.ncl → n.queue = m.queue ∧ n.clause = m.clause + 1 ∧ n.start = m.start) ∧
      (q.ncl = m.clause + 1 → n.queue = rest ∧ n.clause = 0 ∧ n.start = m.start + 64 * q.ncl) ∧
      (q.mask.toNat / 2 ^ m.clause % 2 = 0 ∨ laBad m m.clause = true → n.cells = m.cells) ∧
      (q.mask.toNat / 2 ^ m.clause % 2 = 1 → laBad m m.clause = false →
        (∀ l < 512, laCell n m.clause l = if l % 256 < q.nf then
          laStep m q m.clause (laOut m q.feat q.nf m.clause) l else laCell m m.clause l) ∧
        (∀ j, j < 512 * m.clause ∨ 512 * m.clause + 512 ≤ j → spGet (-1) n.cells j = spGet (-1) m.cells j))) ∧
  (∀ (q : LaCmd) (rest : List LaCmd) (pos : Nat) (user : Word) (s : State), s.me.la.queue = q :: rest → q.op = 3 →
    q.record = some (pos, user) →
    let off := (user.toNat / 2 ^ 6 % 2 ^ 13 * 64 + 64 * pos) % 2 ^ 19
    (s.me.la.result = none → s.me.la.start ≤ s.clock → exec .inferenceRecord s = .next { s with me := { s.me with
      la := { s.me.la with result := some (laInfer s.me.la q.feat, (laBadBelow s.me.la).isSome) } } }) ∧
    ∀ v bad, s.me.la.result = some (v, bad) → s.me.la.start + 15 ≤ s.clock → Gives (exec .inferenceRecord s) fun t =>
      t.me.la.queue = rest ∧ t.me.la.start = s.clock + 1 ∧ t.me.la.result = none ∧
      (∀ j < 64, memAt t (scratchHome s.me.num (off + j)) = v.extractLsb' (8 * j) 8) ∧
      (∀ j < 64, isBad t (scratchHome s.me.num (off + j)) = bad) ∧
      (∀ h, h < scratchHome s.me.num off ∨ scratchHome s.me.num off + 64 ≤ h → memAt t h = memAt s h)) ∧
  ∀ (c : Nat) (s : State), c < 128 → Gives (exec (.cellSoftError c) s) fun t =>
    laBad t.me.la c = true ∧ (∀ j < 128, j ≠ c → laBad t.me.la j = laBad s.me.la j) ∧ t.me.la.cells = s.me.la.cells ∧
    t.fw.reports = s.fw.reports ++ [2 ^ 59 + c] ∧ t.mem = s.mem

/-- R207 to R210, R279, R280, R284, R285: the pushes of the transfer queue. A record that passes its checks, with its
handle FREE and a queue entry free, enters the queue and takes the handle; a record that breaks a rule traps
CMD_RESERVED with the lowest offset in error; a handle that is not FREE traps SCHEDULE; a full queue parks the pusher.
An XSTRIPE also writes its page's two leaf words. Rests on the model's own choice, log entries 35, 39, 40 and 76. Logs
35 and 76 are in XSTRIPE's clause. -/
def Obligations.TransferPushes : Prop :=
  ∀ (r : Rec) (s : State), Ready ⟨[], []⟩ s →
    let pushes (i : Instr) (kind expected : Nat) (bad : Rec → Option Nat) : Prop :=
      let r' := withKind kind r
      let h := recNat r' 1 1
      (bad r' = none → h < 64 → (hGet s h).st = .free → s.me.xq.length < 8 → Gives (exec i s) fun t =>
        t.iss.res = .retired ∧ t.mem = s.mem ∧ t.me.pool = s.me.pool ∧ hGet t h = hTaken 16 expected (hGet s h) ∧
        ∃ c : EngCmd, t.me.xq = s.me.xq ++ [c] ∧ c.recd = r' ∧ c.core = s.me.num ∧ c.slot = s.iss.slot ∧ c.done = 0 ∧
          c.table = tableOf s) ∧
      (∀ o, bad r' = some o → exec i s = .next (takeTrap cCmdReserved (BitVec.ofNat 64 o) s)) ∧
      (bad r' = none → h < 64 → (hGet s h).st ≠ .free →
        exec i s = .next (takeTrap cSchedule (BitVec.ofNat 64 h) s)) ∧
      (bad r' = none → h < 64 → (hGet s h).st = .free → 8 ≤ s.me.xq.length →
        exec i s = .next (setRes .parked (onCur (fun c => { c with st := .parked (.queue .transfer) }) s)))
    let copy (x : Rec) : Option Nat := copyBad x (layoutAt s (recNat x 2 1 % 64)) (layoutAt s (recNat x 3 1 % 64))
    pushes (.xcopy r) 0x20 (recNat r 60 4) copy ∧ pushes (.xfill r) 0x23 (recNat r 60 4) copy ∧
    pushes (.xscan r) 0x22 (2 ^ 28 - 1) scanBad ∧
    (∀ t : Tr, let r' := withKind 0x21 r
      let h := recNat r' 6 1
      stripeBad r' = none → tlbFind s.me.dtlb s.iss.slot (stripeVa r') = some t →
      pageForbids (cur s).prv (myCluster s) .write t = false → stripeVa r' = t.vbase →
      placeBad s (leafNow s t) (stripePlace r') = false → (∀ x ∈ s.restripes, x.vbase ≠ t.vbase) → (hGet s h).st = .free →
      s.me.xq.length < 8 → Gives (exec (.xstripe r) s) fun u =>
        let leaf := leafFrom s t.vbase s.ctx.root walkLevels
        u.iss.res = .retired ∧ hGet u h = hTaken 16 (t.size / 32) (hGet s h) ∧
        (∀ k < 8, memAt u (leaf + k) = (takeFrame t (stripePlace r') s).1.extractLsb' (8 * k) 8 ∧
          memAt u (leaf + 8 + k) = (stripePlace r').extractLsb' (8 * k) 8) ∧
        (∀ a, a < leaf ∨ leaf + 16 ≤ a → memAt u a = memAt s a) ∧
        (∃ c : EngCmd, u.me.xq = s.me.xq ++ [c] ∧ c.recd = r' ∧ c.done = 0) ∧
        ∃ x : Restripe, u.restripes = s.restripes ++ [x] ∧ x.vbase = t.vbase ∧ x.size = t.size ∧ x.old0 = t.w0 ∧
          x.old1 = t.w1 ∧ x.new0 = (takeFrame t (stripePlace r') s).1 ∧ x.new1 = stripePlace r' ∧ x.switched = 0 ∧ x.shooting = false ∧ x.stuck = false) ∧
    ∀ n : BitVec 6,
      (layoutBad r = none → layoutMisfit r = none → exec (.layoutEntryWrite n r) s =
        .next (advance { s with me := { s.me with layouts := spSet 0 s.me.layouts n.toNat r } })) ∧
      (∀ o, layoutBad r = some o →
        exec (.layoutEntryWrite n r) s = .next (takeTrap cCmdReserved (BitVec.ofNat 64 o) s))

/-- R210 to R212, R281, R282, R284, R286: the transfer engine's steps. A chunk that nothing stops and no delay puts
off writes its positions' elements, counts its rows and goes on or leaves the queue; a scan's end stores its count and
fills the handle; an atom of a page under re-striping moves to its new home; the shootdown takes the old placement out
of every TLB and ends the command. Rests on the model's own choice, log entries 6 and 35. -/
def Obligations.TransferSteps : Prop :=
  ∀ (c : EngCmd) (rest : List EngCmd) (s : State), s.me.xq = c :: rest → c.ready ≤ s.clock → c.fault = none →
    c.denied = false → c.out = [] →
    (∀ cells : List Machine.Cell, engKind c.recd = 0x20 ∨ engKind c.recd = 0x23 → s.delays = [] → s.ctx.fixed = false →
      let l0 := doneToL c
      let n := min (perChunk c) (tileSize c.recd - l0)
      (((List.range n).map (l0 + ·)).filter (inBox c 0)).map (cellAt c) = cells.map .ok →
      let rds := srcReads c cells ++ dstReads c cells
      let wrs := dstWrites c cells
      engProbe c (rds.map (·, .read) ++ wrs.map (·, .write)) s = none → engReadStop c rds s = none →
      (∀ va ∈ wrs, engDown va (engHome c .write va s) s = false) → Gives (exec .transferChunk s) fun t =>
        (∀ a, memAt t a = spGet 0 (spSetAll 0 s.mem (chunkWrites c cells s)) a) ∧ t.me.pool = s.me.pool ∧
        (l0 + n = tileSize c.recd → t.me.xq = rest) ∧
        (l0 + n ≠ tileSize c.recd → ∃ c' : EngCmd, t.me.xq = c' :: rest ∧ c'.recd = c.recd ∧
          c'.done = lToDone c (l0 + n) ∧ s.clock < c'.ready)) ∧
    (engKind c.recd = 0x22 → scanCount c.recd * elemBytes (scanFmt c.recd) ≤ c.done → scanCnt c.recd % 8 = 0 →
      (∀ e, engAt c .write (scanCnt c.recd : Nat) s ≠ .error e) →
      let h := engHome c .write (scanCnt c.recd : Nat) s
      engDown (scanCnt c.recd : Nat) h s = false → (hGet s (cmdHnd c)).gen = c.gen →
      Gives (exec .scanComplete s) fun t =>
        t.me.xq = rest ∧ (∀ k < 8, memAt t (h + k) = BitVec.ofNat 8 (c.found / 2 ^ (8 * k))) ∧
        (∀ a, a < h ∨ h + 8 ≤ a → memAt t a = memAt s a) ∧ (hGet t (cmdHnd c)).st = .full ∧
        (hGet t (cmdHnd c)).counted = BitVec.ofNat 28 ((8 * min c.found (scanMax c.recd) + 31) / 32 + 1)) ∧
    (∀ x : Restripe, engKind c.recd = 0x21 → s.restripes = [x] → x.vbase = stripeVa c.recd → x.stuck = false →
      let old := pageHome x.old0 x.old1 (32 * x.switched)
      let new := pageHome x.new0 x.new1 (32 * x.switched)
      (x.shooting = false → controllerDown s old = false → controllerDown s new = false →
        Gives (exec .xstripeAtomSwitch s) fun t =>
          (∀ k < 32, memAt t (new + k) = memAt s (old + k)) ∧
          (∀ a, a < new ∨ new + 32 ≤ a → memAt t a = memAt s a) ∧
          t.restripes = [{ x with switched := x.switched + 1, shooting := x.switched + 1 == x.size / 32 }] ∧
          ∃ (c' : EngCmd) (rest' : List EngCmd), t.me.xq = c' :: rest' ∧ rest'.map (·.recd) = rest.map (·.recd) ∧
            c'.recd = c.recd ∧ c'.done = 32 * (x.switched + 1)) ∧
      (x.shooting = true → anyInFlight (isOld x) s = false → writesTo x s.me = false →
        (∀ e ∈ s.others, ∀ m, e.2 = some m → writesTo x m = false) → Gives (exec .shootdownPassed s) fun t =>
        t.restripes = [] ∧ t.me.xq = rest ∧ t.mem = s.mem ∧ t.fw.released = s.fw.released ++ [x.old0] ∧
        (∀ e ∈ t.me.dtlb ++ t.me.itlb, ¬(e.tr.vbase = x.vbase ∧ e.tr.w1 = x.old1))))

/-- R336, R366 to R371: the pushes of the matrix queue: as those of the transfer queue, with sixteen entries, and with
the ALIAS trap of MXMAC and MXEPI before the handle is looked at. Rests on the model's own choice, log entry 48. -/
def Obligations.MatrixPushes : Prop :=
  ∀ (r : Rec) (s : State), Ready ⟨[], []⟩ s →
    let pushes (i : Instr) (kind : Nat) (bad alias_ : Rec → Option Nat) : Prop :=
      let r' := withKind kind r
      let h := recNat r' 1 1
      (bad r' = none → alias_ r' = none → (hGet s h).st = .free → s.me.mq.length < 16 → Gives (exec i s) fun t =>
        t.iss.res = .retired ∧ t.mem = s.mem ∧ t.me.pool = s.me.pool ∧ hGet t h = hTaken 17 (mxExpected r') (hGet s h) ∧
        ∃ c : EngCmd, t.me.mq = s.me.mq ++ [c] ∧ c.recd = r' ∧ c.core = s.me.num ∧ c.slot = s.iss.slot ∧ c.done = 0 ∧
          c.table = tableOf s) ∧
      (∀ o, bad r' = some o → exec i s = .next (takeTrap cCmdReserved (BitVec.ofNat 64 o) s)) ∧
      (∀ o, bad r' = none → alias_ r' = some o →
        exec i s = .next (takeTrap cAlias (BitVec.ofNat 64 (Config.scratchWindow + o)) s)) ∧
      (bad r' = none → alias_ r' = none → (hGet s h).st ≠ .free →
        exec i s = .next (takeTrap cSchedule (BitVec.ofNat 64 h) s)) ∧
      (bad r' = none → alias_ r' = none → (hGet s h).st = .free → 16 ≤ s.me.mq.length →
        exec i s = .next (setRes .parked (onCur (fun c => { c with st := .parked (.queue .matrix) }) s)))
    pushes (.mxmac r) 0x10 macBad macAlias ∧ pushes (.mxwld r) 0x11 wldBad (fun _ => none) ∧
    pushes (.mxepi r) 0x12 epiBad (epiAlias s.me.num) ∧ pushes (.mxzero r) 0x13 zeroBad (fun _ => none)

/-- R278, R340, R343, R344, R368, R370: the matrix engine's steps. A step of MXMAC issues in HOT once LEVEL holds its
cost, which is debited; the other commands' steps issue at once and cost nothing. The step in flight retires once its
cycles are over: an MXZERO step writes zeros to its tile's rows, any step writes what its command gives, and the
command goes on or leaves the queue; one that meets a fault writes nothing, frees its handle and sends EFAULT. With no
MXMAC left the engine begins QUENCH. Every 1024 cycles LEVEL rises by RATE up to CAP. KINDLE ends in HOT, QUENCH in
COLD, and a burst deadline that passes with no MXMAC queued begins QUENCH. R316, R368: what ends an MXMAC at a step: a
marked sector of its index entries, or else a gathered row outside the A rows, or else a marked sector of A, a marked
block of the weight buffer, or a marked sector of C that it reads; with none of these nothing does. Rests on the
model's own choice, log entries 36, 50 and 51. -/
def Obligations.MatrixSteps : Prop :=
  ((∀ (c : EngCmd) (rest : List EngCmd) (s : State), s.me.mq = c :: rest → s.me.inFlight = none → s.switch = .resident →
    c.fault = none → c.denied = false → s.delays = [] →
    let cost := 2 ^ max (recNat c.recd 4 1 % 4) (floorClass (mxPath c.recd))
    let cycles := stepCycles c.recd (tileRows c.recd (tileAt c.recd c.done).1)
    let may := s.me.power = .hot ∧ cost ≤ s.me.level.toNat ∧ c.ready ≤ s.clock
    (engKind c.recd = 0x10 → may → exec .matrixStep s = .next { s with me := { s.me with
      level := s.me.level - BitVec.ofNat 32 cost, inFlight := some (s.clock + cycles) } }) ∧
    (engKind c.recd = 0x10 → ¬ may → exec .matrixStep s = .refused (.notDue "MATRIX_STEP")) ∧
    (engKind c.recd ≠ 0x10 → exec .matrixStep s =
      .next { s with me := { s.me with inFlight := some (s.clock + 1) } })) ∧
  (∀ (c : EngCmd) (rest : List EngCmd) (stop : Nat) (s : State), s.me.mq = c :: rest → s.me.inFlight = some stop →
    stop ≤ s.clock →
    let s' : State := { s with me := { s.me with inFlight := none } }
    let quenches (t : State) : Prop := engKind c.recd = 0x10 → s.me.power = .hot → (∀ x ∈ rest, engKind x.recd ≠ 0x10) →
      t.me.power = .quench (s.clock + 64)
    (∀ (cause : BitVec 5) (va : Int), mxStop c s' = some (.fault cause va) → c.core = s.me.num → c.slot < 16 →
      c.live = true → slotEmpty s c.slot = false → (slotOf s c.slot).st ≠ .migrating → engKind c.recd < 0x30 →
      s.me.mbox.length + s.me.reserved < 32 → s.ctx.fixed = false → (hGet s (cmdHnd c)).gen = c.gen →
      Gives (exec .matrixStep s) fun t =>
        t.me.mq = rest ∧ t.mem = s.mem ∧ t.me.pool = s.me.pool ∧ (hGet t (cmdHnd c)).st = .free ∧ quenches t ∧
        t.me.mbox = s.me.mbox ++ [⟨mkHdr c.gen.toNat 0xF6 c.core c.slot c.core c.slot true false,
          [BitVec.ofNat 64 (engKind c.recd), cmdRef c, cause.setWidth 64, BitVec.ofInt 64 va, BitVec.ofNat 64 c.done, 0, 0],
          0, 0⟩]) ∧
    (mxStop c s' = none → Gives (exec .matrixStep s) fun t =>
      t.mem = (mxWrite c s').mem ∧ t.me.pool = s.me.pool ∧
      (stepsOf c.recd ≤ c.done + 1 → t.me.mq = rest ∧ quenches t) ∧
      (c.done + 1 < stepsOf c.recd → t.me.mq = { c with done := c.done + 1, fault := none, denied := false } :: rest) ∧
      (engKind c.recd = 0x13 → ∀ i j, i < tileRows c.recd (c.done / tilesN c.recd) → j < 32 * mxEc c.recd →
        memAt t (scratchHome s.me.num (mxCoff c.recd +
          mxCstr c.recd * (32 * (c.done / tilesN c.recd) + i) + mxEc c.recd * (32 * (c.done % tilesN c.recd)) + j)) = 0))) ∧
  ∀ s : State,
    ((s.clock - s.me.born) % 1024 = 0 → s.me.refilled ≠ s.clock → exec .energyRefill s = .next { s with me := { s.me with
      level := BitVec.ofNat 32 (min s.me.cap.toNat (s.me.level.toNat + s.me.rate.toNat)), refilled := s.clock } }) ∧
    (∀ stop, s.me.power = .kindle stop → stop ≤ s.clock → Gives (exec .kindleEnd s) fun t =>
      t.me.power = .hot ∧ t.me.mq = s.me.mq ∧ t.mem = s.mem ∧ t.me.pool = s.me.pool) ∧
    (∀ stop, s.me.power = .quench stop → stop ≤ s.clock →
      exec .quenchEnd s = .next { s with me := { s.me with power := .cold } }) ∧
    (s.me.power = .hot → s.me.burst = true → s.me.deadline ≤ s.clock → (∀ c ∈ s.me.mq, engKind c.recd ≠ 0x10) →
      exec .burstDeadline s = .next { s with me := { s.me with power := .quench (s.clock + 65), burst := false } })) ∧
  (∀ (c : EngCmd) (s : State), engKind c.recd = 0x10 → c.denied = false →
    let r := c.recd
    let mt := (tileAt r c.done).1
    let nt := (tileAt r c.done).2.1
    let kt := (tileAt r c.done).2.2
    let rows := (List.range (tileRows r mt)).map (32 * mt + ·)
    let bad (a : Nat) : Bool := isBad s (scratchHome s.me.num (32 * a))
    let clean (off n : Nat) : Prop := ∀ a, off / 32 ≤ a → a ≤ (off + n - 1) / 32 → bad a = false
    let marked (off n : Nat) (w : Word) : Prop := ∃ a, off / 32 ≤ a ∧ a ≤ (off + n - 1) / 32 ∧ bad a = true ∧
      (∀ b, off / 32 ≤ b → b < a → bad b = false) ∧ w = BitVec.ofNat 64 (Config.scratchWindow + 32 * a)
    let ends (cause : BitVec 5) (w : Word) : Prop := mxStop c s = some (.fault cause (w.toNat : Int))
    let index (i : Nat) : Nat := mxIdx r + 8 * (mxRow0 r + i)
    let row (i : Nat) : Int := if mxGather r = true then (padNat s (index i + 2) 2 : Int) - mxTok0 r else i
    let inside (i : Nat) : Prop := 0 ≤ row i ∧ row i < mxArows r
    let aAt (i : Nat) : Nat := mxAoff r + mxAstr r * (row i).toNat + elemBytes (mxAfmt r) * (32 * kt)
    let aBytes := 32 * elemBytes (mxAfmt r)
    let cAt (i : Nat) : Nat := mxCoff r + mxCstr r * i + mxEc r * (32 * nt)
    let block (k : Nat) : Nat := subTile r kt nt / 256 + k
    let readsC := ¬ (kt = 0 ∧ mxZeroc r = true)
    (∀ i ∈ rows, mxGather r = true → (∀ j ∈ rows, j < i → clean (index j) 8) → ∀ w, marked (index i) 8 w → ends cPoison w) ∧
    ((mxGather r = true → ∀ j ∈ rows, clean (index j) 8) →
      (∀ i ∈ rows, mxGather r = true → (∀ j ∈ rows, j < i → inside j) → ¬ inside i →
        ends cPerm (BitVec.ofNat 64 (Config.scratchWindow + index i))) ∧
      ((mxGather r = true → ∀ j ∈ rows, inside j) →
        (∀ i ∈ rows, (∀ j ∈ rows, j < i → clean (aAt j) aBytes) → ∀ w, marked (aAt i) aBytes w → ends cPoison w) ∧
        ((∀ j ∈ rows, clean (aAt j) aBytes) →
          (∀ k, (tileBlocks r).find? (fun k => s.me.wpoison.contains (block k)) = some k →
            ends cPoison (BitVec.ofNat 64 (2 ^ 63 + 256 * block k))) ∧
          ((∀ k ∈ tileBlocks r, block k ∉ s.me.wpoison) →
            (∀ i ∈ rows, readsC → (∀ j ∈ rows, j < i → clean (cAt j) (32 * mxEc r)) →
              ∀ w, marked (cAt i) (32 * mxEc r) w → ends cPoison w) ∧
            ((readsC → ∀ j ∈ rows, clean (cAt j) (32 * mxEc r)) → mxStop c s = none))))))

/-- R200, R201, R313, R374 to R376: the pushes of the routing, reprojection and collective queues. Rests on the
model's own choice, log entry 48. -/
def Obligations.SharedQueuePushes : Prop :=
  ∀ (r : Rec) (s : State), Ready ⟨[], []⟩ s →
    let h (r' : Rec) : Nat := engHnd r' % 64
    let k := s.me.num / 96
    let die := s.me.num / 384
    let pushes (i : Instr) (r' : Rec) (bad : Option Nat) (owner expected : Nat) (q : State → List EngCmd) (id : QueueId) :
        Prop :=
      (bad = none → (hGet s (h r')).st = .free → (q s).length < 8 → Gives (exec i s) fun t =>
        t.iss.res = .retired ∧ t.mem = s.mem ∧ t.me.pool = s.me.pool ∧
        hGet t (h r') = hTaken owner expected (hGet s (h r')) ∧
        ∃ c : EngCmd, q t = q s ++ [c] ∧ c.recd = r' ∧ c.core = s.me.num ∧ c.slot = s.iss.slot ∧ c.done = 0) ∧
      (∀ o, bad = some o → exec i s = .next (takeTrap cCmdReserved (BitVec.ofNat 64 o) s)) ∧
      (bad = none → (hGet s (h r')).st ≠ .free →
        exec i s = .next (takeTrap cSchedule (BitVec.ofNat 64 (h r')) s)) ∧
      (bad = none → (hGet s (h r')).st = .free → 8 ≤ (q s).length →
        exec i s = .next (setRes .parked (onCur (fun c => { c with st := .parked (.queue id) }) s)))
    let coll (s : State) : List EngCmd := (dieAt s die).cq.map (·.cmd)
    let colls (i : Instr) (kind : Nat) (bad : Rec → Option Nat) : Prop :=
      pushes i (withKind kind r) (bad (withKind kind r)) 19 (clExpected (withKind kind r)) coll .collective
    pushes (.rtsort r) (withKind 0x30 r) (sortBad (withKind 0x30 r)) 18 (rtSectors r) (fun s => (clusterAt s k).rq)
      .routing ∧
    pushes (.reproj r) (withKind 0x50 r) (reprojBad (withKind 0x50 r)) 20 ((rpW r * rpH r + 3) / 4)
      (fun s => (dieAt s die).pq) .reproj ∧
    colls (.a2av r) 0x40 a2avBad ∧ colls (.areduce r) 0x41 foldBad ∧ colls (.agather r) 0x42 foldBad ∧
    colls (.rscatter r) 0x43 foldBad

/-- R202, R314, R347 to R349: the shared engines' steps. The routing engine sorts its entries by expert, token and
index, and writes the permutation, counts and offsets; the reprojection unit takes the pixels of a record in runs of
four, and offers a carried pixel's key to its destination, which keeps the smaller, if the guide agrees. R247, R347 to
R350, R374 to R376: a collective of any number of participants. A participant's engine reads its group list, which
must rise and name its own die and dies of the partition; once every participant has read its list and they agree, all
start together; each then reads its input, and once all have, each writes its result; with the last of them every
command leaves its queue and every handle is FULL. A fault of one ends all. Rests on the model's own choice, log
entries 46 and 52. -/
def Obligations.SharedEngineRuns : Prop :=
  ((∀ l : List RouteEntry, (l.map (·.1)).Nodup →
    (reSort l).Perm l ∧ (reSort l).Pairwise fun a b =>
      reExpert a < reExpert b ∨ (reExpert a = reExpert b ∧ (reToken a < reToken b ∨ (reToken a = reToken b ∧ a.1 < b.1)))) ∧
  (∀ (k : Nat) (c : EngCmd) (rest : List EngCmd) (s : State), (clusterAt s k).rq = c :: rest → c.core = s.me.num →
    c.ready ≤ s.clock → c.fault = none → c.denied = false →
    let r := c.recd
    let src := atomAddrs (rtSrc r) (8 * rtPairs r)
    let dst := atomAddrs (rtPerm r) (8 * rtPairs r) ++ atomAddrs (rtCnt r) (4 * rtExperts r) ++
      atomAddrs (rtOffs r) (4 * (rtExperts r + 1))
    let l : List RouteEntry := (List.range (rtPairs r)).map fun i => (i, engNat c (rtSrc r + 8 * i : Nat) 8 s)
    engProbe c (src.map fun a => (a, .read)) s = none → engReadStop c src s = none →
    (∀ e ∈ l, reExpert e < rtExperts r ∧ e.2 / 2 ^ 24 % 256 = 0) →
    engProbe c (dst.map fun a => (a, .write)) s = none → (∀ a ∈ dst, engDown a (engHome c .write a s) s = false) →
    Gives (exec (.routingRun k) s) fun t =>
      (clusterAt t k).rq = rest ∧ t.mem = spSetAll 0 s.mem (sortWrites c l s) ∧ t.me.pool = s.me.pool) ∧
  (∀ (c : EngCmd) (key : Nat) (s s' : State), engRead c (rpSrc c.recd + 8 * c.done) 8 s = .ok (key, s') →
    let target := rpTarget c.src (rpW c.recd) (rpH c.recd) (c.done % rpW c.recd) (c.done / rpW c.recd) key
    (target = none → rpPixel c s = .ok s') ∧
    ∀ at_ zd, target = some (at_, zd) →
      let offers (u : State) : Prop := ∀ h, engAt c .atomic (rpDst c.recd + 8 * at_ : Nat) u = .ok h →
        engDown (rpDst c.recd + 8 * at_ : Nat) h u = false → isBad u h = false → ∃ t, rpPixel c s = .ok t ∧
          t.me.pool = u.me.pool ∧ (∀ a, a < h ∨ h + 8 ≤ a → memAt t a = memAt u a) ∧
          ∀ k < 8, memAt t (h + k) =
            BitVec.ofNat 8 (min (rpKey zd key) (leNat ((List.range 8).map fun k => byteAt u (h + k))) / 2 ^ (8 * k))
      (rpGuide c.recd = 0 → offers s') ∧
      ∀ g u, rpGuide c.recd ≠ 0 → engRead c (rpGuide c.recd + 4 * at_) 4 s' = .ok (g, u) →
        (rpAgrees (rpTol c.recd) (unpack fmtS g) zd = false → rpPixel c s = .ok u) ∧
        (rpAgrees (rpTol c.recd) (unpack fmtS g) zd = true → offers u)) ∧
  (∀ (d : Nat) (c : EngCmd) (rest : List EngCmd) (σ : Nat → State) (s : State), (dieAt s d).pq = c :: rest →
    c.core = s.me.num → c.ready ≤ s.clock → c.fault = none → c.denied = false →
    let mat := atomAddrs (rpMat c.recd) 64
    let pixels := rpW c.recd * rpH c.recd
    let c0 : EngCmd := if c.found = 1 then c else
      { c with found := 1, src := BitVec.ofNat 512 (leNat (engBytes c (rpMat c.recd) 64 s)) }
    let n := min (4 - c.done % 4) (pixels - c.done)
    c.found = 1 ∨ (engProbe c (mat.map fun a => (a, .read)) s = none ∧ engReadStop c mat s = none) →
    c.done < pixels → σ 0 = (if c.done = 0 then engAsk c0 mat s else s) →
    (∀ i < n, rpPixel { c0 with done := c.done + i } (σ i) = .ok (σ (i + 1))) →
    Gives (exec (.reprojRun d) s) fun t =>
      t.mem = (σ n).mem ∧ t.me.pool = (σ n).me.pool ∧
      (c.done + n = pixels → (dieAt t d).pq = (dieAt (σ n) d).pq.drop 1) ∧
      (c.done + n < pixels → ∃ c' : EngCmd, (dieAt t d).pq = c' :: (dieAt (σ n) d).pq.drop 1 ∧ c'.recd = c.recd ∧
        c'.src = c0.src ∧ c'.done = c.done + n))) ∧
  (∀ (d : Nat) (x : CollCmd) (rest : List CollCmd) (s : State), (dieAt s d).cq = x :: rest →
    let c := x.cmd
    let r := c.recd
    let sc := focus c.core s
    let gid := clGid r
    c.ready ≤ s.clock → c.fault = none → c.denied = false →
    let keeps (t : State) : Prop := ∀ h, memAt t h = memAt s h
    let ends (i : Instr) (cause : BitVec 5) (va : Word) : Prop := exec i s = .next (collFault d cause va s)
    (∀ (cause : BitVec 5) (va : Word), (dieAt (collFault d cause va s) d).cq = rest ∧
      (dieAt (collFault d cause va s) d).failed = (dieAt s d).failed ++ [(gid, x.order)]) ∧
    (∀ remote, x.started = false → x.group = [] → collReads c (clGrp r) (2 * clParts r) sc = none →
      let l := groupList c sc
      let rises := l.Pairwise (fun a b => a.toNat < b.toNat) ∧ (∀ e ∈ l, e.toNat < 2 ^ 13) ∧
        ∃ e ∈ l, grPkg e = s.pkg ∧ grDie e = d
      (¬ rises → ends (.collectiveStart d remote) cCmdReserved (BitVec.ofNat 64 (clGrp r))) ∧
      (∀ i, rises → (List.range l.length).find? (fun i => !inGroup s ((l[i]?).getD 0)) = some i →
        ends (.collectiveStart d remote) cPerm (BitVec.ofNat 64 (clGrp r + 2 * i))) ∧
      (rises → (∀ e ∈ l, inGroup s e = true) → Gives (exec (.collectiveStart d remote) s) fun t =>
        keeps t ∧ (dieAt t d).cq = { x with group := l } :: rest)) ∧
    (∀ (remote : List RemoteRank), x.started = false → x.group ≠ [] → d < 8 →
      let l := x.group
      let dies := localDies s l
      let present (k : Nat) : Bool := headMatches s gid x.order k
      let lists (k : Nat) : Prop := ∀ y, collHead s k = some y → y.group = l
      let agrees (q : Rec) : Prop :=
        engKind q = engKind r ∧ (engKind r = 0x40 ∨ (arFmt q = arFmt r ∧ arOp q = arOp r ∧ arCount q = arCount r))
      d ∈ dies → (∀ k ∈ dies, k < 8) → dies.Nodup → (gid, x.order) ∉ (dieAt s d).mixed →
      (∀ k ∈ dies, ∀ e ∈ (dieAt s k).passed, ¬(e.1 = gid ∧ e.2.1 = x.order)) → (∀ q ∈ remote, q.failed = false) →
      ((∃ k ∈ dies, present k = false) →
        ((∃ k ∈ dies, (gid, x.order) ∈ (dieAt s k).failed) → ends (.collectiveStart d remote) cSchedule 0) ∧
        ((∀ k ∈ dies, (gid, x.order) ∉ (dieAt s k).failed) →
          exec (.collectiveStart d remote) s = .refused (.notDue "COLLECTIVE_START"))) ∧
      ((∀ k ∈ dies, present k = true ∧ lists k ∧ (gid, x.order) ∉ (dieAt s k).failed) →
        (∀ k < 8, k ∉ dies → present k = false) →
        (∀ i < l.length, grPkg ((l[i]?).getD 0) ≠ s.pkg → ∃ q ∈ remote, q.rank = i) →
        let all := (∀ q ∈ remote, q.group = l ∧ agrees q.recd) ∧
          ∀ k ∈ dies, ∀ y, collHead s k = some y → agrees y.cmd.recd
        (all → Gives (exec (.collectiveStart d remote) s) fun t => keeps t ∧
          ∀ k ∈ dies, ∀ y, collHead s k = some y → (dieAt t k).cq.drop 1 = (dieAt s k).cq.drop 1 ∧
            ∃ z, collHead t k = some z ∧ z.started = true ∧ z.ranks = remote ∧ z.group = l ∧ z.read = y.read ∧
              z.wrote = y.wrote ∧ z.order = y.order ∧ z.cmd.recd = y.cmd.recd ∧ z.cmd.core = y.cmd.core) ∧
        (¬ all → Gives (exec (.collectiveStart d remote) s) fun t =>
          ∀ k ∈ dies, (dieAt t k).cq = (dieAt s k).cq.drop 1))) ∧
    (x.started = true → (localDies s x.group).Nodup → d ∈ localDies s x.group →
      let dies := localDies s x.group
      let rank := rankIn s x.group d
      let heads (p : CollCmd → Prop) : Prop := ∀ k ∈ dies, ∃ y, collHead s k = some y ∧ clGid y.cmd.recd = gid ∧
        y.order = x.order ∧ p y
      (x.read = false →
        let q : RemoteRank :=
          { rank := rank, recd := r, group := x.group, failed := false
            input := if engKind r = 0x40 then [] else engBytes c (arSrc r) (arIn r) sc
            sends := if engKind r = 0x40 then (List.range (clParts r)).map fun p =>
                engBytes c (avSbuf r + engNat c (avScnt r + 8 * p : Nat) 8 sc / 2 ^ 32 : Nat)
                  (engNat c (avScnt r + 8 * p : Nat) 8 sc % 2 ^ 32) sc
              else [] }
        (∀ cause va, inputStop c sc = some (.fault cause va) →
          exec (.collectiveComplete d) s = .next (collFaultAll dies d cause (BitVec.ofInt 64 va) s)) ∧
        (inputStop c sc = none → Gives (exec (.collectiveComplete d) s) fun t => keeps t ∧
          ∀ k ∈ dies, ∀ y, collHead s k = some y → ∃ z, collHead t k = some z ∧
            z.read = (if k = d then true else y.read) ∧ z.wrote = y.wrote ∧ z.started = y.started ∧
            z.ranks = (List.range x.group.length).filterMap fun i => (y.ranks ++ [q]).find? fun q => q.rank == i)) ∧
      (x.read = true → x.wrote = false → heads (fun y => y.read = true) →
        let fold (i : Nat) : List Byte := leBytes (arE r) (foldElem r x.ranks i)
        let blocks := x.ranks.map fun q => (q.sends[rank]?).getD []
        let part := arCount r / clParts r
        let out : List (Nat × List Byte) :=
          if engKind r = 0x40 then [(avRbuf r, blocks.flatten.take (avRcap r)),
            (avRcnt r, (List.range blocks.length).flatMap fun p => leBytes 8
              (((blocks.take p).map List.length).foldl (· + ·) 0 % 2 ^ 32 * 2 ^ 32 + ((blocks[p]?).getD []).length))]
          else if engKind r = 0x42 then [(arDst r, x.ranks.flatMap fun q => q.input)]
          else if engKind r = 0x43 then [(arDst r, ((List.range part).map (rank * part + ·)).flatMap fold)]
          else [(arDst r, (List.range (arCount r)).flatMap fold)]
        (∀ g ∈ out, collWrites c g.1 g.2.length sc = none) → Gives (exec (.collectiveComplete d) s) fun t =>
          (∀ h, memAt t h = spGet 0 (spSetAll 0 s.mem (out.flatMap fun g => engPut c g.1 g.2 sc)) h) ∧
          ((∃ k ∈ dies, k ≠ d ∧ ∃ y, collHead s k = some y ∧ y.wrote = false) →
            collHead t d = some { x with wrote := true } ∧ ∀ k ∈ dies, k ≠ d → collHead t k = collHead s k) ∧
          ((∀ k ∈ dies, k ≠ d → ∃ y, collHead s k = some y ∧ y.wrote = true) → ∀ k ∈ dies, ∀ y, collHead s k = some y →
            (dieAt t k).cq = (dieAt s k).cq.drop 1 ∧
            ((hGet (focus y.cmd.core s) (cmdHnd y.cmd)).gen = y.cmd.gen →
              (hGet (focus y.cmd.core t) (cmdHnd y.cmd)).st = .full)))))

/-- R88, R122, R129, R130, R236, R237: a LINEUP group is released when every thread of it is parked there, or after
4,096 cycles; a line's broadcast, one of a cluster in a cycle, puts it into the buffer of a core that waits for it,
from the cluster's instruction cache, into which a line that it lacks is brought first; a translation from the
cluster's L2 TLB or from a walk, of which 8 run at once, goes to the slot that misses it, and a walk without a valid
leaf sends a PFAULT and leaves the slot parked until PWAKE answers, by which time no TLB of the core holds a
translation that no walk gives any more (R229). Rests on the model's own choice, log entries 6, 16, 64 and 69. -/
def Obligations.TranslationsAndWakes : Prop :=
  (∀ (n pa : Nat) (tag : Word) (s : State), lineupReady s n pa tag = true →
    Gives (exec (.lineupRelease n pa tag) s) fun t =>
      t.mem = s.mem ∧ t.me.pool = s.me.pool ∧ ∀ k, slotOf t k =
        if linedUp n pa tag (slotOf s k) = true then { wakeSlot s.clock (slotOf s k) with released := true }
        else slotOf s k) ∧
  (∀ (n pa k since : Nat) (s : State), s.me.num ∈ s.ctx.cores → (slotOf s k).st = .parked (.lineup n pa since) →
    since + 4096 ≤ s.clock → Gives (exec (.lineupTimeout n pa (slotOf s k).tag) s) fun t =>
      (slotOf t k).st = .runnable ∧ (slotOf t k).released = true ∧ t.mem = s.mem) ∧
  (∀ (k l : Nat) (s : State), (slotOf s k).st = .parked (.fetchLine l) →
    let c := s.me.num / 96
    let cl := clusterAt s c
    let run := exec (.fetchLineBroadcast l) s
    (l ∈ cl.icache ∨ (∃ t, (l, t) ∈ cl.filling ∧ t ≤ s.clock) →
      (cl.port = some s.clock → run = .refused (.notDue "FETCH_LINE_BROADCAST")) ∧
      (cl.port ≠ some s.clock → Gives run fun t =>
        l ∈ t.me.lines ∧ t.me.lines.length ≤ 256 ∧ (slotOf t k).st = .runnable ∧ s.clock < (slotOf t k).elig ∧
        (clusterAt t c).port = some s.clock ∧ l ∈ (clusterAt t c).icache ∧ t.mem = s.mem)) ∧
    (l ∉ cl.icache → (∀ t, (l, t) ∈ cl.filling → s.clock < t) →
      ((∃ t, (l, t) ∈ cl.filling) → run = .refused (.notDue "FETCH_LINE_BROADCAST")) ∧
      ((∀ t, (l, t) ∉ cl.filling) → Gives run fun t =>
        (clusterAt t c).icache = cl.icache ∧ (∃ due, s.clock ≤ due ∧ (clusterAt t c).filling = cl.filling ++ [(l, due)]) ∧
        slotOf t k = slotOf s k ∧ t.me.lines = s.me.lines ∧ t.mem = s.mem))) ∧
  (∀ (k va : Nat) (kind : AccKind) (s : State), (slotOf s k).st = .parked (.tlb va kind) →
    let cl := s.me.num / 96
    (∀ x, (clusterAt s cl).l2.find? (fun x => holds x va) = some x → Gives (exec (.l2TlbHit k) s) fun t =>
      (slotOf t k).st = .runnable ∧ t.mem = s.mem ∧
      (kind = .execute → ⟨k, x⟩ ∈ t.me.itlb ∧ t.me.dtlb = s.me.dtlb) ∧
      (kind ≠ .execute → ⟨k, x⟩ ∈ t.me.dtlb ∧ t.me.itlb = s.me.itlb)) ∧
    let ws := walksOf s
    let run := exec (.walkComplete va) s
    let ended := ∃ (i t : Nat) (w : PageWalk), ws.findIdx? (fun w => samePage s w.va va) = some i ∧ ws[i]? = some w ∧
      w.due = some t ∧ t ≤ s.clock
    ((∀ w ∈ ws, samePage s w.va va = false) → run = .next (setWalks (ws ++ [⟨va, none⟩]) s)) ∧
    (∀ (i : Nat) (w : PageWalk), ws.findIdx? (fun w => samePage s w.va va) = some i → ws[i]? = some w →
      (w.due = none → i < 8 → Gives run fun t =>
        slotOf t k = slotOf s k ∧ ∃ d, s.clock ≤ d ∧ (clusterAt t cl).walks = ws.set i { w with due := some d }) ∧
      (w.due = none → 8 ≤ i → run = .refused (.notDue "WALK_COMPLETE")) ∧
      (∀ t, w.due = some t → s.clock < t → run = .refused (.notDue "WALK_COMPLETE"))) ∧
    (∀ x, ended → walk s va = some x → holds x va = true →
      Gives run fun t =>
      (slotOf t k).st = .runnable ∧ x ∈ (clusterAt t cl).l2 ∧ t.mem = s.mem ∧ t.me.pool = s.me.pool) ∧
    (ended → walk s va = none → Gives run fun t =>
      (slotOf t k).st = .parked (.fault va kind) ∧ t.mem = s.mem ∧
      ∃ n ∈ t.net, hdrType n.msg.hdr = 0xF2 ∧ hdrSlot n.msg.hdr = 15 ∧
        hdrCore n.msg.hdr = 384 * (s.me.num / 384) % 2 ^ 12 ∧
        n.msg.body.take 4 = [BitVec.ofNat 64 va, BitVec.ofNat 64 (kindCode kind), BitVec.ofNat 64 (slotOf s k).thread,
          BitVec.ofNat 64 (16 * s.me.num + k)])) ∧
  ∀ (k addr thread : Nat) (deny : Bool) (kind : AccKind) (s : State), k < 16 →
    (slotOf s k).st = .parked (.fault addr kind) → (slotOf s k).thread = thread → s.switch = .resident →
    (anyInFlight (stale s) s = true →
      exec (.pwake addr deny thread (16 * s.me.num + k)) s = .refused (.notDue "PWAKE")) ∧
    (anyInFlight (stale s) s = false → Gives (exec (.pwake addr deny thread (16 * s.me.num + k)) s) fun t =>
      (slotOf t k).st = .runnable ∧ (slotOf t k).denied = (if deny then some addr else none) ∧
      (slotOf t k).elig = s.clock + 1 ∧ (∀ e ∈ t.me.itlb ++ t.me.dtlb, stale s e.tr = false) ∧
      (∀ j, j ≠ k → slotOf t j = slotOf s j) ∧ t.mem = s.mem ∧ t.me.pool = s.me.pool)

/-- R235, R254: a migrating thread waits for its posted stores, and leaves once its own accesses, engine commands,
subscriptions, messages and posted stores are over, with its registers and its mailbox entries; it lands in a free
slot of its class on the die it names, with the words of its window and nothing of the slot beside what R33 lists, and
its old slot is EMPTY. Rests on the model's own choice, log entries 25 and 43. Log 25 is in the landing's not being
the cycle's creation. -/
def Obligations.MigrationResults : Prop :=
  (∀ (k die mask : Nat) (s : State), (slotOf s k).st = .waiting (.migrate die mask) → hasRelaxed s k = false →
    hasEngine s k = false → hasCsub s k = false → hasSent s k = false →
    (s.me.posted.any (ownPosted k) = true → exec (.migrationDepart k) s = .refused (.notDue "MIGRATION_DEPART")) ∧
    ((∀ p ∈ s.me.posted, ownPosted k p = false) → Gives (exec (.migrationDepart k) s) fun t =>
      (slotOf t k).st = .migrating ∧ t.mem = s.mem ∧ t.me.pool = s.me.pool ∧ (∀ m ∈ t.me.mbox, isFor k m = false) ∧
      t.me.posted = s.me.posted ∧ ∃ g : Migrant, (dieAt t die).arrivals = (dieAt s die).arrivals ++ [g] ∧ g.slot = slotOf s k ∧
        g.words = (List.range (slotOf s k).winSize).map (regAt s k) ∧ g.mail = s.me.mbox.filter (isFor k) ∧
        g.core = s.me.num ∧ g.from_ = k ∧ g.mask = mask)) ∧
  ∀ (die k b : Nat) (g : Migrant) (s : State), (dieAt s die).arrivals = [g] → landing s die g = some (s.me.num, k, b) →
    g.core ≠ s.me.num → g.mail = [] → g.late = [] → g.words.length = g.slot.winSize → Gives (exec (.migrationArrival die) s) fun t =>
      (dieAt t die).arrivals = [] ∧ t.me.created = s.me.created ∧ (slotOf t k).st = .runnable ∧ (slotOf t k).pa = g.slot.pa ∧
      (slotOf t k).widx = g.slot.widx ∧ (slotOf t k).thread = g.slot.thread ∧ (slotOf t k).prv = g.slot.prv ∧
      (slotOf t k).winBase = b ∧ (∀ j < g.slot.winSize, g.words[j]? = some (regAt t k j)) ∧
      (slotOf t k).poisoned = [] ∧ (slotOf t k).lastIssue = (slotOf s k).lastIssue ∧ (slotOf t k).elig = s.clock + 1 ∧
      spGet emptySlot (coreOf t g.core).slots g.from_ = vacated (spGet emptySlot (coreOf s g.core).slots g.from_) ∧
      t.mem = s.mem

/-- R101, R102, R107 to R109, R114, R116: a principal's pass over a queue: a record not yet published is left; a no-op
record is consumed, and HEAD written; one lap ahead is OVERRUN, any other lap BADLAP, and the queue stops; a record
that does not pass is refused and counted; a LAUNCH record of one task sends its LAUNCH message, or parks at a full
mailbox, where it goes on later from the record as it was read. DYNAMIC placement starts the next task on a core that
requests one, once a cycle. Rests on the model's own choice, log entries 9, 28, 69 and 70. -/
def Obligations.LaunchResults : Prop :=
  (∀ (die : Nat) (q : LaunchQueue) (s : State), principalRuns s die = true → (dieAt s die).queues = [q] → (dieAt s die).launching = none →
    replayLaunch s die = none → q.code = 0 → q.r < (dpaWord s q.base).toNat → die < 8 →
    let r := recordOf s q
    let e := lapOf q.slots q.r
    let run := exec (.launchRecord die q.base) s
    let head := q.base + 0x40 + 8 * die
    let status := q.base + 0x80 + 8 * die
    let headIs (t : State) (n : Nat) : Prop := (wordHomes s head).Nodup → Stored s t head (BitVec.ofNat 64 n)
    (recLap r = (e + 2 ^ 16 - 2) % 2 ^ 16 → run = .next s) ∧
    (recLap r = e → recOp r = 0 → Gives run fun t =>
      (dieAt t die).queues = [{ q with r := q.r + 1 }] ∧ headIs t (q.r + 1) ∧
      (s.ctx.fixed = false → ∀ a, a ∉ wordHomes s head → memAt t a = memAt s a) ∧
      (s.ctx.fixed = true → t.fw.recLog = s.fw.recLog ++ [⟨die, q.number, q.r, r⟩])) ∧
    (recLap r = (e + 2) % 2 ^ 16 → s.ctx.cores ≠ [] → Gives run fun t => (dieAt t die).queues = [{ q with code := 1 }] ∧
      t.fw.events = s.fw.events + 1 ∧ t.net = s.net) ∧
    (recLap r ≠ e → recLap r ≠ (e + 2) % 2 ^ 16 → recLap r ≠ (e + 2 ^ 16 - 2) % 2 ^ 16 → s.ctx.cores ≠ [] → Gives run fun t =>
      (dieAt t die).queues = [{ q with code := 2 }] ∧ t.fw.events = s.fw.events + 1 ∧ t.net = s.net) ∧
    (recLap r = e → 2 ≤ recOp r ∨ (recOp r = 1 ∧ recordGood s r = false) → Gives run fun t =>
      (dieAt t die).queues = [{ q with r := q.r + 1, badcnt := (q.badcnt + 1) % 256 }] ∧ t.net = s.net ∧
      headIs t (q.r + 1) ∧
      (s.ctx.fixed = false → (wordHomes s status ++ wordHomes s head).Nodup →
        Stored s t status (BitVec.ofNat 64 ((q.badcnt + 1) % 256 * 2 ^ 48 + q.r % 2 ^ 32)))) ∧
    (∀ c ker, recLap r = e → recOp r = 1 → recordGood s r = true → recDynamic r = false → recTasks r = 1 → recCores r = 1 →
      s.ctx.cores[recFirst r]? = some c → c / 384 = die → recKernel s r = some ker →
      (mailboxFull (coreOf s c) = true → Gives run fun t =>
        (dieAt t die).launching = some ⟨q, r, 0, true⟩ ∧ (dieAt t die).queues = [q] ∧ t.net = s.net ∧ t.mem = s.mem) ∧
      (mailboxFull (coreOf s c) = false → Gives run fun t =>
        (dieAt t die).queues = [{ q with r := q.r + 1 }] ∧ headIs t (q.r + 1) ∧
        ∃ n : NetMsg, t.net = s.net ++ [n] ∧ n.held = true ∧ hdrType n.msg.hdr = ker.type % 2 ^ 8 ∧
          hdrCore n.msg.hdr = c % 2 ^ 12 ∧ hdrSeq n.msg.hdr = 0 ∧ hdrDk n.msg.hdr = false ∧ n.msg.ntask = 1 ∧
          n.msg.body = 0 :: (List.range 6).map fun k => recWord r (4 + k)))) ∧
  (∀ (die c : Nat) (q : LaunchQueue) (r : List Word) (ker : Kernel) (s : State), principalRuns s die = true → die < 8 →
    (dieAt s die).launching = some ⟨q, r, 0, true⟩ → recDynamic r = false → recTasks r = 1 → recCores r = 1 →
    s.ctx.cores[recFirst r]? = some c → c / 384 = die → recKernel s r = some ker → mailboxFull (coreOf s c) = false →
    Gives (exec (.launchRecord die q.base) s) fun t =>
      (dieAt t die).launching = none ∧ ((wordHomes s (q.base + 0x40 + 8 * die)).Nodup →
        Stored s t (q.base + 0x40 + 8 * die) (BitVec.ofNat 64 (q.r + 1))) ∧
      ∃ n : NetMsg, t.net = s.net ++ [n] ∧ n.held = true ∧ hdrType n.msg.hdr = ker.type % 2 ^ 8 ∧
        hdrCore n.msg.hdr = c % 2 ^ 12 ∧ n.msg.body = 0 :: (List.range 6).map fun k => recWord r (4 + k)) ∧
  ∀ (cl k b : Nat) (r : TaskRange) (rest : List TaskRange) (s : State), (clusterAt s cl).dispatch = r :: rest →
    r.cores = [s.me.num] → requests s r s.me.num = some (k, b) → r.tag ≠ 0 → r.args.length = 6 → r.next < 2 ^ 22 →
    ((clusterAt s cl).served = some s.clock →
      exec (.dynamicTaskDispatch cl) s = .refused (.notDue "DYNAMIC_TASK_DISPATCH")) ∧
    ((clusterAt s cl).served ≠ some s.clock → Gives (exec (.dynamicTaskDispatch cl) s) fun t =>
      (clusterAt t cl).served = some s.clock ∧ (clusterAt t cl).dispatch = (if r.next + 1 < r.stop then { r with next := r.next + 1 } :: rest else rest) ∧
      (slotOf t k).st = .runnable ∧ (slotOf t k).task = r.next ∧ (slotOf t k).thread = r.next ∧
      (slotOf t k).ntask = r.ntask ∧ (slotOf t k).tag = r.tag ∧ (slotOf t k).winBase = b ∧
      regAt t k 1 = BitVec.ofNat 64 r.next ∧ (∀ j < 6, r.args[j]? = some (regAt t k (2 + j))) ∧ t.mem = s.mem)

/-- R131 to R133, R137, R139, R141 to R144, R257, R290, R299: the bell rings, its count begins again, and with another
context ready a request is due; the trace ring drains to the replay log, 16 bytes an entry; a pre-emption request
stops every core of the partition at the end of the next cycle; a core that has drained writes its save area, firmware
the partition save record; a core of a saved context is restored from its area; a context that can start does so with
every core's start state, every link's fresh key, and as a replay if it is given a log; one that cannot is created and
waits; a log marked LOST is refused; the die map changes only while the context is saved, within its partition. Rests
on the model's own choice, log entries 5, 19, 37, 45, 46, 58, 66, 70 and 72. -/
def Obligations.ContextSwitchResults : Prop :=
  (∀ s : State, s.switch = .resident →
    (s.me.bell ≠ 0 → s.me.bell.toNat ≤ s.me.bellCount → s.ctx.fixed = false →
      exec .bellRing s = .next { s with me := { s.me with bellCount := 0, rung := otherReady s } }) ∧
    (∀ c ∈ s.ctx.cores, (coreOf s c).rung = true → ∃ p, (p, Instr.preemptionRequest) ∈ startDue s) ∧
    (s.ctx.cores ≠ [] → exec .preemptionRequest s = .next { s with switch := .stopping, stopAt := s.clock + 1 })) ∧
  (∀ (rest : List Turn) (s : State), s.todo = .last :: rest → firstInput exec s (lateInputs s) = none →
    (s.switch = .stopping → s.stopAt ≤ s.clock → Gives (step s) fun t =>
      t.todo = rest ∧ t.clock = s.clock + 1 ∧ t.switch = .stopping ∧
      (∀ c ∈ s.ctx.cores, (coreOf t c).stopped = true ∧ (coreOf t c).slots = (coreOf s c).slots ∧
        ((coreOf s c).stopped = false → (coreOf t c).rung = false)) ∧ t.mem = s.mem) ∧
    (s.switch ≠ .stopping ∨ s.clock < s.stopAt → step s = .next { s with todo := rest, clock := s.clock + 1 })) ∧
  (∀ s : State, s.ctx.fixed = true → 2048 ≤ s.me.trace.length → Gives (exec .traceRingDrain s) fun t =>
    t.me.trace = [] ∧ t.me.lost = false ∧ t.fw.log = s.fw.log ++ s.me.trace.map (fun e => (s.me.num, e)) ∧
    (s.me.lost = true → t.fw.logLost = s.fw.logLost ++ [s.me.num]) ∧
    (∀ base, s.ctx.logBase = some base → t.fw.logUsed = s.fw.logUsed + 16 * s.me.trace.length ∧
      (allStripes s = [] → ∀ (i j : Nat) (e : TraceEntry), s.me.trace[i]? = some e → j < 16 →
        memAt t (base + s.fw.logUsed + 16 * i + j) =
          (e.stamp ++ e.score ++ e.sslot ++ e.atom ++ e.kind ++ (0 : BitVec 48)).extractLsb' (8 * j) 8)) ∧
    (s.ctx.logBase = none → t.mem = s.mem)) ∧
  (∀ (area : Nat) (s : State), s.switch = .stopping → s.me.stopped = true → s.me.saved = false → s.me.num ∈ s.ctx.cores →
    drained s = true → Gives (exec (.contextSave area) s) fun t =>
      t.me.saved = true ∧ t.me.saveArea = area ∧ t.switch = .stopping ∧ word64At t area = 1 ∧
      word64At t (area + 8) = s.me.footprint.setWidth 64 ∧ word64At t (area + 16) = s.me.cap ++ s.me.level ∧
      word64At t (area + 24) = s.me.rate.setWidth 64 ∧ word64At t (area + 32) = s.me.bell.setWidth 64 ∧
      word64At t (area + 40) = tblCfg s.me.table) ∧
  (∀ (base : Nat) (s : State), s.switch = .stopping → (∀ c ∈ s.ctx.cores, (coreOf s c).saved = true) →
    Gives (exec (.partitionSaveRecord base) s) fun t =>
      t.switch = .saved ∧ word64At t base = 1 ∧ t.ctxBase = some base ∧ t.me = s.me ∧ t.others = s.others) ∧
  (∀ (area base : Nat) (x : KeptCore) (p : KeptPart) (s : State), s.switch = .saved → spGet none s.kept area = some x →
    spGet none s.keptPart base = some p → word64At s area = 1 → word64At s base = 1 →
    let own := suspendedFor p.ctx base s
    circuitsSet s own.dieMap p.ctx = true → own.thermal = false → p.ctx.cores = [s.me.num] → Gives (exec (.contextResume area base) s) fun t =>
      t.switch = .resident ∧ t.ctx = p.ctx ∧ t.me.stopped = false ∧ t.me.saved = false ∧ t.me.num = s.me.num ∧
      word64At t area = 0 ∧ t.me.cap ++ t.me.level = word64At s (area + 16) ∧
      t.me.rate = (word64At s (area + 24)).setWidth 16 ∧ t.me.bell = (word64At s (area + 32)).setWidth 48 ∧
      t.me.footprint = (word64At s (area + 8)).setWidth 35 ∧ t.me.resuming = true ∧ t.dieMap = own.dieMap ∧
      t.fw.lastSeq = own.lastSeq ∧ t.fw.events = own.events ∧
      (own.dieMap = s.dieMap → t.me.rot = s.me.rot ∧ t.me.rotPol = (if p.ctx.fixed = true then 0 else s.me.rotPol) ∧ t.me.drops = s.me.drops)) ∧
  (∀ (cfg : CtxConfig) (s : State), s.fw.running = true → cfg.cmdLine ≠ s.ctx.cmdLine ∨ seatFree s = true →
    let run := exec (.contextStart cfg) s
    let created : Prop := Gives run fun t =>
      (∀ e, recordOn cfg none s = some e → t = s) ∧
      (recordOn cfg none s = none → ∃ k, k % 2 ^ 64 = cfg.cmdLine % 2 ^ 64 ∧ spGet none t.away k = some (newCtxFw cfg) ∧
        spGet none s.away k = none ∧ ∀ j, j ≠ k → spGet none t.away j = spGet none s.away j) ∧ t.ctx = s.ctx ∧ t.switch = s.switch ∧ t.mem = s.mem ∧
      t.me = s.me
    (replayRefused cfg = true → run = .refused (.notDue "CONTEXT_START")) ∧
    (replayRefused cfg = false → seatFree s = false → created) ∧
    (replayRefused cfg = false → cfg.pod.buddyRoom < contextBytes cfg s ∨ inReserved cfg s = true ∨
      cfg.pod.buddy = s.pkg ∨ cfg.pod.domain = cfg.pod.buddyDom ∨ 1024 < cfg.packages ∨
      circuitsSet s (recordFor cfg s).dieMap cfg = false → created) ∧
    (replayRefused cfg = false → seatFree s = true → canStartContext cfg s = true → Gives run fun t =>
      t.switch = .resident ∧ t.ctx = cfg ∧ t.replay = cfg.replay.map startReplay ∧ t.kernels = [] ∧
      (∀ k < 32, linkAt t k = { rekeyed cfg.pod.secret k (linkAt s k) with gen := linkGen cfg.pod k }) ∧
      ∀ c ∈ cfg.cores,
        let m := coreOf t c
        (∀ k < 16, ∃ last, spGet emptySlot m.slots k = { emptySlot with lastIssue := last }) ∧ m.pool = [] ∧ m.handles = [] ∧ m.bars = [] ∧ m.mbox = [] ∧ m.cap = 8192 ∧ m.level = 8192 ∧
        m.rate = 8192 ∧ m.footprint = 0x7FFFFFFFF ∧ m.table = integerTable ∧ m.la = startAutomaton ∧ m.power = .cold ∧
        m.rotPend = some (if cfg.fixed = true then 0 else cfg.rotPol, cfg.rotTab) ∧ m.bell = cfg.quantum ∧
        ∀ k < 2 ^ 19, memAt t (scratchHome c k) = 0)) ∧
  ∀ (map : List Nat) (s : State), s.switch = .saved → map.Perm (List.range 8) → s.dieMap.Perm (List.range 8) →
    ontoPartition s map = true → Gives (exec (.dieRemap map) s) fun t =>
      t.dieMap = map ∧ t.mem = s.mem ∧ t.switch = .saved ∧ ∀ d < 8, ∀ e < 8, ∀ j < 384, map[d]? = s.dieMap[e]? →
        let m := coreOf t (384 * d + j)
        let p := coreOf s (384 * e + j)
        m.rot = p.rot ∧ m.rotPol = p.rotPol ∧ m.born = p.born ∧ m.phase = p.phase ∧ m.drops = p.drops ∧
        (dieAt t d).inReset = (dieAt s e).inReset

/-- R288, R289, R292, R293, R301, R306, R307: firmware's commands. The command whose SEQ is the next, and whose OP and
words are those of the step, is acted on, and the reply word at CMD + 0x40 holds its SEQ and the status: DONE 0,
REFUSED 1, BUSY 2. A launch that has started runs on when its queue is reset or removed. A CONN on the command line of
a context that is suspended, or created and not started, is acted on for that context, whose own SEQ it answers. Rests
on the model's own choice, log entries 9, 37 and 55. -/
def Obligations.CommandResults : Prop :=
  (∀ s : State, commandWaits s = true →
    let w1 := dpaWord s (s.ctx.cmdLine + 8)
    let w2 := dpaWord s (s.ctx.cmdLine + 16)
    let replies (i : Instr) (op : BitVec 8) (status : Nat) (P : State → Prop) : Prop := cmdOp s = op →
      Gives (exec i s) fun t =>
        ((wordHomes s (s.ctx.cmdLine + 64)).Nodup → Stored s t (s.ctx.cmdLine + 64)
          (BitVec.ofNat 64 ((s.fw.lastSeq + 1).toNat * 2 ^ 48 + status))) ∧
        t.fw.lastSeq = s.fw.lastSeq + 1 ∧ t.me.pool = s.me.pool ∧ P t
    (∀ base n : Nat, w1 = BitVec.ofNat 64 base → w2 = BitVec.ofNat 64 n →
      (badQueue s base n = true → replies (.qreg base n) 0x01 1 fun t => t.dies = s.dies) ∧
      (badQueue s base n = false → replies (.qreg base n) 0x01 0 fun t => ∀ d ∈ partDies s,
        ∃ q ∈ (dieAt t d).queues, q.base = base ∧ q.slots = n ∧ q.r = 0 ∧ q.code = 0)) ∧
    (∀ base : Nat, w1 = BitVec.ofNat 64 base →
      replies (.qreset base) 0x02 0 (fun t => ∀ d ∈ partDies s, ∀ q ∈ (dieAt t d).queues, q.base = base →
        q.r = 0 ∧ q.code = 0 ∧ q.badcnt = 0) ∧
      replies (.qremove base) 0x03 0 (fun t => ∀ d ∈ partDies s, (∀ q ∈ (dieAt t d).queues, q.base ≠ base) ∧
        ∀ g, (dieAt s d).launching = some g → g.queue.base = base →
          (dieAt t d).launching = some { g with live := false })) ∧
    (canCheckpoint s = true → replies .ckpt 0x10 0 fun t =>
      t.switch = .stopping ∧ t.fw.copying = some (s.fw.complete + 1)) ∧
    (canCheckpoint s = false → replies .ckpt 0x10 2 fun t => t.switch = s.switch) ∧
    (∀ watts : Nat, w1 = BitVec.ofNat 64 watts →
      (1200 ≤ watts → watts ≤ 2400 → replies (.pcap watts) 0x11 0 fun t => t.fw.cap = watts ∧ t.fw.thermal = false ∧
        ∀ k x, spGet none t.away k = some x → x.thermal = false) ∧
      (watts < 1200 ∨ 2400 < watts → replies (.pcap watts) 0x11 1 fun t => t.fw.cap = s.fw.cap)) ∧
    (∀ n : Nat, w1 = BitVec.ofNat 64 n →
      (127 < n → replies (.conn n w2) 0x12 1 fun t => t.conn = s.conn) ∧
      (n ≤ 127 → s.switch ≠ .saved → usesCircuit s.ctx s.dieMap (spGet 0 s.conn n) = true →
        replies (.conn n w2) 0x12 2 fun t => t.conn = s.conn) ∧
      (n ≤ 127 → s.switch = .saved ∨ usesCircuit s.ctx s.dieMap (spGet 0 s.conn n) = false →
        replies (.conn n w2) 0x12 0 fun t => t.conn = spSet 0 s.conn n w2)) ∧
    (∀ report nonce : Nat, w1 = BitVec.ofNat 64 report → w2 = BitVec.ofNat 64 nonce →
      replies (.attest report nonce) 0x20 0 fun t => t.dies = s.dies ∧ t.conn = s.conn) ∧
    ∀ op : BitVec 8, op ∉ ([0x01, 0x02, 0x03, 0x10, 0x11, 0x12, 0x20] : List (BitVec 8)) →
      replies (.refusedCommand op) op 1 fun t => t.dies = s.dies ∧ t.conn = s.conn ∧ t.switch = s.switch) ∧
  ∀ (k n : Nat) (v : Word) (x : CtxFw) (rest : List (Nat × CtxFw)) (s : State), commandWaits s = false →
    awayWaiting s = (k, x) :: rest → cmdOp (seenBy x s) = 0x12 → n ≤ 127 →
    dpaWord (seenBy x s) (x.cfg.cmdLine + 8) = BitVec.ofNat 64 n → dpaWord (seenBy x s) (x.cfg.cmdLine + 16) = v →
    seatFree s = true ∨ usesCircuit s.ctx s.dieMap (spGet 0 s.conn n) = false → Gives (exec (.conn n v) s) fun t =>
      t.conn = spSet 0 s.conn n v ∧ t.ctx = s.ctx ∧ t.switch = s.switch ∧ t.fw.lastSeq = s.fw.lastSeq ∧
      ((wordHomes (seenBy x s) (x.cfg.cmdLine + 64)).Nodup →
        Stored (seenBy x s) t (x.cfg.cmdLine + 64) (BitVec.ofNat 64 ((x.lastSeq + 1).toNat * 2 ^ 48))) ∧
      ∃ y, spGet none t.away k = some y ∧ y.lastSeq = x.lastSeq + 1

/-- R53, R58, R303: boot and images. An image that verifies runs, and each die starts its principal; one that does not
leaves no core running. A load that passes every check writes the relocated sections, registers the kernels and sets
the layout and vector entries; any other load changes nothing but didex's report, which has a line for each relocation
that fails, by section and offset. Rests on the model's own choice, log entries 56 and 68. -/
def Obligations.ImageResults : Prop :=
  (∀ (img : FirmwareImage) (s : State), s.fw.running = false →
    let boots (i : Instr) (x : FirmwareImage) : Prop :=
      (x.verifies = true → Config.rollbackFloor ≤ x.version → Gives (exec i s) fun t =>
        t.fw.running = true ∧ t.fw.image = x ∧ (∀ d < 8, (dieAt t d).principal = true) ∧ t.mem = s.mem ∧ t.me = s.me) ∧
      (x.verifies = false ∨ x.version < Config.rollbackFloor →
        exec i s = .next { s with fw := { s.fw with image := x, running := false } })
    boots .firmwareBoot s.fw.image ∧ boots (.firmwareImageWrite img) img) ∧
  ∀ (x : Image) (s : State), s.fw.running = true → s.switch = .resident → s.ctx.cores ≠ [] →
    let refused : Prop := exec (.imageLoad x) s = .next { s with fw := { s.fw with failure := some (report x) } }
    (accepted s x = none → refused) ∧
    (x.machine ≠ 0xF960 ∨ x.flags ≠ 1 ∨ x.eiVersion ≠ 1 ∨ x.version ≠ 1 ∨ x.eiClass ≠ 2 ∨ x.eiData ≠ 1 ∨
      (x.eType ≠ 1 ∧ x.eType ≠ 2) ∨ (∃ r ∈ x.relocs, r.rela = false) ∨ (∃ y ∈ x.symbols, symbolGood x y = false) ∨
      (∃ e ∈ x.sections, sectionGood e = false) → refused) ∧
    (∀ r ∈ x.relocs, ∀ why, resolved x r = .error why → refused ∧
      ∃ l ∈ report x, l.type = r.type ∧ l.sect = r.sect ∧ l.off = r.off ∧ l.why = why) ∧
    (report x).Pairwise (fun a b => a.sect < b.sect ∨ (a.sect = b.sect ∧ a.off ≤ b.off)) ∧
    ∀ l, accepted s x = some l → Gives (exec (.imageLoad x) s) fun t =>
      t.mem = spSetAll 0 s.mem l ∧ t.kernels = registerAll s.kernels (kernelsIn x) ∧ t.me.pool = s.me.pool ∧
      t.fw.digests = s.fw.digests ++ [x.digest] ∧ ∀ c ∈ s.ctx.cores,
        (∀ b ∈ layoutsIn x, spGet 0 (coreOf t c).layouts (layoutNum b) = layoutEntry b) ∧
        ∀ b ∈ vectorsIn x, spGet 0 (coreOf t c).vectors (vectorType b) = (recordVector b).2

/-- R212, R233, R243, R245, R256, R291, R295, R296, R301, R302, R307, R309: firmware's other steps, the links, power,
memory that fails and the host's accesses. Rests on the model's own choice, log entries 37, 54, 58, 59 and 73. Log 37
is in where a flit failure is counted while no context is present. -/
def Obligations.FirmwareEvents : Prop :=
  ∀ s : State,
    (∀ host : LinkMode, exec (.linkTraining host) s = .next { s with hostLink := host, hostDown := false }) ∧
    (∀ k : Checkpoint, s.ckCopy = some k → Gives (exec .checkpointComplete s) fun t =>
      t.ckCopy = none ∧ t.ckWhole = some k ∧ t.fw.copying = none ∧ t.fw.complete = k.number ∧ t.mem = s.mem ∧ t.me = s.me ∧
      ∀ e ∈ t.links, ∀ f ∈ e.2.sent, f.flit.type ≠ 2) ∧
    (s.fw.running = true → canCheckpoint s = true → Gives (exec .checkpointSchedule s) fun t =>
      t.switch = .stopping ∧ t.stopAt = s.clock + 1 ∧ t.fw.copying = some (s.fw.complete + 1) ∧ t.mem = s.mem) ∧
    (∀ (failed cycles : Nat) (k : Checkpoint) (p : KeptPart), s.ckWhole = some k → spGet none k.keptPart k.base = some p →
      s.fw.running = true → s.ctx = p.ctx → circuitsSet s s.dieMap p.ctx = true → failed < 1024 →
      (21600000000 < cycles ∨ s.fw.thermal = true ∨ (∃ at_, s.fw.faultAt = some at_ ∧ cycles ≠ s.clock - at_) →
        exec (.jobFaultResume failed cycles) s = .refused (.notDue "JOB_FAULT_RESUME")) ∧
      (cycles ≤ 21600000000 → s.fw.thermal = false → (∀ at_, s.fw.faultAt = some at_ → cycles = s.clock - at_) →
        s.ctx.cores ≠ [] → Gives (exec (.jobFaultResume failed cycles) s) fun t =>
        t.fw.events = s.fw.events + 1 ∧ t.fw.faultAt = none ∧ t.ckCopy = none ∧ t.net = [] ∧ ∀ k < 32,
          linkAt t k = { rekeyed p.ctx.pod.secret k (linkAt s k) with gen := linkGen p.ctx.pod k })) ∧
    (∀ (port : Nat) (f : Flit), port < 32 → s.fw.running = true →
      let l := linkAt s port
      (flitVerified l port f = true → f.ctr = l.expect → Gives (exec (.afyarFlitReceive port f) s) fun t =>
        linkAt t port = { l with acks := l.acks + 1, expect := l.expect + 1, flits := l.flits + 1 } ∧
        t.mem = (if f.dpkg = s.pkg ∧ f.type.toNat < 4 then spSetAll 0 s.mem (f.payload.take 224) else s.mem) ∧
        ∀ id, f.dpkg = s.pkg → f.type = 1 → f.barrier = some id → (barGet s 5 id).n ≠ 0 →
          (barGet t 5 id).phase = (if (barGet s 5 id).count + 1 = (barGet s 5 id).n then (barGet s 5 id).phase + 1
            else (barGet s 5 id).phase) ∧
          (barGet t 5 id).count = (if (barGet s 5 id).count + 1 = (barGet s 5 id).n then 0
            else (barGet s 5 id).count + 1)) ∧
      (flitVerified l port f = false ∨ f.ctr ≠ l.expect → Gives (exec (.afyarFlitReceive port f) s) fun t =>
        t.links = s.links ∧ (s.ctx.cores = [] → t.fw = s.fw ∧
          ∀ k x, s.away = [(k, some x)] → spGet none t.away k = some { x with events := x.events + 1 }) ∧ (s.ctx.cores ≠ [] → t.fw.events = s.fw.events + 1 ∧
          t.switch = .broken ∧ t.fw.faultAt = some (s.fw.faultAt.getD s.clock)))) ∧
    (∀ port : Nat, let l := linkAt s port
      (∀ f, l.sent.find? (overdue s.clock) = some f → Gives (exec (.linkReplay port) s) fun t =>
        (linkAt t port).replays = l.replays + 1 ∧ (linkAt t port).next = l.next ∧ t.mem = s.mem ∧ t.me = s.me ∧
        ∃ d, (linkAt t port).sent =
          l.sent.map fun g => if g = f then { f with at_ := s.clock, ack := s.clock + d } else g) ∧
      (2 ^ 40 ≤ l.flits → Gives (exec (.linkRekey port) s) fun t =>
        (linkAt t port).key = Config.shake256 [s.ctx.pod.secret, port, l.epoch + 1] % 2 ^ 256 ∧
        (linkAt t port).epoch = l.epoch + 1 ∧ (linkAt t port).flits = 0 ∧ (linkAt t port).expect = 0 ∧ t.mem = s.mem)) ∧
    (∀ watts : Nat, s.fw.running = true → s.kept = [] → s.ctx.cores.Nodup → Gives (exec (.powerSample watts) s) fun t =>
      t.mem = s.mem ∧ ∃ share < 2 ^ 16, ∀ c ∈ s.ctx.cores,
        let r := (coreOf s c).rate.toNat
        let r' := (coreOf t c).rate.toNat
        let cfg := (coreOf s c).rateCfg.toNat
        (s.fw.cap < watts → r' = max 1 (r * share / 2 ^ 16) ∧ (2 ≤ r → r' < r)) ∧
        (watts ≤ s.fw.cap → 100 * watts < 95 * s.fw.cap →
          r' = min cfg (max (r + 1) (r + r * share / 2 ^ 16)) ∧ (r < cfg → r < r')) ∧
        (watts ≤ s.fw.cap → 95 * s.fw.cap ≤ 100 * watts → r' = r)) ∧
    (∀ die : Nat, s.fw.running = true → s.switch = .resident → dieCores s die ≠ [] →
      (∀ c ∈ dieCores s die, (coreOf s c).rate = 1) → Gives (exec (.thermalLimit die) s) fun t =>
        t.switch = .stopping ∧ t.fw.thermal = true ∧ t.fw.events = s.fw.events + 1) ∧
    (∀ (dpa size : Nat) (bs : List Byte), dpa + size ≤ 2 ^ 39 → bs.length = size →
      exec (.hostAccess dpa none size) s = .next s ∧
      (s.fw.running = false → exec (.hostAccess dpa (some bs) size) s = .next s) ∧
      (s.fw.running = true → Gives (exec (.hostAccess dpa (some bs) size) s) fun t =>
        t.mem = spSetAll 0 s.mem (bs.mapIdx fun k b => (hostAtom s (dpa + k), b)) ∧
        (allStripes s = [] → ∀ k < size, bs[k]? = some (memAt t (dpa + k))) ∧
        (allStripes s = [] → ∀ a, a < dpa ∨ dpa + size ≤ a → memAt t a = memAt s a) ∧ t.me.pool = s.me.pool)) ∧
    (∀ (dpa : Nat) (clean : Bool), dpa < 2 ^ 39 → s.fw.running = true →
      (dpa / 32 ∈ s.remap ∨ remapCount s (dpa / 2 ^ 31) < 1024 → Gives (exec (.remapEntry dpa clean) s) fun t =>
        dpa / 32 ∈ t.remap ∧ isBad t dpa = !clean ∧ t.mem = s.mem) ∧
      (dpa / 32 ∉ s.remap → 1024 ≤ remapCount s (dpa / 2 ^ 31) → s.ctx.cores ≠ [] → Gives (exec (.remapEntry dpa clean) s) fun t =>
        t.remap = s.remap ∧ dpa / 2 ^ 31 ∈ t.degraded ∧ t.fw.events = s.fw.events + 1)) ∧
    (∀ stack channel : Nat, stack < 8 → channel < 32 → Gives (exec (.memControllerDown stack channel) s) fun t =>
      (∀ k, k ∈ t.memDown ↔ k = 32 * stack + channel ∨ k ∈ s.memDown) ∧ t.mem = s.mem ∧ t.me = s.me) ∧
    exec (.memControllerDown 8 0) s = .next { s with hostDown := true } ∧
    ∀ die < 8, Gives (exec (.dieCoresInReset die) s) fun t =>
      (dieAt t die).inReset = true ∧ (∀ d, d ≠ die → dieAt t d = dieAt s d) ∧ t.mem = s.mem ∧ t.me = s.me

/-- R28, R32, R43: a class A word that answers a next state changes only window registers of its own slot, and that
slot's own status: no byte of memory, no other slot, no pool word outside the window, and no special register of the
core. -/
def Obligations.ClassAFrame : Prop :=
  ∀ (i : Instr) (w : BitVec 32) (s t : State), encode i = some w → classA w = true → (cur s).tvec ≠ 0 →
    exec i s = .next t →
    t = { s with me := { s.me with pool := t.me.pool, slots := t.me.slots }, iss := t.iss } ∧
    (∀ k, k ≠ s.iss.slot → slotOf t k = slotOf s k) ∧
    (∀ j, j < (cur s).winBase ∨ (cur s).winBase + (cur s).winSize ≤ j → spGet 0 t.me.pool j = spGet 0 s.me.pool j) ∧
    (cur t).winBase = (cur s).winBase ∧ (cur t).winSize = (cur s).winSize ∧ (cur t).thread = (cur s).thread ∧
    (cur t).prv = (cur s).prv ∧ (cur t).tvec = (cur s).tvec ∧ t.iss.slot = s.iss.slot

/-- R47: every word that decodes, and every word that does not, has an effect: it answers a next state, never a fault
or a refusal, in every state. -/
def Obligations.EveryWordAnswers : Prop :=
  (∀ (i : Instr) (w : BitVec 32) (s : State), encode i = some w → ∃ t, exec i s = .next t) ∧
  ∀ (w : BitVec 32) (s : State), ∃ t, exec ((decodeWord w).getD (.unassignedEncoding w)) s = .next t

/-- R15, R21, R35, R36, R48, R87, R122, R236: once nothing that ranks before it is due, a core's turn runs the word
that stands at the issuing slot's place: with the pair's page translated, its line in the buffer and no poison, the
step is the decoded word's effect on the state in which the issue has begun, and then the end of the core's turn; a
word that does not decode takes its trap there; so does, whatever word RETT named, a pair whose word 1 has bit 31 set
or whose words are both zero, unless the slot stands at word 1 of a serial pair. Of a parallel pair, a class A word 0,
else a word 1 of class C, traps ILLEGAL with that word; a word that does not decode takes its trap, word 0 before word
1; any other issues as a pair (PairResults says how). Rests on the model's own choice, log entries 1 and 66. -/
def Obligations.StepRunsDecoded : Prop :=
  ∀ (s : State) (c : Nat) (rest : List Turn) (k sp : Nat) (pages : List Tr), s.todo = .issue c :: rest →
    firstDue exec s (beforeIssue exec c s) = none →
    let s1 := turnState c { s with todo := rest }
    let s2 := beginIssue k sp s1
    let s3 : State := { s2 with me := { s2.me with itlb := touchTlb k pages s2.me.itlb } }
    let pa := (slotOf s1 k).pa
    let h := homeOf s3 pages pa
    let w0 := word32At s3 h
    let w1 := word32At s3 (h + 4)
    let s4 : State := onCur (fun x => { x with landed := false }) s3
    let first : State := onPattern 0 (pBit w0) (onCur (fun x => { x with widx := 0 }) s4)
    let second : State := onPattern 1 (pBit w1) s4
    issuing s1 = some (k, sp) →
    checkAccess s2 s2.me.itlb false [(pa, .execute)] = .ok pages → pa / 64 ∈ s2.me.lines → isBad s3 h = false →
    (pBit w0 = true → (slotOf s1 k).widx ≠ 0 →
      (∀ i, decodeWord w1 = some i → step s = onNext endTurn (exec i second)) ∧
      (decodeWord w1 = none → step s = onNext endTurn (exec (.unassignedEncoding w1) second))) ∧
    (pBit w0 = false ∨ (slotOf s1 k).widx = 0 →
      (pBit w1 = true ∨ (w0 = 0 ∧ w1 = 0) → step s = onNext endTurn (trap cIllegal (w1.setWidth 64) first)) ∧
      (pBit w0 = true → pBit w1 = false →
        (∀ i, decodeWord w0 = some i → step s = onNext endTurn (exec i first)) ∧
        (decodeWord w0 = none → step s = onNext endTurn (exec (.unassignedEncoding w0) first))) ∧
      (pBit w0 = false → pBit w1 = false → (w0 ≠ 0 ∨ w1 ≠ 0) →
        (classA w0 = true → step s = onNext endTurn (trap cIllegal (w0.setWidth 64) (onWord 0 first))) ∧
        (classA w0 = false → classA w1 = false →
          step s = onNext endTurn (trap cIllegal (w1.setWidth 64) (onWord 1 first))) ∧
        (classA w0 = false → classA w1 = true →
          (decodeWord w0 = none → step s = onNext endTurn (exec (.unassignedEncoding w0) (onWord 0 first))) ∧
          ∀ i0, decodeWord w0 = some i0 →
            (decodeWord w1 = none → step s = onNext endTurn (exec (.unassignedEncoding w1) (onWord 1 first))) ∧
            ∀ i1, decodeWord w1 = some i1 → step s = onNext endTurn (runPair exec i0 i1 first))))

/-- R40 to R47: a few words written out from the encoding tables decode to the instructions they stand for, and a word
with an unassigned minor, a reserved bit or an unassigned scope does not decode. -/
def Obligations.DecodeWords : Prop :=
  decodeWord 0x4000C205 = some (.add 3 4 5) ∧ decodeWord 0x42A18388 = some (.div 6 7 8) ∧
  decodeWord 0x43C08001 = some (.ilv2 2 0 1) ∧ decodeWord 0x5CA2858C = some (.fmaD 10 11 12) ∧
  decodeWord 0x60010290 = some (.fcvt 0 4 5 1 0) ∧ decodeWord 0x602102C2 = some (.fcvt 1 4 5 4 1) ∧
  decodeWord 0x62004103 = some (.vadd 1 2 3) ∧ decodeWord 0x6AA04103 = some (.vfmaD 1 2 3) ∧
  decodeWord 0x66810108 = some (.vredFaddS 4 2) ∧ decodeWord 0x66A1028A = some (.vcmpLt 4 5 1) ∧
  decodeWord 0x66E0C209 = some (.vcvtBhS 3 4 1) ∧ decodeWord 0x6721C283 = some (.vdqSc 7 5 1) ∧
  decodeWord 0x28610280 = some (.tblr 4 5) ∧ decodeWord 0x582C4FFF = some (.movx 11 9 (-1)) ∧
  decodeWord 0x04100050 = some (.mts 4 0x050) ∧ decodeWord 0x006000C8 = some (.burst 200) ∧
  decodeWord 0x80000000 = some .nop ∧ decodeWord 0x4000C206 ≠ some (.add 3 4 5) ∧ decodeWord 0x00000001 = none ∧
  decodeWord 0x00B00000 = none

/-- R40 to R47: every well-formed word form decodes from its own encoding, whatever bit 31 is. -/
def Obligations.EncodeDecode : Prop :=
  ∀ (i : Instr) (w : BitVec 32), i.wf = true → encode i = some w →
    w.getLsbD 31 = false ∧ decodeWord w = some i ∧ decodeWord (w ||| 0x80000000) = some i

/-- R47: a word that decodes is, but for bit 31, the encoding of what it decodes to, which is well formed: no two
forms share a word, and no bit of a word is ignored. -/
def Obligations.DecodeEncode : Prop :=
  ∀ (w : BitVec 32) (i : Instr), decodeWord w = some i → i.wf = true ∧ encode i = some (w &&& 0x7FFFFFFF)

/-- Every step keeps the canonical form of memory (the model's own invariant: equal memories are equal lists). The
form is the model's own, log entries 3 and 60. -/
def Obligations.StepKeepsMemory : Prop :=
  ∀ s t : State, s.memOk → step s = .next t → t.memOk

/-- R20, R23, R49, R96, R239, R303, R307: the state after reset: every slot EMPTY, entry i of the rotation table
naming slot i with V = 1, FIXED, clock 0, every barrier uninitialised and every handle FREE, no core running a program
until firmware has verified, a power cap of 2,400 W, a mailbox with nothing in it, the engine cold, and memory in its
canonical form. Rests on the model's own choice, log entries 3, 4 and 5. -/
def Obligations.ResetState : Prop :=
  let s := State.reset
  s.memOk ∧ s.clock = 0 ∧ (∀ k, (slotOf s k).st = .empty) ∧ s.me.rotPol = 0 ∧
  (∀ k < 16, s.me.rot[k]? = some (BitVec.ofNat 16 (2 ^ 15 + k)) ∧ s.me.shadow[k]? = some (BitVec.ofNat 16 (2 ^ 15 + k))) ∧
  (∀ h, (hGet s h).st = .free ∧ (hGet s h).gen = 0) ∧ (∀ scope id, (barGet s scope id).n = 0) ∧
  s.fw.running = false ∧ s.fw.cap = 2400 ∧ s.ctx.cores = [] ∧ s.me.mbox = [] ∧ s.me.power = .cold ∧ posOf s.clock s.me = 0

/-- R49: no word that a thread without privilege runs changes its core's rotation table or policy, its shadow copy,
CAP, RATE, the bell's quantum or FOOTPRINT, nor gives the thread privilege. -/
def Obligations.PrivilegeHolds : Prop :=
  ∀ (i : Instr) (w : BitVec 32) (s t : State), encode i = some w → (cur s).prv = false → exec i s = .next t →
    t.me.rot = s.me.rot ∧ t.me.rotPol = s.me.rotPol ∧ t.me.shadow = s.me.shadow ∧ t.me.rotPend = s.me.rotPend ∧
    t.me.cap = s.me.cap ∧ t.me.rate = s.me.rate ∧ t.me.bell = s.me.bell ∧ t.me.footprint = s.me.footprint ∧
    (slotOf t s.iss.slot).prv = false

end
end

