-- ==== Sys2Proof/Laws/Sparse.lean ====
section
/-!
SUPPORT. The laws of the sparse maps: a read after a write gives the value written, a write leaves every other key
alone, and every write keeps the canonical form.
-/

namespace Sys2Proof.Laws

open Sys2Proof.Machine

@[simp] theorem spGet_nil {α : Type} (d : α) (k : Nat) : spGet d ([] : Sp α) k = d := rfl

theorem spGet_cons {α : Type} (d : α) (k' : Nat) (v : α) (m : Sp α) (k : Nat) :
    spGet d ((k', v) :: m) k = if k = k' then v else spGet d m k := rfl

theorem spGet_erase {α : Type} (d : α) (m : Sp α) (k j : Nat) :
    spGet d (spErase m k) j = if j = k then d else spGet d m j := by
  induction m with
  | nil => simp [spErase]
  | cons e m ih =>
    obtain ⟨k', v⟩ := e
    by_cases h : k = k'
    · subst h
      rw [spErase, if_pos rfl, ih, spGet_cons]
      by_cases hj : j = k <;> simp [hj]
    · rw [spErase, if_neg h, spGet_cons, spGet_cons, ih]
      by_cases hj : j = k'
      · subst hj; simp [Ne.symm h]
      · simp [hj]

theorem spGet_insert {α : Type} (d : α) (m : Sp α) (k j : Nat) (v : α) :
    spGet d (spInsert m k v) j = if j = k then v else spGet d m j := by
  induction m with
  | nil => simp [spInsert, spGet_cons]
  | cons e m ih =>
    obtain ⟨k', v'⟩ := e
    unfold spInsert
    split
    · simp [spGet_cons]
    · split
      · rename_i _ h; subst h
        simp only [spGet_cons]; by_cases hj : j = k <;> simp [hj]
      · rename_i _ h
        rw [spGet_cons, ih, spGet_cons]
        by_cases hj : j = k'
        · subst hj; simp [Ne.symm h]
        · simp [hj]

/-- Reading any key after a write, for every map. -/
theorem spGet_set {α : Type} [DecidableEq α] (d : α) (m : Sp α) (k j : Nat) (v : α) :
    spGet d (spSet d m k v) j = if j = k then v else spGet d m j := by
  unfold spSet
  split
  · rename_i h; subst h; exact spGet_erase _ _ _ _
  · exact spGet_insert _ _ _ _ _

@[simp] theorem spGet_set_same {α : Type} [DecidableEq α] (d : α) (m : Sp α) (k : Nat) (v : α) :
    spGet d (spSet d m k v) k = v := by simp [spGet_set]

theorem spGet_set_other {α : Type} [DecidableEq α] (d : α) (m : Sp α) (k j : Nat) (v : α) (h : j ≠ k) :
    spGet d (spSet d m k v) j = spGet d m j := by simp [spGet_set, h]

theorem spWfFrom_cons {α : Type} [DecidableEq α] (d : α) (lo : Option Nat) (k : Nat) (v : α) (m : Sp α) :
    spWfFrom d lo ((k, v) :: m) = true ↔
      (∀ l, lo = some l → l < k) ∧ v ≠ d ∧ spWfFrom d (some k) m = true := by
  cases lo <;> simp [spWfFrom, and_assoc]

theorem spWfFrom_weaken {α : Type} [DecidableEq α] (d : α) (lo lo' : Option Nat) (m : Sp α)
    (h : spWfFrom d lo m = true) (hl : ∀ l', lo' = some l' → ∃ l, lo = some l ∧ l' ≤ l) :
    spWfFrom d lo' m = true := by
  cases m with
  | nil => rfl
  | cons e m =>
    obtain ⟨k, v⟩ := e
    rw [spWfFrom_cons] at h ⊢
    refine ⟨fun l' hl' => ?_, h.2⟩
    obtain ⟨l, rfl, hle⟩ := hl l' hl'
    exact Nat.lt_of_le_of_lt hle (h.1 l rfl)

theorem spWfFrom_erase {α : Type} [DecidableEq α] (d : α) (lo : Option Nat) (m : Sp α) (k : Nat)
    (h : spWfFrom d lo m = true) : spWfFrom d lo (spErase m k) = true := by
  induction m generalizing lo with
  | nil => exact h
  | cons e m ih =>
    obtain ⟨k', v⟩ := e
    rw [spWfFrom_cons] at h
    unfold spErase
    split
    · exact ih _ (spWfFrom_weaken d (some k') lo m h.2.2 fun l hl => ⟨k', rfl, Nat.le_of_lt (h.1 l hl)⟩)
    · rw [spWfFrom_cons]; exact ⟨h.1, h.2.1, ih _ h.2.2⟩

theorem spWfFrom_insert {α : Type} [DecidableEq α] (d : α) (lo : Option Nat) (m : Sp α) (k : Nat) (v : α)
    (h : spWfFrom d lo m = true) (hv : v ≠ d) (hk : ∀ l, lo = some l → l < k) :
    spWfFrom d lo (spInsert m k v) = true := by
  induction m generalizing lo with
  | nil => simp only [spInsert]; rw [spWfFrom_cons]; exact ⟨hk, hv, rfl⟩
  | cons e m ih =>
    obtain ⟨k', v'⟩ := e
    have h' := (spWfFrom_cons d lo k' v' m).1 h
    unfold spInsert
    split
    · rename_i hlt
      rw [spWfFrom_cons]
      refine ⟨hk, hv, ?_⟩
      rw [spWfFrom_cons]
      exact ⟨fun l hl => by cases hl; exact hlt, h'.2⟩
    · split
      · rename_i _ heq; subst heq
        rw [spWfFrom_cons]; exact ⟨h'.1, hv, h'.2.2⟩
      · rename_i hn hne
        rw [spWfFrom_cons]
        exact ⟨h'.1, h'.2.1, ih _ h'.2.2 fun l hl => by cases hl; omega⟩

/-- A write keeps the canonical form. -/
theorem spWf_set {α : Type} [DecidableEq α] (d : α) (m : Sp α) (k : Nat) (v : α) (h : spWf d m = true) :
    spWf d (spSet d m k v) = true := by
  unfold spSet spWf at *
  split
  · exact spWfFrom_erase d none m k h
  · rename_i hv
    exact spWfFrom_insert d none m k v h hv (fun l hl => by cases hl)

/-- A run of writes keeps the canonical form. -/
theorem spWf_setAll {α : Type} [DecidableEq α] (d : α) (l : List (Nat × α)) (m : Sp α) (h : spWf d m = true) :
    spWf d (spSetAll d m l) = true := by
  induction l generalizing m with
  | nil => exact h
  | cons e l ih => exact ih _ (spWf_set d m e.1 e.2 h)

theorem spWfFrom_filter {α : Type} [DecidableEq α] (d : α) (lo : Option Nat) (m : Sp α) (p : Nat × α → Bool)
    (h : spWfFrom d lo m = true) : spWfFrom d lo (m.filter p) = true := by
  induction m generalizing lo with
  | nil => exact h
  | cons e m ih =>
    obtain ⟨k, v⟩ := e
    have h' := (spWfFrom_cons d lo k v m).1 h
    rw [List.filter_cons]
    split
    · rw [spWfFrom_cons]; exact ⟨h'.1, h'.2.1, ih _ h'.2.2⟩
    · exact ih _ (spWfFrom_weaken d (some k) lo m h'.2.2 fun l hl => ⟨k, rfl, Nat.le_of_lt (h'.1 l hl)⟩)

/-- Clearing a range keeps the canonical form. -/
theorem spWf_clear {α : Type} [DecidableEq α] (d : α) (m : Sp α) (base n : Nat) (h : spWf d m = true) :
    spWf d (spClear m base n) = true := spWfFrom_filter d none m _ h

/-- Pasting a slice keeps the canonical form. -/
theorem spWf_paste {α : Type} [DecidableEq α] (d : α) (m : Sp α) (base n : Nat) (sl : Sp α) (h : spWf d m = true) :
    spWf d (spPaste d m base n sl) = true := spWf_setAll d _ _ (spWf_clear d m base n h)

/-- A key that a run of writes does not name keeps its value. -/
theorem spGet_setAll_other {α : Type} [DecidableEq α] (d : α) (l : List (Nat × α)) (m : Sp α) (j : Nat)
    (h : ∀ e ∈ l, e.1 ≠ j) : spGet d (spSetAll d m l) j = spGet d m j := by
  induction l generalizing m with
  | nil => rfl
  | cons e l ih =>
    rw [spSetAll, ih _ fun x hx => h x (List.mem_cons_of_mem _ hx)]
    exact spGet_set_other d m e.1 j e.2 (Ne.symm (h e (List.mem_cons_self ..)))

/-- Reading a map whose values have been changed one by one, by a change that keeps the default. -/
theorem spGet_mapVal {α : Type} (d : α) (f : α → α) (hd : f d = d) (m : Sp α) (k : Nat) :
    spGet d (m.map fun e => (e.1, f e.2)) k = f (spGet d m k) := by
  induction m with
  | nil => simp [hd]
  | cons e m ih =>
    obtain ⟨j, v⟩ := e
    simp only [List.map_cons, spGet_cons, ih]
    split <;> rfl

/-- A run of writes of distinct keys: each key reads as the value written. -/
theorem spGet_setAll_mem {α : Type} [DecidableEq α] (d : α) (l : List (Nat × α)) (m : Sp α)
    (hn : (l.map (·.1)).Nodup) (e : Nat × α) (he : e ∈ l) : spGet d (spSetAll d m l) e.1 = e.2 := by
  induction l generalizing m with
  | nil => cases he
  | cons x l ih =>
    rw [List.map_cons, List.nodup_cons] at hn
    rw [spSetAll]
    cases he with
    | head =>
      rw [spGet_setAll_other _ _ _ _ fun y hy h => hn.1 (List.mem_map.2 ⟨y, hy, h⟩), spGet_set_same]
    | tail _ he => exact ih _ hn.2 he

end Sys2Proof.Laws
end

