-- ==== Sys2Proof/Laws/State.lean ====
section
/-!
SUPPORT. One law for each field of the state under each of the small updates, so that no later proof unfolds a record
update; and the slots, registers and handles read back after them.
-/

namespace Sys2Proof.Laws

open Sys2Proof.Machine

section Fields

variable (s : State)

@[simp] theorem setRes_me (r : Res) : (setRes r s).me = s.me := rfl
@[simp] theorem setRes_others (r : Res) : (setRes r s).others = s.others := rfl
@[simp] theorem setRes_clusters (r : Res) : (setRes r s).clusters = s.clusters := rfl
@[simp] theorem setRes_dies (r : Res) : (setRes r s).dies = s.dies := rfl
@[simp] theorem setRes_tracks (r : Res) : (setRes r s).tracks = s.tracks := rfl
@[simp] theorem setRes_mem (r : Res) : (setRes r s).mem = s.mem := rfl
@[simp] theorem setRes_poison (r : Res) : (setRes r s).poison = s.poison := rfl
@[simp] theorem setRes_clock (r : Res) : (setRes r s).clock = s.clock := rfl
@[simp] theorem setRes_todo (r : Res) : (setRes r s).todo = s.todo := rfl
@[simp] theorem setRes_pkg (r : Res) : (setRes r s).pkg = s.pkg := rfl
@[simp] theorem setRes_ctx (r : Res) : (setRes r s).ctx = s.ctx := rfl
@[simp] theorem setRes_switch (r : Res) : (setRes r s).switch = s.switch := rfl
@[simp] theorem setRes_dieMap (r : Res) : (setRes r s).dieMap = s.dieMap := rfl
@[simp] theorem setRes_kernels (r : Res) : (setRes r s).kernels = s.kernels := rfl
@[simp] theorem setRes_net (r : Res) : (setRes r s).net = s.net := rfl
@[simp] theorem setRes_wakes (r : Res) : (setRes r s).wakes = s.wakes := rfl
@[simp] theorem setRes_pkgBars (r : Res) : (setRes r s).pkgBars = s.pkgBars := rfl
@[simp] theorem setRes_podBars (r : Res) : (setRes r s).podBars = s.podBars := rfl
@[simp] theorem setRes_ctl (r : Res) : (setRes r s).ctl = s.ctl := rfl
@[simp] theorem setRes_taken (r : Res) : (setRes r s).taken = s.taken := rfl
@[simp] theorem setRes_serial (r : Res) : (setRes r s).serial = s.serial := rfl
@[simp] theorem setRes_restripes (r : Res) : (setRes r s).restripes = s.restripes := rfl
@[simp] theorem setRes_memDown (r : Res) : (setRes r s).memDown = s.memDown := rfl
@[simp] theorem setRes_remap (r : Res) : (setRes r s).remap = s.remap := rfl
@[simp] theorem setRes_degraded (r : Res) : (setRes r s).degraded = s.degraded := rfl
@[simp] theorem setRes_conn (r : Res) : (setRes r s).conn = s.conn := rfl
@[simp] theorem setRes_links (r : Res) : (setRes r s).links = s.links := rfl
@[simp] theorem setRes_hostLink (r : Res) : (setRes r s).hostLink = s.hostLink := rfl
@[simp] theorem setRes_fw (r : Res) : (setRes r s).fw = s.fw := rfl
@[simp] theorem setRes_kept (r : Res) : (setRes r s).kept = s.kept := rfl
@[simp] theorem setRes_keptPart (r : Res) : (setRes r s).keptPart = s.keptPart := rfl
@[simp] theorem setRes_ckCopy (r : Res) : (setRes r s).ckCopy = s.ckCopy := rfl
@[simp] theorem setRes_ckWhole (r : Res) : (setRes r s).ckWhole = s.ckWhole := rfl
@[simp] theorem setRes_iss (r : Res) : (setRes r s).iss = { s.iss with res := r } := rfl
@[simp] theorem setRes_inputs (r : Res) : (setRes r s).inputs = s.inputs := rfl
@[simp] theorem setRes_ctxBase (r : Res) : (setRes r s).ctxBase = s.ctxBase := rfl
@[simp] theorem setRes_stopAt (r : Res) : (setRes r s).stopAt = s.stopAt := rfl
@[simp] theorem setRes_away (r : Res) : (setRes r s).away = s.away := rfl
@[simp] theorem setRes_hostDown (r : Res) : (setRes r s).hostDown = s.hostDown := rfl
@[simp] theorem setRes_banks (r : Res) : (setRes r s).banks = s.banks := rfl
@[simp] theorem setRes_asked (r : Res) : (setRes r s).asked = s.asked := rfl
@[simp] theorem setRes_presented (r : Res) : (setRes r s).presented = s.presented := rfl
@[simp] theorem setRes_replay (r : Res) : (setRes r s).replay = s.replay := rfl
@[simp] theorem setRes_delays (r : Res) : (setRes r s).delays = s.delays := rfl
@[simp] theorem setRes_freeUsed (r : Res) : (setRes r s).freeUsed = s.freeUsed := rfl

@[simp] theorem setSlot_me (k : Nat) (v : Slot) : (setSlot k v s).me = { s.me with slots := spSet emptySlot s.me.slots k v } := rfl
@[simp] theorem setSlot_others (k : Nat) (v : Slot) : (setSlot k v s).others = s.others := rfl
@[simp] theorem setSlot_clusters (k : Nat) (v : Slot) : (setSlot k v s).clusters = s.clusters := rfl
@[simp] theorem setSlot_dies (k : Nat) (v : Slot) : (setSlot k v s).dies = s.dies := rfl
@[simp] theorem setSlot_tracks (k : Nat) (v : Slot) : (setSlot k v s).tracks = s.tracks := rfl
@[simp] theorem setSlot_mem (k : Nat) (v : Slot) : (setSlot k v s).mem = s.mem := rfl
@[simp] theorem setSlot_poison (k : Nat) (v : Slot) : (setSlot k v s).poison = s.poison := rfl
@[simp] theorem setSlot_clock (k : Nat) (v : Slot) : (setSlot k v s).clock = s.clock := rfl
@[simp] theorem setSlot_todo (k : Nat) (v : Slot) : (setSlot k v s).todo = s.todo := rfl
@[simp] theorem setSlot_pkg (k : Nat) (v : Slot) : (setSlot k v s).pkg = s.pkg := rfl
@[simp] theorem setSlot_ctx (k : Nat) (v : Slot) : (setSlot k v s).ctx = s.ctx := rfl
@[simp] theorem setSlot_switch (k : Nat) (v : Slot) : (setSlot k v s).switch = s.switch := rfl
@[simp] theorem setSlot_dieMap (k : Nat) (v : Slot) : (setSlot k v s).dieMap = s.dieMap := rfl
@[simp] theorem setSlot_kernels (k : Nat) (v : Slot) : (setSlot k v s).kernels = s.kernels := rfl
@[simp] theorem setSlot_net (k : Nat) (v : Slot) : (setSlot k v s).net = s.net := rfl
@[simp] theorem setSlot_wakes (k : Nat) (v : Slot) : (setSlot k v s).wakes = s.wakes := rfl
@[simp] theorem setSlot_pkgBars (k : Nat) (v : Slot) : (setSlot k v s).pkgBars = s.pkgBars := rfl
@[simp] theorem setSlot_podBars (k : Nat) (v : Slot) : (setSlot k v s).podBars = s.podBars := rfl
@[simp] theorem setSlot_ctl (k : Nat) (v : Slot) : (setSlot k v s).ctl = s.ctl := rfl
@[simp] theorem setSlot_taken (k : Nat) (v : Slot) : (setSlot k v s).taken = s.taken := rfl
@[simp] theorem setSlot_serial (k : Nat) (v : Slot) : (setSlot k v s).serial = s.serial := rfl
@[simp] theorem setSlot_restripes (k : Nat) (v : Slot) : (setSlot k v s).restripes = s.restripes := rfl
@[simp] theorem setSlot_memDown (k : Nat) (v : Slot) : (setSlot k v s).memDown = s.memDown := rfl
@[simp] theorem setSlot_remap (k : Nat) (v : Slot) : (setSlot k v s).remap = s.remap := rfl
@[simp] theorem setSlot_degraded (k : Nat) (v : Slot) : (setSlot k v s).degraded = s.degraded := rfl
@[simp] theorem setSlot_conn (k : Nat) (v : Slot) : (setSlot k v s).conn = s.conn := rfl
@[simp] theorem setSlot_links (k : Nat) (v : Slot) : (setSlot k v s).links = s.links := rfl
@[simp] theorem setSlot_hostLink (k : Nat) (v : Slot) : (setSlot k v s).hostLink = s.hostLink := rfl
@[simp] theorem setSlot_fw (k : Nat) (v : Slot) : (setSlot k v s).fw = s.fw := rfl
@[simp] theorem setSlot_kept (k : Nat) (v : Slot) : (setSlot k v s).kept = s.kept := rfl
@[simp] theorem setSlot_keptPart (k : Nat) (v : Slot) : (setSlot k v s).keptPart = s.keptPart := rfl
@[simp] theorem setSlot_ckCopy (k : Nat) (v : Slot) : (setSlot k v s).ckCopy = s.ckCopy := rfl
@[simp] theorem setSlot_ckWhole (k : Nat) (v : Slot) : (setSlot k v s).ckWhole = s.ckWhole := rfl
@[simp] theorem setSlot_iss (k : Nat) (v : Slot) : (setSlot k v s).iss = s.iss := rfl
@[simp] theorem setSlot_inputs (k : Nat) (v : Slot) : (setSlot k v s).inputs = s.inputs := rfl
@[simp] theorem setSlot_ctxBase (k : Nat) (v : Slot) : (setSlot k v s).ctxBase = s.ctxBase := rfl
@[simp] theorem setSlot_stopAt (k : Nat) (v : Slot) : (setSlot k v s).stopAt = s.stopAt := rfl
@[simp] theorem setSlot_away (k : Nat) (v : Slot) : (setSlot k v s).away = s.away := rfl
@[simp] theorem setSlot_hostDown (k : Nat) (v : Slot) : (setSlot k v s).hostDown = s.hostDown := rfl
@[simp] theorem setSlot_banks (k : Nat) (v : Slot) : (setSlot k v s).banks = s.banks := rfl
@[simp] theorem setSlot_asked (k : Nat) (v : Slot) : (setSlot k v s).asked = s.asked := rfl
@[simp] theorem setSlot_presented (k : Nat) (v : Slot) : (setSlot k v s).presented = s.presented := rfl
@[simp] theorem setSlot_replay (k : Nat) (v : Slot) : (setSlot k v s).replay = s.replay := rfl
@[simp] theorem setSlot_delays (k : Nat) (v : Slot) : (setSlot k v s).delays = s.delays := rfl
@[simp] theorem setSlot_freeUsed (k : Nat) (v : Slot) : (setSlot k v s).freeUsed = s.freeUsed := rfl

@[simp] theorem onCur_me (f : Slot → Slot) : (onCur f s).me = { s.me with slots := spSet emptySlot s.me.slots s.iss.slot (f (cur s)) } := rfl
@[simp] theorem onCur_others (f : Slot → Slot) : (onCur f s).others = s.others := rfl
@[simp] theorem onCur_clusters (f : Slot → Slot) : (onCur f s).clusters = s.clusters := rfl
@[simp] theorem onCur_dies (f : Slot → Slot) : (onCur f s).dies = s.dies := rfl
@[simp] theorem onCur_tracks (f : Slot → Slot) : (onCur f s).tracks = s.tracks := rfl
@[simp] theorem onCur_mem (f : Slot → Slot) : (onCur f s).mem = s.mem := rfl
@[simp] theorem onCur_poison (f : Slot → Slot) : (onCur f s).poison = s.poison := rfl
@[simp] theorem onCur_clock (f : Slot → Slot) : (onCur f s).clock = s.clock := rfl
@[simp] theorem onCur_todo (f : Slot → Slot) : (onCur f s).todo = s.todo := rfl
@[simp] theorem onCur_pkg (f : Slot → Slot) : (onCur f s).pkg = s.pkg := rfl
@[simp] theorem onCur_ctx (f : Slot → Slot) : (onCur f s).ctx = s.ctx := rfl
@[simp] theorem onCur_switch (f : Slot → Slot) : (onCur f s).switch = s.switch := rfl
@[simp] theorem onCur_dieMap (f : Slot → Slot) : (onCur f s).dieMap = s.dieMap := rfl
@[simp] theorem onCur_kernels (f : Slot → Slot) : (onCur f s).kernels = s.kernels := rfl
@[simp] theorem onCur_net (f : Slot → Slot) : (onCur f s).net = s.net := rfl
@[simp] theorem onCur_wakes (f : Slot → Slot) : (onCur f s).wakes = s.wakes := rfl
@[simp] theorem onCur_pkgBars (f : Slot → Slot) : (onCur f s).pkgBars = s.pkgBars := rfl
@[simp] theorem onCur_podBars (f : Slot → Slot) : (onCur f s).podBars = s.podBars := rfl
@[simp] theorem onCur_ctl (f : Slot → Slot) : (onCur f s).ctl = s.ctl := rfl
@[simp] theorem onCur_taken (f : Slot → Slot) : (onCur f s).taken = s.taken := rfl
@[simp] theorem onCur_serial (f : Slot → Slot) : (onCur f s).serial = s.serial := rfl
@[simp] theorem onCur_restripes (f : Slot → Slot) : (onCur f s).restripes = s.restripes := rfl
@[simp] theorem onCur_memDown (f : Slot → Slot) : (onCur f s).memDown = s.memDown := rfl
@[simp] theorem onCur_remap (f : Slot → Slot) : (onCur f s).remap = s.remap := rfl
@[simp] theorem onCur_degraded (f : Slot → Slot) : (onCur f s).degraded = s.degraded := rfl
@[simp] theorem onCur_conn (f : Slot → Slot) : (onCur f s).conn = s.conn := rfl
@[simp] theorem onCur_links (f : Slot → Slot) : (onCur f s).links = s.links := rfl
@[simp] theorem onCur_hostLink (f : Slot → Slot) : (onCur f s).hostLink = s.hostLink := rfl
@[simp] theorem onCur_fw (f : Slot → Slot) : (onCur f s).fw = s.fw := rfl
@[simp] theorem onCur_kept (f : Slot → Slot) : (onCur f s).kept = s.kept := rfl
@[simp] theorem onCur_keptPart (f : Slot → Slot) : (onCur f s).keptPart = s.keptPart := rfl
@[simp] theorem onCur_ckCopy (f : Slot → Slot) : (onCur f s).ckCopy = s.ckCopy := rfl
@[simp] theorem onCur_ckWhole (f : Slot → Slot) : (onCur f s).ckWhole = s.ckWhole := rfl
@[simp] theorem onCur_iss (f : Slot → Slot) : (onCur f s).iss = s.iss := rfl
@[simp] theorem onCur_inputs (f : Slot → Slot) : (onCur f s).inputs = s.inputs := rfl
@[simp] theorem onCur_ctxBase (f : Slot → Slot) : (onCur f s).ctxBase = s.ctxBase := rfl
@[simp] theorem onCur_stopAt (f : Slot → Slot) : (onCur f s).stopAt = s.stopAt := rfl
@[simp] theorem onCur_away (f : Slot → Slot) : (onCur f s).away = s.away := rfl
@[simp] theorem onCur_hostDown (f : Slot → Slot) : (onCur f s).hostDown = s.hostDown := rfl
@[simp] theorem onCur_banks (f : Slot → Slot) : (onCur f s).banks = s.banks := rfl
@[simp] theorem onCur_asked (f : Slot → Slot) : (onCur f s).asked = s.asked := rfl
@[simp] theorem onCur_presented (f : Slot → Slot) : (onCur f s).presented = s.presented := rfl
@[simp] theorem onCur_replay (f : Slot → Slot) : (onCur f s).replay = s.replay := rfl
@[simp] theorem onCur_delays (f : Slot → Slot) : (onCur f s).delays = s.delays := rfl
@[simp] theorem onCur_freeUsed (f : Slot → Slot) : (onCur f s).freeUsed = s.freeUsed := rfl

@[simp] theorem wrSlot_me (sl k : Nat) (v : Word) : (wrSlot sl k v s).me = { s.me with pool := spSet 0 s.me.pool ((slotOf s sl).winBase + k) v } := rfl
@[simp] theorem wrSlot_others (sl k : Nat) (v : Word) : (wrSlot sl k v s).others = s.others := rfl
@[simp] theorem wrSlot_clusters (sl k : Nat) (v : Word) : (wrSlot sl k v s).clusters = s.clusters := rfl
@[simp] theorem wrSlot_dies (sl k : Nat) (v : Word) : (wrSlot sl k v s).dies = s.dies := rfl
@[simp] theorem wrSlot_tracks (sl k : Nat) (v : Word) : (wrSlot sl k v s).tracks = s.tracks := rfl
@[simp] theorem wrSlot_mem (sl k : Nat) (v : Word) : (wrSlot sl k v s).mem = s.mem := rfl
@[simp] theorem wrSlot_poison (sl k : Nat) (v : Word) : (wrSlot sl k v s).poison = s.poison := rfl
@[simp] theorem wrSlot_clock (sl k : Nat) (v : Word) : (wrSlot sl k v s).clock = s.clock := rfl
@[simp] theorem wrSlot_todo (sl k : Nat) (v : Word) : (wrSlot sl k v s).todo = s.todo := rfl
@[simp] theorem wrSlot_pkg (sl k : Nat) (v : Word) : (wrSlot sl k v s).pkg = s.pkg := rfl
@[simp] theorem wrSlot_ctx (sl k : Nat) (v : Word) : (wrSlot sl k v s).ctx = s.ctx := rfl
@[simp] theorem wrSlot_switch (sl k : Nat) (v : Word) : (wrSlot sl k v s).switch = s.switch := rfl
@[simp] theorem wrSlot_dieMap (sl k : Nat) (v : Word) : (wrSlot sl k v s).dieMap = s.dieMap := rfl
@[simp] theorem wrSlot_kernels (sl k : Nat) (v : Word) : (wrSlot sl k v s).kernels = s.kernels := rfl
@[simp] theorem wrSlot_net (sl k : Nat) (v : Word) : (wrSlot sl k v s).net = s.net := rfl
@[simp] theorem wrSlot_wakes (sl k : Nat) (v : Word) : (wrSlot sl k v s).wakes = s.wakes := rfl
@[simp] theorem wrSlot_pkgBars (sl k : Nat) (v : Word) : (wrSlot sl k v s).pkgBars = s.pkgBars := rfl
@[simp] theorem wrSlot_podBars (sl k : Nat) (v : Word) : (wrSlot sl k v s).podBars = s.podBars := rfl
@[simp] theorem wrSlot_ctl (sl k : Nat) (v : Word) : (wrSlot sl k v s).ctl = s.ctl := rfl
@[simp] theorem wrSlot_taken (sl k : Nat) (v : Word) : (wrSlot sl k v s).taken = s.taken := rfl
@[simp] theorem wrSlot_serial (sl k : Nat) (v : Word) : (wrSlot sl k v s).serial = s.serial := rfl
@[simp] theorem wrSlot_restripes (sl k : Nat) (v : Word) : (wrSlot sl k v s).restripes = s.restripes := rfl
@[simp] theorem wrSlot_memDown (sl k : Nat) (v : Word) : (wrSlot sl k v s).memDown = s.memDown := rfl
@[simp] theorem wrSlot_remap (sl k : Nat) (v : Word) : (wrSlot sl k v s).remap = s.remap := rfl
@[simp] theorem wrSlot_degraded (sl k : Nat) (v : Word) : (wrSlot sl k v s).degraded = s.degraded := rfl
@[simp] theorem wrSlot_conn (sl k : Nat) (v : Word) : (wrSlot sl k v s).conn = s.conn := rfl
@[simp] theorem wrSlot_links (sl k : Nat) (v : Word) : (wrSlot sl k v s).links = s.links := rfl
@[simp] theorem wrSlot_hostLink (sl k : Nat) (v : Word) : (wrSlot sl k v s).hostLink = s.hostLink := rfl
@[simp] theorem wrSlot_fw (sl k : Nat) (v : Word) : (wrSlot sl k v s).fw = s.fw := rfl
@[simp] theorem wrSlot_kept (sl k : Nat) (v : Word) : (wrSlot sl k v s).kept = s.kept := rfl
@[simp] theorem wrSlot_keptPart (sl k : Nat) (v : Word) : (wrSlot sl k v s).keptPart = s.keptPart := rfl
@[simp] theorem wrSlot_ckCopy (sl k : Nat) (v : Word) : (wrSlot sl k v s).ckCopy = s.ckCopy := rfl
@[simp] theorem wrSlot_ckWhole (sl k : Nat) (v : Word) : (wrSlot sl k v s).ckWhole = s.ckWhole := rfl
@[simp] theorem wrSlot_iss (sl k : Nat) (v : Word) : (wrSlot sl k v s).iss = s.iss := rfl
@[simp] theorem wrSlot_inputs (sl k : Nat) (v : Word) : (wrSlot sl k v s).inputs = s.inputs := rfl
@[simp] theorem wrSlot_ctxBase (sl k : Nat) (v : Word) : (wrSlot sl k v s).ctxBase = s.ctxBase := rfl
@[simp] theorem wrSlot_stopAt (sl k : Nat) (v : Word) : (wrSlot sl k v s).stopAt = s.stopAt := rfl
@[simp] theorem wrSlot_away (sl k : Nat) (v : Word) : (wrSlot sl k v s).away = s.away := rfl
@[simp] theorem wrSlot_hostDown (sl k : Nat) (v : Word) : (wrSlot sl k v s).hostDown = s.hostDown := rfl
@[simp] theorem wrSlot_banks (sl k : Nat) (v : Word) : (wrSlot sl k v s).banks = s.banks := rfl
@[simp] theorem wrSlot_asked (sl k : Nat) (v : Word) : (wrSlot sl k v s).asked = s.asked := rfl
@[simp] theorem wrSlot_presented (sl k : Nat) (v : Word) : (wrSlot sl k v s).presented = s.presented := rfl
@[simp] theorem wrSlot_replay (sl k : Nat) (v : Word) : (wrSlot sl k v s).replay = s.replay := rfl
@[simp] theorem wrSlot_delays (sl k : Nat) (v : Word) : (wrSlot sl k v s).delays = s.delays := rfl
@[simp] theorem wrSlot_freeUsed (sl k : Nat) (v : Word) : (wrSlot sl k v s).freeUsed = s.freeUsed := rfl

@[simp] theorem wrN_me (k : Nat) (v : Word) : (wrN k v s).me = { s.me with pool := spSet 0 s.me.pool ((cur s).winBase + k) v } := rfl
@[simp] theorem wrN_others (k : Nat) (v : Word) : (wrN k v s).others = s.others := rfl
@[simp] theorem wrN_clusters (k : Nat) (v : Word) : (wrN k v s).clusters = s.clusters := rfl
@[simp] theorem wrN_dies (k : Nat) (v : Word) : (wrN k v s).dies = s.dies := rfl
@[simp] theorem wrN_tracks (k : Nat) (v : Word) : (wrN k v s).tracks = s.tracks := rfl
@[simp] theorem wrN_mem (k : Nat) (v : Word) : (wrN k v s).mem = s.mem := rfl
@[simp] theorem wrN_poison (k : Nat) (v : Word) : (wrN k v s).poison = s.poison := rfl
@[simp] theorem wrN_clock (k : Nat) (v : Word) : (wrN k v s).clock = s.clock := rfl
@[simp] theorem wrN_todo (k : Nat) (v : Word) : (wrN k v s).todo = s.todo := rfl
@[simp] theorem wrN_pkg (k : Nat) (v : Word) : (wrN k v s).pkg = s.pkg := rfl
@[simp] theorem wrN_ctx (k : Nat) (v : Word) : (wrN k v s).ctx = s.ctx := rfl
@[simp] theorem wrN_switch (k : Nat) (v : Word) : (wrN k v s).switch = s.switch := rfl
@[simp] theorem wrN_dieMap (k : Nat) (v : Word) : (wrN k v s).dieMap = s.dieMap := rfl
@[simp] theorem wrN_kernels (k : Nat) (v : Word) : (wrN k v s).kernels = s.kernels := rfl
@[simp] theorem wrN_net (k : Nat) (v : Word) : (wrN k v s).net = s.net := rfl
@[simp] theorem wrN_wakes (k : Nat) (v : Word) : (wrN k v s).wakes = s.wakes := rfl
@[simp] theorem wrN_pkgBars (k : Nat) (v : Word) : (wrN k v s).pkgBars = s.pkgBars := rfl
@[simp] theorem wrN_podBars (k : Nat) (v : Word) : (wrN k v s).podBars = s.podBars := rfl
@[simp] theorem wrN_ctl (k : Nat) (v : Word) : (wrN k v s).ctl = s.ctl := rfl
@[simp] theorem wrN_taken (k : Nat) (v : Word) : (wrN k v s).taken = s.taken := rfl
@[simp] theorem wrN_serial (k : Nat) (v : Word) : (wrN k v s).serial = s.serial := rfl
@[simp] theorem wrN_restripes (k : Nat) (v : Word) : (wrN k v s).restripes = s.restripes := rfl
@[simp] theorem wrN_memDown (k : Nat) (v : Word) : (wrN k v s).memDown = s.memDown := rfl
@[simp] theorem wrN_remap (k : Nat) (v : Word) : (wrN k v s).remap = s.remap := rfl
@[simp] theorem wrN_degraded (k : Nat) (v : Word) : (wrN k v s).degraded = s.degraded := rfl
@[simp] theorem wrN_conn (k : Nat) (v : Word) : (wrN k v s).conn = s.conn := rfl
@[simp] theorem wrN_links (k : Nat) (v : Word) : (wrN k v s).links = s.links := rfl
@[simp] theorem wrN_hostLink (k : Nat) (v : Word) : (wrN k v s).hostLink = s.hostLink := rfl
@[simp] theorem wrN_fw (k : Nat) (v : Word) : (wrN k v s).fw = s.fw := rfl
@[simp] theorem wrN_kept (k : Nat) (v : Word) : (wrN k v s).kept = s.kept := rfl
@[simp] theorem wrN_keptPart (k : Nat) (v : Word) : (wrN k v s).keptPart = s.keptPart := rfl
@[simp] theorem wrN_ckCopy (k : Nat) (v : Word) : (wrN k v s).ckCopy = s.ckCopy := rfl
@[simp] theorem wrN_ckWhole (k : Nat) (v : Word) : (wrN k v s).ckWhole = s.ckWhole := rfl
@[simp] theorem wrN_iss (k : Nat) (v : Word) : (wrN k v s).iss = s.iss := rfl
@[simp] theorem wrN_inputs (k : Nat) (v : Word) : (wrN k v s).inputs = s.inputs := rfl
@[simp] theorem wrN_ctxBase (k : Nat) (v : Word) : (wrN k v s).ctxBase = s.ctxBase := rfl
@[simp] theorem wrN_stopAt (k : Nat) (v : Word) : (wrN k v s).stopAt = s.stopAt := rfl
@[simp] theorem wrN_away (k : Nat) (v : Word) : (wrN k v s).away = s.away := rfl
@[simp] theorem wrN_hostDown (k : Nat) (v : Word) : (wrN k v s).hostDown = s.hostDown := rfl
@[simp] theorem wrN_banks (k : Nat) (v : Word) : (wrN k v s).banks = s.banks := rfl
@[simp] theorem wrN_asked (k : Nat) (v : Word) : (wrN k v s).asked = s.asked := rfl
@[simp] theorem wrN_presented (k : Nat) (v : Word) : (wrN k v s).presented = s.presented := rfl
@[simp] theorem wrN_replay (k : Nat) (v : Word) : (wrN k v s).replay = s.replay := rfl
@[simp] theorem wrN_delays (k : Nat) (v : Word) : (wrN k v s).delays = s.delays := rfl
@[simp] theorem wrN_freeUsed (k : Nat) (v : Word) : (wrN k v s).freeUsed = s.freeUsed := rfl

@[simp] theorem wr_me (k : BitVec 7) (v : Word) : (wr k v s).me = { s.me with pool := spSet 0 s.me.pool ((cur s).winBase + k.toNat) v } := rfl
@[simp] theorem wr_others (k : BitVec 7) (v : Word) : (wr k v s).others = s.others := rfl
@[simp] theorem wr_clusters (k : BitVec 7) (v : Word) : (wr k v s).clusters = s.clusters := rfl
@[simp] theorem wr_dies (k : BitVec 7) (v : Word) : (wr k v s).dies = s.dies := rfl
@[simp] theorem wr_tracks (k : BitVec 7) (v : Word) : (wr k v s).tracks = s.tracks := rfl
@[simp] theorem wr_mem (k : BitVec 7) (v : Word) : (wr k v s).mem = s.mem := rfl
@[simp] theorem wr_poison (k : BitVec 7) (v : Word) : (wr k v s).poison = s.poison := rfl
@[simp] theorem wr_clock (k : BitVec 7) (v : Word) : (wr k v s).clock = s.clock := rfl
@[simp] theorem wr_todo (k : BitVec 7) (v : Word) : (wr k v s).todo = s.todo := rfl
@[simp] theorem wr_pkg (k : BitVec 7) (v : Word) : (wr k v s).pkg = s.pkg := rfl
@[simp] theorem wr_ctx (k : BitVec 7) (v : Word) : (wr k v s).ctx = s.ctx := rfl
@[simp] theorem wr_switch (k : BitVec 7) (v : Word) : (wr k v s).switch = s.switch := rfl
@[simp] theorem wr_dieMap (k : BitVec 7) (v : Word) : (wr k v s).dieMap = s.dieMap := rfl
@[simp] theorem wr_kernels (k : BitVec 7) (v : Word) : (wr k v s).kernels = s.kernels := rfl
@[simp] theorem wr_net (k : BitVec 7) (v : Word) : (wr k v s).net = s.net := rfl
@[simp] theorem wr_wakes (k : BitVec 7) (v : Word) : (wr k v s).wakes = s.wakes := rfl
@[simp] theorem wr_pkgBars (k : BitVec 7) (v : Word) : (wr k v s).pkgBars = s.pkgBars := rfl
@[simp] theorem wr_podBars (k : BitVec 7) (v : Word) : (wr k v s).podBars = s.podBars := rfl
@[simp] theorem wr_ctl (k : BitVec 7) (v : Word) : (wr k v s).ctl = s.ctl := rfl
@[simp] theorem wr_taken (k : BitVec 7) (v : Word) : (wr k v s).taken = s.taken := rfl
@[simp] theorem wr_serial (k : BitVec 7) (v : Word) : (wr k v s).serial = s.serial := rfl
@[simp] theorem wr_restripes (k : BitVec 7) (v : Word) : (wr k v s).restripes = s.restripes := rfl
@[simp] theorem wr_memDown (k : BitVec 7) (v : Word) : (wr k v s).memDown = s.memDown := rfl
@[simp] theorem wr_remap (k : BitVec 7) (v : Word) : (wr k v s).remap = s.remap := rfl
@[simp] theorem wr_degraded (k : BitVec 7) (v : Word) : (wr k v s).degraded = s.degraded := rfl
@[simp] theorem wr_conn (k : BitVec 7) (v : Word) : (wr k v s).conn = s.conn := rfl
@[simp] theorem wr_links (k : BitVec 7) (v : Word) : (wr k v s).links = s.links := rfl
@[simp] theorem wr_hostLink (k : BitVec 7) (v : Word) : (wr k v s).hostLink = s.hostLink := rfl
@[simp] theorem wr_fw (k : BitVec 7) (v : Word) : (wr k v s).fw = s.fw := rfl
@[simp] theorem wr_kept (k : BitVec 7) (v : Word) : (wr k v s).kept = s.kept := rfl
@[simp] theorem wr_keptPart (k : BitVec 7) (v : Word) : (wr k v s).keptPart = s.keptPart := rfl
@[simp] theorem wr_ckCopy (k : BitVec 7) (v : Word) : (wr k v s).ckCopy = s.ckCopy := rfl
@[simp] theorem wr_ckWhole (k : BitVec 7) (v : Word) : (wr k v s).ckWhole = s.ckWhole := rfl
@[simp] theorem wr_iss (k : BitVec 7) (v : Word) : (wr k v s).iss = s.iss := rfl
@[simp] theorem wr_inputs (k : BitVec 7) (v : Word) : (wr k v s).inputs = s.inputs := rfl
@[simp] theorem wr_ctxBase (k : BitVec 7) (v : Word) : (wr k v s).ctxBase = s.ctxBase := rfl
@[simp] theorem wr_stopAt (k : BitVec 7) (v : Word) : (wr k v s).stopAt = s.stopAt := rfl
@[simp] theorem wr_away (k : BitVec 7) (v : Word) : (wr k v s).away = s.away := rfl
@[simp] theorem wr_hostDown (k : BitVec 7) (v : Word) : (wr k v s).hostDown = s.hostDown := rfl
@[simp] theorem wr_banks (k : BitVec 7) (v : Word) : (wr k v s).banks = s.banks := rfl
@[simp] theorem wr_asked (k : BitVec 7) (v : Word) : (wr k v s).asked = s.asked := rfl
@[simp] theorem wr_presented (k : BitVec 7) (v : Word) : (wr k v s).presented = s.presented := rfl
@[simp] theorem wr_replay (k : BitVec 7) (v : Word) : (wr k v s).replay = s.replay := rfl
@[simp] theorem wr_delays (k : BitVec 7) (v : Word) : (wr k v s).delays = s.delays := rfl
@[simp] theorem wr_freeUsed (k : BitVec 7) (v : Word) : (wr k v s).freeUsed = s.freeUsed := rfl

@[simp] theorem advance_others : (advance s).others = s.others := rfl
@[simp] theorem advance_clusters : (advance s).clusters = s.clusters := rfl
@[simp] theorem advance_dies : (advance s).dies = s.dies := rfl
@[simp] theorem advance_tracks : (advance s).tracks = s.tracks := rfl
@[simp] theorem advance_mem : (advance s).mem = s.mem := rfl
@[simp] theorem advance_poison : (advance s).poison = s.poison := rfl
@[simp] theorem advance_clock : (advance s).clock = s.clock := rfl
@[simp] theorem advance_todo : (advance s).todo = s.todo := rfl
@[simp] theorem advance_pkg : (advance s).pkg = s.pkg := rfl
@[simp] theorem advance_ctx : (advance s).ctx = s.ctx := rfl
@[simp] theorem advance_switch : (advance s).switch = s.switch := rfl
@[simp] theorem advance_dieMap : (advance s).dieMap = s.dieMap := rfl
@[simp] theorem advance_kernels : (advance s).kernels = s.kernels := rfl
@[simp] theorem advance_net : (advance s).net = s.net := rfl
@[simp] theorem advance_wakes : (advance s).wakes = s.wakes := rfl
@[simp] theorem advance_pkgBars : (advance s).pkgBars = s.pkgBars := rfl
@[simp] theorem advance_podBars : (advance s).podBars = s.podBars := rfl
@[simp] theorem advance_ctl : (advance s).ctl = s.ctl := rfl
@[simp] theorem advance_taken : (advance s).taken = s.taken := rfl
@[simp] theorem advance_serial : (advance s).serial = s.serial := rfl
@[simp] theorem advance_restripes : (advance s).restripes = s.restripes := rfl
@[simp] theorem advance_memDown : (advance s).memDown = s.memDown := rfl
@[simp] theorem advance_remap : (advance s).remap = s.remap := rfl
@[simp] theorem advance_degraded : (advance s).degraded = s.degraded := rfl
@[simp] theorem advance_conn : (advance s).conn = s.conn := rfl
@[simp] theorem advance_links : (advance s).links = s.links := rfl
@[simp] theorem advance_hostLink : (advance s).hostLink = s.hostLink := rfl
@[simp] theorem advance_fw : (advance s).fw = s.fw := rfl
@[simp] theorem advance_kept : (advance s).kept = s.kept := rfl
@[simp] theorem advance_keptPart : (advance s).keptPart = s.keptPart := rfl
@[simp] theorem advance_ckCopy : (advance s).ckCopy = s.ckCopy := rfl
@[simp] theorem advance_ckWhole : (advance s).ckWhole = s.ckWhole := rfl
@[simp] theorem advance_iss : (advance s).iss = { s.iss with res := .retired } := rfl
@[simp] theorem advance_inputs : (advance s).inputs = s.inputs := rfl
@[simp] theorem advance_ctxBase : (advance s).ctxBase = s.ctxBase := rfl
@[simp] theorem advance_stopAt : (advance s).stopAt = s.stopAt := rfl
@[simp] theorem advance_away : (advance s).away = s.away := rfl
@[simp] theorem advance_hostDown : (advance s).hostDown = s.hostDown := rfl
@[simp] theorem advance_banks : (advance s).banks = s.banks := rfl
@[simp] theorem advance_asked : (advance s).asked = s.asked := rfl
@[simp] theorem advance_presented : (advance s).presented = s.presented := rfl
@[simp] theorem advance_replay : (advance s).replay = s.replay := rfl
@[simp] theorem advance_delays : (advance s).delays = s.delays := rfl
@[simp] theorem advance_freeUsed : (advance s).freeUsed = s.freeUsed := rfl

@[simp] theorem goTo_others (p : Nat) : (goTo p s).others = s.others := rfl
@[simp] theorem goTo_clusters (p : Nat) : (goTo p s).clusters = s.clusters := rfl
@[simp] theorem goTo_dies (p : Nat) : (goTo p s).dies = s.dies := rfl
@[simp] theorem goTo_tracks (p : Nat) : (goTo p s).tracks = s.tracks := rfl
@[simp] theorem goTo_mem (p : Nat) : (goTo p s).mem = s.mem := rfl
@[simp] theorem goTo_poison (p : Nat) : (goTo p s).poison = s.poison := rfl
@[simp] theorem goTo_clock (p : Nat) : (goTo p s).clock = s.clock := rfl
@[simp] theorem goTo_todo (p : Nat) : (goTo p s).todo = s.todo := rfl
@[simp] theorem goTo_pkg (p : Nat) : (goTo p s).pkg = s.pkg := rfl
@[simp] theorem goTo_ctx (p : Nat) : (goTo p s).ctx = s.ctx := rfl
@[simp] theorem goTo_switch (p : Nat) : (goTo p s).switch = s.switch := rfl
@[simp] theorem goTo_dieMap (p : Nat) : (goTo p s).dieMap = s.dieMap := rfl
@[simp] theorem goTo_kernels (p : Nat) : (goTo p s).kernels = s.kernels := rfl
@[simp] theorem goTo_net (p : Nat) : (goTo p s).net = s.net := rfl
@[simp] theorem goTo_wakes (p : Nat) : (goTo p s).wakes = s.wakes := rfl
@[simp] theorem goTo_pkgBars (p : Nat) : (goTo p s).pkgBars = s.pkgBars := rfl
@[simp] theorem goTo_podBars (p : Nat) : (goTo p s).podBars = s.podBars := rfl
@[simp] theorem goTo_ctl (p : Nat) : (goTo p s).ctl = s.ctl := rfl
@[simp] theorem goTo_taken (p : Nat) : (goTo p s).taken = s.taken := rfl
@[simp] theorem goTo_serial (p : Nat) : (goTo p s).serial = s.serial := rfl
@[simp] theorem goTo_restripes (p : Nat) : (goTo p s).restripes = s.restripes := rfl
@[simp] theorem goTo_memDown (p : Nat) : (goTo p s).memDown = s.memDown := rfl
@[simp] theorem goTo_remap (p : Nat) : (goTo p s).remap = s.remap := rfl
@[simp] theorem goTo_degraded (p : Nat) : (goTo p s).degraded = s.degraded := rfl
@[simp] theorem goTo_conn (p : Nat) : (goTo p s).conn = s.conn := rfl
@[simp] theorem goTo_links (p : Nat) : (goTo p s).links = s.links := rfl
@[simp] theorem goTo_hostLink (p : Nat) : (goTo p s).hostLink = s.hostLink := rfl
@[simp] theorem goTo_fw (p : Nat) : (goTo p s).fw = s.fw := rfl
@[simp] theorem goTo_kept (p : Nat) : (goTo p s).kept = s.kept := rfl
@[simp] theorem goTo_keptPart (p : Nat) : (goTo p s).keptPart = s.keptPart := rfl
@[simp] theorem goTo_ckCopy (p : Nat) : (goTo p s).ckCopy = s.ckCopy := rfl
@[simp] theorem goTo_ckWhole (p : Nat) : (goTo p s).ckWhole = s.ckWhole := rfl
@[simp] theorem goTo_iss (p : Nat) : (goTo p s).iss = { s.iss with res := .retired } := rfl
@[simp] theorem goTo_inputs (p : Nat) : (goTo p s).inputs = s.inputs := rfl
@[simp] theorem goTo_ctxBase (p : Nat) : (goTo p s).ctxBase = s.ctxBase := rfl
@[simp] theorem goTo_stopAt (p : Nat) : (goTo p s).stopAt = s.stopAt := rfl
@[simp] theorem goTo_away (p : Nat) : (goTo p s).away = s.away := rfl
@[simp] theorem goTo_hostDown (p : Nat) : (goTo p s).hostDown = s.hostDown := rfl
@[simp] theorem goTo_banks (p : Nat) : (goTo p s).banks = s.banks := rfl
@[simp] theorem goTo_asked (p : Nat) : (goTo p s).asked = s.asked := rfl
@[simp] theorem goTo_presented (p : Nat) : (goTo p s).presented = s.presented := rfl
@[simp] theorem goTo_replay (p : Nat) : (goTo p s).replay = s.replay := rfl
@[simp] theorem goTo_delays (p : Nat) : (goTo p s).delays = s.delays := rfl
@[simp] theorem goTo_freeUsed (p : Nat) : (goTo p s).freeUsed = s.freeUsed := rfl

@[simp] theorem setCluster_me (c : Nat) (v : Cluster) : (setCluster c v s).me = s.me := rfl
@[simp] theorem setCluster_others (c : Nat) (v : Cluster) : (setCluster c v s).others = s.others := rfl
@[simp] theorem setCluster_clusters (c : Nat) (v : Cluster) : (setCluster c v s).clusters = spSet startCluster s.clusters c v := rfl
@[simp] theorem setCluster_dies (c : Nat) (v : Cluster) : (setCluster c v s).dies = s.dies := rfl
@[simp] theorem setCluster_tracks (c : Nat) (v : Cluster) : (setCluster c v s).tracks = s.tracks := rfl
@[simp] theorem setCluster_mem (c : Nat) (v : Cluster) : (setCluster c v s).mem = s.mem := rfl
@[simp] theorem setCluster_poison (c : Nat) (v : Cluster) : (setCluster c v s).poison = s.poison := rfl
@[simp] theorem setCluster_clock (c : Nat) (v : Cluster) : (setCluster c v s).clock = s.clock := rfl
@[simp] theorem setCluster_todo (c : Nat) (v : Cluster) : (setCluster c v s).todo = s.todo := rfl
@[simp] theorem setCluster_pkg (c : Nat) (v : Cluster) : (setCluster c v s).pkg = s.pkg := rfl
@[simp] theorem setCluster_ctx (c : Nat) (v : Cluster) : (setCluster c v s).ctx = s.ctx := rfl
@[simp] theorem setCluster_switch (c : Nat) (v : Cluster) : (setCluster c v s).switch = s.switch := rfl
@[simp] theorem setCluster_dieMap (c : Nat) (v : Cluster) : (setCluster c v s).dieMap = s.dieMap := rfl
@[simp] theorem setCluster_kernels (c : Nat) (v : Cluster) : (setCluster c v s).kernels = s.kernels := rfl
@[simp] theorem setCluster_net (c : Nat) (v : Cluster) : (setCluster c v s).net = s.net := rfl
@[simp] theorem setCluster_wakes (c : Nat) (v : Cluster) : (setCluster c v s).wakes = s.wakes := rfl
@[simp] theorem setCluster_pkgBars (c : Nat) (v : Cluster) : (setCluster c v s).pkgBars = s.pkgBars := rfl
@[simp] theorem setCluster_podBars (c : Nat) (v : Cluster) : (setCluster c v s).podBars = s.podBars := rfl
@[simp] theorem setCluster_ctl (c : Nat) (v : Cluster) : (setCluster c v s).ctl = s.ctl := rfl
@[simp] theorem setCluster_taken (c : Nat) (v : Cluster) : (setCluster c v s).taken = s.taken := rfl
@[simp] theorem setCluster_serial (c : Nat) (v : Cluster) : (setCluster c v s).serial = s.serial := rfl
@[simp] theorem setCluster_restripes (c : Nat) (v : Cluster) : (setCluster c v s).restripes = s.restripes := rfl
@[simp] theorem setCluster_memDown (c : Nat) (v : Cluster) : (setCluster c v s).memDown = s.memDown := rfl
@[simp] theorem setCluster_remap (c : Nat) (v : Cluster) : (setCluster c v s).remap = s.remap := rfl
@[simp] theorem setCluster_degraded (c : Nat) (v : Cluster) : (setCluster c v s).degraded = s.degraded := rfl
@[simp] theorem setCluster_conn (c : Nat) (v : Cluster) : (setCluster c v s).conn = s.conn := rfl
@[simp] theorem setCluster_links (c : Nat) (v : Cluster) : (setCluster c v s).links = s.links := rfl
@[simp] theorem setCluster_hostLink (c : Nat) (v : Cluster) : (setCluster c v s).hostLink = s.hostLink := rfl
@[simp] theorem setCluster_fw (c : Nat) (v : Cluster) : (setCluster c v s).fw = s.fw := rfl
@[simp] theorem setCluster_kept (c : Nat) (v : Cluster) : (setCluster c v s).kept = s.kept := rfl
@[simp] theorem setCluster_keptPart (c : Nat) (v : Cluster) : (setCluster c v s).keptPart = s.keptPart := rfl
@[simp] theorem setCluster_ckCopy (c : Nat) (v : Cluster) : (setCluster c v s).ckCopy = s.ckCopy := rfl
@[simp] theorem setCluster_ckWhole (c : Nat) (v : Cluster) : (setCluster c v s).ckWhole = s.ckWhole := rfl
@[simp] theorem setCluster_iss (c : Nat) (v : Cluster) : (setCluster c v s).iss = s.iss := rfl
@[simp] theorem setCluster_inputs (c : Nat) (v : Cluster) : (setCluster c v s).inputs = s.inputs := rfl
@[simp] theorem setCluster_ctxBase (c : Nat) (v : Cluster) : (setCluster c v s).ctxBase = s.ctxBase := rfl
@[simp] theorem setCluster_stopAt (c : Nat) (v : Cluster) : (setCluster c v s).stopAt = s.stopAt := rfl
@[simp] theorem setCluster_away (c : Nat) (v : Cluster) : (setCluster c v s).away = s.away := rfl
@[simp] theorem setCluster_hostDown (c : Nat) (v : Cluster) : (setCluster c v s).hostDown = s.hostDown := rfl
@[simp] theorem setCluster_banks (c : Nat) (v : Cluster) : (setCluster c v s).banks = s.banks := rfl
@[simp] theorem setCluster_asked (c : Nat) (v : Cluster) : (setCluster c v s).asked = s.asked := rfl
@[simp] theorem setCluster_presented (c : Nat) (v : Cluster) : (setCluster c v s).presented = s.presented := rfl
@[simp] theorem setCluster_replay (c : Nat) (v : Cluster) : (setCluster c v s).replay = s.replay := rfl
@[simp] theorem setCluster_delays (c : Nat) (v : Cluster) : (setCluster c v s).delays = s.delays := rfl
@[simp] theorem setCluster_freeUsed (c : Nat) (v : Cluster) : (setCluster c v s).freeUsed = s.freeUsed := rfl

@[simp] theorem setDie_me (d : Nat) (v : Die) : (setDie d v s).me = s.me := rfl
@[simp] theorem setDie_others (d : Nat) (v : Die) : (setDie d v s).others = s.others := rfl
@[simp] theorem setDie_clusters (d : Nat) (v : Die) : (setDie d v s).clusters = s.clusters := rfl
@[simp] theorem setDie_dies (d : Nat) (v : Die) : (setDie d v s).dies = spSet startDie s.dies d v := rfl
@[simp] theorem setDie_tracks (d : Nat) (v : Die) : (setDie d v s).tracks = s.tracks := rfl
@[simp] theorem setDie_mem (d : Nat) (v : Die) : (setDie d v s).mem = s.mem := rfl
@[simp] theorem setDie_poison (d : Nat) (v : Die) : (setDie d v s).poison = s.poison := rfl
@[simp] theorem setDie_clock (d : Nat) (v : Die) : (setDie d v s).clock = s.clock := rfl
@[simp] theorem setDie_todo (d : Nat) (v : Die) : (setDie d v s).todo = s.todo := rfl
@[simp] theorem setDie_pkg (d : Nat) (v : Die) : (setDie d v s).pkg = s.pkg := rfl
@[simp] theorem setDie_ctx (d : Nat) (v : Die) : (setDie d v s).ctx = s.ctx := rfl
@[simp] theorem setDie_switch (d : Nat) (v : Die) : (setDie d v s).switch = s.switch := rfl
@[simp] theorem setDie_dieMap (d : Nat) (v : Die) : (setDie d v s).dieMap = s.dieMap := rfl
@[simp] theorem setDie_kernels (d : Nat) (v : Die) : (setDie d v s).kernels = s.kernels := rfl
@[simp] theorem setDie_net (d : Nat) (v : Die) : (setDie d v s).net = s.net := rfl
@[simp] theorem setDie_wakes (d : Nat) (v : Die) : (setDie d v s).wakes = s.wakes := rfl
@[simp] theorem setDie_pkgBars (d : Nat) (v : Die) : (setDie d v s).pkgBars = s.pkgBars := rfl
@[simp] theorem setDie_podBars (d : Nat) (v : Die) : (setDie d v s).podBars = s.podBars := rfl
@[simp] theorem setDie_ctl (d : Nat) (v : Die) : (setDie d v s).ctl = s.ctl := rfl
@[simp] theorem setDie_taken (d : Nat) (v : Die) : (setDie d v s).taken = s.taken := rfl
@[simp] theorem setDie_serial (d : Nat) (v : Die) : (setDie d v s).serial = s.serial := rfl
@[simp] theorem setDie_restripes (d : Nat) (v : Die) : (setDie d v s).restripes = s.restripes := rfl
@[simp] theorem setDie_memDown (d : Nat) (v : Die) : (setDie d v s).memDown = s.memDown := rfl
@[simp] theorem setDie_remap (d : Nat) (v : Die) : (setDie d v s).remap = s.remap := rfl
@[simp] theorem setDie_degraded (d : Nat) (v : Die) : (setDie d v s).degraded = s.degraded := rfl
@[simp] theorem setDie_conn (d : Nat) (v : Die) : (setDie d v s).conn = s.conn := rfl
@[simp] theorem setDie_links (d : Nat) (v : Die) : (setDie d v s).links = s.links := rfl
@[simp] theorem setDie_hostLink (d : Nat) (v : Die) : (setDie d v s).hostLink = s.hostLink := rfl
@[simp] theorem setDie_fw (d : Nat) (v : Die) : (setDie d v s).fw = s.fw := rfl
@[simp] theorem setDie_kept (d : Nat) (v : Die) : (setDie d v s).kept = s.kept := rfl
@[simp] theorem setDie_keptPart (d : Nat) (v : Die) : (setDie d v s).keptPart = s.keptPart := rfl
@[simp] theorem setDie_ckCopy (d : Nat) (v : Die) : (setDie d v s).ckCopy = s.ckCopy := rfl
@[simp] theorem setDie_ckWhole (d : Nat) (v : Die) : (setDie d v s).ckWhole = s.ckWhole := rfl
@[simp] theorem setDie_iss (d : Nat) (v : Die) : (setDie d v s).iss = s.iss := rfl
@[simp] theorem setDie_inputs (d : Nat) (v : Die) : (setDie d v s).inputs = s.inputs := rfl
@[simp] theorem setDie_ctxBase (d : Nat) (v : Die) : (setDie d v s).ctxBase = s.ctxBase := rfl
@[simp] theorem setDie_stopAt (d : Nat) (v : Die) : (setDie d v s).stopAt = s.stopAt := rfl
@[simp] theorem setDie_away (d : Nat) (v : Die) : (setDie d v s).away = s.away := rfl
@[simp] theorem setDie_hostDown (d : Nat) (v : Die) : (setDie d v s).hostDown = s.hostDown := rfl
@[simp] theorem setDie_banks (d : Nat) (v : Die) : (setDie d v s).banks = s.banks := rfl
@[simp] theorem setDie_asked (d : Nat) (v : Die) : (setDie d v s).asked = s.asked := rfl
@[simp] theorem setDie_presented (d : Nat) (v : Die) : (setDie d v s).presented = s.presented := rfl
@[simp] theorem setDie_replay (d : Nat) (v : Die) : (setDie d v s).replay = s.replay := rfl
@[simp] theorem setDie_delays (d : Nat) (v : Die) : (setDie d v s).delays = s.delays := rfl
@[simp] theorem setDie_freeUsed (d : Nat) (v : Die) : (setDie d v s).freeUsed = s.freeUsed := rfl

@[simp] theorem wake_me (p : ParkWhy → Bool) : (wake p s).me = wakeCore s.clock p s.me := rfl
@[simp] theorem wake_others (p : ParkWhy → Bool) : (wake p s).others = s.others := rfl
@[simp] theorem wake_clusters (p : ParkWhy → Bool) : (wake p s).clusters = s.clusters := rfl
@[simp] theorem wake_dies (p : ParkWhy → Bool) : (wake p s).dies = s.dies := rfl
@[simp] theorem wake_tracks (p : ParkWhy → Bool) : (wake p s).tracks = s.tracks := rfl
@[simp] theorem wake_mem (p : ParkWhy → Bool) : (wake p s).mem = s.mem := rfl
@[simp] theorem wake_poison (p : ParkWhy → Bool) : (wake p s).poison = s.poison := rfl
@[simp] theorem wake_clock (p : ParkWhy → Bool) : (wake p s).clock = s.clock := rfl
@[simp] theorem wake_todo (p : ParkWhy → Bool) : (wake p s).todo = s.todo := rfl
@[simp] theorem wake_pkg (p : ParkWhy → Bool) : (wake p s).pkg = s.pkg := rfl
@[simp] theorem wake_ctx (p : ParkWhy → Bool) : (wake p s).ctx = s.ctx := rfl
@[simp] theorem wake_switch (p : ParkWhy → Bool) : (wake p s).switch = s.switch := rfl
@[simp] theorem wake_dieMap (p : ParkWhy → Bool) : (wake p s).dieMap = s.dieMap := rfl
@[simp] theorem wake_kernels (p : ParkWhy → Bool) : (wake p s).kernels = s.kernels := rfl
@[simp] theorem wake_net (p : ParkWhy → Bool) : (wake p s).net = s.net := rfl
@[simp] theorem wake_wakes (p : ParkWhy → Bool) : (wake p s).wakes = s.wakes := rfl
@[simp] theorem wake_pkgBars (p : ParkWhy → Bool) : (wake p s).pkgBars = s.pkgBars := rfl
@[simp] theorem wake_podBars (p : ParkWhy → Bool) : (wake p s).podBars = s.podBars := rfl
@[simp] theorem wake_ctl (p : ParkWhy → Bool) : (wake p s).ctl = s.ctl := rfl
@[simp] theorem wake_taken (p : ParkWhy → Bool) : (wake p s).taken = s.taken := rfl
@[simp] theorem wake_serial (p : ParkWhy → Bool) : (wake p s).serial = s.serial := rfl
@[simp] theorem wake_restripes (p : ParkWhy → Bool) : (wake p s).restripes = s.restripes := rfl
@[simp] theorem wake_memDown (p : ParkWhy → Bool) : (wake p s).memDown = s.memDown := rfl
@[simp] theorem wake_remap (p : ParkWhy → Bool) : (wake p s).remap = s.remap := rfl
@[simp] theorem wake_degraded (p : ParkWhy → Bool) : (wake p s).degraded = s.degraded := rfl
@[simp] theorem wake_conn (p : ParkWhy → Bool) : (wake p s).conn = s.conn := rfl
@[simp] theorem wake_links (p : ParkWhy → Bool) : (wake p s).links = s.links := rfl
@[simp] theorem wake_hostLink (p : ParkWhy → Bool) : (wake p s).hostLink = s.hostLink := rfl
@[simp] theorem wake_fw (p : ParkWhy → Bool) : (wake p s).fw = s.fw := rfl
@[simp] theorem wake_kept (p : ParkWhy → Bool) : (wake p s).kept = s.kept := rfl
@[simp] theorem wake_keptPart (p : ParkWhy → Bool) : (wake p s).keptPart = s.keptPart := rfl
@[simp] theorem wake_ckCopy (p : ParkWhy → Bool) : (wake p s).ckCopy = s.ckCopy := rfl
@[simp] theorem wake_ckWhole (p : ParkWhy → Bool) : (wake p s).ckWhole = s.ckWhole := rfl
@[simp] theorem wake_iss (p : ParkWhy → Bool) : (wake p s).iss = s.iss := rfl
@[simp] theorem wake_inputs (p : ParkWhy → Bool) : (wake p s).inputs = s.inputs := rfl
@[simp] theorem wake_ctxBase (p : ParkWhy → Bool) : (wake p s).ctxBase = s.ctxBase := rfl
@[simp] theorem wake_stopAt (p : ParkWhy → Bool) : (wake p s).stopAt = s.stopAt := rfl
@[simp] theorem wake_away (p : ParkWhy → Bool) : (wake p s).away = s.away := rfl
@[simp] theorem wake_hostDown (p : ParkWhy → Bool) : (wake p s).hostDown = s.hostDown := rfl
@[simp] theorem wake_banks (p : ParkWhy → Bool) : (wake p s).banks = s.banks := rfl
@[simp] theorem wake_asked (p : ParkWhy → Bool) : (wake p s).asked = s.asked := rfl
@[simp] theorem wake_presented (p : ParkWhy → Bool) : (wake p s).presented = s.presented := rfl
@[simp] theorem wake_replay (p : ParkWhy → Bool) : (wake p s).replay = s.replay := rfl
@[simp] theorem wake_delays (p : ParkWhy → Bool) : (wake p s).delays = s.delays := rfl
@[simp] theorem wake_freeUsed (p : ParkWhy → Bool) : (wake p s).freeUsed = s.freeUsed := rfl

@[simp] theorem hPut_me (h : Nat) (v : Handle) : (hPut h v s).me = { s.me with handles := spSet freeHandle s.me.handles h v } := rfl
@[simp] theorem hPut_others (h : Nat) (v : Handle) : (hPut h v s).others = s.others := rfl
@[simp] theorem hPut_clusters (h : Nat) (v : Handle) : (hPut h v s).clusters = s.clusters := rfl
@[simp] theorem hPut_dies (h : Nat) (v : Handle) : (hPut h v s).dies = s.dies := rfl
@[simp] theorem hPut_tracks (h : Nat) (v : Handle) : (hPut h v s).tracks = s.tracks := rfl
@[simp] theorem hPut_mem (h : Nat) (v : Handle) : (hPut h v s).mem = s.mem := rfl
@[simp] theorem hPut_poison (h : Nat) (v : Handle) : (hPut h v s).poison = s.poison := rfl
@[simp] theorem hPut_clock (h : Nat) (v : Handle) : (hPut h v s).clock = s.clock := rfl
@[simp] theorem hPut_todo (h : Nat) (v : Handle) : (hPut h v s).todo = s.todo := rfl
@[simp] theorem hPut_pkg (h : Nat) (v : Handle) : (hPut h v s).pkg = s.pkg := rfl
@[simp] theorem hPut_ctx (h : Nat) (v : Handle) : (hPut h v s).ctx = s.ctx := rfl
@[simp] theorem hPut_switch (h : Nat) (v : Handle) : (hPut h v s).switch = s.switch := rfl
@[simp] theorem hPut_dieMap (h : Nat) (v : Handle) : (hPut h v s).dieMap = s.dieMap := rfl
@[simp] theorem hPut_kernels (h : Nat) (v : Handle) : (hPut h v s).kernels = s.kernels := rfl
@[simp] theorem hPut_net (h : Nat) (v : Handle) : (hPut h v s).net = s.net := rfl
@[simp] theorem hPut_wakes (h : Nat) (v : Handle) : (hPut h v s).wakes = s.wakes := rfl
@[simp] theorem hPut_pkgBars (h : Nat) (v : Handle) : (hPut h v s).pkgBars = s.pkgBars := rfl
@[simp] theorem hPut_podBars (h : Nat) (v : Handle) : (hPut h v s).podBars = s.podBars := rfl
@[simp] theorem hPut_ctl (h : Nat) (v : Handle) : (hPut h v s).ctl = s.ctl := rfl
@[simp] theorem hPut_taken (h : Nat) (v : Handle) : (hPut h v s).taken = s.taken := rfl
@[simp] theorem hPut_serial (h : Nat) (v : Handle) : (hPut h v s).serial = s.serial := rfl
@[simp] theorem hPut_restripes (h : Nat) (v : Handle) : (hPut h v s).restripes = s.restripes := rfl
@[simp] theorem hPut_memDown (h : Nat) (v : Handle) : (hPut h v s).memDown = s.memDown := rfl
@[simp] theorem hPut_remap (h : Nat) (v : Handle) : (hPut h v s).remap = s.remap := rfl
@[simp] theorem hPut_degraded (h : Nat) (v : Handle) : (hPut h v s).degraded = s.degraded := rfl
@[simp] theorem hPut_conn (h : Nat) (v : Handle) : (hPut h v s).conn = s.conn := rfl
@[simp] theorem hPut_links (h : Nat) (v : Handle) : (hPut h v s).links = s.links := rfl
@[simp] theorem hPut_hostLink (h : Nat) (v : Handle) : (hPut h v s).hostLink = s.hostLink := rfl
@[simp] theorem hPut_fw (h : Nat) (v : Handle) : (hPut h v s).fw = s.fw := rfl
@[simp] theorem hPut_kept (h : Nat) (v : Handle) : (hPut h v s).kept = s.kept := rfl
@[simp] theorem hPut_keptPart (h : Nat) (v : Handle) : (hPut h v s).keptPart = s.keptPart := rfl
@[simp] theorem hPut_ckCopy (h : Nat) (v : Handle) : (hPut h v s).ckCopy = s.ckCopy := rfl
@[simp] theorem hPut_ckWhole (h : Nat) (v : Handle) : (hPut h v s).ckWhole = s.ckWhole := rfl
@[simp] theorem hPut_iss (h : Nat) (v : Handle) : (hPut h v s).iss = s.iss := rfl
@[simp] theorem hPut_inputs (h : Nat) (v : Handle) : (hPut h v s).inputs = s.inputs := rfl
@[simp] theorem hPut_ctxBase (h : Nat) (v : Handle) : (hPut h v s).ctxBase = s.ctxBase := rfl
@[simp] theorem hPut_stopAt (h : Nat) (v : Handle) : (hPut h v s).stopAt = s.stopAt := rfl
@[simp] theorem hPut_away (h : Nat) (v : Handle) : (hPut h v s).away = s.away := rfl
@[simp] theorem hPut_hostDown (h : Nat) (v : Handle) : (hPut h v s).hostDown = s.hostDown := rfl
@[simp] theorem hPut_banks (h : Nat) (v : Handle) : (hPut h v s).banks = s.banks := rfl
@[simp] theorem hPut_asked (h : Nat) (v : Handle) : (hPut h v s).asked = s.asked := rfl
@[simp] theorem hPut_presented (h : Nat) (v : Handle) : (hPut h v s).presented = s.presented := rfl
@[simp] theorem hPut_replay (h : Nat) (v : Handle) : (hPut h v s).replay = s.replay := rfl
@[simp] theorem hPut_delays (h : Nat) (v : Handle) : (hPut h v s).delays = s.delays := rfl
@[simp] theorem hPut_freeUsed (h : Nat) (v : Handle) : (hPut h v s).freeUsed = s.freeUsed := rfl

@[simp] theorem hSet_others (h : Nat) (v : Handle) : (hSet h v s).others = s.others := rfl
@[simp] theorem hSet_clusters (h : Nat) (v : Handle) : (hSet h v s).clusters = s.clusters := rfl
@[simp] theorem hSet_dies (h : Nat) (v : Handle) : (hSet h v s).dies = s.dies := rfl
@[simp] theorem hSet_tracks (h : Nat) (v : Handle) : (hSet h v s).tracks = s.tracks := rfl
@[simp] theorem hSet_mem (h : Nat) (v : Handle) : (hSet h v s).mem = s.mem := rfl
@[simp] theorem hSet_poison (h : Nat) (v : Handle) : (hSet h v s).poison = s.poison := rfl
@[simp] theorem hSet_clock (h : Nat) (v : Handle) : (hSet h v s).clock = s.clock := rfl
@[simp] theorem hSet_todo (h : Nat) (v : Handle) : (hSet h v s).todo = s.todo := rfl
@[simp] theorem hSet_pkg (h : Nat) (v : Handle) : (hSet h v s).pkg = s.pkg := rfl
@[simp] theorem hSet_ctx (h : Nat) (v : Handle) : (hSet h v s).ctx = s.ctx := rfl
@[simp] theorem hSet_switch (h : Nat) (v : Handle) : (hSet h v s).switch = s.switch := rfl
@[simp] theorem hSet_dieMap (h : Nat) (v : Handle) : (hSet h v s).dieMap = s.dieMap := rfl
@[simp] theorem hSet_kernels (h : Nat) (v : Handle) : (hSet h v s).kernels = s.kernels := rfl
@[simp] theorem hSet_net (h : Nat) (v : Handle) : (hSet h v s).net = s.net := rfl
@[simp] theorem hSet_wakes (h : Nat) (v : Handle) : (hSet h v s).wakes = s.wakes := rfl
@[simp] theorem hSet_pkgBars (h : Nat) (v : Handle) : (hSet h v s).pkgBars = s.pkgBars := rfl
@[simp] theorem hSet_podBars (h : Nat) (v : Handle) : (hSet h v s).podBars = s.podBars := rfl
@[simp] theorem hSet_ctl (h : Nat) (v : Handle) : (hSet h v s).ctl = s.ctl := rfl
@[simp] theorem hSet_taken (h : Nat) (v : Handle) : (hSet h v s).taken = s.taken := rfl
@[simp] theorem hSet_serial (h : Nat) (v : Handle) : (hSet h v s).serial = s.serial := rfl
@[simp] theorem hSet_restripes (h : Nat) (v : Handle) : (hSet h v s).restripes = s.restripes := rfl
@[simp] theorem hSet_memDown (h : Nat) (v : Handle) : (hSet h v s).memDown = s.memDown := rfl
@[simp] theorem hSet_remap (h : Nat) (v : Handle) : (hSet h v s).remap = s.remap := rfl
@[simp] theorem hSet_degraded (h : Nat) (v : Handle) : (hSet h v s).degraded = s.degraded := rfl
@[simp] theorem hSet_conn (h : Nat) (v : Handle) : (hSet h v s).conn = s.conn := rfl
@[simp] theorem hSet_links (h : Nat) (v : Handle) : (hSet h v s).links = s.links := rfl
@[simp] theorem hSet_hostLink (h : Nat) (v : Handle) : (hSet h v s).hostLink = s.hostLink := rfl
@[simp] theorem hSet_fw (h : Nat) (v : Handle) : (hSet h v s).fw = s.fw := rfl
@[simp] theorem hSet_kept (h : Nat) (v : Handle) : (hSet h v s).kept = s.kept := rfl
@[simp] theorem hSet_keptPart (h : Nat) (v : Handle) : (hSet h v s).keptPart = s.keptPart := rfl
@[simp] theorem hSet_ckCopy (h : Nat) (v : Handle) : (hSet h v s).ckCopy = s.ckCopy := rfl
@[simp] theorem hSet_ckWhole (h : Nat) (v : Handle) : (hSet h v s).ckWhole = s.ckWhole := rfl
@[simp] theorem hSet_iss (h : Nat) (v : Handle) : (hSet h v s).iss = s.iss := rfl
@[simp] theorem hSet_inputs (h : Nat) (v : Handle) : (hSet h v s).inputs = s.inputs := rfl
@[simp] theorem hSet_ctxBase (h : Nat) (v : Handle) : (hSet h v s).ctxBase = s.ctxBase := rfl
@[simp] theorem hSet_stopAt (h : Nat) (v : Handle) : (hSet h v s).stopAt = s.stopAt := rfl
@[simp] theorem hSet_away (h : Nat) (v : Handle) : (hSet h v s).away = s.away := rfl
@[simp] theorem hSet_hostDown (h : Nat) (v : Handle) : (hSet h v s).hostDown = s.hostDown := rfl
@[simp] theorem hSet_banks (h : Nat) (v : Handle) : (hSet h v s).banks = s.banks := rfl
@[simp] theorem hSet_asked (h : Nat) (v : Handle) : (hSet h v s).asked = s.asked := rfl
@[simp] theorem hSet_presented (h : Nat) (v : Handle) : (hSet h v s).presented = s.presented := rfl
@[simp] theorem hSet_replay (h : Nat) (v : Handle) : (hSet h v s).replay = s.replay := rfl
@[simp] theorem hSet_delays (h : Nat) (v : Handle) : (hSet h v s).delays = s.delays := rfl
@[simp] theorem hSet_freeUsed (h : Nat) (v : Handle) : (hSet h v s).freeUsed = s.freeUsed := rfl

end Fields
/-! ## Slots -/

@[simp] theorem slotOf_setSlot_same (k : Nat) (v : Slot) (s : State) : slotOf (setSlot k v s) k = v := by
  simp [slotOf]

theorem slotOf_setSlot_other (k j : Nat) (v : Slot) (s : State) (h : j ≠ k) :
    slotOf (setSlot k v s) j = slotOf s j := by
  simp [slotOf, spGet_set_other _ _ _ _ _ h]

@[simp] theorem slotOf_setRes (r : Res) (s : State) (k : Nat) : slotOf (setRes r s) k = slotOf s k := rfl
@[simp] theorem cur_setRes (r : Res) (s : State) : cur (setRes r s) = cur s := rfl

@[simp] theorem cur_onCur (f : Slot → Slot) (s : State) : cur (onCur f s) = f (cur s) := by
  simp [cur, slotOf]

theorem slotOf_onCur_other (f : Slot → Slot) (s : State) (k : Nat) (h : k ≠ s.iss.slot) :
    slotOf (onCur f s) k = slotOf s k := by
  simp [slotOf, spGet_set_other _ _ _ _ _ h]

@[simp] theorem slotOf_wrSlot (sl k : Nat) (v : Word) (s : State) (j : Nat) : slotOf (wrSlot sl k v s) j = slotOf s j := rfl
@[simp] theorem slotOf_wrN (k : Nat) (v : Word) (s : State) (j : Nat) : slotOf (wrN k v s) j = slotOf s j := rfl
@[simp] theorem slotOf_wr (k : BitVec 7) (v : Word) (s : State) (j : Nat) : slotOf (wr k v s) j = slotOf s j := rfl
@[simp] theorem cur_wrN (k : Nat) (v : Word) (s : State) : cur (wrN k v s) = cur s := rfl
@[simp] theorem cur_wr (k : BitVec 7) (v : Word) (s : State) : cur (wr k v s) = cur s := rfl

/-- A retiring word moves its own slot's place and no other slot. -/
theorem slotOf_advance_other (s : State) (k : Nat) (h : k ≠ s.iss.slot) : slotOf (advance s) k = slotOf s k := by
  simp [advance, slotOf_onCur_other _ _ _ h]

/-- Where the program stands after a word has retired. -/
theorem cur_advance (s : State) :
    cur (advance s) = { cur s with pa := (nextPos s.iss (cur s)).1, widx := (nextPos s.iss (cur s)).2 } := by
  simp [advance]

@[simp] theorem advance_pool (s : State) : (advance s).me.pool = s.me.pool := rfl
@[simp] theorem advance_num (s : State) : (advance s).me.num = s.me.num := rfl
@[simp] theorem advance_handles (s : State) : (advance s).me.handles = s.me.handles := rfl
@[simp] theorem advance_mbox (s : State) : (advance s).me.mbox = s.me.mbox := rfl
@[simp] theorem hSet_handles (h : Nat) (v : Handle) (s : State) :
    (hSet h v s).me.handles = spSet freeHandle s.me.handles h v := rfl
@[simp] theorem hSet_pool (h : Nat) (v : Handle) (s : State) : (hSet h v s).me.pool = s.me.pool := rfl
@[simp] theorem wake_pool (p : ParkWhy → Bool) (s : State) : (wake p s).me.pool = s.me.pool := rfl

/-! ## Window registers -/

/-- A window register read back after a write of it. -/
@[simp] theorem regAt_wrSlot_same (sl k : Nat) (v : Word) (s : State) : spGet 0 (wrSlot sl k v s).me.pool ((slotOf s sl).winBase + k) = v := by
  simp

/-- A write of one window register leaves every other pool word alone. -/
theorem pool_wrSlot_other (sl k j : Nat) (v : Word) (s : State) (h : j ≠ (slotOf s sl).winBase + k) :
    spGet 0 (wrSlot sl k v s).me.pool j = spGet 0 s.me.pool j := by
  simp [spGet_set_other _ _ _ _ _ h]

/-! ## Handles -/

@[simp] theorem hGet_hSet_same (h : Nat) (v : Handle) (s : State) : hGet (hSet h v s) h = v := by
  simp [hGet]

theorem hGet_hSet_other (h j : Nat) (v : Handle) (s : State) (hj : j ≠ h) : hGet (hSet h v s) j = hGet s j := by
  simp [hGet, spGet_set_other _ _ _ _ _ hj]

@[simp] theorem hGet_hPut_same (h : Nat) (v : Handle) (s : State) : hGet (hPut h v s) h = v := by
  simp [hGet]

theorem hGet_hPut_other (h j : Nat) (v : Handle) (s : State) (hj : j ≠ h) : hGet (hPut h v s) j = hGet s j := by
  simp [hGet, spGet_set_other _ _ _ _ _ hj]

/-! ## Wakes -/

/-- What a wake makes of one slot: a parked slot whose cause p accepts is RUNNABLE, and any other slot is as it was. -/
def woken (now : Nat) (p : ParkWhy → Bool) (c : Slot) : Slot :=
  match c.st with
  | .parked w => if p w then wakeSlot now c else c
  | _ => c

/-- A core's wake, slot by slot. -/
theorem wakeCore_slots (now : Nat) (p : ParkWhy → Bool) (m : Core) :
    (wakeCore now p m).slots = m.slots.map fun e => (e.1, woken now p e.2) := by
  simp only [wakeCore]
  congr 1
  funext e
  obtain ⟨k, c⟩ := e
  cases hc : c.st <;> simp [woken, hc]
  split <;> rfl

/-- A wake, slot by slot. -/
theorem slotOf_wake (p : ParkWhy → Bool) (s : State) (k : Nat) :
    slotOf (wake p s) k = woken s.clock p (slotOf s k) := by
  simp [slotOf, wakeCore_slots, spGet_mapVal emptySlot (woken s.clock p) rfl]

/-- The core acting after a wake of the package's slots, slot by slot. -/
theorem slotOf_wakeAll (p : ParkWhy → Bool) (s : State) (k : Nat) :
    slotOf (wakeAll p s) k = woken s.clock p (slotOf s k) := slotOf_wake p s k

/-- The core acting after a wake of the slots of some cores, slot by slot. -/
theorem slotOf_wakeIn (at_ : Nat → Bool) (p : ParkWhy → Bool) (s : State) (k : Nat) :
    slotOf (wakeIn at_ p s) k = if at_ s.me.num then woken s.clock p (slotOf s k) else slotOf s k := by
  by_cases h : at_ s.me.num
  · simpa [wakeIn, wake, slotOf, h] using slotOf_wake p s k
  · simp [wakeIn, slotOf, h]

/-- A slot that is not parked is not woken. -/
theorem woken_of_not_parked (now : Nat) (p : ParkWhy → Bool) (c : Slot) (h : ∀ w, c.st ≠ .parked w) :
    woken now p c = c := by
  cases hc : c.st <;> simp [woken, hc]
  exact absurd hc (h _)

/-- A wake moves no slot's place, window, privilege or trap registers. -/
@[simp] theorem woken_pa (now : Nat) (p : ParkWhy → Bool) (c : Slot) : (woken now p c).pa = c.pa := by
  unfold woken wakeSlot; split <;> (try split) <;> rfl
@[simp] theorem woken_widx (now : Nat) (p : ParkWhy → Bool) (c : Slot) : (woken now p c).widx = c.widx := by
  unfold woken wakeSlot; split <;> (try split) <;> rfl
@[simp] theorem woken_winBase (now : Nat) (p : ParkWhy → Bool) (c : Slot) : (woken now p c).winBase = c.winBase := by
  unfold woken wakeSlot; split <;> (try split) <;> rfl
@[simp] theorem woken_winSize (now : Nat) (p : ParkWhy → Bool) (c : Slot) : (woken now p c).winSize = c.winSize := by
  unfold woken wakeSlot; split <;> (try split) <;> rfl
@[simp] theorem woken_prv (now : Nat) (p : ParkWhy → Bool) (c : Slot) : (woken now p c).prv = c.prv := by
  unfold woken wakeSlot; split <;> (try split) <;> rfl
@[simp] theorem woken_tvec (now : Nat) (p : ParkWhy → Bool) (c : Slot) : (woken now p c).tvec = c.tvec := by
  unfold woken wakeSlot; split <;> (try split) <;> rfl
@[simp] theorem woken_thread (now : Nat) (p : ParkWhy → Bool) (c : Slot) : (woken now p c).thread = c.thread := by
  unfold woken wakeSlot; split <;> (try split) <;> rfl

/-! ## Flits (R295, R296) -/

/-- A flit that carries the tag of its link verifies. -/
theorem flitVerified_own (l : Link) (port : Nat) (f : Flit) : flitVerified l port { f with tag := flitTag l port f } = true := by
  simp [flitVerified, flitTag, flitNonce, flitHead]

/-- A flit that carries another tag does not. -/
theorem flitVerified_other (l : Link) (port : Nat) (f : Flit) :
    flitVerified l port { f with tag := flitTag l port f + 1 } = false := by
  simp only [flitVerified, flitTag, flitNonce, flitHead, beq_eq_false_iff_ne]
  intro h
  exact absurd (BitVec.add_right_eq_self.1 h) (by decide)

/-- What a package seals under a link's key verifies under it at the other end. -/
theorem flitVerified_sealed (l : Link) (port draw : Nat) (f : Flit) : flitVerified l port (sealed l port draw f) = true := by
  simp [sealed, flitVerified, flitTag, flitNonce, flitHead]

end Sys2Proof.Laws
end

