-- ==== Sys2Proof/Laws/Enter.lean ====
section
/-!
SUPPORT. What the checks before a word's own effect can do (R25, R32, R48, R49, R128), and what a trap, a wait, a park and
a retirement do, each said once.
-/

namespace Sys2Proof.Laws

open Sys2Proof.Machine

/-- A word that is ready runs its own effect. -/
theorem enter_of_ready (u : Uses) (s : State) (k : State → Out State) (h : Ready u s) : enter u s k = k s := by
  obtain ⟨h1, h2, h3⟩ := h
  cases hp : (cur s).prv <;> simp [enter, enterWith, h1, h2, h3, hp]

/-- A privileged word that is ready runs its own effect for a thread with privilege. -/
theorem enterWith_of_ready_prv (u : Uses) (s : State) (w : Option Word) (k : State → Out State) (h : Ready u s)
    (hp : (cur s).prv = true) : enterWith u w false s k = k s := by
  obtain ⟨h1, h2, h3⟩ := h
  simp [enterWith, h1, h2, h3, hp]

/-- A privileged word that is in bounds traps PRIV for a thread without privilege. -/
theorem enterWith_priv (u : Uses) (s : State) (w : Word) (r : Bool) (k : State → Out State) (h1 : awaited s u = [])
    (h2 : boundsFault s u.names = none) (hp : (cur s).prv = false) :
    enterWith u (some w) r s k = .next (takeTrap cPriv w s) := by
  simp [enterWith, h1, h2, hp, trap]

/-- A reporting word that names no register, in a slot without a mark, runs its own effect. -/
theorem enterReporting_of_unmarked (s : State) (k : State → Out State) (h : Unmarked s) :
    enterReporting ⟨[], []⟩ s k = k s := by
  have h0 : (cur s).poisoned = [] := h
  cases hp : (cur s).prv <;>
    simp [enterReporting, enterWith, awaited, namedRegs, boundsFault, poisonMark, h0, hp]

/-- Everything the checks can do: the word waits for registers, traps REG_BOUNDS, PRIV or POISON, or runs. -/
theorem enterWith_cases (u : Uses) (w : Option Word) (r : Bool) (s : State) (k : State → Out State) :
    enterWith u w r s k = waitFor (.regs (awaited s u)) s ∨
    (∃ v, boundsFault s u.names = some v ∧ enterWith u w r s k = trap cRegBounds v s) ∨
    (∃ v, w = some v ∧ (cur s).prv = false ∧ enterWith u w r s k = trap cPriv v s) ∨
    (∃ p, poisonMark s u r = some p ∧ enterWith u w r s k = trapPoison p s) ∨
    (awaited s u = [] ∧ boundsFault s u.names = none ∧ poisonMark s u r = none ∧ enterWith u w r s k = k s) := by
  by_cases h1 : awaited s u = []
  · cases h2 : boundsFault s u.names with
    | some v => exact .inr (.inl ⟨v, rfl, by simp [enterWith, h1, h2]⟩)
    | none =>
      by_cases hq : (∃ v, w = some v) ∧ (cur s).prv = false
      · obtain ⟨⟨v, rfl⟩, hp⟩ := hq
        exact .inr (.inr (.inl ⟨v, rfl, hp, by simp [enterWith, h1, h2, hp]⟩))
      · have hw : (if (cur s).prv = true then none else w) = none := by
          cases hp : (cur s).prv <;> cases w <;> simp_all
        cases h3 : poisonMark s u r with
        | some p => exact .inr (.inr (.inr (.inl ⟨p, rfl, by simp [enterWith, h1, h2, h3, hw]⟩)))
        | none => exact .inr (.inr (.inr (.inr ⟨h1, rfl, rfl, by simp [enterWith, h1, h2, h3, hw]⟩)))
  · exact .inl (by simp [enterWith, h1])

/-! ## A word that names fewer registers is ready too -/

theorem awaited_subset (s : State) (u v : Uses) (hn : u.names ⊆ v.names) (h : awaited s v = []) : awaited s u = [] := by
  simp only [awaited, namedRegs, List.filter_eq_nil_iff, List.mem_flatMap] at *
  rintro k ⟨x, hx, hk⟩
  exact h k ⟨x, hn hx, hk⟩

theorem boundsFault_subset (s : State) (l m : List RegUse) (hn : l ⊆ m) (h : boundsFault s m = none) :
    boundsFault s l = none := by
  simp only [boundsFault, List.findSome?_eq_none_iff] at *
  exact fun x hx => h x (hn hx)

theorem poisonMark_subset (s : State) (u v : Uses) (hn : u.names ⊆ v.names) (h : poisonMark s v false = none) :
    poisonMark s u false = none := by
  simp only [poisonMark, List.find?_eq_none, Bool.false_or, List.any_eq_true, not_exists, not_and] at *
  intro p hp k hk hc
  refine h p hp k hk ?_
  simp only [namedRegs, List.contains_iff_mem, List.mem_flatMap] at *
  obtain ⟨x, hx, hk⟩ := hc
  exact ⟨x, hn hx, hk⟩

/-- A word that names some of the registers of a ready word is ready. -/
theorem ready_mono (u v : Uses) (s : State) (hn : u.names ⊆ v.names) (h : Ready v s) : Ready u s :=
  ⟨awaited_subset s u v hn h.1, boundsFault_subset s _ _ hn h.2.1, poisonMark_subset s u v hn h.2.2⟩

/-! ## Traps -/

/-- Taking a trap with a handler (R124, R125): the trap registers, and the handler's pair; nothing else changes. -/
theorem takeTrap_handler (cause : BitVec 5) (v : Word) (s : State) (h : (cur s).tvec ≠ 0) :
    takeTrap cause v s = onCur (fun c => { c with pa := c.tvec.toNat * 8, widx := 0 })
      (setRes .trapped (onCur (trapRegs s.iss cause v) s)) := by
  have : ¬((trapRegs s.iss cause v (cur s)).tvec = 0) := h
  unfold takeTrap
  have hc : cur (setRes .trapped (onCur (trapRegs s.iss cause v) s)) = trapRegs s.iss cause v (cur s) := by simp
  simp only [hc, if_neg this]

/-- A trap with a handler changes no byte of memory and no pool word. -/
theorem takeTrap_handler_frame (cause : BitVec 5) (v : Word) (s : State) (h : (cur s).tvec ≠ 0) :
    (takeTrap cause v s).mem = s.mem ∧ (takeTrap cause v s).me.pool = s.me.pool ∧
    (takeTrap cause v s).iss.res = .trapped ∧ ∀ k, k ≠ s.iss.slot → slotOf (takeTrap cause v s) k = slotOf s k := by
  rw [takeTrap_handler _ _ _ h]
  refine ⟨rfl, rfl, rfl, fun k hk => ?_⟩
  rw [slotOf_onCur_other _ _ _ (by simpa using hk), slotOf_setRes, slotOf_onCur_other _ _ _ hk]

end Sys2Proof.Laws
end

