-- ==== Sys2Proof/Laws/Memory.lean ====
section
/-!
SUPPORT. What a write of bytes at their homes does, said once; and that every operation over memory keeps its canonical
form.
-/

namespace Sys2Proof.Laws

open Sys2Proof.Machine

/-! ## Writing bytes -/

@[simp] theorem traceAtom_mem (w : Writer) (a : Nat) (s : State) : (traceAtom w a s).mem = s.mem := by
  unfold traceAtom; split
  · dsimp only; split
    · rfl
    · split <;> rfl
  · rfl

@[simp] theorem traceAtom_poison (w : Writer) (a : Nat) (s : State) : (traceAtom w a s).poison = s.poison := by
  unfold traceAtom; split
  · dsimp only; split
    · rfl
    · split <;> rfl
  · rfl

@[simp] theorem traceAtom_clock (w : Writer) (a : Nat) (s : State) : (traceAtom w a s).clock = s.clock := by
  unfold traceAtom; split
  · dsimp only; split
    · rfl
    · split <;> rfl
  · rfl

/-- A traced write changes the trace ring of the core acting and nothing else of it. -/
theorem traceAtom_me (w : Writer) (a : Nat) (s : State) :
    (traceAtom w a s).me = { s.me with trace := (traceAtom w a s).me.trace, lost := (traceAtom w a s).me.lost } := by
  unfold traceAtom; split
  · dsimp only; split
    · rfl
    · split
      · simp only [tracePush]; split <;> rfl
      · rfl
  · rfl

theorem traceAll_mem (w : Writer) (l : List Nat) (s : State) :
    (l.foldl (fun s a => traceAtom w a s) s).mem = s.mem := by
  induction l generalizing s with
  | nil => rfl
  | cons a l ih => rw [List.foldl_cons, ih, traceAtom_mem]

theorem traceAll_poison (w : Writer) (l : List Nat) (s : State) :
    (l.foldl (fun s a => traceAtom w a s) s).poison = s.poison := by
  induction l generalizing s with
  | nil => rfl
  | cons a l ih => rw [List.foldl_cons, ih, traceAtom_poison]

theorem traceAll_me (w : Writer) (l : List Nat) (s : State) :
    ∃ t lo, (l.foldl (fun s a => traceAtom w a s) s).me = { s.me with trace := t, lost := lo } := by
  induction l generalizing s with
  | nil => exact ⟨_, _, rfl⟩
  | cons a l ih =>
    obtain ⟨t, lo, h⟩ := ih (traceAtom w a s)
    exact ⟨t, lo, by rw [List.foldl_cons, h, traceAtom_me]⟩

/-- Asking for banks changes the list of banks asked for and nothing else. -/
theorem askBanks_eq (hs : List Nat) (s : State) : askBanks hs s = { s with asked := (askBanks hs s).asked } := rfl

@[simp] theorem askBanks_mem (hs : List Nat) (s : State) : (askBanks hs s).mem = s.mem := rfl

@[simp] theorem askBanks_me (hs : List Nat) (s : State) : (askBanks hs s).me = s.me := rfl

@[simp] theorem askBanks_poison (hs : List Nat) (s : State) : (askBanks hs s).poison = s.poison := rfl

@[simp] theorem askBanks_clock (hs : List Nat) (s : State) : (askBanks hs s).clock = s.clock := rfl

@[simp] theorem readAt_mem (a : Access) (l : List Nat) (s : State) : (readAt a l s).mem = s.mem := askBanks_mem _ _

@[simp] theorem readBanks_mem (a : Access) (s : State) : (readBanks a s).mem = s.mem := readAt_mem _ _ _

/-- Memory after a write of bytes: the bytes set in list order. -/
@[simp] theorem writeBytes_mem (w : Writer) (l : List (Nat × Byte)) (s : State) :
    (writeBytes w l s).mem = spSetAll 0 s.mem l := by
  unfold writeBytes
  simp only [wakeAll, askBanks_mem, traceAll_mem]

/-- The core acting after a write of bytes: its trace ring, and slots that WATCH has woken. -/
theorem writeBytes_me (w : Writer) (l : List (Nat × Byte)) (s : State) :
    ∃ t lo sl, (writeBytes w l s).me = { s.me with slots := sl, trace := t, lost := lo } := by
  unfold writeBytes
  simp only [wakeAll, wakeCore, askBanks_me]
  obtain ⟨t, lo, h⟩ := traceAll_me w (atomsOf (l.map (·.1)))
    { s with mem := spSetAll 0 s.mem l,
             poison := s.poison.filter fun a =>
               !((atomsOf (l.map (·.1))).contains a && coversAtom (l.map (·.1)) a) }
  rw [h]
  exact ⟨t, lo, _, rfl⟩

/-- A byte written reads as what was written, if no other write names its home. -/
theorem memAt_writeBytes_mem (w : Writer) (l : List (Nat × Byte)) (s : State) (hn : (l.map (·.1)).Nodup)
    (e : Nat × Byte) (he : e ∈ l) : memAt (writeBytes w l s) e.1 = e.2 := by
  rw [memAt, writeBytes_mem]; exact spGet_setAll_mem 0 l s.mem hn e he

/-- A home that no write names keeps its byte. -/
theorem memAt_writeBytes_other (w : Writer) (l : List (Nat × Byte)) (s : State) (h : Nat)
    (hh : h ∉ l.map (·.1)) : memAt (writeBytes w l s) h = memAt s h := by
  rw [memAt, writeBytes_mem]
  exact spGet_setAll_other 0 l s.mem h fun e he heq => hh (List.mem_map.2 ⟨e, he, heq⟩)

/-! ## The canonical form -/

theorem memOk_of_mem_eq {s t : State} (h : t.mem = s.mem) (hs : s.memOk) : t.memOk := by
  unfold State.memOk at *; rw [h]; exact hs

theorem memOk_setAll {s t : State} (l : List (Nat × Byte)) (h : t.mem = spSetAll 0 s.mem l) (hs : s.memOk) :
    t.memOk := by
  unfold State.memOk Memory.wf at *; rw [h]; exact spWf_setAll 0 l s.mem hs

/-- A write of bytes keeps the canonical form. -/
theorem memOk_writeBytes (w : Writer) (l : List (Nat × Byte)) (s : State) (hs : s.memOk) :
    (writeBytes w l s).memOk := memOk_setAll l (writeBytes_mem w l s) hs

@[simp] theorem popDelay_mem (s : State) : (popDelay s).2.mem = s.mem := by
  unfold popDelay; split <;> rfl

/-- The writes of an access keep the canonical form. -/
theorem memOk_applyWrites (a : Access) (l : List (Nat × Nat × Byte)) (s : State) (hs : s.memOk) :
    (applyWrites a l s).memOk := by
  have h1 : (if (l.filter fun e => !isHost e.2.1).isEmpty = true then s
      else writeBytes ⟨s.me.num, a.slot, 0⟩ ((l.filter fun e => !isHost e.2.1).map (·.2)) s).memOk := by
    split
    · exact hs
    · exact memOk_writeBytes _ _ _ hs
  unfold applyWrites
  dsimp only
  split
  · exact h1
  · exact memOk_of_mem_eq (by simp) h1

/-- An access applied at its homes keeps the canonical form. -/
theorem memOk_applyAccess (a : Access) (s : State) (hs : s.memOk) : (applyAccess a s).st.memOk := by
  unfold applyAccess
  dsimp only
  split
  · exact memOk_of_mem_eq (readBanks_mem _ _) hs
  · exact memOk_applyWrites _ _ _ hs
  · split
    · exact memOk_of_mem_eq (readBanks_mem _ _) hs
    · exact memOk_writeBytes _ _ _ hs
  · exact memOk_of_mem_eq (readBanks_mem _ _) hs
  · exact memOk_applyWrites _ _ _ hs
  · exact memOk_of_mem_eq (readBanks_mem _ _) hs

/-- Atoms of a vector access, applied ahead of the rest, keep the canonical form. -/
theorem memOk_applyAtoms (ks : List Nat) (a : Access) (s : State) (hs : s.memOk) : (applyAtoms ks a s).2.memOk :=
  memOk_applyWrites _ _ _ (memOk_of_mem_eq (readAt_mem _ _ _) hs)

@[simp] theorem wrAll_mem (k : Nat) (l : List (Nat × Word)) (s : State) : (wrAll k l s).mem = s.mem := by
  unfold wrAll
  induction l generalizing s with
  | nil => rfl
  | cons e l ih => rw [List.foldl_cons, ih]; rfl

/-- A relaxed access that completes keeps the canonical form. -/
theorem memOk_completeRelaxed (a : Access) (s : State) (hs : s.memOk) : (completeRelaxed a s).memOk := by
  have h := memOk_applyAccess a { s with me := { s.me with relaxed := s.me.relaxed.filter fun x => x.id != a.id } } hs
  unfold completeRelaxed
  dsimp only
  split
  · exact h
  · exact memOk_of_mem_eq (by rw [setSlot_mem, wrAll_mem]) h

theorem memOk_foldl {α : Type} (f : State → α → State) (hf : ∀ s a, s.memOk → (f s a).memOk) (l : List α) (s : State)
    (hs : s.memOk) : (l.foldl f s).memOk := by
  induction l generalizing s with
  | nil => exact hs
  | cons a l ih => exact ih _ (hf s a hs)

/-- A posted store that reaches the host keeps the canonical form. -/
theorem memOk_takePosted (p : Posted) (s : State) (hs : s.memOk) : (takePosted p s).memOk :=
  memOk_writeBytes _ _ _ hs

@[simp] theorem postedWake_mem (k : Nat) (s : State) : (postedWake k s).mem = s.mem := by
  unfold postedWake; split <;> rfl

/-- Posted stores that reach the host keep the canonical form. -/
theorem memOk_drainPosted (k : Nat) (l : List Nat) (s : State) (hs : s.memOk) : (drainPosted k l s).memOk := by
  unfold drainPosted
  dsimp only
  split
  · exact memOk_of_mem_eq (postedWake_mem _ _)
      (memOk_foldl _ (fun s p h => memOk_takePosted p s h) (s.me.posted.filter fun p => p.slot == k) _ hs)
  · exact hs

/-- An earlier access of a thread, applied in part or completed, keeps the canonical form. -/
theorem memOk_settleOne (s : State) (x : Access × List Nat) (hs : s.memOk) : (settleOne s x).memOk := by
  unfold settleOne; split
  · exact memOk_of_mem_eq rfl (memOk_applyAtoms x.2 x.1 s hs)
  · exact memOk_completeRelaxed x.1 s hs

/-- What a thread's earlier accesses have to do at given homes keeps the canonical form. -/
theorem memOk_settleAtoms (k id : Nat) (homes : List Nat) (s : State) (hs : s.memOk) :
    (settleAtoms k id homes s).memOk := memOk_drainPosted _ _ _ (memOk_foldl _ memOk_settleOne _ _ hs)

/-- A thread's earlier accesses, applied before the present one, keep the canonical form. -/
theorem memOk_settleBefore (a : Access) (s : State) (hs : s.memOk) : (settleBefore a s).memOk :=
  memOk_settleAtoms _ _ _ _ hs

/-! ## The writes of engines, firmware, the host and a saving core -/

theorem memOk_engWrite (c : EngCmd) (l : List (Nat × Byte)) (s : State) (hs : s.memOk) : (engWrite c l s).memOk := by
  unfold engWrite; split
  · exact hs
  · exact memOk_writeBytes _ _ _ hs

theorem memOk_storeWords (a : Nat) (ws : List Word) (s : State) (hs : s.memOk) : (storeWords a ws s).memOk :=
  memOk_setAll _ rfl hs

theorem memOk_storeFree (a n : Nat) (s : State) (hs : s.memOk) : (storeFree a n s).memOk :=
  memOk_setAll (s := (drawBytes n s).2) _ rfl hs

theorem memOk_copyMem (src dst n : Nat) (s : State) (hs : s.memOk) : (copyMem src dst n s).memOk := by
  unfold State.memOk Memory.wf at *; exact spWf_paste 0 s.mem dst n _ hs

theorem memOk_zeroMem (dst n : Nat) (s : State) (hs : s.memOk) : (zeroMem dst n s).memOk := by
  unfold State.memOk Memory.wf at *; exact spWf_clear 0 s.mem dst n hs

theorem memOk_copyAtom (old new : Nat) (s : State) (hs : s.memOk) : (copyAtom old new s).memOk :=
  memOk_setAll _ rfl hs

theorem memOk_wldWrite (c : EngCmd) (s : State) (hs : s.memOk) : (wldWrite c s).memOk := by
  obtain ⟨l, h⟩ : ∃ l, (wldWrite c s).mem = spSetAll 0 s.mem l := by
    unfold wldWrite
    simp only []
    exact ⟨_, rfl⟩
  exact memOk_setAll l h hs

theorem memOk_hostStore (a : Nat) (l : List Byte) (s : State) (hs : s.memOk) : (hostStore a l s).memOk := by
  unfold hostStore; dsimp only; split
  · split
    · exact memOk_setAll _ rfl hs
    · exact memOk_writeBytes _ _ _ hs
  · exact memOk_writeBytes _ _ _ hs

theorem restoreCheckpoint_mem (k : Checkpoint) (s : State) :
    (restoreCheckpoint k s).mem = spSetAll 0 (s.mem.filter fun e => !inRanges k.ranges e.1) k.mem := by
  simp only [restoreCheckpoint]

theorem memOk_restoreCheckpoint (k : Checkpoint) (s : State) (hs : s.memOk) : (restoreCheckpoint k s).memOk := by
  unfold State.memOk Memory.wf at *
  rw [restoreCheckpoint_mem]
  exact spWf_setAll 0 _ _ (spWfFrom_filter 0 none s.mem _ hs)

theorem memOk_placePair (w0 w1 : BitVec 32) (k : Nat) (s : State) (hs : s.memOk) : (placePair w0 w1 k s).memOk :=
  memOk_setAll _ rfl hs

end Sys2Proof.Laws
end

