-- ==== Sys2Proof/Tests/Slice0.lean ====
section
/-!
SUPPORT. The package's own tests: the smoke tests of well-formedness, words written out from the encoding tables, small
steps whose results the specification's examples give, and for every statement a witness that its hypotheses can be met.
-/

set_option maxRecDepth 100000
set_option exponentiation.threshold 600

namespace Sys2Proof.Tests

open Sys2Proof Sys2Proof.Machine

/-- A page of 64 KiB at 0x10000 that lies whole in HBM from 0, for every kind of access. -/
def page0 : Tr := ⟨0x10000, 0x10000, 0x1F, 0xFFFFFFFF010C0001⟩

/-- The page after it. -/
def page1 : Tr := ⟨0x20000, 0x10000, 0x1001F, 0xFFFFFFFF010C0001⟩

/-- A partition of two cores, slot 0 of core 0 with privilege and a window of 128, slot 3 without. -/
def base : State :=
  { State.reset with
    ctx := { noContext with cores := [0, 1], tracks := [0, 1], root := 0x80000, hbmStacks := [0] }
    fw := { startFirmware with running := true }
    clock := 1000
    me := { startCore 0 with
      slots := [(0, { emptySlot with st := .runnable, winSize := 128, pa := 0x10000, thread := 7, prv := true, tvec := 0x400 }),
        (3, { emptySlot with st := .runnable, winBase := 128, winSize := 64, pa := 0x10040, thread := 8, tvec := 0x400 })]
      dtlb := [⟨0, page0⟩, ⟨0, page1⟩]
      itlb := [⟨0, page0⟩] }
    iss := { noIssue with pa := 0x10000, cycle := 1000 } }

def regs (l : List (Nat × Word)) (s : State) : State := l.foldl (fun s e => wrN e.1 e.2 s) s

def r2 (a b : Word) : State := regs [(3, 0x123456789ABCDEF0), (4, a), (5, b)] base

def un (f : Slot → Slot) (s : State) : State := setSlot 0 (f (slotOf s 0)) s

def onme (f : Core → Core) (s : State) : State := { s with me := f s.me }

def hnd (h : Nat) (f : Handle → Handle) (s : State) : State := hPut h (f (hGet s h)) s

/-! ## Well-formedness refuses what it must -/

theorem test_wf_refuses_special_registers :
    Instr.wf (.mfs 3 0x006) = false ∧ Instr.wf (.mfs 3 0x081) = false ∧ Instr.wf (.mts 3 0x000) = false ∧
    Instr.wf (.mts 3 0x032) = false ∧ Instr.wf (.mts 3 0x033) = false := by decide

theorem test_wf_refuses_barriers :
    Instr.wf (.bar 3 1 32) = false ∧ Instr.wf (.bara 3 2 64) = false ∧ Instr.wf (.barw 3 5 8) = false ∧
    Instr.wf (.bari 3 6 0) = false := by decide

theorem test_wf_refuses_conversions :
    Instr.wf (.fcvt 5 3 4 0 1) = false ∧ Instr.wf (.fcvt 0 3 4 1 1) = false ∧ Instr.wf (.vcmpLtu 1 2 1) = false ∧
    Instr.wf (.vcmpGeu 1 2 2) = false := by decide

theorem test_wf_refuses_modes : ∀ i ∈ ([.vcvtHS 1 2 5, .vcvtBhS 1 2 5, .vcvtES 1 2 5, .vcvtWS 1 2 5, .vcvtSW 1 2 5,
    .vcvtSD 1 2 5, .vcvtDS 1 2 5, .vcvtLD 1 2 5, .vcvtDL 1 2 5, .vq 1 2 5 0, .vqSc 1 2 7 1] : List Instr),
    i.wf = false := by decide

theorem test_wf_refuses_events :
    Instr.wf (.messageArrival ⟨0, [1, 2, 3, 4, 5, 6], 0, 0⟩) = false ∧
    Instr.wf (.contextStart { noContext with cores := [3072] }) = false ∧
    Instr.wf (.contextStart { noContext with tracks := [16] }) = false ∧
    Instr.wf (.contextStart { noContext with root := 1 }) = false ∧
    Instr.wf (.contextStart { noContext with fwVectors := [(0x10, 0)] }) = false ∧
    Instr.wf (.contextStart { noContext with replay := some { entries := [(3072, ⟨0, 0, 0, 0, 0⟩)], lost := false } }) = false ∧
    Instr.wf (.dieRemap [0, 1, 2]) = false ∧ Instr.wf (.memControllerDown 8 0) = false ∧
    Instr.wf (.memControllerDown 0 32) = false ∧ Instr.wf (.cellSoftError 128) = false := by decide

/-! ## Words and values that the specification works out -/

/-- The words under "Worked encodings" and the examples of the instruction chapters. -/
theorem test_worked_words : ∀ p ∈ ([
      (0x883C0005, .jal 15 5), (0x823C0032, .mfs 15 0x032), (0x10A28600, .ldWu 10 12 0), (0x463877FF, .addi 14 14 0x7FF),
      (0x12420680, .stW 8 13 0), (0x52346804, .addpi 13 13 4), (0x8E477FFB, .bnez 14 0x7FFB), (0x54140040, .ldi 5 0x40),
      (0x4000C205, .add 3 4 5), (0x42A18388, .div 6 7 8), (0x43C08001, .ilv2 2 0 1), (0x4E0C200C, .shli 3 4 12),
      (0x4E0C2201, .sari 3 4 1), (0x44A30604, .addp 12 12 4), (0x582C4FFF, .movx 11 9 0x7FF), (0x5A284FFF, .movxs 10 9 0x7FF),
      (0x5CA2858C, .fmaD 10 11 12), (0x60010290, .fcvt 0 4 5 1 0), (0x602102C2, .fcvt 1 4 5 4 1),
      (0x0C8184FE, .blt 3 4 0xFE), (0x0A041000, .jalr 1 2 0), (0x06000003, .jmp 3), (0x043C0030, .mts 15 0x030)] :
      List (BitVec 32 × Instr)), decodeWord p.1 = some p.2 := by decide

theorem test_worked_words_messages_and_memory : ∀ p ∈ ([
      (0x1C421040, .send 0x21 4 8), (0x1C001481, .recv 5 16), (0x1C000082, .recva 16), (0x1C00004B, .mbox 9),
      (0x1E104005, .bar 4 2 5), (0x1E0B0000, .bari 2 0 0), (0x2800C205, .watch 3 4 5), (0x28218000, .tid 6),
      (0x45014307, .vkey 5 6 7), (0x10C14202, .ldD 5 4 2), (0x1001427F, .ldB 5 4 0x7F), (0x11C04200, .ldDRx 1 4 0),
      (0x13628180, .stDRx 10 3 0), (0x14008400, .ldv 2 8 0), (0x15008400, .ldvRx 2 8 0), (0x14208328, .stv 2 6 40),
      (0x14404203, .gather 1 4 3), (0x14604203, .scatter 1 4 3), (0x18C10286, .amominuD 4 5 6), (0x1722820B, .amocasW 10 4 11),
      (0x1700C382, .amoswapW 3 7 2), (0x20010286, .carsub 4 5 6), (0x24010300, .lainf 4 6)] : List (BitVec 32 × Instr)),
    decodeWord p.1 = some p.2 := by decide

theorem test_worked_words_vectors : ∀ p ∈ ([
      (0x62004103, .vadd 1 2 3), (0x63A10286, .vmulh 4 5 6), (0x64604103, .vfdivS 1 2 3), (0x6AA04103, .vfmaD 1 2 3),
      (0x66014580, .vbcast 5 11), (0x66210105, .vext 4 2 5), (0x66408205, .vins 2 4 5), (0x66604103, .vperm 1 2 3),
      (0x66810108, .vredFaddS 4 2), (0x66A1028A, .vcmpLt 4 5 1), (0x66C10286, .vsel 4 5 6), (0x66E0C209, .vcvtBhS 3 4 1),
      (0x67014311, .vqSc 5 6 0 1), (0x6721C283, .vdqSc 7 5 1), (0x28400286, .tblw 5 6), (0x28610280, .tblr 4 5),
      (0x68050001, .boxt 20 0 1), (0x04100050, .mts 4 0x050), (0x04140051, .mts 5 0x051), (0x006000C8, .burst 200)] :
      List (BitVec 32 × Instr)), decodeWord p.1 = some p.2 := by decide

/-- Reserved bits, unassigned majors, minors, selectors, scopes, register numbers and rounding modes decode to nothing. -/
theorem test_words_of_no_form :
    decodeWord 0x00000001 = none ∧ decodeWord 0x00B00000 = none ∧ decodeWord 0x1E10C000 = none ∧ decodeWord 0x1E0300FF = none ∧
    decodeWord 0x04000000 = none ∧ decodeWord 0x02000006 = none ∧ decodeWord 0x60000000 = none ∧ decodeWord 0x60A10290 = none ∧
    decodeWord 0x4E0C250C = none ∧ decodeWord 0x4E0C2240 = none ∧ decodeWord 0x66A10294 = none ∧ decodeWord 0x67A10286 = none ∧
    decodeWord 0x6701431D = none ∧ decodeWord 0x7E000000 = none ∧ decodeWord 0x45E00000 = none := by
  decide

/-- Register k of slot 0 after an instruction that answers a next state. -/
def after (i : Instr) (s : State) (k : Nat) : Option Word :=
  match exec i s with
  | .next t => some (regAt t 0 k)
  | _ => none

/-- The same of an instruction that holds the thread. -/
def afterHold (i : Instr) (s : State) : Option (List (Nat × Word)) :=
  match exec i s with
  | .next t => some (cur t).pend
  | _ => none

/-- The values worked out under R64. -/
theorem test_divide :
    afterHold (.div 3 4 5) (r2 7 (-2)) = some [(3, -3)] ∧ afterHold (.rem 3 4 5) (r2 7 (-2)) = some [(3, 1)] ∧
    afterHold (.div 3 4 5) (r2 (-7) 2) = some [(3, -3)] ∧ afterHold (.rem 3 4 5) (r2 (-7) 2) = some [(3, -1)] ∧
    afterHold (.divu 3 4 5) (r2 (-7) 2) = some [(3, 0x7FFFFFFFFFFFFFFC)] ∧
    afterHold (.remu 3 4 5) (r2 7 (-2)) = some [(3, 7)] := by decide

/-- The constant built in four lines under "Building a 64-bit constant". -/
theorem test_ldih :
    after (.ldih 5 0x4) (regs [(5, 0x40)] base) 5 = some 0x0000000001000004 ∧
    after (.ldih 5 0x30) (regs [(5, 0x0000040000100000)] base) 5 = some 0x1000004000000030 := by decide

/-- The conversions worked out after R78: 65,520.0 to binary16, and -2.75 to a signed integer. -/
theorem test_fcvt :
    after (.fcvt 0 3 4 2 1) (r2 0x477FF000 0) 3 = some 0x7C00 ∧ after (.fcvt 1 3 4 2 1) (r2 0x477FF000 0) 3 = some 0x7BFF ∧
    after (.fcvt 0 3 4 4 1) (r2 0xC0300000 0) 3 = some (-3) ∧ after (.fcvt 1 3 4 4 1) (r2 0xC0300000 0) 3 = some (-2) ∧
    after (.fcvt 2 3 4 4 1) (r2 0xC0300000 0) 3 = some (-2) ∧ after (.fcvt 3 3 4 4 1) (r2 0xC0300000 0) 3 = some (-3) := by
  decide

/-- The example after R196. -/
theorem test_vkey : after (.vkey 3 4 5) (r2 0x40E00000 0x1003) 3 = some 0x40E0000000001003 := by decide

/-- The index worked out after R32, one past 2^63 - 1. -/
theorem test_movx_traps : (match exec (.movx 3 4 1) (r2 0x7FFFFFFFFFFFFFFF 0) with
    | .next t => some ((cur t).tcause, (cur t).tval, (cur t).pa)
    | _ => none) = some (cRegBounds, 0x8000000000000000, 0x2000) := by decide

/-- The sum worked out after R357: 2^24, 1.0, 1.0 and thirteen zeros. -/
theorem test_vred_fadd :
    afterHold (.vredFaddS 4 2) (regs [(16, 0x3F8000004B800000), (17, 0x3F800000)] base) = some [(4, 0x4B800000)] := by decide

/-- The table of E2M1 magnitudes of the number-format chapter, in entries 0 to 7. -/
def e2m1 (s : State) : State :=
  onme (fun m => { m with table := { m.table with
    half := [0x00000, 0x1F800, 0x1FC00, 0x1FE00, 0x20000, 0x20200, 0x20400, 0x20600] ++ m.table.half.drop 8 } }) s

/-- The block worked out after R363: 12.0, -3.0, 5.0 and 0.75 to codes and back. -/
theorem test_vq :
    afterHold (.vqSc 5 6 0 1) (e2m1 (regs [(48, 0xC040000041400000), (49, 0x3F40000040A00000)] base)) =
      some [(40, 0x14B7), (41, 0), (42, 0x80), (43, 0), (44, 0), (45, 0), (46, 0), (47, 0)] ∧
    after (.vdqSc 7 5 1) (e2m1 (regs [(40, 0x14B7), (42, 0x80)] base)) 56 = some 0xC040000041400000 ∧
    after (.vdqSc 7 5 1) (e2m1 (regs [(40, 0x14B7), (42, 0x80)] base)) 57 = some 0x3F80000040800000 := by decide

/-- The page worked out under "A worked translation". -/
theorem test_translation : pageHome 0x000000000120000F 0x000001110105A0FF 0x1234 = 0x4881200014 := by decide

/-- The draw worked out after R388. -/
theorem test_draw : laDraw { startAutomaton with seed := 1, epoch := 3 } 5 300 10 = 221 := by decide

/-- Pixels 0 and 3 of the reprojection worked out after R202, shifted one to the right. -/
theorem test_reproj :
    (let m : Rec := BitVec.ofNat 512 (0x3F800000 + 0x3F800000 * 2 ^ 96 + 0x3F800000 * 2 ^ 160 + 0x3F800000 * 2 ^ 320 + 0x3F800000 * 2 ^ 480)
     (rpTarget m 4 1 0 0 0x4040000000000101).map (·.1) = some 1 ∧ (rpTarget m 4 1 1 0 0x4000000000000202).map (·.1) = some 2 ∧
       rpTarget m 4 1 3 0 0x40A0000000000303 = none) := by decide

/-- The bits that ABS32 and S19 need (R58: the least w that holds the value). -/
theorem test_bits_required : bitsUnsigned (-5) = 0 ∧ bitsUnsigned 255 = 8 ∧ bitsUnsigned 256 = 9 ∧ bitsSigned (-128) = 8 ∧
    bitsSigned 128 = 9 := by decide

/-- The header worked out under "SEND": type 0x21 from slot 2 of core 5 to slot 0 of core 6, SEQ 1. -/
theorem test_header : mkHdr 1 0x21 5 2 6 0 true false = 0x0001210052006080 := by decide

/-- The rotation worked out after R21: entry 11 names slot 3, slots 0, 3 and 11 run, SHARE: slot 3 issues in cycle 1. -/
theorem test_share :
    (let run : Slot := { emptySlot with st := .runnable, winSize := 8 }
     let m : Core := { startCore 0 with slots := [(0, { run with lastIssue := some 1000 }), (3, run), (11, run)], rotPol := 1, phase := 8, spare := 0 }
     chooseSlot m 1001 = some (3, 4) ∧ chooseSlot { m with rotPol := 0 } 1001 = none) := by decide

/-- A queue of 64 slots, record 32: the lap number advances at slot N/2 (R102). -/
theorem test_lap : lapOf 64 31 = 0 ∧ lapOf 64 32 = 1 ∧ lapOf 64 64 = 2 := by decide

/-- A placed word runs as the first instruction after reset. -/
theorem test_placed : ∃ t, step (State.reset.withFetchWord 32 0x4000C205) = .next t ∧ t.iss.res = .retired := ⟨_, rfl, by decide⟩

/-! ## Words written out from the encoding tables: each field at its place, with its highest and lowest bit set -/

theorem test_decode_major_00_to_05 : ∀ p ∈ ([
      (0x00000000, .nop), (0x00100000, .endThread), (0x00200000, .yield), (0x00380005, .swtrap 0x80005),
      (0x00400000, .rett), (0x00500085, .lineup 0x85), (0x00608009, .burst 0x8009), (0x00700000, .fenceRx),
      (0x00800000, .fenceEng), (0x00900000, .fenceSys), (0x00A00011, .waitrx 0x11), (0x03040034, .mfs 0x41 0x34),
      (0x05040051, .mts 0x41 0x51), (0x07000001, .jmp 0x1000001), (0x09060001, .jal 0x41 0x20001),
      (0x0B076C01, .jalr 0x41 0x6d 0x401)] : List (BitVec 32 × Instr)),
    decodeWord p.1 = some p.2 ∧ encode p.2 = some p.1 ∧ p.2.wf = true := by decide

theorem test_decode_major_06_to_07 : ∀ p ∈ ([
      (0x0C20ED85, .beq 0x41 0x6d 0x85), (0x0C60ED85, .bne 0x41 0x6d 0x85), (0x0CA0ED85, .blt 0x41 0x6d 0x85),
      (0x0CE0ED85, .bge 0x41 0x6d 0x85), (0x0D20ED85, .bltu 0x41 0x6d 0x85), (0x0D60ED85, .bgeu 0x41 0x6d 0x85),
      (0x0DA0ED85, .bset 0x41 0x6d 0x85), (0x0DE0ED85, .bclr 0x41 0x6d 0x85), (0x0E20C001, .beqz 0x41 0x4001),
      (0x0E60C001, .bnez 0x41 0x4001), (0x0EA0C001, .bltz 0x41 0x4001), (0x0EE0C001, .bgez 0x41 0x4001),
      (0x0F20C001, .bgtz 0x41 0x4001), (0x0F60C001, .blez 0x41 0x4001)] : List (BitVec 32 × Instr)),
    decodeWord p.1 = some p.2 ∧ encode p.2 = some p.1 ∧ p.2.wf = true := by decide

theorem test_decode_major_08_to_09 : ∀ p ∈ ([
      (0x10107693, .ldB 0x41 0x6d 0x13), (0x10307693, .ldBu 0x41 0x6d 0x13), (0x10507693, .ldH 0x41 0x6d 0x13),
      (0x10707693, .ldHu 0x41 0x6d 0x13), (0x10907693, .ldW 0x41 0x6d 0x13), (0x10B07693, .ldWu 0x41 0x6d 0x13),
      (0x10D07693, .ldD 0x41 0x6d 0x13), (0x11107693, .ldBRx 0x41 0x6d 0x13), (0x11307693, .ldBuRx 0x41 0x6d 0x13),
      (0x11507693, .ldHRx 0x41 0x6d 0x13), (0x11707693, .ldHuRx 0x41 0x6d 0x13),
      (0x11907693, .ldWRx 0x41 0x6d 0x13), (0x11B07693, .ldWuRx 0x41 0x6d 0x13),
      (0x11D07693, .ldDRx 0x41 0x6d 0x13), (0x12107693, .stB 0x41 0x6d 0x13), (0x12307693, .stH 0x41 0x6d 0x13),
      (0x12507693, .stW 0x41 0x6d 0x13), (0x12707693, .stD 0x41 0x6d 0x13), (0x13107693, .stBRx 0x41 0x6d 0x13),
      (0x13307693, .stHRx 0x41 0x6d 0x13), (0x13507693, .stWRx 0x41 0x6d 0x13), (0x13707693, .stDRx 0x41 0x6d 0x13)] : List (BitVec 32 × Instr)),
    decodeWord p.1 = some p.2 ∧ encode p.2 = some p.1 ∧ p.2.wf = true := by decide

theorem test_decode_major_0A_to_0B : ∀ p ∈ ([
      (0x14027693, .ldv 9 0x6d 0x13), (0x14227693, .stv 9 0x6d 0x13), (0x14427686, .gather 9 0x6d 6),
      (0x14627686, .scatter 9 0x6d 6), (0x15027693, .ldvRx 9 0x6d 0x13), (0x15227693, .stvRx 9 0x6d 0x13),
      (0x15427686, .gatherRx 9 0x6d 6), (0x15627686, .scatterRx 9 0x6d 6), (0x16107693, .amoaddW 0x41 0x6d 0x13),
      (0x16307693, .amoandW 0x41 0x6d 0x13), (0x16507693, .amoorW 0x41 0x6d 0x13),
      (0x16707693, .amoxorW 0x41 0x6d 0x13), (0x16907693, .amominW 0x41 0x6d 0x13),
      (0x16B07693, .amomaxW 0x41 0x6d 0x13), (0x16D07693, .amominuW 0x41 0x6d 0x13),
      (0x16F07693, .amomaxuW 0x41 0x6d 0x13), (0x17107693, .amoswapW 0x41 0x6d 0x13),
      (0x17307693, .amocasW 0x41 0x6d 0x13)] : List (BitVec 32 × Instr)),
    decodeWord p.1 = some p.2 ∧ encode p.2 = some p.1 ∧ p.2.wf = true := by decide

theorem test_decode_major_0C_to_0E : ∀ p ∈ ([
      (0x18107693, .amoaddD 0x41 0x6d 0x13), (0x18307693, .amoandD 0x41 0x6d 0x13),
      (0x18507693, .amoorD 0x41 0x6d 0x13), (0x18707693, .amoxorD 0x41 0x6d 0x13),
      (0x18907693, .amominD 0x41 0x6d 0x13), (0x18B07693, .amomaxD 0x41 0x6d 0x13),
      (0x18D07693, .amominuD 0x41 0x6d 0x13), (0x18F07693, .amomaxuD 0x41 0x6d 0x13),
      (0x19107693, .amoswapD 0x41 0x6d 0x13), (0x19307693, .amocasD 0x41 0x6d 0x13),
      (0x1A107693, .htake 0x41 0x6d 0x13), (0x1A307693, .hgive 0x41 0x6d 0x13),
      (0x1A507693, .hwait 0x41 0x6d 0x13), (0x1A707693, .hstat 0x41 0x6d 0x13), (0x1A907680, .hgen 0x41 0x6d),
      (0x1AB07693, .hring 0x41 0x6d 0x13), (0x1D0BB498, .send 0x85 0x6d 0x13), (0x1C010769, .recv 0x41 0x6d),
      (0x1C00020A, .recva 0x41), (0x1C00020B, .mbox 0x41)] : List (BitVec 32 × Instr)),
    decodeWord p.1 = some p.2 ∧ encode p.2 = some p.1 ∧ p.2.wf = true := by decide

theorem test_decode_major_0F_to_11 : ∀ p ∈ ([
      (0x1F04A007, .bar 0x41 5 7), (0x1F05A007, .bara 0x41 5 7), (0x1F06A007, .barw 0x41 5 7),
      (0x1F07A007, .bari 0x41 5 7), (0x20107693, .carsub 0x41 0x6d 0x13), (0x20307693, .carunsub 0x41 0x6d 0x13),
      (0x20402080, .carskip 0x41), (0x206020ED, .carpromo 0x41 0x6d), (0x20907680, .carpos 0x41 0x6d),
      (0x20B07680, .carwaitRay 0x41 0x6d), (0x20B07681, .carwaitStart 0x41 0x6d),
      (0x20B07682, .carwaitVerdict 0x41 0x6d), (0x22027680, .rayput 9 0x6d), (0x22227680, .rayget 9 0x6d),
      (0x22507693, .raysub 0x41 0x6d 0x13), (0x22707680, .hitpop 0x41 0x6d), (0x22907680, .raykill 0x41 0x6d)] : List (BitVec 32 × Instr)),
    decodeWord p.1 = some p.2 ∧ encode p.2 = some p.1 ∧ p.2.wf = true := by decide

theorem test_decode_major_12_to_14 : ∀ p ∈ ([
      (0x24024680, .lainf 9 0xd), (0x24304680, .lafb1 0x41 0xd), (0x24504680, .lafb2 0x41 0xd),
      (0x24707680, .lard 0x41 0x6d), (0x248020ED, .lawr 0x41 0x6d), (0x24A020ED, .laseed 0x41 0x6d),
      (0x24C02080, .laclr 0x41), (0x26107686, .tsreq 0x41 0x6d 6), (0x26307686, .tsfill 0x41 0x6d 6),
      (0x26507686, .tswait 0x41 0x6d 6), (0x28107693, .watch 0x41 0x6d 0x13), (0x28304000, .tid 0x41),
      (0x284020ED, .tblw 0x41 0x6d), (0x28707680, .tblr 0x41 0x6d)] : List (BitVec 32 × Instr)),
    decodeWord p.1 = some p.2 ∧ encode p.2 = some p.1 ∧ p.2.wf = true := by decide

theorem test_decode_major_20_to_20 : ∀ p ∈ ([
      (0x40107693, .add 0x41 0x6d 0x13), (0x40307693, .sub 0x41 0x6d 0x13), (0x40507693, .and 0x41 0x6d 0x13),
      (0x40707693, .or 0x41 0x6d 0x13), (0x40907693, .xor 0x41 0x6d 0x13), (0x40B07693, .andn 0x41 0x6d 0x13),
      (0x40D07693, .shl 0x41 0x6d 0x13), (0x40F07693, .shr 0x41 0x6d 0x13), (0x41107693, .sar 0x41 0x6d 0x13),
      (0x41307693, .rol 0x41 0x6d 0x13), (0x41507693, .ror 0x41 0x6d 0x13), (0x41707693, .slt 0x41 0x6d 0x13),
      (0x41907693, .sltu 0x41 0x6d 0x13), (0x41B07693, .seq 0x41 0x6d 0x13), (0x41D07693, .min 0x41 0x6d 0x13),
      (0x41F07693, .max 0x41 0x6d 0x13)] : List (BitVec 32 × Instr)),
    decodeWord p.1 = some p.2 ∧ encode p.2 = some p.1 ∧ p.2.wf = true := by decide

theorem test_decode_major_21_to_21 : ∀ p ∈ ([
      (0x42107693, .minu 0x41 0x6d 0x13), (0x42307693, .maxu 0x41 0x6d 0x13), (0x42507693, .mul 0x41 0x6d 0x13),
      (0x42707693, .mulh 0x41 0x6d 0x13), (0x42907693, .mulhu 0x41 0x6d 0x13), (0x42B07693, .div 0x41 0x6d 0x13),
      (0x42D07693, .divu 0x41 0x6d 0x13), (0x42F07693, .rem 0x41 0x6d 0x13), (0x43107693, .remu 0x41 0x6d 0x13),
      (0x43307693, .sel 0x41 0x6d 0x13), (0x43507680, .clz 0x41 0x6d), (0x43707680, .ctz 0x41 0x6d),
      (0x43907680, .popc 0x41 0x6d), (0x43B07680, .brev 0x41 0x6d), (0x43D07693, .ilv2 0x41 0x6d 0x13),
      (0x43F07693, .ilv3 0x41 0x6d 0x13)] : List (BitVec 32 × Instr)),
    decodeWord p.1 = some p.2 ∧ encode p.2 = some p.1 ∧ p.2.wf = true := by decide

theorem test_decode_major_22_to_2B : ∀ p ∈ ([
      (0x44107693, .dilv2 0x41 0x6d 0x13), (0x44307693, .dilv3 0x41 0x6d 0x13), (0x44507693, .extr 0x41 0x6d 0x13),
      (0x44707693, .depo 0x41 0x6d 0x13), (0x44907680, .bswap 0x41 0x6d), (0x44B07693, .addp 0x41 0x6d 0x13),
      (0x44D07693, .mkptr 0x41 0x6d 0x13), (0x44F07680, .ptag 0x41 0x6d), (0x45107693, .vkey 0x41 0x6d 0x13),
      (0x47076C01, .addi 0x41 0x6d 0x401), (0x49076C01, .andi 0x41 0x6d 0x401), (0x4B076C01, .ori 0x41 0x6d 0x401),
      (0x4D076C01, .xori 0x41 0x6d 0x401), (0x4F076821, .shli 0x41 0x6d 0x21), (0x4F076921, .shri 0x41 0x6d 0x21),
      (0x4F076A21, .sari 0x41 0x6d 0x21), (0x4F076B21, .roli 0x41 0x6d 0x21), (0x4F076C21, .rori 0x41 0x6d 0x21),
      (0x51076C01, .slti 0x41 0x6d 0x401), (0x53076C01, .addpi 0x41 0x6d 0x401), (0x55060001, .ldi 0x41 0x20001),
      (0x57060001, .ldih 0x41 0x20001)] : List (BitVec 32 × Instr)),
    decodeWord p.1 = some p.2 ∧ encode p.2 = some p.1 ∧ p.2.wf = true := by decide

theorem test_decode_major_2C_to_2E : ∀ p ∈ ([
      (0x59076C01, .movx 0x41 0x6d 0x401), (0x5B076C01, .movxs 0x41 0x6d 0x401),
      (0x5C107693, .faddD 0x41 0x6d 0x13), (0x5C307693, .fsubD 0x41 0x6d 0x13),
      (0x5C507693, .fmulD 0x41 0x6d 0x13), (0x5C707693, .fdivD 0x41 0x6d 0x13), (0x5C907680, .fsqrtD 0x41 0x6d),
      (0x5CB07693, .fmaD 0x41 0x6d 0x13), (0x5CD07693, .fminD 0x41 0x6d 0x13), (0x5CF07693, .fmaxD 0x41 0x6d 0x13),
      (0x5D107693, .feqD 0x41 0x6d 0x13), (0x5D307693, .fltD 0x41 0x6d 0x13), (0x5D507693, .fleD 0x41 0x6d 0x13),
      (0x5D707680, .fclassD 0x41 0x6d), (0x5D907693, .fsgnjD 0x41 0x6d 0x13), (0x5DB07693, .fsgnjnD 0x41 0x6d 0x13)] : List (BitVec 32 × Instr)),
    decodeWord p.1 = some p.2 ∧ encode p.2 = some p.1 ∧ p.2.wf = true := by decide

theorem test_decode_major_2F_to_30 : ∀ p ∈ ([
      (0x5E107693, .faddS 0x41 0x6d 0x13), (0x5E307693, .fsubS 0x41 0x6d 0x13),
      (0x5E507693, .fmulS 0x41 0x6d 0x13), (0x5E707693, .fdivS 0x41 0x6d 0x13), (0x5E907680, .fsqrtS 0x41 0x6d),
      (0x5EB07693, .fmaS 0x41 0x6d 0x13), (0x5ED07693, .fminS 0x41 0x6d 0x13), (0x5EF07693, .fmaxS 0x41 0x6d 0x13),
      (0x5F107693, .feqS 0x41 0x6d 0x13), (0x5F307693, .fltS 0x41 0x6d 0x13), (0x5F507693, .fleS 0x41 0x6d 0x13),
      (0x5F707680, .fclassS 0x41 0x6d), (0x5F907693, .fsgnjS 0x41 0x6d 0x13),
      (0x5FB07693, .fsgnjnS 0x41 0x6d 0x13), (0x6088A0DC, .fcvt 4 0x22 0x41 5 6)] : List (BitVec 32 × Instr)),
    decodeWord p.1 = some p.2 ∧ encode p.2 = some p.1 ∧ p.2.wf = true := by decide

theorem test_decode_major_31_to_31 : ∀ p ∈ ([
      (0x62024686, .vadd 9 0xd 6), (0x62224686, .vsub 9 0xd 6), (0x62424686, .vand 9 0xd 6),
      (0x62624686, .vor 9 0xd 6), (0x62824686, .vxor 9 0xd 6), (0x62A24686, .vshl 9 0xd 6),
      (0x62C24686, .vshr 9 0xd 6), (0x62E24686, .vsar 9 0xd 6), (0x63024686, .vmin 9 0xd 6),
      (0x63224686, .vmax 9 0xd 6), (0x63424686, .vminu 9 0xd 6), (0x63624686, .vmaxu 9 0xd 6),
      (0x63824686, .vmul 9 0xd 6), (0x63A24686, .vmulh 9 0xd 6), (0x63C24686, .vadds 9 0xd 6),
      (0x63E24686, .vsubs 9 0xd 6)] : List (BitVec 32 × Instr)),
    decodeWord p.1 = some p.2 ∧ encode p.2 = some p.1 ∧ p.2.wf = true := by decide

theorem test_decode_major_32_to_32 : ∀ p ∈ ([
      (0x64024686, .vfaddS 9 0xd 6), (0x64224686, .vfsubS 9 0xd 6), (0x64424686, .vfmulS 9 0xd 6),
      (0x64624686, .vfdivS 9 0xd 6), (0x64824680, .vfsqrtS 9 0xd), (0x64A24686, .vfmaS 9 0xd 6),
      (0x64C24686, .vfminS 9 0xd 6), (0x64E24686, .vfmaxS 9 0xd 6)] : List (BitVec 32 × Instr)),
    decodeWord p.1 = some p.2 ∧ encode p.2 = some p.1 ∧ p.2.wf = true := by decide

theorem test_decode_major_33_to_33 : ∀ p ∈ ([
      (0x66027680, .vbcast 9 0x6d), (0x66027681, .vbcastD 9 0x6d), (0x66304693, .vext 0x41 0xd 0x13),
      (0x66427693, .vins 9 0x6d 0x13), (0x66624686, .vperm 9 0xd 6), (0x66904680, .vredAddW 0x41 0xd),
      (0x66904681, .vredMinW 0x41 0xd), (0x66904682, .vredMaxW 0x41 0xd), (0x66904683, .vredMinuW 0x41 0xd),
      (0x66904684, .vredMaxuW 0x41 0xd), (0x66904685, .vredAndW 0x41 0xd), (0x66904686, .vredOrW 0x41 0xd),
      (0x66904687, .vredXorW 0x41 0xd), (0x66904688, .vredFaddS 0x41 0xd), (0x66904689, .vredFminS 0x41 0xd),
      (0x6690468A, .vredFmaxS 0x41 0xd), (0x6690468B, .vredFaddD 0x41 0xd), (0x6690468C, .vredFminD 0x41 0xd),
      (0x6690468D, .vredFmaxD 0x41 0xd), (0x6690468E, .vredAddD 0x41 0xd), (0x66A24690, .vcmpEq 9 0xd 2),
      (0x66A24691, .vcmpNe 9 0xd 2)] : List (BitVec 32 × Instr)),
    decodeWord p.1 = some p.2 ∧ encode p.2 = some p.1 ∧ p.2.wf = true := by decide

theorem test_decode_major_33_to_34 : ∀ p ∈ ([
      (0x66A24692, .vcmpLt 9 0xd 2), (0x66A24693, .vcmpGe 9 0xd 2), (0x66A2469C, .vcmpLtu 9 0xd 3),
      (0x66A2469D, .vcmpGeu 9 0xd 3), (0x66C24686, .vsel 9 0xd 6), (0x66E24684, .vcvtHS 9 0xd 4),
      (0x66E2468C, .vcvtBhS 9 0xd 4), (0x66E24694, .vcvtES 9 0xd 4), (0x66E2469C, .vcvtWS 9 0xd 4),
      (0x66E246A4, .vcvtSW 9 0xd 4), (0x66E246AC, .vcvtSD 9 0xd 4), (0x66E246B4, .vcvtDS 9 0xd 4),
      (0x66E246BC, .vcvtLD 9 0xd 4), (0x66E246C4, .vcvtDL 9 0xd 4), (0x67024689, .vq 9 0xd 4 1),
      (0x67024699, .vqSc 9 0xd 4 1), (0x67224681, .vdq 9 0xd 1), (0x67224683, .vdqSc 9 0xd 1),
      (0x68104686, .boxt 0x41 0xd 6), (0x68304686, .trit 0x41 0xd 6), (0x68504686, .splt 0x41 0xd 6)] : List (BitVec 32 × Instr)),
    decodeWord p.1 = some p.2 ∧ encode p.2 = some p.1 ∧ p.2.wf = true := by decide

theorem test_decode_major_35_to_35 : ∀ p ∈ ([
      (0x6A024686, .vfaddD 9 0xd 6), (0x6A224686, .vfsubD 9 0xd 6), (0x6A424686, .vfmulD 9 0xd 6),
      (0x6A624686, .vfdivD 9 0xd 6), (0x6A824680, .vfsqrtD 9 0xd), (0x6AA24686, .vfmaD 9 0xd 6),
      (0x6AC24686, .vfminD 9 0xd 6), (0x6AE24686, .vfmaxD 9 0xd 6)] : List (BitVec 32 × Instr)),
    decodeWord p.1 = some p.2 ∧ encode p.2 = some p.1 ∧ p.2.wf = true := by decide
/-! ## Witnesses: every hypothesis of every statement, met by a state written here -/

theorem witness_IopResults : Ready ⟨[.g 3, .g 4, .g 5], [.g 3]⟩ (r2 0xF000000000000007 0x7F) := by decide

theorem witness_Iop2Results :
    Ready ⟨[.g 127, .g 4, .g 5], [.g 127]⟩ (r2 0 0) ∧ Ready ⟨[.g 127, .g 4], [.g 127]⟩ (r2 0 0) := by decide

theorem witness_DivideResults :
    (let s := r2 7 0; Ready ⟨[.g 3, .g 4, .g 5], [.g 3]⟩ s ∧ rd s 5 = 0) ∧
    (let s := r2 0x8000000000000000 0xFFFFFFFFFFFFFFFF
     Ready ⟨[.g 3, .g 4, .g 5], [.g 3]⟩ s ∧ rd s 4 = BitVec.intMin 64 ∧ rd s 5 = BitVec.allOnes 64) ∧
    (let s := r2 0x8000000000000001 0xFFFFFFFFFFFFFFFF
     Ready ⟨[.g 3, .g 4, .g 5], [.g 3]⟩ s ∧ rd s 5 ≠ 0 ∧ ¬(rd s 4 = BitVec.intMin 64 ∧ rd s 5 = BitVec.allOnes 64)) := by
  decide

theorem witness_FieldResults : Ready ⟨[.g 3, .g 4, .g 5], [.g 3]⟩ (r2 0xFFFF 0x4001) := by decide

theorem witness_PointerAndKeyResults :
    (let s := r2 0x80000000 5; Ready ⟨[.g 3, .g 4], [.g 3]⟩ s ∧ Ready ⟨[.g 3, .g 4, .g 5], [.g 3]⟩ s ∧
      (rd s 4).setWidth 32 = (0x80000000 : BitVec 32)) ∧
    (let z : BitVec 32 := (rd (r2 0x80000001 5) 4).setWidth 32; z ≠ 0x80000000 ∧ z.msb = true) ∧
    (let z : BitVec 32 := (rd (r2 0x7F800001 5) 4).setWidth 32; z ≠ 0x80000000 ∧ 0x7F800000 < z.toNat) ∧
    ((rd (r2 0x7F800000 5) 4).setWidth 32 : BitVec 32).toNat ≤ 0x7F800000 := by decide

theorem witness_ImmediateResults : Ready ⟨[.g 3, .g 4], [.g 3]⟩ (r2 0xFFFFFFFFFFFFFFFF 0) := by decide

theorem witness_PointerAddAndMovx :
    (let s := r2 0x01FFFFFFFFFFFFFE 1
     let sum : Int := ((rd s 4).toNat % 2 ^ 57 : Nat) + (rd s 5).toInt
     Ready ⟨[.g 3, .g 4, .g 5], [.g 3]⟩ s ∧ 0 ≤ sum ∧ sum < 2 ^ 57) ∧
    (let s := r2 0x01FFFFFFFFFFFFFF 1
     let sum : Int := ((rd s 4).toNat % 2 ^ 57 : Nat) + (rd s 5).toInt
     Ready ⟨[.g 3, .g 4, .g 5], [.g 3]⟩ s ∧ ¬(0 ≤ sum ∧ sum < 2 ^ 57)) ∧
    Ready ⟨[.g 3, .g 4, .idx 4 127], [.g 3]⟩ (r2 0 0) ∧
    (let s := r2 127 0
     let idx := (rd s 4).toInt + (1 : BitVec 11).toInt
     awaited s ⟨[.g 3, .g 4, .idx 4 1], [.g 3]⟩ = [] ∧ 3 < (cur s).winSize ∧ 4 < (cur s).winSize ∧
       ((cur s).winSize : Int) ≤ idx) ∧
    (rd (r2 0 0) 4).toInt + (0x7FF : BitVec 11).toInt < 0 := by decide

theorem witness_FloatResults :
    (let s := r2 0x7FF8000000000000 0xFFF0000000000001
     Ready ⟨[.g 3, .g 4, .g 5], [.g 3]⟩ s ∧ unpack fmtD (rd s 4).toNat = .nan ∧ unpack fmtD (rd s 5).toNat = .nan) ∧
    (let s := r2 0x7FF8000000000000 0
     unpack fmtD (rd s 4).toNat = .nan ∧ unpack fmtD (rd s 5).toNat ≠ .nan) ∧
    (let s := r2 0 0x7FC00000
     unpack fmtS (rd s 4).toNat ≠ .nan ∧ unpack fmtS (rd s 5).toNat = .nan) ∧
    (let s := r2 0x8000000000000000 0
     let x := unpack fmtD (rd s 4).toNat
     let y := unpack fmtD (rd s 5).toNat
     eqN x y = true ∧ x ≠ .nan ∧ (rd s 4).toNat / 2 ^ 63 = 1 ∧ (rd s 5).toNat / 2 ^ 63 = 0) ∧
    (let x := unpack fmtS 0x3F800000; let y := unpack fmtS 0x3F800001
     ltN x y = true ∧ eqN x x = true) := by decide

theorem witness_ConvertResults :
    (let s := r2 0x7FF0000000000001 0; Ready ⟨[.g 3, .g 4], [.g 3]⟩ s ∧ unpack fmtD (rd s 4).toNat = .nan) ∧
    unpack fmtD (rd (r2 0x7FF0000000000000 0) 4).toNat = .inf false ∧
    unpack fmtD (rd (r2 0xFFF0000000000000 0) 4).toNat = .inf true ∧
    (rd (r2 0xFFFFFFFFFFFFFFFF 0) 4).toInt < 0 ∧ 0 ≤ (rd (r2 0 0) 4).toInt ∧
    (0 < 0x7FE ∧ 0x7FE < 2 ^ 11 - 1) := by decide

theorem witness_BranchAndJumpResults :
    (let s := r2 5 5; Ready ⟨[.g 4, .g 5], []⟩ s ∧ rd s 4 = rd s 5) ∧
    (let s := r2 0xFFFFFFFFFFFFFFFF 0; rd s 4 ≠ rd s 5 ∧ (rd s 4).toInt < (rd s 5).toInt ∧ ¬(rd s 4).toNat < (rd s 5).toNat) ∧
    (let s := r2 8 0
     let t : Int := ((rd s 4).toNat % 2 ^ 57 : Nat) + 8 * (0x7FF : BitVec 11).toInt
     Ready ⟨[.g 3, .g 4], [.g 3]⟩ s ∧ t % 8 = 0 ∧ 0 ≤ t ∧ t < 2 ^ 57) ∧
    (((rd (r2 7 0) 4).toNat % 2 ^ 57 : Nat) + 8 * (0 : BitVec 11).toInt : Int) % 8 ≠ 0 ∧
    (let t : Int := ((rd (r2 0 0) 4).toNat % 2 ^ 57 : Nat) + 8 * (0x7FF : BitVec 11).toInt; t % 8 = 0 ∧ t < 0) ∧
    (let t : Int := ((rd (r2 0x01FFFFFFFFFFFFF8 0) 4).toNat % 2 ^ 57 : Nat) + 8 * (1 : BitVec 11).toInt
     t % 8 = 0 ∧ 2 ^ 57 ≤ t) := by decide

/-- A relaxed load of slot 0 that is outstanding. -/
def acc0 : Access := { id := 5, slot := 0, va := 0x10040, pages := [page0], act := .load 9 8 false, regs := [9], due := 2000 }

theorem witness_SysAndFenceResults :
    (Unmarked base ∧ (cur base).released = false ∧ hasRelaxed base 0 = false ∧ hasEngine base 0 = false) ∧
    (let s := un (fun c => { c with released := true }) base; Unmarked s ∧ (cur s).released = true) ∧
    (let s := onme (fun m => { m with relaxed := [acc0] }) base
     Unmarked s ∧ hasRelaxed s s.iss.slot = true ∧ (s.me.relaxed.filter fun a => a.slot == s.iss.slot).length ≤ 1 ∧
       ¬(s.me.relaxed.filter fun a => a.slot == s.iss.slot).length ≤ 0) ∧
    base.me.power = .cold ∧ (onme (fun m => { m with power := .quench 1064 }) base).me.power = .quench 1064 ∧
    (onme (fun m => { m with power := .kindle 1064 }) base).me.power = .kindle 1064 := by decide

theorem witness_SpecialRegisterReads : Ready ⟨[.g 3], [.g 3]⟩ base := by decide

theorem witness_SpecialRegisterWrites :
    (let s := r2 1 0x0000000800000008
     Ready ⟨[.g 4], []⟩ s ∧ Ready ⟨[], []⟩ s ∧ (cur s).prv = true ∧ (rd s 4).toNat ≤ 1 ∧ rotFault s.me.shadow = none ∧
       8 ≤ (rd s 5).toNat / 2 ^ 32 ∧ (rd s 5).toNat % 2 ^ 32 ≤ (rd s 5).toNat / 2 ^ 32) ∧
    (let v := rd (r2 0xFFFFFFFFFFFFFFF8 0) 4; v.toNat % 8 = 0) ∧
    (let v := rd (r2 0x800F800F800F800F 0) 4; v &&& 0x7FF07FF07FF07FF0 = 0) ∧
    (let v := rd (r2 0xFFFF 0) 4; 0 < v.toNat ∧ v.toNat < 2 ^ 16) ∧
    (let v := rd (r2 0xFFFFFFFFFFFF 0) 4; v.toNat < 2 ^ 48) ∧
    (let v := rd (r2 0x81C100 0) 4
     v.toNat < 2 ^ 27 ∧ (v.getLsbD 15 = true → v.extractLsb' 8 7 ≠ 0) ∧ (v.getLsbD 23 = true → v.extractLsb' 16 7 ≠ 0) ∧
       ¬(v.getLsbD 15 = true ∧ v.getLsbD 23 = true ∧ v.extractLsb' 8 7 = v.extractLsb' 16 7)) ∧
    (let v := rd (r2 0x7FFFFFFFF 0) 4; v.toNat < 2 ^ 35) ∧
    (let s := un (fun c => { c with prv := false }) base
     Ready ⟨[.g 4], []⟩ s ∧ (cur s).prv = false ∧ (0x080 : BitVec 12) ∈
       ([0x040, 0x041, 0x042, 0x043, 0x044, 0x050, 0x051, 0x060, 0x080] : List (BitVec 12))) := by decide

theorem witness_SpecialRegisterWrites_refused :
    (let s := un (fun c => { c with prv := false }) (r2 8 1); Ready ⟨[.g 4], []⟩ s ∧ Ready ⟨[.g 5], []⟩ s ∧ (cur s).prv = false ∧
      (rd s 4).toNat % 8 = 0 ∧ (rd s 5).toNat ≤ 1 ∧ (rd s 5).toNat < 2 ^ 27) ∧
    (rd (r2 0xFFFFFFFFFFFFFFF9 0) 4).toNat % 8 ≠ 0 ∧ 1 < (rd (r2 2 0) 4).toNat ∧
    (let v := rd (r2 0x858500 0) 4; v.toNat < 2 ^ 27 ∧ v.getLsbD 15 = true ∧ v.getLsbD 23 = true ∧ v.extractLsb' 8 7 = v.extractLsb' 16 7) ∧
    (let v := rd (r2 0x8010000000000000 0) 4; v &&& 0x7FF07FF07FF07FF0 ≠ 0) ∧
    (let s := onme (fun m => { m with shadow := 0x8001 :: m.shadow.drop 1 }) (r2 1 0); rotFault s.me.shadow = some 1) ∧
    (let v := rd (r2 0x0000000700000000 0) 4; v.toNat / 2 ^ 32 < 8) ∧
    (let v := rd (r2 0x0000000800000009 0) 4; v.toNat / 2 ^ 32 < v.toNat % 2 ^ 32) ∧
    ((rd (r2 0 0) 4).toNat = 0 ∧ 2 ^ 16 ≤ (rd (r2 0x10000 0) 4).toNat ∧ 2 ^ 48 ≤ (rd (r2 0x1000000000000 0) 4).toNat ∧
      2 ^ 35 ≤ (rd (r2 0x800000000 0) 4).toNat) ∧
    ((0x033 : BitVec 12) ∈ ([0x000, 0x001, 0x002, 0x003, 0x004, 0x005, 0x010, 0x011, 0x012, 0x020, 0x021, 0x032, 0x033] :
      List (BitVec 12))) := by
  decide

/-- An MXMAC command at the head of the matrix queue, not yet issued. -/
theorem witness_SpecialRegisterWrites_step : let c : EngCmd := newCmd (BitVec.ofNat 512 0x10) 0 0 base
    (onme (fun m => { m with mq := [c] }) base).me.mq = [c] ∧ base.me.inFlight = none ∧ base.me.mq = [] := ⟨rfl, rfl, rfl⟩

/-- A table in which each of eight slots stands twice, 8 positions apart. -/
def twice : List (BitVec 16) := (List.range 16).map fun p => BitVec.ofNat 16 (2 ^ 15 + p % 8)

theorem witness_RotationTables :
    (let s := onme (fun m => { m with rotPend := some (1, twice), phase := 8 }) base
     s.me.rotPend = some (1, twice) ∧ (s.clock + s.me.phase) % 16 = 0) ∧
    ∃ t, exec (.mts 4 0x044) (onme (fun m => { m with shadow := twice }) (r2 1 0)) = .next t ∧ t.iss.res = .retired ∧
      (onme (fun m => { m with shadow := twice }) (r2 1 0)).me.shadow.length = 16 ∧
      twice[7]? = some 0x8007 ∧ twice[15]? = some 0x8007 :=
  ⟨by decide, _, rfl, by decide, by decide, by decide, by decide⟩

theorem witness_TrapEntry :
    (cur base).tvec ≠ 0 ∧ (let s := un (fun c => { c with tvec := 0 }) base
      (cur s).tvec = 0 ∧ hasRelaxed s s.iss.slot = false) := by decide
/-- A page of host memory, and a host that the context fixes. -/
def hpage : Tr := ⟨0x10000, 0x10000, 0x400000000002001F, 0xFFFFFFFF010C0001⟩

/-- The scratchpad of the core acting, as a thread addresses it. -/
def swin : Word := 0x00FFFFFFFFF00000

/-- An access of slot 0 at 0x10040, before it issues. -/
def pacc (act : AccAct) : Access := { id := 0, slot := 0, va := 0x10040, pages := [page0], act := act, regs := [], due := 0 }

theorem witness_LoadResults : let s := r2 0x10008 0
    Ready ⟨[.g 9, .g 4], [.g 9]⟩ s ∧ Prompt s ∧
    checkAccess s s.me.dtlb false [(0x10000, .read)] = .ok [page0] ∧
    (∀ h ∈ (List.range 8).map fun k => homeOf s [page0] (0x10000 + k), isBad s h = false) ∧
    remoteHomes s.me.num ((List.range 8).map fun k => homeOf s [page0] (0x10000 + k)) = [] ∧
    ((rd s 4).toNat % 2 ^ 57 : Nat) + 8 * (0x7F : BitVec 7).toInt = 0x10000 :=
  ⟨by decide, by decide, rfl, by decide, by decide, by decide⟩

theorem witness_StoreResults : let s := r2 0x10008 0
    let homes := (List.range 8).map fun k => homeOf s [page0] (0x10000 + k)
    Ready ⟨[.g 9, .g 4], []⟩ s ∧ Prompt s ∧
    checkAccess s s.me.dtlb false [(0x10000, .write)] = .ok [page0] ∧ homes.Nodup ∧ (∀ h ∈ homes, isHost h = false) ∧
    remoteHomes s.me.num homes = [] ∧
    ((rd s 4).toNat % 2 ^ 57 : Nat) + 8 * (0x7F : BitVec 7).toInt = 0x10000 :=
  ⟨by decide, by decide, rfl, by decide, by decide, by decide, by decide⟩

/-- The first byte of core 1's scratchpad, as a thread of core 0 addresses it. -/
def rwin : Nat := Config.clusterWindow + Config.scratchBytes

/-- An access of slot 0 at core 1's scratchpad, before it issues. -/
def racc (act : AccAct) : Access := { id := 0, slot := 0, va := rwin, pages := [], act := act, regs := [], due := 0 }

theorem witness_RelaxedIssue :
    (let s := r2 0x10008 0
     Ready ⟨[.g 9, .g 4], [.g 9]⟩ s ∧ checkAccess s s.me.dtlb false [(0x10008, .read)] = .ok [page0] ∧
       checkAccess s s.me.dtlb false [(0x10008, .write)] = .ok [page0] ∧ inDevice 0x10008 = false ∧
       (s.me.relaxed.filter fun x => x.slot == s.iss.slot).length < 32) ∧
    (let s := onme (fun m => { m with relaxed := List.replicate 32 { acc0 with regs := [] } }) (r2 0x10008 0)
     Ready ⟨[.g 9, .g 4], [.g 9]⟩ s ∧ checkAccess s s.me.dtlb false [(0x10008, .read)] = .ok [page0] ∧
       32 ≤ (s.me.relaxed.filter fun x => x.slot == s.iss.slot).length) ∧
    (let s := r2 0x10040 0
     Ready ⟨[.v 9, .g 4, .v 3], [.v 9]⟩ s ∧ badFormat (rd s 4) = false ∧
       checkAccess s s.me.dtlb true (probesOf .read (pacc (.vload 9 (moveFmt (fmtOf (rd s 4))) (blOf (rd s 4)) (linearElems (fmtOf (rd s 4)) 0x10040) (tableOf s)))) =
           .ok [page0] ∧
       checkAccess s s.me.dtlb true (probesOf .write (pacc (.vstore (moveFmt (fmtOf (rd s 4))) (blOf (rd s 4)) (linearElems (fmtOf (rd s 4)) 0x10040) (lanesOf (moveFmt (fmtOf (rd s 4))) (rdV s 9)) (tableOf s)))) = .ok [page0]) ∧
    (let s := r2 0x10040 0
     let es := (indicesOf (fmtOf (rd s 4)) (rdV s 3)).map (indexed (fmtOf (rd s 4)) 0x10040)
     (∀ e ∈ es, 0 ≤ e.1 ∧ e.1 < 2 ^ 57 ∧ e.1 % elemBytes (fmtOf (rd s 4)) = 0) ∧
       checkAccess s s.me.dtlb false (probesOf .read (pacc (.vload 9 (fmtOf (rd s 4)) (blOf (rd s 4)) (es.map fun e => (e.1.toNat, e.2)) (tableOf s)))) = .ok [page0] ∧
       checkAccess s s.me.dtlb false (probesOf .write (pacc (.vstore (fmtOf (rd s 4)) (blOf (rd s 4)) (es.map fun e => (e.1.toNat, e.2)) (lanesOf (fmtOf (rd s 4)) (rdV s 9)) (tableOf s)))) = .ok [page0]) := by
  refine ⟨⟨by decide, rfl, rfl, by decide⟩, ⟨by decide, rfl, by decide⟩, ⟨by decide, by decide, rfl, rfl⟩, by decide, rfl, rfl⟩

/-- The scratchpad atom of core 0 at offset 0x40 as a pointer of format F32 names it. -/
def sptr : Word := 0x00FFFFFFFFF00040

theorem witness_RelaxedIssue_own :
    (let s := r2 sptr 0
     let homes := (List.range 8).map fun k => homeOf s [] (sptr.toNat + k)
     Ready ⟨[.g 9, .g 4], [.g 9]⟩ s ∧ s.me.relaxed = [] ∧ s.me.posted = [] ∧ inDevice sptr.toNat = true ∧
       checkAccess s s.me.dtlb false [(sptr.toNat, .read)] = .ok [] ∧ checkAccess s s.me.dtlb false [(sptr.toNat, .write)] = .ok [] ∧
       remoteHomes s.me.num homes = [] ∧ homes.Nodup ∧ (∀ h ∈ homes, isHost h = false) ∧ (∀ h ∈ homes, isBad s h = false) ∧
       ∃ h ∈ homes, isBad { s with poison := [scratchHome 0 0x40 / 32] } h = true) ∧
    (let s := r2 sptr 0
     let f := fmtOf (rd s 4)
     let es := (indicesOf f (rdV s 3)).map (indexed f sptr.toNat)
     let es' := es.map fun e => (e.1.toNat, e.2)
     let acc (act : AccAct) : Access := { id := 0, slot := 0, va := sptr.toNat, pages := [], act := act, regs := [], due := 0 }
     let lin := linearElems f sptr.toNat
     let ld (f : Nat) (l : List (Nat × Bool)) : Access := acc (.vload 9 f (blOf (rd s 4)) l (tableOf s))
     let st (f : Nat) (l : List (Nat × Bool)) : Access := acc (.vstore f (blOf (rd s 4)) l (lanesOf f (rdV s 9)) (tableOf s))
     Ready ⟨[.v 9, .g 4, .v 3], [.v 9]⟩ s ∧ badFormat (rd s 4) = false ∧ sptr.toNat < Config.controlWindow ∧
       checkAccess s s.me.dtlb true (probesOf .read (ld (moveFmt f) lin)) = .ok [] ∧
       checkAccess s s.me.dtlb false (probesOf .read (ld f es')) = .ok [] ∧
       checkAccess s s.me.dtlb true (probesOf .write (st (moveFmt f) lin)) = .ok [] ∧
       checkAccess s s.me.dtlb false (probesOf .write (st f es')) = .ok [] ∧
       (∀ e ∈ es, 0 ≤ e.1 ∧ e.1 < 2 ^ 57 ∧ e.1 % elemBytes f = 0) ∧
       (∀ a ∈ [ld (moveFmt f) lin, ld f es', st (moveFmt f) lin, st f es'], ∀ x ∈ accAddrs a, inDevice x = true ∧
         remoteHomes s.me.num [homeOf s [] x] = [] ∧ isHost (homeOf s [] x) = false ∧ isBad s (homeOf s [] x) = false)) := by
  refine ⟨⟨by decide, by decide, by decide, by decide, rfl, rfl, by decide, by decide, by decide, by decide, by decide⟩,
    by decide, by decide, by decide, rfl, rfl, rfl, rfl, by decide, by decide⟩

/-- R27: of two catches that meet one bank in one cycle the second waits, and has the bank in the next cycle. -/
theorem test_catches_take_turns :
    let r : Catch := ⟨1000, 2, 7, 3, scratchHome 0 0, [], false⟩
    let u := serveCatch r (onme (fun m => { m with catches := [r, { r with n := 5 }] }) base)
    nextCatch u 0 = none ∧ nextCatch { u with clock := 1001 } 0 = some { r with n := 5 } := by decide

/-- R27: a thread that forfeited at a bank comes before an access through the cluster window. -/
theorem test_forfeited_thread_first :
    let s := un (fun c => { c with forfeited := [0] }) base
    bankOpen base 0 = true ∧ (bankOpen s 0 = false ↔ (issuing (atZero s)).map (·.1) = some 0) := by decide

/-- R221, R233: an unaligned LDV through a RAW pointer that runs past a port, or past the layout table, traps PERM at the first byte
outside. -/
theorem test_raw_load_off_a_port :
    let chk (va : Nat) : Chk := checkAccess base [] true (probesOf .read (racc (.vload 9 1 0 (linearElems 1 va) (tableOf base))))
    chk (Config.controlWindow + 0x0A04) = .trap cPerm (Config.controlWindow + 0x0A40) ∧
    chk (Config.controlWindow + 0x1FFC) = .trap cPerm (Config.controlWindow + 0x2000) := ⟨rfl, rfl⟩

theorem witness_RelaxedIssue_waits :
    (let s := r2 (BitVec.ofNat 64 rwin) 0
     Ready ⟨[.g 9, .g 4], [.g 9]⟩ s ∧ checkAccess s s.me.dtlb false [(rwin, .read)] = .ok [] ∧
       checkAccess s s.me.dtlb false [(rwin, .write)] = .ok [] ∧
       remoteHomes s.me.num ((List.range 8).map fun k => homeOf s [] (rwin + k)) ≠ []) ∧
    (let s : State := { r2 0x10008 0 with delays := [3] }
     Ready ⟨[.g 9, .g 4], [.g 9]⟩ s ∧ checkAccess s s.me.dtlb false [(0x10008, .read)] = .ok [page0] ∧
       checkAccess s s.me.dtlb false [(0x10008, .write)] = .ok [page0] ∧ inDevice 0x10008 = false ∧ s.delays = [2 + 1]) ∧
    (let s := r2 (BitVec.ofNat 64 rwin) 0
     let f := fmtOf (rd s 4)
     let es := (indicesOf f (rdV s 3)).map (indexed f rwin)
     let es' := es.map fun e => (e.1.toNat, e.2)
     let ld (f : Nat) (l : List (Nat × Bool)) : Access := racc (.vload 9 f (blOf (rd s 4)) l (tableOf s))
     let st (f : Nat) (l : List (Nat × Bool)) : Access := racc (.vstore f (blOf (rd s 4)) l (lanesOf f (rdV s 9)) (tableOf s))
     let lin := linearElems f rwin
     Ready ⟨[.v 9, .g 4, .v 3], [.v 9]⟩ s ∧ badFormat (rd s 4) = false ∧
       checkAccess s s.me.dtlb true (probesOf .read (ld (moveFmt f) lin)) = .ok [] ∧
       checkAccess s s.me.dtlb false (probesOf .read (ld f es')) = .ok [] ∧
       checkAccess s s.me.dtlb true (probesOf .write (st (moveFmt f) lin)) = .ok [] ∧
       checkAccess s s.me.dtlb false (probesOf .write (st f es')) = .ok [] ∧
       (∀ e ∈ es, 0 ≤ e.1 ∧ e.1 < 2 ^ 57 ∧ e.1 % elemBytes f = 0) ∧
       remoteHomes s.me.num ((accAddrs (ld f es')).map (homeOf s [])) ≠ [] ∧
       remoteHomes s.me.num ((accAddrs (st (moveFmt f) lin)).map (homeOf s [])) ≠ [] ∧
       ∀ a ∈ [ld (moveFmt f) lin, ld f es', st (moveFmt f) lin, st f es'], ∀ x ∈ accAddrs a,
         inDevice x = false ∨ remoteHomes s.me.num [homeOf s [] x] ≠ []) := by
  refine ⟨⟨by decide, rfl, rfl, by decide⟩, ⟨by decide, rfl, rfl, by decide, by decide⟩, by decide, by decide, rfl, rfl, rfl, rfl,
    by decide, by decide, by decide, by decide⟩

theorem witness_AccessReplies :
    (let x := { acc0 with due := 1000 }
     let s := onme (fun m => { m with relaxed := [x] }) base
     x.act = .load 9 8 false ∧ x.got = [] ∧ x.due ≤ s.clock ∧ s.me.relaxed = [x] ∧ s.me.posted = [] ∧ x.regs = [9] ∧
       (∀ h ∈ (List.range 8).map fun k => homeOf s x.pages (x.va + k), isBad s h = false) ∧
       (∃ h ∈ (List.range 8).map fun k => homeOf s x.pages (x.va + k), isBad { s with poison := [2] } h = true)) ∧
    (let x := { acc0 with due := 1000 }
     let s := un (fun c => { c with st := .waiting (.reply x) }) base
     x.due ≤ s.clock ∧ s.me.relaxed = [] ∧ s.me.posted = [] ∧ (slotOf s x.slot).st = .waiting (.reply x) ∧
       (slotOf s x.slot).partner = none ∧ (slotOf s x.slot).widx = 0) ∧
    (let x := { racc (.load 9 8 false) with due := 1000 }
     let s := un (fun c => { c with st := .waiting (.reply x) }) { base with clock := 999 }
     x.got = [] ∧ s.clock < x.due ∧ x.parts = [] ∧ (slotOf s x.slot).st = .waiting (.reply x) ∧
       (onme (fun m => { m with relaxed := [x] }) s).me.relaxed = [x]) ∧
    (let s := un (fun c => { c with st := .held 1000, pend := [(7, 99)] }) base
     (slotOf s 0).st = .held 1000 ∧ 1000 ≤ s.clock ∧ (slotOf s 0).pend = [(7, 99)]) ∧
    (let p : Posted := ⟨0, true, 1000, [page0], [(0x10005, 0xFF, 3), (0x10009, 0x0F, 4)], true⟩
     let s := un (fun c => { c with st := .waiting .posted }) (onme (fun m => { m with posted := [p] }) base)
     s.me.posted = [p] ∧ (slotOf s p.slot).st = .waiting .posted ∧ p.due ≤ s.clock ∧
       (p.bytes.map fun e => homeOf s p.pages e.1).Nodup) := by decide

theorem witness_VectorAccessResults : let s := r2 0x10040 0
    let p := rd s 4
    let es := (indicesOf (fmtOf p) (rdV s 3)).map (indexed (fmtOf p) 0x10040)
    let es' := es.map fun e => (e.1.toNat, e.2)
    let ld (f : Nat) (l : List (Nat × Bool)) : Access := (pacc (.vload 9 f (blOf p) l (tableOf s)))
    let st (f : Nat) (l : List (Nat × Bool)) : Access :=
      (pacc (.vstore f (blOf p) l (lanesOf f (rdV s 9)) (tableOf s)))
    let lin := linearElems (fmtOf p) 0x10040
    let mf := moveFmt (fmtOf p)
    (Ready ⟨[.v 9, .g 4, .v 3], [.v 9]⟩ s ∧ Prompt s ∧ badFormat p = false ∧
      (∀ e ∈ es, 0 ≤ e.1 ∧ e.1 < 2 ^ 57 ∧ e.1 % elemBytes (fmtOf p) = 0)) ∧
    checkAccess s s.me.dtlb true (probesOf .read (ld mf lin)) = .ok [page0] ∧
    checkAccess s s.me.dtlb false (probesOf .read (ld (fmtOf p) es')) = .ok [page0] ∧
    checkAccess s s.me.dtlb true (probesOf .write (st mf lin)) = .ok [page0] ∧
    checkAccess s s.me.dtlb false (probesOf .write (st (fmtOf p) es')) = .ok [page0] ∧
    (∀ v ∈ accAddrs (ld mf lin) ++ accAddrs (ld (fmtOf p) es'), isBad s (homeOf s [page0] v) = false) ∧
    (let b := storeBytes s [page0] mf (blOf p) (tableOf s) lin (lanesOf mf (rdV s 9))
     b ≠ [] ∧ ∀ e ∈ b, isHost e.1 = false) ∧
    (let b := storeBytes s [page0] (fmtOf p) (blOf p) (tableOf s) es' (lanesOf (fmtOf p) (rdV s 9))
     b ≠ [] ∧ ∀ e ∈ b, isHost e.1 = false) ∧
    (∀ x ∈ [ld mf lin, ld (fmtOf p) es', st mf lin, st (fmtOf p) es'], remoteHomes s.me.num ((accAddrs x).map (homeOf s [page0])) = []) := by
  refine ⟨by decide, rfl, rfl, rfl, rfl, by decide, by decide, by decide, by decide⟩

theorem witness_AtomicResults : let s := r2 0x10048 0
    let homes := (List.range 8).map fun k => homeOf s [page0] (0x10048 + k)
    Ready ⟨[.g 9, .g 4, .g 5], [.g 9]⟩ s ∧ Prompt s ∧ onHost s 0x10048 = false ∧
    checkAccess s s.me.dtlb false [(0x10048, .atomic)] = .ok [page0] ∧ homes.Nodup ∧ (∀ h ∈ homes, isBad s h = false) ∧ remoteHomes s.me.num homes = [] ∧
    (let s := r2 (BitVec.ofNat 64 rwin) 0
     let homes := (List.range 8).map fun k => homeOf s [] (rwin + k)
     onHost s rwin = false ∧ checkAccess s s.me.dtlb false [(rwin, .atomic)] = .ok [] ∧ homes.Nodup ∧
       remoteHomes s.me.num homes ≠ []) :=
  ⟨by decide, by decide, by decide, rfl, by decide, by decide, by decide, by decide, rfl, by decide, by decide⟩

/-- The page 0x10000 with the right to read alone. -/
def readOnly : Tr := { page0 with w0 := 0x7 }

/-- Slot 0 about to touch 0x10008, with the page `u` in its TLB, and core 384, of die 1, in the partition. -/
def tlb1 (u : Tr) : State :=
  onme (fun m => { m with dtlb := [⟨0, u⟩] }) { r2 0x10008 0 with ctx := { base.ctx with cores := [0, 1, 384] } }

/-- The page 0x10000 with its REACH and its home die. -/
def rch (w : Nat) : Tr := { page0 with w1 := BitVec.ofNat 64 w }

theorem witness_AccessTraps_scalar :
    (let s := r2 0 0; Ready ⟨[.g 9, .g 4, .g 5], [.g 9]⟩ s ∧ ((rd s 4).toNat % 2 ^ 57 : Nat) + 8 * (0x7F : BitVec 7).toInt < (0 : Int)) ∧
    ((2 ^ 57 : Int) ≤ ((rd (r2 0x01FFFFFFFFFFFFFF 0) 4).toNat % 2 ^ 57 : Nat) + 1 * (1 : BitVec 7).toInt) ∧
    (((rd (r2 7 0) 4).toNat % 2 ^ 57 : Nat) + 2 * (0 : BitVec 7).toInt : Int) % 2 ≠ 0 ∧
    (let s := onme (fun m => { m with dtlb := [⟨0, hpage⟩] }) (r2 0x10004 0)
     (rd s 4).toNat % 2 ^ 57 % 4 = 0 ∧ (rd s 4).toNat % 2 ^ 57 % 8 ≠ 0 ∧ onHost s 0x10004 = true) ∧
    (let a := (rd (r2 0x00FFFFFFFFFF0A00 0) 4).toNat % 2 ^ 57
     a % 8 = 0 ∧ Config.controlWindow ≤ a ∧ a < Config.deviceTop) := by decide

theorem witness_AccessTraps_device : let s := r2 0x00FFFFFFFFFF3000 0
    inDevice 0x00FFFFFFFFFF3000 = true ∧ deviceHome s 0x00FFFFFFFFFF3000 = none ∧
    deviceHome s 0x00FFFFFFFFFF0A00 = some portHome ∧ deviceAllows .write false portHome = false := by decide

theorem witness_AccessTraps_miss :
    (let s := r2 0x80000 0
     ([(0x80000, .read)] : List Probe).find? (fun p => !inDevice p.1 && (tlbFind s.me.dtlb s.iss.slot p.1).isNone) =
       some (0x80000, .read) ∧ (cur s).denied = none) ∧
    (cur (un (fun c => { c with denied := some 0x80000 }) (r2 0x80000 0))).denied = some 0x80000 := by decide

theorem witness_AccessTraps_pages :
    (∀ w ∈ [0x010C0001, 0xFFFFFFFF040C0001, 0xFFFFFFFF060C0001, 0x0000000106000001, 0x0000001006000001],
      tlbFind (tlb1 (rch w)).me.dtlb (tlb1 (rch w)).iss.slot 0x10008 = some (rch w) ∧ holds (rch w) 0x10008 = true ∧
        inDevice 0x10008 = false) ∧
    pageForbids true 0 .read (rch 0x010C0001) = true ∧
    (let u := rch 0xFFFFFFFF040C0001; pageForbids true 0 .write u = false ∧ trReach u = 0 ∧ trHdie u ≠ myDie (tlb1 u)) ∧
    (let u := rch 0xFFFFFFFF060C0001
     let s := tlb1 u
     trReach u = 2 ∧ trHdie u = 1 ∧ trHdie u ≠ myDie s ∧ (dieAt s 1).inReset = false ∧ trTgt u = 0 ∧ 384 ∈ s.ctx.cores ∧
       dieOf 384 = 1 ∧ bits u.w1 (32 + clusterOf 384) 1 = 1) ∧
    (let u := rch 0xFFFFFFFF060C0001
     let s := setDie 1 { startDie with inReset := true } (tlb1 u)
     (dieAt s 1).inReset = true ∧ tlbFind s.me.dtlb s.iss.slot 0x10008 = some u) ∧
    (let u := rch 0x0000000106000001
     ∀ c ∈ (tlb1 u).ctx.cores, dieOf c = trHdie u → bits u.w1 (32 + clusterOf c) 1 = 0) ∧
    (let s : State := { tlb1 page0 with memDown := [0] }
     controllerDown s (homeIn s page0 0x10008) = true ∧ pageForbids true 0 .read page0 = false ∧ trReach page0 = 1) := by decide

/-- A vector access over two pages of DIE REACH whose homes are dies 1 and 2. -/
theorem witness_AccessTraps_split : let u := rch 0xFFFFFFFF060C0001
    let v : Tr := { page1 with w1 := 0xFFFFFFFF0A0C0001 }
    let s := onme (fun m => { m with dtlb := [⟨0, u⟩, ⟨0, v⟩] }) (r2 0x1FFC0 0)
    [u, v].Pairwise (fun u v => u.vbase + u.size ≤ v.vbase) ∧ tlbFind s.me.dtlb s.iss.slot 0x1FFFC = some u ∧
    tlbFind s.me.dtlb s.iss.slot 0x20000 = some v ∧ trReach u = 2 ∧ trReach v = 2 ∧ trHdie v ≠ trHdie u ∧
    pageForbids true 0 .read u = false ∧ pageForbids true 0 .read v = false := by decide

theorem witness_AccessTraps_vector :
    (let s := r2 0x1000000000010042 0
     let p := rd s 4
     Ready ⟨[.v 9, .g 4, .v 3], [.v 9]⟩ s ∧ p.toNat / 2 ^ 59 = 2 ∧
       ((p.toNat % 2 ^ 57 : Nat) + 64 * (0 : BitVec 7).toInt : Int) % elemBytes 2 ≠ 0) ∧
    (let p := rd (r2 0x11FFFFFFFFFFFFC4 0) 4
     (2 ^ 57 : Int) < (p.toNat % 2 ^ 57 : Nat) + 64 * (0 : BitVec 7).toInt + vecBytes (p.toNat / 2 ^ 59)) ∧
    ((rd (r2 0x2800000000010040 0) 4).toNat / 2 ^ 59 = 5 ∧ (0x10040 : Int) % elemBytes 5 = 0) ∧
    (let p := rd (r2 0x1200000000010040 0) 4
     p.toNat / 2 ^ 57 % 4 = 1 ∧ p.toNat / 2 ^ 59 ∉ [0x08, 0x09]) ∧
    (let p := rd (r2 0x1000000000010040 0) 4
     p.toNat / 2 ^ 59 ∈ [0x00, 0x01, 0x02, 0x03, 0x04, 0x08, 0x09, 0x10, 0x11, 0x12, 0x13] ∧ p.toNat / 2 ^ 57 % 4 = 0 ∧
       (0x10040 : Int) % elemBytes 2 = 0) ∧
    (let s := regs [(25, 0xFFFFFFFF00000001)] base
     ((indicesOf 2 (rdV s 3)).map (indexed 2 0)).find? (fun e => decide (e.1 < 0 ∨ 2 ^ 57 ≤ e.1)) = some (-4, false)) ∧
    (((indicesOf 2 (rdV base 3)).map (indexed 2 0x10041)).find? (fun e => decide (e.1 % (elemBytes 2 : Int) ≠ 0)) =
      some (0x10041, false)) := by
  decide

/-- Two accesses that meet a marked atom. -/
theorem witness_AccessTraps_poison :
    (let s : State := { r2 0x10048 0 with poison := [2] }
     let homes := (List.range 8).map fun k => homeOf s [page0] (0x10048 + k)
     Prompt s ∧ (cur s).tvec ≠ 0 ∧ Ready ⟨[.g 9, .g 4, .g 5], [.g 9]⟩ s ∧ onHost s 0x10048 = false ∧
       (∀ kind ∈ [AccKind.read, .atomic], checkAccess s s.me.dtlb false [(0x10048, kind)] = .ok [page0]) ∧
       remoteHomes s.me.num homes = [] ∧ ∃ h ∈ homes, isBad s h = true) ∧
    (let s : State := { r2 0x10040 0 with poison := [2] }
     let p := rd s 4
     let es := (indicesOf (fmtOf p) (rdV s 3)).map (indexed (fmtOf p) 0x10040)
     let ld (f : Nat) (l : List (Nat × Bool)) : Access := (pacc (.vload 9 f (blOf p) l (tableOf s)))
     let lin := ld (moveFmt (fmtOf p)) (linearElems (fmtOf p) 0x10040)
     let ind := ld (fmtOf p) (es.map fun e => (e.1.toNat, e.2))
     Ready ⟨[.v 9, .g 4, .v 3], [.v 9]⟩ s ∧ badFormat p = false ∧
       checkAccess s s.me.dtlb true (probesOf .read lin) = .ok [page0] ∧
       checkAccess s s.me.dtlb false (probesOf .read ind) = .ok [page0] ∧
       ∀ a ∈ [lin, ind], remoteHomes s.me.num ((accAddrs a).map (homeOf s [page0])) = [] ∧
         ∃ h ∈ (accAddrs a).map (homeOf s [page0]), isBad s h = true) := by
  refine ⟨⟨by decide, by decide, by decide, by decide, by decide, by decide, by decide⟩, by decide, by decide, rfl, rfl, by decide⟩

theorem witness_VectorArithmetic : Ready ⟨[.v 15, .v 1, .v 2], [.v 15]⟩ base := by decide

theorem witness_VectorMovesAndFolds :
    (let s := r2 0 15; Ready ⟨[.v 3, .v 1, .v 2, .g 100, .g 4, .g 5], [.v 3]⟩ s ∧ (rd s 5).toNat < 16) ∧
    (16 ≤ (rd (r2 0 23) 5).toNat ∧ (rd (r2 0 23) 5).toNat < 24) ∧ 24 ≤ (rd (r2 0 24) 5).toNat ∧
    Ready ⟨[.g 100, .v 1], [.g 100]⟩ base ∧ Ready ⟨[.v 3, .v 1], [.v 3]⟩ base := by decide

theorem witness_ConversionResults :
    (let s := r2 255 0x7FFFF
     Ready ⟨[.v 3, .v 1, .g 4, .g 5], [.v 3]⟩ s ∧ (rd s 4).toNat < 256 ∧ (rd s 5).toNat < 2 ^ 19 ∧
       s.me.table.half.length = 128) ∧ 256 ≤ (rd (r2 256 0) 4).toNat := by decide

theorem witness_HandleResults :
    (let s := r2 9 0
     Ready ⟨[.g 3, .g 4, .g 5], [.g 3]⟩ s ∧ rd s 4 = BitVec.ofNat 64 ((hGet s 9).gen.toNat * 2 ^ 16 + 9) ∧
       (hGet s 9).ring = false ∧ rd s 5 = 0 ∧ (hGet s 9).st = .free ∧ (rd s 5).toNat = hCode (hGet s 9).st ∧
       hasPosted s s.iss.slot = false ∧ hasPosted (onme (fun m => { m with posted := [⟨0, true, 2000, [], [], true⟩] }) s) s.iss.slot = true) ∧
    (let s := hnd 63 (fun v => { v with gen := 7, st := .full }) (r2 0x7003F 2)
     rd s 4 = BitVec.ofNat 64 ((hGet s 63).gen.toNat * 2 ^ 16 + 63) ∧ (hGet s 63).ring = false ∧ rd s 5 = 2 ∧
       (hGet s 63).st = .full) ∧
    (let s := hnd 9 (fun v => { v with st := .filling, owner := 0 }) (r2 9 0)
     rd s 4 = BitVec.ofNat 64 ((hGet s 9).gen.toNat * 2 ^ 16 + 9) ∧ rd s 5 = 0 ∧ (hGet s 9).st ≠ .free ∧
       (hGet s 9).st = .filling ∧ (hGet s 9).owner.toNat = s.iss.slot) ∧
    (let s := hnd 9 (fun v => { v with gen := 0xFFFF, st := .draining, owner := 0 }) (r2 0xFFFF0009 2)
     rd s 4 = BitVec.ofNat 64 ((hGet s 9).gen.toNat * 2 ^ 16 + 9) ∧ rd s 5 = 2 ∧ (hGet s 9).st = .draining ∧
       (hGet s 9).owner.toNat = s.iss.slot) ∧
    (let s := r2 48 16
     rd s 4 = BitVec.ofNat 64 48 ∧ rd s 5 = BitVec.ofNat 64 16 ∧
       ∀ k < 16, (hGet s (48 + k)).st = .free ∧ (hGet s (48 + k)).ring = false) ∧
    (let s := r2 0x50009 0
     (5 : BitVec 16) ≠ (hGet s 9).gen ∧ rd s 4 = BitVec.ofNat 64 ((5 : BitVec 16).toNat * 2 ^ 16 + 9) ∧ rd s 5 = 0) := by
  decide

/-- A message that waits for a thread of core 0. -/
def msg0 : Message := { hdr := 0x0003550010000080, body := [1, 2, 3, 4, 5, 6, 7], ntask := 0, tag := 0 }

theorem witness_MessageWords :
    (let s := regs [(4, 0xBEEF000000001F00)] base
     Ready ⟨[.g 4, .run 5 7], []⟩ s ∧ rd s 4 &&& 0x0000FFFFFF00003F = 0 ∧ (rd s 4).toNat / 2 ^ 12 % 2 ^ 12 ∈ s.ctx.cores ∧
       (coreOf s 1).mbox.length + (coreOf s 1).reserved < 32 ∧ (coreOf s 1).devWait = [] ∧ hasPosted s s.iss.slot = false ∧
       hasPosted (onme (fun m => { m with posted := [⟨0, true, 2000, [], [], true⟩] }) s) s.iss.slot = true) ∧
    (let s := onme (fun m => { m with mbox := List.replicate 30 msg0, reserved := 2 }) (regs [(4, 0xBEEF000000000F00)] base)
     Ready ⟨[.g 4, .run 121 7], []⟩ s ∧ (rd s 4).toNat / 2 ^ 12 % 2 ^ 12 = 0 ∧
       32 ≤ (coreOf s 0).mbox.length + (coreOf s 0).reserved) ∧
    ((coreOf (onme (fun m => { m with devWait := [msg0] }) base) 0).devWait ≠ []) ∧
    (let s := onme (fun m => { m with mbox := [msg0] }) (regs [(4, 0x0003000010000000)] base)
     Ready ⟨[.g 4, .run 120 8], [.run 120 8]⟩ s ∧ msg0.body.length = 7 ∧ s.me.mbox.find? (recvEligible s) = some msg0 ∧
       s.me.mbox.find? (fun y => recvEligible s y && (hdrSeq y.hdr == (rd s 4).toNat / 2 ^ 48) &&
         (hdrFrom y.hdr == (rd s 4).toNat / 2 ^ 24 % 2 ^ 16)) = some msg0) ∧
    (Ready ⟨[.g 4, .run 120 8], [.run 120 8]⟩ base ∧ base.me.mbox.find? (recvEligible base) = none ∧
       base.me.mbox.find? (fun y => recvEligible base y && (hdrSeq y.hdr == (rd base 4).toNat / 2 ^ 48) &&
         (hdrFrom y.hdr == (rd base 4).toNat / 2 ^ 24 % 2 ^ 16)) = none) ∧
    (Ready ⟨[.g 3], [.g 3]⟩ base ∧ base.me.mbox.length + base.me.reserved ≤ 32) := by decide
/-- A core-addressed message of type 0x55 for core 0, and a vector entry for it: window of 16, with privilege. -/
def msgA : Message := { hdr := mkHdr 3 0x55 1 2 0 0 false false, body := [1, 2, 3, 4, 5, 6, 7], ntask := 0, tag := 0 }

def vecA : Word := BitVec.ofNat 64 (2 ^ 63 + 2 ^ 62 + 2 ^ 54 + 0x4000)

def arr (s : State) : State := onme (fun m => { m with vectors := spSet 0 [] 0x55 vecA }) s

/-- A slot-addressed message for slot k of core 0, and one of a device unit for the principal. -/
def msgD (k : Nat) : Message := { msgA with hdr := mkHdr 3 0x55 1 2 0 k true false }

/-- An EFAULT of a unit of core 0 for slot 3. -/
def msgU : Message := { msgA with hdr := mkHdr 0 0xF6 0 3 0 3 true false }

def msgF (type : Nat) : Message := { msgA with hdr := mkHdr 0 type 0 3 0 15 true true }

theorem witness_MessageArrivals :
    (let s : State := { arr base with net := [⟨msgA, 1000, true⟩] }
     let e := vectorOf s.me (hdrType msgA.hdr)
     netFind s msgA = some ⟨msgA, 1000, true⟩ ∧ hdrDk msgA.hdr = false ∧ msgA.body.length = 7 ∧
       vEn e = true ∧ noOlder s.me e = true ∧ s.me.created ≠ some s.clock ∧ s.switch = .resident ∧ s.ctx.fixed = false ∧
       freeSlot s.me (vClass e) = some 1 ∧ findWindow s.me (vWin e) = some 192) ∧
    (let s : State := { onme (fun m => { m with created := some 1000 }) (arr base) with net := [⟨msgA, 1000, true⟩] }
     netFind s msgA = some ⟨msgA, 1000, true⟩ ∧ vEn (vectorOf s.me (hdrType msgA.hdr)) = true ∧
       canStart s (vectorOf s.me (hdrType msgA.hdr)) = none ∧ s.me.mbox.length + s.me.reserved < 32 ∧
       ¬ (onme (fun m => { m with reserved := 32 }) s).me.mbox.length + 32 < 32) ∧
    (let s : State := { base with net := [⟨msgA, 1000, true⟩] }
     netFind s msgA = some ⟨msgA, 1000, true⟩ ∧ vEn (vectorOf s.me (hdrType msgA.hdr)) = false) ∧
    (let s : State := { base with net := [⟨msgD 9, 1000, true⟩, ⟨msgD 3, 1000, true⟩] }
     netFind s (msgD 9) = some ⟨msgD 9, 1000, true⟩ ∧ hdrDk (msgD 9).hdr = true ∧ slotEmpty s (hdrSlot (msgD 9).hdr) = true ∧
       netFind s (msgD 3) = some ⟨msgD 3, 1000, true⟩ ∧ slotEmpty s (hdrSlot (msgD 3).hdr) = false ∧
       (slotOf s (hdrSlot (msgD 3).hdr)).st ≠ .migrating ∧ (msgD 3).body.length = 7 ∧ forPrincipal s true (msgD 3) = false) ∧
    (let s : State := { onme (fun m => { m with reserved := 32 }) base with net := [⟨msgU, 1000, false⟩] }
     netFind s msgU = some ⟨msgU, 1000, false⟩ ∧ hdrType msgU.hdr ≠ 0xF1 ∧ hdrType msgU.hdr ≠ 0xF2 ∧ slotEmpty s 3 = false ∧
       forPrincipal s false msgU = false ∧ ¬ s.me.mbox.length + s.me.reserved < 32) ∧
    (let g : Migrant := { slot := { slotOf base 3 with st := .migrating }, words := [], mail := [], core := 0, from_ := 3, mask := 1 }
     let s : State := { setDie 1 { startDie with arrivals := [g] } (setSlot 3 { slotOf base 3 with st := .migrating } base) with
       net := [⟨msgD 3, 1000, true⟩] }
     (slotOf s 3).st = .migrating ∧ slotEmpty s 3 = false ∧ g ∈ (dieAt s 1).arrivals ∧ g.core = s.me.num ∧
       g.from_ = hdrSlot (msgD 3).hdr ∧ netFind s (msgD 3) = some ⟨msgD 3, 1000, true⟩) ∧
    (let s : State := { arr base with ctx := { base.ctx with fixed := true } }
     s.ctx.fixed = true ∧ hdrNc msgU.hdr = 0) ∧
    (let s : State := { base with net := [⟨msgF 0xF1, 1000, false⟩, ⟨msgF 0xF2, 1000, false⟩] }
     netFind s (msgF 0xF1) = some ⟨msgF 0xF1, 1000, false⟩ ∧ forPrincipal s false (msgF 0xF1) = true ∧
       netFind s (msgF 0xF2) = some ⟨msgF 0xF2, 1000, false⟩ ∧ forPrincipal s false (msgF 0xF2) = true ∧
       slotEmpty s 15 = false ∧ (slotOf s 15).st ≠ .migrating ∧ s.me.mbox.length + s.me.reserved < 32 ∧
       32 ≤ (onme (fun m => { m with reserved := 32 }) s).me.mbox.length + (onme (fun m => { m with reserved := 32 }) s).me.reserved) ∧
    (let s := onme (fun m => { m with mbox := [msgA] }) (arr base)
     nextWaiting s.me 0 = some msgA ∧ canStart s (vectorOf s.me (hdrType msgA.hdr)) = some (1, 192)) ∧
    (let s := onme (fun m => { m with devWait := [msgF 0xF1, msgF 0xF2], reserved := 31 }) base
     s.me.devWait = [msgF 0xF1, msgF 0xF2] ∧ s.me.mbox.length + s.me.reserved < 32 ∧ hdrType (msgF 0xF1).hdr = 0xF1 ∧
       hdrType (msgF 0xF2).hdr = 0xF2 ∧ forPrincipal s false (msgF 0xF2) = true) := by
  refine ⟨by decide, by decide, by decide, by decide, by decide, by decide, by decide, by decide, by decide, by decide⟩

def barS (id : Nat) (b : Barrier) (s : State) : State := onme (fun m => { m with bars := spSet zeroBarrier [] id b }) s

theorem witness_BarrierResults :
    (let s := barS 127 ⟨3, 1, 7, 0, 0⟩ (r2 7 0)
     let v := barGet s 0 127
     Ready ⟨[.g 4], [.g 4]⟩ s ∧ v.n ≠ 0 ∧ v.count + 1 ≠ v.n ∧ v.phase = (rd s 4).setWidth 16 ∧
       v.phase = (if v.cycle = s.clock then v.start else v.phase) ∧ hasPosted s s.iss.slot = false ∧
       hasPosted (onme (fun m => { m with posted := [⟨0, true, 2000, [], [], true⟩] }) s) s.iss.slot = true) ∧
    (let s := barS 127 ⟨3, 1, 7, 1000, 6⟩ (r2 7 0)
     let v := barGet s 0 127
     v.n ≠ 0 ∧ v.count + 1 ≠ v.n ∧ v.phase ≠ if v.cycle = s.clock then v.start else v.phase) ∧
    (let s := barS 9 ⟨3, 2, 0xFFFF, 0, 0⟩ (r2 7 0)
     let v := barGet s 0 9
     Ready ⟨[.g 4], [.g 4]⟩ s ∧ v.n ≠ 0 ∧ v.count + 1 = v.n ∧ v.phase + 1 ≠ v.phase ∧ v.phase ≠ (rd s 4).setWidth 16) ∧
    (let s := r2 16 0
     let v := barGet s 0 0
     let n := (rd s 4).toNat % 2 ^ 32
     v.n = 0 ∧ 1 ≤ n ∧ n ≤ 16 ∧ v.count = 0 ∧ barWaited s 0 s.me.num 0 = false) ∧
    (let w : BarWake := ⟨0, 0, 9, 7, 1000⟩
     let s : State := { un (fun c => { c with st := .parked (.bar 0 0 9 7 false) }) base with wakes := [w] }
     s.wakes = [w] ∧ w.scope = 0 ∧ w.cell = s.me.num ∧ w.id = (9 : BitVec 7).toNat ∧ w.phase = 7 ∧ w.due ≤ s.clock ∧
       s.me.stopped = false ∧ s.switch = .resident ∧ { s with switch := .stopping }.switch ≠ .resident ∧
       (slotOf s 0).st = .parked (.bar 0 s.me.num (9 : BitVec 7).toNat 7 false)) := by decide

/-- Eight words of a vector register from sixteen lanes. -/
def f32 (l : List Nat) : List Word :=
  (List.range 8).map fun k => BitVec.ofNat 64 ((l[2 * k]?).getD 0 + 2 ^ 32 * (l[2 * k + 1]?).getD 0)

def vset (v : Nat) (l : List Word) (s : State) : State := regs (l.mapIdx fun k w => (8 * v + k, w)) s

/-- A ray from (0, 0, -5) along +z, with t from 0 to 100. -/
def rayL : List Nat := [0, 0, 0xC0A00000, 0, 0, 0x3F800000, 0, 0x42C80000]

theorem witness_IntersectionResults :
    (Ready ⟨[.g 9, .v 1, .v 2], [.g 9]⟩ (vset 1 (f32 rayL) base)) ∧
    unpack fmtS (lane32 (rdV (vset 1 (f32 [0, 0, 0, 0, 0, 0, 0, 0x7F800001]) base) 1) 7).toNat = .nan ∧
    isFin (unpack fmtS (lane32 (rdV (vset 1 (f32 [0, 0, 0, 0, 0, 0x7F800000]) base) 1) 5).toNat) = false ∧
    (let s := vset 1 (f32 [0, 0, 0, 0, 0, 0x3F800000, 0x3F800000, 0x3F7FFFFF]) base
     ltN (unpack fmtS (lane32 (rdV s 1) 7).toNat) (unpack fmtS (lane32 (rdV s 1) 6).toNat) = true) := by decide

def seg (k len : Nat) : Segment := { kind := k, len := len, src := 0x10000, user := 0, hold := false }

def trk (t : Nat) (f : Track → Track) (s : State) : State :=
  { s with tracks := spSet startTrack s.tracks t (f (spGet startTrack s.tracks t)) }

/-- Track 0 with a BVH, a triangle and a raw segment. -/
def tr2 (s : State) : State := trk 0 (fun k => { k with segs := [seg 1 4, seg 2 8, seg 0 3], next := 1100 }) s

def sub0 : CoreSub := ⟨40, 0, 1, 0x0005000000000100, 500, none, false, false⟩

def full5 (s : State) : State := hnd 5 (fun v => { v with st := .full }) s

theorem witness_CarouselWords :
    (let s := tr2 (r2 1 0x0005000000000100)
     Ready ⟨[.g 9, .g 4, .g 5], [.g 9]⟩ s ∧ rd s 4 = BitVec.ofNat 64 (256 * 0 + 1) ∧ 0 ∈ s.ctx.tracks ∧
       1 < (trackAt s 0).segs.length ∧ catchIllegal (rd s 5) (segAt s 0 1) = false ∧
       (hGet s (catchHnd (rd s 5))).st = .free ∧ catchTgt (rd s 5) ≠ 2 ∧ freeCsub s = some 0 ∧
       s.me.csubs = [] ∧ s.me.raySubs = [] ∧ (cur s).started = none) ∧
    (cur (un (fun c => { c with started := some (1, 77) }) base)).started = some (256 * 0 + 1, 77) ∧
    (cur (un (fun c => { c with verdict := some ⟨1, 3, 9⟩ }) base)).verdict = some ⟨256 * 0 + 1, 3, 9⟩ ∧
    (cur (un (fun c => { c with verdict := some ⟨1, 0, 9⟩ }) base)).verdict = some ⟨256 * 0 + 1, 0, 9⟩ := by decide

theorem witness_CarouselWords_subs :
    (let s := tr2 (r2 1 0x0005000000000101)
     catchIllegal (rd s 5) (segAt s 0 1) = true) ∧
    (let s := full5 (tr2 (r2 1 0x0005000000000100))
     catchIllegal (rd s 5) (segAt s 0 1) = false ∧ (hGet s (catchHnd (rd s 5))).st ≠ .free) ∧
    (let s := onme (fun m => { m with csubs := (List.range 16).map fun k => (k, some sub0) }) (tr2 (r2 1 0x0005000000000100))
     ∀ n < 16, csubAt s n ≠ none) ∧
    (let s := onme (fun m => { m with csubs := [(7, some { sub0 with catch_ := 0x8005000000000000 })] }) (trk 0 (fun k => { k with
       segs := [seg 1 4, seg 4 8] }) (r2 1 0x8005000000000000))
     catchIllegal (rd s 5) (segAt s 0 1) = false ∧ (hGet s (catchHnd (rd s 5))).st = .free ∧ catchTgt (rd s 5) = 2 ∧
       hasSampleSub s = true ∧ freeCsub s = some 0 ∧ hasSampleSub { s with me := { s.me with csubs := [] } } = false ∧
       laSamples s.me.la = false ∧ laSamples { s.me.la with staged := [1] } = true) ∧
    (let s := onme (fun m => { m with csubs := [(15, some { sub0 with start := some 5 })] }) (tr2 (r2 1 15))
     (rd s 5).toNat % 16 = 15 ∧ csubAt s 15 = some { sub0 with start := some 5 } ∧ sub0.slot = s.iss.slot ∧ sub0.sel = 256 * 0 + 1 ∧
       catchTgt sub0.catch_ ≠ 2 ∧ sub0.wrote = false) ∧
    (let s := onme (fun m => { m with csubs := [(15, some { sub0 with slot := 3 })] }) (tr2 (r2 1 15))
     ∀ x, csubAt s 15 = some x → x.slot ≠ s.iss.slot ∨ x.sel ≠ 256 * 0 + 1) ∧
    (let s := onme (fun m => { m with csubs := [(2, some sub0), (3, some { sub0 with sel := 2 })],
                                      raySubs := [⟨3, 5, 0, 1, 1, 9⟩, ⟨4, 6, 1, 2, 1, 9⟩] }) (tr2 (r2 1 0))
     s.me.raySubs.Pairwise (fun x y => x.id ≠ y.id) ∧ s.me.raySubs.filter (fun x => x.sel == 256 * 0 + 1) ≠ [] ∧
       banksBusy s ((s.me.raySubs.filter fun x => x.sel == 256 * 0 + 1).flatMap fun x => rayHomes s x.ray) = false ∧
       banksBusy { s with banks := [⟨0, 1000, none, true⟩] }
         ((s.me.raySubs.filter fun x => x.sel == 256 * 0 + 1).flatMap fun x => rayHomes s x.ray) = true) := by
  refine ⟨by decide, by decide, by decide, by decide, by decide, by decide, by decide⟩

/-- A segment descriptor from its first four words. -/
def dsc (a b : Nat) : Rec := BitVec.ofNat 512 (a + 2 ^ 64 * b)

def pt (s : State) : State :=
  { s with mem := spSetAll 0 s.mem (putWords 0x80000 [0x100001, 0] ++ putWords 0x100000 [0x140001, 0] ++
      putWords 0x140000 [0x150001, 0] ++ putWords 0x150010 [0x1F, 0xFFFFFFFF010C0001]) }

def start0 : Start := ⟨33, 900, 0, seg 0 4, 1, false, 0⟩

theorem witness_CarouselController :
    (let x : TakenSub := ⟨40, 0, 0, 1, 500, false⟩
     let s : State := { tr2 base with ctl := [⟨1000, 0, 0, 0, .sub x⟩] }
     s.ctl = [⟨1000, 0, 0, 0, .sub x⟩] ∧ 1000 ≤ s.clock ∧ x.covered = false ∧ calledAfter s x.track x.entry x.retired = false) ∧
    (let s : State := { tr2 base with taken := [⟨41, 0, 0, 0, 500, false⟩] }
     0 ∈ s.ctx.tracks ∧ (trackAt s 0).next ≤ s.clock + 256 ∧ (trackAt s 0).pending = [] ∧ (trackAt s 0).cursor = 0 ∧
       (trackAt s 0).segs[0]? = some (seg 1 4) ∧ (seg 1 4).hold = false ∧ 0 < rollCall s 0 0) ∧
    (let s := trk 0 (fun k => { k with segs := [{ seg 0 3 with hold := true }], next := 1256 }) (pt base)
     (trackAt s 0).next ≤ s.clock + 256 ∧ (trackAt s 0).pending = [] ∧
       (trackAt s 0).segs[0]? = some { seg 0 3 with hold := true } ∧ sourceBad s { seg 0 3 with hold := true } = false) ∧
    (∀ e, rollCall base 0 e = 0) ∧
    (let r := dsc 0x10000 (4 + 0x10000 + 2 ^ 32 * 3 + 2 ^ 40)
     Ready ⟨[], []⟩ (tr2 base) ∧ dscTrack r ∈ (tr2 base).ctx.tracks ∧
       dscFault r (trackAt (tr2 base) (dscTrack r)).segs.length = none ∧ dscOn r = true ∧
       dscEntry r = (trackAt (tr2 base) (dscTrack r)).segs.length) ∧
    (let s := trk 0 (fun k => { k with starts := [start0] }) base
     (trackAt s 0).starts = [start0] ∧ start0.begun = false ∧ start0.slot ≤ s.clock) ∧
    (let st := { start0 with begun := true, sent := 1 }
     let x := { sub0 with start := some 33 }
     let s := hnd 5 (fun v => { v with st := .filling, expected := 32, counted := 8 }) (onme (fun m => { m with csubs := [(2, some x)] })
       (trk 0 (fun k => { k with starts := [st], segs := [st.seg] }) (pt base)))
     (trackAt s 0).starts = [st] ∧ st.slot + 4 * st.sent + 3 ≤ s.clock ∧ st.sent + 1 < st.seg.len ∧ s.others = [] ∧
       s.me.csubs = [(2, some x)] ∧ x.start = some st.id ∧ x.cut = false ∧ catchTgt x.catch_ = 0 ∧ s.me.tests = [] ∧
       s.me.saved = false ∧ s.hostDown = false ∧ (trackAt s 0).segs[st.entry]? = some st.seg ∧
       carPage s (st.seg.src + 256 * st.sent) = some page0 ∧ s.poison = [] ∧ s.memDown = [] ∧ s.me.catches = []) ∧
    (let x := { sub0 with start := some 33 }
     let r : Catch := ⟨1000, 2, x.id, 33, scratchHome 0 0x300, List.replicate 256 7, false⟩
     let s := hnd 5 (fun v => { v with st := .filling, expected := 32, counted := 8 })
       (onme (fun m => { m with csubs := [(2, some x)], catches := [r] }) base)
     s.me.catches = [r] ∧ s.others = [] ∧ s.banks = [] ∧ r.bad = false ∧ x.id = r.sub ∧ x.start = some r.start ∧ r.n < 16 ∧
       (let u := hnd 5 (fun v => { v with counted := 24 }) s
        (hGet u (catchHnd x.catch_)).expected.toNat ≤ (hGet u (catchHnd x.catch_)).counted.toNat + 8 ∧
          (hGet u (catchHnd x.catch_)).counted.toNat < (hGet u (catchHnd x.catch_)).expected.toNat) ∧ (∀ k ∈ s.ctx.tracks, deliveryDue s k = false) ∧
       deliveryDue s 5 = false ∧ r.data.length = 256 ∧ csubAt s r.n = some x ∧ x.cut = false ∧
       (hGet s (catchHnd x.catch_)).st = .filling ∧
       (hGet s (catchHnd x.catch_)).counted.toNat + 8 < (hGet s (catchHnd x.catch_)).expected.toNat) := by
  refine ⟨by decide, by decide, by decide, fun e => rfl, by decide, by decide, by decide, by decide⟩

/-- A triangle record in the plane z = 0, and the bytes of a record. -/
def triRec : List Nat := [2, 77, 0xBF800000, 0xBF800000, 0, 0x3F800000, 0xBF800000, 0, 0, 0x3F800000, 0, 0]

def bytesOf (l : List Nat) : List Byte := (List.range 64).map fun k => BitVec.ofNat 8 (((l[k / 4]?).getD 0) / 256 ^ (k % 4))

def rb0 : RingBlock :=
  { start := 3, sel := 1, index := 0, last := false, data := bytesOf triRec ++ bytesOf triRec ++ bytesOf [] ++ bytesOf [],
    bad := false, subs := 1, starts := 1 }

def rayS (f : Core → Core) : State := onme f (tr2 (r2 5 1))

theorem witness_RayResults :
    (let s := rayS id
     Ready ⟨[.v 1, .g 3, .g 4, .g 5], [.v 1]⟩ s ∧ rd s 4 = BitVec.ofNat 64 5 ∧ raySubsOf s 5 = [] ∧
       banksBusy s (rayHomes s 5) = false ∧ s.me.relaxed = [] ∧ s.me.posted = []) ∧
    (let s : State := { rayS (fun m => { m with live := [5], side := [(5, [(7, 3)])] }) with banks := [⟨0, 1000, none, true⟩] }
     banksBusy s (rayHomes s 5) = true ∧ raySubsOf s 5 = [] ∧ rayLive s 5 = true ∧ sideOf s 5 ≠ [] ∧
       rd s 5 = BitVec.ofNat 64 (256 * 0 + 1) ∧ 0 ∈ s.ctx.tracks ∧ 1 < (trackAt s 0).segs.length ∧ (segAt s 0 1).kind = 2) ∧
    (let s := rayS fun m => { m with live := [5], raySubs := [⟨3, 5, 0, 2, 1, 9⟩] }
     banksBusy s (rayHomes s 5) = false ∧ s.me.relaxed = [] ∧ s.me.posted = [] ∧
     rd s 5 = BitVec.ofNat 64 (256 * 0 + 1) ∧ 0 ∈ s.ctx.tracks ∧ 1 < (trackAt s 0).segs.length ∧ (segAt s 0 1).kind = 2 ∧
       rayLive s 5 = true ∧ (∀ x ∈ raySubsOf s 5, x.sel ≠ 256 * 0 + 1) ∧ (∀ x ∈ raySubsOf s 5, x.sub ≠ 1) ∧
       (∀ l < 1, ∃ x ∈ raySubsOf s 5, x.sub = l) ∧ raySubsOf s 5 ≠ []) ∧
    (let s := rayS fun m => { m with live := [5], side := [(5, [(7, 3)])] }
     sideOf s 5 = [(7, 3)] ∧ rayLive s 5 = true ∧ leN (hitT 7) (frontier s 5) = true ∧ raySubsOf s 5 = [] ∧
       banksBusy s (rayHomes s 5) = false ∧ s.me.relaxed = [] ∧ s.me.posted = []) ∧
    (let s := rayS fun m => { m with side := [(5, [(7, 3)])] }
     sideOf s 5 = [(7, 3)] ∧ rayLive s 5 = false) ∧
    (let s := rayS fun m => { m with live := [5], side := [(5, [(0x4000000000000000, 3)])], raySubs := [⟨3, 5, 0, 2, 1, 9⟩] }
     sideOf s 5 = [(0x4000000000000000, 3)] ∧ leN (hitT 0x4000000000000000) (frontier s 5) = false) ∧
    (let s := onme (fun m => { m with ring := [rb0], ringFree := 1000 }) base
     s.me.ring = [rb0] ∧ s.me.ringFree ≤ s.clock ∧ rb0.bad = false ∧ s.me.work = [] ∧ s.me.ringRec < 3) ∧
    ((onme (fun m => { m with ringRec := 3 }) base).me.ringRec = 3 ∧ rb0.last = false) ∧
    (let u : RayTest := ⟨5, 0, 3, true, 0, 0, 0, [], 0⟩
     let s : State := { onme (fun m => { m with ring := [rb0], live := [5], tests := [u], raySubs := [⟨3, 5, 0, 2, 1, 9⟩] }) base with
       mem := spSetAll 0 [] ((bytesOf rayL).mapIdx fun k b => (2 ^ 40 + 320 + k, b)) }
     walkers s rb0.start = [u] ∧ u.skip = 0 ∧ blockLanes rb0.data 0 0 = 2 ∧ (blockLanes rb0.data 0 11).getLsbD 0 = false ∧
       triTest (rayLanes s u.ray) (blockLanes rb0.data 0) = some 0x40A000000000004D ∧
       ltN (hitT 0x40A000000000004D) (unpack fmtS (rayNat s u.ray 28 4)) = true) := by
  refine ⟨by decide, by decide, by decide, by decide, by decide, by decide, by decide⟩

theorem witness_RayResults_subs :
    (let s := rayS fun m => { m with live := [5], raySubs := (List.range 4).map fun k => ⟨k, 5, k, 2 + k, 1, 9⟩ }
     ∀ l < 4, ∃ x ∈ raySubsOf s 5, x.sub = l) ∧
    (let s := rayS fun m => { m with live := [5], raySubs := [⟨3, 5, 0, 2, 1, 9⟩], side := [(5, [(7, 3)])] }
     rayLive s 5 = true ∧ banksBusy s (rayHomes s 5) = false ∧ raySubsOf s 5 ≠ [] ∧ sideOf s 5 ≠ [] ∧
       banksBusy { s with banks := [⟨0, 1000, none, true⟩] } (rayHomes s 5) = true) ∧
    (let s := rayS fun m => { m with live := [] }
     rayLive s 5 = false ∧ sideOf s 5 = []) ∧
    (let u : RayTest := ⟨5, 1, 3, true, 0, 0, 0, [], 0⟩
     let s := rayS fun m => { m with live := [5], work := [⟨.opens, 5, 1, 3⟩], tests := [u] }
     s.me.work = [⟨.opens, 5, 1, 3⟩] ∧ (s.me.tests.find? fun x => x.ray == 5 && x.sub == 1 && x.start == 3) = some u) ∧
    (rayS fun m => { m with work := [⟨.late, 5, 1, 3⟩] }).me.work = [⟨.late, 5, 1, 3⟩] := by
  refine ⟨by decide, by decide, by decide, by decide, by decide⟩

def shd (w : ShadeWay) : State :=
  setCluster 0 { startCluster with shade := ((waysOf 4).head?.toList.map fun k => (k, some w)) } (r2 4 0)

theorem witness_ShadingResults :
    (let s := r2 0xFFFFFFFFFFFF 0
     Ready ⟨[.g 9, .g 4, .v 2], [.g 9, .v 2]⟩ s ∧ (rd s 4).toNat < 2 ^ 48 ∧ wayOf (clusterAt s 0) (rd s 4).toNat = none) ∧
    ((waysOf 4).find? (fun w => (wayAt (clusterAt base 0) w).isNone) = some 16) ∧
    (wayOf (clusterAt (shd ⟨4, false, 7, 0, 0⟩) 0) 4 = some (16, ⟨4, false, 7, 0, 0⟩) ∧ (cur base).thread = 7 ∧
      hasPosted (shd ⟨4, false, 7, 0, 0⟩) 0 = false ∧
      hasPosted (onme (fun m => { m with posted := [⟨0, true, 2000, [], [], true⟩] }) (shd ⟨4, false, 7, 0, 0⟩)) 0 = true) ∧
    (let s := shd ⟨4, false, 8, 0, 0⟩
     wayOf (clusterAt s 0) 4 = some (16, ⟨4, false, 8, 0, 0⟩) ∧ (8 : Nat) ≠ (cur s).thread) ∧
    wayOf (clusterAt (shd ⟨4, true, 7, 5, 3⟩) 0) 4 = some (16, ⟨4, true, 7, 5, 3⟩) := by decide

/-- The four ways of key 4 taken: the first of them ready for the longest. -/
def set4 (ready : Bool) : Cluster :=
  { startCluster with shade := (List.range 4).map fun k => (16 + k, some ⟨2 ^ 40 + k, ready, 7, 0, k⟩) }

theorem witness_ShadingResults_full :
    waysOf 4 = [16, 17, 18, 19] ∧ wayOf (set4 true) 4 = none ∧ (waysOf 4).find? (fun w => (wayAt (set4 true) w).isNone) = none ∧
    (∀ v ∈ waysOf 4, wayAt (set4 true) v ≠ none) ∧ wayAt (set4 true) 16 = some ⟨2 ^ 40, true, 7, 0, 0⟩ ∧
    (∀ v ∈ waysOf 4, v ≠ 16 → ((wayAt (set4 true) v).map fun y => decide (0 < y.filled)) = some true) ∧
    ∀ v ∈ waysOf 4, ((wayAt (set4 false) v).map (·.valid)) = some false := by decide

theorem witness_WatchResults :
    (let s := r2 0x10048 1
     let homes := (List.range 8).map fun k => homeOf s [page0] (0x10048 + k)
     Ready ⟨[.g 9, .g 4, .g 5], [.g 9]⟩ s ∧ Prompt s ∧ checkAccess s s.me.dtlb false [(0x10048, .read)] = .ok [page0] ∧
       (∀ h ∈ homes, isBad s h = false) ∧ BitVec.ofNat 64 (leNat (homes.map (byteAt s))) ≠ rd s 5 ∧
       BitVec.ofNat 64 (leNat (homes.map (byteAt s))) = rd (r2 0x10048 0) 5 ∧ 0x10048 < Config.controlWindow ∧
       remoteHomes s.me.num homes = []) ∧
    (let s := r2 (BitVec.ofNat 64 rwin) 1
     Ready ⟨[.g 9, .g 4, .g 5], [.g 9]⟩ s ∧ Prompt s ∧ checkAccess s s.me.dtlb false [(rwin, .read)] = .ok [] ∧
       rwin < Config.controlWindow ∧ remoteHomes s.me.num ((List.range 8).map fun k => homeOf s [] (rwin + k)) ≠ []) ∧
    (let x := racc (.watch 9 1)
     let s := un (fun c => { c with st := .waiting (.reply x) }) base
     let v : Word := BitVec.ofNat 64 (leNat (((List.range 8).map fun k => homeOf s x.pages (x.va + k)).map (byteAt s)))
     x.got = [] ∧ x.due ≤ s.clock ∧ s.me.relaxed = [] ∧ s.me.posted = [] ∧ (slotOf s x.slot).st = .waiting (.reply x) ∧
       (slotOf s x.slot).partner = none ∧ (∀ h ∈ (List.range 8).map fun k => homeOf s x.pages (x.va + k), isBad s h = false) ∧
       v ≠ 1 ∧ v = 0) ∧
    (slotOf (un (fun c => { c with st := .parked (.watch 2 3) }) base) 0).st = .parked (.watch 2 3) := by
  refine ⟨⟨by decide, by decide, rfl, by decide, by decide, by decide, by decide, by decide⟩,
    ⟨by decide, by decide, rfl, by decide, by decide⟩, by decide, by decide⟩
def la (f : Automaton → Automaton) (s : State) : State := onme (fun m => { m with la := f m.la }) s

def q0 (op : Nat) : LaCmd :=
  { op := op, feat := 8, mask := 0xFF, n := 3, record := none, slot := 0, thread := 7, nf := 200, ncl := 6 }

theorem witness_AutomatonWords :
    (let s := la (fun m => { m with cells := [(3, 5), (259, 7)], nf := 250, ncl := 100 }) (r2 3 (-128))
     Ready ⟨[.v 3, .v 1, .g 100, .g 4, .g 5], [.v 3, .g 100]⟩ s ∧ (∀ c < s.me.la.ncl.toNat, laBad s.me.la c = false) ∧
       spWf (-1) s.me.la.cells = true ∧ laPushed s.me.la < 4 ∧ s.me.la.queue = [] ∧ (rd s 4).toNat = 512 * 0 + 3 ∧
       (rd s 4).toNat < 256 ∧ (rd s 5).toInt = -128 ∧ laBad s.me.la 0 = false ∧ (rd s 4).toNat < 2 ^ 32) ∧
    laBadBelow (la (fun m => { m with poison := 0x20 }) base).me.la = some 5 ∧
    ((rd (r2 0xFFFF 0xFFFF) 4).toNat = 512 * 127 + 511 ∧ (rd (r2 0xFFFF 0xFFFF) 5).toNat < 2 ^ 16) ∧
    ((rd (r2 (2 ^ 16 + 512 * 127) 0) 4).toNat = 2 ^ 16 + 512 * 127 ∧ (rd (r2 (2 ^ 17 + 15) 0) 4).toNat = 2 ^ 17 + 15 ∧
      (rd (r2 (3 * 2 ^ 16) 0) 4).toNat = 3 * 2 ^ 16 ∧ (rd (r2 (3 * 2 ^ 16 + 4) 0) 4).toNat = 3 * 2 ^ 16 + 4) ∧
    (let s := la (fun m => { m with queue := List.replicate 4 (q0 1) }) (r2 3 5)
     4 ≤ laPushed s.me.la ∧ ¬s.me.la.queue = [] ∧ laIndexOk (rd s 4) = true) := by decide

theorem witness_AutomatonSteps :
    (let s := un (fun c => { c with st := .waiting (.lainf 1000 2 5) }) base
     (slotOf s 0).st = .waiting (.lainf 1000 2 5) ∧ 1000 ≤ s.clock ∧ (slotOf s 0).partner = none) ∧
    (let s := la (fun m => { m with queue := [q0 1, q0 2], start := 616, clause := 5 }) base
     s.me.la.queue = [q0 1, q0 2] ∧ (q0 1).op ≠ 3 ∧ s.me.la.clause < (q0 1).ncl ∧
       s.me.la.start + 64 * s.me.la.clause + 64 ≤ s.clock ∧ (q0 1).ncl = s.me.la.clause + 1 ∧
       (q0 1).mask.toNat / 2 ^ s.me.la.clause % 2 = 1 ∧ laBad s.me.la s.me.la.clause = false) ∧
    (let q := { q0 3 with record := some (2, 0x1FC0) }
     let s := la (fun m => { m with queue := [q], start := 985 }) base
     s.me.la.queue = [q] ∧ q.op = 3 ∧ q.record = some (2, 0x1FC0) ∧ s.me.la.result = none ∧ s.me.la.start ≤ s.clock ∧
       s.me.la.start + 15 ≤ s.clock ∧ (la (fun m => { m with result := some (9, true) }) s).me.la.result = some (9, true)) ∧
    127 < 128 := by decide

/-- A 64-byte record from fields given as (offset, value). -/
def mk (l : List (Nat × Nat)) : Rec := BitVec.ofNat 512 (l.foldl (fun acc e => acc + e.2 * 2 ^ (8 * e.1)) 0)

/-- A layout entry: U8 rows of 64 at an address. -/
def lay (a : Nat) : Rec :=
  mk [(0, 0x11 * 2 ^ 59 + a), (8, 1), (12, 64), (16, 0), (20, 0), (24, 64), (28, 8), (32, 1), (36, 1)]

def lays (s : State) : State := onme (fun m => { m with layouts := [(1, lay 0x10000), (2, lay 0x20000)] }) s

def xc : Rec := mk [(0, 0x20), (1, 5), (2, 1), (3, 2), (12, 0x3F800000), (52, 8), (54, 2), (56, 1), (58, 1), (60, 16)]
def xf : Rec := mk [(0, 0x23), (1, 5), (3, 2), (8, 0x1FF), (52, 64), (54, 8), (56, 1), (58, 1), (60, 16)]
def xs : Rec := mk [(0, 0x22), (1, 5), (8, 0x13 * 2 ^ 59 + 0x10000), (16, 0x20000), (24, 3), (32, 10), (36, 4), (40, 0x21000)]
def xst : Rec := mk [(0, 0x21), (6, 5), (8, 0x10000), (16, 0x00000001210C0001)]

def cmd0 : EngCmd :=
  { recd := 0, core := 0, slot := 0, thread := 7, prv := true, gen := 0, table := integerTable, src := 0, dst := 0,
    done := 0, found := 0, fault := none, denied := false, ready := 1000 }

/-- R278, R398: an EFAULT for a slot that its thread holds, and three that are lost. -/
theorem witness_MessageArrivals_engine :
    (cmd0.live = true ∧ slotEmpty base cmd0.slot = false ∧ ¬ 32 ≤ base.me.mbox.length + base.me.reserved ∧ cmd0.slot < 16 ∧
      (slotOf base cmd0.slot).st ≠ .migrating ∧ (0xF6 : Nat) < 256) ∧
    { cmd0 with live := false }.live = false ∧ slotEmpty base { cmd0 with slot := 9 }.slot = true ∧
    32 ≤ (onme (fun m => { m with reserved := 32 }) base).me.mbox.length + 32 := by decide

def full (s : State) : State := hnd 5 (fun v => { v with st := .full }) s

theorem witness_TransferPushes :
    (let s := lays base
     let copy (x : Rec) : Option Nat := copyBad x (layoutAt s (recNat x 2 1 % 64)) (layoutAt s (recNat x 3 1 % 64))
     Ready ⟨[], []⟩ s ∧ copy (withKind 0x20 xc) = none ∧ copy (withKind 0x23 xf) = none ∧ scanBad (withKind 0x22 xs) = none ∧
       recNat (withKind 0x20 xc) 1 1 = 5 ∧ recNat (withKind 0x23 xf) 1 1 = 5 ∧ recNat (withKind 0x22 xs) 1 1 = 5 ∧
       (hGet s 5).st = .free ∧ s.me.xq.length < 8 ∧ copy (withKind 0x20 0) ≠ none ∧ copy (withKind 0x23 0) ≠ none ∧
       scanBad (withKind 0x22 0) ≠ none ∧ (hGet (full s) 5).st ≠ .free) ∧
    8 ≤ (onme (fun m => { m with xq := List.replicate 8 cmd0 }) base).me.xq.length ∧
    (let s := lays base
     stripeBad (withKind 0x21 xst) = none ∧ tlbFind s.me.dtlb s.iss.slot (stripeVa (withKind 0x21 xst)) = some page0 ∧
       pageForbids (cur s).prv (myCluster s) .write page0 = false ∧ stripeVa (withKind 0x21 xst) = page0.vbase ∧
       placeBad s (leafNow s page0) (stripePlace (withKind 0x21 xst)) = false ∧ (∀ x ∈ s.restripes, x.vbase ≠ page0.vbase)) ∧
    layoutBad (lay 0x10000) = none ∧ layoutMisfit (lay 0x10000) = none ∧ layoutBad (mk [(0, 0x11 * 2 ^ 59)]) = some 24 := by
  refine ⟨by decide, by decide, by decide, by decide, by decide, by decide⟩

def xcmd (r : Rec) (done : Nat) : EngCmd := { cmd0 with recd := r, src := lay 0x10000, dst := lay 0x20000, done := done, found := 7 }

def eng (c : EngCmd) : State :=
  onme (fun m => { m with xq := [c] }) (hnd 5 (fun v => { v with st := .filling })
    { pt base with mem := spSetAll 0 (pt base).mem (putWords 0x150020 [0x1001F, 0xFFFFFFFF010C0001]) })

def cellsOf (c : EngCmd) : List Machine.Cell :=
  (((List.range (min (perChunk c) (tileSize c.recd - doneToL c))).map (doneToL c + ·)).filter (inBox c 0)).filterMap
    fun l => match cellAt c l with
      | .ok x => some x
      | .error _ => none

def strp (n : Nat) : Restripe := ⟨0x10000, 0x10000, page0.w0, page0.w1, 0x3001F, 0xFFFFFFFF210C0001, 3, n, n == 2048, false⟩

theorem witness_TransferSteps :
    (let c := xcmd xc 0
     let s := eng c
     let cells := cellsOf c
     s.me.xq = [c] ∧ c.ready ≤ s.clock ∧ c.fault = none ∧ c.denied = false ∧ c.out = [] ∧ engKind c.recd = 0x20 ∧
       s.delays = [] ∧ s.ctx.fixed = false ∧
       (((List.range (min (perChunk c) (tileSize c.recd - doneToL c))).map (doneToL c + ·)).filter (inBox c 0)).map (cellAt c) =
         cells.map .ok ∧
       engProbe c ((srcReads c cells ++ dstReads c cells).map (·, .read) ++ (dstWrites c cells).map (·, .write)) s = none ∧
       engReadStop c (srcReads c cells ++ dstReads c cells) s = none ∧
       (∀ va ∈ dstWrites c cells, engDown va (engHome c .write va s) s = false)) ∧
    (let c := xcmd xs 40
     let s := eng c
     engKind c.recd = 0x22 ∧ scanCount c.recd * elemBytes (scanFmt c.recd) ≤ c.done ∧ scanCnt c.recd % 8 = 0 ∧
       engAt c .write (scanCnt c.recd : Nat) s = .ok (engHome c .write (scanCnt c.recd : Nat) s) ∧
       engDown (scanCnt c.recd : Nat) (engHome c .write (scanCnt c.recd : Nat) s) s = false ∧
       (hGet s (cmdHnd c)).gen = c.gen) ∧
    (let c := xcmd xst 0
     let s : State := { eng c with restripes := [strp 2047] }
     let x := strp 2047
     engKind c.recd = 0x21 ∧ s.restripes = [x] ∧ x.vbase = stripeVa c.recd ∧ x.stuck = false ∧ x.shooting = false ∧
       controllerDown s (pageHome x.old0 x.old1 (32 * x.switched)) = false ∧
       controllerDown s (pageHome x.new0 x.new1 (32 * x.switched)) = false) ∧
    (let s : State := { eng (xcmd xst 0) with restripes := [strp 2048] }
     (strp 2048).shooting = true ∧ anyInFlight (isOld (strp 2048)) s = false ∧ writesTo (strp 2048) s.me = false ∧
       s.others = []) := by
  refine ⟨⟨by decide, by decide, by decide, by decide, by decide, by decide, by decide, by decide, rfl, by decide, by decide, by decide⟩,
    ⟨by decide, by decide, by decide, rfl, by decide, by decide⟩, by decide, by decide⟩

def mm : Rec := mk [(0, 0x10), (1, 5), (2, 2), (3, 3), (5, 1), (6, 32), (8, 32), (10, 32), (16, 128), (18, 128), (20, 0x10000)]
def mw : Rec := mk [(0, 0x11), (1, 5), (8, 0x10000), (20, 256)]
def mepi : Rec := mk [(0, 0x12), (1, 5), (6, 32), (8, 32), (18, 128), (20, 0x10000), (24, 2 * 2 ^ 59 + 0x20000), (32, 128), (36, 0x3F800000)]
def mz : Rec := mk [(0, 0x13), (1, 5), (6, 33), (8, 32), (18, 128), (20, 0x10000)]

theorem witness_MatrixPushes :
    (Ready ⟨[], []⟩ base ∧ macBad (withKind 0x10 mm) = none ∧ macAlias (withKind 0x10 mm) = none ∧
      wldBad (withKind 0x11 mw) = none ∧ epiBad (withKind 0x12 mepi) = none ∧ epiAlias base.me.num (withKind 0x12 mepi) = none ∧
      zeroBad (withKind 0x13 mz) = none ∧ recNat (withKind 0x10 mm) 1 1 = 5 ∧ (hGet base 5).st = .free ∧
      base.me.mq.length < 16 ∧ (hGet (full base) 5).st ≠ .free) ∧
    (macBad (withKind 0x10 0) ≠ none ∧ wldBad (withKind 0x11 0) ≠ none ∧ epiBad (withKind 0x12 0) ≠ none ∧
      zeroBad (withKind 0x13 0) ≠ none) ∧
    (let r := withKind 0x10 (mm - mk [(20, 0x10000)] - mk [(5, 1)])
     macBad r = none ∧ macAlias r = some 0) ∧
    (let r := withKind 0x12 (mepi + mk [(24, 0x00FFFFFFFFF10000 - 0x20000)])
     epiBad r = none ∧ epiAlias base.me.num r = some 0x10000) ∧
    16 ≤ (onme (fun m => { m with mq := List.replicate 16 cmd0 }) base).me.mq.length := by
  refine ⟨by decide, by decide, by decide, by decide, by decide⟩

def mqs (l : List EngCmd) (p : Power) : State :=
  onme (fun m => { m with mq := l, inFlight := some 1000, power := p, burst := true, deadline := 1024 }) { base with clock := 1024 }

theorem witness_MatrixSteps :
    (let c := { cmd0 with recd := mz }
     let s := mqs [c] .hot
     s.me.mq = [c] ∧ s.me.inFlight = some 1000 ∧ 1000 ≤ s.clock ∧ c.done + 1 < stepsOf c.recd ∧ engKind c.recd = 0x13 ∧
       mxStop c { s with me := { s.me with inFlight := none } } = none ∧ s.me.power = .hot ∧ s.me.burst = true ∧
       s.me.deadline ≤ s.clock ∧ (∀ c ∈ s.me.mq, engKind c.recd ≠ 0x10)) ∧
    stepsOf mz ≤ { cmd0 with recd := mz, done := 1 }.done + 1 ∧
    (base.clock ≠ 1024 ∧ ((mqs [] .cold).clock - (mqs [] .cold).me.born) % 1024 = 0 ∧ (mqs [] .cold).me.refilled ≠ (mqs [] .cold).clock) ∧
    (mqs [] (.kindle 1024)).me.power = .kindle 1024 ∧ (mqs [] (.quench 1024)).me.power = .quench 1024 := by
  refine ⟨by decide, by decide, by decide, by decide, by decide⟩

/-- A step of an MXMAC that may issue, three that may not, one of another command, and a last step. -/
theorem witness_MatrixSteps_issue : let c := { cmd0 with recd := mm }
    let s (p : Power) (l : BitVec 32) : State := onme (fun m => { m with mq := [c], inFlight := none, power := p, level := l }) base
    let cost := 2 ^ max (recNat c.recd 4 1 % 4) (floorClass (mxPath c.recd))
    ((s .hot 8192).me.mq = [c] ∧ (s .hot 8192).me.inFlight = none ∧ (s .hot 8192).switch = .resident ∧ c.fault = none ∧
      c.denied = false ∧ (s .hot 8192).delays = [] ∧ engKind c.recd = 0x10 ∧ cost ≤ 8192 ∧ c.ready ≤ base.clock) ∧
    ¬ cost ≤ (s .hot 0).me.level.toNat ∧ (s .cold 8192).me.power ≠ .hot ∧ ¬ { c with ready := 1001 }.ready ≤ base.clock ∧
    engKind mz ≠ 0x10 ∧ stepsOf { c with done := stepsOf c.recd - 1 }.recd ≤ stepsOf c.recd - 1 + 1 := by decide

/-- An MXMAC that reads C; the atoms at some scratchpad offsets and some blocks of the weight buffer are marked. -/
def mc : EngCmd := { cmd0 with recd := mm - mk [(5, 1)] }

def mcAt (l w : List Nat) : State :=
  onme (fun m => { m with wpoison := w, mq := [mc] }) { base with poison := l.map fun o => (2 ^ 40 + o) / 32 }

/-- One that gathers its rows by the index list at 0x8000, from token `tok` on. -/
def mg (tok : Nat) : EngCmd := { cmd0 with recd := mm + mk [(5, 1), (28, 0x8000), (34, tok), (36, 4)] }

theorem witness_MatrixSteps_faults :
    (engKind mc.recd = 0x10 ∧ mc.denied = false ∧ tileRows mc.recd (tileAt mc.recd mc.done).1 = 32 ∧ mxGather mc.recd = false ∧
      mxZeroc mc.recd = false ∧ mc.core = 0 ∧ mc.live = true ∧ slotEmpty base mc.slot = false ∧ engKind mc.recd < 0x30 ∧
      (hGet base (cmdHnd mc)).gen = mc.gen ∧ mxCoff mc.recd = 0x10000 ∧ mxAoff mc.recd = 0) ∧
    (∃ cause va, mxStop mc (mcAt [0x10000] []) = some (.fault cause va)) ∧
    (isBad (mcAt [0x10000] []) (scratchHome 0 (32 * (0x10000 / 32))) = true ∧ isBad (mcAt [0x20] []) (scratchHome 0 32) = true) ∧
    (tileBlocks mc.recd).find? (fun k => (mcAt [] [0]).me.wpoison.contains (subTile mc.recd 0 0 / 256 + k)) = some 0 ∧
    mxStop mc (mcAt [] []) = none ∧
    (mxGather (mg 0).recd = true ∧ mxIdx (mg 0).recd = 0x8000 ∧ padNat base 0x8002 2 = 0 ∧ mxTok0 (mg 1).recd = 1 ∧ mxTok0 (mg 0).recd = 0 ∧
      mxArows (mg 0).recd = 4 ∧ isBad (mcAt [0x8000] []) (scratchHome 0 (32 * (0x8000 / 32))) = true) := by
  refine ⟨by decide, ⟨_, _, rfl⟩, by decide, by decide, by decide, by decide⟩
def rts : Rec := mk [(0, 0x30), (1, 5), (2, 3), (4, 4), (8, 0x10000), (16, 0x20000), (24, 0x20100), (32, 0x20200)]
def rpj : Rec := mk [(0, 0x50), (6, 5), (2, 2), (4, 2), (8, 0x10000), (16, 0x20000), (32, 0x10040)]
def av : Rec :=
  mk [(0, 0x40), (1, 5), (4, 1), (8, 0x10000), (16, 0x10020), (24, 0x10080), (32, 0x20000), (40, 0x20100), (48, 64)]
def fd (k : Nat) : Rec :=
  mk [(0, k), (1, 5), (4, 1), (8, 0x13), (16, 0x10000), (24, 0x10020), (32, 0x20000), (40, 8)]

theorem witness_SharedQueuePushes :
    (Ready ⟨[], []⟩ base ∧ sortBad (withKind 0x30 rts) = none ∧ reprojBad (withKind 0x50 rpj) = none ∧
      a2avBad (withKind 0x40 av) = none ∧ foldBad (withKind 0x41 (fd 0x41)) = none ∧ foldBad (withKind 0x42 (fd 0x42)) = none ∧
      foldBad (withKind 0x43 (fd 0x43)) = none ∧ engHnd (withKind 0x30 rts) % 64 = 5 ∧ engHnd (withKind 0x50 rpj) % 64 = 5 ∧
      engHnd (withKind 0x40 av) % 64 = 5 ∧ (hGet base 5).st = .free ∧ (clusterAt base 0).rq.length < 8 ∧
      (dieAt base 0).pq.length < 8 ∧ (dieAt base 0).cq.length < 8 ∧ (hGet (full base) 5).st ≠ .free) ∧
    (sortBad (withKind 0x30 0) ≠ none ∧ reprojBad (withKind 0x50 0) ≠ none ∧ a2avBad (withKind 0x40 0) ≠ none ∧
      foldBad (withKind 0x41 0) ≠ none) ∧
    (let s := setDie 0 { startDie with pq := List.replicate 8 cmd0, cq := List.replicate 8 { cmd := cmd0, started := false, ranks := [], order := 0 } }
      (setCluster 0 { startCluster with rq := List.replicate 8 cmd0 } base)
     8 ≤ (clusterAt s 0).rq.length ∧ 8 ≤ (dieAt s 0).pq.length ∧ 8 ≤ ((dieAt s 0).cq.map (·.cmd)).length) := by
  refine ⟨by decide, by decide, by decide⟩

def poke (a : Nat) (ws : List Word) (s : State) : State := { s with mem := spSetAll 0 s.mem (putWords a ws) }

def pt3 : State := poke 0x150020 [0x1001F, 0xFFFFFFFF010C0001] (hnd 5 (fun v => { v with st := .filling }) (pt base))

/-- The carry of a reprojection that leaves a pixel where it is. -/
def carry : Rec := mk [(0, 0x3F800000), (20, 0x3F800000), (40, 0x3F800000), (60, 0x3F800000)]

/-- An AREDUCE of the dies in `l`, on its way. -/
def coll (l : List (BitVec 16)) (st rd wr : Bool) (ranks : List RemoteRank) : CollCmd :=
  { cmd := { cmd0 with recd := fd 0x41 + mk [(4, l.length - 1)] }, started := st, ranks := ranks, order := 0, group := l, read := rd, wrote := wr }

/-- Dies 0 and 1 with the command `x` each at the head of its queue, and the group list 0, 1. -/
def two (x y : CollCmd) : State :=
  setDie 1 { startDie with cq := [y] } (setDie 0 { startDie with cq := [x] } { poke 0 [0x10000] pt3 with
    ctx := { base.ctx with cores := [0, 1, 384] }
    others := [(384, some (startCore 384))] })

def rk (i : Nat) : RemoteRank := ⟨i, fd 0x41 + mk [(4, 1)], [0, 1], List.replicate 32 0, [], false⟩

/-- The same command as core 384 pushed it. -/
def by384 (x : CollCmd) : CollCmd := { x with cmd := { x.cmd with core := 384 } }

theorem witness_SharedEngineRuns :
    (([(0, 0x100020001), (1, 0x30001), (2, 0x20001)] : List RouteEntry).map (·.1)).Nodup ∧
    (let c := { cmd0 with recd := rts }
     let s := setCluster 0 { startCluster with rq := [c] } (poke 0 [0x500020001, 0x700010002, 0x900020000] pt3)
     let r := c.recd
     let src := atomAddrs (rtSrc r) (8 * rtPairs r)
     let dst := atomAddrs (rtPerm r) (8 * rtPairs r) ++ atomAddrs (rtCnt r) (4 * rtExperts r) ++
       atomAddrs (rtOffs r) (4 * (rtExperts r + 1))
     (clusterAt s 0).rq = [c] ∧ c.core = s.me.num ∧ c.ready ≤ s.clock ∧ c.fault = none ∧ c.denied = false ∧
       engProbe c (src.map fun a => (a, .read)) s = none ∧ engReadStop c src s = none ∧
       (∀ e ∈ ((List.range (rtPairs r)).map fun i => (i, engNat c (rtSrc r + 8 * i : Nat) 8 s) : List RouteEntry),
         reExpert e < rtExperts r ∧ e.2 / 2 ^ 24 % 256 = 0) ∧
       engProbe c (dst.map fun a => (a, .write)) s = none ∧ (∀ a ∈ dst, engDown a (engHome c .write a s) s = false)) ∧
    (let c := { cmd0 with recd := rpj, src := carry, done := 3, found := 1 }
     let s := setDie 0 { startDie with pq := [c] } (poke 0 [0, 0, 0, 0x4000000000000007] (poke 0x10018 [0x4000000000000008] pt3))
     (dieAt s 0).pq = [c] ∧ c.found = 1 ∧ rpGuide c.recd = 0 ∧ c.done + 1 = rpW c.recd * rpH c.recd ∧
       engRead c (rpSrc c.recd + 8 * c.done) 8 s = .ok (0x4000000000000007, engAsk c [(rpSrc c.recd + 8 * c.done : Nat)] s) ∧
       (rpTarget c.src (rpW c.recd) (rpH c.recd) (c.done % rpW c.recd) (c.done / rpW c.recd) 0x4000000000000007).map (·.1) = some 3 ∧
       engAt c .atomic (rpDst c.recd + 8 * 3 : Nat) s = .ok 0x10018 ∧ engDown (rpDst c.recd + 8 * 3 : Nat) 0x10018 s = false ∧
       isBad s 0x10018 = false) := by
  refine ⟨by decide, by decide, ⟨by decide, by decide, by decide, by decide, rfl, by decide, rfl, by decide, by decide⟩⟩

/-- A run of pixels: the first of a record, of which MAT is read, and the last of four. -/
theorem witness_SharedEngineRuns_pixels :
    (let c := { cmd0 with recd := rpj }
     let s := setDie 0 { startDie with pq := [c] } (poke 0x40 [1] pt3)
     let mat := atomAddrs (rpMat c.recd) 64
     (dieAt s 0).pq = [c] ∧ c.core = s.me.num ∧ c.ready ≤ s.clock ∧ c.fault = none ∧ c.denied = false ∧ c.found ≠ 1 ∧
       engProbe c (mat.map fun a => (a, .read)) s = none ∧ engReadStop c mat s = none ∧ c.done < rpW c.recd * rpH c.recd) ∧
    (let c := { cmd0 with recd := rpj, src := carry, done := 3, found := 1 }
     let s := setDie 0 { startDie with pq := [c] } pt3
     rpTarget { c with src := 0 }.src 2 2 1 1 0 = none ∧ min (4 - c.done % 4) (4 - c.done) = 1 ∧ c.done < rpW c.recd * rpH c.recd ∧
       ∃ u, engRead c (rpSrc c.recd + 8 * c.done) 8 s = .ok (0, u) ∧ ∃ v, rpPixel c s = .ok v) := by
  refine ⟨⟨by decide, by decide, by decide, by decide, by decide, by decide, rfl, rfl, by decide⟩,
    by decide, by decide, by decide, _, rfl, _, rfl⟩

theorem witness_SharedEngineRuns_group :
    (let x := coll [] false false false []
     let x := { x with cmd := { x.cmd with recd := fd 0x41 + mk [(4, 1)] } }
     let s := two x x
     (dieAt s 0).cq = x :: [] ∧ x.cmd.ready ≤ s.clock ∧ x.cmd.fault = none ∧ x.cmd.denied = false ∧ x.started = false ∧ x.group = [] ∧
       collReads x.cmd (clGrp x.cmd.recd) (2 * clParts x.cmd.recd) (focus x.cmd.core s) = none ∧
       groupList x.cmd (focus x.cmd.core s) = [0, 1] ∧ inGroup s 0 = true ∧ inGroup s 1 = true ∧ grPkg 0 = s.pkg ∧ grDie 0 = 0 ∧
       inGroup s 2 = false) := by
  refine ⟨by decide, by decide, rfl, by decide, by decide, rfl, by decide, by decide, by decide, by decide, by decide, by decide, by decide⟩

/-- A start that finds both participants, one that waits for the other, one that the other's fault ends, and one that does not match. -/
theorem witness_SharedEngineRuns_match :
    (let x := coll [0, 1] false false false []
     let s := two x (by384 x)
     x.started = false ∧ x.group ≠ [] ∧ localDies s x.group = [0, 1] ∧ (dieAt s 0).mixed = [] ∧
       (∀ k ∈ [0, 1], (dieAt s k).passed = []) ∧ (∀ k ∈ [0, 1], headMatches s (clGid x.cmd.recd) x.order k = true) ∧
       (∀ k < 8, k ∉ [0, 1] → headMatches s (clGid x.cmd.recd) x.order k = false) ∧ (∀ k ∈ [0, 1], (dieAt s k).failed = []) ∧
       collHead s 1 = some (by384 x) ∧ (by384 x).group = x.group ∧ grPkg 1 = s.pkg) ∧
    (let x := coll [0, 1] false false false []
     let s := setDie 1 startDie (two x x)
     headMatches s (clGid x.cmd.recd) x.order 1 = false ∧ (clGid x.cmd.recd, x.order) ∉ (dieAt s 1).failed ∧
       (clGid x.cmd.recd, x.order) ∈
         (dieAt (setDie 1 { startDie with failed := [(clGid x.cmd.recd, 0)] } s) 1).failed) ∧
    (let y := fd 0x42 + mk [(4, 1)]
     engKind y ≠ engKind (fd 0x41)) := by
  refine ⟨by decide, by decide, by decide⟩

/-- A participant about to read its input, one about to write its output, and one whose page of DST is missing. -/
theorem witness_SharedEngineRuns_stages :
    (let x := coll [0, 1] true false false []
     let s := two x (by384 x)
     (dieAt s 0).cq = [x] ∧ x.started = true ∧ (localDies s x.group).Nodup ∧ 0 ∈ localDies s x.group ∧ x.read = false ∧
       inputStop x.cmd (focus x.cmd.core s) = none) ∧
    (let x := coll [0, 1] true true false [rk 0, rk 1]
     let y := by384 { x with wrote := true }
     let s := two x y
     x.read = true ∧ x.wrote = false ∧ rankIn s x.group 0 = 0 ∧ collHead s 0 = some x ∧ collHead s 1 = some y ∧ y.wrote = true ∧
       clGid y.cmd.recd = clGid x.cmd.recd ∧ engKind x.cmd.recd = 0x41 ∧ arCount x.cmd.recd = 8 ∧
       collWrites x.cmd (arDst x.cmd.recd) 32 (focus x.cmd.core s) = none ∧
       (hGet (focus y.cmd.core s) (cmdHnd y.cmd)).gen = y.cmd.gen) ∧
    (let x := coll [0, 1] true false false []
     let s : State := { two x (by384 x) with poison := [1] }
     ∃ cause va, inputStop x.cmd (focus x.cmd.core s) = some (.fault cause va)) := by
  refine ⟨⟨by decide, by decide, by decide, by decide, by decide, rfl⟩,
    ⟨by decide, by decide, by decide, by decide, by decide, by decide, by decide, by decide, by decide, rfl, by decide⟩, ⟨_, _, rfl⟩⟩

/-- Slots 3 and 4 of one launch, parked by the same LINEUP. -/
def lu : State :=
  setSlot 3 { slotOf base 3 with st := .parked (.lineup 255 0x10040 900), tag := 9 }
    (setSlot 4 { slotOf base 3 with st := .parked (.lineup 255 0x10040 800), tag := 9 } base)

theorem witness_TranslationsAndWakes :
    lineupReady lu 255 0x10040 9 = true ∧
    (let s : State := { lu with clock := 4996 }
     s.me.num ∈ s.ctx.cores ∧ (slotOf s 3).st = .parked (.lineup 255 0x10040 900) ∧ 900 + 4096 ≤ s.clock) ∧
    (let s (ic : List Nat) (f : List (Nat × Nat)) (p : Option Nat) : State :=
       setCluster 0 { startCluster with icache := ic, filling := f, port := p } (un (fun c => { c with st := .parked (.fetchLine 7) }) base)
     (slotOf (s [] [] none) 0).st = .parked (.fetchLine 7) ∧ (clusterAt (s [] [] none) 0).icache = [] ∧
       (clusterAt (s [] [] none) 0).filling = [] ∧ 7 ∈ (clusterAt (s [7] [] none) 0).icache ∧ (clusterAt (s [7] [] none) 0).port ≠ some 1000 ∧
       (clusterAt (s [7] [] (some 1000)) 0).port = some (s [7] [] (some 1000)).clock ∧
       (7, 1000) ∈ (clusterAt (s [] [(7, 1000)] none) 0).filling ∧ (clusterAt (s [] [(7, 1001)] none) 0).filling = [(7, 1001)]) ∧
    (let s := setCluster 0 { startCluster with l2 := [page1, page0] } (un (fun c => { c with st := .parked (.tlb 0x1FFFF .execute) }) (pt base))
     let w (l : List PageWalk) : State := setCluster 0 { startCluster with walks := l } s
     (slotOf s 0).st = .parked (.tlb 0x1FFFF .execute) ∧ (clusterAt s 0).l2.find? (fun x => holds x 0x1FFFF) = some page0 ∧
       walk s 0x1FFFF = some page0 ∧ holds page0 0x1FFFF = true ∧ walksOf (w []) = [] ∧
       (∀ d ∈ [none, some 1000, some 1001], walksOf (w [⟨0x1FFFF, d⟩]) = [⟨0x1FFFF, d⟩]) ∧ samePage (w []) 0x1FFFF 0x1FFFF = true) ∧
    (let s := setCluster 0 { startCluster with walks := (List.range 9).map fun k => ⟨0x1000000 * k, some 900⟩ }
       ((List.range 9).foldl (fun s k => setSlot k { emptySlot with st := .parked (.tlb (0x1000000 * k) .read) } s) base)
     (walksOf s).findIdx? (fun w => samePage s w.va 0x8000000) = some 8) ∧
    (let s := setCluster 0 { startCluster with walks := [⟨0x20000, some 1000⟩] } (un (fun c => { c with st := .parked (.tlb 0x20000 .read) }) base)
     walk s 0x20000 = none ∧ walksOf s = [⟨0x20000, some 1000⟩] ∧ samePage s 0x20000 0x20000 = true) ∧
    (let s := un (fun c => { c with st := .parked (.fault 0x10048 .write) }) base
     (slotOf s 0).st = .parked (.fault 0x10048 .write) ∧ (slotOf s 0).thread = 7 ∧ s.switch = .resident ∧
       anyInFlight (stale s) s = false ∧
       (let u := onme (fun m => { m with relaxed := [acc0] }) s
        anyInFlight (stale u) u = true ∧ (slotOf u 0).st = .parked (.fault 0x10048 .write))) := by
  refine ⟨by decide, by decide, by decide, by decide, by decide, by decide, by decide⟩

theorem witness_MigrationResults :
    (let s := un (fun c => { c with st := .waiting (.migrate 7 2) }) base
     (slotOf s 0).st = .waiting (.migrate 7 2) ∧ hasRelaxed s 0 = false ∧ hasEngine s 0 = false ∧ hasCsub s 0 = false ∧
       hasSent s 0 = false ∧ (∀ p ∈ s.me.posted, ownPosted 0 p = false) ∧
       [(⟨0, true, 2000, [], [], true⟩ : Posted)].any (ownPosted 0) = true) ∧
    (let g : Migrant := { slot := { slotOf base 3 with st := .migrating }, words := List.replicate 64 5, mail := [],
                          core := 1, from_ := 3, mask := 1 }
     let s : State := { setDie 0 { startDie with arrivals := [g] } base with
       others := [(1, some { startCore 1 with slots := [(3, { slotOf base 3 with st := .migrating })] })] }
     (dieAt s 0).arrivals = [g] ∧ landing s 0 g = some (s.me.num, 1, 192) ∧ g.core ≠ s.me.num ∧ g.mail = [] ∧ g.late = [] ∧
       g.words.length = g.slot.winSize) := by
  refine ⟨by decide, by decide⟩

/-- A launch queue at 0x4000 with one record published at count r. -/
def lst (r : Nat) (x : List Word) : State :=
  { poke 0x4000 [BitVec.ofNat 64 (r + 1)] (poke (0x4100 + 128 * (r % 16)) x
      (setDie 0 { startDie with principal := true, queues := [⟨0x4000, 16, r, 0, 0, 1⟩] } base)) with
    kernels := [⟨0x21, 0x7000, 0, 1⟩] }

def lrec (lap op : Nat) (l : List Word) : List Word := BitVec.ofNat 64 (lap * 2 ^ 48 + op * 2 ^ 40) :: l

def q1 (r : Nat) : LaunchQueue := ⟨0x4000, 16, r, 0, 0, 1⟩

def good : List Word := lrec 0 1 [0x7000, 1, 0x10001, 1, 2, 3, 4, 5, 6, 0, 0, 0, 0, 0, 0]

theorem witness_LaunchResults :
    (let s := lst 0 (lrec 0xFFFE 1 [])
     principalRuns s 0 = true ∧ (dieAt s 0).queues = [q1 0] ∧ (dieAt s 0).launching = none ∧ replayLaunch s 0 = none ∧
       (q1 0).code = 0 ∧
       (q1 0).r < (dpaWord s (q1 0).base).toNat ∧ (wordHomes s 0x4080 ++ wordHomes s 0x4040).Nodup ∧ recLap (recordOf s (q1 0)) = (lapOf 16 0 + 2 ^ 16 - 2) % 2 ^ 16) ∧
    (let r := recordOf (lst 0 (lrec 0 0 [])) (q1 0); recLap r = lapOf 16 0 ∧ recOp r = 0) ∧
    (let s := lst 16 (lrec 4 1 []); (q1 16).r < (dpaWord s (q1 16).base).toNat ∧
      recLap (recordOf s (q1 16)) = (lapOf 16 16 + 2) % 2 ^ 16) ∧
    (let r := recordOf (lst 0 (lrec 5 1 [])) (q1 0)
     recLap r ≠ lapOf 16 0 ∧ recLap r ≠ (lapOf 16 0 + 2) % 2 ^ 16 ∧ recLap r ≠ (lapOf 16 0 + 2 ^ 16 - 2) % 2 ^ 16) ∧
    (let r := recordOf (lst 0 (lrec 0 2 [])) (q1 0); recLap r = lapOf 16 0 ∧ 2 ≤ recOp r) ∧
    (let s := lst 0 (lrec 0 1 []); recOp (recordOf s (q1 0)) = 1 ∧ recordGood s (recordOf s (q1 0)) = false) ∧
    (let s := lst 0 good
     let r := recordOf s (q1 0)
     recLap r = lapOf 16 0 ∧ recOp r = 1 ∧ recordGood s r = true ∧ recDynamic r = false ∧ recTasks r = 1 ∧ recCores r = 1 ∧
       s.ctx.cores[recFirst r]? = some 1 ∧ 1 / 384 = 0 ∧ mailboxFull (coreOf s 1) = false ∧
       recKernel s r = some ⟨0x21, 0x7000, 0, 1⟩ ∧ s.ctx.fixed = false ∧
       (let u := setDie 0 { dieAt s 0 with launching := some ⟨q1 0, r, 0, true⟩ } s
        principalRuns u 0 = true ∧ (dieAt u 0).launching = some ⟨q1 0, r, 0, true⟩ ∧ mailboxFull (coreOf u 1) = false)) ∧
    mailboxFull (coreOf { lst 0 good with others := [(1, some { startCore 1 with reserved := 32 })] } 1) = true ∧
    (let x : TaskRange := ⟨5, 9, 0x21, 20, 77, [1, 2, 3, 4, 5, 6], [0]⟩
     let s := setCluster 0 { startCluster with dispatch := [x] } (onme (fun m => { m with vectors := spSet 0 [] 0x21 vecA }) base)
     (clusterAt s 0).dispatch = [x] ∧ x.cores = [s.me.num] ∧ requests s x s.me.num = some (1, 192) ∧ x.tag ≠ 0 ∧
       x.args.length = 6 ∧ x.next < 2 ^ 22 ∧ (clusterAt s 0).served ≠ some s.clock ∧
       (clusterAt (setCluster 0 { clusterAt s 0 with served := some 1000 } s) 0).served = some s.clock) := by
  refine ⟨by decide, by decide, by decide, by decide, by decide, by decide, by decide, by decide, by decide⟩

def circuits (s : State) : State := { s with conn := [(0, 0xE000000800000000), (1, 0xC000000800000000), (2, 0xA000000800000000)] }

/-- A partition of core 0 alone. -/
def c1 : CtxConfig := { base.ctx with cores := [0], tracks := [0], cmdLine := 0x6000, eventRing := 0x7000 }

def s1c : State := circuits { base with ctx := c1 }

/-- The states of a context switch on the way to SAVED, with what is kept beside the areas. -/
def stopping : State := { onme (fun m => { m with stopped := true }) s1c with switch := .stopping }

def allSaved : State := { onme (fun m => { m with stopped := true, saved := true }) s1c with switch := .stopping }

def saved : State :=
  { poke 0x200000 [1] (poke 0x400000 [1] allSaved) with
    switch := .saved, kept := [(0x200000, some (keep base.me))], keptPart := [(0x400000, some ⟨c1, [], [], [], [], [], none⟩)] }

/-- The same partition with a buddy that reserves nothing. -/
def small : CtxConfig := { c1 with pod := { buddyRoom := 0 } }

theorem witness_ContextSwitchResults :
    (let s := onme (fun m => { m with bell := 50, bellCount := 50 }) base
     s.switch = .resident ∧ s.me.bell ≠ 0 ∧ s.me.bell.toNat ≤ s.me.bellCount ∧ s.ctx.fixed = false ∧ s.ctx.cores ≠ []) ∧
    (let s := onme (fun m => { m with rung := true }) base; (coreOf s 0).rung = true ∧ 0 ∈ s.ctx.cores ∧ s.switch = .resident) ∧
    (let s : State := { base with switch := .stopping, stopAt := 1000, todo := [.last] }
     s.todo = .last :: [] ∧ firstInput exec s (lateInputs s) = none ∧ s.switch = .stopping ∧ s.stopAt ≤ s.clock ∧
       (∀ c ∈ s.ctx.cores, (coreOf s c).stopped = false) ∧ { s with clock := 999 }.clock < s.stopAt ∧ base.switch ≠ .stopping) ∧
    (∃ s : State, s.ctx.fixed = true ∧ 2048 ≤ s.me.trace.length ∧ s.me.lost = true ∧ s.ctx.logBase = some 0x9000 ∧ allStripes s = []) ∧
    (stopping.switch = .stopping ∧ stopping.me.stopped = true ∧ stopping.me.saved = false ∧
      stopping.me.num ∈ stopping.ctx.cores ∧ drained stopping = true) ∧
    (allSaved.switch = .stopping ∧ ∀ c ∈ allSaved.ctx.cores, (coreOf allSaved c).saved = true) ∧
    (saved.switch = .saved ∧ spGet none saved.kept 0x200000 = some (keep base.me) ∧
      spGet none saved.keptPart 0x400000 = some ⟨c1, [], [], [], [], [], none⟩ ∧ word64At saved 0x200000 = 1 ∧
      word64At saved 0x400000 = 1 ∧ saved.ctx = c1 ∧
      circuitsSet saved (suspendedFor c1 0x400000 saved).dieMap c1 = true ∧
      (suspendedFor c1 0x400000 saved).thermal = false ∧ (suspendedFor c1 0x400000 saved).dieMap = saved.dieMap ∧ c1.cores = [saved.me.num]) ∧
    (let s := circuits { base with ctx := noContext }
     s.fw.running = true ∧ seatFree s = true ∧ canStartContext c1 s = true ∧ replayRefused c1 = false ∧
       replayRefused { c1 with replay := some { entries := [], lost := true } } = true ∧
       replayRefused small = false ∧ small.pod.buddyRoom < contextBytes small s) ∧
    (seatFree base = false ∧ c1.cmdLine ≠ base.ctx.cmdLine ∧ base.fw.running = true ∧ recordOn c1 none base = none ∧
      recordOn c1 none { base with away := [(0x6000, some (newCtxFw c1))] } = some (0x6000, newCtxFw c1)) ∧
    (saved.switch = .saved ∧ [0, 1, 3, 2, 4, 5, 7, 6].Perm (List.range 8) ∧ saved.dieMap.Perm (List.range 8) ∧
      ontoPartition saved [0, 1, 3, 2, 4, 5, 7, 6] = true ∧ ([0, 1, 3, 2, 4, 5, 7, 6] : List Nat)[2]? = saved.dieMap[3]?) := by
  refine ⟨by decide, by decide, ⟨by decide, rfl, by decide⟩, ⟨{ base with ctx := { base.ctx with fixed := true, logBase := some 0x9000 }, me := { base.me with
    lost := true, trace := List.replicate 2048 ⟨1, 2, 3, 4, 1⟩ } }, by decide, ?_, by decide⟩, by decide, by decide, by decide,
    by decide, by decide, by decide⟩
  simp

def cmdS (op : Nat) (a b : Word) : State := poke 0x6000 [BitVec.ofNat 64 (2 ^ 48 + op * 2 ^ 40), a, b] s1c

theorem witness_CommandResults :
    (commandWaits (cmdS 1 0x8000 64) = true ∧ cmdOp (cmdS 1 0x8000 64) = 0x01 ∧
      dpaWord (cmdS 1 0x8000 64) ((cmdS 1 0x8000 64).ctx.cmdLine + 8) = BitVec.ofNat 64 0x8000 ∧
      badQueue (cmdS 1 0x8000 64) 0x8000 64 = false ∧ badQueue (cmdS 1 0x8000 65) 0x8000 65 = true) ∧
    (cmdOp (cmdS 2 0x4000 0) = 0x02 ∧ cmdOp (cmdS 3 0x4000 0) = 0x03 ∧ cmdOp (cmdS 0x10 0 0) = 0x10 ∧
      canCheckpoint (cmdS 0x10 0 0) = true ∧ canCheckpoint { cmdS 0x10 0 0 with switch := .stopping } = false) ∧
    (cmdOp (cmdS 0x11 1200 0) = 0x11 ∧ dpaWord (cmdS 0x11 1199 0) 0x6008 = BitVec.ofNat 64 1199 ∧
      dpaWord (cmdS 0x11 2400 0) 0x6008 = BitVec.ofNat 64 2400 ∧ dpaWord (cmdS 0x11 2401 0) 0x6008 = BitVec.ofNat 64 2401) ∧
    (cmdOp (cmdS 0x12 128 7) = 0x12 ∧ dpaWord (cmdS 0x12 128 7) 0x6008 = BitVec.ofNat 64 128 ∧
      usesCircuit (cmdS 0x12 1 7).ctx (cmdS 0x12 1 7).dieMap (spGet 0 (cmdS 0x12 1 7).conn 1) = true ∧ (cmdS 0x12 1 7).switch ≠ .saved ∧
      usesCircuit (cmdS 0x12 127 7).ctx (cmdS 0x12 127 7).dieMap (spGet 0 (cmdS 0x12 127 7).conn 127) = false) ∧
    (cmdOp (cmdS 0x20 0x9000 0x9100) = 0x20 ∧ commandWaits (cmdS 0x20 0x9000 0x9100) = true ∧
      cmdOp (cmdS 0x77 0 0) = 0x77 ∧
      (0x77 : BitVec 8) ∉ ([0x01, 0x02, 0x03, 0x10, 0x11, 0x12, 0x20] : List (BitVec 8))) ∧
    (let s := setDie 0 { startDie with launching := some ⟨q1 0, good, 0, true⟩ } (cmdS 3 0x4000 0)
     (dieAt s 0).launching = some ⟨q1 0, good, 0, true⟩ ∧ (q1 0).base = 0x4000 ∧ 0 ∈ partDies s) ∧
    (let s : State := { cmdS 0x12 127 7 with ctx := noContext, away := [(0x6000, some (newCtxFw c1))] }
     commandWaits s = false ∧ awayWaiting s = [(0x6000, newCtxFw c1)] ∧ cmdOp (seenBy (newCtxFw c1) s) = 0x12 ∧
       dpaWord (seenBy (newCtxFw c1) s) (c1.cmdLine + 8) = BitVec.ofNat 64 127 ∧
       dpaWord (seenBy (newCtxFw c1) s) (c1.cmdLine + 16) = 7 ∧ (wordHomes (seenBy (newCtxFw c1) s) (c1.cmdLine + 64)).Nodup ∧ seatFree s = true) := by
  refine ⟨by decide, by decide, by decide, by decide, by decide, by decide, by decide⟩

def sect (name : String) (w x : Bool) (align addr : Nat) (bytes : List Byte) : Section :=
  { file := "a.o", name := name, alloc := true, write := w, exec := x, align := align, addr := addr, bytes := bytes }

/-- One kernel of one pair, its entry relocated, a vector and a layout entry. -/
def img0 : Image :=
  { eiClass := 2, eiData := 1, eiVersion := 1, version := 1, eType := 2, machine := 0xF960, flags := 1, digest := 5,
    strtab := [0, 0x6B, 0]
    sections := [sect ".text" false true 8 0x10000 (List.replicate 8 1),
      sect ".zx.kernels" false false 8 0x10040 (List.replicate 8 0 ++ [1, 0, 0, 0, 0, 0, 0, 0, 64, 0, 1, 0, 8, 0, 0, 0] ++ List.replicate 8 0),
      sect ".zx.vectors" false false 8 0x10060 ([0, 0, 1, 0, 0, 0, 0, 0, 0x30, 0x7C, 1] ++ List.replicate 5 0),
      sect ".zx.layouts" false false 64 0x10080 (leBytes 64 (lay 0x10000).toNat ++ [3] ++ List.replicate 63 0)]
    symbols := [⟨1, .global, .func, 8, some 0x10000⟩], relocs := [⟨true, 1, 0, 0, 1, 0⟩] }

/-- The same with a displacement of 6 bits over its field. -/
def imgBad : Image := { img0 with relocs := [⟨true, 6, 0, 0x8000, 0, 4⟩, ⟨true, 1, 0, 0, 1, 0⟩] }

theorem witness_ImageResults :
    (let s : State := { base with fw := { startFirmware with image := ⟨true, 6, 3⟩ } }
     s.fw.running = false ∧ s.fw.image.verifies = true) ∧
    (FirmwareImage.verifies ⟨false, 5, 77⟩ = false) ∧
    (∃ x : FirmwareImage, x.verifies = true ∧ Config.rollbackFloor ≤ x.version) ∧
    (let s := pt s1c
     s.fw.running = true ∧ s.switch = .resident ∧ s.ctx.cores ≠ [] ∧ (accepted s img0).isSome = true ∧
       accepted s { img0 with machine := 3 } = none) ∧
    (symbolGood img0 ⟨1, .other, .func, 8, some 0x10000⟩ = false ∧ ({ img0 with machine := 3 } : Image).machine ≠ 0xF960 ∧ ⟨true, 6, 0, 0x8000, 0, 4⟩ ∈ imgBad.relocs) ∧
    resolved imgBad ⟨true, 6, 0, 0x8000, 0, 4⟩ = .error (.needs 0x1000 14 8) := by
  refine ⟨by decide, by decide, ⟨⟨true, Config.rollbackFloor, 0⟩, rfl, Nat.le_refl _⟩, by decide +kernel, by decide, by decide +kernel⟩

theorem witness_FirmwareEvents :
    (let k : Checkpoint := ⟨3, 0x400000, [], [], [], [], [(0x400000, some ⟨c1, [], [], [], [], [], none⟩)], []⟩
     let s : State := { s1c with ckCopy := some k, ckWhole := some k }
     s.ckCopy = some k ∧ s.ckWhole = some k ∧ spGet none k.keptPart k.base = some ⟨c1, [], [], [], [], [], none⟩ ∧
       s.fw.running = true ∧ s.ctx = c1 ∧ circuitsSet s s.dieMap c1 = true ∧ 1023 < 1024 ∧ s.fw.thermal = false ∧
       canCheckpoint base = true ∧ s.fw.faultAt = none ∧ s.ctx.cores ≠ [] ∧ (∀ c ∈ s.ctx.cores, (coreOf s c).tests = [])) ∧
    (let f : Flit := { ctr := 0, type := 1, dpkg := 0, spkg := 0, payload := [(0x999, 7)], barrier := some 7 }
     let s : State := { base with podBars := [(7, ⟨2, 1, 4, 0, 0⟩)] }
     (∃ tag, flitVerified (linkAt s 31) 31 { f with tag := tag } = true) ∧
       (∃ tag, flitVerified (linkAt s 31) 31 { f with tag := tag } = false) ∧
       f.ctr = (linkAt s 31).expect ∧ f.type.toNat < 4 ∧ f.dpkg = s.pkg ∧ (barGet s 5 7).n ≠ 0 ∧
       (barGet s 5 7).count + 1 = (barGet s 5 7).n ∧ { f with ctr := 1 }.ctr ≠ (linkAt s 31).expect) ∧
    (let f : SentFlit := ⟨{ ctr := 0, type := 3, dpkg := 1, spkg := 0, payload := [] }, 100, 9000⟩
     let s : State := { base with clock := 5500, links := [(5, { startLink with sent := [f], flits := 2 ^ 40 })] }
     (linkAt s 5).sent.find? (overdue s.clock) = some f ∧ 2 ^ 40 ≤ (linkAt s 5).flits) ∧
    (base.kept = [] ∧ base.ctx.cores.Nodup ∧ base.fw.cap < 2401 ∧ 2279 ≤ base.fw.cap ∧ 100 * 2279 < 95 * base.fw.cap ∧ 95 * base.fw.cap ≤ 100 * 2280) ∧
    (let s := onme (fun m => { m with rate := 1 }) s1c
     s.fw.running = true ∧ s.switch = .resident ∧ dieCores s 0 ≠ [] ∧ ∀ c ∈ dieCores s 0, (coreOf s c).rate = 1) ∧
    (2 ^ 39 - 3 + 3 ≤ 2 ^ 39 ∧ [1, 2, 3].length = 3 ∧ allStripes base = [] ∧ 2 ^ 39 - 1 < 2 ^ 39 ∧ remapCount base ((2 ^ 39 - 1) / 2 ^ 31) < 1024) ∧
    (∃ s : State, s.fw.running = true ∧ 0x2000000 / 32 ∉ s.remap ∧ 1024 ≤ remapCount s (0x2000000 / 2 ^ 31) ∧
      s.ctx.cores ≠ []) ∧
    7 < 8 ∧ 31 < 32 := by
  refine ⟨by decide, ⟨⟨_, Laws.flitVerified_own _ _ _⟩, ⟨_, Laws.flitVerified_other _ _ _⟩, by decide⟩, by decide, by decide, by decide, by decide,
    ⟨{ base with remap := List.range 1024 }, by decide, ?_, ?_, by decide⟩, by decide, by decide⟩
  · simp
  · decide
theorem witness_ClassAFrame : encode (.add 3 4 5) = some 0x4000C205 ∧ classA 0x4000C205 = true ∧ (cur base).tvec ≠ 0 ∧
    ∃ t, exec (.add 3 4 5) base = .next t := ⟨by decide, by decide, by decide, _, rfl⟩

theorem witness_EveryWordAnswers : encode (.endThread) = some 0x00100000 := by decide

/-- Core 0 about to take its turn, with a pair of two words at the place of slot 0. -/
def turn (w0 w1 : Nat) : State :=
  { poke 0 [BitVec.ofNat 64 (w0 + 2 ^ 32 * w1)] (onme (fun m => { m with lines := [0x400], phase := 8 }) base) with
    todo := [.issue 0, .rest 0] }

/-- The same with slot 0 at word 1. -/
def turn1 (w0 w1 : Nat) : State := un (fun c => { c with widx := 1 }) (turn w0 w1)

theorem witness_StepRunsDecoded :
    (let s := turn 0xC000C205 0x4000C205
     let s1 := turnState 0 { s with todo := [.rest 0] }
     let s2 := beginIssue 0 0 s1
     s.todo = .issue 0 :: [.rest 0] ∧ firstDue exec s (beforeIssue exec 0 s) = none ∧ issuing s1 = some (0, 0) ∧
       checkAccess s2 s2.me.itlb false [((slotOf s1 0).pa, .execute)] = .ok [page0] ∧
       (slotOf s1 0).pa / 64 ∈ s2.me.lines ∧ isBad s2 (homeOf s2 [page0] (slotOf s1 0).pa) = false ∧
       pBit (word32At s2 4) = false ∧ pBit (word32At s2 0) = true ∧ (slotOf s1 0).widx = 0 ∧
       decodeWord (word32At s2 0) = some (.add 3 4 5)) ∧
    (let s1 := turnState 0 { turn1 0xC000C205 0x4000C205 with todo := [.rest 0] }
     issuing s1 = some (0, 0) ∧ (slotOf s1 0).widx ≠ 0 ∧ decodeWord (word32At s1 4) = some (.add 3 4 5)) ∧
    (let s := turn 0x00300015 0x4000C205
     pBit (word32At s 0) = false ∧ (word32At s 0 ≠ 0) ∧ classA (word32At s 0) = false ∧ classA (word32At s 4) = true ∧
       decodeWord (word32At s 0) = some (.swtrap 0x15) ∧ pBit (word32At s 4) = false) ∧
    (pBit (word32At (turn1 0x4000C205 0xC000C205) 0) = false ∧ pBit (word32At (turn1 0x4000C205 0xC000C205) 4) = true ∧
      word32At (turn1 0 0) 0 = 0 ∧ word32At (turn1 0 0) 4 = 0) ∧
    decodeWord (word32At (turn 0x00B00000 0) 0) = none ∧
    (let s := turn 0x4000C205 0x00300015
     classA (word32At s 0) = true ∧ classA (word32At s 4) = false ∧ pBit (word32At s 0) = false ∧ pBit (word32At s 4) = false) ∧
    (classA 0x00B00000 = false ∧ decodeWord 0x00B00000 = none ∧ classA 0x7E000000 = true ∧ decodeWord 0x7E000000 = none) := by
  refine ⟨⟨rfl, rfl, by decide, rfl, by decide, by decide, by decide, by decide, by decide, by decide⟩,
    by decide, by decide, by decide, by decide, by decide, by decide⟩

/-- Outcomes of a pair's two words on a state, as the pair's issue finds it. -/
def pairIn (s : State) : State := { s with iss := { s.iss with
  word := 0, par := true, latch := some ⟨s.me.pool, s.me.table⟩, res := .running } }

def resAndSt (o : Out State) : Option (Res × SlotState) := match o with | .next t => some (t.iss.res, (cur t).st) | _ => none

/-- MFS g7, with ADD g3; SWTRAP; LINEUP; MTS of a value that is refused; END; a load whose reply a delay puts off. -/
theorem witness_PairResults :
    (encode (.mfs 7 0x002) = some 0x021C0002 ∧ encode (.add 3 4 5) = some 0x4000C205 ∧ classA 0x021C0002 = false ∧
      classA 0x4000C205 = true ∧ encode (.addp 3 4 5) ≠ none ∧ encode (.div 3 4 5) ≠ none) ∧
    (let s := pairIn (r2 1 2)
     awaited s (uses (.mfs 7 0x002)) ++ awaited s (uses (.add 3 4 5)) = [] ∧ boundsFault s (uses (.mfs 7 0x002)).names = none ∧
       boundsFault s (uses (.add 3 4 5)).names = none ∧ writtenRegs s (uses (.mfs 7 0x002)) = [7] ∧
       writtenRegs s (uses (.add 3 4 5)) = [3] ∧ (cur s).st = .runnable ∧ (cur s).pend = [] ∧
       resAndSt (exec (.mfs 7 0x002) s) = some (.retired, .runnable) ∧
       resAndSt (exec (.add 3 4 5) (onWord 1 s)) = some (.retired, .runnable) ∧
       resAndSt (exec (.div 3 4 5) (onWord 1 s)) = some (.held, .held 1121) ∧
       resAndSt (exec (.swtrap 1) s) = some (.trapped, .runnable) ∧
       resAndSt (exec (.lineup 1) s) = some (.parked, .parked (.lineup 1 0x10000 1000)) ∧
       resAndSt (exec .endThread s) = some (.retired, .empty)) ∧
    (let s := pairIn (r2 (0x01FFFFFFFFFFFFFF) 2)
     resAndSt (exec (.addp 3 4 5) (onWord 1 s)) = some (.trapped, .runnable)) ∧
    (let s := pairIn { r2 0x10008 0 with delays := [3] }
     ∃ x, resAndSt (exec (.ldD 9 4 0) s) = some (.waiting, .waiting (.reply x)) ∧ waitsInside (.reply x) = true) ∧
    (let s := pairIn (onme (fun m => { m with relaxed := [{ acc0 with regs := [3] }] }) (r2 1 2))
     awaited s (uses (.add 3 4 5)) ≠ []) ∧
    (let s := pairIn (un (fun c => { c with winSize := 8 }) base)
     (boundsFault s (uses (.mfs 9 0x002)).names).isSome = true ∧ boundsFault s (uses (.mfs 7 0x002)).names = none ∧
       (boundsFault s (uses (.add 9 4 5)).names).isSome = true ∧ writtenRegs s (uses (.mfs 3 0x002)) = [3]) ∧
    (waitsInside (.regs [3]) = false ∧ waitsInside .posted = false) ∧
    (let x := { acc0 with due := 1000 }
     let s := un (fun c => { c with st := .waiting (.reply x), partner := some ⟨.add 3 4 5, ⟨base.me.pool, base.me.table⟩, 0⟩ }) base
     let c := slotOf s x.slot
     x.act = .load 9 8 false ∧ x.got = [] ∧ x.due ≤ s.clock ∧ s.me.relaxed = [] ∧ s.me.posted = [] ∧
       c.st = .waiting (.reply x) ∧ c.partner = some ⟨.add 3 4 5, ⟨base.me.pool, base.me.table⟩, 0⟩ ∧ c.poisoned = [] ∧
       c.widx = 0 ∧ 5 < c.winSize ∧ (∀ h ∈ (List.range 8).map fun k => homeOf s x.pages (x.va + k), isBad s h = false)) := by
  refine ⟨by decide, by decide, by decide, ⟨_, rfl, rfl⟩, by decide, by decide, by decide, by decide⟩

/-- R36, R87: RETT has sent slot 0 to word 1 of a pair of zeros: the pair traps ILLEGAL at word 0. -/
theorem test_rett_to_zero_pair : (match step (turn1 0 0) with
    | .next t => some ((slotOf t 0).tcause, (slotOf t 0).tpair, (slotOf t 0).pa)
    | _ => none) = some (cIllegal, 0, 0x2000) := by decide

theorem witness_EncodeDecode : Instr.wf (.bari 127 4 15) = true ∧ encode (.bari 127 4 15) ≠ none := by decide

theorem witness_DecodeEncode : decodeWord 0xC000C205 = some (.add 3 4 5) := by decide

theorem witness_StepKeepsMemory : (turn 0xC000C205 0x4000C205).memOk ∧ ∃ t, step (turn 0xC000C205 0x4000C205) = .next t :=
  ⟨by decide, _, rfl⟩

/-- A replay with logged writes left, and a home in the scratchpad of core 1. -/
def rep (es : List (Nat × TraceEntry)) : State := { base with replay := some ⟨es, false, []⟩ }

def home1 : Nat := scratchHome 1 0

/-- Logged stores to the first atom of core 1's scratchpad: of slot 0 of core 0, and of slot 3. -/
def log0 : Nat × TraceEntry := (1, ⟨900, 0, 0, 0, 0⟩)

def log3 : Nat × TraceEntry := (1, ⟨890, 0, 3, 0, 0⟩)

/-- R257: a store of slot 0 uses up its entry when its turn has come, and comes early before slot 3's. -/
theorem test_replay_write : (writeBytes ⟨0, 0, 0⟩ [(home1, 1)] (rep [log0, log3])).replay = some ⟨[log3], false, []⟩ ∧
    (writeBytes ⟨0, 0, 0⟩ [(home1, 1)] (rep [log3, log0])).replay = some ⟨[log3, log0], true, []⟩ ∧
    (writeBytes ⟨0, 0, 0⟩ [(home1 + 32, 1)] (rep [log3])).replay = some ⟨[log3], false, []⟩ := by decide

/-- The store to core 1's scratchpad that slot 0 makes, as an access. -/
def accR : Access := { racc (.store 8 5) with due := 1000 }

/-- Slot 0 waits with that store, and its reply is due. -/
def repW (es : List (Nat × TraceEntry)) : State := setSlot 0 { slotOf (rep es) 0 with st := .waiting (.reply accR) } (rep es)

/-- A relaxed store of slot 0 over the last bytes of core 0's scratchpad and the first of core 1's is outstanding. -/
def repX : State := onme (fun m => { m with relaxed := [{ racc (.store 8 5) with va := rwin - 4, due := 2000 }], nextId := 1 }) (rep [log3])

theorem witness_WriteThenRead : ((([(7, 1), (9, 0)] : List (Nat × Byte)).map (·.1)).Nodup) ∧ base.memOk ∧
    base.replay = none ∧ scratchCore (home1 / 32) = some 1 ∧ (1 : Nat) ≠ 0 ∧ (rep [log3, log0]).replay ≠ none ∧
    (([log3, log0] : List (Nat × TraceEntry)).find? fun x => x.1 == 1 && x.2.atom == BitVec.ofNat 14 (home1 / 32)) = some log3 ∧
    (([log3] : List (Nat × TraceEntry)).find? fun x => x.1 == 1 && x.2.atom == BitVec.ofNat 14 (home1 / 32 + 1)) = none ∧
    log3.2.sslot ≠ 0 ∧ log0.2.sslot = 0 ∧
    isEarly (onCore exec (0, .blockingReply 0) (repW [log3, log0])) = true ∧
    isEarly (onCore exec (0, .blockingReply 0) (repW [log0])) = false ∧
    (let r := newAccess false (rwin - 8) (.load 9 8 false) [] { repX with me := { repX.me with dtlb := touchTlb 0 [] repX.me.dtlb } }
     repX.replay ≠ none ∧ accVector r.1.act = false ∧ r.1.due ≤ repX.clock ∧ isEarly (finishAccess r.1 r.2) = true) := by decide

theorem witness_PrivilegeHolds : let s := un (fun c => { c with prv := false }) base
    encode (.mts 4 0x050) = some 0x04100050 ∧ (cur s).prv = false ∧ ∃ t, exec (.mts 4 0x050) s = .next t :=
  ⟨by decide, by decide, _, rfl⟩


end Sys2Proof.Tests
end

section
/-!
SUPPORT. The integer, field and immediate words (R62 to R69): how a ready word that writes gd retires or is held, and what
the word functions of the model come to as arithmetic on u(a) and s(a), or bit by bit.
-/

namespace Sys2Proof.Proofs

open Sys2Proof.Machine Sys2Proof.Laws

/-! ## How a ready word ends -/

/-- A ready word whose effect is gd := f retires with gd written. -/
theorem retires_of_ready {o : Out State} {u : Uses} {d : BitVec 7} {f : State → Word} {s : State} {v : Word}
    (ho : o = enter u s fun s => retireWr d (f s) s) (h : Ready u s) (hv : f s = v) :
    o = .next (advance (wr d v s)) := by
  rw [ho, enter_of_ready u s _ h, hv]
  rfl

/-- A ready word whose effect is gd := f after a hold of n turns leaves its slot HELD, with the write pending (R26). -/
theorem holds_of_ready {o : Out State} {u : Uses} {d : BitVec 7} {n : Nat} {f : State → Word} {s : State} {v : Word}
    (ho : o = enter u s fun s => hold n (pendG d (f s)) s) (h : Ready u s) (hv : f s = v) :
    o = .next (setRes .held
      (onCur (fun c => { c with st := .held (holdStop s n), pend := [(d.toNat, v)] }) (advance s))) := by
  rw [ho, enter_of_ready u s _ h, hv]
  rfl

/-! ## Comparisons (R62, R67) -/

theorem flag_decide (p : Prop) [Decidable p] : flag (decide p) = if p then 1 else 0 := by
  simp [flag]

theorem flag_beq (x y : Word) : flag (x == y) = if x = y then 1 else 0 := by
  simp [flag]

theorem smaller_eq_ofInt_min (x y : Word) :
    (if ltS y x then y else x) = BitVec.ofInt 64 (min x.toInt y.toInt) := by
  by_cases h : y.toInt < x.toInt
  · simp [ltS, h, min_eq_right h.le]
  · simp [ltS, h, min_eq_left (not_lt.1 h)]

theorem larger_eq_ofInt_max (x y : Word) :
    (if ltS x y then y else x) = BitVec.ofInt 64 (max x.toInt y.toInt) := by
  by_cases h : x.toInt < y.toInt
  · simp [ltS, h, max_eq_right h.le]
  · simp [ltS, h, max_eq_left (not_lt.1 h)]

/-! ## Shifts and rotates (R62, R68) -/

theorem shiftLeft_eq_ofNat_mul (x : Word) (n : Nat) : x <<< n = BitVec.ofNat 64 (x.toNat * 2 ^ n) := by
  apply BitVec.eq_of_toNat_eq
  rw [BitVec.toNat_shiftLeft, BitVec.toNat_ofNat, Nat.shiftLeft_eq]

theorem ushiftRight_eq_ofNat_div (x : Word) (n : Nat) : x >>> n = BitVec.ofNat 64 (x.toNat / 2 ^ n) := by
  rw [← Nat.shiftRight_eq_div_pow, ← BitVec.toNat_ushiftRight, BitVec.ofNat_toNat, BitVec.setWidth_eq]

theorem sshiftRight_eq_ofInt_div (x : Word) (n : Nat) : x.sshiftRight n = BitVec.ofInt 64 (x.toInt / 2 ^ n) := by
  rw [BitVec.sshiftRight_eq, Int.shiftRight_eq_div_pow]
  simp

theorem rotateLeft_eq_or {n : Nat} (x : Word) (h : n < 64) : x.rotateLeft n = x <<< n ||| x >>> (64 - n) := by
  rw [BitVec.rotateLeft_def, Nat.mod_eq_of_lt h]

theorem rotateRight_eq_or {n : Nat} (x : Word) (h : n < 64) : x.rotateRight n = x >>> n ||| x <<< (64 - n) := by
  rw [BitVec.rotateRight_def, Nat.mod_eq_of_lt h]

/-! ## Immediates (R67, R69) -/

theorem add_signExtend_eq_ofInt_add (x : Word) (k : BitVec 11) :
    x + k.signExtend 64 = BitVec.ofInt 64 (x.toInt + k.toInt) := by
  rw [BitVec.ofInt_add, BitVec.ofInt_toInt]
  rfl

theorem flag_ltS_signExtend (x : Word) (k : BitVec 11) :
    flag (ltS x (k.signExtend 64)) = if x.toInt < k.toInt then 1 else 0 := by
  rw [ltS, BitVec.toInt_signExtend_of_le (by decide), flag_decide]

/-- The 18 bits of k come into the place that the shift has cleared. -/
theorem shiftLeft_or_setWidth_eq_ofNat (x : Word) (k : BitVec 18) :
    x <<< 18 ||| k.setWidth 64 = BitVec.ofNat 64 (x.toNat * 2 ^ 18 + k.toNat) := by
  rw [shiftLeft_eq_ofNat_mul, ← BitVec.ofNat_toNat, ← BitVec.ofNat_or, ← Nat.shiftLeft_eq,
    Nat.shiftLeft_add_eq_or_of_lt k.isLt]

/-! ## Quotients and remainders (R63, R64) -/

theorem divW_zero (x : Word) : divW x 0 = BitVec.allOnes 64 := rfl
theorem divuW_zero (x : Word) : divuW x 0 = BitVec.allOnes 64 := rfl
theorem remW_zero (x : Word) : remW x 0 = x := rfl
theorem remuW_zero (x : Word) : remuW x 0 = x := rfl

/-- R64's overflow: the quotient 2^63 wraps to -2^63. -/
theorem divW_overflow {x y : Word} (hx : x = BitVec.intMin 64) (hy : y = BitVec.allOnes 64) :
    divW x y = BitVec.intMin 64 := by
  subst hx hy
  decide

theorem remW_overflow {x y : Word} (hx : x = BitVec.intMin 64) (hy : y = BitVec.allOnes 64) : remW x y = 0 := by
  subst hx hy
  decide

/-- But for R64's overflow the truncated quotient fits the word. -/
theorem toInt_divW {x y : Word} (hy : y ≠ 0) (h : ¬(x = BitVec.intMin 64 ∧ y = BitVec.allOnes 64)) :
    (divW x y).toInt = x.toInt.tdiv y.toInt := by
  have hne : x ≠ BitVec.intMin 64 ∨ y ≠ -1#64 := not_and_or.1 h
  rw [divW, if_neg hy, BitVec.toInt_ofInt, ← BitVec.toInt_sdiv, BitVec.toInt_sdiv_of_ne_or_ne x y hne]

theorem toInt_remW {x y : Word} (hy : y ≠ 0) : (remW x y).toInt = x.toInt.tmod y.toInt := by
  rw [remW, if_neg hy, ← BitVec.toInt_srem, BitVec.ofInt_toInt]

theorem toNat_divuW {x y : Word} (hy : y ≠ 0) : (divuW x y).toNat = x.toNat / y.toNat := by
  rw [divuW, if_neg hy, ← BitVec.toNat_udiv, BitVec.ofNat_toNat, BitVec.setWidth_eq]

theorem toNat_remuW {x y : Word} (hy : y ≠ 0) : (remuW x y).toNat = x.toNat % y.toNat := by
  rw [remuW, if_neg hy, ← BitVec.toNat_umod, BitVec.ofNat_toNat, BitVec.setWidth_eq]

theorem abs_tmod_lt {m n : Int} (hn : n ≠ 0) : |m.tmod n| < |n| := by
  rw [Int.abs_eq_natAbs, Int.abs_eq_natAbs, Int.natAbs_tmod]
  exact_mod_cast Nat.mod_lt _ (Int.natAbs_pos.2 hn)

/-- A truncated remainder has the dividend's sign. -/
theorem tmod_mul_self_nonneg (m n : Int) : 0 ≤ m.tmod n * m := by
  rcases le_total 0 m with hm | hm
  · exact mul_nonneg (Int.tmod_nonneg n hm) hm
  · have h : 0 ≤ -m.tmod n := Int.neg_tmod m n ▸ Int.tmod_nonneg n (neg_nonneg.2 hm)
    exact mul_nonneg_of_nonpos_of_nonpos (neg_nonneg.1 h) hm

/-- R63's signed pair: it gives the dividend back, the remainder is smaller than the divisor and has the dividend's sign. -/
theorem divW_remW_spec {x y : Word} (hy : y ≠ 0) (h : ¬(x = BitVec.intMin 64 ∧ y = BitVec.allOnes 64)) :
    (divW x y).toInt * y.toInt + (remW x y).toInt = x.toInt ∧
      |(remW x y).toInt| < |y.toInt| ∧ 0 ≤ (remW x y).toInt * x.toInt := by
  have hy' : y.toInt ≠ 0 := fun h0 => hy (BitVec.toInt_inj.1 h0)
  rw [toInt_divW hy h, toInt_remW hy]
  exact ⟨Int.tdiv_mul_add_tmod _ _, abs_tmod_lt hy', tmod_mul_self_nonneg _ _⟩

/-- R63's unsigned pair. -/
theorem divuW_remuW_spec {x y : Word} (hy : y ≠ 0) :
    (divuW x y).toNat * y.toNat + (remuW x y).toNat = x.toNat ∧ (remuW x y).toNat < y.toNat := by
  have hy' : 0 < y.toNat := Nat.pos_of_ne_zero fun h0 => hy (BitVec.eq_of_toNat_eq h0)
  rw [toNat_divuW hy, toNat_remuW hy]
  exact ⟨Nat.div_add_mod' _ _, Nat.mod_lt _ hy'⟩

/-! ## Bits moved about (R65) -/

theorem bitN_eq_toNat (a : Word) (k : Nat) : bitN a k = (a.getLsbD k).toNat :=
  (Nat.toNat_testBit a.toNat k).symm

theorem scatterBits_succ (n : Nat) (src dst : Nat → Nat) :
    scatterBits (n + 1) src dst = scatterBits n src dst + src n * 2 ^ dst n := by
  simp [scatterBits, List.range_succ]

/-- Words with no bit in common add without a carry. -/
theorem add_eq_or_of_disjoint {p q : Word} (h : ∀ j, p.getLsbD j = true → q.getLsbD j = false) : p + q = p ||| q := by
  refine BitVec.add_eq_or_of_and_eq_zero p q (BitVec.eq_of_getLsbD_eq fun j _ => ?_)
  cases hp : p.getLsbD j
  · simp [hp]
  · simp [hp, h j hp]

theorem getLsbD_ofNat_bitN_mul (a : Word) (k e j : Nat) :
    (BitVec.ofNat 64 (bitN a k * 2 ^ e)).getLsbD j = true ↔ j < 64 ∧ e = j ∧ a.getLsbD k = true := by
  rw [bitN_eq_toNat, BitVec.getLsbD_ofNat, Nat.testBit_mul_two_pow, Nat.testBit_bool_toNat]
  simp only [Bool.and_eq_true, decide_eq_true_eq]
  constructor
  · rintro ⟨hj, he, h0, ha⟩
    exact ⟨hj, by omega, ha⟩
  · rintro ⟨hj, rfl, ha⟩
    exact ⟨hj, le_rfl, Nat.sub_self _, ha⟩

/-- Where the places dst i differ, bit f i of a stands at place dst i, and every other bit is 0. -/
theorem getLsbD_scatterBits (a : Word) (f dst : Nat → Nat) (n j : Nat)
    (hd : ∀ i < n, ∀ k < n, dst i = dst k → i = k) :
    (BitVec.ofNat 64 (scatterBits n (fun i => bitN a (f i)) dst)).getLsbD j = true ↔
      j < 64 ∧ ∃ i < n, dst i = j ∧ a.getLsbD (f i) = true := by
  induction n generalizing j with
  | zero => simp [scatterBits]
  | succ n ih =>
    replace ih := fun j => ih j fun i hi k hk => hd i (by omega) k (by omega)
    have hfree : ∀ j, (BitVec.ofNat 64 (scatterBits n (fun i => bitN a (f i)) dst)).getLsbD j = true →
        (BitVec.ofNat 64 (bitN a (f n) * 2 ^ dst n)).getLsbD j = false := by
      intro j hj
      obtain ⟨-, i, hi, rfl, -⟩ := (ih j).1 hj
      rw [← Bool.not_eq_true, getLsbD_ofNat_bitN_mul]
      rintro ⟨-, heq, -⟩
      exact hi.ne (hd i (by omega) n (by omega) heq.symm)
    rw [scatterBits_succ, BitVec.ofNat_add, add_eq_or_of_disjoint hfree, BitVec.getLsbD_or, Bool.or_eq_true, ih,
      getLsbD_ofNat_bitN_mul]
    constructor
    · rintro (⟨hj, i, hi, h⟩ | ⟨hj, h⟩)
      · exact ⟨hj, i, by omega, h⟩
      · exact ⟨hj, n, by omega, h⟩
    · rintro ⟨hj, i, hi, h⟩
      rcases Nat.lt_succ_iff_lt_or_eq.1 hi with hi | rfl
      · exact .inl ⟨hj, i, hi, h⟩
      · exact .inr ⟨hj, h⟩

/-- Every m-th place from c on: place j takes bit f (j / m) of a. -/
theorem getLsbD_scatterBits_lane (a : Word) (f : Nat → Nat) {dst : Nat → Nat} {m c : Nat} (n j : Nat) (hc : c < m)
    (hdst : ∀ i, dst i = m * i + c) :
    (BitVec.ofNat 64 (scatterBits n (fun i => bitN a (f i)) dst)).getLsbD j =
      (decide (j < 64 ∧ j % m = c ∧ j / m < n) && a.getLsbD (f (j / m))) := by
  have hdiv : ∀ i, (m * i + c) / m = i := fun i => by
    rw [Nat.mul_add_div (by omega), Nat.div_eq_of_lt hc, Nat.add_zero]
  have hinj : ∀ i < n, ∀ k < n, dst i = dst k → i = k := fun i _ k _ h => by
    rw [hdst, hdst] at h
    rw [← hdiv i, h, hdiv]
  rw [Bool.eq_iff_iff, getLsbD_scatterBits a f dst n j hinj, Bool.and_eq_true, decide_eq_true_eq]
  constructor
  · rintro ⟨hj, i, hi, rfl, ha⟩
    rw [hdst] at hj ⊢
    rw [hdiv, Nat.mul_add_mod, Nat.mod_eq_of_lt hc]
    exact ⟨⟨hj, rfl, hi⟩, ha⟩
  · rintro ⟨⟨hj, hm, hn⟩, ha⟩
    exact ⟨hj, j / m, hn, by rw [hdst, ← hm, Nat.div_add_mod], ha⟩

/-- The first n bits of a, laid out at every m-th place from c on: one input's part of an interleaved word. -/
def lane (m c n : Nat) (a : Word) : Word := BitVec.ofNat 64 (scatterBits n (bitN a) (m * · + c))

theorem getLsbD_lane (a : Word) {m c : Nat} (n j : Nat) (hc : c < m) :
    (lane m c n a).getLsbD j = (decide (j < 64 ∧ j % m = c ∧ j / m < n) && a.getLsbD (j / m)) :=
  getLsbD_scatterBits_lane a id n j hc fun _ => rfl

/-- A lane has its set bits at the places of one residue only. -/
theorem mod_eq_of_getLsbD_lane {a : Word} {m c n j : Nat} (hc : c < m) (h : (lane m c n a).getLsbD j = true) :
    j % m = c := by
  simp only [getLsbD_lane _ _ _ hc, Bool.and_eq_true, decide_eq_true_eq] at h
  exact h.1.2.1

theorem getLsbD_lane_eq_false (a : Word) {m c n j : Nat} (hc : c < m) (h : j % m ≠ c) :
    (lane m c n a).getLsbD j = false :=
  Bool.eq_false_iff.2 fun hj => h (mod_eq_of_getLsbD_lane hc hj)

theorem ilv2W_eq_or (x y : Word) : ilv2W x y = lane 2 0 32 x ||| lane 2 1 32 y := by
  have hadd : ilv2W x y = lane 2 0 32 x + lane 2 1 32 y := BitVec.ofNat_add _ _
  rw [hadd]
  refine add_eq_or_of_disjoint fun j hj => getLsbD_lane_eq_false y (by decide) ?_
  have := mod_eq_of_getLsbD_lane (by decide) hj
  omega

theorem ilv3W_eq_or (x y z : Word) : ilv3W x y z = lane 3 0 21 x ||| lane 3 1 21 y ||| lane 3 2 21 z := by
  have hadd : ilv3W x y z = lane 3 0 21 x + lane 3 1 21 y + lane 3 2 21 z :=
    (BitVec.ofNat_add _ _).trans (congrArg (· + lane 3 2 21 z) (BitVec.ofNat_add _ _))
  have hxy : lane 3 0 21 x + lane 3 1 21 y = lane 3 0 21 x ||| lane 3 1 21 y := by
    refine add_eq_or_of_disjoint fun j hj => getLsbD_lane_eq_false y (by decide) ?_
    have := mod_eq_of_getLsbD_lane (by decide) hj
    omega
  rw [hadd, hxy]
  refine add_eq_or_of_disjoint fun j hj => getLsbD_lane_eq_false z (by decide) ?_
  rw [BitVec.getLsbD_or, Bool.or_eq_true] at hj
  rcases hj with hj | hj <;> have := mod_eq_of_getLsbD_lane (by decide) hj <;> omega

theorem ilv2W_bits (x y : Word) {i : Nat} (hi : i < 32) :
    (ilv2W x y).getLsbD (2 * i) = x.getLsbD i ∧ (ilv2W x y).getLsbD (2 * i + 1) = y.getLsbD i := by
  have h0 : 2 * i < 64 := by omega
  have h1 : 2 * i + 1 < 64 := by omega
  have hdiv : (2 * i + 1) / 2 = i := by omega
  simp (disch := decide) only [ilv2W_eq_or, BitVec.getLsbD_or, getLsbD_lane]
  simp [h0, h1, hdiv, hi]

theorem ilv3W_bits (x y z : Word) {i : Nat} (hi : i < 21) :
    (ilv3W x y z).getLsbD (3 * i) = x.getLsbD i ∧ (ilv3W x y z).getLsbD (3 * i + 1) = y.getLsbD i ∧
      (ilv3W x y z).getLsbD (3 * i + 2) = z.getLsbD i := by
  have h0 : 3 * i < 64 := by omega
  have h1 : 3 * i + 1 < 64 := by omega
  have h2 : 3 * i + 2 < 64 := by omega
  have hdiv1 : (3 * i + 1) / 3 = i := by omega
  have hdiv2 : (3 * i + 2) / 3 = i := by omega
  simp (disch := decide) only [ilv3W_eq_or, BitVec.getLsbD_or, getLsbD_lane]
  simp [h0, h1, h2, hdiv1, hdiv2, hi]

/-- 21 bits of each of three inputs leave bit 63 clear. -/
theorem ilv3W_bit63 (x y z : Word) : (ilv3W x y z).getLsbD 63 = false := by
  simp (disch := decide) only [ilv3W_eq_or, BitVec.getLsbD_or, getLsbD_lane]
  simp

theorem getLsbD_dilv2W (x y : Word) {i : Nat} (hi : i < 64) :
    (dilv2W x y).getLsbD i = (decide (i < 32) && x.getLsbD (2 * i + y.toNat % 2)) := by
  have h := getLsbD_scatterBits_lane x (2 * · + y.toNat % 2) (dst := id) (m := 1) (c := 0) 32 i (by decide)
    (by simp)
  simpa [dilv2W, hi, Nat.mod_one] using h

theorem getLsbD_dilv3W (x y : Word) {i : Nat} (hi : i < 64) :
    (dilv3W x y).getLsbD i =
      (decide (y.toNat % 4 ≠ 3) && decide (i < 21) && x.getLsbD (3 * i + y.toNat % 4)) := by
  by_cases hc : y.toNat % 4 = 3
  · simp [dilv3W, hc]
  · have h := getLsbD_scatterBits_lane x (3 * · + y.toNat % 4) (dst := id) (m := 1) (c := 0) 21 i (by decide)
      (by simp)
    simpa [dilv3W, hc, hi, Nat.mod_one] using h

/-! ## Fields (R66) -/

/-- The bits of EXTR; those past bit 63 of a read as 0. -/
theorem getLsbD_extrW (x y : Word) {i : Nat} (hi : i < 64) :
    (extrW x y).getLsbD i = (decide (i < fieldLen y) && x.getLsbD (fieldPos y + i)) := by
  rw [extrW, BitVec.getLsbD_ofNat, Nat.testBit_mod_two_pow, Nat.testBit_div_two_pow, Nat.add_comm i,
    BitVec.testBit_toNat]
  simp [hi]

/-- The mask m of R66. -/
theorem getLsbD_fieldMask (pos len : Nat) {i : Nat} (hi : i < 64) :
    (BitVec.ofNat 64 ((2 ^ len - 1) * 2 ^ pos)).getLsbD i = decide (pos ≤ i ∧ i < pos + len) := by
  rw [BitVec.getLsbD_ofNat, Nat.testBit_mul_two_pow, Nat.testBit_two_pow_sub_one, Bool.eq_iff_iff]
  simp only [Bool.and_eq_true, decide_eq_true_eq]
  omega

theorem getLsbD_depoW (x y z : Word) {i : Nat} (hi : i < 64) :
    (depoW x y z).getLsbD i = if fieldPos y ≤ i ∧ i < fieldPos y + fieldLen y then x.getLsbD (i - fieldPos y)
      else z.getLsbD i := by
  simp only [depoW, BitVec.getLsbD_or, BitVec.getLsbD_and, BitVec.getLsbD_not, BitVec.getLsbD_shiftLeft,
    getLsbD_fieldMask _ _ hi]
  by_cases h : fieldPos y ≤ i ∧ i < fieldPos y + fieldLen y
  · simp [h, hi]
  · simp [h, hi]

/-! ## The obligations -/

/-- Settles O3: the words' quotients and remainders are those of `divW_remW_spec` and `divuW_remuW_spec`; R64's boundary
cases are computed. -/
theorem divideResults : Obligations.DivideResults := by
  intro d a b s h
  refine ⟨fun hy => ?_, fun hx hy => ?_, fun hy hov => ?_, fun hy => ?_⟩
  · exact ⟨(holds_of_ready rfl h (hy ▸ divW_zero _) : execDiv d a b s = _),
      (holds_of_ready rfl h (hy ▸ divuW_zero _) : execDivu d a b s = _),
      (holds_of_ready rfl h (hy ▸ remW_zero _) : execRem d a b s = _),
      (holds_of_ready rfl h (hy ▸ remuW_zero _) : execRemu d a b s = _)⟩
  · exact ⟨(holds_of_ready rfl h (divW_overflow hx hy) : execDiv d a b s = _),
      (holds_of_ready rfl h (remW_overflow hx hy) : execRem d a b s = _)⟩
  · exact ⟨_, _, (holds_of_ready rfl h rfl : execDiv d a b s = _), (holds_of_ready rfl h rfl : execRem d a b s = _),
      divW_remW_spec hy hov⟩
  · exact ⟨_, _, (holds_of_ready rfl h rfl : execDivu d a b s = _), (holds_of_ready rfl h rfl : execRemu d a b s = _),
      divuW_remuW_spec hy⟩

/-- Settles O4, from the bits of each word function. -/
theorem fieldResults : Obligations.FieldResults := by
  intro d a b s h
  exact ⟨⟨_, (retires_of_ready rfl h rfl : execIlv2 d a b s = _), fun _ => ilv2W_bits _ _⟩,
    ⟨_, (retires_of_ready rfl h rfl : execIlv3 d a b s = _), ilv3W_bit63 _ _ _, fun _ => ilv3W_bits _ _ _⟩,
    ⟨_, (retires_of_ready rfl h rfl : execDilv2 d a b s = _), fun _ => getLsbD_dilv2W _ _⟩,
    ⟨_, (retires_of_ready rfl h rfl : execDilv3 d a b s = _), fun _ => getLsbD_dilv3W _ _⟩,
    ⟨_, (retires_of_ready rfl h rfl : execExtr d a b s = _), fun _ => getLsbD_extrW _ _⟩,
    ⟨_, (retires_of_ready rfl h rfl : execDepo d a b s = _), fun _ => getLsbD_depoW _ _ _⟩⟩

/-- Settles O1: each form is ready and retires; its value is the model's own, or the lemma named says so. -/
theorem iopResults : Obligations.IopResults := by
  intro d a b s h
  have hn : (rd s b).toNat % 64 < 64 := Nat.mod_lt _ (by decide)
  exact ⟨(retires_of_ready rfl h rfl : execAdd d a b s = _),
    (retires_of_ready rfl h rfl : execSub d a b s = _),
    (retires_of_ready rfl h rfl : execAnd d a b s = _),
    (retires_of_ready rfl h rfl : execOr d a b s = _),
    (retires_of_ready rfl h rfl : execXor d a b s = _),
    (retires_of_ready rfl h rfl : execAndn d a b s = _),
    (retires_of_ready rfl h (shiftLeft_eq_ofNat_mul _ _) : execShl d a b s = _),
    (retires_of_ready rfl h (ushiftRight_eq_ofNat_div _ _) : execShr d a b s = _),
    (retires_of_ready rfl h (sshiftRight_eq_ofInt_div _ _) : execSar d a b s = _),
    (retires_of_ready rfl h (rotateLeft_eq_or _ hn) : execRol d a b s = _),
    (retires_of_ready rfl h (rotateRight_eq_or _ hn) : execRor d a b s = _),
    (retires_of_ready rfl h (flag_decide _) : execSlt d a b s = _),
    (retires_of_ready rfl h (flag_decide _) : execSltu d a b s = _),
    (retires_of_ready rfl h (flag_beq _ _) : execSeq d a b s = _),
    (retires_of_ready rfl h (smaller_eq_ofInt_min _ _) : execMin d a b s = _),
    (retires_of_ready rfl h (larger_eq_ofInt_max _ _) : execMax d a b s = _)⟩

/-- Settles O6; LDI and LDIH name only gd. -/
theorem immediateResults : Obligations.ImmediateResults := by
  intro d a imm n k s h
  have hd : Ready ⟨[.g d], [.g d]⟩ s := ready_mono _ _ s (by simp) h
  exact ⟨(retires_of_ready rfl h (add_signExtend_eq_ofInt_add _ _) : execAddi d a imm s = _),
    (retires_of_ready rfl h rfl : execAndi d a imm s = _),
    (retires_of_ready rfl h rfl : execOri d a imm s = _),
    (retires_of_ready rfl h rfl : execXori d a imm s = _),
    (retires_of_ready rfl h (flag_ltS_signExtend _ _) : execSlti d a imm s = _),
    (retires_of_ready rfl h (shiftLeft_eq_ofNat_mul _ _) : execShli d a n s = _),
    (retires_of_ready rfl h (ushiftRight_eq_ofNat_div _ _) : execShri d a n s = _),
    (retires_of_ready rfl h (sshiftRight_eq_ofInt_div _ _) : execSari d a n s = _),
    (retires_of_ready rfl h (rotateLeft_eq_or _ n.isLt) : execRoli d a n s = _),
    (retires_of_ready rfl h (rotateRight_eq_or _ n.isLt) : execRori d a n s = _),
    (retires_of_ready rfl hd rfl : execLdi d k s = _),
    (retires_of_ready rfl hd (shiftLeft_or_setWidth_eq_ofNat _ _) : execLdih d k s = _)⟩

end Sys2Proof.Proofs
end

section
/-!
SUPPORT. The vector words (R351 to R359): how a ready word that writes vd retires or is held, the lanes read back from
the words that a lane function builds, and what each lane operation comes to as arithmetic on the lanes.
-/

namespace Sys2Proof.Proofs

open Sys2Proof.Machine Sys2Proof.Laws

/-! ## How a ready vector word ends -/

/-- A ready word whose effect is vd := f retires with vd written. -/
theorem retiresV_of_ready {o : Out State} {u : Uses} {d : BitVec 4} {f : State → List Word} {s : State}
    (ho : o = enter u s fun s => retireV d (f s) s) (h : Ready u s) : o = .next (advance (wrV d (f s) s)) := by
  rw [ho, enter_of_ready u s _ h]
  rfl

/-- A ready word whose effect is vd := f after a hold of n turns leaves its slot HELD, with the eight writes pending
(R26). -/
theorem holdsV_of_ready {o : Out State} {u : Uses} {d : BitVec 4} {n : Nat} {f : State → List Word} {s : State}
    (ho : o = enter u s fun s => hold n (pendV d (f s)) s) (h : Ready u s) :
    o = .next (setRes .held (onCur (fun c => { c with
      st := .held (holdStop s n), pend := (f s).mapIdx fun k w => (8 * d.toNat + k, w) }) (advance s))) := by
  rw [ho, enter_of_ready u s _ h]
  rfl

/-! ## Lanes read back (R31) -/

@[simp] theorem length_words32 (f : Nat → BitVec 32) : (words32 f).length = 8 := by
  simp [words32]

@[simp] theorem length_words64 (f : Nat → Word) : (words64 f).length = 8 := by
  simp [words64]

/-- Lane j is the low half of word j / 2 where j is even, and its high half where j is odd. -/
theorem lane32_words32 (f : Nat → BitVec 32) {j : Nat} (hj : j < 16) : lane32 (words32 f) j = f j := by
  have hk : j / 2 < 8 := by omega
  have hw : (words32 f)[j / 2]? = some (f (2 * (j / 2) + 1) ++ f (2 * (j / 2))) := by
    simp [words32, hk]
  rw [lane32, hw, Option.getD_some]
  rcases Nat.mod_two_eq_zero_or_one j with h | h
  · rw [h, BitVec.extractLsb'_append_eq_right, show 2 * (j / 2) = j by omega]
  · rw [h, BitVec.extractLsb'_append_eq_left, show 2 * (j / 2) + 1 = j by omega]

theorem lane64_words64 (f : Nat → Word) {j : Nat} (hj : j < 8) : lane64 (words64 f) j = f j := by
  simp [lane64, words64, hj]

/-- The words of sixteen lanes f are eight, and lane j of them is g j where f agrees with g. -/
theorem words32_lanes {f g : Nat → BitVec 32} (h : ∀ j, f j = g j) :
    (words32 f).length = 8 ∧ ∀ j < 16, lane32 (words32 f) j = g j :=
  ⟨length_words32 f, fun j hj => (lane32_words32 f hj).trans (h j)⟩

theorem words64_lanes (f : Nat → Word) : (words64 f).length = 8 ∧ ∀ j < 8, lane64 (words64 f) j = f j :=
  ⟨length_words64 f, fun _ hj => lane64_words64 f hj⟩

theorem vfS_lanes (f : Nat → Nat → Nat → Nat) (x y z : List Word) : (vfS f x y z).length = 8 ∧ ∀ j < 16,
    lane32 (vfS f x y z) j = BitVec.ofNat 32 (f (lane32 x j).toNat (lane32 y j).toNat (lane32 z j).toNat) :=
  words32_lanes fun _ => rfl

theorem vfD_lanes (f : Nat → Nat → Nat → Nat) (x y z : List Word) : (vfD f x y z).length = 8 ∧ ∀ j < 8,
    lane64 (vfD f x y z) j = BitVec.ofNat 64 (f (lane64 x j).toNat (lane64 y j).toNat (lane64 z j).toNat) :=
  words64_lanes _

/-! ## The lane operations of VOP (R352) -/

/-! The arithmetic holds at every width; VOP needs it at 32. -/

section LaneOps

variable {w : Nat} (x y : BitVec w) (n : Nat)

theorem shl_eq_ofNat_mul : x <<< n = BitVec.ofNat w (x.toNat * 2 ^ n) :=
  BitVec.eq_of_toNat_eq (by rw [BitVec.toNat_shiftLeft, BitVec.toNat_ofNat, Nat.shiftLeft_eq])

theorem shr_eq_ofNat_div : x >>> n = BitVec.ofNat w (x.toNat / 2 ^ n) := by
  rw [← Nat.shiftRight_eq_div_pow, ← BitVec.toNat_ushiftRight, BitVec.ofNat_toNat, BitVec.setWidth_eq]

theorem sar_eq_ofInt_div : x.sshiftRight n = BitVec.ofInt w (x.toInt / 2 ^ n) := by
  rw [BitVec.sshiftRight_eq, Int.shiftRight_eq_div_pow, Nat.cast_pow, Nat.cast_ofNat]

theorem ite_toInt_lt_eq_ofInt_min : (if y.toInt < x.toInt then y else x) = BitVec.ofInt w (min x.toInt y.toInt) := by
  rw [min_def_lt', apply_ite (BitVec.ofInt w), BitVec.ofInt_toInt, BitVec.ofInt_toInt]

theorem ite_toInt_lt_eq_ofInt_max : (if x.toInt < y.toInt then y else x) = BitVec.ofInt w (max x.toInt y.toInt) := by
  rw [max_def_lt, apply_ite (BitVec.ofInt w), BitVec.ofInt_toInt, BitVec.ofInt_toInt]

theorem ite_toNat_lt_eq_ofNat_min : (if y.toNat < x.toNat then y else x) = BitVec.ofNat w (min x.toNat y.toNat) := by
  rw [min_def_lt', apply_ite (BitVec.ofNat w), BitVec.ofNat_toNat, BitVec.ofNat_toNat,
    BitVec.setWidth_eq, BitVec.setWidth_eq]

theorem ite_toNat_lt_eq_ofNat_max : (if x.toNat < y.toNat then y else x) = BitVec.ofNat w (max x.toNat y.toNat) := by
  rw [max_def_lt, apply_ite (BitVec.ofNat w), BitVec.ofNat_toNat, BitVec.ofNat_toNat,
    BitVec.setWidth_eq, BitVec.setWidth_eq]

end LaneOps

/-- Saturation clamps to the signed 32-bit range. -/
theorem sat32_eq_clamp (k : Int) : sat32 k = BitVec.ofInt 32 (max (-(2 ^ 31)) (min (2 ^ 31 - 1) k)) := by
  rw [sat32]
  congr 1
  omega

/-- Each lane of a ready VOP form. -/
theorem vop_lanes {o : Out State} {d a b : BitVec 4} {s : State} {f g : BitVec 32 → BitVec 32 → BitVec 32}
    (ho : o = enter ⟨[.v d, .v a, .v b], [.v d]⟩ s fun s => vop f d a b s)
    (h : Ready ⟨[.v d, .v a, .v b], [.v d]⟩ s) (hfg : ∀ x y, f x y = g x y) :
    ∃ ws, o = .next (advance (wrV d ws s)) ∧ ws.length = 8 ∧
      ∀ j < 16, lane32 ws j = g (lane32 (rdV s a) j) (lane32 (rdV s b) j) :=
  ⟨_, retiresV_of_ready ho h, words32_lanes fun _ => hfg _ _⟩

/-! ## Lane indices (R355, R356) -/

/-- An index is refused from 24 on: below 32 it has bits 4 and 3 set, from 32 on a bit of 63:5. -/
theorem badLane_iff (n : Word) : badLane n = true ↔ 24 ≤ n.toNat := by
  simp only [badLane, Bool.or_eq_true, bne_iff_ne, beq_iff_eq]
  omega

/-- An index below 16 names a 32-bit lane. -/
theorem laneIndex_low {n : Word} (h : n.toNat < 16) :
    ¬badLane n = true ∧ n.toNat / 16 % 2 = 0 ∧ n.toNat % 16 = n.toNat := by
  rw [badLane_iff]
  omega

/-- An index from 16 to 23 names a 64-bit lane. -/
theorem laneIndex_high {n : Word} (h16 : 16 ≤ n.toNat) (h24 : n.toNat < 24) :
    ¬badLane n = true ∧ ¬n.toNat / 16 % 2 = 0 ∧ n.toNat % 8 = n.toNat - 16 := by
  rw [badLane_iff]
  omega

section Vext

variable {d : BitVec 7} {a : BitVec 4} {b : BitVec 7} {s : State} (h : Ready ⟨[.g d, .v a, .g b], [.g d]⟩ s)

include h

theorem execVext_low (hn : (rd s b).toNat < 16) :
    execVext d a b s = .next (advance (wr d ((lane32 (rdV s a) (rd s b).toNat).setWidth 64) s)) := by
  obtain ⟨hok, hsel, hmod⟩ := laneIndex_low hn
  rw [execVext, enter_of_ready _ _ _ h]
  simp only [if_neg hok, if_pos hsel, hmod, retireWr, retire]

theorem execVext_high (h16 : 16 ≤ (rd s b).toNat) (h24 : (rd s b).toNat < 24) :
    execVext d a b s = .next (advance (wr d (lane64 (rdV s a) ((rd s b).toNat - 16)) s)) := by
  obtain ⟨hok, hsel, hmod⟩ := laneIndex_high h16 h24
  rw [execVext, enter_of_ready _ _ _ h]
  simp only [if_neg hok, if_neg hsel, hmod, retireWr, retire]

theorem execVext_bad (hn : 24 ≤ (rd s b).toNat) : execVext d a b s = .next (takeTrap cIllegal (rd s b) s) := by
  rw [execVext, enter_of_ready _ _ _ h]
  simp only [if_pos ((badLane_iff _).2 hn), trap]

end Vext

section Vins

variable {d : BitVec 4} {a b : BitVec 7} {s : State} (h : Ready ⟨[.v d, .g a, .g b], [.v d]⟩ s)

include h

theorem execVins_low (hn : (rd s b).toNat < 16) :
    execVins d a b s = .next (advance (wrV d
      (words32 fun j => if j = (rd s b).toNat then (rd s a).setWidth 32 else lane32 (rdV s d) j) s)) := by
  obtain ⟨hok, hsel, hmod⟩ := laneIndex_low hn
  rw [execVins, enter_of_ready _ _ _ h]
  simp only [if_neg hok, if_pos hsel, hmod, retireV, retire]

theorem execVins_high (h16 : 16 ≤ (rd s b).toNat) (h24 : (rd s b).toNat < 24) :
    execVins d a b s = .next (advance (wrV d
      (words64 fun j => if j = (rd s b).toNat - 16 then rd s a else lane64 (rdV s d) j) s)) := by
  obtain ⟨hok, hsel, hmod⟩ := laneIndex_high h16 h24
  rw [execVins, enter_of_ready _ _ _ h]
  simp only [if_neg hok, if_neg hsel, hmod, retireV, retire]

theorem execVins_bad (hn : 24 ≤ (rd s b).toNat) : execVins d a b s = .next (takeTrap cIllegal (rd s b) s) := by
  rw [execVins, enter_of_ready _ _ _ h]
  simp only [if_pos ((badLane_iff _).2 hn), trap]

end Vins

/-- One lane inserted: it reads as the new value, the others as they were. -/
theorem words32_insert (f : Nat → BitVec 32) (v : BitVec 32) {n : Nat} (hn : n < 16) :
    (words32 fun j => if j = n then v else f j).length = 8 ∧
      lane32 (words32 fun j => if j = n then v else f j) n = v ∧
      ∀ j < 16, j ≠ n → lane32 (words32 fun j => if j = n then v else f j) j = f j :=
  ⟨length_words32 _, (lane32_words32 _ hn).trans (if_pos rfl), fun _ hj hne => (lane32_words32 _ hj).trans (if_neg hne)⟩

theorem words64_insert (f : Nat → Word) (v : Word) {n : Nat} (hn : n < 8) :
    (words64 fun j => if j = n then v else f j).length = 8 ∧
      lane64 (words64 fun j => if j = n then v else f j) n = v ∧
      ∀ j < 8, j ≠ n → lane64 (words64 fun j => if j = n then v else f j) j = f j :=
  ⟨length_words64 _, (lane64_words64 _ hn).trans (if_pos rfl), fun _ hj hne => (lane64_words64 _ hj).trans (if_neg hne)⟩

/-- VPERM's test of bit 4 of an index lane, the other way round. -/
theorem ite_bit4_eq (n v : BitVec 32) : (if n.toNat / 16 % 2 = 0 then v else 0) = if n.getLsbD 4 then 0 else v := by
  have hbit : n.getLsbD 4 = decide (n.toNat / 16 % 2 = 1) := Nat.testBit_eq_decide_div_mod_eq
  rw [hbit]
  rcases Nat.mod_two_eq_zero_or_one (n.toNat / 16) with h | h <;> simp [h]

/-! ## Folds (R357) -/

/-- A fold over the lanes that follow lane 0, with the lanes counted from 0 or from 1. -/
theorem foldl_range_succ {α β : Type} (f : α → β → α) (x : Nat → β) (v : α) (n : Nat) :
    (List.range n).foldl (fun acc j => f acc (x (j + 1))) v = (List.range' 1 n).foldl (fun acc j => f acc (x j)) v := by
  rw [List.range'_eq_map_range, List.foldl_map]
  simp only [Nat.add_comm 1]

theorem fold32_eq_foldl_range' (f : BitVec 32 → BitVec 32 → BitVec 32) (ws : List Word) :
    fold32 f ws = (List.range' 1 15).foldl (fun acc j => f acc (lane32 ws j)) (lane32 ws 0) :=
  foldl_range_succ f (lane32 ws) _ 15

theorem fold64_eq_foldl_range' (f : Word → Word → Word) (ws : List Word) :
    fold64 f ws = (List.range' 1 7).foldl (fun acc j => f acc (lane64 ws j)) (lane64 ws 0) :=
  foldl_range_succ f (lane64 ws) _ 7

/-! ## Comparisons (R358) -/

section VcmpLanes

variable (fi : Int → Int → Bool) (ff : Machine.Num → Machine.Num → Bool) (f : Nat → Nat → Bool) (x y : List Word)

theorem vcmpLanes_w : (vcmpLanes 0 fi ff x y).length = 8 ∧ ∀ j < 16, lane32 (vcmpLanes 0 fi ff x y) j =
    if fi (lane32 x j).toInt (lane32 y j).toInt then BitVec.allOnes 32 else 0 := by
  rw [vcmpLanes]
  exact words32_lanes fun _ => rfl

theorem vcmpLanes_s : (vcmpLanes 1 fi ff x y).length = 8 ∧ ∀ j < 16, lane32 (vcmpLanes 1 fi ff x y) j =
    if ff (unpack fmtS (lane32 x j).toNat) (unpack fmtS (lane32 y j).toNat) then BitVec.allOnes 32 else 0 := by
  rw [vcmpLanes]
  exact words32_lanes fun _ => rfl

theorem vcmpLanes_d : (vcmpLanes 2 fi ff x y).length = 8 ∧ ∀ j < 8, lane64 (vcmpLanes 2 fi ff x y) j =
    if ff (unpack fmtD (lane64 x j).toNat) (unpack fmtD (lane64 y j).toNat) then BitVec.allOnes 64 else 0 := by
  rw [vcmpLanes]
  exact words64_lanes _

theorem vcmpLanes_l : (vcmpLanes 3 fi ff x y).length = 8 ∧ ∀ j < 8, lane64 (vcmpLanes 3 fi ff x y) j =
    if fi (lane64 x j).toInt (lane64 y j).toInt then BitVec.allOnes 64 else 0 := by
  simp only [vcmpLanes]
  exact words64_lanes _

theorem vcmpLanesU_w : (vcmpLanesU 0 f x y).length = 8 ∧ ∀ j < 16, lane32 (vcmpLanesU 0 f x y) j =
    if f (lane32 x j).toNat (lane32 y j).toNat then BitVec.allOnes 32 else 0 := by
  rw [vcmpLanesU]
  exact words32_lanes fun _ => rfl

theorem vcmpLanesU_l : (vcmpLanesU 3 f x y).length = 8 ∧ ∀ j < 8, lane64 (vcmpLanesU 3 f x y) j =
    if f (lane64 x j).toNat (lane64 y j).toNat then BitVec.allOnes 64 else 0 := by
  simp only [vcmpLanesU]
  exact words64_lanes _

end VcmpLanes

section Vcmp

variable {o : Out State} {d a : BitVec 4} {ty : BitVec 2} {s : State} (h : Ready ⟨[.v d, .v a], [.v d]⟩ s)

include h

/-- A comparison of each type: the lanes it reads, and the masks it writes. -/
theorem vcmp_masks (fi : Int → Int → Bool) (ff : Machine.Num → Machine.Num → Bool)
    (ho : o = enter ⟨[.v d, .v a], [.v d]⟩ s fun s =>
      retireV d (vcmpLanes ty.toNat fi ff (rdV s d) (rdV s a)) s) :
    (ty = 0 → ∃ ws, o = .next (advance (wrV d ws s)) ∧ ws.length = 8 ∧ ∀ j < 16, lane32 ws j =
      if fi (lane32 (rdV s d) j).toInt (lane32 (rdV s a) j).toInt then BitVec.allOnes 32 else 0) ∧
    (ty = 1 → ∃ ws, o = .next (advance (wrV d ws s)) ∧ ws.length = 8 ∧ ∀ j < 16, lane32 ws j =
      if ff (unpack fmtS (lane32 (rdV s d) j).toNat) (unpack fmtS (lane32 (rdV s a) j).toNat) then BitVec.allOnes 32
      else 0) ∧
    (ty = 2 → ∃ ws, o = .next (advance (wrV d ws s)) ∧ ws.length = 8 ∧ ∀ j < 8, lane64 ws j =
      if ff (unpack fmtD (lane64 (rdV s d) j).toNat) (unpack fmtD (lane64 (rdV s a) j).toNat) then BitVec.allOnes 64
      else 0) ∧
    (ty = 3 → ∃ ws, o = .next (advance (wrV d ws s)) ∧ ws.length = 8 ∧ ∀ j < 8, lane64 ws j =
      if fi (lane64 (rdV s d) j).toInt (lane64 (rdV s a) j).toInt then BitVec.allOnes 64 else 0) := by
  refine ⟨?_, ?_, ?_, ?_⟩ <;> rintro rfl
  · exact ⟨_, retiresV_of_ready ho h, vcmpLanes_w _ _ _ _⟩
  · exact ⟨_, retiresV_of_ready ho h, vcmpLanes_s _ _ _ _⟩
  · exact ⟨_, retiresV_of_ready ho h, vcmpLanes_d _ _ _ _⟩
  · exact ⟨_, retiresV_of_ready ho h, vcmpLanes_l _ _ _ _⟩

/-- An unsigned comparison of .w lanes. -/
theorem vcmpU_masks_w (f : Nat → Nat → Bool) (hty : ty = 0)
    (ho : o = enter ⟨[.v d, .v a], [.v d]⟩ s fun s => retireV d (vcmpLanesU ty.toNat f (rdV s d) (rdV s a)) s) :
    ∃ ws, o = .next (advance (wrV d ws s)) ∧ ws.length = 8 ∧ ∀ j < 16, lane32 ws j =
      if f (lane32 (rdV s d) j).toNat (lane32 (rdV s a) j).toNat then BitVec.allOnes 32 else 0 := by
  subst hty
  exact ⟨_, retiresV_of_ready ho h, vcmpLanesU_w _ _ _⟩

/-- An unsigned comparison of .l lanes. -/
theorem vcmpU_masks_l (f : Nat → Nat → Bool) (hty : ty = 3)
    (ho : o = enter ⟨[.v d, .v a], [.v d]⟩ s fun s => retireV d (vcmpLanesU ty.toNat f (rdV s d) (rdV s a)) s) :
    ∃ ws, o = .next (advance (wrV d ws s)) ∧ ws.length = 8 ∧ ∀ j < 8, lane64 ws j =
      if f (lane64 (rdV s d) j).toNat (lane64 (rdV s a) j).toNat then BitVec.allOnes 64 else 0 := by
  subst hty
  exact ⟨_, retiresV_of_ready ho h, vcmpLanesU_l _ _ _⟩

end Vcmp

/-! ## The obligations -/

/-- Settles O23: each form is ready and retires or is held; its lanes are those of `vop_lanes`, `vfS_lanes` and
`vfD_lanes`. -/
theorem vectorArithmetic : Obligations.VectorArithmetic := by
  refine ⟨fun d a b s h => ?_, fun d a b s h => ?_⟩
  · exact ⟨vop_lanes (rfl : execVadd d a b s = _) h fun _ _ => rfl,
      vop_lanes (rfl : execVsub d a b s = _) h fun _ _ => rfl,
      vop_lanes (rfl : execVand d a b s = _) h fun _ _ => rfl,
      vop_lanes (rfl : execVor d a b s = _) h fun _ _ => rfl,
      vop_lanes (rfl : execVxor d a b s = _) h fun _ _ => rfl,
      vop_lanes (rfl : execVshl d a b s = _) h fun _ _ => shl_eq_ofNat_mul _ _,
      vop_lanes (rfl : execVshr d a b s = _) h fun _ _ => shr_eq_ofNat_div _ _,
      vop_lanes (rfl : execVsar d a b s = _) h fun _ _ => sar_eq_ofInt_div _ _,
      vop_lanes (rfl : execVmin d a b s = _) h ite_toInt_lt_eq_ofInt_min,
      vop_lanes (rfl : execVmax d a b s = _) h ite_toInt_lt_eq_ofInt_max,
      vop_lanes (rfl : execVminu d a b s = _) h ite_toNat_lt_eq_ofNat_min,
      vop_lanes (rfl : execVmaxu d a b s = _) h ite_toNat_lt_eq_ofNat_max,
      vop_lanes (rfl : execVmul d a b s = _) h fun _ _ => rfl,
      vop_lanes (rfl : execVmulh d a b s = _) h fun _ _ => rfl,
      vop_lanes (rfl : execVadds d a b s = _) h fun _ _ => sat32_eq_clamp _,
      vop_lanes (rfl : execVsubs d a b s = _) h fun _ _ => sat32_eq_clamp _⟩
  · have hda : Ready ⟨[.v d, .v a], [.v d]⟩ s := ready_mono _ _ s (by simp) h
    exact ⟨⟨_, (retiresV_of_ready rfl h : execVfaddS d a b s = _), vfS_lanes _ _ _ _⟩,
      ⟨_, (retiresV_of_ready rfl h : execVfaddD d a b s = _), vfD_lanes _ _ _ _⟩,
      ⟨_, (retiresV_of_ready rfl h : execVfsubS d a b s = _), vfS_lanes _ _ _ _⟩,
      ⟨_, (retiresV_of_ready rfl h : execVfsubD d a b s = _), vfD_lanes _ _ _ _⟩,
      ⟨_, (retiresV_of_ready rfl h : execVfmulS d a b s = _), vfS_lanes _ _ _ _⟩,
      ⟨_, (retiresV_of_ready rfl h : execVfmulD d a b s = _), vfD_lanes _ _ _ _⟩,
      ⟨_, (retiresV_of_ready rfl h : execVfmaS d a b s = _), vfS_lanes _ _ _ _⟩,
      ⟨_, (retiresV_of_ready rfl h : execVfmaD d a b s = _), vfD_lanes _ _ _ _⟩,
      ⟨_, (retiresV_of_ready rfl h : execVfminS d a b s = _), vfS_lanes _ _ _ _⟩,
      ⟨_, (retiresV_of_ready rfl h : execVfminD d a b s = _), vfD_lanes _ _ _ _⟩,
      ⟨_, (retiresV_of_ready rfl h : execVfmaxS d a b s = _), vfS_lanes _ _ _ _⟩,
      ⟨_, (retiresV_of_ready rfl h : execVfmaxD d a b s = _), vfD_lanes _ _ _ _⟩,
      ⟨_, (holdsV_of_ready rfl h : execVfdivS d a b s = _), vfS_lanes _ _ _ _⟩,
      ⟨_, (holdsV_of_ready rfl h : execVfdivD d a b s = _), vfD_lanes _ _ _ _⟩,
      ⟨_, (holdsV_of_ready rfl hda : execVfsqrtS d a s = _), vfS_lanes _ _ _ _⟩,
      ⟨_, (holdsV_of_ready rfl hda : execVfsqrtD d a s = _), vfD_lanes _ _ _ _⟩⟩

/-- Settles O24: each form names some of the registers that are ready; its lanes, its fold counted from lane 1, or its
masks are those of the lemma named. -/
theorem vectorMovesAndFolds : Obligations.VectorMovesAndFolds := by
  refine ⟨fun d a b gd ga gb s h => ?_, fun d a s h => ?_, fun d a ty s h => ?_⟩
  · have hdg : Ready ⟨[.v d, .g ga], [.v d]⟩ s := ready_mono _ _ s (by simp) h
    have hext : Ready ⟨[.g gd, .v a, .g gb], [.g gd]⟩ s := ready_mono _ _ s (by simp) h
    have hins : Ready ⟨[.v d, .g ga, .g gb], [.v d]⟩ s := ready_mono _ _ s (by simp) h
    have hvec : Ready ⟨[.v d, .v a, .v b], [.v d]⟩ s := ready_mono _ _ s (by simp) h
    exact ⟨⟨_, (retiresV_of_ready rfl hdg : execVbcast d ga s = _), words32_lanes fun _ => rfl⟩,
      ⟨_, (retiresV_of_ready rfl hdg : execVbcastD d ga s = _), words64_lanes _⟩,
      fun hn => ⟨execVext_low hext hn, _, execVins_low hins hn, words32_insert _ _ hn⟩,
      fun h16 h24 => ⟨execVext_high hext h16 h24, _, execVins_high hins h16 h24, words64_insert _ _ (by omega)⟩,
      fun hn => ⟨execVext_bad hext hn, execVins_bad hins hn⟩,
      ⟨_, (retiresV_of_ready rfl hvec : execVperm d a b s = _), words32_lanes fun _ => ite_bit4_eq _ _⟩,
      ⟨_, (retiresV_of_ready rfl hvec : execVsel d a b s = _), words64_lanes _⟩⟩
  · have w32 (f) : fold32 f (rdV s a) = _ := fold32_eq_foldl_range' f _
    have w64 (f) : fold64 f (rdV s a) = _ := fold64_eq_foldl_range' f _
    exact ⟨(retires_of_ready rfl h (congrArg _ (w32 _)) : execVredAddW d a s = _),
      (retires_of_ready rfl h (congrArg _ (w32 _)) : execVredMinW d a s = _),
      (retires_of_ready rfl h (congrArg _ (w32 _)) : execVredMaxW d a s = _),
      (retires_of_ready rfl h (congrArg _ (w32 _)) : execVredMinuW d a s = _),
      (retires_of_ready rfl h (congrArg _ (w32 _)) : execVredMaxuW d a s = _),
      (retires_of_ready rfl h (congrArg _ (w32 _)) : execVredAndW d a s = _),
      (retires_of_ready rfl h (congrArg _ (w32 _)) : execVredOrW d a s = _),
      (retires_of_ready rfl h (congrArg _ (w32 _)) : execVredXorW d a s = _),
      (holds_of_ready rfl h (congrArg _ (w32 _)) : execVredFaddS d a s = _),
      (retires_of_ready rfl h (congrArg _ (w32 _)) : execVredFminS d a s = _),
      (retires_of_ready rfl h (congrArg _ (w32 _)) : execVredFmaxS d a s = _),
      (holds_of_ready rfl h (w64 _) : execVredFaddD d a s = _),
      (retires_of_ready rfl h (w64 _) : execVredFminD d a s = _),
      (retires_of_ready rfl h (w64 _) : execVredFmaxD d a s = _),
      (retires_of_ready rfl h (w64 _) : execVredAddD d a s = _)⟩
  · exact ⟨vcmp_masks h _ _ (rfl : execVcmpEq d a ty s = _), vcmp_masks h _ _ (rfl : execVcmpNe d a ty s = _),
      vcmp_masks h _ _ (rfl : execVcmpLt d a ty s = _), vcmp_masks h _ _ (rfl : execVcmpGe d a ty s = _),
      fun hty => ⟨vcmpU_masks_w h _ hty (rfl : execVcmpLtu d a ty s = _),
        vcmpU_masks_w h _ hty (rfl : execVcmpGeu d a ty s = _)⟩,
      fun hty => ⟨vcmpU_masks_l h _ hty (rfl : execVcmpLtu d a ty s = _),
        vcmpU_masks_l h _ hty (rfl : execVcmpGeu d a ty s = _)⟩⟩

end Sys2Proof.Proofs
end

section
/-!
SUPPORT. The encoding (R40 to R47): the fields of a word of each format read back, a word rebuilt from its fields, and
that the decoder and the encoder of every group of forms undo each other.
-/

namespace Sys2Proof.Proofs

open Sys2Proof Sys2Proof.Machine

/-! ## Words as numbers -/

theorem toNat_append_eq {m n : Nat} (x : BitVec m) (y : BitVec n) : (x ++ y).toNat = x.toNat * 2 ^ n + y.toNat := by
  rw [BitVec.toNat_append, ← Nat.shiftLeft_add_eq_or_of_lt y.isLt, Nat.shiftLeft_eq]

theorem toNat_extractLsb'_eq {m : Nat} (x : BitVec m) (lo n : Nat) :
    (x.extractLsb' lo n).toNat = x.toNat / 2 ^ lo % 2 ^ n := by
  rw [BitVec.extractLsb'_toNat, Nat.shiftRight_eq_div_pow]

theorem toNat_fld (w : BitVec 32) (lo n : Nat) : (fld w lo n).toNat = w.toNat / 2 ^ lo % 2 ^ n :=
  toNat_extractLsb'_eq w lo n

theorem toNat_and_bits30 (w : BitVec 32) : (w &&& 0x7FFFFFFF).toNat = w.toNat % 2 ^ 31 := by
  rw [BitVec.toNat_and]
  exact Nat.and_two_pow_sub_one_eq_mod w.toNat 31

/-- Bit 31 belongs to the pair: no field of a form reads it. -/
theorem fld_or_bit31 (w : BitVec 32) {lo n : Nat} (h : lo + n ≤ 31) : fld (w ||| 0x80000000) lo n = fld w lo n := by
  refine BitVec.eq_of_getLsbD_eq fun i hi => ?_
  have hbit : (BitVec.twoPow 32 31).getLsbD (lo + i) = false := by
    rw [BitVec.getLsbD_twoPow, Bool.and_eq_false_iff]
    exact .inr (decide_eq_false (by omega))
  rw [fld, fld, BitVec.getLsbD_extractLsb', BitVec.getLsbD_extractLsb', BitVec.getLsbD_or,
    show (0x80000000 : BitVec 32) = BitVec.twoPow 32 31 from rfl, hbit, Bool.or_false]

/-! ## The fields of each format (R40) -/

section Fields

variable (op : BitVec 6) (d a b : BitVec 7)

theorem fld_wordRrr (fn : BitVec 4) : let w := wordRrr op fn d a b
    fld w 25 6 = op ∧ fld w 21 4 = fn ∧ fld w 14 7 = d ∧ fld w 7 7 = a ∧ fld w 0 7 = b := by
  refine ⟨?_, ?_, ?_, ?_, ?_⟩ <;> apply BitVec.eq_of_toNat_eq <;>
    simp only [toNat_fld, wordRrr, toNat_append_eq, BitVec.toNat_ofNat] <;> omega

theorem fld_wordRri (imm : BitVec 11) : let w := wordRri op d a imm
    fld w 25 6 = op ∧ fld w 18 7 = d ∧ fld w 11 7 = a ∧ fld w 0 11 = imm := by
  refine ⟨?_, ?_, ?_, ?_⟩ <;> apply BitVec.eq_of_toNat_eq <;>
    simp only [toNat_fld, wordRri, toNat_append_eq, BitVec.toNat_ofNat] <;> omega

theorem fld_wordRi (imm : BitVec 18) : let w := wordRi op d imm
    fld w 25 6 = op ∧ fld w 18 7 = d ∧ fld w 0 18 = imm := by
  refine ⟨?_, ?_, ?_⟩ <;> apply BitVec.eq_of_toNat_eq <;>
    simp only [toNat_fld, wordRi, toNat_append_eq, BitVec.toNat_ofNat] <;> omega

theorem fld_wordJ (disp : BitVec 25) : let w := wordJ op disp
    fld w 25 6 = op ∧ fld w 0 25 = disp := by
  refine ⟨?_, ?_⟩ <;> apply BitVec.eq_of_toNat_eq <;>
    simp only [toNat_fld, wordJ, toNat_append_eq, BitVec.toNat_ofNat] <;> omega

theorem fld_wordB (cond : BitVec 3) (disp : BitVec 8) : let w := wordB op cond a b disp
    fld w 25 6 = op ∧ fld w 22 3 = cond ∧ fld w 15 7 = a ∧ fld w 8 7 = b ∧ fld w 0 8 = disp := by
  refine ⟨?_, ?_, ?_, ?_, ?_⟩ <;> apply BitVec.eq_of_toNat_eq <;>
    simp only [toNat_fld, wordB, toNat_append_eq, BitVec.toNat_ofNat] <;> omega

theorem fld_wordBz (cond : BitVec 3) (disp : BitVec 15) : let w := wordBz op cond a disp
    fld w 25 6 = op ∧ fld w 22 3 = cond ∧ fld w 15 7 = a ∧ fld w 0 15 = disp := by
  refine ⟨?_, ?_, ?_, ?_⟩ <;> apply BitVec.eq_of_toNat_eq <;>
    simp only [toNat_fld, wordBz, toNat_append_eq, BitVec.toNat_ofNat] <;> omega

theorem fld_wordS (fn : BitVec 5) (imm : BitVec 20) : let w := wordS op fn imm
    fld w 25 6 = op ∧ fld w 20 5 = fn ∧ fld w 0 20 = imm := by
  refine ⟨?_, ?_, ?_⟩ <;> apply BitVec.eq_of_toNat_eq <;>
    simp only [toNat_fld, wordS, toNat_append_eq, BitVec.toNat_ofNat] <;> omega

theorem fld_wordMs (ty : BitVec 8) (fn : BitVec 3) : let w := wordMs op ty a b fn
    fld w 25 6 = op ∧ fld w 17 8 = ty ∧ fld w 10 7 = a ∧ fld w 3 7 = b ∧ fld w 0 3 = fn := by
  refine ⟨?_, ?_, ?_, ?_, ?_⟩ <;> apply BitVec.eq_of_toNat_eq <;>
    simp only [toNat_fld, wordMs, toNat_append_eq, BitVec.toNat_ofNat] <;> omega

end Fields

/-! ## A word is, but for bit 31, built of its fields -/

section Rebuilt

variable (w : BitVec 32)

theorem wordRrr_fld : wordRrr (fld w 25 6) (fld w 21 4) (fld w 14 7) (fld w 7 7) (fld w 0 7) = w &&& 0x7FFFFFFF := by
  apply BitVec.eq_of_toNat_eq
  simp only [toNat_and_bits30, wordRrr, toNat_append_eq, toNat_fld, BitVec.toNat_ofNat]
  omega

theorem wordRri_fld : wordRri (fld w 25 6) (fld w 18 7) (fld w 11 7) (fld w 0 11) = w &&& 0x7FFFFFFF := by
  apply BitVec.eq_of_toNat_eq
  simp only [toNat_and_bits30, wordRri, toNat_append_eq, toNat_fld, BitVec.toNat_ofNat]
  omega

theorem wordRi_fld : wordRi (fld w 25 6) (fld w 18 7) (fld w 0 18) = w &&& 0x7FFFFFFF := by
  apply BitVec.eq_of_toNat_eq
  simp only [toNat_and_bits30, wordRi, toNat_append_eq, toNat_fld, BitVec.toNat_ofNat]
  omega

theorem wordJ_fld : wordJ (fld w 25 6) (fld w 0 25) = w &&& 0x7FFFFFFF := by
  apply BitVec.eq_of_toNat_eq
  simp only [toNat_and_bits30, wordJ, toNat_append_eq, toNat_fld, BitVec.toNat_ofNat]
  omega

theorem wordB_fld : wordB (fld w 25 6) (fld w 22 3) (fld w 15 7) (fld w 8 7) (fld w 0 8) = w &&& 0x7FFFFFFF := by
  apply BitVec.eq_of_toNat_eq
  simp only [toNat_and_bits30, wordB, toNat_append_eq, toNat_fld, BitVec.toNat_ofNat]
  omega

theorem wordBz_fld : wordBz (fld w 25 6) (fld w 22 3) (fld w 15 7) (fld w 0 15) = w &&& 0x7FFFFFFF := by
  apply BitVec.eq_of_toNat_eq
  simp only [toNat_and_bits30, wordBz, toNat_append_eq, toNat_fld, BitVec.toNat_ofNat]
  omega

theorem wordS_fld : wordS (fld w 25 6) (fld w 20 5) (fld w 0 20) = w &&& 0x7FFFFFFF := by
  apply BitVec.eq_of_toNat_eq
  simp only [toNat_and_bits30, wordS, toNat_append_eq, toNat_fld, BitVec.toNat_ofNat]
  omega

theorem wordMs_fld : wordMs (fld w 25 6) (fld w 17 8) (fld w 10 7) (fld w 3 7) (fld w 0 3) = w &&& 0x7FFFFFFF := by
  apply BitVec.eq_of_toNat_eq
  simp only [toNat_and_bits30, wordMs, toNat_append_eq, toNat_fld, BitVec.toNat_ofNat]
  omega

end Rebuilt

/-! ## The parts of a field -/

@[simp] theorem isVec_zero_append (v : BitVec 4) : isVec (0#3 ++ v) = true := by
  rw [isVec, beq_iff_eq]
  exact BitVec.extractLsb'_append_eq_left

@[simp] theorem vecOf_zero_append (v : BitVec 4) : vecOf (0#3 ++ v) = v :=
  BitVec.extractLsb'_append_eq_right

/-- A field whose bits 6:4 are 0 is the number of the vector register it names (R42). -/
theorem zero_append_vecOf {x : BitVec 7} (h : isVec x = true) : 0#3 ++ vecOf x = x := by
  have h0 : (x.extractLsb' 4 3).toNat = 0 := congrArg BitVec.toNat (eq_of_beq h)
  rw [toNat_extractLsb'_eq] at h0
  apply BitVec.eq_of_toNat_eq
  simp only [vecOf, toNat_append_eq, toNat_extractLsb'_eq, BitVec.toNat_ofNat]
  omega

/-- A field of n + m bits is its upper part over its lower part. -/
theorem append_parts {m n : Nat} (x : BitVec (m + n)) : x.extractLsb' n m ++ x.extractLsb' 0 n = x := by
  apply BitVec.eq_of_toNat_eq
  have hx : x.toNat / 2 ^ n < 2 ^ m := Nat.div_lt_of_lt_mul (by rw [Nat.mul_comm, ← Nat.pow_add]; exact x.isLt)
  rw [toNat_append_eq, toNat_extractLsb'_eq, toNat_extractLsb'_eq, Nat.mod_eq_of_lt hx, Nat.pow_zero, Nat.div_one,
    Nat.div_add_mod']

/-! ## A decoded group is encoded again -/

/-- Whatever form `o` holds is encoded as w. -/
def EncodesTo (o : Option Instr) (w : BitVec 32) : Prop := ∀ i, o = some i → encode i = some w

@[simp] theorem encodesTo_none (w : BitVec 32) : EncodesTo none w := fun _ h => nomatch h

@[simp] theorem encodesTo_some (i : Instr) (w : BitVec 32) : EncodesTo (some i) w ↔ encode i = some w := by
  simp [EncodesTo]

@[simp] theorem encodesTo_ite (c : Prop) [Decidable c] (o : Option Instr) (w : BitVec 32) :
    EncodesTo (if c then o else none) w ↔ (c → EncodesTo o w) := by
  by_cases h : c <;> simp [h]

theorem isVec_iff (x : BitVec 7) : isVec x = true ↔ ∃ v : BitVec 4, x = 0#3 ++ v :=
  ⟨fun h => ⟨vecOf x, (zero_append_vecOf h).symm⟩, fun ⟨v, h⟩ => h ▸ isVec_zero_append v⟩

section Rrr

variable (fn : BitVec 4) (d a b : BitVec 7)

theorem encodesTo_decodeLd : EncodesTo (decodeLd fn d a b) (wordRrr 0x8 fn d a b) := by
  unfold decodeLd
  split <;> simp_all [BitVec.toNat_eq_nat] <;> rfl

theorem encodesTo_decodeSt : EncodesTo (decodeSt fn d a b) (wordRrr 0x9 fn d a b) := by
  unfold decodeSt
  split <;> simp_all [BitVec.toNat_eq_nat] <;> rfl

theorem encodesTo_decodeVmem : EncodesTo (decodeVmem fn d a b) (wordRrr 0xa fn d a b) := by
  unfold decodeVmem
  split <;> simp_all +contextual [BitVec.toNat_eq_nat, isVec_iff] <;> intros <;> rfl

theorem encodesTo_decodeAmoW : EncodesTo (decodeAmoW fn d a b) (wordRrr 0xb fn d a b) := by
  unfold decodeAmoW
  split <;> simp_all [BitVec.toNat_eq_nat] <;> rfl

theorem encodesTo_decodeAmoD : EncodesTo (decodeAmoD fn d a b) (wordRrr 0xc fn d a b) := by
  unfold decodeAmoD
  split <;> simp_all [BitVec.toNat_eq_nat] <;> rfl

theorem encodesTo_decodeHnd : EncodesTo (decodeHnd fn d a b) (wordRrr 0xd fn d a b) := by
  unfold decodeHnd
  split <;> simp_all +contextual [BitVec.toNat_eq_nat] <;> intros <;> rfl

theorem encodesTo_decodeRay : EncodesTo (decodeRay fn d a b) (wordRrr 0x11 fn d a b) := by
  unfold decodeRay
  split <;> simp_all +contextual [BitVec.toNat_eq_nat, isVec_iff] <;> intros <;> rfl

theorem encodesTo_decodeLa : EncodesTo (decodeLa fn d a b) (wordRrr 0x12 fn d a b) := by
  unfold decodeLa
  split <;> simp_all +contextual [BitVec.toNat_eq_nat, isVec_iff] <;> intros <;> rfl

theorem encodesTo_decodeTsc : EncodesTo (decodeTsc fn d a b) (wordRrr 0x13 fn d a b) := by
  unfold decodeTsc
  split <;> simp_all +contextual [BitVec.toNat_eq_nat, isVec_iff] <;> intros <;> rfl

theorem encodesTo_decodeMisc : EncodesTo (decodeMisc fn d a b) (wordRrr 0x14 fn d a b) := by
  unfold decodeMisc
  split <;> simp_all +contextual [BitVec.toNat_eq_nat] <;> intros <;> rfl

theorem encodesTo_decodeIop : EncodesTo (decodeIop fn d a b) (wordRrr 0x20 fn d a b) := by
  unfold decodeIop
  split <;> simp_all [BitVec.toNat_eq_nat] <;> rfl

theorem encodesTo_decodeIop2 : EncodesTo (decodeIop2 fn d a b) (wordRrr 0x21 fn d a b) := by
  unfold decodeIop2
  split <;> simp_all +contextual [BitVec.toNat_eq_nat] <;> intros <;> rfl

theorem encodesTo_decodeIop3 : EncodesTo (decodeIop3 fn d a b) (wordRrr 0x22 fn d a b) := by
  unfold decodeIop3
  split <;> simp_all +contextual [BitVec.toNat_eq_nat] <;> intros <;> rfl

theorem encodesTo_decodeFopD : EncodesTo (decodeFopD fn d a b) (wordRrr 0x2e fn d a b) := by
  unfold decodeFopD
  split <;> simp_all +contextual [BitVec.toNat_eq_nat] <;> intros <;> rfl

theorem encodesTo_decodeFopS : EncodesTo (decodeFopS fn d a b) (wordRrr 0x2f fn d a b) := by
  unfold decodeFopS
  split <;> simp_all +contextual [BitVec.toNat_eq_nat] <;> intros <;> rfl

theorem encodesTo_decodeVop : EncodesTo (decodeVop fn d a b) (wordRrr 0x31 fn d a b) := by
  unfold decodeVop
  split <;> simp_all +contextual [BitVec.toNat_eq_nat, isVec_iff] <;> intros <;> rfl

theorem encodesTo_decodeVfop : EncodesTo (decodeVfop fn d a b) (wordRrr 0x32 fn d a b) := by
  unfold decodeVfop
  split <;> simp_all +contextual [BitVec.toNat_eq_nat, isVec_iff] <;> intros <;> rfl

theorem encodesTo_decodeRtest : EncodesTo (decodeRtest fn d a b) (wordRrr 0x34 fn d a b) := by
  unfold decodeRtest
  split <;> simp_all +contextual [BitVec.toNat_eq_nat, isVec_iff] <;> intros <;> rfl

theorem encodesTo_decodeVfop64 : EncodesTo (decodeVfop64 fn d a b) (wordRrr 0x35 fn d a b) := by
  unfold decodeVfop64
  split <;> simp_all +contextual [BitVec.toNat_eq_nat, isVec_iff] <;> intros <;> rfl

theorem encodesTo_decodeCarwait : EncodesTo (decodeCarwait d a b) (wordRrr 0x10 5 d a b) := by
  unfold decodeCarwait
  split <;> simp_all [BitVec.toNat_eq_nat] <;> rfl

theorem encodesTo_decodeCar : EncodesTo (decodeCar fn d a b) (wordRrr 0x10 fn d a b) := by
  have hwait := encodesTo_decodeCarwait d a b
  unfold decodeCar
  split <;> simp_all +contextual [BitVec.toNat_eq_nat] <;> intros <;> rfl

theorem encodesTo_decodeVbcast : EncodesTo (decodeVbcast d a b) (wordRrr 0x33 0 d a b) := by
  unfold decodeVbcast
  split <;> simp_all +contextual [BitVec.toNat_eq_nat, isVec_iff] <;> intros <;> rfl

theorem encodesTo_decodeVred : EncodesTo (decodeVred d a b) (wordRrr 0x33 4 d a b) := by
  unfold decodeVred
  rw [encodesTo_ite, isVec_iff]
  rintro ⟨v, rfl⟩
  split <;> simp_all [BitVec.toNat_eq_nat] <;> rfl

/-! b7 of VCMP, VQ and FCVT has three parts. -/

theorem append_parts_223 : b.extractLsb' 5 2 ++ b.extractLsb' 3 2 ++ b.extractLsb' 0 3 = b := by
  apply BitVec.eq_of_toNat_eq
  simp only [toNat_append_eq, toNat_extractLsb'_eq]
  omega

theorem append_parts_331 : b.extractLsb' 4 3 ++ b.extractLsb' 1 3 ++ b.extractLsb' 0 1 = b := by
  apply BitVec.eq_of_toNat_eq
  simp only [toNat_append_eq, toNat_extractLsb'_eq]
  omega

theorem encodesTo_decodeVcmp : EncodesTo (decodeVcmp d a b) (wordRrr 0x33 5 d a b) := by
  have hb := append_parts_223 b
  unfold decodeVcmp
  rw [encodesTo_ite]
  simp only [Bool.and_eq_true, beq_iff_eq, isVec_iff]
  generalize b.extractLsb' 5 2 = z, b.extractLsb' 3 2 = ty, b.extractLsb' 0 3 = cond at *
  subst hb
  rintro ⟨⟨⟨v, rfl⟩, u, rfl⟩, h0⟩
  split <;> simp_all [BitVec.toNat_eq_nat] <;> rfl

theorem encodesTo_decodeVcvt : EncodesTo (decodeVcvt d a b) (wordRrr 0x33 7 d a b) := by
  have hb := append_parts (m := 4) (n := 3) b
  unfold decodeVcvt
  rw [encodesTo_ite]
  simp only [Bool.and_eq_true, isVec_iff]
  generalize b.extractLsb' 3 4 = op, b.extractLsb' 0 3 = mode at *
  subst hb
  rintro ⟨⟨v, rfl⟩, u, rfl⟩
  split <;> simp_all [BitVec.toNat_eq_nat] <;> rfl

theorem encodesTo_decodeVq : EncodesTo (decodeVq d a b) (wordRrr 0x33 8 d a b) := by
  have hb := append_parts_331 b
  unfold decodeVq
  rw [encodesTo_ite]
  simp only [Bool.and_eq_true, isVec_iff]
  generalize b.extractLsb' 4 3 = sc, b.extractLsb' 1 3 = mode, b.extractLsb' 0 1 = fmt at *
  subst hb
  rintro ⟨⟨v, rfl⟩, u, rfl⟩
  split <;> simp_all [BitVec.toNat_eq_nat] <;> rfl

theorem encodesTo_decodeVdq : EncodesTo (decodeVdq d a b) (wordRrr 0x33 9 d a b) := by
  have hb := append_parts (m := 6) (n := 1) b
  unfold decodeVdq
  rw [encodesTo_ite]
  simp only [Bool.and_eq_true, isVec_iff]
  generalize b.extractLsb' 1 6 = sc, b.extractLsb' 0 1 = fmt at *
  subst hb
  rintro ⟨⟨v, rfl⟩, u, rfl⟩
  split <;> simp_all [BitVec.toNat_eq_nat] <;> rfl

theorem encodesTo_decodeVmisc : EncodesTo (decodeVmisc fn d a b) (wordRrr 0x33 fn d a b) := by
  have hbcast := encodesTo_decodeVbcast d a b
  have hred := encodesTo_decodeVred d a b
  have hcmp := encodesTo_decodeVcmp d a b
  have hcvt := encodesTo_decodeVcvt d a b
  have hq := encodesTo_decodeVq d a b
  have hdq := encodesTo_decodeVdq d a b
  unfold decodeVmisc
  split <;> simp_all +contextual [BitVec.toNat_eq_nat, isVec_iff] <;> intros <;> rfl

theorem encodesTo_decodeFcvt : EncodesTo (decodeFcvt fn d a b) (wordRrr 0x30 fn d a b) := by
  have hfn := append_parts (m := 1) (n := 3) fn
  have hb := append_parts_331 b
  unfold decodeFcvt
  simp only [encodesTo_ite, Bool.and_eq_true, beq_iff_eq, encodesTo_some, encode]
  rintro ⟨h0, h1⟩
  rw [h0] at hfn
  rw [h1] at hb
  exact congrArg some (congrArg₂ (fun fn b => wordRrr 0x30 fn d a b) hfn hb)

end Rrr

/-! The groups of the other formats. -/

/-- A field whose upper part is 0 is its lower part. -/
theorem zero_append_of_upper_eq_zero {m n : Nat} {x : BitVec (m + n)} (h : x.extractLsb' n m = 0#m) :
    0#m ++ x.extractLsb' 0 n = x := h ▸ append_parts x

theorem encodesTo_decodeSys (fn : BitVec 5) (imm : BitVec 20) : EncodesTo (decodeSys fn imm) (wordS 0 fn imm) := by
  unfold decodeSys
  split
  case h_6 hfn =>
    obtain rfl : fn = 5#5 := BitVec.eq_of_toNat_eq hfn
    rw [encodesTo_ite, beq_iff_eq, encodesTo_some]
    exact fun h0 => congrArg (some <| wordS 0 5 ·) (zero_append_of_upper_eq_zero (m := 12) (n := 8) h0)
  case h_7 hfn =>
    obtain rfl : fn = 6#5 := BitVec.eq_of_toNat_eq hfn
    rw [encodesTo_ite, beq_iff_eq, encodesTo_some]
    exact fun h0 => congrArg (some <| wordS 0 6 ·) (zero_append_of_upper_eq_zero (m := 4) (n := 16) h0)
  case h_11 hfn =>
    obtain rfl : fn = 10#5 := BitVec.eq_of_toNat_eq hfn
    rw [encodesTo_ite, beq_iff_eq, encodesTo_some]
    exact fun h0 => congrArg (some <| wordS 0 10 ·) (zero_append_of_upper_eq_zero (m := 15) (n := 5) h0)
  all_goals simp_all [BitVec.toNat_eq_nat] <;> intros <;> rfl

theorem encodesTo_decodeBar (d : BitVec 7) (imm : BitVec 18) : EncodesTo (decodeBar d imm) (wordRi 0xf d imm) := by
  have himm : imm.extractLsb' 16 2 ++ imm.extractLsb' 13 3 ++ imm.extractLsb' 7 6 ++ imm.extractLsb' 0 7 = imm := by
    apply BitVec.eq_of_toNat_eq
    simp only [toNat_append_eq, toNat_extractLsb'_eq]
    omega
  unfold decodeBar
  rw [encodesTo_ite, beq_iff_eq]
  generalize imm.extractLsb' 16 2 = kind, imm.extractLsb' 13 3 = scope, imm.extractLsb' 7 6 = z,
    imm.extractLsb' 0 7 = id at *
  subst himm
  intro h0
  split
  case h_4 hne0 hne1 hne2 =>
    have h3 : kind = 3#2 := by
      simp only [imp_false] at hne0 hne1 hne2
      exact BitVec.eq_of_toNat_eq (by simp only [BitVec.toNat_ofNat]; omega)
    simp_all
    rfl
  all_goals (simp_all [BitVec.toNat_eq_nat]; rfl)

theorem encodesTo_decodeShifti (d a : BitVec 7) (imm : BitVec 11) :
    EncodesTo (decodeShifti d a imm) (wordRri 0x27 d a imm) := by
  have himm : imm.extractLsb' 8 3 ++ imm.extractLsb' 6 2 ++ imm.extractLsb' 0 6 = imm := by
    apply BitVec.eq_of_toNat_eq
    simp only [toNat_append_eq, toNat_extractLsb'_eq]
    omega
  unfold decodeShifti
  rw [encodesTo_ite, beq_iff_eq]
  generalize imm.extractLsb' 8 3 = kind, imm.extractLsb' 6 2 = z, imm.extractLsb' 0 6 = n at *
  subst himm
  intro h0
  split <;> simp_all [BitVec.toNat_eq_nat] <;> rfl

theorem encodesTo_decodeMsg (ty : BitVec 8) (a b : BitVec 7) (fn : BitVec 3) :
    EncodesTo (decodeMsg ty a b fn) (wordMs 0xe ty a b fn) := by
  unfold decodeMsg
  split <;> simp_all +contextual [BitVec.toNat_eq_nat] <;> intros <;> rfl

theorem encodesTo_decodeBr (cond : BitVec 3) (a b : BitVec 7) (disp : BitVec 8) :
    EncodesTo (decodeBr cond a b disp) (wordB 0x6 cond a b disp) := by
  unfold decodeBr
  split <;> simp_all [BitVec.toNat_eq_nat] <;> rfl

theorem encodesTo_decodeBrz (cond : BitVec 3) (a : BitVec 7) (disp : BitVec 15) :
    EncodesTo (decodeBrz cond a disp) (wordBz 0x7 cond a disp) := by
  unfold decodeBrz
  split <;> simp_all [BitVec.toNat_eq_nat] <;> rfl

/-! ## The whole decoder -/

section Whole

variable {w : BitVec 32} {op : BitVec 6}

/-- The form of one major opcode, of each format. -/
theorem encodesTo_rrr {o : Option Instr}
    (h : EncodesTo o (wordRrr op (fld w 21 4) (fld w 14 7) (fld w 7 7) (fld w 0 7)))
    (hop : (fld w 25 6).toNat = op.toNat) : EncodesTo o (w &&& 0x7FFFFFFF) := by
  rwa [← wordRrr_fld, BitVec.eq_of_toNat_eq hop]

theorem encodesTo_rri {o : Option Instr}
    (h : EncodesTo o (wordRri op (fld w 18 7) (fld w 11 7) (fld w 0 11)))
    (hop : (fld w 25 6).toNat = op.toNat) : EncodesTo o (w &&& 0x7FFFFFFF) := by
  rwa [← wordRri_fld, BitVec.eq_of_toNat_eq hop]

theorem encodesTo_ri {o : Option Instr}
    (h : EncodesTo o (wordRi op (fld w 18 7) (fld w 0 18)))
    (hop : (fld w 25 6).toNat = op.toNat) : EncodesTo o (w &&& 0x7FFFFFFF) := by
  rwa [← wordRi_fld, BitVec.eq_of_toNat_eq hop]

theorem encodesTo_j {o : Option Instr}
    (h : EncodesTo o (wordJ op (fld w 0 25)))
    (hop : (fld w 25 6).toNat = op.toNat) : EncodesTo o (w &&& 0x7FFFFFFF) := by
  rwa [← wordJ_fld, BitVec.eq_of_toNat_eq hop]

theorem encodesTo_b {o : Option Instr}
    (h : EncodesTo o (wordB op (fld w 22 3) (fld w 15 7) (fld w 8 7) (fld w 0 8)))
    (hop : (fld w 25 6).toNat = op.toNat) : EncodesTo o (w &&& 0x7FFFFFFF) := by
  rwa [← wordB_fld, BitVec.eq_of_toNat_eq hop]

theorem encodesTo_bz {o : Option Instr}
    (h : EncodesTo o (wordBz op (fld w 22 3) (fld w 15 7) (fld w 0 15)))
    (hop : (fld w 25 6).toNat = op.toNat) : EncodesTo o (w &&& 0x7FFFFFFF) := by
  rwa [← wordBz_fld, BitVec.eq_of_toNat_eq hop]

theorem encodesTo_s {o : Option Instr}
    (h : EncodesTo o (wordS op (fld w 20 5) (fld w 0 20)))
    (hop : (fld w 25 6).toNat = op.toNat) : EncodesTo o (w &&& 0x7FFFFFFF) := by
  rwa [← wordS_fld, BitVec.eq_of_toNat_eq hop]

theorem encodesTo_ms {o : Option Instr}
    (h : EncodesTo o (wordMs op (fld w 17 8) (fld w 10 7) (fld w 3 7) (fld w 0 3)))
    (hop : (fld w 25 6).toNat = op.toNat) : EncodesTo o (w &&& 0x7FFFFFFF) := by
  rwa [← wordMs_fld, BitVec.eq_of_toNat_eq hop]

/-- MFS and MTS: bits 17:12 are 0, and the rest is the register's number (R49). -/
theorem encodesTo_special {f : BitVec 12 → Instr} {d : BitVec 7} {imm : BitVec 18}
    (hf : ∀ sr, encode (f sr) = some (wordRi op d (0#6 ++ sr))) :
    EncodesTo (if imm.extractLsb' 12 6 == 0 then some (f (imm.extractLsb' 0 12)) else none) (wordRi op d imm) := by
  rw [encodesTo_ite, beq_iff_eq, encodesTo_some, hf]
  exact fun h0 => congrArg (some <| wordRi op d ·) (zero_append_of_upper_eq_zero (m := 6) (n := 12) h0)

end Whole

/-- R47: whatever a word's fields decode to is encoded as that word, but for bit 31. -/
theorem encodesTo_decodeFields (w : BitVec 32) : EncodesTo (decodeFields w) (w &&& 0x7FFFFFFF) := by
  unfold decodeFields
  dsimp only
  split
  case h_1 hop => exact encodesTo_s (encodesTo_decodeSys _ _) hop
  case h_2 hop => exact encodesTo_ri (op := 1) (encodesTo_special fun _ => rfl) hop
  case h_3 hop => exact encodesTo_ri (op := 2) (encodesTo_special fun _ => rfl) hop
  case h_4 hop => exact encodesTo_j (op := 3) ((encodesTo_some _ _).2 rfl) hop
  case h_5 hop => exact encodesTo_ri (op := 4) ((encodesTo_some _ _).2 rfl) hop
  case h_6 hop => exact encodesTo_rri (op := 5) ((encodesTo_some _ _).2 rfl) hop
  case h_7 hop => exact encodesTo_b (encodesTo_decodeBr _ _ _ _) hop
  case h_8 hop => exact encodesTo_bz (encodesTo_decodeBrz _ _ _) hop
  case h_9 hop => exact encodesTo_rrr (encodesTo_decodeLd _ _ _ _) hop
  case h_10 hop => exact encodesTo_rrr (encodesTo_decodeSt _ _ _ _) hop
  case h_11 hop => exact encodesTo_rrr (encodesTo_decodeVmem _ _ _ _) hop
  case h_12 hop => exact encodesTo_rrr (encodesTo_decodeAmoW _ _ _ _) hop
  case h_13 hop => exact encodesTo_rrr (encodesTo_decodeAmoD _ _ _ _) hop
  case h_14 hop => exact encodesTo_rrr (encodesTo_decodeHnd _ _ _ _) hop
  case h_15 hop => exact encodesTo_ms (encodesTo_decodeMsg _ _ _ _) hop
  case h_16 hop => exact encodesTo_ri (encodesTo_decodeBar _ _) hop
  case h_17 hop => exact encodesTo_rrr (encodesTo_decodeCar _ _ _ _) hop
  case h_18 hop => exact encodesTo_rrr (encodesTo_decodeRay _ _ _ _) hop
  case h_19 hop => exact encodesTo_rrr (encodesTo_decodeLa _ _ _ _) hop
  case h_20 hop => exact encodesTo_rrr (encodesTo_decodeTsc _ _ _ _) hop
  case h_21 hop => exact encodesTo_rrr (encodesTo_decodeMisc _ _ _ _) hop
  case h_22 hop => exact encodesTo_rrr (encodesTo_decodeIop _ _ _ _) hop
  case h_23 hop => exact encodesTo_rrr (encodesTo_decodeIop2 _ _ _ _) hop
  case h_24 hop => exact encodesTo_rrr (encodesTo_decodeIop3 _ _ _ _) hop
  case h_25 hop => exact encodesTo_rri (op := 0x23) ((encodesTo_some _ _).2 rfl) hop
  case h_26 hop => exact encodesTo_rri (op := 0x24) ((encodesTo_some _ _).2 rfl) hop
  case h_27 hop => exact encodesTo_rri (op := 0x25) ((encodesTo_some _ _).2 rfl) hop
  case h_28 hop => exact encodesTo_rri (op := 0x26) ((encodesTo_some _ _).2 rfl) hop
  case h_29 hop => exact encodesTo_rri (encodesTo_decodeShifti _ _ _) hop
  case h_30 hop => exact encodesTo_rri (op := 0x28) ((encodesTo_some _ _).2 rfl) hop
  case h_31 hop => exact encodesTo_rri (op := 0x29) ((encodesTo_some _ _).2 rfl) hop
  case h_32 hop => exact encodesTo_ri (op := 0x2A) ((encodesTo_some _ _).2 rfl) hop
  case h_33 hop => exact encodesTo_ri (op := 0x2B) ((encodesTo_some _ _).2 rfl) hop
  case h_34 hop => exact encodesTo_rri (op := 0x2C) ((encodesTo_some _ _).2 rfl) hop
  case h_35 hop => exact encodesTo_rri (op := 0x2D) ((encodesTo_some _ _).2 rfl) hop
  case h_36 hop => exact encodesTo_rrr (encodesTo_decodeFopD _ _ _ _) hop
  case h_37 hop => exact encodesTo_rrr (encodesTo_decodeFopS _ _ _ _) hop
  case h_38 hop => exact encodesTo_rrr (encodesTo_decodeFcvt _ _ _ _) hop
  case h_39 hop => exact encodesTo_rrr (encodesTo_decodeVop _ _ _ _) hop
  case h_40 hop => exact encodesTo_rrr (encodesTo_decodeVfop _ _ _ _) hop
  case h_41 hop => exact encodesTo_rrr (encodesTo_decodeVmisc _ _ _ _) hop
  case h_42 hop => exact encodesTo_rrr (encodesTo_decodeRtest _ _ _ _) hop
  case h_43 hop => exact encodesTo_rrr (encodesTo_decodeVfop64 _ _ _ _) hop
  case h_44 => exact encodesTo_none _

theorem decodeWord_eq_some_iff (w : BitVec 32) (i : Instr) :
    decodeWord w = some i ↔ decodeFields w = some i ∧ i.wf = true := by
  unfold decodeWord
  split
  case h_1 j hj =>
    rw [hj, Option.some.injEq, Option.ite_none_right_eq_some, Option.some.injEq]
    exact ⟨fun ⟨hwf, hji⟩ => ⟨hji, hji ▸ hwf⟩, fun ⟨hji, hwf⟩ => ⟨hji ▸ hwf, hji⟩⟩
  case h_2 hn => simp [hn]

/-- Settles O57, from the decoder's groups one by one. -/
theorem decodeEncode : Obligations.DecodeEncode := by
  intro w i h
  obtain ⟨hf, hwf⟩ := (decodeWord_eq_some_iff w i).1 h
  exact ⟨hwf, encodesTo_decodeFields w i hf⟩

/-! ## An encoded form is decoded again -/

/-! A field put together of parts gives them back. -/

theorem parts_12_8 (x : BitVec 12) (y : BitVec 8) : let z : BitVec 20 := x ++ y
    z.extractLsb' 8 12 = x ∧ z.extractLsb' 0 8 = y :=
  ⟨BitVec.extractLsb'_append_eq_left, BitVec.extractLsb'_append_eq_right⟩

theorem parts_4_16 (x : BitVec 4) (y : BitVec 16) : let z : BitVec 20 := x ++ y
    z.extractLsb' 16 4 = x ∧ z.extractLsb' 0 16 = y :=
  ⟨BitVec.extractLsb'_append_eq_left, BitVec.extractLsb'_append_eq_right⟩

theorem parts_15_5 (x : BitVec 15) (y : BitVec 5) : let z : BitVec 20 := x ++ y
    z.extractLsb' 5 15 = x ∧ z.extractLsb' 0 5 = y :=
  ⟨BitVec.extractLsb'_append_eq_left, BitVec.extractLsb'_append_eq_right⟩

theorem parts_6_12 (x : BitVec 6) (y : BitVec 12) : let z : BitVec 18 := x ++ y
    z.extractLsb' 12 6 = x ∧ z.extractLsb' 0 12 = y :=
  ⟨BitVec.extractLsb'_append_eq_left, BitVec.extractLsb'_append_eq_right⟩

theorem parts_4_3 (x : BitVec 4) (y : BitVec 3) : let z : BitVec 7 := x ++ y
    z.extractLsb' 3 4 = x ∧ z.extractLsb' 0 3 = y :=
  ⟨BitVec.extractLsb'_append_eq_left, BitVec.extractLsb'_append_eq_right⟩

theorem parts_6_1 (x : BitVec 6) (y : BitVec 1) : let z : BitVec 7 := x ++ y
    z.extractLsb' 1 6 = x ∧ z.extractLsb' 0 1 = y :=
  ⟨BitVec.extractLsb'_append_eq_left, BitVec.extractLsb'_append_eq_right⟩

theorem parts_1_3 (x : BitVec 1) (y : BitVec 3) : let z : BitVec 4 := x ++ y
    z.extractLsb' 3 1 = x ∧ z.extractLsb' 0 3 = y :=
  ⟨BitVec.extractLsb'_append_eq_left, BitVec.extractLsb'_append_eq_right⟩

theorem parts_2_2_3 (x y : BitVec 2) (k : BitVec 3) : let z : BitVec 7 := x ++ y ++ k
    z.extractLsb' 5 2 = x ∧ z.extractLsb' 3 2 = y ∧ z.extractLsb' 0 3 = k := by
  refine ⟨?_, ?_, ?_⟩ <;> apply BitVec.eq_of_toNat_eq <;> simp only [toNat_extractLsb'_eq, toNat_append_eq] <;> omega

theorem parts_3_3_1 (x y : BitVec 3) (k : BitVec 1) : let z : BitVec 7 := x ++ y ++ k
    z.extractLsb' 4 3 = x ∧ z.extractLsb' 1 3 = y ∧ z.extractLsb' 0 1 = k := by
  refine ⟨?_, ?_, ?_⟩ <;> apply BitVec.eq_of_toNat_eq <;> simp only [toNat_extractLsb'_eq, toNat_append_eq] <;> omega

theorem parts_2_3_6_7 (x : BitVec 2) (y : BitVec 3) (k : BitVec 6) (l : BitVec 7) : let z : BitVec 18 := x ++ y ++ k ++ l
    z.extractLsb' 16 2 = x ∧ z.extractLsb' 13 3 = y ∧ z.extractLsb' 7 6 = k ∧ z.extractLsb' 0 7 = l := by
  refine ⟨?_, ?_, ?_, ?_⟩ <;> apply BitVec.eq_of_toNat_eq <;> simp only [toNat_extractLsb'_eq, toNat_append_eq] <;>
    omega

/-- SHIFTI's kind stands in the upper three of the five bits over the amount. -/
theorem parts_5_6 (x : BitVec 5) (n : BitVec 6) : let z : BitVec 11 := x ++ n
    z.extractLsb' 8 3 = x.extractLsb' 2 3 ∧ z.extractLsb' 6 2 = x.extractLsb' 0 2 ∧ z.extractLsb' 0 6 = n := by
  refine ⟨?_, ?_, ?_⟩ <;> apply BitVec.eq_of_toNat_eq <;> simp only [toNat_extractLsb'_eq, toNat_append_eq] <;> omega

/-- The groups of the RRR format (R45, R46). -/
theorem decodeFields_wordRrr (fn : BitVec 4) (d a b : BitVec 7) :
    decodeFields (wordRrr 0x08#6 fn d a b) = decodeLd fn d a b ∧
    decodeFields (wordRrr 0x09#6 fn d a b) = decodeSt fn d a b ∧
    decodeFields (wordRrr 0x0A#6 fn d a b) = decodeVmem fn d a b ∧
    decodeFields (wordRrr 0x0B#6 fn d a b) = decodeAmoW fn d a b ∧
    decodeFields (wordRrr 0x0C#6 fn d a b) = decodeAmoD fn d a b ∧
    decodeFields (wordRrr 0x0D#6 fn d a b) = decodeHnd fn d a b ∧
    decodeFields (wordRrr 0x10#6 fn d a b) = decodeCar fn d a b ∧
    decodeFields (wordRrr 0x11#6 fn d a b) = decodeRay fn d a b ∧
    decodeFields (wordRrr 0x12#6 fn d a b) = decodeLa fn d a b ∧
    decodeFields (wordRrr 0x13#6 fn d a b) = decodeTsc fn d a b ∧
    decodeFields (wordRrr 0x14#6 fn d a b) = decodeMisc fn d a b ∧
    decodeFields (wordRrr 0x20#6 fn d a b) = decodeIop fn d a b ∧
    decodeFields (wordRrr 0x21#6 fn d a b) = decodeIop2 fn d a b ∧
    decodeFields (wordRrr 0x22#6 fn d a b) = decodeIop3 fn d a b ∧
    decodeFields (wordRrr 0x2E#6 fn d a b) = decodeFopD fn d a b ∧
    decodeFields (wordRrr 0x2F#6 fn d a b) = decodeFopS fn d a b ∧
    decodeFields (wordRrr 0x30#6 fn d a b) = decodeFcvt fn d a b ∧
    decodeFields (wordRrr 0x31#6 fn d a b) = decodeVop fn d a b ∧
    decodeFields (wordRrr 0x32#6 fn d a b) = decodeVfop fn d a b ∧
    decodeFields (wordRrr 0x33#6 fn d a b) = decodeVmisc fn d a b ∧
    decodeFields (wordRrr 0x34#6 fn d a b) = decodeRtest fn d a b ∧
    decodeFields (wordRrr 0x35#6 fn d a b) = decodeVfop64 fn d a b := by
  refine ⟨?_, ?_, ?_, ?_, ?_, ?_, ?_, ?_, ?_, ?_, ?_, ?_, ?_, ?_, ?_, ?_, ?_, ?_, ?_, ?_, ?_, ?_⟩ <;> simp only [decodeFields, fld_wordRrr] <;> rfl

theorem decodeFields_wordS (fn : BitVec 5) (imm : BitVec 20) : decodeFields (wordS 0#6 fn imm) = decodeSys fn imm := by
  simp only [decodeFields, fld_wordS]
  rfl

theorem decodeFields_wordB (cond : BitVec 3) (a b : BitVec 7) (disp : BitVec 8) :
    decodeFields (wordB 6#6 cond a b disp) = decodeBr cond a b disp := by
  simp only [decodeFields, fld_wordB]
  rfl

theorem decodeFields_wordBz (cond : BitVec 3) (a : BitVec 7) (disp : BitVec 15) :
    decodeFields (wordBz 7#6 cond a disp) = decodeBrz cond a disp := by
  simp only [decodeFields, fld_wordBz]
  rfl

theorem decodeFields_wordMs (ty : BitVec 8) (a b : BitVec 7) (fn : BitVec 3) :
    decodeFields (wordMs 14#6 ty a b fn) = decodeMsg ty a b fn := by
  simp only [decodeFields, fld_wordMs]
  rfl

/-- The forms and groups of the RRI format. -/
theorem decodeFields_wordRri (d a : BitVec 7) (imm : BitVec 11) :
    decodeFields (wordRri 0x05#6 d a imm) = some (.jalr d a imm) ∧
    decodeFields (wordRri 0x23#6 d a imm) = some (.addi d a imm) ∧
    decodeFields (wordRri 0x24#6 d a imm) = some (.andi d a imm) ∧
    decodeFields (wordRri 0x25#6 d a imm) = some (.ori d a imm) ∧
    decodeFields (wordRri 0x26#6 d a imm) = some (.xori d a imm) ∧
    decodeFields (wordRri 0x27#6 d a imm) = decodeShifti d a imm ∧
    decodeFields (wordRri 0x28#6 d a imm) = some (.slti d a imm) ∧
    decodeFields (wordRri 0x29#6 d a imm) = some (.addpi d a imm) ∧
    decodeFields (wordRri 0x2C#6 d a imm) = some (.movx d a imm) ∧
    decodeFields (wordRri 0x2D#6 d a imm) = some (.movxs d a imm) := by
  refine ⟨?_, ?_, ?_, ?_, ?_, ?_, ?_, ?_, ?_, ?_⟩ <;> simp only [decodeFields, fld_wordRri] <;> rfl

/-- The forms and groups of the RI format. -/
theorem decodeFields_wordRi (d : BitVec 7) (imm : BitVec 18) :
    decodeFields (wordRi 0x01#6 d imm) =
      (if imm.extractLsb' 12 6 == 0 then some (.mfs d (imm.extractLsb' 0 12)) else none) ∧
    decodeFields (wordRi 0x02#6 d imm) =
      (if imm.extractLsb' 12 6 == 0 then some (.mts d (imm.extractLsb' 0 12)) else none) ∧
    decodeFields (wordRi 0x04#6 d imm) =
      some (.jal d imm) ∧
    decodeFields (wordRi 0x0F#6 d imm) =
      decodeBar d imm ∧
    decodeFields (wordRi 0x2A#6 d imm) =
      some (.ldi d imm) ∧
    decodeFields (wordRi 0x2B#6 d imm) =
      some (.ldih d imm) := by
  refine ⟨?_, ?_, ?_, ?_, ?_, ?_⟩ <;> simp only [decodeFields, fld_wordRi] <;> rfl

theorem decodeFields_wordJ (disp : BitVec 25) : decodeFields (wordJ 3#6 disp) = some (.jmp disp) := by
  simp only [decodeFields, fld_wordJ]
  rfl

theorem decodeFields_encode (i : Instr) (w : BitVec 32) (h : encode i = some w) : decodeFields w = some i := by
  cases i <;> cases h
  all_goals
    simp [decodeFields_wordRrr, decodeFields_wordS, decodeFields_wordB, decodeFields_wordBz, decodeFields_wordMs, decodeFields_wordRri,
      decodeFields_wordRi, decodeFields_wordJ, parts_12_8, parts_4_16, parts_15_5, parts_6_12, parts_4_3, parts_6_1,
      parts_1_3, parts_2_2_3, parts_3_3_1, parts_2_3_6_7, parts_5_6,
      decodeLd, decodeSt, decodeVmem, decodeAmoW, decodeAmoD, decodeHnd, decodeCar, decodeRay, decodeLa, decodeTsc, decodeMisc, decodeIop, decodeIop2, decodeIop3, decodeFopD, decodeFopS, decodeFcvt, decodeVop, decodeVfop, decodeVmisc, decodeRtest, decodeVfop64, decodeSys, decodeBar, decodeShifti, decodeMsg, decodeBr, decodeBrz,
      decodeCarwait, decodeVbcast, decodeVred, decodeVcmp, decodeVcvt, decodeVq, decodeVdq]

/-- The decoder reads no bit 31. -/
theorem decodeWord_or_bit31 (w : BitVec 32) : decodeWord (w ||| 0x80000000) = decodeWord w := by
  simp (disch := decide) only [decodeWord, decodeFields, fld_or_bit31]

theorem getLsbD_31_of_eq_and {w : BitVec 32} (h : w = w &&& 0x7FFFFFFF) : w.getLsbD 31 = false := by
  rw [h, BitVec.getLsbD_and]
  exact Bool.and_false _

/-- Settles O56: a form's fields are read back from its word, and so the word is its own encoding, which has bit 31
clear. -/
theorem encodeDecode : Obligations.EncodeDecode := by
  intro i w hwf h
  have hfields := decodeFields_encode i w h
  have hword : decodeWord w = some i := (decodeWord_eq_some_iff w i).2 ⟨hfields, hwf⟩
  have hself : w = w &&& 0x7FFFFFFF := Option.some.inj (h.symm.trans (encodesTo_decodeFields w i hfields))
  exact ⟨getLsbD_31_of_eq_and hself, hword, (decodeWord_or_bit31 w).trans hword⟩

/-- Settles O55: each word is decoded as the kernel evaluates it. -/
theorem decodeWords : Obligations.DecodeWords := by
  refine ⟨rfl, rfl, rfl, rfl, rfl, rfl, rfl, rfl, rfl, rfl, rfl, rfl, rfl, rfl, rfl, rfl, rfl, ?_, rfl, rfl⟩
  have hword : decodeWord 0x4000C206 = some (.add 3 4 6) := rfl
  rw [hword]
  intro h
  injection h with h
  injection h with _ _ h
  exact absurd h (by decide)

end Sys2Proof.Proofs
end

section
/-!
SUPPORT. The IOP2 and IOP3 words, pointers, MOVX and MOVXS, branches and jumps (R63, R66, R70 to R72, R79 to R81, R196).
-/

namespace Sys2Proof.Proofs

open Sys2Proof Sys2Proof.Machine Sys2Proof.Laws

/-! ## Bit counts and BREV (R63) -/

theorem smallerU_eq_ofNat_min (x y : Word) : (if ltU y x then y else x) = BitVec.ofNat 64 (min x.toNat y.toNat) := by
  by_cases h : y.toNat < x.toNat
  · simp [ltU, h, min_eq_right h.le]
  · simp [ltU, h, min_eq_left (not_lt.1 h)]

theorem largerU_eq_ofNat_max (x y : Word) : (if ltU x y then y else x) = BitVec.ofNat 64 (max x.toNat y.toNat) := by
  by_cases h : x.toNat < y.toNat
  · simp [ltU, h, max_eq_right h.le]
  · simp [ltU, h, max_eq_left (not_lt.1 h)]

theorem mul_eq_ofInt_mul (x y : Word) : x * y = BitVec.ofInt 64 (x.toInt * y.toInt) := by
  rw [BitVec.ofInt_mul, BitVec.ofInt_toInt, BitVec.ofInt_toInt]

/-- The bits above the highest set one are clear. -/
theorem clzW_spec (x : Word) : clzW x ≤ 64 ∧ (∀ k, 64 - clzW x ≤ k → k < 64 → x.getLsbD k = false) ∧
    (clzW x < 64 → x.getLsbD (63 - clzW x) = true) := by
  by_cases hx : x = 0
  · subst hx
    simp [clzW]
  · have h0 : x.toNat ≠ 0 := fun h => hx (BitVec.eq_of_toNat_eq h)
    have hlog : x.toNat.log2 < 64 := (Nat.log2_lt h0).2 x.isLt
    rw [clzW, if_neg hx]
    refine ⟨by omega, fun k hk _ => ?_, fun _ => ?_⟩
    · exact Nat.testBit_lt_two_pow ((Nat.log2_lt h0).1 (by omega))
    · rw [show 63 - (63 - x.toNat.log2) = x.toNat.log2 by omega]
      exact Nat.testBit_log2 h0

theorem bitN_eq_one_iff (a : Word) (k : Nat) : bitN a k = 1 ↔ a.getLsbD k = true := by
  rw [bitN_eq_toNat]
  cases a.getLsbD k <;> decide

/-- Counted from bit k on, the count stops at the first set bit, or at bit k + n. -/
theorem ctzFrom_spec (a : Word) (n k : Nat) : k ≤ ctzFrom a n k ∧ ctzFrom a n k ≤ k + n ∧
    (∀ j, k ≤ j → j < ctzFrom a n k → a.getLsbD j = false) ∧
    (ctzFrom a n k < k + n → a.getLsbD (ctzFrom a n k) = true) := by
  induction n generalizing k with
  | zero => simp only [ctzFrom]; exact ⟨le_rfl, le_rfl, fun j h1 h2 => by omega, fun h => by omega⟩
  | succ n ih =>
    by_cases hbit : bitN a k = 1
    · simp only [ctzFrom, if_pos hbit]
      exact ⟨le_rfl, by omega, fun j h1 h2 => by omega, fun _ => (bitN_eq_one_iff a k).1 hbit⟩
    · obtain ⟨hlo, hhi, hclear, hset⟩ := ih (k + 1)
      simp only [ctzFrom, if_neg hbit]
      refine ⟨by omega, by omega, fun j h1 h2 => ?_, fun h => hset (by omega)⟩
      rcases Nat.eq_or_lt_of_le h1 with rfl | h1
      · simpa [bitN_eq_one_iff] using hbit
      · exact hclear j h1 h2

theorem ctzW_spec (x : Word) : ctzW x ≤ 64 ∧ (∀ k < ctzW x, x.getLsbD k = false) ∧
    (ctzW x < 64 → x.getLsbD (ctzW x) = true) := by
  obtain ⟨-, hhi, hclear, hset⟩ := ctzFrom_spec x 64 0
  exact ⟨by simpa [ctzW] using hhi, fun k hk => hclear k (Nat.zero_le k) hk, fun h => hset (by simpa [ctzW] using h)⟩

theorem foldl_add_bitN (x : Word) (l : List Nat) (n : Nat) :
    l.foldl (fun acc k => acc + bitN x k) n = n + l.countP fun k => x.getLsbD k := by
  induction l generalizing n with
  | nil => rfl
  | cons k l ih =>
    rw [List.foldl_cons, ih, List.countP_cons, bitN_eq_toNat]
    cases x.getLsbD k
    · rfl
    · simp only [Bool.toNat_true, if_true]
      omega

theorem popcW_eq_countP (x : Word) : popcW x = (List.range 64).countP fun k => x.getLsbD k := by
  rw [popcW, foldl_add_bitN, Nat.zero_add]

theorem getLsbD_brevW (x : Word) {i : Nat} (hi : i < 64) : (brevW x).getLsbD (63 - i) = x.getLsbD i := by
  have hbits := getLsbD_scatterBits x id (63 - ·) 64 (63 - i) fun j hj k hk h => by omega
  rw [Bool.eq_iff_iff, brevW]
  refine hbits.trans ?_
  constructor
  · rintro ⟨-, j, hj, hji, hx⟩
    rwa [show i = j by omega]
  · exact fun hx => ⟨by omega, i, hi, rfl, hx⟩

/-! ## Bytes, pointers and keys (R66, R70, R71, R196) -/

theorem foldl_range_eight {α : Type} (f : α → Nat → α) (x : α) :
    (List.range 8).foldl f x = f (f (f (f (f (f (f (f x 0) 1) 2) 3) 4) 5) 6) 7 := rfl

/-- Eight bytes put together, byte 0 highest, fit a word, and each is read back at its place. -/
theorem sum_bytes (b : Nat → Nat) (hb : ∀ j, b j < 256) :
    (List.range 8).foldl (fun acc j => acc + b j * 2 ^ (8 * (7 - j))) 0 < 2 ^ 64 ∧ ∀ j < 8,
      (List.range 8).foldl (fun acc j => acc + b j * 2 ^ (8 * (7 - j))) 0 / 2 ^ (8 * (7 - j)) % 2 ^ 8 = b j := by
  have h0 := hb 0
  have h1 := hb 1
  have h2 := hb 2
  have h3 := hb 3
  have h4 := hb 4
  have h5 := hb 5
  have h6 := hb 6
  have h7 := hb 7
  rw [foldl_range_eight]
  refine ⟨by norm_num; omega, fun j hj => ?_⟩
  interval_cases j <;> norm_num <;> omega

theorem bswapW_byte (x : Word) {j : Nat} (hj : j < 8) :
    (bswapW x).extractLsb' (8 * (7 - j)) 8 = x.extractLsb' (8 * j) 8 := by
  obtain ⟨hlt, hbyte⟩ := sum_bytes (fun j => x.toNat / 2 ^ (8 * j) % 256) fun j => Nat.mod_lt _ (by decide)
  apply BitVec.eq_of_toNat_eq
  rw [toNat_extractLsb'_eq, toNat_extractLsb'_eq, bswapW, BitVec.toNat_ofNat, Nat.mod_eq_of_lt hlt, hbyte j hj]
  rfl

theorem ptag_eq (x : Word) : BitVec.ofNat 64 (x.toNat / 2 ^ 57) = (x.extractLsb' 57 7).setWidth 64 := by
  apply BitVec.eq_of_toNat_eq
  simp only [BitVec.toNat_ofNat, BitVec.toNat_setWidth, toNat_extractLsb'_eq]
  omega

theorem mkptr_eq (x y : Word) :
    BitVec.ofNat 64 (y.toNat % 128 * 2 ^ 57 + addrOf x) = y.extractLsb' 0 7 ++ x.extractLsb' 0 57 := by
  apply BitVec.eq_of_toNat_eq
  simp only [BitVec.toNat_ofNat, toNat_append_eq, toNat_extractLsb'_eq, addrOf]
  omega

/-- R70's sum inside the space stands under the pointer's tag. -/
theorem tag_add_eq (p : Word) {sum : Int} (h0 : 0 ≤ sum) (h1 : sum < 2 ^ 57) :
    BitVec.ofNat 64 (tagOf p + sum.toNat) = p.extractLsb' 57 7 ++ BitVec.ofInt 57 sum := by
  obtain ⟨n, rfl⟩ := Int.eq_ofNat_of_zero_le h0
  have hn : n < 2 ^ 57 := by exact_mod_cast h1
  apply BitVec.eq_of_toNat_eq
  have hp := p.isLt
  simp only [BitVec.toNat_ofNat, toNat_append_eq, toNat_extractLsb'_eq, tagOf, Int.toNat_natCast, BitVec.ofInt_natCast,
    Nat.mod_eq_of_lt hn]
  omega

theorem outside_iff (t : Int) : outside t = true ↔ ¬(0 ≤ t ∧ t < 2 ^ 57) := by
  rw [outside, Bool.or_eq_true, decide_eq_true_eq, decide_eq_true_eq]
  omega

/-- R70, inside the space and outside it. -/
theorem addPtr_spec (d : BitVec 7) (p : Word) (off : Int) (s : State) :
    let sum : Int := (p.toNat % 2 ^ 57 : Nat) + off
    (0 ≤ sum ∧ sum < 2 ^ 57 →
      addPtr d p off s = .next (advance (wr d (p.extractLsb' 57 7 ++ BitVec.ofInt 57 sum) s))) ∧
    (¬(0 ≤ sum ∧ sum < 2 ^ 57) → addPtr d p off s = .next (takeTrap cAddrOvf (BitVec.ofInt 64 sum) s)) := by
  intro sum
  refine ⟨fun h => ?_, fun h => ?_⟩
  · have hin : ¬outside (addrOf p + off) = true := fun hout => (outside_iff sum).1 hout h
    rw [addPtr, if_neg hin, ← tag_add_eq p h.1 h.2]
    rfl
  · have hout : outside (addrOf p + off) = true := (outside_iff sum).2 h
    rw [addPtr, if_pos hout]
    rfl

/-- A pattern is a NaN where its exponent field is all ones and its fraction is not 0 (R319). -/
theorem isNan_unpack_iff (f : Fmt) (x : Nat) :
    isNan (unpack f x) = true ↔ x / 2 ^ f.fw % 2 ^ f.ew = 2 ^ f.ew - 1 ∧ x % 2 ^ f.fw ≠ 0 := by
  unfold unpack
  by_cases hex : x / 2 ^ f.fw % 2 ^ f.ew = 2 ^ f.ew - 1
  · by_cases hfr : x % 2 ^ f.fw = 0 <;> simp [hex, hfr, isNan]
  · simp only [hex, if_false, false_and, iff_false]
    split <;> exact Bool.false_ne_true

theorem fNeg?_iff (f : Fmt) (x : Nat) : fNeg? f x = true ↔ x / 2 ^ (f.ew + f.fw) % 2 = 1 := by
  rw [fNeg?, beq_iff_eq, Fmt.signBit]

/-- A depth that VKEY takes for a loser: a NaN, or a pattern with the sign bit set. -/
theorem loses_iff (z : BitVec 32) :
    (isNan (unpack fmtS z.toNat) || fNeg? fmtS z.toNat) = true ↔ z.msb = true ∨ 0x7F800000 < z.toNat := by
  have hz := z.isLt
  rw [Bool.or_eq_true, isNan_unpack_iff, fNeg?_iff, BitVec.msb_eq_decide, decide_eq_true_eq]
  simp only [fmtS]
  omega

section Vkey

variable {x : Word} {z : BitVec 32} (hz : z = x.setWidth 32) (y : Word)

include hz

theorem toNat_mod_of_setWidth : x.toNat % 2 ^ 32 = z.toNat := by
  rw [hz, BitVec.toNat_setWidth]

/-- A zero depth of either sign is the key +0. -/
theorem vkeyW_zero (h : z = 0 ∨ z = 0x80000000) : vkeyW x y = (0 : BitVec 32) ++ y.setWidth 32 := by
  have hd : (if z.toNat = 0x80000000 then 0 else z.toNat) = 0 := by
    rcases h with rfl | rfl <;> rfl
  have h0 : (0 : BitVec 32).toNat = 0 := rfl
  have hu : (isNan (unpack fmtS 0) || fNeg? fmtS 0) = false := by decide
  simp only [vkeyW, toNat_mod_of_setWidth hz, hd, hu]
  apply BitVec.eq_of_toNat_eq
  simp only [Bool.false_eq_true, if_false, toNat_append_eq, BitVec.toNat_setWidth, BitVec.toNat_ofNat, h0]
  omega

/-- A depth that is a negative number or NaN loses to every key. -/
theorem vkeyW_loses (hne : z ≠ 0x80000000) (h : z.msb = true ∨ 0x7F800000 < z.toNat) : vkeyW x y = BitVec.allOnes 64 := by
  have hd : (if z.toNat = 0x80000000 then 0 else z.toNat) = z.toNat :=
    if_neg fun h => hne (BitVec.eq_of_toNat_eq h)
  have hu := (loses_iff z).2 h
  simp only [vkeyW, toNat_mod_of_setWidth hz, hd, hu, if_true]

theorem vkeyW_key (h : z.toNat ≤ 0x7F800000) : vkeyW x y = z ++ y.setWidth 32 := by
  have hd : (if z.toNat = 0x80000000 then 0 else z.toNat) = z.toNat := if_neg (by omega)
  have hu : (isNan (unpack fmtS z.toNat) || fNeg? fmtS z.toNat) = false := by
    rw [Bool.eq_false_iff, Ne, loses_iff, BitVec.msb_eq_decide, decide_eq_true_eq]
    omega
  simp only [vkeyW, toNat_mod_of_setWidth hz, hd, hu]
  apply BitVec.eq_of_toNat_eq
  have hlt := z.isLt
  simp only [Bool.false_eq_true, if_false, toNat_append_eq, BitVec.toNat_setWidth, BitVec.toNat_ofNat]
  omega

end Vkey

/-! ## Indexed moves (R72) -/

theorem boundsFault_idx {d a : BitVec 7} {imm : BitVec 11} {s : State} (hd : d.toNat < (cur s).winSize)
    (ha : a.toNat < (cur s).winSize) (h : movIdx s a imm < 0 ∨ ((cur s).winSize : Int) ≤ movIdx s a imm) :
    boundsFault s [.g d, .g a, .idx a imm] = some (BitVec.ofInt 64 (movIdx s a imm)) := by
  simp [boundsFault, boundsOf, hd.not_ge, ha.not_ge, h]

/-- A word that is out of bounds traps, whatever it would do. -/
theorem enter_boundsFault {u : Uses} {s : State} {v : Word} (k : State → Out State) (hw : awaited s u = [])
    (hb : boundsFault s u.names = some v) : enter u s k = .next (takeTrap cRegBounds v s) := by
  simp [enter, enterWith, hw, hb, trap]

/-- What a word whose checks pass does. -/
theorem outcome_of_ready {o r : Out State} {u : Uses} {s : State} {k : State → Out State} (ho : o = enter u s k)
    (h : Ready u s) (hk : k s = r) : o = r := by
  rw [ho, enter_of_ready u s k h, hk]

/-! ## Branches and jumps (R79 to R81) -/

/-- A branch word, taken and not taken. -/
theorem branch_of_ready {o : Out State} {u : Uses} {f : State → Bool} {disp : Int} {s : State} {taken : Prop}
    (ho : o = enter u s fun s => branch (f s) disp s) (h : Ready u s) (hf : f s = true ↔ taken) :
    (taken → o = .next (goTo (((s.iss.pa : Int) + 8 * disp) % 2 ^ 57).toNat s)) ∧ (¬taken → o = .next (advance s)) := by
  rw [ho, enter_of_ready u s _ h]
  exact ⟨fun ht => by rw [branch, if_pos (hf.2 ht)], fun ht => by rw [branch, if_neg (mt hf.1 ht)]; rfl⟩

theorem toInt_eq_zero_iff (x : Word) : x.toInt = 0 ↔ x = 0 := by
  rw [← BitVec.toInt_inj]
  exact Iff.rfl

theorem ltS_iff (x y : Word) : ltS x y = true ↔ x.toInt < y.toInt := decide_eq_true_iff

theorem ltU_iff (x y : Word) : ltU x y = true ↔ x.toNat < y.toNat := decide_eq_true_iff

theorem not_ltS_iff (x y : Word) : (!ltS x y) = true ↔ y.toInt ≤ x.toInt := by
  rw [Bool.not_eq_true', ← Bool.not_eq_true, ltS_iff, not_lt]

theorem not_ltU_iff (x y : Word) : (!ltU x y) = true ↔ y.toNat ≤ x.toNat := by
  rw [Bool.not_eq_true', ← Bool.not_eq_true, ltU_iff, not_lt]

theorem bitN_beq_one_iff (x : Word) (k : Nat) : (bitN x k == 1) = true ↔ x.getLsbD k = true := by
  rw [beq_iff_eq, bitN_eq_one_iff]

theorem bitN_beq_zero_iff (x : Word) (k : Nat) : (bitN x k == 0) = true ↔ x.getLsbD k = false := by
  rw [beq_iff_eq, bitN_eq_toNat]
  cases x.getLsbD k <;> decide

/-- A word that names no register is ready. -/
theorem ready_nil (s : State) : Ready ⟨[], []⟩ s := by
  refine ⟨rfl, rfl, ?_⟩
  simp [poisonMark, namedRegs]

/-- JALR by its target: in the space, not a multiple of 8, outside the space. -/
theorem execJalr_spec {d a : BitVec 7} {s : State} (imm : BitVec 11) (h : Ready ⟨[.g d, .g a], [.g d]⟩ s) :
    let t : Int := ((rd s a).toNat % 2 ^ 57 : Nat) + 8 * imm.toInt
    (t % 8 = 0 → 0 ≤ t → t < 2 ^ 57 → execJalr d a imm s = .next (goTo t.toNat (wr d (linkOf s) s))) ∧
    (t % 8 ≠ 0 → execJalr d a imm s = .next (takeTrap cMisalign (BitVec.ofInt 64 t) s)) ∧
    (t % 8 = 0 → t < 0 ∨ 2 ^ 57 ≤ t → execJalr d a imm s = .next (takeTrap cAddrOvf (BitVec.ofInt 64 t) s)) := by
  intro t
  have hexec : execJalr d a imm s = if t % 8 ≠ 0 then trap cMisalign (BitVec.ofInt 64 t) s
      else if outside t then trap cAddrOvf (BitVec.ofInt 64 t) s else .next (goTo t.toNat (wr d (linkOf s) s)) :=
    enter_of_ready _ s _ h
  rw [hexec]
  refine ⟨fun h8 h0 h1 => ?_, fun h8 => ?_, fun h8 hout => ?_⟩
  · rw [if_neg (not_not.2 h8), if_neg fun hout => (outside_iff t).1 hout ⟨h0, h1⟩]
  · rw [if_pos h8]
    rfl
  · rw [if_neg (not_not.2 h8), if_pos ((outside_iff t).2 (by omega))]
    rfl

/-! ## Special registers read (R49, R90) -/

theorem ofNat_toNat_mul_eight (x : BitVec 54) : BitVec.ofNat 64 (x.toNat * 8) = x.setWidth 64 <<< 3 := by
  apply BitVec.eq_of_toNat_eq
  have hx := x.isLt
  simp only [BitVec.toNat_ofNat, BitVec.toNat_shiftLeft, BitVec.toNat_setWidth, Nat.shiftLeft_eq]
  omega

theorem foldl_range_four {α : Type} (f : α → Nat → α) (x : α) :
    (List.range 4).foldl f x = f (f (f (f x 0) 1) 2) 3 := rfl

/-- ROTTABn is four entries of 16 bits, the lowest first. -/
theorem rotWord_eq (tab : List (BitVec 16)) (n : Nat) : rotWord tab n =
    (tab[4 * n + 3]?).getD 0 ++ (tab[4 * n + 2]?).getD 0 ++ (tab[4 * n + 1]?).getD 0 ++ (tab[4 * n]?).getD 0 := by
  apply BitVec.eq_of_toNat_eq
  rw [rotWord, foldl_range_four]
  simp only [toNat_append_eq, BitVec.toNat_ofNat, Nat.add_zero]
  generalize (tab[4 * n + 3]?).getD 0 = e3, (tab[4 * n + 2]?).getD 0 = e2, (tab[4 * n + 1]?).getD 0 = e1,
    (tab[4 * n]?).getD 0 = e0
  norm_num
  omega

/-- A ready MFS writes the register's value. -/
theorem execMfs_of_ready {d : BitVec 7} {sr : BitVec 12} {s : State} {v : Word} (h : Ready ⟨[.g d], [.g d]⟩ s)
    (hv : srValue s sr.toNat = some v) : exec (.mfs d sr) s = .next (advance (wr d v s)) := by
  refine outcome_of_ready (rfl : execMfs d sr s = _) h ?_
  simp only [hv]
  rfl

/-! ## The obligations -/

/-- Settles O2, from the count and the bits of each word function. -/
theorem iop2Results : Obligations.Iop2Results := by
  refine ⟨fun d a b s h => ?_, fun d a s h => ?_⟩
  · exact ⟨(retires_of_ready rfl h (smallerU_eq_ofNat_min _ _) : execMinu d a b s = _),
      (retires_of_ready rfl h (largerU_eq_ofNat_max _ _) : execMaxu d a b s = _),
      (retires_of_ready rfl h (mul_eq_ofInt_mul _ _) : execMul d a b s = _),
      (retires_of_ready rfl h rfl : execMulh d a b s = _),
      (retires_of_ready rfl h rfl : execMulhu d a b s = _),
      (retires_of_ready rfl h rfl : execSel d a b s = _)⟩
  · obtain ⟨hclz, hclzBits⟩ := clzW_spec (rd s a)
    obtain ⟨hctz, hctzBits⟩ := ctzW_spec (rd s a)
    exact ⟨⟨_, hclz, (retires_of_ready rfl h rfl : execClz d a s = _), hclzBits⟩,
      ⟨_, hctz, (retires_of_ready rfl h rfl : execCtz d a s = _), hctzBits⟩,
      (retires_of_ready rfl h (congrArg _ (popcW_eq_countP _)) : execPopc d a s = _),
      ⟨_, (retires_of_ready rfl h rfl : execBrev d a s = _), fun _ => getLsbD_brevW _⟩⟩

/-- Settles O5, from the bytes and fields of each word function. -/
theorem pointerAndKeyResults : Obligations.PointerAndKeyResults := by
  refine ⟨fun d a s h => ?_, fun d a b s h => ?_⟩
  · exact ⟨⟨_, (retires_of_ready rfl h rfl : execBswap d a s = _), fun _ => bswapW_byte _⟩,
      (retires_of_ready rfl h (ptag_eq _) : execPtag d a s = _)⟩
  · exact ⟨(retires_of_ready rfl h (mkptr_eq _ _) : execMkptr d a b s = _),
      _, (retires_of_ready rfl h rfl : execVkey d a b s = _),
      vkeyW_zero rfl _, vkeyW_loses rfl _, vkeyW_key rfl _⟩

/-- Settles O7; the index out of the window is the bounds check's. -/
theorem pointerAddAndMovx : Obligations.PointerAddAndMovx := by
  refine ⟨fun d a b imm s h => ?_, fun d a imm s => ⟨fun h => ?_, fun hw hd ha hidx => ?_⟩⟩
  · have hda : Ready ⟨[.g d, .g a], [.g d]⟩ s := ready_mono _ _ s (by simp) h
    have hadd := outcome_of_ready (rfl : execAddp d a b s = _) h rfl
    have haddi := outcome_of_ready (rfl : execAddpi d a imm s = _) hda rfl
    obtain ⟨hin, hout⟩ := addPtr_spec d (rd s a) (rd s b).toInt s
    obtain ⟨hinI, houtI⟩ := addPtr_spec d (rd s a) imm.toInt s
    exact ⟨⟨fun h => hadd.trans (hin h), fun h => hadd.trans (hout h)⟩,
      fun h => haddi.trans (hinI h), fun h => haddi.trans (houtI h)⟩
  · have hx : Ready ⟨[.g d, .g a, .idx a imm], [.idx a imm]⟩ s := ready_mono _ _ s (by simp) h
    exact ⟨(retires_of_ready rfl h rfl : execMovx d a imm s = _),
      outcome_of_ready (rfl : execMovxs d a imm s = _) hx rfl⟩
  · have hb := boundsFault_idx hd ha hidx
    exact ⟨(enter_boundsFault _ hw hb : execMovx d a imm s = _), (enter_boundsFault _ hw hb : execMovxs d a imm s = _)⟩

/-- Settles O10: every branch tests what its condition says. -/
theorem branchAndJumpResults : Obligations.BranchAndJumpResults := by
  refine ⟨fun a b d8 d15 s h => ?_, fun d a d25 d18 imm s h => ?_⟩
  · have ha : Ready ⟨[.g a], []⟩ s := ready_mono _ _ s (by simp) h
    exact ⟨branch_of_ready (rfl : execBeq a b d8 s = _) h beq_iff_eq,
      branch_of_ready (rfl : execBne a b d8 s = _) h bne_iff_ne,
      branch_of_ready (rfl : execBlt a b d8 s = _) h (ltS_iff _ _),
      branch_of_ready (rfl : execBge a b d8 s = _) h (not_ltS_iff _ _),
      branch_of_ready (rfl : execBltu a b d8 s = _) h (ltU_iff _ _),
      branch_of_ready (rfl : execBgeu a b d8 s = _) h (not_ltU_iff _ _),
      branch_of_ready (rfl : execBset a b d8 s = _) h (bitN_beq_one_iff _ _),
      branch_of_ready (rfl : execBclr a b d8 s = _) h (bitN_beq_zero_iff _ _),
      branch_of_ready (rfl : execBeqz a d15 s = _) ha (beq_iff_eq.trans (toInt_eq_zero_iff _).symm),
      branch_of_ready (rfl : execBnez a d15 s = _) ha (bne_iff_ne.trans (not_congr (toInt_eq_zero_iff _)).symm),
      branch_of_ready (rfl : execBltz a d15 s = _) ha (ltS_iff _ _),
      branch_of_ready (rfl : execBgez a d15 s = _) ha (not_ltS_iff _ _),
      branch_of_ready (rfl : execBgtz a d15 s = _) ha (ltS_iff _ _),
      branch_of_ready (rfl : execBlez a d15 s = _) ha (not_ltS_iff _ _)⟩
  · have hd : Ready ⟨[.g d], [.g d]⟩ s := ready_mono _ _ s (by simp) h
    exact ⟨outcome_of_ready (rfl : execJmp d25 s = _) (ready_nil s) rfl,
      outcome_of_ready (rfl : execJal d d18 s = _) hd rfl, execJalr_spec imm h⟩

/-- Settles O12: the value of each register, and how MFS writes it. -/
theorem specialRegisterReads : Obligations.SpecialRegisterReads := by
  intro d s h
  have reads {sr : BitVec 12} {v : Word} (hv : srValue s sr.toNat = some v) := execMfs_of_ready (sr := sr) h hv
  have hnat {n : Nat} (x : BitVec n) : some (BitVec.ofNat 64 x.toNat) = some (x.setWidth 64) := by
    rw [BitVec.ofNat_toNat]
  exact ⟨reads rfl, reads rfl, reads rfl, reads rfl, reads rfl, reads rfl, reads rfl, reads rfl, reads rfl, reads rfl,
    reads rfl, reads (congrArg some (ofNat_toNat_mul_eight _)), reads (congrArg some (ofNat_toNat_mul_eight _)),
    reads (hnat _), reads rfl, reads (hnat _), reads (congrArg some (rotWord_eq _ 0)),
    reads (congrArg some (rotWord_eq _ 1)), reads (congrArg some (rotWord_eq _ 2)),
    reads (congrArg some (rotWord_eq _ 3)), reads (hnat _), reads rfl, reads (hnat _), reads (hnat _), reads rfl,
    reads (hnat _), (retires_of_ready rfl h rfl : execTid d s = _)⟩

end Sys2Proof.Proofs
end

section
/-!
SUPPORT. How a thread ends and what of the package that leaves alone, traps, the fences, BURST, the writes of special
registers and the rotation table (R18, R19, R49, R83 to R88, R124 to R127, R249, R250, R344, R345).
-/

namespace Sys2Proof.Proofs

open Sys2Proof Sys2Proof.Machine Sys2Proof.Laws

/-! ## What the end of a thread leaves alone -/

/-- d is c, but for its status, the cycle it is eligible from and the mark of an abandoned handle. -/
def Unparked (c d : Slot) : Prop := d = { c with st := d.st, elig := d.elig, spurned := d.spurned }

theorem Unparked.trans {c d e : Slot} (h : Unparked c d) (h' : Unparked d e) : Unparked c e := by
  unfold Unparked at *
  calc e = { d with st := e.st, elig := e.elig, spurned := e.spurned } := h'
    _ = _ := by rw [h]

theorem unparked_woken (now : Nat) (p : ParkWhy → Bool) (c : Slot) : Unparked c (woken now p c) := by
  unfold woken
  split
  · split <;> rfl
  · rfl

/-- t is s, but for what the end of a thread may change of the package beside its own slot: handles, the mailbox, engine
commands, claims in the shading cache, and the slots that these wake. -/
structure Tidied (s t : State) : Prop where
  frame : t = { s with
    me := { s.me with
      slots := t.me.slots, handles := t.me.handles, mbox := t.me.mbox, drops := t.me.drops, mq := t.me.mq, xq := t.me.xq,
      la := t.me.la },
    others := t.others, clusters := t.clusters, dies := t.dies }
  slots : ∀ k, Unparked (slotOf s k) (slotOf t k)
  mail : ∀ m ∈ t.me.mbox, m ∈ s.me.mbox

theorem tidied_refl (s : State) : Tidied s s := ⟨rfl, fun _ => rfl, fun _ h => h⟩

theorem Tidied.trans {s t u : State} (h : Tidied s t) (h' : Tidied t u) : Tidied s u := by
  refine ⟨?_, fun k => (h.slots k).trans (h'.slots k), fun m hm => h.mail m (h'.mail m hm)⟩
  have hu := h'.frame
  have ht := h.frame
  rw [ht] at hu
  exact hu

theorem tidied_foldl {α : Type} {f : State → α → State} (hf : ∀ s a, Tidied s (f s a)) (l : List α) (s : State) :
    Tidied s (l.foldl f s) := by
  induction l generalizing s with
  | nil => exact tidied_refl s
  | cons a l ih => exact (hf s a).trans (ih (f s a))

theorem tidied_wake (p : ParkWhy → Bool) (s : State) : Tidied s (wake p s) :=
  ⟨rfl, fun k => by rw [slotOf_wake]; exact unparked_woken _ _ _, fun _ h => h⟩

theorem tidied_wakeAll (p : ParkWhy → Bool) (s : State) : Tidied s (wakeAll p s) :=
  ⟨rfl, fun k => by rw [slotOf_wakeAll]; exact unparked_woken _ _ _, fun _ h => h⟩

theorem tidied_wakeIn (at_ : Nat → Bool) (p : ParkWhy → Bool) (s : State) : Tidied s (wakeIn at_ p s) := by
  refine ⟨?_, fun k => ?_, fun m hm => ?_⟩
  · unfold wakeIn
    split <;> rfl
  · rw [slotOf_wakeIn]
    split
    · exact unparked_woken _ _ _
    · rfl
  · revert hm
    unfold wakeIn
    split <;> exact id

theorem tidied_hSet (h : Nat) (v : Handle) (s : State) : Tidied s (hSet h v s) :=
  Tidied.trans (t := { s with me := { s.me with handles := spSet freeHandle s.me.handles h v } })
    ⟨rfl, fun _ => rfl, fun _ h => h⟩ (tidied_wake _ _)

/-- The mark of an abandoned handle on one slot. -/
def spurnSlot (h : Nat) (c : Slot) : Slot :=
  match c.st with
  | .parked (.handle j) => if j = h then { c with spurned := some h } else c
  | _ => c

theorem unparked_spurnSlot (h : Nat) (c : Slot) : Unparked c (spurnSlot h c) := by
  unfold spurnSlot
  split
  · split <;> rfl
  · rfl

theorem slotOf_hSpurn (h : Nat) (s : State) (k : Nat) : slotOf (hSpurn h s) k = spurnSlot h (slotOf s k) := by
  rw [slotOf, slotOf, ← spGet_mapVal emptySlot (spurnSlot h) rfl]
  congr 1
  unfold hSpurn
  apply List.map_congr_left
  intro e _
  cases hst : e.2.st <;> simp only [spurnSlot, hst]
  case parked w => cases w <;> simp only; split <;> rfl

theorem tidied_hSpurn (h : Nat) (s : State) : Tidied s (hSpurn h s) :=
  ⟨rfl, fun k => by rw [slotOf_hSpurn]; exact unparked_spurnSlot _ _, fun _ h => h⟩

theorem tidied_hAbandonOne (h : Nat) (s : State) : Tidied s (hAbandonOne h s) := by
  unfold hAbandonOne hFree
  split
  · exact (tidied_hSpurn h s).trans (tidied_hSet _ _ _)
  · exact tidied_hSet _ _ _

theorem tidied_hAbandon (k : Nat) (s : State) : Tidied s (hAbandon k s) :=
  tidied_foldl (fun s h => tidied_hAbandonOne h s) _ s

theorem tidied_dropMail (k : Nat) (s : State) : Tidied s (dropMail k s) := by
  unfold dropMail mailboxFreed
  dsimp only
  split
  · exact tidied_refl s
  · exact Tidied.trans (t := addDrops _ { s with me := { s.me with mbox := s.me.mbox.filter fun m => !isFor k m } })
      ⟨rfl, fun _ => rfl, fun m hm => List.mem_of_mem_filter hm⟩ (tidied_wakeAll _ _)

theorem isFor_of_mem_dropMail {k : Nat} {s : State} {m : Message} (h : m ∈ (dropMail k s).me.mbox) : isFor k m = false := by
  unfold dropMail mailboxFreed at h
  dsimp only at h
  split at h
  case isTrue hnone =>
    rw [List.isEmpty_iff, List.filter_eq_nil_iff] at hnone
    exact Bool.eq_false_iff.2 (hnone m h)
  case isFalse =>
    simpa using (List.mem_filter.1 h).2

theorem tidied_dropClaimsIn (thread c : Nat) (s : State) : Tidied s (dropClaimsIn thread c s) := by
  unfold dropClaimsIn
  dsimp only
  split
  · exact tidied_refl s
  · exact Tidied.trans (t := setCluster c _ s) ⟨rfl, fun _ => rfl, fun _ h => h⟩ (tidied_wakeIn _ _ _)

theorem tidied_dropClaims (thread : Nat) (migrated : Bool) (s : State) : Tidied s (dropClaims thread migrated s) := by
  unfold dropClaims
  split
  · exact tidied_foldl (fun s (e : Nat × Cluster) => tidied_dropClaimsIn thread e.1 s) _ s
  · exact tidied_dropClaimsIn _ _ s

theorem tidied_disownEngines (k : Nat) (s : State) : Tidied s (disownEngines k s) := ⟨rfl, fun _ => rfl, fun _ h => h⟩

/-- The package before slot k is emptied. -/
def settled (k : Nat) (s : State) : State :=
  disownEngines k (dropClaims (slotOf s k).thread (slotOf s k).migrated (dropMail k (hAbandon k s)))

theorem tidied_settled (k : Nat) (s : State) : Tidied s (settled k s) :=
  (((tidied_hAbandon k s).trans (tidied_dropMail k _)).trans (tidied_dropClaims _ _ _)).trans (tidied_disownEngines k _)

theorem endSlot_eq (k : Nat) (s : State) : endSlot k s = setSlot k (vacated (slotOf s k))
    { settled k s with me := { (settled k s).me with
        pool := spClear (settled k s).me.pool (slotOf s k).winBase (slotOf s k).winSize
        itlb := (settled k s).me.itlb.filter fun e => e.slot != k
        dtlb := (settled k s).me.dtlb.filter fun e => e.slot != k
        posted := disown k (settled k s).me.posted } } := rfl

theorem slotOf_endSlot_same (k : Nat) (s : State) : slotOf (endSlot k s) k = vacated (slotOf s k) := by
  rw [endSlot_eq, slotOf_setSlot_same]

theorem slotOf_endSlot_other (k j : Nat) (s : State) (h : j ≠ k) : Unparked (slotOf s j) (slotOf (endSlot k s) j) := by
  rw [endSlot_eq, slotOf_setSlot_other _ _ _ _ h]
  exact (tidied_settled k s).slots j

/-- The end of a thread, but for what it tidies and its own slot: its pool words, its TLB entries, its posted stores. -/
theorem endSlot_frame (k : Nat) (s : State) : endSlot k s = { s with
    me := { s.me with
      slots := (endSlot k s).me.slots, handles := (endSlot k s).me.handles, mbox := (endSlot k s).me.mbox,
      drops := (endSlot k s).me.drops, mq := (endSlot k s).me.mq, xq := (endSlot k s).me.xq, la := (endSlot k s).me.la,
      pool := spClear s.me.pool (slotOf s k).winBase (slotOf s k).winSize,
      itlb := s.me.itlb.filter fun e => e.slot != k,
      dtlb := s.me.dtlb.filter fun e => e.slot != k,
      posted := disown k s.me.posted },
    others := (endSlot k s).others, clusters := (endSlot k s).clusters, dies := (endSlot k s).dies } := by
  have h := (tidied_settled k s).frame
  rw [endSlot_eq]
  generalize settled k s = t at h ⊢
  rw [h]
  rfl

theorem isFor_of_mem_endSlot {k : Nat} {s : State} {m : Message} (h : m ∈ (endSlot k s).me.mbox) : isFor k m = false := by
  have htidy := (tidied_dropClaims (slotOf s k).thread (slotOf s k).migrated (dropMail k (hAbandon k s))).trans
    (tidied_disownEngines k _)
  exact isFor_of_mem_dropMail (htidy.mail m h)

theorem spGet_of_no_key {α : Type} (d : α) (m : Sp α) (k : Nat) (h : ∀ e ∈ m, e.1 ≠ k) : spGet d m k = d := by
  induction m with
  | nil => rfl
  | cons e m ih =>
    rw [spGet, if_neg fun hk => h e List.mem_cons_self hk.symm]
    exact ih fun e' he' => h e' (List.mem_cons_of_mem e he')

theorem spGet_clear {α : Type} (d : α) (m : Sp α) (base n j : Nat) (h : j < n) :
    spGet d (spClear m base n) (base + j) = d := by
  apply spGet_of_no_key
  intro e he
  have hout := (List.mem_filter.1 he).2
  simp only [Bool.not_eq_true', Bool.and_eq_false_iff, decide_eq_false_iff_not] at hout
  omega

/-! ## SYS words and fences (R83 to R88, R249, R250) -/

/-- What END, a fence or WAITRX does in a slot without a mark. -/
theorem outcome_of_unmarked {o r : Out State} {s : State} {k : State → Out State} (ho : o = enterReporting ⟨[], []⟩ s k)
    (h : Unmarked s) (hk : k s = r) : o = r := by
  rw [ho, enterReporting_of_unmarked s k h, hk]

theorem hasTraining_iff (s : State) (k : Nat) :
    hasTraining s k = true ↔ ∃ q ∈ s.me.la.queue, q.record = none ∧ q.live = true ∧ q.slot = k := by
  simp [hasTraining, and_assoc]

theorem relaxed_count_eq_zero_iff (s : State) (k : Nat) :
    (s.me.relaxed.filter fun a => a.slot == k).length = 0 ↔ hasRelaxed s k = false := by
  rw [List.length_eq_zero_iff, List.filter_eq_nil_iff, hasRelaxed, List.any_eq_false]

/-- A fence retires once its condition holds, and waits before that. -/
theorem fence_spec {o : Out State} {s : State} {kind n : Nat} {done : Prop}
    (ho : o = enterReporting ⟨[], []⟩ s fun s => fence kind n s) (h : Unmarked s)
    (hdone : done ↔ fenceDone s s.iss.slot kind n = true) :
    (done → o = .next (advance s)) ∧
    (¬done → o = .next (setRes .waiting (onCur (fun c => { c with st := .waiting (.fence kind n) }) s))) := by
  refine ⟨fun hd => outcome_of_unmarked ho h ?_, fun hd => outcome_of_unmarked ho h ?_⟩
  · rw [fence, if_pos (hdone.1 hd)]
    rfl
  · rw [fence, if_neg (mt hdone.2 hd)]
    rfl

theorem fenceDone_sys_iff (s : State) (k : Nat) :
    ((s.me.relaxed.filter fun a => a.slot == k).length = 0 ∧ hasEngine s k = false ∧
      ∀ p ∈ s.me.posted, p.live = true → p.slot ≠ k) ↔ fenceDone s k 2 0 = true := by
  rw [relaxed_count_eq_zero_iff]
  simp [fenceDone, and_assoc]

theorem popDelay_eq (s : State) : ∃ n ds, popDelay s = (n, { s with delays := ds }) := by
  unfold popDelay
  split
  · exact ⟨_, _, rfl⟩
  · exact ⟨_, _, rfl⟩

/-- A step of the matrix engine that issues changes LEVEL, the step in flight and the model's schedule. -/
theorem mxTryIssue_frame (s : State) : mxTryIssue s = { s with
    me := { s.me with level := (mxTryIssue s).me.level, inFlight := (mxTryIssue s).me.inFlight }
    delays := (mxTryIssue s).delays } := by
  obtain ⟨n, ds, hpop⟩ := popDelay_eq s
  unfold mxTryIssue
  split
  · split
    · rfl
    · split
      · dsimp only
        split
        · rw [hpop]
        · rfl
      · dsimp only
        rw [hpop]
  · rfl

/-- BURST by the engine's power state, before it retires. -/
def burstState (s : State) : State :=
  match s.me.power with
  | .cold => kindleFor 64 s
  | .quench stop => mxTryIssue (rekindle stop s)
  | _ => s

theorem burstState_frame (s : State) : burstState s = { s with
    me := { s.me with
      power := (burstState s).me.power, level := (burstState s).me.level, inFlight := (burstState s).me.inFlight },
    delays := (burstState s).delays } := by
  unfold burstState
  split
  · rfl
  · rw [mxTryIssue_frame]
    rfl
  · rfl

theorem burstState_power (s : State) : (burstState s).me.power = match s.me.power with
    | .cold => .kindle (s.clock + 64)
    | .quench stop => if 64 ≤ stop - s.clock then .hot else .kindle (s.clock + (64 - (stop - s.clock)))
    | _ => s.me.power := by
  unfold burstState
  cases hp : s.me.power with
  | quench stop =>
    simp only
    rw [mxTryIssue_frame]
    simp only [rekindle, kindleFor]
    congr 1
    rw [eq_iff_iff]
    omega
  | cold => rfl
  | hot => exact hp
  | kindle stop => exact hp

theorem advance_me (s : State) : (advance s).me = { s.me with slots := (advance s).me.slots } := rfl

/-! ## Traps (R124 to R127) -/

theorem hdrType_mkHdr (seq type score sslot dcore dslot : Nat) (dk nc : Bool) :
    hdrType (mkHdr seq type score sslot dcore dslot dk nc) = type % 2 ^ 8 := by
  have hd := dk.toNat_lt
  have hn := nc.toNat_lt
  simp only [hdrType, mkHdr, BitVec.toNat_ofNat]
  omega

theorem hdrCore_mkHdr (seq type score sslot dcore dslot : Nat) (dk nc : Bool) :
    hdrCore (mkHdr seq type score sslot dcore dslot dk nc) = dcore % 2 ^ 12 := by
  have hd := dk.toNat_lt
  have hn := nc.toNat_lt
  simp only [hdrCore, mkHdr, BitVec.toNat_ofNat]
  omega

theorem hdrSlot_mkHdr (seq type score sslot dcore dslot : Nat) (dk nc : Bool) :
    hdrSlot (mkHdr seq type score sslot dcore dslot dk nc) = dslot % 16 := by
  have hd := dk.toNat_lt
  have hn := nc.toNat_lt
  simp only [hdrSlot, mkHdr, BitVec.toNat_ofNat]
  omega

theorem sendNet_frame (m : Message) (held : Bool) (s : State) :
    sendNet m held s = { s with net := (sendNet m held s).net, delays := (sendNet m held s).delays } := by
  obtain ⟨n, ds, hpop⟩ := popDelay_eq s
  rw [sendNet, hpop]

theorem mem_sendNet (m : Message) (held : Bool) (s : State) : ∃ n ∈ (sendNet m held s).net, n.msg = m := by
  unfold sendNet
  exact ⟨_, List.mem_append_right _ List.mem_cons_self, rfl⟩

theorem slotOf_endFault (k j : Nat) (s : State) : slotOf (endFault k s) j = slotOf (endSlot k s) j := by
  rw [endFault, sendPrincipal, sendNet_frame]
  rfl

theorem endFault_mem (k : Nat) (s : State) : (endFault k s).mem = s.mem := by
  rw [endFault, sendPrincipal, sendNet_frame, endSlot_frame]

theorem endFault_iss (k : Nat) (s : State) : (endFault k s).iss = s.iss := by
  rw [endFault, sendPrincipal, sendNet_frame, endSlot_frame]

/-- A trap without a handler, once no relaxed access is outstanding: the thread ends and is reported (R127). -/
theorem takeTrap_endFault (cause : BitVec 5) (v : Word) (s : State) (h : (cur s).tvec = 0)
    (hr : hasRelaxed s s.iss.slot = false) :
    takeTrap cause v s = endFault s.iss.slot (setRes .trapped (onCur (trapRegs s.iss cause v) s)) := by
  have hc : cur (setRes .trapped (onCur (trapRegs s.iss cause v) s)) = trapRegs s.iss cause v (cur s) := by simp
  have htvec : (trapRegs s.iss cause v (cur s)).tvec = 0 := h
  have hrel : ¬hasRelaxed (setRes .trapped (onCur (trapRegs s.iss cause v) s)) s.iss.slot = true := by
    rw [Bool.not_eq_true]
    exact hr
  unfold takeTrap
  simp only [hc, if_pos htvec]
  exact if_neg hrel

/-- The slot whose issue takes a trap, before the handler or the thread's end. -/
theorem slotOf_trapRegs (cause : BitVec 5) (v : Word) (s : State) :
    slotOf (setRes .trapped (onCur (trapRegs s.iss cause v) s)) s.iss.slot = trapRegs s.iss cause v (cur s) := by
  rw [slotOf_setRes]
  exact cur_onCur _ s

/-- The place of a fault in words is the byte address of its pair. -/
theorem shift_place (x : BitVec 54) : BitVec.ofNat 64 (x.toNat * 8) = x.setWidth 64 <<< 3 := by
  apply BitVec.eq_of_toNat_eq
  have := x.isLt
  rw [BitVec.toNat_ofNat, BitVec.toNat_shiftLeft, BitVec.toNat_setWidth, Nat.shiftLeft_eq, Nat.mod_eq_of_lt (a := x.toNat) (by omega)]

/-- Taking a trap with a handler (R124, R125). -/
theorem takeTrap_handler_spec (cause : BitVec 5) (v : Word) {s : State} (h : (cur s).tvec ≠ 0) :
    let t := takeTrap cause v s
    let c := cur t
    c.tpc = BitVec.ofNat 54 (s.iss.pa / 8) ∧ c.tpair = BitVec.ofNat 1 s.iss.word ∧ c.tcause = cause ∧ c.tval = v ∧
    c.pa = 8 * (cur s).tvec.toNat ∧ c.widx = 0 ∧ c.st = .runnable ∧ c.tvec = (cur s).tvec ∧
    c.winBase = (cur s).winBase ∧ c.winSize = (cur s).winSize ∧ c.thread = (cur s).thread ∧ c.prv = (cur s).prv ∧
    (∀ k, k ≠ s.iss.slot → slotOf t k = slotOf s k) ∧
    t = { s with me := { s.me with slots := t.me.slots }, iss := { s.iss with res := .trapped } } := by
  intro t c
  obtain ⟨-, -, -, hothers⟩ := takeTrap_handler_frame cause v s h
  have hc : c = { trapRegs s.iss cause v (cur s) with pa := (cur s).tvec.toNat * 8, widx := 0 } := by
    show cur (takeTrap cause v s) = _
    rw [takeTrap_handler _ _ _ h, cur_onCur, cur_setRes, cur_onCur]
    rfl
  have ht : t = { s with me := { s.me with slots := t.me.slots }, iss := { s.iss with res := .trapped } } := by
    have hrun : t = _ := takeTrap_handler cause v s h
    rw [hrun]
    rfl
  rw [hc]
  exact ⟨rfl, rfl, rfl, rfl, Nat.mul_comm _ _, rfl, rfl, rfl, rfl, rfl, rfl, rfl, hothers, ht⟩

/-- A trap without a handler ends the thread and reports it to the principal (R127). -/
theorem takeTrap_fault_spec (cause : BitVec 5) (v : Word) {s : State} (h : (cur s).tvec = 0)
    (hr : hasRelaxed s s.iss.slot = false) :
    let t := takeTrap cause v s
    slotOf t s.iss.slot = vacated (cur s) ∧ t.mem = s.mem ∧
    ∃ n : NetMsg, n ∈ t.net ∧ hdrType n.msg.hdr = 0xF1 ∧ hdrCore n.msg.hdr = 384 * (s.me.num / 384) % 2 ^ 12 ∧
      hdrSlot n.msg.hdr = 15 ∧
      n.msg.body = [BitVec.ofNat 64 (cur s).thread, (BitVec.ofNat 54 (s.iss.pa / 8)).setWidth 64 <<< 3,
        (BitVec.ofNat 1 s.iss.word).setWidth 64, cause.setWidth 64, v, BitVec.ofNat 64 (s.me.num * 16 + s.iss.slot), 0] := by
  intro t
  have ht : t = endFault s.iss.slot (setRes .trapped (onCur (trapRegs s.iss cause v) s)) := takeTrap_endFault cause v s h hr
  have hslot := slotOf_trapRegs cause v s
  have hmem : (setRes .trapped (onCur (trapRegs s.iss cause v) s)).mem = s.mem := rfl
  have hnum : (setRes .trapped (onCur (trapRegs s.iss cause v) s)).me.num = s.me.num := rfl
  generalize setRes .trapped (onCur (trapRegs s.iss cause v) s) = u at *
  rw [ht]
  refine ⟨?_, (endFault_mem _ u).trans hmem, ?_⟩
  · rw [slotOf_endFault, slotOf_endSlot_same, hslot]
    rfl
  · have hend : (endSlot s.iss.slot u).me.num = u.me.num := by rw [endSlot_frame]
    have hsent : ∃ n ∈ (endFault s.iss.slot u).net, n.msg =
        ⟨mkHdr 0 0xF1 (endSlot s.iss.slot u).me.num s.iss.slot (principalCore (myDie u)) 15 true false,
          faultBody u s.iss.slot (slotOf u s.iss.slot), 0, 0⟩ := mem_sendNet _ false _
    obtain ⟨n, hn, hmsg⟩ := hsent
    refine ⟨n, hn, ?_⟩
    rw [hmsg]
    refine ⟨hdrType_mkHdr _ _ _ _ _ _ _ _, ?_, hdrSlot_mkHdr _ _ _ _ _ _ _ _, ?_⟩
    · refine (hdrCore_mkHdr _ _ _ _ _ _ _ _).trans ?_
      rw [myDie, hnum]
      rfl
    · show faultBody u s.iss.slot (slotOf u s.iss.slot) = _
      rw [faultBody, hslot, hnum]
      dsimp only [trapRegs]
      rw [shift_place]

/-- Whatever becomes of the thread, the issue has come to a trap. -/
theorem takeTrap_res (cause : BitVec 5) (v : Word) (s : State) : (takeTrap cause v s).iss.res = .trapped := by
  unfold takeTrap
  dsimp only
  split
  · split
    · rfl
    · rw [endFault_iss]
      rfl
  · rfl

/-- Whatever the checks before a word's own effect find, it waits for registers, traps or runs. -/
theorem enterWith_waits_traps_or_runs (u : Uses) (w : Option Word) (r : Bool) (s : State) (k : State → Out State) :
    enterWith u w r s k = waitFor (.regs (awaited s u)) s ∨ (∃ cause v s', enterWith u w r s k = trap cause v s') ∨
    enterWith u w r s k = k s := by
  rcases enterWith_cases u w r s k with h | ⟨v, -, h⟩ | ⟨v, -, -, h⟩ | ⟨p, -, h⟩ | ⟨-, -, -, h⟩
  · exact .inl h
  · exact .inr (.inl ⟨_, _, _, h⟩)
  · exact .inr (.inl ⟨_, _, _, h⟩)
  · exact .inr (.inl ⟨_, _, _, h⟩)
  · exact .inr (.inr h)

/-! ## Writes of special registers (R49) -/

/-- MTS in bounds with every register awaited, and with privilege where the register needs it. -/
theorem execMts_of_ready {d : BitVec 7} {sr : BitVec 12} {s : State} (h : Ready ⟨[.g d], []⟩ s)
    (hp : privSr sr.toNat = false ∨ (cur s).prv = true) :
    execMts d sr s = mtsEffect sr.toNat (rd s d) (patternOf (.mts d sr) s) s := by
  rcases hp with hp | hp
  · have hno : (if privSr sr.toNat = true then some (patternOf (.mts d sr) s) else none) = none := by simp [hp]
    rw [execMts, hno]
    exact enter_of_ready _ s _ h
  · exact enterWith_of_ready_prv _ s _ _ h hp

theorem mtsStep_of_ready {sr : BitVec 12} {s : State} (v : Word) (hp : privSr sr.toNat = false ∨ (cur s).prv = true) :
    mtsStep sr v s = mtsEffect sr.toNat v (patternOf (.mts 0 sr) s) s := by
  rcases hp with hp | hp
  · have hno : (if privSr sr.toNat = true then some (patternOf (.mts 0 sr) s) else none) = none := by simp [hp]
    rw [mtsStep, hno]
    exact enter_of_ready _ s _ (ready_nil s)
  · exact enterWith_of_ready_prv _ s _ _ (ready_nil s) hp

/-- MTS, and the step that names the register, where the register's effect does not look at the word's pattern. -/
theorem mts_does {d : BitVec 7} {sr : BitVec 12} {s t : State} {named : Instr} (h : Ready ⟨[.g d], []⟩ s)
    (hp : privSr sr.toNat = false ∨ (cur s).prv = true) (hnamed : exec named s = mtsStep sr (rd s d) s)
    (heff : ∀ p, mtsEffect sr.toNat (rd s d) p s = .next t) :
    exec (.mts d sr) s = .next t ∧ (Ready ⟨[], []⟩ s → exec named s = .next t) :=
  ⟨(execMts_of_ready h hp).trans (heff _), fun _ => hnamed.trans ((mtsStep_of_ready _ hp).trans (heff _))⟩

theorem bits_one_beq (v : Word) (k : Nat) : (bits v k 1 == 1) = v.getLsbD k := by
  have hbit := bitN_eq_one_iff v k
  rw [Bool.eq_iff_iff, beq_iff_eq]
  exact hbit

/-- The bits of a ROTTAB value that no entry uses (R16). -/
theorem rotReserved_getLsbD :
    ∀ i < 64, (0x7FF07FF07FF07FF0 : Word).getLsbD i = (decide (4 ≤ i % 16) && decide (i % 16 < 15)) := by decide

theorem rotEntries_clear_iff (v : Word) :
    (∀ j < 4, (v.extractLsb' (16 * j) 16).extractLsb' 4 11 = 0) ↔ v &&& 0x7FF07FF07FF07FF0 = 0 := by
  refine ⟨fun h => ?_, fun h j hj => ?_⟩
  · apply BitVec.eq_of_getLsbD_eq
    intro i hi
    rw [BitVec.getLsbD_and, rotReserved_getLsbD i hi]
    by_cases hin : 4 ≤ i % 16 ∧ i % 16 < 15
    · have hentry := congrArg (BitVec.getLsbD · (i % 16 - 4)) (h (i / 16) (by omega))
      have h1 : i % 16 - 4 < 11 := by omega
      have h2 : 4 + (i % 16 - 4) < 16 := by omega
      have h3 : 16 * (i / 16) + (4 + (i % 16 - 4)) = i := by omega
      have hbit : v.getLsbD i = false := by simpa [BitVec.getLsbD_extractLsb', h1, h2, h3] using hentry
      rw [hbit, Bool.false_and]
      exact BitVec.getLsbD_zero.symm
    · have hmask : (decide (4 ≤ i % 16) && decide (i % 16 < 15)) = false := by
        simpa only [Bool.and_eq_false_iff, decide_eq_false_iff_not, ← not_and_or] using hin
      rw [hmask, Bool.and_false]
      exact BitVec.getLsbD_zero.symm
  · apply BitVec.eq_of_getLsbD_eq
    intro i hi
    have hbit : (v &&& 0x7FF07FF07FF07FF0).getLsbD (16 * j + (4 + i)) = (0 : Word).getLsbD (16 * j + (4 + i)) := by rw [h]
    rw [BitVec.getLsbD_and, rotReserved_getLsbD (16 * j + (4 + i)) (by omega)] at hbit
    have h1 : 4 + i < 16 := by omega
    have h2 : 4 ≤ (16 * j + (4 + i)) % 16 ∧ (16 * j + (4 + i)) % 16 < 15 := by omega
    rw [decide_eq_true h2.1, decide_eq_true h2.2, Bool.and_self, Bool.and_true] at hbit
    simpa [BitVec.getLsbD_extractLsb', hi, h1] using hbit

theorem rotEntries_any_iff (v : Word) :
    ((rotEntries v).any fun e => e.extractLsb' 4 11 != 0) = true ↔ v &&& 0x7FF07FF07FF07FF0 ≠ 0 := by
  rw [ne_eq, ← rotEntries_clear_iff]
  simp [rotEntries]

theorem mtsTvec_eq (tpc : Bool) (v : Word) (s : State) : mtsTvec tpc v s = if v.toNat % 8 ≠ 0 then trap cIllegal v s
    else retire (onCur (fun c => if tpc then { c with tpc := v.extractLsb' 3 54 } else { c with tvec := v.extractLsb' 3 54 }) s) :=
  rfl

/-- The special registers that MTS may not write (R49). -/
theorem mtsEffect_of_readOnly {sr : BitVec 12}
    (h : sr ∈ [0x000, 0x001, 0x002, 0x003, 0x004, 0x005, 0x010, 0x011, 0x012, 0x020, 0x021, 0x032, 0x033]) (v p : Word)
    (s : State) : privSr sr.toNat = false ∧ mtsEffect sr.toNat v p s = trap cIllegal p s := by
  simp only [List.mem_cons, List.not_mem_nil, or_false] at h
  rcases h with rfl | rfl | rfl | rfl | rfl | rfl | rfl | rfl | rfl | rfl | rfl | rfl | rfl <;> exact ⟨rfl, rfl⟩

theorem privSr_of_mem : ∀ sr ∈ ([0x040, 0x041, 0x042, 0x043, 0x044, 0x050, 0x051, 0x060, 0x080] : List (BitVec 12)),
    privSr sr.toNat = true := by decide

/-- An MTS to TBLCFG that R323 accepts. -/
def TblCfgGood (v : Word) : Prop := v.toNat < 2 ^ 27 ∧ (v.getLsbD 15 = true → v.extractLsb' 8 7 ≠ 0) ∧
  (v.getLsbD 23 = true → v.extractLsb' 16 7 ≠ 0) ∧
  ¬(v.getLsbD 15 = true ∧ v.getLsbD 23 = true ∧ v.extractLsb' 8 7 = v.extractLsb' 16 7)

theorem not_tblCfgGood_iff (v : Word) : ¬TblCfgGood v ↔
    2 ^ 27 ≤ v.toNat ∨ (v.getLsbD 15 = true ∧ v.extractLsb' 8 7 = 0) ∨ (v.getLsbD 23 = true ∧ v.extractLsb' 16 7 = 0) ∨
      (v.getLsbD 15 = true ∧ v.getLsbD 23 = true ∧ v.extractLsb' 8 7 = v.extractLsb' 16 7) := by
  rw [TblCfgGood, ← not_lt]
  generalize (v.toNat < 2 ^ 27) = inRange, v.getLsbD 15 = infV, v.getLsbD 23 = nanV
  cases infV <;> cases nanV <;> simp <;> tauto

theorem mtsTblcfg_spec (v : Word) (s : State) :
    (TblCfgGood v → mtsTblcfg v s = .next (advance { s with me := { s.me with table := { s.me.table with
      infV := v.getLsbD 15, infC := v.extractLsb' 8 7, nanV := v.getLsbD 23, nanC := v.extractLsb' 16 7 } } })) ∧
    (¬TblCfgGood v → mtsTblcfg v s = .next (takeTrap cIllegal v s)) := by
  unfold mtsTblcfg
  simp only [bits_one_beq]
  refine ⟨fun h => ?_, fun h => ?_⟩
  · rw [if_neg (mt (not_tblCfgGood_iff v).2 (not_not.2 h))]
    rfl
  · rw [if_pos ((not_tblCfgGood_iff v).1 h)]
    rfl

theorem mtsRottab_spec (n : Nat) (v : Word) (s : State) :
    (v &&& 0x7FF07FF07FF07FF0 = 0 → mtsRottab n v s = .next (advance { s with me := { s.me with
      shadow := s.me.shadow.take (4 * n) ++
        [v.extractLsb' 0 16, v.extractLsb' 16 16, v.extractLsb' 32 16, v.extractLsb' 48 16] ++
        s.me.shadow.drop (4 * n + 4) } })) ∧
    (v &&& 0x7FF07FF07FF07FF0 ≠ 0 → mtsRottab n v s = .next (takeTrap cIllegal v s)) := by
  unfold mtsRottab
  refine ⟨fun h => ?_, fun h => ?_⟩
  · rw [if_neg (mt (rotEntries_any_iff v).1 (not_not.2 h))]
    rfl
  · rw [if_pos ((rotEntries_any_iff v).2 h)]
    rfl

theorem mtsRotpol_spec (v : Word) (s : State) :
    (v.toNat ≤ 1 → rotFault s.me.shadow = none → mtsRotpol v s = .next (advance { s with me := { s.me with
      rotPend := some (if s.ctx.fixed then 0 else v.setWidth 1, s.me.shadow) } })) ∧
    (1 < v.toNat → mtsRotpol v s = .next (takeTrap cIllegal v s)) ∧
    (∀ p, v.toNat ≤ 1 → rotFault s.me.shadow = some p → mtsRotpol v s = .next (takeTrap cIllegal (BitVec.ofNat 64 p) s)) := by
  unfold mtsRotpol
  refine ⟨fun h hf => ?_, fun h => ?_, fun p h hf => ?_⟩
  · rw [if_neg (by omega), hf]
    rfl
  · rw [if_pos (by omega)]
    rfl
  · rw [if_neg (by omega), hf]
    rfl

theorem mtsEbudget_spec (v : Word) (s : State) :
    (8 ≤ v.toNat / 2 ^ 32 → v.toNat % 2 ^ 32 ≤ v.toNat / 2 ^ 32 → mtsEbudget v s = .next (advance { s with me := { s.me with
      cap := v.extractLsb' 32 32, level := v.extractLsb' 0 32, mq := waitingStep s } })) ∧
    (v.toNat / 2 ^ 32 < 8 ∨ v.toNat / 2 ^ 32 < v.toNat % 2 ^ 32 → mtsEbudget v s = .next (takeTrap cIllegal v s)) := by
  have hv := v.isLt
  have hcap : (v.extractLsb' 32 32).toNat = v.toNat / 2 ^ 32 := by
    rw [toNat_extractLsb'_eq]
    omega
  have hlevel : (v.extractLsb' 0 32).toNat = v.toNat % 2 ^ 32 := by
    rw [toNat_extractLsb'_eq]
    omega
  simp only [mtsEbudget, hcap, hlevel]
  refine ⟨fun h h' => ?_, fun h => ?_⟩
  · rw [if_neg (by omega)]
    rfl
  · rw [if_pos h]
    rfl

theorem waitingStep_same {s : State} (h : s.me.mq = [] ∨ s.me.inFlight ≠ none) : waitingStep s = s.me.mq := by
  unfold waitingStep
  rcases h with h | h
  · rw [h]
  · cases hf : s.me.inFlight
    · exact absurd hf h
    · cases s.me.mq <;> rfl

/-! ## The rotation table (R18, R19) -/

/-- In a table without a fault, an entry that names a slot named before it stands 8 positions after that one. -/
theorem rotFault_spaced {tab : List (BitVec 16)} (hlen : tab.length = 16) (h : rotFault tab = none) {p q : Nat}
    {e f : BitVec 16} (hpq : p < q) (hp : tab[p]? = some e) (hq : tab[q]? = some f) (hev : e.getLsbD 15 = true)
    (hfv : f.getLsbD 15 = true) (hslot : e.extractLsb' 0 4 = f.extractLsb' 0 4) : q = p + 8 := by
  have hq16 : q < 16 := hlen ▸ (List.getElem?_eq_some_iff.1 hq).1
  have htop (x : BitVec 16) (hx : x.getLsbD 15 = true) : x.toNat / 2 ^ 15 = 1 := by
    have hmsb : x.msb = true := hx
    rw [BitVec.msb_eq_decide, decide_eq_true_eq] at hmsb
    have := x.isLt
    omega
  have hnum : e.toNat % 16 = f.toNat % 16 := by
    have := congrArg BitVec.toNat hslot
    simpa [toNat_extractLsb'_eq] using this
  have hbreaks : rotBreaks tab q = false := by
    simpa using List.find?_eq_none.1 h q (List.mem_range.2 hq16)
  have hmem : p ∈ (List.range q).filter fun r => namesSlot ((tab[r]?).getD 0) (((tab[q]?).getD 0).toNat % 16) := by
    rw [List.mem_filter, List.mem_range, hp, hq]
    exact ⟨hpq, by rw [Option.getD_some, Option.getD_some, namesSlot, htop e hev, hnum, beq_self_eq_true, beq_self_eq_true]; rfl⟩
  have hv : (((tab[q]?).getD 0).toNat / 2 ^ 15 == 1) = true := by
    rw [hq]
    exact beq_iff_eq.2 (htop f hfv)
  unfold rotBreaks at hbreaks
  simp only [hv, Bool.true_and] at hbreaks
  split at hbreaks
  case h_1 hnil => rw [hnil] at hmem; cases hmem
  case h_2 r hone =>
    rw [hone, List.mem_singleton] at hmem
    have : r + 8 = q := by simpa using hbreaks
    omega
  case h_3 => cases hbreaks

/-- A ROTPOL write that retires has put the shadow table in waiting, which breaks no rule. -/
theorem execMts_rotpol_retired {d : BitVec 7} {s t : State} (h : exec (.mts d 0x044) s = .next t)
    (hr : t.iss.res = .retired) : rotFault s.me.shadow = none ∧ ∃ pol, t.me.rotPend = some (pol, s.me.shadow) := by
  have trapped {cause : BitVec 5} {v : Word} {s' : State} (h : trap cause v s' = .next t) : False := by
    cases h
    rw [takeTrap_res] at hr
    cases hr
  have heff : mtsRotpol (rd s d) s = .next t := by
    rcases enterWith_waits_traps_or_runs ⟨[.g d], []⟩ _ false s
      (fun s => mtsEffect 0x044 (rd s d) (patternOf (.mts d 0x044) s) s) with hw | ⟨cause, v, s', hv⟩ | hk
    · have ht := hw.symm.trans h
      cases ht
      cases hr
    · exact (trapped (hv.symm.trans h)).elim
    · exact hk.symm.trans h
  obtain ⟨hok, hbad, hfault⟩ := mtsRotpol_spec (rd s d) s
  by_cases hv : (rd s d).toNat ≤ 1
  · cases hf : rotFault s.me.shadow with
    | some p => exact (trapped ((hfault p hv hf).symm.trans heff)).elim
    | none =>
      have ht := (hok hv hf).symm.trans heff
      cases ht
      exact ⟨rfl, _, rfl⟩
  · exact (trapped ((hbad (not_le.1 hv)).symm.trans heff)).elim

/-- The end of a thread, as END's retirement shows it (R84). -/
theorem endSlot_spec (s : State) :
    let t := setRes .retired (endSlot s.iss.slot s)
    slotOf t s.iss.slot = vacated (cur s) ∧ t.iss.res = .retired ∧ t.mem = s.mem ∧
    (∀ j < (cur s).winSize, spGet 0 t.me.pool ((cur s).winBase + j) = 0) ∧
    (∀ m ∈ t.me.mbox, isFor s.iss.slot m = false) ∧ (∀ e ∈ t.me.dtlb ++ t.me.itlb, e.slot ≠ s.iss.slot) ∧
    ∀ k, k ≠ s.iss.slot → (slotOf t k).winBase = (slotOf s k).winBase ∧ (slotOf t k).pa = (slotOf s k).pa := by
  intro t
  have hmem : t.mem = s.mem := by
    show (endSlot s.iss.slot s).mem = s.mem
    rw [endSlot_frame]
  have hpool : t.me.pool = spClear s.me.pool (cur s).winBase (cur s).winSize := by
    show (endSlot s.iss.slot s).me.pool = _
    rw [endSlot_frame]
    rfl
  have htlb : t.me.dtlb ++ t.me.itlb = (s.me.dtlb ++ s.me.itlb).filter fun e => e.slot != s.iss.slot := by
    show (endSlot s.iss.slot s).me.dtlb ++ (endSlot s.iss.slot s).me.itlb = _
    rw [endSlot_frame, List.filter_append]
  refine ⟨slotOf_endSlot_same _ s, rfl, hmem, fun j hj => ?_, fun m hm => isFor_of_mem_endSlot hm, fun e he => ?_,
    fun k hk => ?_⟩
  · rw [hpool]
    exact spGet_clear 0 _ _ _ _ hj
  · rw [htlb, List.mem_filter] at he
    exact bne_iff_ne.1 he.2
  · have h := slotOf_endSlot_other s.iss.slot k s hk
    show (slotOf (endSlot s.iss.slot s) k).winBase = _ ∧ (slotOf (endSlot s.iss.slot s) k).pa = _
    rw [h]
    exact ⟨rfl, rfl⟩

/-- END with nothing of its thread outstanding, and with something outstanding (R84, R381). -/
theorem execEndThread_spec {s : State} (h : Unmarked s) :
    (hasRelaxed s s.iss.slot = true ∨ hasTraining s s.iss.slot = true →
      execEndThread s = .next (setRes .waiting (onCur (fun c => { c with st := .waiting .ending }) s))) ∧
    (hasRelaxed s s.iss.slot = false → hasTraining s s.iss.slot = false →
      execEndThread s = .next (setRes .retired (endSlot s.iss.slot s))) := by
  refine ⟨fun hout => outcome_of_unmarked rfl h ?_, fun hr ht => outcome_of_unmarked rfl h ?_⟩
  · rw [if_pos (Bool.or_eq_true_iff.2 hout)]
    rfl
  · rw [if_neg (by simp [hr, ht])]

/-- BURST (R344, R345). -/
theorem execBurst_spec (n : BitVec 16) (s : State) : Gives (execBurst n s) fun t =>
    t.iss.res = .retired ∧ t.me.deadline = max s.me.deadline (s.clock + n.toNat) ∧ t.me.burst = true ∧
    (s.me.power = .cold → t.me.power = .kindle (s.clock + 64)) ∧
    (∀ stop, s.me.power = .quench stop → t.me.power =
      (if 64 ≤ stop - s.clock then .hot else .kindle (s.clock + (64 - (stop - s.clock))))) ∧
    (s.me.power = .hot ∨ (∃ stop, s.me.power = .kindle stop) → t.me.power = s.me.power) ∧
    t.me.slots = (advance s).me.slots ∧ t.mem = s.mem ∧ t.me.pool = s.me.pool := by
  let s' : State := { s with me := { s.me with burst := true, deadline := Nat.max s.me.deadline (s.clock + n.toNat) } }
  have hexec : execBurst n s = .next (advance (burstState s')) := enter_of_ready _ s _ (ready_nil s)
  have hpower := burstState_power s'
  refine ⟨_, hexec, rfl, ?_, ?_, fun h => ?_, fun stop h => ?_, fun h => ?_, ?_, ?_, ?_⟩
  · rw [advance_me, burstState_frame]
  · rw [advance_me, burstState_frame]
  · rw [h] at hpower
    exact hpower
  · rw [h] at hpower
    exact hpower
  · rcases h with h | ⟨stop, h⟩ <;> rw [h] at hpower ⊢ <;> exact hpower
  · rw [burstState_frame]
    rfl
  · rw [burstState_frame]
    rfl
  · rw [advance_me, burstState_frame]

/-! ## The obligations -/

/-- Settles O11: SYS, then the fences and BURST. -/
theorem sysAndFenceResults : Obligations.SysAndFenceResults := by
  refine ⟨fun n20 n8 s h => ?_, fun n5 n16 s h => ?_⟩
  · obtain ⟨hwait, hend⟩ := execEndThread_spec h
    have hr := ready_nil s
    refine ⟨outcome_of_ready (rfl : execNop s = _) hr rfl, outcome_of_ready (rfl : execYield s = _) hr rfl,
      outcome_of_ready (rfl : execSwtrap n20 s = _) hr rfl, outcome_of_ready (rfl : execRett s = _) hr ?_,
      fun hrel => outcome_of_ready (rfl : execLineup n8 s = _) hr ?_,
      fun hrel => outcome_of_ready (rfl : execLineup n8 s = _) hr ?_, fun hout => hwait ?_,
      fun hnone htrain => ⟨_, hend hnone ?_, endSlot_spec s⟩⟩
    · rw [returnFrom]
      simp only [Nat.mul_comm]
    · simp only [hrel, if_true]
      rfl
    · simp only [hrel]
      rfl
    · exact hout.imp_right (hasTraining_iff s _).2
    · rw [Bool.eq_false_iff, ne_eq, hasTraining_iff]
      rintro ⟨q, hq, hrec, hlive, hslot⟩
      exact htrain q hq hrec hlive hslot
  · refine ⟨fence_spec (rfl : execFenceRx s = _) h ?_, fence_spec (rfl : execFenceEng s = _) h ?_,
      fence_spec (rfl : execFenceSys s = _) h (fenceDone_sys_iff s _), fence_spec (rfl : execWaitrx n5 s = _) h ?_,
      execBurst_spec n16 s⟩
    · rw [relaxed_count_eq_zero_iff]
      simp [fenceDone]
    · rw [relaxed_count_eq_zero_iff]
      simp [fenceDone]
    · exact decide_eq_true_iff.symm

/-- Settles O13: each register by what its own write does. -/
theorem specialRegisterWrites : Obligations.SpecialRegisterWrites := by
  refine ⟨fun d s h => ?_, fun d sr s h hp hsr => ?_⟩
  · obtain ⟨htbl, htblBad⟩ := mtsTblcfg_spec (rd s d) s
    have user {sr : BitVec 12} {t : State} {named : Instr} (hp : privSr sr.toNat = false)
        (hnamed : exec named s = mtsStep sr (rd s d) s) (heff : ∀ p, mtsEffect sr.toNat (rd s d) p s = .next t) :=
      mts_does h (.inl hp) hnamed heff
    have tvec (tpc : Bool) (hv : (rd s d).toNat % 8 = 0) : mtsTvec tpc (rd s d) s = retire (onCur (fun c =>
        if tpc then { c with tpc := (rd s d).extractLsb' 3 54 } else { c with tvec := (rd s d).extractLsb' 3 54 }) s) := by
      rw [mtsTvec_eq, if_neg (not_not.2 hv)]
    have tvecBad (tpc : Bool) (hv : (rd s d).toNat % 8 ≠ 0) : mtsTvec tpc (rd s d) s = trap cIllegal (rd s d) s := by
      rw [mtsTvec_eq, if_pos hv]
    refine ⟨fun hv => ⟨user rfl rfl fun _ => tvec false hv, user rfl rfl fun _ => tvec true hv⟩,
      fun hv => ⟨user rfl rfl fun _ => tvecBad false hv, user rfl rfl fun _ => tvecBad true hv⟩,
      fun hv => (execMts_of_ready h (.inl rfl) : execMts d 0x034 s = _).trans (if_neg (not_lt.2 hv)),
      fun hv => (execMts_of_ready h (.inl rfl) : execMts d 0x034 s = _).trans (if_pos hv),
      fun hv => user rfl rfl fun _ => htbl hv, fun hv => user rfl rfl fun _ => htblBad hv, fun sr hsr => ?_, fun hp => ?_⟩
    · obtain ⟨hp, heff⟩ := mtsEffect_of_readOnly hsr (rd s d) (patternOf (.mts d sr) s) s
      exact (execMts_of_ready h (.inl hp) : execMts d sr s = _).trans heff
    · have keeper {sr : BitVec 12} {t : State} {named : Instr} (hnamed : exec named s = mtsStep sr (rd s d) s)
          (heff : ∀ p, mtsEffect sr.toNat (rd s d) p s = .next t) := mts_does h (.inr hp) hnamed heff
      have hrot (n : Nat) := mtsRottab_spec n (rd s d) s
      obtain ⟨hpol, hpolBad, hpolFault⟩ := mtsRotpol_spec (rd s d) s
      obtain ⟨hebud, hebudBad⟩ := mtsEbudget_spec (rd s d) s
      refine ⟨fun hv => ⟨keeper rfl fun _ => (hrot 0).1 hv, keeper rfl fun _ => (hrot 1).1 hv,
          keeper rfl fun _ => (hrot 2).1 hv, keeper rfl fun _ => (hrot 3).1 hv⟩,
        fun hv => ⟨keeper rfl fun _ => (hrot 0).2 hv, keeper rfl fun _ => (hrot 1).2 hv,
          keeper rfl fun _ => (hrot 2).2 hv, keeper rfl fun _ => (hrot 3).2 hv⟩,
        fun hv hf => keeper rfl fun _ => hpol hv hf, fun hv => keeper rfl fun _ => hpolBad hv,
        fun p hv hf => keeper rfl fun _ => hpolFault p hv hf,
        fun hcap hlev => ⟨keeper rfl fun _ => hebud hcap hlev, waitingStep_same, fun c q hq hf => ?_⟩,
        fun hv => keeper rfl fun _ => hebudBad hv,
        fun hlo hhi => keeper rfl fun _ => if_neg (by omega), fun hv => keeper rfl fun _ => if_pos hv,
        fun hv => keeper rfl fun _ => if_neg (not_le.2 hv), fun hv => keeper rfl fun _ => if_pos hv,
        fun hv => keeper rfl fun _ => if_neg (not_le.2 hv), fun hv => keeper rfl fun _ => if_pos hv⟩
      rw [waitingStep, hq, hf]
  · obtain ⟨hw, hb, -⟩ := h
    have hpriv : (if privSr sr.toNat = true then some (patternOf (.mts d sr) s) else none) = some (patternOf (.mts d sr) s) :=
      if_pos (privSr_of_mem sr hsr)
    show execMts d sr s = _
    rw [execMts, hpriv]
    exact enterWith_priv _ s _ _ _ hw hb hp

/-- Settles O14: the switch at position 0, and what a ROTPOL write that retires has checked. -/
theorem rotationTables : Obligations.RotationTables := by
  unfold Obligations.RotationTables
  refine ⟨fun p t s hpend hpos => ?_, fun d s t hlen h hr => ?_⟩
  · show execRotationSwitch s = _
    unfold execRotationSwitch
    rw [hpend]
    exact if_pos hpos
  · obtain ⟨hfault, pol, hpend⟩ := execMts_rotpol_retired h hr
    exact ⟨pol, hpend, fun p q e f hpq he hf hev hfv hslot => rotFault_spaced hlen hfault hpq he hf hev hfv hslot⟩

/-- Settles O15: a trap with a handler, one without, and the trap of a word of no form. -/
theorem trapEntry : Obligations.TrapEntry := by
  unfold Obligations.TrapEntry
  exact ⟨fun cause v s h => takeTrap_handler_spec cause v h, fun cause v s h hr => takeTrap_fault_spec cause v h hr,
    fun _ _ => rfl⟩

end Sys2Proof.Proofs
end

section
/-!
SUPPORT. Scalar floating point and FCVT (R73 to R78): the fields of a pattern, the range of a rounded one, the order of exact
values, the class word, and the corners of FCVT.
-/

namespace Sys2Proof.Proofs

open Sys2Proof Sys2Proof.Machine Sys2Proof.Laws

/-! ## Patterns -/

/-- The width of a format's patterns. -/
def patWidth (f : Fmt) : Nat := f.ew + f.fw + 1

theorem two_mul_signBit (f : Fmt) : 2 * f.signBit = 2 ^ patWidth f := by
  rw [Fmt.signBit, patWidth, pow_succ, Nat.mul_comm]

theorem infPat_lt_signBit (f : Fmt) : f.infPat < f.signBit := by
  have h1 := Nat.two_pow_pos f.ew
  have h2 := Nat.two_pow_pos f.fw
  rw [Fmt.infPat, Fmt.signBit, pow_add]
  exact Nat.mul_lt_mul_of_pos_right (by omega) h2

theorem overflowPat_le (f : Fmt) (r : Rnd) (neg : Bool) : overflowPat f r neg ≤ f.infPat := by
  unfold overflowPat
  cases r <;> cases neg <;> simp

theorem add_lt_two_pow_patWidth {f : Fmt} {x : Nat} (neg : Bool) (h : x < f.signBit) :
    (if neg then f.signBit else 0) + x < 2 ^ patWidth f := by
  rw [← two_mul_signBit]
  cases neg
  · simp only [Bool.false_eq_true, if_false]
    omega
  · simp only [if_true]
    omega

theorem capped_lt (f : Fmt) (r : Rnd) (neg : Bool) (p : Nat) :
    (if p ≥ f.infPat then overflowPat f r neg else p) < f.signBit := by
  have hinf := infPat_lt_signBit f
  split
  · exact lt_of_le_of_lt (overflowPat_le f r neg) hinf
  · omega

/-- A rounded value's pattern has the format's width. -/
theorem roundTo_lt (f : Fmt) (r : Rnd) (x : Machine.Num) (hnan : f.nanPat < f.signBit) : roundTo f r x < 2 ^ patWidth f := by
  have hinf := infPat_lt_signBit f
  cases x with
  | nan =>
    rw [← two_mul_signBit]
    exact lt_of_lt_of_le hnan (by omega)
  | inf neg => exact add_lt_two_pow_patWidth neg hinf
  | fin neg m e =>
    simp only [roundTo]
    split
    · exact add_lt_two_pow_patWidth neg (lt_of_le_of_lt (Nat.zero_le _) hinf)
    · exact add_lt_two_pow_patWidth neg (capped_lt f r neg _)

theorem ofNat_roundTo_S (r : Rnd) (x : Machine.Num) :
    BitVec.ofNat 64 (roundTo fmtS r x) = (BitVec.ofNat 32 (roundTo fmtS r x)).setWidth 64 := by
  have h : roundTo fmtS r x < 2 ^ 32 := roundTo_lt fmtS r x (by decide)
  apply BitVec.eq_of_toNat_eq
  simp only [BitVec.toNat_ofNat, BitVec.toNat_setWidth]
  omega

/-- The fields of a pattern are those of its low bits. -/
theorem fields_mod (f : Fmt) (x : Nat) :
    x % 2 ^ patWidth f / f.signBit % 2 = x / f.signBit % 2 ∧
    x % 2 ^ patWidth f / 2 ^ f.fw % 2 ^ f.ew = x / 2 ^ f.fw % 2 ^ f.ew ∧ x % 2 ^ patWidth f % 2 ^ f.fw = x % 2 ^ f.fw := by
  refine ⟨?_, ?_, ?_⟩
  · rw [← two_mul_signBit, Nat.mul_comm, Nat.mod_mul_right_div_self, Nat.mod_mod]
  · rw [show patWidth f = f.fw + (f.ew + 1) by unfold patWidth; omega, pow_add, Nat.mod_mul_right_div_self,
      Nat.mod_mod_of_dvd _ (pow_dvd_pow 2 (Nat.le_succ _))]
  · rw [Nat.mod_mod_of_dvd _ (pow_dvd_pow 2 (by unfold patWidth; omega))]

theorem unpack_mod (f : Fmt) (x : Nat) : unpack f (x % 2 ^ patWidth f) = unpack f x := by
  obtain ⟨hs, he, hf⟩ := fields_mod f x
  simp only [unpack, hs, he, hf]

theorem fNeg?_mod (f : Fmt) (x : Nat) : fNeg? f (x % 2 ^ patWidth f) = fNeg? f x := by
  rw [fNeg?, (fields_mod f x).1, fNeg?]

theorem fClass_mod (f : Fmt) (x : Nat) : fClass f (x % 2 ^ patWidth f) = fClass f x := by
  obtain ⟨-, he, hf⟩ := fields_mod f x
  simp only [fClass, unpack_mod, fNeg?_mod, fKind, he, hf]

theorem fNeg?_eq_of_lt {f : Fmt} {x n : Nat} (hx : x < 2 ^ patWidth f) (h : x / f.signBit = n) :
    fNeg? f x = decide (n = 1) := by
  rw [← two_mul_signBit] at hx
  have hlt := Nat.div_lt_of_lt_mul (Nat.mul_comm 2 _ ▸ hx)
  rw [h] at hlt
  rw [fNeg?, h, Nat.mod_eq_of_lt hlt]
  rfl

/-! ## The order of exact values (R74) -/

theorem isNan_iff (x : Machine.Num) : isNan x = true ↔ x = .nan := by
  cases x <;> simp [isNan]

theorem eqN_comm (x y : Machine.Num) : eqN x y = eqN y x := by
  cases x <;> cases y <;> simp only [eqN, Bool.beq_comm]
  case fin.fin a m e b n k =>
    have hmin : (if e ≤ k then e else k) = if k ≤ e then k else e := by split <;> split <;> omega
    rw [hmin]
    exact decide_eq_decide.2 eq_comm

theorem ltN_asymm {x y : Machine.Num} (h : ltN x y = true) : ltN y x = false := by
  cases x <;> cases y <;> simp only [ltN, decide_eq_true_eq, decide_eq_false_iff_not, Bool.false_eq_true] at h ⊢
  case fin.fin a m e b n k =>
    have hmin : (if k ≤ e then k else e) = if e ≤ k then e else k := by split <;> split <;> omega
    rw [hmin]
    omega
  all_goals simp_all

theorem not_ltN_of_eqN {x y : Machine.Num} (h : eqN x y = true) : ltN x y = false := by
  cases x <;> cases y <;> simp only [eqN, ltN, decide_eq_true_eq, decide_eq_false_iff_not, Bool.false_eq_true, beq_iff_eq] at h ⊢
  case fin.fin => omega
  case inf.inf a b => subst h; cases a <;> rfl

theorem not_eqN_of_ltN {x y : Machine.Num} (h : ltN x y = true) : eqN x y = false := by
  by_contra hne
  rw [Bool.not_eq_false] at hne
  rw [not_ltN_of_eqN hne] at h
  cases h

theorem ne_nan_of_ltN {x y : Machine.Num} (h : ltN x y = true) : x ≠ .nan ∧ y ≠ .nan := by
  cases x <;> cases y <;> simp_all [ltN]

theorem ne_nan_of_eqN {x y : Machine.Num} (h : eqN x y = true) : x ≠ .nan ∧ y ≠ .nan := by
  cases x <;> cases y <;> simp_all [eqN]

/-- FMIN and FMAX in one: the smaller operand, or the larger. -/
def pickF (less : Bool) (f : Fmt) (a b : Nat) : Nat :=
  if isNan (unpack f a) then (if isNan (unpack f b) then f.nanPat else fCut f b)
  else if isNan (unpack f b) then fCut f a
  else if (if less then fBelow f b a else fBelow f a b) then fCut f b else fCut f a

/-- The pick between two operands that are not NaN. -/
theorem pickF_of_not_nan {f : Fmt} {a b : Nat} (less : Bool) (ha : unpack f a ≠ .nan) (hb : unpack f b ≠ .nan) :
    pickF less f a b = if (if less then fBelow f b a else fBelow f a b) then fCut f b else fCut f a := by
  rw [pickF, if_neg (mt (isNan_iff _).1 ha), if_neg (mt (isNan_iff _).1 hb)]

/-- R74's FMIN (less) and FMAX, case by case. -/
theorem pickF_spec (less : Bool) (f : Fmt) (w a b : Nat) (hw : patWidth f = w) :
    let p := a % 2 ^ w
    let q := b % 2 ^ w
    let x := unpack f p
    let y := unpack f q
    (x = .nan → y = .nan → pickF less f a b = f.nanPat) ∧ (x = .nan → y ≠ .nan → pickF less f a b = q) ∧
    (x ≠ .nan → y = .nan → pickF less f a b = p) ∧
    (ltN x y = true → pickF less f a b = if less then p else q) ∧
    (ltN y x = true → pickF less f a b = if less then q else p) ∧
    (eqN x y = true → p / 2 ^ (w - 1) = 1 → q / 2 ^ (w - 1) = 0 → pickF less f a b = if less then p else q) ∧
    (eqN x y = true → p / 2 ^ (w - 1) = 0 → q / 2 ^ (w - 1) = 1 → pickF less f a b = if less then q else p) ∧
    (eqN x y = true → p = q → pickF less f a b = p) := by
  subst hw
  dsimp only
  have hcut (z : Nat) : fCut f z = z % 2 ^ patWidth f := by rw [fCut, two_mul_signBit]
  have hneg {z n : Nat} (h : z % 2 ^ patWidth f / 2 ^ (patWidth f - 1) = n) : fNeg? f z = decide (n = 1) := by
    rw [← fNeg?_mod]
    exact fNeg?_eq_of_lt (Nat.mod_lt _ (Nat.two_pow_pos _)) h
  rw [unpack_mod, unpack_mod]
  refine ⟨fun ha hb => ?_, fun ha hb => ?_, fun ha hb => ?_, fun h => ?_, fun h => ?_, fun h hp hq => ?_, fun h hp hq => ?_,
    fun h hpq => ?_⟩
  · rw [pickF, if_pos ((isNan_iff _).2 ha), if_pos ((isNan_iff _).2 hb)]
  · rw [pickF, if_pos ((isNan_iff _).2 ha), if_neg (mt (isNan_iff _).1 hb), hcut]
  · rw [pickF, if_neg (mt (isNan_iff _).1 ha), if_pos ((isNan_iff _).2 hb), hcut]
  · obtain ⟨ha, hb⟩ := ne_nan_of_ltN h
    rw [pickF_of_not_nan less ha hb, fBelow, fBelow, h, ltN_asymm h, eqN_comm (unpack f b), not_eqN_of_ltN h, hcut, hcut]
    cases less <;> rfl
  · obtain ⟨hb, ha⟩ := ne_nan_of_ltN h
    rw [pickF_of_not_nan less ha hb, fBelow, fBelow, h, ltN_asymm h, eqN_comm (unpack f a), not_eqN_of_ltN h, hcut, hcut]
    cases less <;> rfl
  · obtain ⟨ha, hb⟩ := ne_nan_of_eqN h
    rw [pickF_of_not_nan less ha hb, fBelow, fBelow, not_ltN_of_eqN h, not_ltN_of_eqN ((eqN_comm _ _).trans h),
      eqN_comm (unpack f b), h, hneg hp, hneg hq, hcut, hcut]
    cases less <;> rfl
  · obtain ⟨ha, hb⟩ := ne_nan_of_eqN h
    rw [pickF_of_not_nan less ha hb, fBelow, fBelow, not_ltN_of_eqN h, not_ltN_of_eqN ((eqN_comm _ _).trans h),
      eqN_comm (unpack f b), h, hneg hp, hneg hq, hcut, hcut]
    cases less <;> rfl
  · obtain ⟨ha, hb⟩ := ne_nan_of_eqN h
    rw [pickF_of_not_nan less ha hb, hcut, hcut, ← hpq, ite_self]

/-! ## The sign bit replaced (R74) -/

theorem fNeg?_D (x : Word) : fNeg? fmtD x.toNat = x.getLsbD 63 := bits_one_beq x 63

theorem fNeg?_S (x : Word) : fNeg? fmtS x.toNat = x.getLsbD 31 := bits_one_beq x 31

theorem extractLsb'_one (x : Word) (k : Nat) : x.extractLsb' k 1 = BitVec.ofBool (x.getLsbD k) := by
  apply BitVec.eq_of_getLsbD_eq
  intro i hi
  have h0 : i = 0 := by omega
  subst h0
  cases h : x.getLsbD k <;> simp [h]

theorem setSign_D (x : Word) (neg : Bool) :
    BitVec.ofNat 64 (fSetSign fmtD x.toNat neg) = BitVec.ofBool neg ++ x.extractLsb' 0 63 := by
  apply BitVec.eq_of_toNat_eq
  cases neg <;> simp only [fSetSign, fmtD, Fmt.signBit, BitVec.toNat_ofNat, toNat_append_eq, toNat_extractLsb'_eq,
    BitVec.toNat_ofBool, Bool.toNat_true, Bool.toNat_false, Bool.false_eq_true, if_true, if_false] <;> omega

theorem setSign_S (x : Word) (neg : Bool) :
    BitVec.ofNat 64 (fSetSign fmtS x.toNat neg) = (BitVec.ofBool neg ++ x.extractLsb' 0 31).setWidth 64 := by
  apply BitVec.eq_of_toNat_eq
  cases neg <;> simp only [fSetSign, fmtS, Fmt.signBit, BitVec.toNat_ofNat, BitVec.toNat_setWidth, toNat_append_eq,
    toNat_extractLsb'_eq, BitVec.toNat_ofBool, Bool.toNat_true, Bool.toNat_false, Bool.false_eq_true, if_true, if_false] <;>
    omega

theorem not_ofBool (b : Bool) : ~~~BitVec.ofBool b = BitVec.ofBool !b := by
  cases b <;> rfl

/-! ## The class word (R75) -/

/-- A word of an exponent field, a kind and a sign, taken apart. -/
theorem classWord_parts {n k sg : Nat} (hn : n < 2 ^ 16) (hk : k < 8) (hsg : sg < 2) :
    let v := BitVec.ofNat 64 (n * 2 ^ 16 + 2 * k + sg)
    v.toNat % 2 = sg ∧ v.toNat / 2 ^ 32 = 0 ∧ v.toNat / 2 ^ 4 % 2 ^ 12 = 0 ∧ v.toNat / 2 % 8 = k ∧ v.toNat / 2 ^ 16 = n ∧
    v.extractLsb' 16 16 = BitVec.ofNat 16 n := by
  intro v
  have hv : v.toNat = n * 2 ^ 16 + 2 * k + sg := by
    simp only [v, BitVec.toNat_ofNat]
    omega
  refine ⟨by omega, by omega, by omega, by omega, by omega, ?_⟩
  apply BitVec.eq_of_toNat_eq
  rw [toNat_extractLsb'_eq, hv, BitVec.toNat_ofNat]
  omega

/-- EXP of R75, before it is cut to 16 bits. -/
def classExp (f : Fmt) (x : Nat) : Int := match unpack f x with | .fin _ m e => if m = 0 then 0 else lead m e | _ => 0

theorem fClass_eq (f : Fmt) (x : Nat) : fClass f x =
    (BitVec.ofInt 16 (classExp f x)).toNat * 2 ^ 16 + 2 * fKind f x + (if fNeg? f x then 1 else 0) := by
  unfold fClass classExp
  cases unpack f x with
  | fin neg m e =>
    by_cases hm : m = 0
    · simp [hm]
    · simp [hm]
  | _ => rfl

theorem fKind_lt (f : Fmt) (x : Nat) : fKind f x < 8 := by
  unfold fKind
  dsimp only
  split
  · split
    · decide
    · split <;> decide
  · split
    · split <;> decide
    · decide

theorem fNeg?_toNat (f : Fmt) (x : Nat) : (if fNeg? f x then 1 else 0) = x / 2 ^ (f.ew + f.fw) % 2 := by
  have h := fNeg?_iff f x
  have hlt := Nat.mod_lt (x / 2 ^ (f.ew + f.fw)) two_pos
  split
  case isTrue ht => exact (h.1 ht).symm
  case isFalse hf =>
    have := mt h.2 hf
    omega

section Class

variable {f : Fmt} {x : Nat}

theorem classExp_zero (he : x / 2 ^ f.fw % 2 ^ f.ew = 0) (hf : x % 2 ^ f.fw = 0) : classExp f x = 0 := by
  unfold classExp unpack
  dsimp only
  rw [he, hf]
  by_cases htop : 0 = 2 ^ f.ew - 1
  · rw [if_pos htop, if_pos rfl]
  · rw [if_neg htop, if_pos rfl]
    rfl

theorem classExp_special (he : x / 2 ^ f.fw % 2 ^ f.ew = 2 ^ f.ew - 1) : classExp f x = 0 := by
  unfold classExp unpack
  dsimp only
  rw [if_pos he]
  by_cases hf : x % 2 ^ f.fw = 0
  · rw [if_pos hf]
  · rw [if_neg hf]

theorem classExp_subnormal {k : Nat} (hew : 1 ≤ f.ew) (he : x / 2 ^ f.fw % 2 ^ f.ew = 0) (h0 : 2 ^ k ≤ x % 2 ^ f.fw)
    (h1 : x % 2 ^ f.fw < 2 ^ (k + 1)) : classExp f x = (k : Int) + 1 - f.bias - f.fw := by
  have hpos := Nat.two_pow_pos k
  have htop : ¬(0 : Nat) = 2 ^ f.ew - 1 := by
    have := Nat.pow_le_pow_right (n := 2) (by decide) hew
    omega
  have hlog : (x % 2 ^ f.fw).log2 = k := (Nat.log2_eq_iff (by omega)).2 ⟨h0, h1⟩
  unfold classExp unpack
  dsimp only
  rw [he, if_neg htop, if_pos rfl]
  dsimp only
  rw [if_neg (by omega), lead, hlog]
  omega

theorem classExp_normal (h0 : 0 < x / 2 ^ f.fw % 2 ^ f.ew) (h1 : x / 2 ^ f.fw % 2 ^ f.ew < 2 ^ f.ew - 1) :
    classExp f x = ((x / 2 ^ f.fw % 2 ^ f.ew : Nat) : Int) - f.bias := by
  have hpos := Nat.two_pow_pos f.fw
  have hlt := Nat.mod_lt x hpos
  have hlog : (2 ^ f.fw + x % 2 ^ f.fw).log2 = f.fw := by
    refine (Nat.log2_eq_iff (by omega)).2 ⟨by omega, ?_⟩
    rw [pow_succ]
    omega
  unfold classExp unpack
  dsimp only
  rw [if_neg (by omega), if_neg (by omega)]
  dsimp only
  rw [if_neg (by omega), lead, hlog]
  omega

end Class

/-- FCLASS writes the class word of R75, for a format whose exponents fit 16 bits. -/
theorem fClass_spec {f : Fmt} (x : Nat) (hew : 2 ≤ f.ew) (hew' : 2 ^ f.ew ≤ 2 ^ 11) (hfw : 1 ≤ f.fw) (hfw' : f.fw ≤ 52) :
    let v := BitVec.ofNat 64 (fClass f x)
    v.toNat % 2 = x / 2 ^ (f.ew + f.fw) % 2 ∧ v.toNat / 2 ^ 32 = 0 ∧ v.toNat / 2 ^ 4 % 2 ^ 12 = 0 ∧
      (let ex := x / 2 ^ f.fw % 2 ^ f.ew
       let fr := x % 2 ^ f.fw
       let kind := v.toNat / 2 % 8
       (ex = 0 → fr = 0 → kind = 0 ∧ v.toNat / 2 ^ 16 = 0) ∧
       (∀ k : Nat, ex = 0 → 2 ^ k ≤ fr → fr < 2 ^ (k + 1) → kind = 1 ∧
         (v.extractLsb' 16 16).toInt = (k : Int) + 1 - (2 ^ (f.ew - 1) - 1 : Nat) - f.fw) ∧
       (0 < ex → ex < 2 ^ f.ew - 1 → kind = 2 ∧
         (v.extractLsb' 16 16).toInt = (ex : Int) - (2 ^ (f.ew - 1) - 1 : Nat)) ∧
       (ex = 2 ^ f.ew - 1 → v.toNat / 2 ^ 16 = 0 ∧
         kind = if fr = 0 then 3 else if 2 ^ (f.fw - 1) ≤ fr then 4 else 5)) := by
  have hsg : x / 2 ^ (f.ew + f.fw) % 2 < 2 := Nat.mod_lt _ two_pos
  obtain ⟨h1, h2, h3, hkind, hhi, hexp⟩ := classWord_parts (BitVec.ofInt 16 (classExp f x)).isLt (fKind_lt f x) hsg
  have hbias : f.bias < 2 ^ 10 := by
    have hhalf : 2 ^ f.ew = 2 * 2 ^ (f.ew - 1) := by rw [← pow_succ']; congr 1; omega
    unfold Fmt.bias
    omega
  have htwo : 4 ≤ 2 ^ f.ew := Nat.pow_le_pow_right (n := 2) (by decide) hew
  have hint (he : -(2 ^ 15) ≤ classExp f x) (he' : classExp f x < 2 ^ 15) :
      (BitVec.ofNat 16 (BitVec.ofInt 16 (classExp f x)).toNat).toInt = classExp f x := by
    rw [BitVec.ofNat_toNat, BitVec.setWidth_eq, BitVec.toInt_ofInt, Int.bmod_eq_of_le] <;> omega
  have hzero (he : classExp f x = 0) : (BitVec.ofInt 16 (classExp f x)).toNat = 0 := by
    rw [he]
    rfl
  rw [fClass_eq, fNeg?_toNat]
  refine ⟨h1, h2, h3, fun he hf => ?_, fun k he hk hk' => ?_, fun he he' => ?_, fun he => ?_⟩
  · rw [hkind, hhi]
    refine ⟨?_, hzero (classExp_zero he hf)⟩
    unfold fKind
    simp only [he, hf]
    rw [if_neg (by omega), if_pos trivial, if_pos trivial]
  · have hclass := classExp_subnormal (by omega) he hk hk'
    have hk52 : k < f.fw := by
      by_contra hge
      have := Nat.pow_le_pow_right (n := 2) (by decide) (not_lt.1 hge)
      have := Nat.mod_lt x (Nat.two_pow_pos f.fw)
      omega
    have hpos := Nat.two_pow_pos k
    rw [hkind, hexp, hint (by omega) (by omega), hclass]
    refine ⟨?_, rfl⟩
    unfold fKind
    simp only [he]
    rw [if_neg (by omega), if_pos trivial, if_neg (by omega)]
  · have hclass := classExp_normal he he'
    rw [hkind, hexp, hint (by omega) (by omega), hclass]
    refine ⟨?_, rfl⟩
    unfold fKind
    dsimp only
    rw [if_neg (by omega), if_neg (by omega)]
  · rw [hkind, hhi]
    refine ⟨hzero (classExp_special he), ?_⟩
    have hpos := Nat.two_pow_pos (f.fw - 1)
    have hquiet : x % 2 ^ f.fw / 2 ^ (f.fw - 1) = 1 ↔ 2 ^ (f.fw - 1) ≤ x % 2 ^ f.fw := by
      have hlt := Nat.mod_lt x (Nat.two_pow_pos f.fw)
      rw [show 2 ^ f.fw = 2 ^ (f.fw - 1) * 2 by rw [← pow_succ]; congr 1; omega] at hlt ⊢
      rw [Nat.div_eq_iff hpos]
      omega
    unfold fKind
    simp only [if_pos he, hquiet]

/-! ## FCVT's corners (R78) -/

theorem roundInt_of_int (r : Rnd) (neg : Bool) (m : Nat) {e : Int} (he : 0 ≤ e) :
    roundInt r neg m e = if neg then -((m * 2 ^ e.toNat : Nat) : Int) else (m * 2 ^ e.toNat : Nat) := by
  have hrem (n : Nat) : roundsUp r neg n 0 0 = false := if_pos rfl
  simp only [roundInt, inUnits, if_pos he, sub_zero, hrem, Bool.false_eq_true, if_false]

theorem roundInt_neg_nonpos (r : Rnd) (m : Nat) (e : Int) : roundInt r true m e ≤ 0 := by
  simp only [roundInt, if_true]
  omega

/-- An integer converts to itself, or to the nearer end of the range. -/
theorem toIntSat_numOfInt (r : Rnd) (lo hi k : Int) :
    toIntSat r lo hi (numOfInt k) = if k < lo then lo else if hi < k then hi else k := by
  have hround : roundInt r (decide (k < 0)) k.natAbs 0 = k := by
    rw [roundInt_of_int _ _ _ le_rfl]
    by_cases hk : k < 0
    · simp only [hk, decide_true, if_true, Int.toNat_zero, pow_zero, mul_one]
      omega
    · simp only [hk, decide_false, Bool.false_eq_true, if_false, Int.toNat_zero, pow_zero, mul_one]
      omega
  simp only [toIntSat, numOfInt, hround]

/-- A finite binary64 pattern, as an exact value. -/
theorem unpackD_of_lt {x : Word} (h : x.toNat / 2 ^ 52 % 2 ^ 11 < 2047) :
    ∃ m e, unpack fmtD x.toNat = .fin x.msb m e ∧ (0 < x.toNat / 2 ^ 52 % 2 ^ 11 →
      2 ^ 52 ≤ m ∧ e = (x.toNat / 2 ^ 52 % 2 ^ 11 : Nat) - 1075) := by
  have hneg : (x.toNat / fmtD.signBit % 2 == 1) = x.msb := fNeg?_D x
  have htop : ¬x.toNat / 2 ^ 52 % 2 ^ 11 = 2 ^ 11 - 1 := by omega
  unfold unpack
  simp only [hneg]
  by_cases h0 : x.toNat / 2 ^ 52 % 2 ^ 11 = 0
  · exact ⟨_, _, (if_neg htop).trans (if_pos h0), fun hpos => absurd h0 (by omega)⟩
  · refine ⟨_, _, (if_neg htop).trans (if_neg h0), fun _ => ⟨Nat.le_add_right _ _, ?_⟩⟩
    show ((x.toNat / 2 ^ 52 % 2 ^ 11 : Nat) : Int) - 1023 - 52 = _
    omega

/-- A finite binary64 value of exponent field 1023 + n or above is at least 2^n in magnitude. -/
theorem roundInt_ge {x : Word} (r : Rnd) {n : Nat} (hn : 52 ≤ n) (h0 : 1023 + n ≤ x.toNat / 2 ^ 52 % 2 ^ 11)
    (h1 : x.toNat / 2 ^ 52 % 2 ^ 11 < 2047) : ∃ m e, unpack fmtD x.toNat = .fin x.msb m e ∧
      (x.msb = false → 2 ^ n ≤ roundInt r x.msb m e) ∧ (x.msb = true → roundInt r x.msb m e ≤ -2 ^ n) := by
  obtain ⟨m, e, hx, hme⟩ := unpackD_of_lt h1
  obtain ⟨hm, he⟩ := hme (by omega)
  have hbig : 2 ^ n ≤ m * 2 ^ e.toNat := by
    rw [show n = 52 + (n - 52) by omega, pow_add]
    exact Nat.mul_le_mul hm (Nat.pow_le_pow_right (by decide) (by omega))
  have hbig' : (2 ^ n : Int) ≤ (m * 2 ^ e.toNat : Nat) := by exact_mod_cast hbig
  refine ⟨m, e, hx, fun hs => ?_, fun hs => ?_⟩
  · rw [roundInt_of_int _ _ _ (by omega), hs]
    exact hbig'
  · rw [roundInt_of_int _ _ _ (by omega), hs]
    exact neg_le_neg hbig'

theorem toIntSat_fin_above (r : Rnd) {lo hi : Int} {neg : Bool} {m : Nat} {e : Int} (hlh : lo ≤ hi)
    (h : hi < roundInt r neg m e) : toIntSat r lo hi (.fin neg m e) = hi := by
  simp only [toIntSat]
  rw [if_neg (by omega), if_pos h]

theorem toIntSat_fin_below (r : Rnd) {lo hi : Int} {neg : Bool} {m : Nat} {e : Int} (hlh : lo ≤ hi)
    (h : roundInt r neg m e ≤ lo) : toIntSat r lo hi (.fin neg m e) = lo := by
  simp only [toIntSat]
  split
  · rfl
  · rw [if_neg (by omega)]
    omega

/-! ## The obligations -/

/-- The sign of b over the magnitude bits of a, in binary64 and in binary32. -/
theorem sign_results (a b : Word) :
    BitVec.ofNat 64 (fSetSign fmtD a.toNat (fNeg? fmtD b.toNat)) = b.extractLsb' 63 1 ++ a.extractLsb' 0 63 ∧
    BitVec.ofNat 64 (fSetSign fmtD a.toNat !fNeg? fmtD b.toNat) = ~~~b.extractLsb' 63 1 ++ a.extractLsb' 0 63 ∧
    BitVec.ofNat 64 (fSetSign fmtS a.toNat (fNeg? fmtS b.toNat)) = (b.extractLsb' 31 1 ++ a.extractLsb' 0 31).setWidth 64 ∧
    BitVec.ofNat 64 (fSetSign fmtS a.toNat !fNeg? fmtS b.toNat) =
      (~~~b.extractLsb' 31 1 ++ a.extractLsb' 0 31).setWidth 64 := by
  rw [setSign_D, setSign_D, setSign_S, setSign_S, extractLsb'_one, extractLsb'_one, not_ofBool, not_ofBool, fNeg?_D, fNeg?_S]
  exact ⟨rfl, rfl, rfl, rfl⟩

/-- Settles O8: binary64, binary32, and the picks of FMIN and FMAX. -/
theorem floatResults : Obligations.FloatResults := by
  refine ⟨fun d a b s h => ?_, fun d a b s h => ?_, fun d a b s h => ?_⟩
  · have hda : Ready ⟨[.g d, .g a], [.g d]⟩ s := ready_mono _ _ s (by simp) h
    obtain ⟨hsign, hnot, -, -⟩ := sign_results (rd s a) (rd s b)
    exact ⟨(retires_of_ready rfl h rfl : execFaddD d a b s = _), (retires_of_ready rfl h rfl : execFsubD d a b s = _),
      (retires_of_ready rfl h rfl : execFmulD d a b s = _), (retires_of_ready rfl h rfl : execFmaD d a b s = _),
      (holds_of_ready rfl h rfl : execFdivD d a b s = _), (holds_of_ready rfl hda rfl : execFsqrtD d a s = _),
      (retires_of_ready rfl h rfl : execFeqD d a b s = _), (retires_of_ready rfl h rfl : execFltD d a b s = _),
      (retires_of_ready rfl h rfl : execFleD d a b s = _), (retires_of_ready rfl h hsign : execFsgnjD d a b s = _),
      (retires_of_ready rfl h hnot : execFsgnjnD d a b s = _)⟩
  · have hda : Ready ⟨[.g d, .g a], [.g d]⟩ s := ready_mono _ _ s (by simp) h
    obtain ⟨-, -, hsign, hnot⟩ := sign_results (rd s a) (rd s b)
    have single (x : Machine.Num) := ofNat_roundTo_S .rne x
    exact ⟨(retires_of_ready rfl h (single _) : execFaddS d a b s = _),
      (retires_of_ready rfl h (single _) : execFsubS d a b s = _),
      (retires_of_ready rfl h (single _) : execFmulS d a b s = _),
      (retires_of_ready rfl h (single _) : execFmaS d a b s = _),
      (holds_of_ready rfl h (single _) : execFdivS d a b s = _),
      (holds_of_ready rfl hda (single _) : execFsqrtS d a s = _),
      (retires_of_ready rfl h rfl : execFeqS d a b s = _), (retires_of_ready rfl h rfl : execFltS d a b s = _),
      (retires_of_ready rfl h rfl : execFleS d a b s = _), (retires_of_ready rfl h hsign : execFsgnjS d a b s = _),
      (retires_of_ready rfl h hnot : execFsgnjnS d a b s = _)⟩
  · exact ⟨⟨_, (retires_of_ready rfl h rfl : execFminD d a b s = _), pickF_spec true fmtD 64 _ _ rfl⟩,
      ⟨_, (retires_of_ready rfl h rfl : execFmaxD d a b s = _), pickF_spec false fmtD 64 _ _ rfl⟩,
      ⟨_, (retires_of_ready rfl h rfl : execFminS d a b s = _), pickF_spec true fmtS 32 _ _ rfl⟩,
      _, (retires_of_ready rfl h rfl : execFmaxS d a b s = _), pickF_spec false fmtS 32 _ _ rfl⟩

/-- FCVT of a NaN, of an infinity, of a value out of range, and between the integer types, by what it reads. -/
theorem cvtWrite_finite {x : Word} (t : Table) (r : Rnd) (h : x.toNat / 2 ^ 52 % 2 ^ 11 < 2047) :
    (x.msb = false → 1086 ≤ x.toNat / 2 ^ 52 % 2 ^ 11 → cvtWrite t 4 r (unpack fmtD x.toNat) = 0x7FFFFFFFFFFFFFFF) ∧
    (x.msb = true → 1086 ≤ x.toNat / 2 ^ 52 % 2 ^ 11 → cvtWrite t 4 r (unpack fmtD x.toNat) = 0x8000000000000000) ∧
    (x.msb = false → 1087 ≤ x.toNat / 2 ^ 52 % 2 ^ 11 → cvtWrite t 5 r (unpack fmtD x.toNat) = 0xFFFFFFFFFFFFFFFF) ∧
    (x.msb = true → cvtWrite t 5 r (unpack fmtD x.toNat) = 0) := by
  refine ⟨fun hs h0 => ?_, fun hs h0 => ?_, fun hs h0 => ?_, fun hs => ?_⟩
  · obtain ⟨m, e, hx, hge, -⟩ := roundInt_ge (n := 63) r (by decide) h0 h
    have hround := hge hs
    rw [hx, cvtWrite, toIntSat_fin_above r (by decide) (by omega)]
    rfl
  · obtain ⟨m, e, hx, -, hle⟩ := roundInt_ge (n := 63) r (by decide) h0 h
    have hround := hle hs
    rw [hx, cvtWrite, toIntSat_fin_below r (by decide) (by omega)]
    rfl
  · obtain ⟨m, e, hx, hge, -⟩ := roundInt_ge (n := 64) r (by decide) h0 h
    have hround := hge hs
    rw [hx, cvtWrite, toIntSat_fin_above r (by decide) (by omega)]
    rfl
  · obtain ⟨m, e, hx, -⟩ := unpackD_of_lt h
    have hround := roundInt_neg_nonpos r m e
    rw [hx, hs, cvtWrite, toIntSat_fin_below r (by decide) hround]
    rfl

/-- The integer types onto each other: a negative l gives 0, and an lu above the range of l its largest value. -/
theorem cvtWrite_integers (t : Table) (r : Rnd) (x : Word) :
    (x.toInt < 0 → cvtWrite t 5 r (numOfInt x.toInt) = 0) ∧ (0 ≤ x.toInt → cvtWrite t 5 r (numOfInt x.toInt) = x) ∧
    (x.toInt < 0 → cvtWrite t 4 r (numOfInt x.toNat) = 0x7FFFFFFFFFFFFFFF) ∧
    (0 ≤ x.toInt → cvtWrite t 4 r (numOfInt x.toNat) = x) := by
  have hlt := x.isLt
  have hint := BitVec.toInt_eq_toNat_cond x
  simp only [cvtWrite, toIntSat_numOfInt]
  refine ⟨fun h => ?_, fun h => ?_, fun h => ?_, fun h => ?_⟩
  · rw [if_pos h]
    rfl
  · rw [if_neg (by omega), if_neg (by split at hint <;> omega), BitVec.ofInt_toInt]
  · rw [if_neg (by omega), if_pos (by split at hint <;> omega)]
    rfl
  · rw [if_neg (by omega), if_neg (by split at hint <;> omega), BitVec.ofInt_natCast, BitVec.ofNat_toNat, BitVec.setWidth_eq]

/-- Settles O9. -/
theorem convertResults : Obligations.ConvertResults := by
  refine ⟨fun d a rnd dst src s h => ?_, fun d a rnd s h => ?_⟩
  · refine ⟨⟨_, (retires_of_ready rfl h rfl : execFclassD d a s = _), fClass_spec (f := fmtD) _ ?_ ?_ ?_ ?_⟩,
      ⟨_, (retires_of_ready rfl h ?_ : execFclassS d a s = _), fClass_spec (f := fmtS) _ ?_ ?_ ?_ ?_⟩,
      (retires_of_ready rfl h rfl : execFcvt rnd d a dst src s = _)⟩
    case refine_5 => exact congrArg _ (fClass_mod fmtS _).symm
    all_goals decide
  · have fcvt {dst src : BitVec 3} {v : Word} (hv : ∀ r, cvtWrite (tableOf s) dst.toNat r
        (cvtRead (tableOf s) src.toNat (rd s a)) = v) : exec (.fcvt rnd d a dst src) s = .next (advance (wr d v s)) :=
      (retires_of_ready rfl h (hv _) : execFcvt rnd d a dst src s = _)
    have special {x : Machine.Num} {dst : BitVec 3} {v : Word} (hx : unpack fmtD (rd s a).toNat = x)
        (hv : ∀ r, cvtWrite (tableOf s) dst.toNat r x = v) : exec (.fcvt rnd d a dst 0) s = .next (advance (wr d v s)) :=
      fcvt fun r => (congrArg _ hx).trans (hv r)
    have hint (r : Rnd) := cvtWrite_integers (tableOf s) r (rd s a)
    have hfin (hex : (rd s a).toNat / 2 ^ 52 % 2 ^ 11 < 2047) (r : Rnd) := cvtWrite_finite (tableOf s) r hex
    exact ⟨fun hx => ⟨special hx fun _ => rfl, special hx fun _ => rfl, special hx fun _ => rfl, special hx fun _ => rfl,
        special hx fun _ => rfl, special hx fun _ => rfl, special hx fun _ => rfl⟩,
      fun hx => ⟨special hx fun _ => rfl, special hx fun _ => rfl, special hx fun _ => rfl, special hx fun _ => rfl,
        special hx fun _ => rfl, special hx fun _ => rfl, special hx fun _ => rfl⟩,
      fun hx => ⟨special hx fun _ => rfl, special hx fun _ => rfl, special hx fun _ => rfl, special hx fun _ => rfl,
        special hx fun _ => rfl, special hx fun _ => rfl, special hx fun _ => rfl⟩,
      fun hs h0 h1 => fcvt fun r => (hfin h1 r).1 hs h0, fun hs h0 h1 => fcvt fun r => (hfin h1 r).2.1 hs h0,
      fun hs h0 h1 => fcvt fun r => (hfin h1 r).2.2.1 hs h0, fun hs h1 => fcvt fun r => (hfin h1 r).2.2.2 hs,
      fun h0 => fcvt fun r => (hint r).1 h0, fun h0 => fcvt fun r => (hint r).2.1 h0,
      fun h0 => fcvt fun r => (hint r).2.2.1 h0, fun h0 => fcvt fun r => (hint r).2.2.2 h0⟩

end Sys2Proof.Proofs
end

section
/-!
SUPPORT. The turn of a core whose slot issues, down to the word that it runs (R15, R21, R35, R36, R48, R87, R122, R236), and
the state after reset.
-/

namespace Sys2Proof.Proofs

open Sys2Proof Sys2Proof.Machine Sys2Proof.Laws

/-! ## Issuing a pair (R35, R36, R48, R87) -/

section Issue

variable {ex : Instr → State → Out State} {w w0 w1 : BitVec 32} {s : State}

theorem runWord_spec : (∀ i, decodeWord w = some i → runWord ex w s = ex i s) ∧
    (decodeWord w = none → runWord ex w s = ex (.unassignedEncoding w) s) := by
  refine ⟨fun i h => ?_, fun h => ?_⟩ <;> simp only [runWord, h]

/-- Word 1 of a serial pair, where the slot has come to it. -/
theorem issuePair_second (hp : pBit w0 = true) (hw : (cur s).widx ≠ 0) :
    issuePair ex w0 w1 s = runWord ex w1 (onPattern 1 (pBit w1) s) := by
  rw [issuePair, if_pos ⟨hp, hw⟩]

/-- Any other pair, at its word 0. -/
theorem issuePair_first (h : pBit w0 = false ∨ (cur s).widx = 0) :
    let first := onPattern 0 (pBit w0) (onCur (fun x => { x with widx := 0 }) s)
    issuePair ex w0 w1 s = if pBit w1 ∨ (w0 = 0 ∧ w1 = 0) then trap cIllegal (w1.setWidth 64) first
      else if pBit w0 then runWord ex w0 first else runParallel ex w0 w1 first := by
  have hno : ¬(pBit w0 = true ∧ (cur s).widx ≠ 0) := by
    rintro ⟨hp, hw⟩
    rcases h with h | h
    · rw [h] at hp
      cases hp
    · exact hw h
  intro first
  rw [issuePair, if_neg hno]

theorem runParallel_spec :
    (classA w0 = true → runParallel ex w0 w1 s = trap cIllegal (w0.setWidth 64) (onWord 0 s)) ∧
    (classA w0 = false → classA w1 = false → runParallel ex w0 w1 s = trap cIllegal (w1.setWidth 64) (onWord 1 s)) ∧
    (classA w0 = false → classA w1 = true →
      (decodeWord w0 = none → runParallel ex w0 w1 s = ex (.unassignedEncoding w0) (onWord 0 s)) ∧
      ∀ i0, decodeWord w0 = some i0 →
        (decodeWord w1 = none → runParallel ex w0 w1 s = ex (.unassignedEncoding w1) (onWord 1 s)) ∧
        ∀ i1, decodeWord w1 = some i1 → runParallel ex w0 w1 s = runPair ex i0 i1 s) := by
  unfold runParallel
  refine ⟨fun ha => if_pos ha, fun ha hb => ?_, fun ha hb => ?_⟩
  · simp only [ha, hb, Bool.not_false, Bool.false_eq_true, if_true, if_false]
  · simp only [ha, hb, Bool.not_true, Bool.false_eq_true, if_false]
    refine ⟨fun h => ?_, fun i0 h0 => ⟨fun h1 => ?_, fun i1 h1 => ?_⟩⟩
    · rw [h]
    · rw [h0, h1]
    · rw [h0, h1]

end Issue

/-- The state in which the pair issues, its page translated by `pages` (R122). -/
def fetched (pages : List Tr) (s : State) : State :=
  { s with me := { s.me with itlb := touchTlb s.iss.slot pages s.me.itlb } }

/-- A fetch whose page is translated, whose line is in the buffer and whose sector is not poisoned gives the pair at its home. -/
theorem fetchPair_of_ok {s : State} {pages : List Tr} {k : BitVec 32 → BitVec 32 → State → Out State}
    (hcheck : checkAccess s s.me.itlb false [(s.iss.pa, .execute)] = .ok pages) (hline : s.iss.pa / 64 ∈ s.me.lines)
    (hbad : isBad (fetched pages s) (homeOf (fetched pages s) pages s.iss.pa) = false) :
    let h := homeOf (fetched pages s) pages s.iss.pa
    fetchPair s k = k (word32At (fetched pages s) h) (word32At (fetched pages s) (h + 4))
      (onCur (fun x => { x with landed := false }) (fetched pages s)) := by
  intro h
  have hbuf : (!(fetched pages s).me.lines.contains (s.iss.pa / 64)) = false :=
    (Bool.not_eq_false' _).mpr (List.contains_iff_mem.2 hline)
  have hfetch : fetchPair s k =
      if (!(fetched pages s).me.lines.contains (s.iss.pa / 64)) = true then park (.fetchLine (s.iss.pa / 64)) (fetched pages s)
      else if isBad (fetched pages s) h = true then trap cPoison (BitVec.ofNat 64 s.iss.pa) (fetched pages s)
      else k (word32At (fetched pages s) h) (word32At (fetched pages s) (h + 4))
        (onCur (fun x => { x with landed := false }) (fetched pages s)) := by
    rw [fetchPair, hcheck]
    rfl
  rw [hfetch, hbuf, hbad]
  rfl

/-- Once nothing that ranks before it is due, a step is the turn of the core, whose issuing slot fetches its pair. -/
theorem stepWith_issue {ex : Instr → State → Out State} {s : State} {c : Nat} {rest : List Turn} {k sp : Nat}
    (htodo : s.todo = .issue c :: rest) (hdue : firstDue ex s (beforeIssue ex c s) = none)
    (hiss : issuing (turnState c { s with todo := rest }) = some (k, sp)) :
    stepWith ex s =
      onNext endTurn (fetchPair (beginIssue k sp (turnState c { s with todo := rest })) (issuePair ex)) := by
  have hturn : stepWith ex s = (firstDue ex s (beforeIssue ex c s)).getD (coreTurn ex c rest s) := by
    rw [stepWith, htodo]
    rfl
  rw [hturn, hdue, Option.getD_none, coreTurn, issueTurn, hiss]
  rfl

/-! ## The obligations -/

/-- Settles O54: the turn fetches its pair, and the pair issues by its two bits 31 and the slot's place. -/
theorem stepRunsDecoded : Obligations.StepRunsDecoded := by
  unfold Obligations.StepRunsDecoded
  intro s c rest k sp pages htodo hdue s1 s2 s3 pa h w0 w1 s4 first second hiss hcheck hline hbad
  have hturn : step s = onNext endTurn (fetchPair s2 (issuePair exec)) := stepWith_issue htodo hdue hiss
  clear_value s1
  have hfetch := fetchPair_of_ok (s := s2) (pages := pages) (k := issuePair exec) hcheck hline hbad
  have hstep : step s = onNext endTurn (issuePair exec w0 w1 s4) := hturn.trans (congrArg (onNext endTurn) hfetch)
  have hplace : (cur s4).widx = (slotOf s1 k).widx := by
    have hcur : cur s3 = { slotOf s1 k with lastIssue := some s1.clock, forfeited := [] } := spGet_set_same _ _ _ _
    rw [cur_onCur, hcur]
  obtain ⟨hrun1, hrun1None⟩ := runWord_spec (ex := exec) (w := w1) (s := second)
  obtain ⟨hrun0, hrun0None⟩ := runWord_spec (ex := exec) (w := w0) (s := first)
  obtain ⟨hclass0, hclass1, hpair⟩ := runParallel_spec (ex := exec) (w0 := w0) (w1 := w1) (s := first)
  rw [hstep]
  refine ⟨fun hp hw => ?_, fun hcase => ?_⟩
  · rw [issuePair_second hp (hplace ▸ hw)]
    exact ⟨fun i hi => congrArg _ (hrun1 i hi), fun hn => congrArg _ (hrun1None hn)⟩
  · rw [issuePair_first (hcase.imp_right hplace.trans)]
    refine ⟨fun hill => congrArg _ (if_pos hill), fun hp0 hp1 => ?_, fun hp0 hp1 hne => ?_⟩
    · have hlegal : ¬(pBit w1 = true ∨ (w0 = 0 ∧ w1 = 0)) := by
        rintro (h1 | ⟨h0, -⟩)
        · rw [hp1] at h1
          cases h1
        · rw [h0] at hp0
          cases hp0
      rw [if_neg hlegal, if_pos hp0]
      exact ⟨fun i hi => congrArg _ (hrun0 i hi), fun hn => congrArg _ (hrun0None hn)⟩
    · have hlegal : ¬(pBit w1 = true ∨ (w0 = 0 ∧ w1 = 0)) := by
        rintro (h1 | ⟨h0, h1⟩)
        · rw [hp1] at h1
          cases h1
        · exact hne.elim (absurd h0) (absurd h1)
      have hpar : ¬pBit w0 = true := by
        rw [hp0]
        exact Bool.false_ne_true
      rw [if_neg hlegal, if_neg hpar]
      refine ⟨fun ha => congrArg _ (hclass0 ha), fun ha hb => congrArg _ (hclass1 ha hb), fun ha hb => ?_⟩
      obtain ⟨hnone, hsome⟩ := hpair ha hb
      exact ⟨fun hn => congrArg _ (hnone hn), fun i0 h0 =>
        ⟨fun hn => congrArg _ ((hsome i0 h0).1 hn), fun i1 h1 => congrArg _ ((hsome i0 h0).2 i1 h1)⟩⟩

theorem resetRotation_getElem? : ∀ k < 16, resetRotation[k]? = some (BitVec.ofNat 16 (2 ^ 15 + k)) := by decide

/-- Settles O59. -/
theorem resetState : Obligations.ResetState := by
  refine ⟨rfl, rfl, fun _ => rfl, rfl, fun k hk => ⟨resetRotation_getElem? k hk, resetRotation_getElem? k hk⟩,
    fun _ => ⟨rfl, rfl⟩, fun scope _ => ?_, rfl, rfl, rfl, rfl, rfl, rfl⟩
  unfold barGet
  split <;> rfl

end Sys2Proof.Proofs
end

section
/-!
SUPPORT. VCVT, VQ, VDQ, the decode table (R360 to R363, R365) and the ray tests as words (R191 to R195).
-/

namespace Sys2Proof.Proofs

open Sys2Proof Sys2Proof.Machine Sys2Proof.Laws

/-! ## Vector conversions (R360 to R363) -/

/-- A ready conversion to 32-bit lanes retires with its lanes. -/
theorem lanes32_of_ready {o : Out State} {u : Uses} {d : BitVec 4} {f : State → Nat → BitVec 32} {s : State}
    (ho : o = enter u s fun s => retireV d (words32 (f s)) s) (h : Ready u s) :
    ∃ ws, o = .next (advance (wrV d ws s)) ∧ ws.length = 8 ∧ ∀ j < 16, lane32 ws j = f s j :=
  ⟨_, retiresV_of_ready ho h, words32_lanes fun _ => rfl⟩

theorem lanes64_of_ready {o : Out State} {u : Uses} {d : BitVec 4} {f : State → Nat → Word} {s : State}
    (ho : o = enter u s fun s => retireV d (words64 (f s)) s) (h : Ready u s) :
    ∃ ws, o = .next (advance (wrV d ws s)) ∧ ws.length = 8 ∧ ∀ j < 8, lane64 ws j = f s j :=
  ⟨_, retiresV_of_ready ho h, words64_lanes _⟩

theorem mapIdx_map_range {α β : Type} (n : Nat) (f : Nat → α) (g : Nat → α → β) :
    ((List.range n).map f).mapIdx g = (List.range n).map fun j => g j (f j) := by
  apply List.ext_getElem <;> simp

/-! ## The decode table (R322, R365) -/

/-- The codes of an entry and of its partner. -/
theorem partner_code {c : Nat} (h : c < 256) : (c ^^^ 0x80) % 128 = c % 128 ∧ (c ^^^ 0x80) / 128 % 2 = 1 - c / 128 % 2 := by
  have hlow : (c ^^^ 0x80) % 2 ^ 7 = c % 2 ^ 7 ^^^ 0 := Nat.xor_mod_two_pow
  have hhigh : (c ^^^ 0x80) / 2 ^ 7 = c / 2 ^ 7 ^^^ 1 := Nat.xor_div_two_pow
  have hone : ∀ k < 2, (k ^^^ 1) % 2 = 1 - k % 2 := by decide
  refine ⟨hlow.trans (Nat.xor_zero _), ?_⟩
  show (c ^^^ 0x80) / 2 ^ 7 % 2 = _
  rw [hhigh]
  exact hone _ (by omega)

theorem tblEntry_tblPut {t : Table} {c e : Nat} (v : BitVec 19) (hlen : t.half.length = 128) :
    tblEntry (tblPut t c v) e = if e % 128 = c % 128 then (if e / 128 % 2 = c / 128 % 2 then v else v ^^^ 0x40000)
      else tblEntry t e := by
  have hc : c % 128 < t.half.length := by omega
  unfold tblEntry tblPut
  by_cases he : e % 128 = c % 128
  · simp only [he, if_true, List.getElem?_set_self hc, Option.getD_some]
    rcases Nat.mod_two_eq_zero_or_one (e / 128) with h1 | h1 <;> rcases Nat.mod_two_eq_zero_or_one (c / 128) with h2 | h2 <;>
      simp [h1, h2]
  · simp only [if_neg he, List.getElem?_set_ne (Ne.symm he)]

/-- TBLW writes an entry and its partner, and no other (R322). -/
theorem execTblw_spec {a b : BitVec 7} {s : State} (h : Ready ⟨[.g a, .g b], []⟩ s) (ha : (rd s a).toNat < 256)
    (hb : (rd s b).toNat < 2 ^ 19) (hlen : s.me.table.half.length = 128) : Gives (execTblw a b s) fun t =>
      t.iss.res = .retired ∧ tblEntry t.me.table (rd s a).toNat = (rd s b).setWidth 19 ∧
      tblEntry t.me.table ((rd s a).toNat ^^^ 0x80) = (rd s b).setWidth 19 ^^^ 0x40000 ∧
      (∀ c < 256, c % 128 ≠ (rd s a).toNat % 128 → tblEntry t.me.table c = tblEntry s.me.table c) ∧
      t = { s with me := { s.me with table := t.me.table, slots := t.me.slots }, iss := t.iss } := by
  obtain ⟨hmod, hdiv⟩ := partner_code ha
  refine ⟨_, outcome_of_ready rfl h ((if_neg ?_).trans (if_neg ?_)), rfl, ?_, ?_, fun c _ hc => ?_, rfl⟩
  · omega
  · omega
  · exact (tblEntry_tblPut _ hlen).trans (by rw [if_pos rfl, if_pos rfl])
  · exact (tblEntry_tblPut _ hlen).trans (by rw [if_pos hmod, hdiv, if_neg (by omega)])
  · exact (tblEntry_tblPut _ hlen).trans (if_neg hc)

/-- Settles O25: each conversion by its lanes. -/
theorem conversionResults : Obligations.ConversionResults := by
  intro d a ga gb mode fmt s h
  have hv : Ready ⟨[.v d, .v a], [.v d]⟩ s := ready_mono _ _ s (by simp) h
  have hr : Ready ⟨[.g gb, .g ga], [.g gb]⟩ s := ready_mono _ _ s (by simp) h
  have hw : Ready ⟨[.g ga, .g gb], []⟩ s := ready_mono _ _ s (by simp) h
  refine ⟨lanes32_of_ready (rfl : execVcvtHS d a mode s = _) hv, lanes32_of_ready (rfl : execVcvtBhS d a mode s = _) hv,
    lanes32_of_ready (rfl : execVcvtES d a mode s = _) hv, lanes32_of_ready (rfl : execVcvtWS d a mode s = _) hv,
    lanes32_of_ready (rfl : execVcvtSW d a mode s = _) hv, lanes32_of_ready (rfl : execVcvtSD d a mode s = _) hv,
    lanes64_of_ready (rfl : execVcvtDS d a mode s = _) hv, lanes64_of_ready (rfl : execVcvtLD d a mode s = _) hv,
    lanes64_of_ready (rfl : execVcvtDL d a mode s = _) hv, ?_, (holdsV_of_ready rfl hv : execVqSc d a mode fmt s = _),
    lanes32_of_ready (rfl : execVdq d a fmt s = _) hv, lanes32_of_ready (rfl : execVdqSc d a fmt s = _) hv,
    fun ha => ⟨?_, fun hb hlen => execTblw_spec hw ha hb hlen⟩, fun ha => ⟨?_, ?_⟩⟩
  · have hcodes := mapIdx_map_range 16 (fun j => unpack fmtS (lane32 (rdV s a) j).toNat)
      fun j y => tblEncode (tableOf s) (fmt == 1) (laneRnd mode (rdV s d) j) y
    refine (holdsV_of_ready rfl hv : execVq d a mode fmt s = _).trans ?_
    rw [valuesS, hcodes]
    rfl
  · exact outcome_of_ready (rfl : execTblr gb ga s = _) hr (if_neg (by omega))
  · exact outcome_of_ready (rfl : execTblr gb ga s = _) hr (if_pos (by omega))
  · exact outcome_of_ready (rfl : execTblw ga gb s = _) hw (if_pos (by omega))

/-! ## Ray tests (R191) -/

/-- What every test takes for a miss. -/
theorem rayMisses_of {ray : Lanes} (h : (∃ j < 8, laneNum ray j = .nan) ∨ (∃ j < 6, isFin (laneNum ray j) = false) ∨
    ltN (laneNum ray 7) (laneNum ray 6) = true) (rec : Lanes) (reads : List Nat) : rayMisses ray rec reads = true := by
  rw [rayMisses, Bool.or_eq_true, Bool.or_eq_true, Bool.or_eq_true]
  rcases h with ⟨j, hj, hnan⟩ | ⟨j, hj, hfin⟩ | hlt
  · exact .inl (.inl (.inl (List.any_eq_true.2 ⟨j, List.mem_range.2 hj, (isNan_iff _).2 hnan⟩)))
  · exact .inl (.inr (List.any_eq_true.2 ⟨j, List.mem_range.2 hj, by rw [hfin]; rfl⟩))
  · exact .inr hlt

/-- Settles O30. -/
theorem intersectionResults : Obligations.IntersectionResults := by
  intro d a b s h
  refine ⟨_, _, _, (retires_of_ready rfl h rfl : execBoxt d a b s = _), rfl, (holds_of_ready rfl h rfl : execTrit d a b s = _),
    rfl, (holds_of_ready rfl h rfl : execSplt d a b s = _), rfl, fun hmiss => ?_⟩
  have miss (reads : List Nat) := rayMisses_of (ray := lanesOfWords (rdV s a)) hmiss (lanesOfWords (rdV s b)) reads
  refine ⟨?_, ?_, ?_⟩
  · rw [boxTest, if_pos (miss _)]
    rfl
  · rw [triTest, if_pos (by rw [miss, Bool.true_or])]
    rfl
  · rw [splatTest, if_pos (by rw [miss, Bool.true_or])]
    rfl

end Sys2Proof.Proofs
end

section
/-!
SUPPORT. What a write of bytes and the issue of an access leave alone, and what a replay does with them (R39, R246, R248, R257,
R299).
-/

namespace Sys2Proof.Proofs

open Sys2Proof Sys2Proof.Machine Sys2Proof.Laws

/-! ## Writing bytes -/

/-- A traced write reaches a port's ring and the log that is replayed. -/
theorem traceAtom_frame (w : Writer) (a : Nat) (s : State) : traceAtom w a s = { s with
    me := { s.me with trace := (traceAtom w a s).me.trace, lost := (traceAtom w a s).me.lost }
    others := (traceAtom w a s).others, replay := (traceAtom w a s).replay } := by
  unfold traceAtom
  split
  · split
    · rfl
    · dsimp only
      split
      · unfold tracePush
        split <;> rfl
      · rfl
  · rfl

theorem traceAll_frame (w : Writer) (l : List Nat) (s : State) : l.foldl (fun s a => traceAtom w a s) s = { s with
    me := { s.me with
      trace := (l.foldl (fun s a => traceAtom w a s) s).me.trace, lost := (l.foldl (fun s a => traceAtom w a s) s).me.lost },
    others := (l.foldl (fun s a => traceAtom w a s) s).others,
    replay := (l.foldl (fun s a => traceAtom w a s) s).replay } := by
  induction l generalizing s with
  | nil => rfl
  | cons a l ih =>
    rw [List.foldl_cons, ih, traceAtom_frame]

/-- A write of bytes: memory, marks, watchers, trace rings, the log that is replayed and the banks asked for. -/
theorem writeBytes_frame (w : Writer) (l : List (Nat × Byte)) (s : State) : writeBytes w l s = { s with
    me := { s.me with
      slots := (writeBytes w l s).me.slots, trace := (writeBytes w l s).me.trace, lost := (writeBytes w l s).me.lost },
    others := (writeBytes w l s).others, mem := spSetAll 0 s.mem l,
    poison := s.poison.filter fun a => !((atomsOf (l.map (·.1))).contains a && coversAtom (l.map (·.1)) a),
    asked := (writeBytes w l s).asked, replay := (writeBytes w l s).replay } := by
  unfold writeBytes
  dsimp only
  rw [traceAll_frame]
  rfl

/-- The parked threads that a write of these atoms wakes (R99). -/
def watches (atoms : List Nat) (p : ParkWhy) : Bool :=
  match p with
  | .watch lo hi => atoms.contains lo || atoms.contains hi
  | _ => false

theorem slotOf_writeBytes (w : Writer) (l : List (Nat × Byte)) (s : State) (k : Nat) :
    slotOf (writeBytes w l s) k = woken s.clock (watches (atomsOf (l.map (·.1)))) (slotOf s k) := by
  unfold writeBytes
  dsimp only
  rw [traceAll_frame, slotOf_wakeAll]
  rfl

/-! ## A replay (R257) -/

theorem replay_traceAtom_none {w : Writer} {a : Nat} {s : State} (h : s.replay = none) : (traceAtom w a s).replay = none := by
  unfold traceAtom
  split
  · split
    · exact h
    · dsimp only
      split <;> simp [h]
  · exact h

theorem replay_traceAll_none {w : Writer} (l : List Nat) {s : State} (h : s.replay = none) :
    (l.foldl (fun s a => traceAtom w a s) s).replay = none := by
  induction l generalizing s with
  | nil => exact h
  | cons a l ih => exact ih (replay_traceAtom_none h)

theorem replay_writeBytes_none {w : Writer} {l : List (Nat × Byte)} {s : State} (h : s.replay = none) :
    (writeBytes w l s).replay = none :=
  replay_traceAll_none (s := { s with mem := _, poison := _ }) _ h

/-- A write of one byte that reaches another core's port takes its turn in the log. -/
theorem replay_writeBytes_one {w : Writer} {h c : Nat} {b : Byte} {r : Replay} {s : State} (hc : scratchCore (h / 32) = some c)
    (hne : c ≠ w.core) (hr : s.replay = some r) : ∃ e : TraceEntry, e.score = BitVec.ofNat 12 w.core ∧
      e.sslot = BitVec.ofNat 4 w.slot ∧ e.kind = BitVec.ofNat 2 w.kind ∧ e.atom = BitVec.ofNat 14 (h / 32) ∧
      (writeBytes w [(h, b)] s).replay = some (replayWrite c e r) := by
  have hatom : BitVec.ofNat 14 (h / 32 % 2 ^ 14) = BitVec.ofNat 14 (h / 32) := by
    apply BitVec.eq_of_toNat_eq
    simp
  have htrace (s : State) (hr : s.replay = some r) : (traceAtom w (h / 32) s).replay = some (replayWrite c
      ⟨BitVec.ofNat 48 (coreClock s (coreOf s c)), BitVec.ofNat 12 w.core, BitVec.ofNat 4 w.slot,
        BitVec.ofNat 14 (h / 32 % 2 ^ 14), BitVec.ofNat 2 w.kind⟩ r) := by
    unfold traceAtom
    rw [hc]
    dsimp only
    rw [if_neg hne, hr]
    split <;> rfl
  exact ⟨_, rfl, rfl, rfl, hatom, htrace { s with mem := _, poison := _ } hr⟩

theorem replayWrite_of_none {c : Nat} {e : TraceEntry} {r : Replay}
    (h : r.left.find? (fun x => x.1 == c && x.2.atom == e.atom) = none) : replayWrite c e r = r := by
  rw [replayWrite, h]

theorem replayWrite_of_some {c : Nat} {e : TraceEntry} {r : Replay} {x : Nat × TraceEntry}
    (h : r.left.find? (fun x => x.1 == c && x.2.atom == e.atom) = some x) :
    (x.2.score = e.score ∧ x.2.sslot = e.sslot ∧ x.2.kind = e.kind →
      replayWrite c e r = { r with left := r.left.erase x }) ∧
    (x.2.score ≠ e.score ∨ x.2.sslot ≠ e.sslot ∨ x.2.kind ≠ e.kind → replayWrite c e r = { r with early := true }) := by
  rw [replayWrite, h]
  refine ⟨fun ⟨h1, h2, h3⟩ => ?_, fun hne => ?_⟩
  · exact if_pos (by simp [sameWrite, h1, h2, h3])
  · refine if_neg fun hsame => ?_
    simp only [sameWrite, Bool.and_eq_true, beq_iff_eq] at hsame
    obtain ⟨⟨h1, h2⟩, h3⟩ := hsame
    rcases hne with h | h | h
    · exact h h1
    · exact h h2
    · exact h h3

/-! ## The issue of an access -/

theorem drawDelays_eq (host : Bool) (ks : List Nat) (s : State) :
    ∃ l ds, drawDelays host ks s = (l, { s with delays := ds }) ∧ l.map (·.1) = ks ∧ ∀ p ∈ l, s.clock ≤ p.2 := by
  induction ks generalizing s with
  | nil => exact ⟨[], s.delays, rfl, rfl, fun _ h => by cases h⟩
  | cons k ks ih =>
    obtain ⟨n, ds, hpop⟩ := popDelay_eq s
    obtain ⟨l, ds', hl, hkeys, hle⟩ := ih { s with delays := ds }
    refine ⟨(k, s.clock + capDelay host n) :: l, ds', ?_, ?_, ?_⟩
    · rw [drawDelays, hpop]
      dsimp only
      rw [hl]
    · rw [List.map_cons, hkeys]
    · rintro p (_ | ⟨_, hp⟩)
      · exact Nat.le_add_right _ _
      · exact hle p hp

/-- The atoms of an access that its core's own banks do not hold. -/
def awayAtoms (s : State) (a : Access) : List Nat := (atomsOf (partAddrs a)).filter fun k => !ownAtom s a k

/-- The cycles of an access's atoms: one for each that its core's own banks do not hold, not before the present one, and after it
for those of another core's scratchpad. -/
theorem drawTimes_eq (host : Bool) (a : Access) (s : State) : ∃ l ds, drawTimes host a s = (l, { s with delays := ds }) ∧
    (∀ k, k ∈ l.map (·.1) ↔ k ∈ awayAtoms s a) ∧ (∀ p ∈ l, s.clock ≤ p.2) ∧
    ∀ p ∈ l, farAtom s a p.1 = true → s.clock < p.2 := by
  obtain ⟨l, ds, hl, hkeys, hle⟩ := drawDelays_eq host ((awayAtoms s a).filter fun k => !farAtom s a k) s
  have hnear : ∀ p ∈ l, farAtom s a p.1 = false := fun p hp => by
    have hmem : p.1 ∈ l.map (·.1) := List.mem_map_of_mem hp
    rw [hkeys, List.mem_filter] at hmem
    simpa using hmem.2
  unfold drawTimes
  dsimp only
  rw [show (atomsOf (partAddrs a)).filter (fun k => !ownAtom s a k) = awayAtoms s a from rfl, hl]
  dsimp only
  split
  case isTrue hnone =>
    rw [List.isEmpty_iff, List.filter_eq_nil_iff] at hnone
    refine ⟨l, ds, rfl, fun k => ?_, hle, fun p hp hfar => ?_⟩
    · rw [hkeys, List.mem_filter]
      exact ⟨And.left, fun hk => ⟨hk, by simpa using hnone k hk⟩⟩
    · rw [hnear p hp] at hfar
      cases hfar
  case isFalse =>
    obtain ⟨n, ds', hpop⟩ := popDelay_eq { s with delays := ds }
    rw [hpop]
    refine ⟨_, ds', rfl, fun k => ?_, fun p hp => ?_, fun p hp hfar => ?_⟩
    · rw [List.map_append, List.mem_append, hkeys, List.map_map, List.mem_filter, List.mem_map]
      constructor
      · rintro (⟨hk, -⟩ | ⟨j, hj, rfl⟩)
        · exact hk
        · exact List.mem_of_mem_filter hj
      · intro hk
        cases hf : farAtom s a k
        · exact .inl ⟨hk, rfl⟩
        · exact .inr ⟨k, List.mem_filter.2 ⟨hk, hf⟩, rfl⟩
    · rcases List.mem_append.1 hp with hp | hp
      · exact hle p hp
      · obtain ⟨j, -, rfl⟩ := List.mem_map.1 hp
        exact Nat.le_add_right _ _
    · rcases List.mem_append.1 hp with hp | hp
      · rw [hnear p hp] at hfar
        cases hfar
      · obtain ⟨j, -, rfl⟩ := List.mem_map.1 hp
        exact Nat.lt_add_of_pos_right (Nat.lt_of_lt_of_le Nat.one_pos (Nat.le_max_left 1 _))

/-- The numbered access that a word makes, before the delays of its atoms are drawn. -/
def freshAccess (rx : Bool) (va : Nat) (act : AccAct) (pages : List Tr) (s : State) : Access :=
  { id := s.me.nextId, slot := s.iss.slot, va := va, pages := pages, act := act, regs := accRegs act, due := s.clock, rx := rx }

/-- The latest of the cycles of an access's atoms, from a first one on. -/
def latest (now : Nat) (parts : List (Nat × Nat)) : Nat := parts.foldl (fun d p => Nat.max d p.2) now

/-- A new access is the fresh one, with the cycles from which its atoms may be applied; the state loses the delays drawn. -/
theorem newAccess_eq (rx : Bool) (va : Nat) (act : AccAct) (pages : List Tr) (s : State) : ∃ parts ds,
    newAccess rx va act pages s =
      ({ freshAccess rx va act pages s with due := latest s.clock parts, parts := parts },
       { s with me := { s.me with nextId := s.me.nextId + 1 }, delays := ds }) ∧
    (∀ k, k ∈ parts.map (·.1) ↔ k ∈ awayAtoms s (freshAccess rx va act pages s)) ∧ (∀ p ∈ parts, s.clock ≤ p.2) ∧
    ∀ p ∈ parts, farAtom s (freshAccess rx va act pages s) p.1 = true → s.clock < p.2 := by
  obtain ⟨parts, ds, hdraw, hkeys, hle, hfar⟩ :=
    drawTimes_eq (pages.any fun t => trTgt t == 1) (freshAccess rx va act pages s) s
  refine ⟨parts, ds, ?_, hkeys, hle, hfar⟩
  unfold freshAccess at hdraw
  unfold newAccess
  dsimp only
  rw [hdraw]
  rfl

theorem applyOwn_of_scalar {a : Access} (h : accVector a.act = false) (s : State) : applyOwn a s = (a, s) := by
  rw [applyOwn, h, Bool.false_and]
  rfl

/-- A blocking scalar access is applied at once, or waits for its reply. -/
theorem issueBlocking_of_scalar {a : Access} (h : accVector a.act = false) (s : State) : issueBlocking a s =
    if a.due ≤ s.clock then inTurn s (finishAccess a s) (waitFor (.reply a) s) else waitFor (.reply a) s := by
  rw [issueBlocking, applyOwn_of_scalar h, ite_self]

/-- Before an access issues, its pages become the most recently used. -/
def touched (pages : List Tr) (s : State) : State := { s with me := { s.me with dtlb := touchTlb s.iss.slot pages s.me.dtlb } }

theorem issueAccess_blocking (va : Nat) (act : AccAct) (pages : List Tr) (s : State) : issueAccess false va act pages s =
    issueBlocking (newAccess false va act pages (touched pages s)).1 (newAccess false va act pages (touched pages s)).2 := rfl

/-- A held blocking access waits for its reply (R257). -/
theorem issueAccess_held {va : Nat} {act : AccAct} {pages : List Tr} {s : State} (hr : s.replay ≠ none)
    (hact : accVector act = false) :
    let r := newAccess false va act pages (touched pages s)
    r.1.due ≤ s.clock → isEarly (finishAccess r.1 r.2) = true → Gives (issueAccess false va act pages s) fun t =>
      t.iss.res = .waiting ∧ (cur t).st = .waiting (.reply r.1) ∧ r.1.va = va ∧ r.1.act = act ∧ r.1.pages = pages ∧
      r.1.slot = s.iss.slot ∧ t.mem = s.mem ∧ t.me.pool = s.me.pool ∧ t.replay = s.replay := by
  intro r hdue hearly
  obtain ⟨parts, ds, hnew, -⟩ := newAccess_eq false va act pages (touched pages s)
  have h1 : r.1 = { freshAccess false va act pages (touched pages s) with due := latest s.clock parts, parts := parts } :=
    congrArg Prod.fst hnew
  have h2 : r.2 = { touched pages s with me := { (touched pages s).me with nextId := s.me.nextId + 1 }, delays := ds } :=
    congrArg Prod.snd hnew
  have hscalar : accVector r.1.act = false := by
    rw [h1]
    exact hact
  have hdue' : r.1.due ≤ r.2.clock := by
    rw [h2]
    exact hdue
  have hissue : issueAccess false va act pages s = waitFor (.reply r.1) r.2 := by
    rw [issueAccess_blocking]
    show issueBlocking r.1 r.2 = _
    rw [issueBlocking_of_scalar hscalar, if_pos hdue', inTurn]
    cases hrep : r.2.replay with
    | none =>
      rw [h2] at hrep
      exact absurd hrep hr
    | some _ => exact if_pos hearly
  refine ⟨_, hissue, rfl, ?_, ?_⟩
  · rw [cur_setRes, cur_onCur]
  · rw [h1, h2]
    exact ⟨rfl, rfl, rfl, rfl, rfl, rfl, rfl⟩

/-! ## The obligation -/

/-- Settles O36: a write of bytes, then what a replay does with one. -/
theorem writeThenRead : Obligations.WriteThenRead := by
  refine ⟨fun w l s => ?_, fun w l s h => replay_writeBytes_none h, fun w h c b r s hc hne hr => ?_, fun e es s he => ?_,
    fun va act pages s hr hact => issueAccess_held hr hact⟩
  · refine ⟨fun hn e he => memAt_writeBytes_mem w l s hn e he, fun h hh => memAt_writeBytes_other w l s h hh,
      memOk_writeBytes w l s, ?_, ?_, ?_, ?_, fun k => ?_, ?_⟩
    · rw [writeBytes_frame]
    · rw [writeBytes_frame]
    · rw [writeBytes_frame]
    · rw [writeBytes_frame]
    · rw [slotOf_writeBytes]
      simp
    · rw [writeBytes_frame]
      exact fun a ha => List.mem_of_mem_filter ha
  · obtain ⟨e, hcore, hslot, hkind, hatom, hreplay⟩ := replay_writeBytes_one (b := b) hc hne hr
    dsimp only
    rw [hreplay, ← hcore, ← hslot, ← hkind, ← hatom]
    refine ⟨fun hnone => congrArg some (replayWrite_of_none hnone), fun x hx => ?_⟩
    obtain ⟨hsame, hother⟩ := replayWrite_of_some hx
    exact ⟨fun h => congrArg some (hsame h), fun h => congrArg some (hother h)⟩
  · have hpass : passedOver (onCore exec e s) = true := by
      unfold passedOver
      split
      · rfl
      · exact he
    rw [firstDue, hpass, Bool.true_or, if_pos rfl]

end Sys2Proof.Proofs
end

section
/-!
SUPPORT. A page whose placement word no walk would fill in (GRAN below an atom, R230), and what an access to it comes to: its
bytes lie in one place and the first byte of its atom in another core's scratchpad, or the other way round. The obligations
that quantify over every state and every translation, and judge by the bytes that an access names alone, fail on it.
-/

namespace Sys2Proof.Proofs

open Sys2Proof Sys2Proof.Machine Sys2Proof.Laws

/-- 64 KiB at address 0, readable and writable, whose bytes go round 128 channels one by one, from frame `pfn` on. -/
def strayPage (pfn : Nat) : Tr :=
  { vbase := 0, size := 0x10000, w0 := BitVec.ofNat 64 (pfn * 2 ^ 16 + 0xC), w1 := 0x10000E000 }

/-- A thread with 128 registers in slot 0 of core 0, whose TLB holds the page; g1 is 8 and all else 0. -/
def strayState (pfn : Nat) : State :=
  { State.reset with
    me := { startCore 0 with
      slots := [(0, { emptySlot with st := .runnable, winSize := 128 })], pool := [(1, 8)], dtlb := [⟨0, strayPage pfn⟩] } }

/-- The frame whose first byte is the first of core 1's scratchpad. -/
def farFrame : Nat := 2 ^ 24 + 8

/-- The frame whose byte 8 is the first of core 1's scratchpad. -/
def nearFrame : Nat := 2 ^ 24 + 8 - 2 ^ 18

/-- The result of an outcome's issue. -/
def resultOf (o : Out State) : Option Res := match o with | .next t => some t.iss.res | _ => none

/-- An outcome with another result is no next state with this one. -/
theorem not_gives_of_resultOf {o : Out State} {P : State → Prop} {r : Res} (hr : resultOf o = some r)
    (hP : ∀ t, P t → t.iss.res ≠ r) : ¬Gives o P := by
  rintro ⟨t, rfl, ht⟩
  exact hP t ht (Option.some.inj hr)

/-- Refutes O16: a load of byte 8 of the stray page, whose home is in no scratchpad, waits for a reply, since the first byte of
its atom lies in another core's scratchpad. -/
theorem not_loadStoreResults : ¬Obligations.LoadStoreResults := by
  intro h
  have hload := (h.1 0 1 0 [strayPage farFrame] (strayState farFrame) ⟨rfl, rfl, rfl⟩ ⟨rfl, rfl, rfl, rfl⟩).1
  refine not_gives_of_resultOf (r := .waiting) rfl ?_ (hload (by decide) (by decide) (by decide) rfl (by decide) rfl)
  rintro t ⟨hres, -⟩
  rw [hres]
  decide

/-- Refutes O21: so does an AMO there. -/
theorem not_atomicResults : ¬Obligations.AtomicResults := by
  intro h
  have hamo := (h 0 1 0 [strayPage farFrame] (strayState farFrame) ⟨rfl, rfl, rfl⟩ ⟨rfl, rfl, rfl, rfl⟩).1
  refine not_gives_of_resultOf (r := .waiting) rfl ?_ ((hamo (by decide) rfl rfl (by decide)).2 rfl (by decide))
  rintro t ⟨hres, -⟩
  rw [hres]
  decide

/-- Refutes O35: so does WATCH, whose word there is the one it waits on. -/
theorem not_watchResults : ¬Obligations.WatchResults := by
  intro h
  have hwatch := (h.1 0 1 0 [strayPage farFrame] (strayState farFrame) ⟨rfl, rfl, rfl⟩ ⟨rfl, rfl, rfl, rfl⟩
    (by decide) (by decide) rfl).2 rfl (by decide)
  refine not_gives_of_resultOf (r := .waiting) rfl ?_ (hwatch.2 rfl)
  rintro t ⟨hres, -⟩
  rw [hres]
  decide

/-- Refutes O20: so does LDV from byte 8 on, none of whose 64 bytes is in a scratchpad. -/
theorem not_vectorAccessResults : ¬Obligations.VectorAccessResults := by
  intro h
  have hload := (h.1 0 1 0 0 [strayPage farFrame] (strayState farFrame) ⟨rfl, rfl, rfl⟩ ⟨rfl, rfl, rfl, rfl⟩ rfl).1
    (by decide) (by decide) (by decide) rfl (by decide) rfl
  refine not_gives_of_resultOf (r := .waiting) rfl ?_ hload
  rintro t ⟨hres, -⟩
  rw [hres]
  decide

/-- Refutes O18: a blocking load of byte 8 of the stray page, whose home is in another core's scratchpad, retires at once, since
the first byte of its atom lies in no scratchpad. -/
theorem not_relaxedIssue : ¬Obligations.RelaxedIssue := by
  intro h
  obtain ⟨-, -, hblock⟩ := h
  have hload := (hblock 0 1 0 [strayPage nearFrame] (strayState nearFrame) ⟨rfl, rfl, rfl⟩).1
    (by decide) (by decide) (by decide) rfl (.inl (by decide))
  refine not_gives_of_resultOf (r := .retired) rfl ?_ hload
  rintro t ⟨hres, -⟩
  rw [hres]
  decide

/-- The same state, with a handler and with the atom poisoned that holds byte 8 of the page. -/
def strayPoisoned : State :=
  let s := strayState farFrame
  onCur (fun c => { c with tvec := 1 }) { s with poison := [homeOf s [strayPage farFrame] 8 / 32] }

/-- Refutes O22: a load of the poisoned byte 8 waits for a reply, too, and does not trap as it issues. -/
theorem not_accessTraps : ¬Obligations.AccessTraps := by
  intro h
  obtain ⟨-, -, hpoison⟩ := h
  obtain ⟨hscalar, -⟩ :=
    hpoison 0 1 0 0 0 0 [strayPage farFrame] strayPoisoned ⟨rfl, rfl, rfl, rfl⟩ (by decide)
  have hload := (hscalar ⟨rfl, rfl, rfl⟩).1 (by decide) (by decide) (by decide) rfl rfl (by decide)
  refine not_gives_of_resultOf (r := .waiting) rfl ?_ hload
  rintro t ⟨hres, -⟩
  rw [hres]
  decide

end Sys2Proof.Proofs
end

section
/-!
SUPPORT. What comes back to a slot: the reply of a scalar access, the end of a hold, and a posted store that the host takes
(R26, R248, R249).
-/

namespace Sys2Proof.Proofs

open Sys2Proof Sys2Proof.Machine Sys2Proof.Laws

/-! ## Accesses with nothing before them -/

/-- An access that no other of its slot precedes is not blocked. -/
theorem farBlocked_of_first {a : Access} {s : State} (h : earlierRx a.slot a.id s = []) (ks : List Nat) :
    farBlocked ks a s = false := by
  rw [farBlocked, h]
  rfl

theorem settleBefore_of_first {a : Access} {s : State} (h : earlierRx a.slot a.id s = []) (hp : s.me.posted = []) :
    settleBefore a s = s := by
  unfold settleBefore settleAtoms
  rw [h]
  show drainPosted a.slot _ s = s
  rw [drainPosted, hp]
  rfl

theorem earlierRx_of_none {s : State} (h : s.me.relaxed = []) (slot id : Nat) : earlierRx slot id s = [] := by
  rw [earlierRx, h]
  rfl

theorem earlierRx_of_only {a : Access} {s : State} (h : s.me.relaxed = [a]) : earlierRx a.slot a.id s = [] := by
  rw [earlierRx, h]
  simp

/-- An access whose cycle has not come, with no atoms of its own, has nothing to be applied to. -/
theorem nowParts_of_early {a : Access} {s : State} (h : s.clock < a.due) (hp : a.parts = []) : nowParts s a = [] := by
  rw [nowParts, if_neg (Nat.not_le.2 h), dueParts, hp]
  rfl

/-- The bytes at an access's homes, as a word. -/
def wordAtHomes (s : State) (pages : List Tr) (va n : Nat) : Word :=
  BitVec.ofNat 64 (leNat (((List.range n).map fun k => homeOf s pages (va + k)).map (byteAt s)))

/-- A plain load that has read nothing yet, applied: its register gets the bytes at its homes, and a mark on one is noted. -/
theorem applyAccess_load {a : Access} {d n : Nat} (hact : a.act = .load d n false) (hgot : a.got = []) (s : State) :
    ∃ asked, applyAccess a s = ⟨{ s with asked := asked }, [(d, wordAtHomes s a.pages a.va n)],
      ((List.range n).map fun k => homeOf s a.pages (a.va + k)).any (isBad s)⟩ := by
  have haddr : accAddrs a = (List.range n).map (a.va + ·) := by
    rw [accAddrs, hact]
  have hseen (va : Nat) : seen s a va = (vaByte s a.pages va, isBad s (homeOf s a.pages va)) := by
    rw [seen, hgot]
    rfl
  refine ⟨(readBanks a s).asked, ?_⟩
  unfold applyAccess
  rw [hact]
  dsimp only
  simp only [haddr, hseen, List.map_map, List.any_map, wordAtHomes]
  rfl

/-! ## Relaxed accesses -/

theorem rxWake_winBase (now : Nat) (regs : List Nat) (c : Slot) : (rxWake now regs c).winBase = c.winBase := by
  unfold rxWake
  split
  · split <;> rfl
  · rfl
  · rfl

theorem rxWake_poisoned (now : Nat) (regs : List Nat) (c : Slot) : (rxWake now regs c).poisoned = c.poisoned := by
  unfold rxWake
  split
  · split <;> rfl
  · rfl
  · rfl

/-- A pair that waits for the register of a relaxed load wakes with it. -/
theorem rxWake_regs {now d : Nat} {c : Slot} (h : c.st = .waiting (.regs [d])) : (rxWake now [d] c).st = .runnable := by
  unfold rxWake
  rw [h]
  dsimp only
  rw [if_pos (by simp)]
  rfl

/-- The only relaxed access of its core, once its cycle has come, completes. -/
theorem exec_relaxedAccessComplete {x : Access} {s : State} (hdue : x.due ≤ s.clock) (hrx : s.me.relaxed = [x])
    (hp : s.me.posted = []) : exec (.relaxedAccessComplete x.id) s = .next (completeRelaxed x s) := by
  show execRelaxedAccessComplete x.id s = _
  have hfirst := earlierRx_of_only hrx
  rw [execRelaxedAccessComplete, show s.me.relaxed.find? (fun a => a.id == x.id) = some x by simp [hrx]]
  dsimp only
  rw [farBlocked_of_first hfirst, if_neg Bool.false_ne_true, if_pos hdue, settleBefore_of_first hfirst hp]

theorem completeRelaxed_good {x : Access} {d n : Nat} {s : State} (hact : x.act = .load d n false) (hgot : x.got = [])
    (hrx : s.me.relaxed = [x]) (hregs : x.regs = [d])
    (hgood : ∀ k < n, isBad s (homeOf s x.pages (x.va + k)) = false) :
    (completeRelaxed x s).me.relaxed = [] ∧ regAt (completeRelaxed x s) x.slot d = wordAtHomes s x.pages x.va n ∧
    (completeRelaxed x s).mem = s.mem ∧
    ((slotOf s x.slot).st = .waiting (.regs [d]) → (slotOf (completeRelaxed x s) x.slot).st = .runnable) := by
  obtain ⟨asked, happ⟩ := applyAccess_load hact hgot
    { s with me := { s.me with relaxed := s.me.relaxed.filter fun y => y.id != x.id } }
  have hgood' : ((List.range n).map fun k => homeOf s x.pages (x.va + k)).any (isBad s) = false := by
    simpa using hgood
  have heq : completeRelaxed x s = setSlot x.slot (rxWake s.clock [d] (slotOf s x.slot))
      (wrSlot x.slot d (wordAtHomes s x.pages x.va n)
        { s with me := { s.me with relaxed := s.me.relaxed.filter fun y => y.id != x.id }, asked := asked }) := by
    unfold completeRelaxed
    dsimp only
    rw [happ, hregs]
    dsimp only
    rw [if_neg (by exact ne_true_of_eq_false hgood')]
    rfl
  rw [heq]
  refine ⟨?_, ?_, rfl, fun hst => ?_⟩
  · simp [hrx]
  · rw [regAt, slotOf_setSlot_same, rxWake_winBase]
    exact regAt_wrSlot_same _ _ _ _
  · rw [slotOf_setSlot_same, rxWake_regs hst]

theorem completeRelaxed_bad {x : Access} {d n : Nat} {s : State} (hact : x.act = .load d n false) (hgot : x.got = [])
    (hrx : s.me.relaxed = [x]) (hregs : x.regs = [d])
    (hbad : ∃ k < n, isBad s (homeOf s x.pages (x.va + k)) = true) :
    (completeRelaxed x s).me.relaxed = [] ∧ (completeRelaxed x s).me.pool = s.me.pool ∧
    (completeRelaxed x s).mem = s.mem ∧
    (slotOf (completeRelaxed x s) x.slot).poisoned = (slotOf s x.slot).poisoned ++ [⟨[d], x.va⟩] := by
  obtain ⟨asked, happ⟩ := applyAccess_load hact hgot
    { s with me := { s.me with relaxed := s.me.relaxed.filter fun y => y.id != x.id } }
  have hbad' : ((List.range n).map fun k => homeOf s x.pages (x.va + k)).any (isBad s) = true := by
    simpa using hbad
  have heq : completeRelaxed x s = setSlot x.slot
      (rxWake s.clock [d] { slotOf s x.slot with poisoned := (slotOf s x.slot).poisoned ++ [⟨[d], x.va⟩] })
      (setSlot x.slot { slotOf s x.slot with poisoned := (slotOf s x.slot).poisoned ++ [⟨[d], x.va⟩] }
        { s with me := { s.me with relaxed := s.me.relaxed.filter fun y => y.id != x.id }, asked := asked }) := by
    unfold completeRelaxed
    dsimp only
    rw [happ, hregs]
    dsimp only
    rw [if_pos (by exact hbad'), slotOf_setSlot_same]
    rfl
  rw [heq]
  refine ⟨?_, rfl, rfl, ?_⟩
  · simp [hrx]
  · rw [slotOf_setSlot_same, rxWake_poisoned]

/-! ## Blocking replies -/

/-- The word of a slot that no access precedes, and that has no partner, retires with its reply. -/
theorem exec_blockingReply {x : Access} {d n : Nat} {s : State} (hact : x.act = .load d n false) (hgot : x.got = [])
    (hdue : x.due ≤ s.clock) (hrx : s.me.relaxed = []) (hp : s.me.posted = [])
    (hst : (slotOf s x.slot).st = .waiting (.reply x)) (hpartner : (slotOf s x.slot).partner = none)
    (hgood : ∀ k < n, isBad s (homeOf s x.pages (x.va + k)) = false) : ∃ asked, exec (.blockingReply x.slot) s =
      .next (freeSlotAgain x.slot (advance (wrSlot x.slot d (wordAtHomes s x.pages x.va n)
        { reissue x.slot s with asked := asked }))) := by
  obtain ⟨asked, happ⟩ := applyAccess_load hact hgot (reissue x.slot s)
  have hgood' : ((List.range n).map fun k => homeOf (reissue x.slot s) x.pages (x.va + k)).any (isBad (reissue x.slot s)) =
      false := by
    have hgood' : ∀ k < n, isBad (reissue x.slot s) (homeOf (reissue x.slot s) x.pages (x.va + k)) = false := hgood
    simpa using hgood'
  have hfinish : finishAccess x (reissue x.slot s) = retire (wrSlot x.slot d (wordAtHomes s x.pages x.va n)
      { reissue x.slot s with asked := asked }) := by
    unfold finishAccess
    rw [settleBefore_of_first (earlierRx_of_none (s := reissue x.slot s) hrx _ _) hp, happ]
    dsimp only
    rw [hgood', if_neg Bool.false_ne_true, hact]
    exact if_neg Bool.false_ne_true
  refine ⟨asked, ?_⟩
  show execBlockingReply x.slot s = _
  unfold execBlockingReply
  rw [hst]
  dsimp only
  rw [farBlocked_of_first (earlierRx_of_none hrx _ _), if_neg Bool.false_ne_true, if_pos hdue]
  unfold endWait
  dsimp only
  rw [hfinish, retire, hpartner]
  exact if_pos rfl

/-- Where the thread stands once its reissued word has retired, without a partner. -/
theorem slotOf_replied (k d : Nat) (v : Word) (asked : List Nat) (s : State) (hpartner : (slotOf s k).partner = none) :
    slotOf (freeSlotAgain k (advance (wrSlot k d v { reissue k s with asked := asked }))) k =
      { wakeSlot s.clock (slotOf s k) with
        partner := none
        pa := if (slotOf s k).widx = 0 then (slotOf s k).pa else wrapPa ((slotOf s k).pa + 8)
        widx := if (slotOf s k).widx = 0 then 1 else 0 } := by
  have hcur : cur (wrSlot k d v { reissue k s with asked := asked }) = slotOf s k := rfl
  have hslot : slotOf (advance (wrSlot k d v { reissue k s with asked := asked })) k =
      cur (advance (wrSlot k d v { reissue k s with asked := asked })) := rfl
  rw [freeSlotAgain, slotOf_setSlot_same, hslot, cur_advance, hcur]
  have hnext : nextPos (wrSlot k d v { reissue k s with asked := asked }).iss (slotOf s k) =
      (if (slotOf s k).widx = 0 then (slotOf s k).pa else wrapPa ((slotOf s k).pa + 8),
        if (slotOf s k).widx = 0 then 1 else 0) := by
    show nextPos (reissue k s).iss (slotOf s k) = _
    have hpar : (reissue k s).iss.par = false := by
      rw [reissue, hpartner]
      rfl
    rw [nextPos, hpar, if_neg Bool.false_ne_true]
    show (if (slotOf s k).widx = 0 then _ else _) = _
    split <;> rfl
  rw [hnext]
  rfl

/-! ## The obligation -/

theorem postedBytes_homes (s : State) (p : Posted) :
    (postedBytes s p).map (·.1) = p.bytes.map fun e => homeOf s p.pages e.1 := by
  simp [postedBytes]

theorem getLsbD_masked (old m b : Byte) (k : Nat) (hk : k < 8) :
    (masked old m b).getLsbD k = if m.getLsbD k = true then b.getLsbD k else old.getLsbD k := by
  unfold masked
  rw [BitVec.getLsbD_or, BitVec.getLsbD_and, BitVec.getLsbD_and, BitVec.getLsbD_not]
  cases m.getLsbD k <;> simp [hk]

/-- The only posted store, once the host may take it, is written and wakes who waits for it. -/
theorem exec_postedWriteDrain {p : Posted} {s : State} (hp : s.me.posted = [p]) (hdue : p.due ≤ s.clock) :
    exec .postedWriteDrain s =
      .next (postedWake p.slot (takePosted p { s with me := { s.me with posted := [] } })) := by
  show execPostedWriteDrain s = _
  have hnext : nextPosted s = some p := by
    simp [nextPosted, hp, hdue]
  rw [execPostedWriteDrain, hnext]
  dsimp only
  rw [show s.me.posted.erase p = [] by rw [hp, List.erase_cons_head]]

theorem postedWake_frame (k : Nat) (s : State) :
    (postedWake k s).mem = s.mem ∧ (postedWake k s).me.pool = s.me.pool ∧ (postedWake k s).me.posted = s.me.posted := by
  unfold postedWake
  split <;> exact ⟨rfl, rfl, rfl⟩

theorem postedWake_waiting {k : Nat} {s : State} (hp : s.me.posted = []) (h : (slotOf s k).st = .waiting .posted) :
    (slotOf (postedWake k s) k).st = .runnable := by
  unfold postedWake
  rw [if_pos ⟨h, by rw [hasPosted, hp]; rfl⟩, slotOf_setSlot_same]
  rfl

/-- A hold that has ended: the thread's pending result is written, and the slot is runnable. -/
theorem exec_holdEnd {k j stop : Nat} {v : Word} {s : State} (hst : (slotOf s k).st = .held stop) (hstop : stop ≤ s.clock)
    (hpend : (slotOf s k).pend = [(j, v)]) : exec (.holdEnd k) s =
      .next (setSlot k { slotOf s k with st := .runnable, pend := [] } (wrSlot k j v s)) := by
  show execHoldEnd k s = _
  unfold execHoldEnd
  dsimp only
  rw [hst]
  dsimp only
  rw [if_pos hstop, hpend]
  rfl

/-- The only posted store, taken: its bits are written at its homes, and the waiting thread wakes. -/
theorem gives_postedWriteDrain {p : Posted} {s : State} (hp : s.me.posted = [p]) (hdue : p.due ≤ s.clock)
    (hnodup : (p.bytes.map fun e => homeOf s p.pages e.1).Nodup) : Gives (exec .postedWriteDrain s) fun t =>
      t.me.posted = [] ∧
      (∀ e ∈ p.bytes, ∀ k < 8, (memAt t (homeOf s p.pages e.1)).getLsbD k =
        if e.2.1.getLsbD k = true then e.2.2.getLsbD k else (memAt s (homeOf s p.pages e.1)).getLsbD k) ∧
      (∀ h, h ∉ p.bytes.map (fun e => homeOf s p.pages e.1) → memAt t h = memAt s h) ∧ t.me.pool = s.me.pool ∧
      ((slotOf s p.slot).st = .waiting .posted → (slotOf t p.slot).st = .runnable) := by
  let s₀ : State := { s with me := { s.me with posted := [] } }
  obtain ⟨hmem, hpool, hposted⟩ := postedWake_frame p.slot (takePosted p s₀)
  have hposted' : (takePosted p s₀).me.posted = [] := by
    rw [takePosted, writeBytes_frame]
  have hhomes : (postedBytes s₀ p).map (·.1) = p.bytes.map fun e => homeOf s p.pages e.1 := postedBytes_homes s₀ p
  refine ⟨_, exec_postedWriteDrain hp hdue, hposted.trans hposted', fun e he k hk => ?_, fun h hh => ?_, ?_, fun hst => ?_⟩
  · have hwritten := memAt_writeBytes_mem ⟨s.me.num, p.slot, 0⟩ (postedBytes s₀ p) s₀ (hhomes ▸ hnodup)
      (homeOf s p.pages e.1, masked (memAt s (homeOf s p.pages e.1)) e.2.1 e.2.2) (List.mem_map.2 ⟨e, he, rfl⟩)
    rw [memAt, hmem]
    exact (congrArg (fun b : Byte => b.getLsbD k) hwritten).trans (getLsbD_masked _ _ _ k hk)
  · rw [memAt, hmem]
    exact memAt_writeBytes_other ⟨s.me.num, p.slot, 0⟩ _ s₀ h (hhomes ▸ hh)
  · rw [hpool, takePosted, writeBytes_frame]
  · refine postedWake_waiting hposted' ?_
    rw [takePosted, slotOf_writeBytes]
    exact (congrArg Slot.st (woken_of_not_parked _ _ _ fun w hw => nomatch hst.symm.trans hw)).trans hst

/-- Settles O19: replies of relaxed and blocking loads, then the end of a hold and a posted write. -/
theorem accessReplies : Obligations.AccessReplies := by
  refine ⟨fun x d n s => ?_, fun k j stop v s hst hstop hpend => ?_, fun p s hp hdue =>
    gives_postedWriteDrain hp hdue⟩
  · intro homes v hact hgot
    have hhome (k : Nat) (hk : k < n) : homeOf s x.pages (x.va + k) ∈ homes := List.mem_map.2 ⟨k, List.mem_range.2 hk, rfl⟩
    refine ⟨fun hearly hparts => ⟨fun hrx => ?_, fun hst => ?_⟩,
      fun hdue hrx hp hregs => ⟨fun hgood => ?_, fun hbad => ?_⟩, fun hdue hrx hp hst hpartner hgood => ?_⟩
    · show execRelaxedAccessComplete x.id s = _
      rw [execRelaxedAccessComplete, show s.me.relaxed.find? (fun a => a.id == x.id) = some x by simp [hrx]]
      dsimp only
      rw [if_neg (Nat.not_le.2 hearly), if_pos (nowParts_of_early hearly hparts), ite_self]
    · show execBlockingReply x.slot s = _
      rw [execBlockingReply, hst]
      dsimp only
      rw [if_neg (Nat.not_le.2 hearly), if_pos (nowParts_of_early hearly hparts), ite_self]
    · exact ⟨_, exec_relaxedAccessComplete hdue hrx hp,
        completeRelaxed_good hact hgot hrx hregs fun k hk => hgood _ (hhome k hk)⟩
    · obtain ⟨h, hmem, hh⟩ := hbad
      obtain ⟨k, hk, rfl⟩ := List.mem_map.1 hmem
      exact ⟨_, exec_relaxedAccessComplete hdue hrx hp,
        completeRelaxed_bad hact hgot hrx hregs ⟨k, List.mem_range.1 hk, hh⟩⟩
    · obtain ⟨asked, heq⟩ := exec_blockingReply hact hgot hdue hrx hp hst hpartner fun k hk => hgood _ (hhome k hk)
      refine ⟨_, heq, ?_, ?_, rfl, fun h0 => ?_, fun h0 => ?_⟩
      · rw [regAt, slotOf_replied _ _ _ _ _ hpartner]
        exact regAt_wrSlot_same _ _ _ _
      · rw [slotOf_replied _ _ _ _ _ hpartner]
        rfl
      · rw [slotOf_replied _ _ _ _ _ hpartner, if_pos h0, if_pos h0]
        exact ⟨rfl, rfl⟩
      · rw [slotOf_replied _ _ _ _ _ hpartner, if_neg h0, if_neg h0]
        exact ⟨rfl, rfl⟩
  · refine ⟨_, exec_holdEnd hst hstop hpend, ?_, ?_, ?_, rfl, fun i hi => pool_wrSlot_other k j i v s hi⟩
    · rw [slotOf_setSlot_same]
    · rw [slotOf_setSlot_same]
    · rw [regAt, slotOf_setSlot_same]
      exact regAt_wrSlot_same _ _ _ _

end Sys2Proof.Proofs
end

section
/-!
SUPPORT. The handle words on a plain handle (R214, R239, R270 to R275).
-/

namespace Sys2Proof.Proofs

open Sys2Proof Sys2Proof.Machine Sys2Proof.Laws

/-! ## A word that writes one register and retires -/

theorem regAt_advance_wr (d : BitVec 7) (v : Word) (s : State) : regAt (advance (wr d v s)) s.iss.slot d.toNat = v := by
  have hslot : slotOf (advance (wr d v s)) s.iss.slot = cur (advance (wr d v s)) := rfl
  rw [regAt, hslot, cur_advance]
  exact regAt_wrSlot_same _ _ _ _

theorem rd_onCur {f : Slot → Slot} (hf : ∀ c, (f c).winBase = c.winBase) (a : BitVec 7) (s : State) :
    rd (onCur f s) a = rd s a := by
  unfold rd rdN
  rw [cur_onCur, hf]
  rfl

/-! ## References -/

/-- The name of a handle with a generation (R270). -/
def nameOf (gen : BitVec 16) (h : Nat) : Word := BitVec.ofNat 64 (gen.toNat * 2 ^ 16 + h)

theorem toNat_nameOf (gen : BitVec 16) {h : Nat} (hh : h < 64) : (nameOf gen h).toNat = gen.toNat * 2 ^ 16 + h := by
  have := gen.isLt
  exact (BitVec.toNat_ofNat ..).trans (Nat.mod_eq_of_lt (by omega))

theorem handleRef_nameOf (gen : BitVec 16) {h : Nat} (hh : h < 64) : handleRef (nameOf gen h) = some (.handle gen h) := by
  have hgen := gen.isLt
  have hfield : (nameOf gen h).extractLsb' 16 16 = gen := by
    apply BitVec.eq_of_toNat_eq
    rw [toNat_extractLsb'_eq, toNat_nameOf gen hh]
    omega
  unfold handleRef
  rw [hfield, toNat_nameOf gen hh, if_neg (by omega), if_neg (by omega), show (gen.toNat * 2 ^ 16 + h) % 64 = h by omega]

theorem hRef_eq (s : State) (h : Nat) : hRef s h = nameOf (hGet s h).gen h := rfl

theorem rd_clearSpurned (s : State) (a : BitVec 7) : rd (clearSpurned s) a = rd s a :=
  rd_onCur (f := fun c => { c with spurned := none }) (fun _ => rfl) a s

/-! ## The words -/

/-- A handle word that changes one handle, writes its register and retires. -/
def setsHandle (i : Instr) (d : BitVec 7) (h : Nat) (s : State) (w : Word) (v : Handle) : Prop :=
  Gives (exec i s) fun t =>
    t.iss.res = .retired ∧ regAt t s.iss.slot d.toNat = w ∧ hGet t h = v ∧ (∀ k, k ≠ h → hGet t k = hGet s k) ∧ t.mem = s.mem

theorem setsHandle_of_hSet {i : Instr} {d : BitVec 7} {h : Nat} {s t : State} {w : Word} {v : Handle}
    (hexec : exec i s = retireWr d w (hSet h v t)) (hslot : t.iss.slot = s.iss.slot) (hh : t.me.handles = s.me.handles)
    (hm : t.mem = s.mem) : setsHandle i d h s w v := by
  refine ⟨_, hexec, rfl, hslot ▸ regAt_advance_wr d w (hSet h v t), hGet_hSet_same h v t, fun k hk => ?_, hm⟩
  exact (hGet_hSet_other h k v t hk).trans (congrArg (fun m => spGet freeHandle m k) hh)

theorem setsHandle_of_read {i : Instr} {d : BitVec 7} {h : Nat} {s t : State} {w : Word}
    (hexec : exec i s = retireWr d w t) (hslot : t.iss.slot = s.iss.slot) (hh : t.me.handles = s.me.handles)
    (hm : t.mem = s.mem) : setsHandle i d h s w (hGet s h) := by
  refine ⟨_, hexec, rfl, hslot ▸ regAt_advance_wr d w t, congrArg (fun m => spGet freeHandle m h) hh, fun k _ => ?_, hm⟩
  exact congrArg (fun m => spGet freeHandle m k) hh

/-- HTAKE of a plain handle by its name. -/
theorem exec_htake {d a b : BitVec 7} {h : Nat} {s : State} (hr : Ready ⟨[.g d, .g a, .g b], [.g d]⟩ s) (hh : h < 64)
    (hname : rd s a = nameOf (hGet s h).gen h) (hring : (hGet s h).ring = false) (hrole : roleOk (rd s b) = true) :
    exec (.htake d a b) s = takeStage d h none (rd s b == 2) (clearSpurned s) := by
  refine outcome_of_ready (rfl : execHtake d a b s = _) hr ?_
  have hrd := rd_clearSpurned s
  dsimp only
  rw [hrd, hrd, hname, handleRef_nameOf _ hh]
  dsimp only
  rw [hrole, show hGet (clearSpurned s) h = hGet s h from rfl, hring]
  exact if_neg (not_or.2 ⟨fun hne => hne rfl, Bool.false_ne_true⟩)

theorem takeStage_wanted {d : BitVec 7} {h : Nat} {consumer : Bool} {s : State} (hst : (hGet s h).st = wanted consumer) :
    takeStage d h none consumer s = retireWr d (nameOf (hGet s h).gen h)
      (hSet h (hTakenBySlot s.iss.slot consumer (hGet s h)) s) := by
  unfold takeStage
  rw [if_neg (fun hne => hne hst)]
  dsimp only
  rw [hRef_eq, hGet_hSet_same]
  cases consumer <;> rfl

/-- HGIVE of a handle by its name, in a role that the handle's state and its owner fit. -/
theorem exec_hgive {d a b : BitVec 7} {h : Nat} {s : State} {v : Handle} (hr : Ready ⟨[.g d, .g a, .g b], [.g d]⟩ s)
    (hh : h < 64) (hname : rd s a = nameOf (hGet s h).gen h) (hrole : roleOk (rd s b) = true)
    (hgiven : given s.iss.slot (rd s b == 2) (hGet s h) = some v) :
    exec (.hgive d a b) s = publish s fun s => retireWr d (nameOf v.gen h) (hSet h v s) := by
  refine outcome_of_ready (rfl : execHgive d a b s = _) hr ?_
  dsimp only
  rw [hname, handleRef_nameOf _ hh]
  dsimp only
  rw [hrole, if_neg (by decide), if_neg (fun hne => hne rfl), hgiven]
  simp only [hRef_eq, hGet_hSet_same]

theorem publish_of_none {s : State} {k : State → Out State} (h : hasPosted s s.iss.slot = false) : publish s k = k s := by
  rw [publish, h, if_neg Bool.false_ne_true]

theorem given_fills {slot : Nat} {v : Handle} (h : v.st = .filling ∧ v.owner.toNat = slot) :
    given slot false v = some { v with st := .full, counted := v.expected } := by
  obtain ⟨hst, rfl⟩ := h
  simp [given, hst]

theorem given_frees {slot : Nat} {v : Handle} (h : v.st = .full ∨ (v.st = .draining ∧ v.owner.toNat = slot)) :
    given slot true v = some (hFreed v) := by
  rcases h with hst | ⟨hst, rfl⟩ <;> simp [given, hst]

/-- The word of HSTAT, field by field. -/
theorem hWord0_eq (v : Handle) :
    hWord0 v = v.gen ++ BitVec.ofNat 2 (hCode v.st) ++ v.owner ++ (0 : BitVec 13) ++ v.counted := by
  have hcode : hCode v.st < 4 := by cases v.st <;> decide
  have := v.gen.isLt
  have := v.owner.isLt
  have := v.counted.isLt
  apply BitVec.eq_of_toNat_eq
  rw [hWord0, BitVec.toNat_ofNat]
  simp only [toNat_append_eq, BitVec.toNat_ofNat, show (0 : BitVec 13).toNat = 0 from rfl]
  omega

/-- The handles that HRING has joined, from the first on. -/
theorem hGet_formRing (h0 n m : Nat) (s : State) :
    let t := (List.range m).foldl (fun s k => hPut (h0 + k) { hGet s (h0 + k) with
      ring := true, rlen := BitVec.ofNat 4 (n - 1), rh0 := BitVec.ofNat 6 h0, pidx := 0, cidx := 0 } s) s
    t.iss = s.iss ∧ ∀ k, hGet t (h0 + k) = if k < m then { hGet s (h0 + k) with
      ring := true, rlen := BitVec.ofNat 4 (n - 1), rh0 := BitVec.ofNat 6 h0, pidx := 0, cidx := 0 } else hGet s (h0 + k) := by
  induction m with
  | zero => exact ⟨rfl, fun _ => rfl⟩
  | succ m ih =>
    obtain ⟨hiss, hget⟩ := ih
    rw [List.range_succ, List.foldl_append]
    refine ⟨hiss, fun k => ?_⟩
    rw [List.foldl_cons, List.foldl_nil]
    rcases Nat.lt_trichotomy k m with hk | rfl | hk
    · rw [hGet_hPut_other _ _ _ _ (by omega), hget, if_pos hk, if_pos (by omega)]
    · rw [hGet_hPut_same, hget, if_neg (Nat.lt_irrefl _), if_pos (Nat.lt_succ_self _)]
    · rw [hGet_hPut_other _ _ _ _ (by omega), hget, if_neg (by omega), if_neg (by omega)]

/-- HRING of FREE handles in no ring. -/
theorem exec_hring {d a b : BitVec 7} {h n : Nat} {s : State} (hr : Ready ⟨[.g d, .g a, .g b], [.g d]⟩ s) (hh : h < 64)
    (ha : rd s a = BitVec.ofNat 64 h) (hb : rd s b = BitVec.ofNat 64 n) (h2 : 2 ≤ n) (h16 : n ≤ 16) (hend : h + n ≤ 64)
    (hfree : ∀ k < n, (hGet s (h + k)).st = .free ∧ (hGet s (h + k)).ring = false) :
    exec (.hring d a b) s = retireWr d (BitVec.ofNat 64 (0x40 + h)) (formRing h n s) := by
  have hah : (rd s a).toNat = h := by
    rw [ha, BitVec.toNat_ofNat]
    omega
  have hbn : (rd s b).toNat = n := by
    rw [hb, BitVec.toNat_ofNat]
    omega
  have hall : ((List.range n).any fun k => (hGet s (h + k)).st != .free || (hGet s (h + k)).ring) = false := by
    simp only [List.any_eq_false, List.mem_range, Bool.or_eq_true, not_or]
    intro k hk
    obtain ⟨hst, hring⟩ := hfree k hk
    simp [hst, hring]
  refine outcome_of_ready (rfl : execHring d a b s = _) hr ?_
  dsimp only
  rw [hah, hbn, if_neg (by omega), if_neg (by omega), if_neg (by omega), if_neg (by omega), hall,
    if_neg Bool.false_ne_true]

/-- Settles O26, word by word. -/
theorem handleResults : Obligations.HandleResults := by
  intro d a b h s hr hh
  have hplain (hname : rd s a = BitVec.ofNat 64 h) : (rd s a).toNat = h := by
    rw [hname, BitVec.toNat_ofNat]
    omega
  have hgiveWaits (v : Handle) (hname : rd s a = nameOf (hGet s h).gen h) (hrole : roleOk (rd s b) = true)
      (hgiven : given s.iss.slot (rd s b == 2) (hGet s h) = some v) (hp : hasPosted s s.iss.slot = true) :
      exec (.hgive d a b) s = .next (setRes .waiting (onCur (fun c => { c with st := .waiting .posted }) s)) := by
    rw [exec_hgive hr hh hname hrole hgiven, publish, if_pos hp]
    rfl
  refine ⟨fun hname hring hb hst => ?_, fun hname hring hb hst => ?_, fun hname hring hb hst => ?_,
    ⟨fun hname hp ⟨hb, hfills⟩ => ?_, fun hname hp ⟨hb, hfrees⟩ => ?_, fun hname hp hgives => ?_⟩, fun hname hst => ?_,
    fun ha hb => ?_, fun ha => ?_, fun ha n hb h2 h16 hend hfree => ?_, fun g hg ha hb => ?_⟩
  · refine setsHandle_of_hSet (t := clearSpurned s) ?_ rfl rfl rfl
    rw [exec_htake hr hh hname hring (by rw [hb]; rfl), hb, hname]
    exact takeStage_wanted (consumer := false) hst
  · refine setsHandle_of_hSet (t := clearSpurned s) ?_ rfl rfl rfl
    rw [exec_htake hr hh hname hring (by rw [hb]; rfl), hb, hname]
    exact takeStage_wanted (consumer := true) hst
  · refine ⟨_, (exec_htake hr hh hname hring (by rw [hb]; rfl)).trans (if_pos ?_), ?_, rfl, ?_, rfl⟩
    · rw [hb]
      exact hst
    · rw [cur_setRes, cur_onCur]
    · rw [cur_setRes, cur_onCur, clearSpurned, cur_onCur]
  · refine setsHandle_of_hSet (t := s) ?_ rfl rfl rfl
    rw [exec_hgive hr hh hname (by rw [hb]; rfl) (by rw [hb]; exact given_fills hfills), publish_of_none hp, hname]
    rfl
  · refine setsHandle_of_hSet (t := s) ?_ rfl rfl rfl
    rw [exec_hgive hr hh hname (by rw [hb]; rfl) (by rw [hb]; exact given_frees hfrees), publish_of_none hp]
    rfl
  · rcases hgives with ⟨hb, hfills⟩ | ⟨hb, hfrees⟩
    · exact hgiveWaits _ hname (by rw [hb]; rfl) (by rw [hb]; exact given_fills hfills) hp
    · exact hgiveWaits _ hname (by rw [hb]; rfl) (by rw [hb]; exact given_frees hfrees) hp
  · refine setsHandle_of_read (t := clearSpurned s) (outcome_of_ready (rfl : execHwait d a b s = _) hr ?_) rfl rfl rfl
    have hrd := rd_clearSpurned s
    have hcode : hCode (hGet s h).st < 4 := by cases (hGet s h).st <;> decide
    dsimp only
    rw [hrd, hrd, hname]
    erw [handleRef_nameOf _ hh]
    dsimp only
    rw [hst, if_neg (by omega), if_neg (fun hne => hne rfl)]
    exact if_pos rfl
  · refine setsHandle_of_read (t := s) (outcome_of_ready (rfl : execHstat d a b s = _) hr ?_) rfl rfl rfl
    have hw := hplain ha
    dsimp only
    rw [hw, hb, if_neg (by omega), if_neg (by decide), if_pos rfl, hWord0_eq, Nat.mod_eq_of_lt hh]
  · have hr' : Ready ⟨[.g d, .g a], [.g d]⟩ s := ready_mono ⟨[.g d, .g a], [.g d]⟩ _ s (by simp) hr
    refine setsHandle_of_read (t := s) (outcome_of_ready (rfl : execHgen d a s = _) hr' ?_) rfl rfl rfl
    have hw := hplain ha
    dsimp only
    rw [hw, if_neg (by omega)]
    rfl
  · obtain ⟨hiss, hget⟩ := hGet_formRing h n n s
    refine ⟨_, exec_hring hr hh ha hb h2 h16 hend hfree, rfl, ?_, fun k hk => (hget k).trans (if_pos hk)⟩
    have hslot : (formRing h n s).iss.slot = s.iss.slot := congrArg Issue.slot hiss
    exact hslot ▸ regAt_advance_wr d _ (formRing h n s)
  · refine outcome_of_ready (rfl : execHgive d a b s = _) hr ?_
    dsimp only
    rw [show rd s a = nameOf g h from ha, handleRef_nameOf _ hh, hb]
    dsimp only
    rw [if_neg (by decide), if_pos hg]
    rfl

end Sys2Proof.Proofs
end

section
/-!
SUPPORT. The barrier words at every scope, and the wake of a completed phase (R96 to R98, R121).
-/

namespace Sys2Proof.Proofs

open Sys2Proof Sys2Proof.Machine Sys2Proof.Laws

/-! ## The barrier that a scope names -/

theorem barGet_barSet (scope id : Nat) (v : Barrier) (s : State) : barGet (barSet scope id v s) scope id = v := by
  unfold barSet barGet
  split <;> simp [clusterAt, dieAt, setCluster, setDie, myCluster, myDie]

theorem barSet_frame (scope id : Nat) (v : Barrier) (s : State) : (barSet scope id v s).iss = s.iss ∧
    (barSet scope id v s).me.num = s.me.num ∧ (barSet scope id v s).me.pool = s.me.pool ∧
    cur (barSet scope id v s) = cur s ∧ (barSet scope id v s).mem = s.mem := by
  unfold barSet
  split <;> exact ⟨rfl, rfl, rfl, rfl, rfl⟩

/-! ## Arrivals -/

/-- What an arrival may change beside the barrier itself. -/
theorem countArrival_eq (scope id : Nat) (s : State) : ∃ ws ds, countArrival scope id s =
    { barSet scope id (arrived s.clock (barGet s scope id)) s with wakes := ws, delays := ds } := by
  unfold countArrival
  dsimp only
  split
  · obtain ⟨n, ds, hpop⟩ := popDelay_eq (barSet scope id (arrived s.clock (barGet s scope id)) s)
    rw [barComplete, hpop]
    exact ⟨_, _, rfl⟩
  · exact ⟨_, _, rfl⟩

theorem sendFlit_frame (port : Nat) (type : BitVec 8) (dpkg : Nat) (barrier : Option Nat) (s : State) :
    ∃ ls ds n, sendFlit port type dpkg barrier s = { s with links := ls, delays := ds, freeUsed := n } := by
  obtain ⟨n, ds, hpop⟩ := popDelay_eq { s with freeUsed := s.freeUsed + 1 }
  unfold sendFlit
  dsimp only
  rw [hpop]
  exact ⟨_, _, _, rfl⟩

theorem tellPod_frame (id : Nat) (s : State) : ∃ ls ds n, tellPod id s = { s with links := ls, delays := ds, freeUsed := n } := by
  unfold tellPod
  generalize s.ctx.pod.routes.filter (fun r => r.1 != s.pkg) = rs
  induction rs generalizing s with
  | nil => exact ⟨_, _, _, rfl⟩
  | cons r rs ih =>
    obtain ⟨ls, ds, n, hsend⟩ := sendFlit_frame r.2 1 r.1 (some id) s
    obtain ⟨ls', ds', n', hrest⟩ := ih { s with links := ls, delays := ds, freeUsed := n }
    rw [List.foldl_cons, hsend, hrest]
    exact ⟨_, _, _, rfl⟩

/-- The state after an arrival: the barrier, the wakes, the links, and what draws them. -/
theorem arriveBar_eq (scope id : Nat) (s : State) : ∃ ws ls ds n, arriveBar scope id s =
    (joinedPhase s.clock (barGet s scope id),
      (arrived s.clock (barGet s scope id)).phase != joinedPhase s.clock (barGet s scope id),
      { barSet scope id (arrived s.clock (barGet s scope id)) s with
        wakes := ws, links := ls, delays := ds, freeUsed := n }) := by
  obtain ⟨ws, ds, hcount⟩ := countArrival_eq scope id s
  unfold arriveBar
  dsimp only
  rw [hcount]
  split
  · obtain ⟨ls, ds', n, htell⟩ := tellPod_frame id
      { barSet scope id (arrived s.clock (barGet s scope id)) s with wakes := ws, delays := ds }
    rw [htell]
    exact ⟨_, _, _, _, rfl⟩
  · exact ⟨_, _, _, _, rfl⟩

theorem arrived_counted {now : Nat} {v : Barrier} (h : v.count + 1 ≠ v.n) :
    arrived now v = { v with start := joinedPhase now v, cycle := now, count := v.count + 1 } := if_neg h

theorem arrived_last {now : Nat} {v : Barrier} (h : v.count + 1 = v.n) :
    arrived now v = { v with start := joinedPhase now v, cycle := now, count := 0, phase := v.phase + 1 } := if_pos h

/-- A word that arrives, writes the joined phase, and stands at the next word in a given way. -/
def arrives (d : BitVec 7) (scope id : Nat) (s : State) (st : SlotState) (v : Barrier) (o : Out State) : Prop :=
  Gives o fun t =>
    t.iss.res = .retired ∧ regAt t s.iss.slot d.toNat = (joinedPhase s.clock (barGet s scope id)).setWidth 64 ∧
    barGet t scope id = v ∧ (cur t).st = st ∧ (cur t).pa = (cur (advance s)).pa ∧ (cur t).widx = (cur (advance s)).widx ∧
    t.mem = s.mem

/-- A state in which an arrival has been counted, `s` being the state before it. -/
structure Counted (scope id : Nat) (s t : State) : Prop where
  iss : t.iss = s.iss
  num : t.me.num = s.me.num
  slot : cur t = cur s
  bar : barGet t scope id = arrived s.clock (barGet s scope id)
  mem : t.mem = s.mem

theorem arriveBar_counted (scope id : Nat) (s : State) : ∃ t, Counted scope id s t ∧ arriveBar scope id s =
    (joinedPhase s.clock (barGet s scope id),
      (arrived s.clock (barGet s scope id)).phase != joinedPhase s.clock (barGet s scope id), t) := by
  obtain ⟨ws, ls, ds, n, heq⟩ := arriveBar_eq scope id s
  obtain ⟨hiss, hnum, -, hcur, hmem⟩ := barSet_frame scope id (arrived s.clock (barGet s scope id)) s
  have hbar := barGet_barSet scope id (arrived s.clock (barGet s scope id)) s
  refine ⟨(arriveBar scope id s).2.2, ?_, by rw [heq]⟩
  rw [heq]
  exact ⟨hiss, hnum, hcur, hbar, hmem⟩

theorem cur_advance_wr (d : BitVec 7) (w : Word) {s t : State} (hiss : t.iss = s.iss) (hcur : cur t = cur s) :
    cur (advance (wr d w t)) = cur (advance s) := by
  rw [cur_advance, cur_advance]
  show { cur t with pa := (nextPos t.iss (cur t)).1, widx := (nextPos t.iss (cur t)).2 } = _
  rw [hiss, hcur]

theorem regAt_onCur {f : Slot → Slot} (hf : ∀ c, (f c).winBase = c.winBase) (j : Nat) (s : State) :
    regAt (onCur f s) s.iss.slot j = regAt s s.iss.slot j := by
  have hslot : slotOf (onCur f s) s.iss.slot = f (cur s) := cur_onCur f s
  rw [regAt, hslot, hf]
  rfl

theorem arrives_advance {d : BitVec 7} {scope id : Nat} {s t : State} (h : Counted scope id s t) :
    arrives d scope id s (cur s).st (arrived s.clock (barGet s scope id))
      (.next (advance (wr d ((joinedPhase s.clock (barGet s scope id)).setWidth 64) t))) := by
  have hcur := cur_advance_wr d ((joinedPhase s.clock (barGet s scope id)).setWidth 64) h.iss h.slot
  refine ⟨_, rfl, rfl, ?_, h.bar, ?_, congrArg Slot.pa hcur, congrArg Slot.widx hcur, h.mem⟩
  · exact congrArg Issue.slot h.iss ▸ regAt_advance_wr d _ t
  · rw [hcur, cur_advance]

theorem arrives_parked {d : BitVec 7} {scope id : Nat} {s t : State} (w : ParkWhy) (h : Counted scope id s t) :
    arrives d scope id s (.parked w) (arrived s.clock (barGet s scope id))
      (.next (onCur (fun c => { c with st := .parked w })
        (advance (wr d ((joinedPhase s.clock (barGet s scope id)).setWidth 64) t)))) := by
  have hcur := cur_advance_wr d ((joinedPhase s.clock (barGet s scope id)).setWidth 64) h.iss h.slot
  refine ⟨_, rfl, rfl, ?_, h.bar, ?_, ?_, ?_, h.mem⟩
  · have hreg := regAt_onCur (f := fun c => { c with st := .parked w }) (fun _ => rfl) d.toNat
      (advance (wr d ((joinedPhase s.clock (barGet s scope id)).setWidth 64) t))
    exact congrArg Issue.slot h.iss ▸ hreg.trans (regAt_advance_wr d _ t)
  · rw [cur_onCur]
  · rw [cur_onCur, hcur]
  · rw [cur_onCur, hcur]

/-! ## The words -/

theorem exec_bara {d id : BitVec 7} {scope : BitVec 3} {s : State} (hr : Ready ⟨[.g d], [.g d]⟩ s)
    (hn : (barGet s scope.toNat id.toNat).n ≠ 0) (hp : hasPosted s s.iss.slot = false) :
    arrives d scope.toNat id.toNat s (cur s).st (arrived s.clock (barGet s scope.toNat id.toNat))
      (exec (.bara d scope id) s) := by
  obtain ⟨t, ht, harrive⟩ := arriveBar_counted scope.toNat id.toNat s
  have hexec : exec (.bara d scope id) s =
      .next (advance (wr d ((joinedPhase s.clock (barGet s scope.toNat id.toNat)).setWidth 64) t)) := by
    refine outcome_of_ready (rfl : execBara d scope id s = _) hr ?_
    rw [if_neg hn, publish_of_none hp, harrive]
    rfl
  rw [hexec]
  exact arrives_advance ht

/-- BAR goes on where its arrival has completed the phase that it joined, and else parks at its next word. -/
theorem exec_bar {d id : BitVec 7} {scope : BitVec 3} {s : State} (hr : Ready ⟨[.g d], [.g d]⟩ s)
    (hn : (barGet s scope.toNat id.toNat).n ≠ 0) (hp : hasPosted s s.iss.slot = false) :
    let v := barGet s scope.toNat id.toNat
    let joined := joinedPhase s.clock v
    arrives d scope.toNat id.toNat s
      (if (arrived s.clock v).phase = joined then
        .parked (.bar scope.toNat (barCell scope.toNat s.me.num) id.toNat joined false) else (cur s).st)
      (arrived s.clock v) (exec (.bar d scope id) s) := by
  intro v joined
  obtain ⟨t, ht, harrive⟩ := arriveBar_counted scope.toNat id.toNat s
  have hexec : exec (.bar d scope id) s =
      if ((arrived s.clock v).phase != joined) = true then .next (advance (wr d (joined.setWidth 64) t))
      else .next (onCur (fun c => { c with
        st := .parked (.bar scope.toNat (barCell scope.toNat s.me.num) id.toNat joined false) })
        (advance (wr d (joined.setWidth 64) t))) := by
    refine outcome_of_ready (rfl : execBar d scope id s = _) hr ?_
    rw [if_neg hn, publish_of_none hp, harrive]
    dsimp only
    rw [show (advance (wr d (joined.setWidth 64) t)).me.num = s.me.num from ht.num]
  rw [hexec]
  by_cases hph : (arrived s.clock v).phase = joined
  · have hne : ((arrived s.clock v).phase != joined) = false := bne_eq_false_iff_eq.2 hph
    rw [hne, if_neg Bool.false_ne_true, if_pos hph]
    exact arrives_parked _ ht
  · have hne : ((arrived s.clock v).phase != joined) = true := bne_iff_ne.2 hph
    rw [hne, if_pos rfl, if_neg hph]
    exact arrives_advance ht

/-- A wake of the core's waiters on a phase that has completed. -/
theorem exec_barrierWake {scope cell id : Nat} {ph : BitVec 16} {w : BarWake} {s : State} (hw : s.wakes = [w])
    (hscope : w.scope = scope) (hcell : w.cell = cell) (hid : w.id = id) (hph : w.phase = ph) (hdue : w.due ≤ s.clock) :
    exec (.barrierWake scope cell id ph) s =
      let f := if s.switch = .resident then barWakeCore s.clock (barWakes scope cell id ph) else fun m => m
      .next { s with wakes := [], me := f s.me, others := s.others.map fun e => (e.1, e.2.map f) } := by
  show execBarrierWake scope cell id ph s = _
  have hfind : (s.wakes.find? fun w => w.scope == scope && w.cell == cell && w.id == id && w.phase == ph &&
      decide (w.due ≤ s.clock)) = some w := by
    simp [hw, hscope, hcell, hid, hph, hdue]
  unfold execBarrierWake
  rw [hfind]
  dsimp only
  rw [show s.wakes.erase w = [] by rw [hw, List.erase_cons_head]]

/-- BARI needs privilege at the scopes of the package and the pod only. -/
theorem enterWith_bari {u : Uses} {scope : BitVec 3} {p : Word} {s : State} {k : State → Out State} (hr : Ready u s)
    (h : scope.toNat < 4 ∨ (cur s).prv = true) :
    enterWith u (if scope = 4 ∨ scope = 5 then some p else none) false s k = k s := by
  rcases h with h | h
  · have hscope : ¬(scope = 4 ∨ scope = 5) := by
      rintro (rfl | rfl)
      · exact absurd h (by decide)
      · exact absurd h (by decide)
    rw [if_neg hscope]
    exact enter_of_ready u s k hr
  · exact enterWith_of_ready_prv u s _ k hr h

theorem exec_bari {d id : BitVec 7} {scope : BitVec 3} {s : State} (hr : Ready ⟨[.g d], []⟩ s)
    (hprv : scope.toNat < 4 ∨ (cur s).prv = true) (h1 : 1 ≤ (rd s d).toNat % 2 ^ 32)
    (hmax : (rd s d).toNat % 2 ^ 32 ≤ barMax s scope.toNat) (hcount : (barGet s scope.toNat id.toNat).count = 0)
    (hwaited : barWaited s scope.toNat (barCell scope.toNat s.me.num) id.toNat = false) :
    exec (.bari d scope id) s = .next (advance (barSet scope.toNat id.toNat
      { barGet s scope.toNat id.toNat with n := (rd s d).toNat % 2 ^ 32, count := 0 } s)) := by
  show execBari d scope id s = _
  unfold execBari
  dsimp only
  rw [enterWith_bari hr hprv, if_neg (by omega), hcount, hwaited, if_neg (by simp)]
  rfl

/-- Settles O29: an arrival at a barrier of any scope, what keeps one from it, BARW, BARI, and the wake of a phase. -/
theorem barrierResults : Obligations.BarrierResults := by
  intro d id scope s hr
  have hr' : Ready ⟨[.g d], []⟩ s := ⟨hr.1, hr.2.1, hr.2.2⟩
  intro sc cell v joined v' at_
  refine ⟨fun hn hc => ⟨fun hp => ?_, fun hph hp => ?_, fun hph hp => ?_⟩, fun hn hc => ⟨fun hp => ?_, fun hph hp => ?_⟩,
    fun hn hp => ⟨?_, ?_⟩, fun hn => ⟨?_, ?_⟩, fun hph => ?_, fun hph => ?_, fun hprv h1 hmax hcount hwaited => ?_,
    fun k ph w hw hscope hcell hid hphase hdue => ⟨fun hres hrun hst => ?_, fun hres => ?_⟩⟩
  · rw [show ({ v' with count := v.count + 1 } : Barrier) = arrived s.clock v from (arrived_counted hc).symm]
    exact exec_bara hr hn hp
  · have h := exec_bar hr hn hp
    dsimp only at h
    rw [if_pos (by rw [arrived_counted hc]; exact hph)] at h
    rw [show ({ v' with count := v.count + 1 } : Barrier) = arrived s.clock v from (arrived_counted hc).symm]
    exact h
  · have h := exec_bar hr hn hp
    dsimp only at h
    rw [if_neg (by rw [arrived_counted hc]; exact hph)] at h
    rw [show ({ v' with count := v.count + 1 } : Barrier) = arrived s.clock v from (arrived_counted hc).symm]
    exact h
  · rw [show ({ v' with count := 0, phase := v.phase + 1 } : Barrier) = arrived s.clock v from (arrived_last hc).symm]
    exact exec_bara hr hn hp
  · have h := exec_bar hr hn hp
    dsimp only at h
    rw [if_neg (by rw [arrived_last hc]; exact hph)] at h
    rw [show ({ v' with count := 0, phase := v.phase + 1 } : Barrier) = arrived s.clock v from (arrived_last hc).symm]
    exact h
  · refine outcome_of_ready (rfl : execBar d scope id s = _) hr ?_
    rw [if_neg hn, publish, if_pos hp]
    rfl
  · refine outcome_of_ready (rfl : execBara d scope id s = _) hr ?_
    rw [if_neg hn, publish, if_pos hp]
    rfl
  · refine outcome_of_ready (rfl : execBar d scope id s = _) hr ?_
    rw [if_pos hn]
    rfl
  · refine outcome_of_ready (rfl : execBara d scope id s = _) hr ?_
    rw [if_pos hn]
    rfl
  · refine outcome_of_ready (rfl : execBarw d scope id s = _) hr' ?_
    rw [if_neg hph]
    rfl
  · refine outcome_of_ready (rfl : execBarw d scope id s = _) hr' ?_
    rw [if_pos hph]
    rfl
  · obtain ⟨-, -, hpool, -, hmem⟩ := barSet_frame sc id.toNat { v with n := (rd s d).toNat % 2 ^ 32, count := 0 } s
    exact ⟨_, exec_bari hr' hprv h1 hmax hcount hwaited, rfl, barGet_barSet sc id.toNat _ s, hpool, hmem⟩
  · refine ⟨_, exec_barrierWake hw hscope hcell hid hphase hdue, rfl, ?_⟩
    have hslot : slotOf (wake (barWakes sc cell id.toNat ph) s) k = wakeSlot s.clock (slotOf s k) := by
      rw [slotOf_wake, woken, hst]
      dsimp only
      rw [if_pos (by simp [barWakes])]
    have hme : (if s.switch = .resident then barWakeCore s.clock (barWakes sc cell id.toNat ph) else fun m => m) s.me =
        (wake (barWakes sc cell id.toNat ph) s).me := by
      rw [if_pos hres, barWakeCore, hrun, if_neg Bool.false_ne_true]
      rfl
    rw [hme]
    constructor
    · exact congrArg Slot.st hslot
    · exact (congrArg Slot.elig hslot).symm ▸ Nat.lt_of_lt_of_le (Nat.lt_succ_self _) (Nat.le_max_right _ _)
  · rw [exec_barrierWake hw hscope hcell hid hphase hdue]
    dsimp only
    rw [if_neg hres]
    simp

end Sys2Proof.Proofs
end

section
/-!
SUPPORT. The shading cache's words (R203 to R205).
-/

namespace Sys2Proof.Proofs

open Sys2Proof Sys2Proof.Machine Sys2Proof.Laws

/-! ## The way that a claim takes -/

/-- The earlier filled of a VALID way and the best so far, as `earliest` goes through a set. -/
def older (cl : Cluster) (best : Option (Nat × Nat)) (w : Nat) : Option (Nat × Nat) :=
  match wayAt cl w, best with
  | some x, none => if x.valid then some (w, x.filled) else none
  | some x, some (b, f) => if x.valid && decide (x.filled < f) then some (w, x.filled) else some (b, f)
  | none, b => b

theorem earliest_eq (cl : Cluster) (key : Nat) : earliest cl key = ((waysOf key).foldl (older cl) none).map (·.1) := rfl

/-- With no VALID way in a list there is no earliest. -/
theorem foldl_older_none {cl : Cluster} {l : List Nat} (h : ∀ v ∈ l, ∃ x, wayAt cl v = some x ∧ x.valid = false) :
    l.foldl (older cl) none = none := by
  induction l with
  | nil => rfl
  | cons v l ih =>
    obtain ⟨x, hx, hv⟩ := h v List.mem_cons_self
    have hstep : older cl none v = none := by
      unfold older
      rw [hx]
      simp [hv]
    rw [List.foldl_cons, hstep]
    exact ih fun u hu => h u (List.mem_cons_of_mem v hu)

/-- Way w, whose contents are x, was filled before every other VALID way of a list. -/
def FilledFirst (cl : Cluster) (w : Nat) (x : ShadeWay) (l : List Nat) : Prop :=
  ∀ v ∈ l, v ≠ w → ∀ y, wayAt cl v = some y → y.valid = true → x.filled < y.filled

theorem older_keeps {cl : Cluster} {w v : Nat} {x : ShadeWay} {l : List Nat} (hx : wayAt cl w = some x)
    (hfirst : FilledFirst cl w x l) (hv : v ∈ l) : older cl (some (w, x.filled)) v = some (w, x.filled) := by
  unfold older
  cases hy : wayAt cl v with
  | none => rfl
  | some y =>
    refine if_neg fun hlt => ?_
    rw [Bool.and_eq_true, decide_eq_true_eq] at hlt
    obtain ⟨hvalid, hlt⟩ := hlt
    by_cases hvw : v = w
    · rw [hvw, hx] at hy
      cases hy
      exact Nat.lt_irrefl _ hlt
    · exact Nat.lt_asymm hlt (hfirst v hv hvw y hy hvalid)

theorem foldl_older_keeps {cl : Cluster} {w : Nat} {x : ShadeWay} {l : List Nat} (hx : wayAt cl w = some x)
    (hfirst : FilledFirst cl w x l) : l.foldl (older cl) (some (w, x.filled)) = some (w, x.filled) := by
  induction l with
  | nil => rfl
  | cons v l ih =>
    rw [List.foldl_cons, older_keeps hx hfirst List.mem_cons_self]
    exact ih fun u hu => hfirst u (List.mem_cons_of_mem v hu)

/-- A best so far that way w, filled at f, still beats. -/
def beaten (f : Nat) (best : Option (Nat × Nat)) : Prop := ∀ b g, best = some (b, g) → f < g

theorem older_beaten {cl : Cluster} {w v : Nat} {x : ShadeWay} {best : Option (Nat × Nat)} {l : List Nat}
    (hfirst : FilledFirst cl w x l) (hv : v ∈ l) (hvw : v ≠ w) (hbest : beaten x.filled best) :
    beaten x.filled (older cl best v) := by
  intro b g
  unfold older
  cases hy : wayAt cl v with
  | none => exact hbest b g
  | some y =>
    have hlt := hfirst v hv hvw y hy
    cases best with
    | none =>
      dsimp only
      split
      · rintro ⟨⟩
        exact hlt ‹_›
      · rintro ⟨⟩
    | some c =>
      dsimp only
      split
      · rintro ⟨⟩
        exact hlt (Bool.and_eq_true_iff.1 ‹_›).1
      · exact hbest b g

theorem older_takes {cl : Cluster} {w : Nat} {x : ShadeWay} {best : Option (Nat × Nat)} (hx : wayAt cl w = some x)
    (hvalid : x.valid = true) (hbest : beaten x.filled best) : older cl best w = some (w, x.filled) := by
  unfold older
  rw [hx]
  cases best with
  | none => exact if_pos hvalid
  | some c => exact if_pos (by rw [hvalid, decide_eq_true (hbest c.1 c.2 rfl)]; rfl)

theorem foldl_older_first {cl : Cluster} {w : Nat} {x : ShadeWay} {l : List Nat} {best : Option (Nat × Nat)}
    (hx : wayAt cl w = some x) (hvalid : x.valid = true) (hfirst : FilledFirst cl w x l) (hbest : beaten x.filled best)
    (hw : w ∈ l) : l.foldl (older cl) best = some (w, x.filled) := by
  induction l generalizing best with
  | nil => cases hw
  | cons v l ih =>
    have hrest : FilledFirst cl w x l := fun u hu => hfirst u (List.mem_cons_of_mem v hu)
    rw [List.foldl_cons]
    by_cases hvw : v = w
    · rw [hvw, older_takes hx hvalid hbest]
      exact foldl_older_keeps hx hrest
    · refine ih hrest (older_beaten hfirst List.mem_cons_self hvw hbest) ?_
      exact (List.mem_cons.1 hw).resolve_left fun h => hvw h.symm

theorem claimable_pending {cl : Cluster} {key : Nat} (h : ∀ v ∈ waysOf key, ∃ x, wayAt cl v = some x ∧ x.valid = false) :
    claimable cl key = none := by
  have hnone : (waysOf key).find? (fun w => (wayAt cl w).isNone) = none := by
    rw [List.find?_eq_none]
    intro v hv
    obtain ⟨x, hx, -⟩ := h v hv
    simp [hx]
  rw [claimable, hnone]
  dsimp only
  rw [earliest_eq, foldl_older_none h]
  rfl

theorem claimable_first {cl : Cluster} {key w : Nat} {x : ShadeWay} (hall : ∀ v ∈ waysOf key, wayAt cl v ≠ none)
    (hw : w ∈ waysOf key) (hx : wayAt cl w = some x) (hvalid : x.valid = true)
    (hfirst : FilledFirst cl w x (waysOf key)) : claimable cl key = some w := by
  have hnone : (waysOf key).find? (fun w => (wayAt cl w).isNone) = none := by
    rw [List.find?_eq_none]
    intro v hv
    simpa using hall v hv
  rw [claimable, hnone]
  dsimp only
  rw [earliest_eq, foldl_older_first hx hvalid hfirst (fun _ _ h => by cases h) hw]
  rfl

theorem key_of_wayOf {cl : Cluster} {key w : Nat} {x : ShadeWay} (h : wayOf cl key = some (w, x)) : x.key = key := by
  obtain ⟨v, -, hv⟩ := List.exists_of_findSome?_eq_some h
  split at hv
  · split at hv
    · cases hv
      assumption
    · cases hv
  · cases hv

/-! ## The words -/

theorem wayAt_setWay (w : Nat) (x : ShadeWay) (s : State) : wayAt (clusterAt (setWay w x s) (myCluster s)) w = some x := by
  simp [setWay, wayAt, clusterAt, setCluster]

theorem wayAt_fillWay (w : Nat) (x : ShadeWay) (data : Rec) (s : State) :
    wayAt (clusterAt (fillWay w x data s) (myCluster s)) w =
      some ⟨x.key, true, x.owner, data, (clusterAt s (myCluster s)).fills⟩ := by
  simp [fillWay, wakeIn, wayAt, clusterAt, setCluster]

theorem slotOf_fillWay {w k : Nat} {x : ShadeWay} {data : Rec} {s : State} (h : (slotOf s k).st = .parked (.tsWait x.key)) :
    slotOf (fillWay w x data s) k = wakeSlot s.clock (slotOf s k) := by
  unfold fillWay
  dsimp only
  rw [slotOf_wakeIn, if_pos (by simp [setCluster, myCluster])]
  show woken s.clock _ (slotOf s k) = _
  rw [woken, h]
  exact if_pos (beq_self_eq_true _)

theorem withKey_large {a : BitVec 7} {s : State} {k : Nat → State → Out State} (h : 2 ^ 48 ≤ (rd s a).toNat) :
    withKey a s k = .next (takeTrap cIllegal (rd s a) s) := if_pos (by omega)

theorem withKey_small {a : BitVec 7} {s : State} {k : Nat → State → Out State} (h : (rd s a).toNat < 2 ^ 48) :
    withKey a s k = k (rd s a).toNat s := if_neg (by omega)

section Words
variable {d a : BitVec 7} {b : BitVec 4} {s : State}

theorem exec_tsreq (hr : Ready ⟨[.g d, .g a, .v b], [.g d, .v b]⟩ s) (hkey : (rd s a).toNat < 2 ^ 48) :
    exec (.tsreq d a b) s = match wayOf (clusterAt s (myCluster s)) (rd s a).toNat with
      | some (_, x) => if x.valid then retireWr d 2 (wrV b (wordsOf x.data) s) else retireWr d 1 s
      | none => match claimable (clusterAt s (myCluster s)) (rd s a).toNat with
        | some w => retireWr d 0 (setWay w ⟨(rd s a).toNat, false, (cur s).thread, 0, 0⟩ s)
        | none => retireWr d 3 s :=
  outcome_of_ready (rfl : execTsreq d a b s = _) hr (withKey_small hkey)

theorem exec_tsfill (hr : Ready ⟨[.g d, .g a, .v b], [.g d]⟩ s) (hkey : (rd s a).toNat < 2 ^ 48) :
    exec (.tsfill d a b) s = match wayOf (clusterAt s (myCluster s)) (rd s a).toNat with
      | some (w, x) =>
        if !x.valid && x.owner == (cur s).thread then publish s fun s => retireWr d 2 (fillWay w x (recOf (rdV s b)) s)
        else retireWr d 4 s
      | none => retireWr d 4 s :=
  outcome_of_ready (rfl : execTsfill d a b s = _) hr (withKey_small hkey)

theorem exec_tswait (hr : Ready ⟨[.g d, .g a, .v b], [.g d, .v b]⟩ s) (hkey : (rd s a).toNat < 2 ^ 48) :
    exec (.tswait d a b) s = match wayOf (clusterAt s (myCluster s)) (rd s a).toNat with
      | some (_, x) => if x.valid then retireWr d 2 (wrV b (wordsOf x.data) s) else park (.tsWait (rd s a).toNat) s
      | none => retireWr d 4 s :=
  outcome_of_ready (rfl : execTswait d a b s = _) hr (withKey_small hkey)

/-- TSREQ that claims a way. -/
theorem tsreq_claims {w : Nat} (hr : Ready ⟨[.g d, .g a, .v b], [.g d, .v b]⟩ s) (hkey : (rd s a).toNat < 2 ^ 48)
    (hnone : wayOf (clusterAt s (myCluster s)) (rd s a).toNat = none)
    (hclaim : claimable (clusterAt s (myCluster s)) (rd s a).toNat = some w) :
    Gives (exec (.tsreq d a b) s) fun t => t.iss.res = .retired ∧ regAt t s.iss.slot d.toNat = 0 ∧
      wayAt (clusterAt t (myCluster s)) w = some ⟨(rd s a).toNat, false, (cur s).thread, 0, 0⟩ ∧ t.mem = s.mem := by
  rw [exec_tsreq hr hkey, hnone]
  dsimp only
  rw [hclaim]
  exact ⟨_, rfl, rfl, regAt_advance_wr d 0 _, wayAt_setWay w _ s, rfl⟩

/-- TSFILL by the thread that has claimed its way. -/
theorem tsfill_fills {w : Nat} {x : ShadeWay} (hr : Ready ⟨[.g d, .g a, .v b], [.g d]⟩ s) (hkey : (rd s a).toNat < 2 ^ 48)
    (hway : wayOf (clusterAt s (myCluster s)) (rd s a).toNat = some (w, x)) (hvalid : x.valid = false)
    (howner : x.owner = (cur s).thread) :
    exec (.tsfill d a b) s = publish s fun s => retireWr d 2 (fillWay w x (recOf (rdV s b)) s) := by
  rw [exec_tsfill hr hkey, hway]
  exact if_pos (by simp [hvalid, howner])

end Words

/-- Settles O34: a key too large, then each word by what its way holds. -/
theorem shadingResults : Obligations.ShadingResults := by
  intro d a b s hr key cl sl claims
  have hr' : Ready ⟨[.g d, .g a, .v b], [.g d]⟩ s := ready_mono ⟨[.g d, .g a, .v b], [.g d]⟩ _ s (by simp) hr
  refine ⟨fun hkey => ⟨?_, ?_, ?_⟩, fun hkey => ⟨fun hnone hpend => ?_, fun w hnone hclaim => ?_,
    fun w x hway hvalid => ⟨?_, ?_, fun howner hp => ?_, fun howner hp => ?_⟩, fun w x hway hno => ?_,
    fun w x hway hvalid => ⟨?_, ?_⟩, fun hnone => ⟨?_, ?_⟩⟩⟩
  · exact outcome_of_ready (rfl : execTsreq d a b s = _) hr (withKey_large hkey)
  · exact outcome_of_ready (rfl : execTsfill d a b s = _) hr' (withKey_large hkey)
  · exact outcome_of_ready (rfl : execTswait d a b s = _) hr (withKey_large hkey)
  · rw [exec_tsreq hr hkey, show wayOf (clusterAt s (myCluster s)) (rd s a).toNat = none from hnone]
    dsimp only
    rw [show claimable (clusterAt s (myCluster s)) (rd s a).toNat = none from claimable_pending hpend]
    rfl
  · refine tsreq_claims hr hkey hnone ?_
    rcases hclaim with hfind | ⟨hall, hw, x, hx, hvalid, hfirst⟩
    · show claimable cl key = some w
      rw [claimable, hfind]
    · exact claimable_first (cl := cl) hall hw hx hvalid hfirst
  · rw [exec_tsreq hr hkey, show wayOf (clusterAt s (myCluster s)) (rd s a).toNat = some (w, x) from hway]
    exact if_neg (ne_true_of_eq_false hvalid)
  · rw [exec_tswait hr hkey, show wayOf (clusterAt s (myCluster s)) (rd s a).toNat = some (w, x) from hway]
    exact if_neg (ne_true_of_eq_false hvalid)
  · rw [tsfill_fills hr' hkey hway hvalid howner, publish, if_pos hp]
    rfl
  · rw [tsfill_fills hr' hkey hway hvalid howner, publish_of_none hp]
    refine ⟨_, rfl, rfl, regAt_advance_wr d 2 _, rfl, wayAt_fillWay w x _ s, fun k hk => ?_⟩
    have hslot : slotOf (fillWay w x (recOf (rdV s b)) s) k = wakeSlot s.clock (slotOf s k) :=
      slotOf_fillWay (by rw [key_of_wayOf hway]; exact hk)
    by_cases hkc : k = s.iss.slot
    · subst hkc
      have hcur : (cur (advance (wr d 2 (fillWay w x (recOf (rdV s b)) s)))).st =
          (slotOf (fillWay w x (recOf (rdV s b)) s) s.iss.slot).st := by
        rw [cur_advance]
        rfl
      exact hcur.trans (congrArg Slot.st hslot)
    · exact (congrArg Slot.st (slotOf_advance_other (wr d 2 (fillWay w x (recOf (rdV s b)) s)) k hkc)).trans (congrArg Slot.st hslot)
  · rw [exec_tsfill hr' hkey, show wayOf (clusterAt s (myCluster s)) (rd s a).toNat = some (w, x) from hway]
    refine if_neg fun hfill => ?_
    simp only [Bool.and_eq_true, Bool.not_eq_true', beq_iff_eq] at hfill
    rcases hno with hv | ho
    · rw [hv] at hfill
      exact Bool.noConfusion hfill.1
    · exact ho hfill.2
  · rw [exec_tsreq hr hkey, show wayOf (clusterAt s (myCluster s)) (rd s a).toNat = some (w, x) from hway]
    exact if_pos hvalid
  · rw [exec_tswait hr hkey, show wayOf (clusterAt s (myCluster s)) (rd s a).toNat = some (w, x) from hway]
    exact if_pos hvalid
  · rw [exec_tswait hr hkey, show wayOf (clusterAt s (myCluster s)) (rd s a).toNat = none from hnone]
    rfl
  · rw [exec_tsfill hr' hkey, show wayOf (clusterAt s (myCluster s)) (rd s a).toNat = none from hnone]
    rfl

end Sys2Proof.Proofs
end

section
/-!
SUPPORT. The message words SEND, RECV, RECVA and MBOX (R91 to R95).
-/

namespace Sys2Proof.Proofs

open Sys2Proof Sys2Proof.Machine Sys2Proof.Laws

/-! ## A change of one core's state -/

/-- A core's state, changed. -/
def onCoreState (g : Core → Core) (s : State) : State := { s with me := g s.me }

section
variable {g : Core → Core} (hg : ∀ m, (g m).num = m.num) (c : Nat) (s : State)
include hg

/-- A change of one core's state that keeps its number reaches the cores only, and the core acting where it is the one. -/
theorem withCore_frame : withCore c (onCoreState g) s = { s with
    me := if c = s.me.num then g s.me else s.me, others := (withCore c (onCoreState g) s).others } := by
  by_cases hc : c = s.me.num
  · subst hc
    simp [withCore, focus, hg, onCoreState]
  · have hne : s.me.num ≠ c := fun h => hc h.symm
    simp [withCore, focus, hg, onCoreState, coreOf, hc, hne]

theorem coreOf_withCore : coreOf (withCore c (onCoreState g) s) c = g { coreOf s c with num := c } := by
  by_cases hc : c = s.me.num
  · subst hc
    simp [withCore, focus, hg, coreOf, onCoreState]
  · have hne : s.me.num ≠ c := fun h => hc h.symm
    simp [withCore, focus, hg, coreOf, hc, hne, onCoreState]

end

/-! ## Headers -/

section Header
variable (seq type score sslot dcore dslot : Nat) (dk nc : Bool)

theorem hdrSeq_mkHdr : hdrSeq (mkHdr seq type score sslot dcore dslot dk nc) = seq % 2 ^ 16 := by
  have hd := dk.toNat_lt
  have hn := nc.toNat_lt
  simp only [hdrSeq, mkHdr, BitVec.toNat_ofNat]
  omega

theorem hdrFrom_mkHdr : hdrFrom (mkHdr seq type score sslot dcore dslot dk nc) = score % 2 ^ 12 * 16 + sslot % 16 := by
  have hd := dk.toNat_lt
  have hn := nc.toNat_lt
  simp only [hdrFrom, mkHdr, BitVec.toNat_ofNat]
  omega

theorem hdrDk_mkHdr : hdrDk (mkHdr seq type score sslot dcore dslot dk nc) = dk := by
  have hn := nc.toNat_lt
  have hbit : (mkHdr seq type score sslot dcore dslot dk nc).toNat / 2 ^ 7 % 2 = dk.toNat := by
    have hd := dk.toNat_lt
    simp only [mkHdr, BitVec.toNat_ofNat]
    omega
  rw [hdrDk, hbit]
  cases dk <;> rfl

theorem hdrNc_mkHdr : hdrNc (mkHdr seq type score sslot dcore dslot dk nc) = nc.toNat := by
  have hd := dk.toNat_lt
  have hn := nc.toNat_lt
  simp only [hdrNc, mkHdr, BitVec.toNat_ofNat]
  omega

theorem toNat_mkHdr_low : (mkHdr seq type score sslot dcore dslot dk nc).toNat % 2 ^ 6 = 0 := by
  have hd := dk.toNat_lt
  have hn := nc.toNat_lt
  simp only [mkHdr, BitVec.toNat_ofNat]
  omega

end Header

/-- A bit of a word, as a number. -/
theorem getLsbD_eq_bits (w : Word) (k : Nat) : w.getLsbD k = (bits w k 1 == 1) := by
  rw [BitVec.getLsbD, Nat.testBit_eq_decide_div_mod_eq, bits]
  rfl

/-! ## SEND -/

theorem foldl_notBefore_ge (m : Message) (net : List NetMsg) (due : Nat) : due ≤ notBefore net m due := by
  unfold notBefore
  induction net generalizing due with
  | nil => exact le_rfl
  | cons n net ih =>
    refine le_trans ?_ (ih _)
    dsimp only
    split
    · exact Nat.le_max_left _ _
    · exact le_rfl

theorem sendNet_net (m : Message) (held : Bool) (s : State) :
    ∃ due, (sendNet m held s).net = s.net ++ [⟨m, due, held⟩] ∧ s.clock ≤ due := by
  obtain ⟨n, ds, hpop⟩ := popDelay_eq s
  refine ⟨notBefore s.net m (netDue m s.clock n), by rw [sendNet, hpop], ?_⟩
  refine le_trans ?_ (foldl_notBefore_ge m s.net _)
  unfold netDue
  dsimp only
  split
  · exact le_trans (Nat.le_add_right _ _) (Nat.le_max_right _ _)
  · exact Nat.le_add_right _ _

/-- One more entry of a mailbox is reserved. -/
def reserveOne (m : Core) : Core := { m with reserved := m.reserved + 1 }

/-- The message that SEND makes of its words. -/
def sent (ty : BitVec 8) (a b : BitVec 7) (s : State) : Message :=
  ⟨mkHdr (bits (rd s a) 48 16) ty.toNat s.me.num s.iss.slot (bits (rd s a) 12 12) (bits (rd s a) 8 4)
    (bits (rd s a) 7 1 == 1) (bits (rd s a) 6 1 == 1), rdRun s b.toNat 7, 0, 0⟩

theorem bits_of_mask {w mask : Word} {lo n : Nat} (h : w &&& mask = 0) (hmask : ∀ i < n, mask.getLsbD (lo + i) = true) :
    bits w lo n = 0 := by
  refine Nat.eq_of_testBit_eq fun i => ?_
  rw [bits, Nat.testBit_mod_two_pow, Nat.testBit_div_two_pow, Nat.zero_testBit]
  by_cases hi : i < n
  · have hbit : (w &&& mask).getLsbD (lo + i) = false := by
      rw [h]
      exact BitVec.getLsbD_zero
    rw [BitVec.getLsbD_and, hmask i hi, Bool.and_true, BitVec.getLsbD] at hbit
    rw [Nat.add_comm i lo, hbit, Bool.and_false]
  · rw [decide_eq_false hi, Bool.false_and]

/-- The header fields that SEND may not set. -/
theorem fields_of_mask {w : Word} (h : w &&& 0x0000FFFFFF00003F = 0) : bits w 24 24 = 0 ∧ bits w 0 6 = 0 :=
  ⟨bits_of_mask h (by decide), bits_of_mask h (by decide)⟩

theorem exec_send {ty : BitVec 8} {a b : BitVec 7} {s : State} (hr : Ready ⟨[.g a, .run b 7], []⟩ s)
    (hmask : rd s a &&& 0x0000FFFFFF00003F = 0) (hcore : bits (rd s a) 12 12 ∈ s.ctx.cores) :
    let dst := bits (rd s a) 12 12
    exec (.send ty a b) s = if hasPosted s s.iss.slot = true then waitFor .posted s
      else if freeEntries (coreOf s dst) = 0 ∨ (coreOf s dst).devWait ≠ [] then park (.mailbox dst) s
      else retire (sendNet (sent ty a b s) true (withCore dst (onCoreState reserveOne) s)) := by
  intro dst
  obtain ⟨hhigh, hlow⟩ := fields_of_mask hmask
  refine outcome_of_ready (rfl : execSend ty a b s = _) hr ?_
  have hin : inPartition s dst = true := List.contains_iff_mem.2 hcore
  dsimp only
  rw [if_neg (not_or.2 ⟨not_not.2 hhigh, not_not.2 hlow⟩), hin, Bool.not_true, if_neg Bool.false_ne_true, publish]
  rfl

theorem coreOf_advance_reserved (s : State) (c : Nat) : (coreOf (advance s) c).reserved = (coreOf s c).reserved := by
  unfold coreOf
  rw [advance_num]
  split <;> rfl

/-- SEND to a core with a free entry. -/
theorem send_enters {ty : BitVec 8} {a b : BitVec 7} {s : State} (dst : Nat) :
    let t := advance (sendNet (sent ty a b s) true (withCore dst (onCoreState reserveOne) s))
    (coreOf t dst).reserved = (coreOf s dst).reserved + 1 ∧ t.mem = s.mem ∧ t.me.pool = s.me.pool ∧
    ∃ due, t.net = s.net ++ [⟨sent ty a b s, due, true⟩] ∧ s.clock ≤ due := by
  intro t
  have hframe := withCore_frame (g := reserveOne) (fun _ => rfl) dst s
  have hcore := coreOf_withCore (g := reserveOne) (fun _ => rfl) dst s
  obtain ⟨due, hnet, hdue⟩ := sendNet_net (sent ty a b s) true (withCore dst (onCoreState reserveOne) s)
  have hsend := sendNet_frame (sent ty a b s) true (withCore dst (onCoreState reserveOne) s)
  refine ⟨?_, ?_, ?_, due, ?_, ?_⟩
  · have hme : coreOf (sendNet (sent ty a b s) true (withCore dst (onCoreState reserveOne) s)) dst =
        coreOf (withCore dst (onCoreState reserveOne) s) dst := by
      rw [hsend]
      rfl
    exact (coreOf_advance_reserved _ _).trans (congrArg Core.reserved (hme.trans hcore))
  · show (sendNet (sent ty a b s) true (withCore dst (onCoreState reserveOne) s)).mem = _
    rw [hsend, hframe]
  · show (sendNet (sent ty a b s) true (withCore dst (onCoreState reserveOne) s)).me.pool = _
    rw [hsend, hframe]
    dsimp only
    split <;> rfl
  · show (sendNet (sent ty a b s) true (withCore dst (onCoreState reserveOne) s)).net = _
    rw [hnet, hframe]
  · rw [hframe] at hdue
    exact hdue

/-! ## RECV and RECVA -/

theorem wrSlotRun_frame (sl k : Nat) (ws : List Word) (s : State) :
    wrSlotRun sl k ws s = { s with me := { s.me with pool := (wrSlotRun sl k ws s).me.pool } } := by
  induction ws generalizing k s with
  | nil => rfl
  | cons w ws ih =>
    rw [wrSlotRun, ih]
    rfl

/-- Registers written in a row read back, and every other pool word keeps its value. -/
theorem pool_wrSlotRun (sl k : Nat) (ws : List Word) (s : State) (j : Nat) :
    spGet 0 (wrSlotRun sl k ws s).me.pool ((slotOf s sl).winBase + j) =
      if k ≤ j ∧ j < k + ws.length then (ws[j - k]?).getD 0 else spGet 0 s.me.pool ((slotOf s sl).winBase + j) := by
  induction ws generalizing k s with
  | nil =>
    rw [wrSlotRun, if_neg (by simp)]
  | cons w ws ih =>
    rw [wrSlotRun]
    have hrest := ih (k + 1) (wrSlot sl k w s)
    rw [slotOf_wrSlot] at hrest
    rw [hrest, List.length_cons]
    rcases Nat.lt_trichotomy j k with hj | rfl | hj
    · rw [if_neg (by omega), if_neg (by omega), pool_wrSlot_other _ _ _ _ _ (by omega)]
    · rw [if_neg (by omega), if_pos (by omega), regAt_wrSlot_same, Nat.sub_self]
      rfl
    · have hsub : j - k = j - (k + 1) + 1 := by omega
      rw [pool_wrSlot_other _ _ _ _ _ (by omega), hsub, List.getElem?_cons_succ]
      exact if_congr (by omega) rfl rfl

theorem winBase_advance (s : State) (k : Nat) : (slotOf (advance s) k).winBase = (slotOf s k).winBase := by
  by_cases hk : k = s.iss.slot
  · subst hk
    have hbase := congrArg Slot.winBase (cur_advance s)
    exact hbase
  · rw [slotOf_advance_other s k hk]

/-- A word that takes a message from the mailbox into eight registers. -/
theorem recvWhere_takes {b : BitVec 7} {want : Message → Bool} {x : Message} {s : State} (hbody : x.body.length = 7)
    (h : s.me.mbox.find? (fun y => recvEligible s y && want y) = some x) : Gives (recvWhere b want s) fun t =>
      t.iss.res = .retired ∧ t.me.mbox = s.me.mbox.erase x ∧ t.mem = s.mem ∧
      ∀ k < 8, regAt t s.iss.slot (b.toNat + k) = ((x.hdr :: x.body)[k]?).getD 0 := by
  unfold recvWhere
  rw [h]
  dsimp only
  let u := mailboxFreed { s with me := { s.me with mbox := s.me.mbox.erase x } }
  refine ⟨advance (wrRun b.toNat (x.hdr :: x.body) u), rfl, rfl, ?_, ?_, fun k hk => ?_⟩
  · rw [advance_mbox, wrRun, wrSlotRun_frame]
    rfl
  · show (wrRun b.toNat (x.hdr :: x.body) u).mem = _
    rw [wrRun, wrSlotRun_frame]
    rfl
  · have hslot : (slotOf (advance (wrRun b.toNat (x.hdr :: x.body) u)) s.iss.slot).winBase = (slotOf u u.iss.slot).winBase := by
      rw [wrRun, wrSlotRun_frame]
      exact winBase_advance _ _
    rw [regAt, hslot]
    refine (pool_wrSlotRun u.iss.slot b.toNat (x.hdr :: x.body) u (b.toNat + k)).trans ?_
    rw [if_pos (by rw [List.length_cons, hbody]; omega), Nat.add_sub_cancel_left]

theorem recvWhere_parks {b : BitVec 7} {want : Message → Bool} {s : State}
    (h : s.me.mbox.find? (fun y => recvEligible s y && want y) = none) :
    recvWhere b want s = .next (setRes .parked (onCur (fun c => { c with st := .parked .recv }) s)) := by
  unfold recvWhere
  rw [h]
  rfl

/-- Settles O27: SEND to a partition core, then RECV and RECVA, and MBOX. -/
theorem messageWords : Obligations.MessageWords := by
  refine ⟨fun ty a b s hr => ?_, fun a b x s hr hbody => ?_, fun b s hr hfit => ?_⟩
  · intro w dst m hmask hcore
    have hsend := exec_send (ty := ty) hr hmask hcore
    change exec (.send ty a b) s = if hasPosted s s.iss.slot = true then waitFor .posted s
      else if freeEntries (coreOf s dst) = 0 ∨ (coreOf s dst).devWait ≠ [] then park (.mailbox dst) s
      else retire (sendNet (sent ty a b s) true (withCore dst (onCoreState reserveOne) s)) at hsend
    refine ⟨fun hp => ?_, fun hp hroom hdev => ?_, fun hp hfull => ?_⟩
    · rw [hsend, if_pos hp]
      rfl
    · have hfree : ¬(freeEntries (coreOf s dst) = 0 ∨ (coreOf s dst).devWait ≠ []) := by
        rintro (h | h)
        · unfold freeEntries Config.mailboxEntries at h
          have : (coreOf s dst).mbox.length + (coreOf s dst).reserved < 32 := hroom
          omega
        · exact h hdev
      rw [hsend, hp, if_neg Bool.false_ne_true, if_neg hfree]
      obtain ⟨hres, hmem, hpool, due, hnet, hdue⟩ := send_enters (ty := ty) (a := a) (b := b) (s := s) dst
      refine ⟨_, rfl, rfl, hres, hmem, hpool, _, hnet, rfl, rfl, hdue, ?_, ?_, ?_, ?_, ?_, ?_, ?_, ?_⟩
      · exact (hdrType_mkHdr ..).trans (Nat.mod_eq_of_lt ty.isLt)
      · refine (hdrSeq_mkHdr ..).trans ?_
        have := w.isLt
        show bits w 48 16 % 2 ^ 16 = _
        unfold bits
        omega
      · exact (hdrCore_mkHdr ..).trans (Nat.mod_mod _ _)
      · exact (hdrSlot_mkHdr ..).trans (Nat.mod_mod _ _)
      · exact (hdrDk_mkHdr ..).trans (getLsbD_eq_bits w 7).symm
      · rw [getLsbD_eq_bits, getLsbD_eq_bits, show bits (sent ty a b s).hdr 6 1 = _ from hdrNc_mkHdr ..]
        cases bits (rd s a) 6 1 == 1 <;> rfl
      · exact toNat_mkHdr_low ..
      · exact hdrFrom_mkHdr ..
    · have hfull' : freeEntries (coreOf s dst) = 0 ∨ (coreOf s dst).devWait ≠ [] := by
        refine hfull.imp (fun h => ?_) id
        have : 32 ≤ (coreOf s dst).mbox.length + (coreOf s dst).reserved := h
        unfold freeEntries Config.mailboxEntries
        omega
      rw [hsend, hp, if_neg Bool.false_ne_true, if_pos hfull']
      refine ⟨_, rfl, ?_, rfl, ?_⟩
      · rw [cur_setRes, cur_onCur]
      · rw [cur_setRes, cur_onCur]
  · have hr' : Ready ⟨[.run b 8], [.run b 8]⟩ s := ready_mono ⟨[.run b 8], [.run b 8]⟩ _ s (by simp) hr
    have hrecva : exec (.recva b) s = recvWhere b (fun _ => true) s :=
      outcome_of_ready (rfl : execRecva b s = _) hr' rfl
    have hrecv : exec (.recv a b) s = recvWhere b (fun y => hdrSeq y.hdr == bits (rd s a) 48 16 &&
        hdrFrom y.hdr == bits (rd s a) 24 16) s := outcome_of_ready (rfl : execRecv a b s = _) hr rfl
    have hwant (y : Message) : (recvEligible s y && (hdrSeq y.hdr == (rd s a).toNat / 2 ^ 48) &&
        (hdrFrom y.hdr == (rd s a).toNat / 2 ^ 24 % 2 ^ 16)) =
        (recvEligible s y && (hdrSeq y.hdr == bits (rd s a) 48 16 && hdrFrom y.hdr == bits (rd s a) 24 16)) := by
      have hlt := (rd s a).isLt
      rw [Bool.and_assoc, bits, bits, Nat.mod_eq_of_lt (show (rd s a).toNat / 2 ^ 48 < 2 ^ 16 by omega)]
    intro took
    refine ⟨fun h => ?_, fun h => ?_, fun h => ?_, fun h => ?_⟩
    · rw [hrecva]
      exact recvWhere_takes hbody (by simpa using h)
    · rw [hrecv]
      exact recvWhere_takes hbody (by simpa only [hwant] using h)
    · rw [hrecv]
      exact recvWhere_parks (by simpa only [hwant] using h)
    · rw [hrecva]
      exact recvWhere_parks (by simpa using h)
  · refine outcome_of_ready (rfl : execMbox b s = _) hr ?_
    rfl

end Sys2Proof.Proofs
end

section
/-!
SUPPORT. Messages that arrive at a core (R92, R95, R112, R113, R299, R398).
-/

namespace Sys2Proof.Proofs

open Sys2Proof Sys2Proof.Machine Sys2Proof.Laws

/-! ## What the device's own writes leave alone -/

/-- Between `s` and `t` a unit of the device has written bytes, and firmware's own state may have changed: no slot but one parked
on a watched line is another. -/
structure Wrote (s t : State) : Prop where
  frame : t = { s with
    me := { s.me with slots := t.me.slots, trace := t.me.trace, lost := t.me.lost },
    others := t.others, mem := t.mem, poison := t.poison, asked := t.asked, replay := t.replay, freeUsed := t.freeUsed,
    fw := t.fw }
  slots : ∀ k, (∀ lo hi, (slotOf s k).st ≠ .parked (.watch lo hi)) → slotOf t k = slotOf s k
  last : ∀ k, (slotOf t k).lastIssue = (slotOf s k).lastIssue

theorem Wrote.refl (s : State) : Wrote s s := ⟨rfl, fun _ _ => rfl, fun _ => rfl⟩

theorem Wrote.trans {s t u : State} (h : Wrote s t) (h' : Wrote t u) : Wrote s u := by
  refine ⟨?_, fun k hk => ?_, fun k => (h'.last k).trans (h.last k)⟩
  · rw [h'.frame, h.frame]
  · have ht := h.slots k hk
    exact (h'.slots k fun lo hi => by rw [ht]; exact hk lo hi).trans ht

theorem lastIssue_woken (now : Nat) (p : ParkWhy → Bool) (c : Slot) : (woken now p c).lastIssue = c.lastIssue := by
  unfold woken wakeSlot
  split
  · split <;> rfl
  · rfl

/-- A slot that is not parked in a way that a wake accepts stays as it is. -/
theorem woken_of_refused {now : Nat} {p : ParkWhy → Bool} {c : Slot} (h : ∀ w, c.st = .parked w → p w = false) :
    woken now p c = c := by
  unfold woken
  split
  · next w hw => rw [h w hw, if_neg Bool.false_ne_true]
  · rfl

theorem wrote_writeBytes (w : Writer) (l : List (Nat × Byte)) (s : State) : Wrote s (writeBytes w l s) := by
  refine ⟨?_, fun k hk => ?_, fun k => ?_⟩
  · rw [writeBytes_frame]
  · rw [slotOf_writeBytes]
    refine woken_of_refused fun p hp => ?_
    unfold watches
    split
    · exact absurd hp (hk _ _)
    · rfl
  · rw [slotOf_writeBytes, lastIssue_woken]

theorem wrote_fw (s : State) (f : Firmware) : Wrote s { s with fw := f } := ⟨rfl, fun _ _ => rfl, fun _ => rfl⟩

/-! ## The log of messages (R299) -/

theorem wrote_logData (l : List Byte) (s : State) :
    Wrote s (logData l s) ∧ ∃ n, (logData l s).fw = { s.fw with logUsed := n } := by
  unfold logData
  split
  · refine ⟨(wrote_writeBytes _ _ s).trans (wrote_fw _ _), s.fw.logUsed + l.length, ?_⟩
    dsimp only
  · exact ⟨Wrote.refl s, s.fw.logUsed, rfl⟩

theorem wrote_logBytes (n : Nat) (s : State) :
    Wrote s (logBytes n s) ∧ ∃ m, (logBytes n s).fw = { s.fw with logUsed := m } := by
  unfold logBytes
  split
  · obtain ⟨hwrote, m, hfw⟩ := wrote_logData (drawBytes n s).1 (drawBytes n s).2
    have hdraw : Wrote s (drawBytes n s).2 := ⟨rfl, fun _ _ => rfl, fun _ => rfl⟩
    exact ⟨hdraw.trans hwrote, m, hfw⟩
  · exact ⟨Wrote.refl s, s.fw.logUsed, rfl⟩

theorem wrote_logMail (x : Message) (s : State) : Wrote s (logMail x s) := by
  unfold logMail
  split
  · exact (wrote_fw s _).trans (wrote_logBytes 72 _).1
  · exact Wrote.refl s

/-- What the log takes in fixed mode: each class-0 message, at its cycle. -/
theorem logMail_log (x : Message) (s : State) : (s.ctx.fixed = false → logMail x s = s) ∧
    (s.ctx.fixed = true → hdrNc x.hdr = 0 → (logMail x s).fw.msgLog = s.fw.msgLog ++ [(s.clock, x)]) ∧
    (logMail x s).fw.events = s.fw.events ∧ (logMail x s).fw.pfaults = s.fw.pfaults := by
  have hlog := (wrote_logBytes 72 { s with fw := { s.fw with msgLog := s.fw.msgLog ++ [(s.clock, x)] } }).2
  obtain ⟨m, hfw⟩ := hlog
  unfold logMail
  refine ⟨fun h => if_neg (by simp [h]), fun h h0 => ?_, ?_, ?_⟩
  · rw [if_pos (by simp [h, h0]), hfw]
  · split
    · rw [hfw]
    · rfl
  · split
    · rw [hfw]
    · rfl

/-! ## The principal's messages -/

theorem wrote_writeEvent (ring n kind : Nat) (body : List Word) (s : State) :
    Wrote s (writeEvent ring n kind body s) ∧ (writeEvent ring n kind body s).fw = s.fw := by
  unfold writeEvent
  refine ⟨wrote_writeBytes _ _ s, ?_⟩
  rw [writeBytes_frame]

theorem wrote_principalTakes {x : Message} {s : State} (hcores : s.ctx.cores ≠ []) : Wrote s (principalTakes x s) := by
  have hne : s.ctx.cores.isEmpty = false := by simpa using hcores
  unfold principalTakes
  dsimp only
  split
  · unfold appendEvent
    rw [hne, if_neg Bool.false_ne_true]
    exact (wrote_writeEvent _ _ _ _ s).1.trans (wrote_fw _ _)
  · exact wrote_fw s _

theorem principalTakes_fw {x : Message} {s : State} (hcores : s.ctx.cores ≠ []) :
    (hdrType x.hdr = 0xF1 → (principalTakes x s).fw.events = s.fw.events + 1 ∧
      (principalTakes x s).fw.pfaults = s.fw.pfaults) ∧
    (hdrType x.hdr = 0xF2 → (principalTakes x s).fw.events = s.fw.events ∧ (principalTakes x s).fw.pfaults =
      s.fw.pfaults ++ [(((x.body[0]?).getD 0).toNat, ((x.body[2]?).getD 0).toNat, ((x.body[3]?).getD 0).toNat)]) := by
  have hne : s.ctx.cores.isEmpty = false := by simpa using hcores
  unfold principalTakes
  dsimp only
  refine ⟨fun h => ?_, fun h => ?_⟩
  · rw [if_pos h]
    unfold appendEvent
    rw [hne, if_neg Bool.false_ne_true]
    dsimp only
    exact ⟨rfl, rfl⟩
  · rw [if_neg (by omega)]
    exact ⟨rfl, rfl⟩

/-! ## A thread that a message starts -/

theorem createThread_spec (k b : Nat) (x : Message) (s : State) (hbody : x.body.length = 7) :
    let e := vectorOf s.me (hdrType x.hdr)
    let t := createThread k b x s
    slotOf t k = newSlot s.clock s.me.num k b (slotOf s k).lastIssue e x ∧ t.me.mbox = s.me.mbox ∧
    t.me.reserved = s.me.reserved ∧ t.net = s.net ∧ t.mem = s.mem ∧ t.fw = s.fw ∧
    ∀ j, j < 8 ∨ j < vWin e → spGet 0 t.me.pool (b + j) = if j < 8 then ((x.hdr :: x.body)[j]?).getD 0 else 0 := by
  intro e t
  let s1 : State := { s with me := { s.me with pool := spClear s.me.pool b (vWin e), created := some s.clock } }
  let s2 := setSlot k (newSlot s.clock s.me.num k b (slotOf s k).lastIssue e x) s1
  have ht : t = wrSlotRun k 0 (x.hdr :: x.body) s2 := rfl
  have hslot : slotOf s2 k = newSlot s.clock s.me.num k b (slotOf s k).lastIssue e x := slotOf_setSlot_same _ _ _
  have hbase : (slotOf s2 k).winBase = b := by
    rw [hslot]
    rfl
  refine ⟨?_, ?_, ?_, ?_, ?_, ?_, fun j hj => ?_⟩
  · rw [ht, wrSlotRun_frame]
    exact hslot
  · rw [ht, wrSlotRun_frame]
    rfl
  · rw [ht, wrSlotRun_frame]
    rfl
  · rw [ht, wrSlotRun_frame]
    rfl
  · rw [ht, wrSlotRun_frame]
    rfl
  · rw [ht, wrSlotRun_frame]
    rfl
  · have hpool := pool_wrSlotRun k 0 (x.hdr :: x.body) s2 j
    rw [hbase, List.length_cons, hbody] at hpool
    rw [ht, hpool]
    by_cases h8 : j < 8
    · rw [if_pos (by omega), if_pos h8, Nat.sub_zero]
    · rw [if_neg (by omega), if_neg h8]
      show spGet 0 (spClear s.me.pool b (vWin e)) (b + j) = 0
      exact spGet_clear _ _ _ _ _ (by omega)

/-! ## The entry that is free again -/

/-- Senders that wait for a mailbox have been woken, or nothing has. -/
structure Freed (s t : State) : Prop where
  frame : t = { s with me := { s.me with slots := t.me.slots }, others := t.others }
  slots : ∀ k, (∀ c, (slotOf s k).st ≠ .parked (.mailbox c)) → slotOf t k = slotOf s k

theorem Freed.refl (s : State) : Freed s s := ⟨rfl, fun _ _ => rfl⟩

theorem freed_mailboxFreed (s : State) : Freed s (mailboxFreed s) := by
  refine ⟨rfl, fun k hk => ?_⟩
  unfold mailboxFreed
  rw [slotOf_wakeAll]
  refine woken_of_refused fun w hw => beq_eq_false_iff_ne.2 ?_
  rintro rfl
  exact hk _ hw

theorem freed_freedSince (n : Nat) (s : State) : Freed s (freedSince n s) := by
  unfold freedSince
  split
  · exact freed_mailboxFreed s
  · exact Freed.refl s

/-! ## A message at its core -/

/-- The state in which a message is off the network, and its entry no longer reserved. -/
def offNet (n : NetMsg) (s : State) : State :=
  { s with net := s.net.erase n, me := { s.me with reserved := s.me.reserved - n.held.toNat } }

theorem exec_messageArrival {x : Message} {n : NetMsg} {s : State} (h : netFind s x = some n) :
    exec (.messageArrival x) s = .next (freedSince (freeEntries s.me) (arrive n.held x (offNet n s))) := by
  show execMessageArrival x s = _
  have hoff : unreserve n.held { s with net := s.net.erase n } = offNet n s := by
    unfold unreserve offNet
    cases n.held <;> rfl
  unfold execMessageArrival
  rw [h]
  dsimp only
  rw [hoff]

/-- An arrival, by what becomes of the message at its core. -/
theorem gives_arrival {x : Message} {n : NetMsg} {s u : State} {P : State → Prop} (h : netFind s x = some n)
    (harrive : arrive n.held x (offNet n s) = u) (hnet : u.net = s.net.erase n)
    (hres : u.me.reserved = s.me.reserved - n.held.toNat) (hP : ∀ t, Freed u t → P t) :
    Gives (exec (.messageArrival x) s) fun t =>
      t.net = s.net.erase n ∧ t.me.reserved = s.me.reserved - n.held.toNat ∧ P t := by
  have hfreed := freed_freedSince (freeEntries s.me) u
  refine ⟨_, harrive ▸ exec_messageArrival h, ?_, ?_, hP _ hfreed⟩
  · rw [hfreed.frame]
    exact hnet
  · rw [hfreed.frame]
    exact hres

/-- A message that enters the mailbox wakes who waits to receive. -/
theorem enterMail_spec {held : Bool} {x : Message} {s t : State} (hp : forPrincipal s held x = false)
    (h : Freed (enterMail held x s) t) : t.net = s.net ∧ t.me.reserved = s.me.reserved ∧
    t.me.mbox = s.me.mbox ++ [x] ∧ t.me.drops = s.me.drops ∧ t.me.pool = s.me.pool ∧ t.me.devWait = s.me.devWait ∧
    (∀ k, (slotOf s k).st = .parked .recv → (slotOf t k).st = .runnable) ∧
    (s.ctx.fixed = false → t.mem = s.mem ∧ t.fw = s.fw) ∧
    (s.ctx.fixed = true → hdrNc x.hdr = 0 → t.fw.msgLog = s.fw.msgLog ++ [(s.clock, x)]) := by
  have hlog := wrote_logMail x s
  have hframe := hlog.frame
  obtain ⟨hfree, hfixed, -, -⟩ := logMail_log x s
  have henter : enterMail held x s = putMail x (logMail x s) := by
    have hp' : forPrincipal (logMail x s) held x = false := by
      rw [hframe]
      exact hp
    rw [enterMail, hp', if_neg Bool.false_ne_true]
  rw [henter] at h
  have ht := h.frame
  refine ⟨?_, ?_, ?_, ?_, ?_, ?_, fun k hk => ?_, fun hf => ⟨?_, ?_⟩, fun hf h0 => ?_⟩
  · rw [ht, hframe]
    rfl
  · rw [ht, hframe]
    rfl
  · rw [ht, hframe]
    rfl
  · rw [ht, hframe]
    rfl
  · rw [ht, hframe]
    rfl
  · rw [ht, hframe]
    rfl
  · have hkept : slotOf (logMail x s) k = slotOf s k := hlog.slots k fun lo hi => by rw [hk]; exact nofun
    have hwoken : slotOf (putMail x (logMail x s)) k = wakeSlot s.clock (slotOf s k) := by
      unfold putMail
      rw [slotOf_wake]
      show woken (logMail x s).clock _ (slotOf (logMail x s) k) = _
      rw [hkept, woken, hk, hframe]
      exact if_pos (beq_self_eq_true _)
    rw [h.slots k fun c => by rw [hwoken]; exact nofun, hwoken]
    rfl
  · rw [ht, hfree hf]
    rfl
  · rw [ht, hfree hf]
    rfl
  · rw [ht]
    exact hfixed hf h0

/-- The principal takes its message at once. -/
theorem enterMail_principal {held : Bool} {x : Message} {s t : State} (hp : forPrincipal s held x = true)
    (hcores : s.ctx.cores ≠ []) (h : Freed (enterMail held x s) t) :
    t.net = s.net ∧ t.me.reserved = s.me.reserved ∧ t.me.mbox = s.me.mbox ∧ t.me.devWait = s.me.devWait ∧
    (hdrType x.hdr = 0xF1 → t.fw.events = s.fw.events + 1 ∧ t.fw.pfaults = s.fw.pfaults) ∧
    (hdrType x.hdr = 0xF2 → t.fw.events = s.fw.events ∧ t.fw.pfaults = s.fw.pfaults ++
      [(((x.body[0]?).getD 0).toNat, ((x.body[2]?).getD 0).toNat, ((x.body[3]?).getD 0).toNat)]) := by
  have hlog := wrote_logMail x s
  have hcores' : (logMail x s).ctx.cores ≠ [] := by
    rw [hlog.frame]
    exact hcores
  obtain ⟨-, -, hevents, hpfaults⟩ := logMail_log x s
  have hwrote := hlog.trans (wrote_principalTakes (x := x) hcores')
  obtain ⟨hf1, hf2⟩ := principalTakes_fw (x := x) hcores'
  rw [hevents, hpfaults] at hf1 hf2
  have henter : enterMail held x s = principalTakes x (logMail x s) := by
    have hp' : forPrincipal (logMail x s) held x = true := by
      rw [hlog.frame]
      exact hp
    rw [enterMail, hp', if_pos rfl]
  rw [henter] at h
  have ht := h.frame
  have hframe := hwrote.frame
  refine ⟨?_, ?_, ?_, ?_, fun h1 => ?_, fun h2 => ?_⟩
  · rw [ht, hframe]
  · rw [ht, hframe]
  · rw [ht, hframe]
  · rw [ht, hframe]
  · rw [ht]
    exact hf1 h1
  · rw [ht]
    exact hf2 h2

theorem enterBox_of_room {held : Bool} {x : Message} {s : State} (h : held = true ∨ s.me.mbox.length + s.me.reserved < 32) :
    enterBox held x s = enterMail held x s := by
  refine if_pos ?_
  rcases h with rfl | h
  · rfl
  · have hfree : 0 < freeEntries s.me := by
      unfold freeEntries Config.mailboxEntries
      omega
    rw [decide_eq_true hfree, Bool.or_true]

theorem enterBox_of_full {x : Message} {s : State} (h : ¬s.me.mbox.length + s.me.reserved < 32) :
    enterBox false x s = if waitsInNet (hdrType x.hdr) then { s with me := { s.me with devWait := s.me.devWait ++ [x] } }
      else discard s := by
  have hfree : ¬0 < freeEntries s.me := by
    unfold freeEntries Config.mailboxEntries
    omega
  exact if_neg (by rw [decide_eq_false hfree]; exact Bool.false_ne_true)

/-- A message that a unit of the device has lost. -/
def lostAt (s t : State) : Prop :=
  t.me.drops = s.me.drops + 1 ∧ t.me.mbox = s.me.mbox ∧ t.me.pool = s.me.pool ∧ t.mem = s.mem

theorem lostAt_discard {s u t : State} (hu : u = discard s) (h : Freed u t) : lostAt s t := by
  subst hu
  refine ⟨?_, ?_, ?_, ?_⟩
  · rw [h.frame]
    rfl
  · rw [h.frame]
    rfl
  · rw [h.frame]
    rfl
  · rw [h.frame]
    rfl

/-! ## A message that starts a thread -/

theorem canStart_of_resident {s : State} {e : Word} {k b : Nat} (hnew : s.me.created ≠ some s.clock)
    (hres : s.switch = .resident) (hk : freeSlot s.me (vClass e) = some k) (hb : findWindow s.me (vWin e) = some b) :
    canStart s e = some (k, b) := by
  rw [canStart, if_neg (not_or.2 ⟨hnew, not_not.2 hres⟩), hk, hb]

/-- The thread that a message has started, once the senders that wait have been woken. -/
theorem started {k b : Nat} {x : Message} {s t : State} (hbody : x.body.length = 7) (h : Freed (createThread k b x s) t) :
    let e := vectorOf s.me (hdrType x.hdr)
    slotOf t k = newSlot s.clock s.me.num k b (slotOf s k).lastIssue e x ∧ t.me.mbox = s.me.mbox ∧
    t.me.reserved = s.me.reserved ∧ t.net = s.net ∧ t.mem = s.mem ∧ t.fw = s.fw ∧
    (∀ j < 8, regAt t k j = ((x.hdr :: x.body)[j]?).getD 0) ∧ (∀ j, 8 ≤ j → j < vWin e → regAt t k j = 0) := by
  intro e
  obtain ⟨hslot, hmbox, hres, hnet, hmem, hfw, hpool⟩ := createThread_spec k b x s hbody
  have hkept : slotOf t k = newSlot s.clock s.me.num k b (slotOf s k).lastIssue e x :=
    (h.slots k fun c => by rw [hslot]; exact nofun).trans hslot
  have hreg (j : Nat) (hj : j < 8 ∨ j < vWin e) : regAt t k j = if j < 8 then ((x.hdr :: x.body)[j]?).getD 0 else 0 := by
    rw [regAt, hkept, h.frame]
    exact hpool j hj
  refine ⟨hkept, ?_, ?_, ?_, ?_, ?_, fun j hj => ?_, fun j h8 hj => ?_⟩
  · rw [h.frame]
    exact hmbox
  · rw [h.frame]
    exact hres
  · rw [h.frame]
    exact hnet
  · rw [h.frame]
    exact hmem
  · rw [h.frame]
    exact hfw
  · rw [hreg j (.inl hj), if_pos hj]
  · rw [hreg j (.inr hj), if_neg (by omega)]

/-! ## A message that follows its thread -/

/-- A migrant of slot k of core c, with one more message that has come for it. -/
def followed (x : Message) (c k : Nat) (g : Migrant) : Migrant :=
  if g.core = c ∧ g.from_ = k then { g with late := g.late ++ [x] } else g

theorem dieAt_follow (x : Message) (s : State) (k : Nat) : dieAt (follow x s) k =
    { dieAt s k with arrivals := (dieAt s k).arrivals.map (followed x s.me.num (hdrSlot x.hdr)) } :=
  spGet_mapVal startDie (fun d : Die => { d with arrivals := d.arrivals.map (followed x s.me.num (hdrSlot x.hdr)) }) rfl
    s.dies k

/-! ## The three places of a core-addressed and a slot-addressed message -/

theorem arrive_discards {held : Bool} {x : Message} {s : State}
    (h : (hdrDk x.hdr = false ∧ vEn (vectorOf s.me (hdrType x.hdr)) = false) ∨
      (hdrDk x.hdr = true ∧ slotEmpty s (hdrSlot x.hdr) = true)) : arrive held x s = discard s := by
  unfold arrive
  rcases h with ⟨hdk, hen⟩ | ⟨hdk, hempty⟩
  · simp only [hdk, hen]
    rfl
  · simp only [hdk, hempty]
    rfl

/-- A message comes to the mailbox: a core-addressed one that starts nothing, or a slot-addressed one whose thread is there. -/
def comesToBox (s : State) (x : Message) : Prop :=
  (hdrDk x.hdr = false ∧ vEn (vectorOf s.me (hdrType x.hdr)) = true ∧
    (noOlder s.me (vectorOf s.me (hdrType x.hdr)) = false ∨ canStart s (vectorOf s.me (hdrType x.hdr)) = none)) ∨
  (hdrDk x.hdr = true ∧ slotEmpty s (hdrSlot x.hdr) = false ∧ (slotOf s (hdrSlot x.hdr)).st ≠ .migrating)

theorem arrive_enters {held : Bool} {x : Message} {s : State} (h : comesToBox s x) : arrive held x s = enterBox held x s := by
  unfold arrive
  rcases h with ⟨hdk, hen, hno | hcannot⟩ | ⟨hdk, hempty, hmig⟩
  · simp only [hdk, hen, hno]
    rfl
  · simp only [hdk, hen, hcannot]
    exact ite_self _
  · simp only [hdk, hempty, if_true, if_neg hmig]
    rfl

/-! ## The obligation -/

section Arrival
variable {x : Message} {n : NetMsg} {s : State} (hfind : netFind s x = some n)
include hfind

theorem gives_discarded (h : arrive n.held x (offNet n s) = discard (offNet n s)) :
    Gives (exec (.messageArrival x) s) fun t =>
      t.net = s.net.erase n ∧ t.me.reserved = s.me.reserved - n.held.toNat ∧ lostAt s t :=
  gives_arrival hfind h rfl rfl fun _ ht => lostAt_discard (s := offNet n s) rfl ht

theorem gives_entered (h : arrive n.held x (offNet n s) = enterMail n.held x (offNet n s))
    (hp : forPrincipal s n.held x = false) : Gives (exec (.messageArrival x) s) fun t =>
      t.net = s.net.erase n ∧ t.me.reserved = s.me.reserved - n.held.toNat ∧ t.me.mbox = s.me.mbox ++ [x] ∧
      t.me.drops = s.me.drops ∧ t.me.pool = s.me.pool ∧ (∀ k, (slotOf s k).st = .parked .recv → (slotOf t k).st = .runnable) ∧
      (s.ctx.fixed = false → t.mem = s.mem ∧ t.fw = s.fw) ∧
      (s.ctx.fixed = true → hdrNc x.hdr = 0 → t.fw.msgLog = s.fw.msgLog ++ [(s.clock, x)]) := by
  have hfreed := freed_freedSince (freeEntries s.me) (enterMail n.held x (offNet n s))
  obtain ⟨hnet, hres, hmbox, hdrops, hpool, -, hwake, hfree, hfixed⟩ := enterMail_spec (s := offNet n s) hp hfreed
  exact ⟨_, h ▸ exec_messageArrival hfind, hnet, hres, hmbox, hdrops, hpool, hwake, hfree, hfixed⟩

/-- A message for the mailbox enters it, or is lost where it has no entry and none is free. -/
theorem gives_boxed (hbox : comesToBox (offNet n s) x) (hp : forPrincipal s n.held x = false) :
    (n.held = true ∨ s.me.mbox.length + s.me.reserved < 32 → Gives (exec (.messageArrival x) s) fun t =>
      t.net = s.net.erase n ∧ t.me.reserved = s.me.reserved - n.held.toNat ∧ t.me.mbox = s.me.mbox ++ [x] ∧
      t.me.drops = s.me.drops ∧ t.me.pool = s.me.pool ∧ (∀ k, (slotOf s k).st = .parked .recv → (slotOf t k).st = .runnable) ∧
      (s.ctx.fixed = false → t.mem = s.mem ∧ t.fw = s.fw) ∧
      (s.ctx.fixed = true → hdrNc x.hdr = 0 → t.fw.msgLog = s.fw.msgLog ++ [(s.clock, x)])) ∧
    (n.held = false ∧ hdrType x.hdr ≠ 0xF1 ∧ hdrType x.hdr ≠ 0xF2 → ¬s.me.mbox.length + s.me.reserved < 32 →
      Gives (exec (.messageArrival x) s) fun t =>
        t.net = s.net.erase n ∧ t.me.reserved = s.me.reserved - n.held.toNat ∧ lostAt s t) := by
  refine ⟨fun hroom => gives_entered hfind ?_ hp, fun ⟨hheld, h1, h2⟩ hfull => gives_discarded hfind ?_⟩
  · refine (arrive_enters hbox).trans (enterBox_of_room (hroom.imp_right fun h => ?_))
    exact Nat.lt_of_le_of_lt (Nat.add_le_add_left (Nat.sub_le _ _) _) h
  · have hfull' : ¬(offNet n s).me.mbox.length + (offNet n s).me.reserved < 32 := by
      simpa [offNet, hheld] using hfull
    have hwaits : waitsInNet (hdrType x.hdr) = false := by simp [waitsInNet, h1, h2]
    rw [arrive_enters hbox, hheld, enterBox_of_full hfull', hwaits, if_neg Bool.false_ne_true]

theorem gives_started (hbody : x.body.length = 7) (hdk : hdrDk x.hdr = false)
    (hen : vEn (vectorOf s.me (hdrType x.hdr)) = true) (hno : noOlder s.me (vectorOf s.me (hdrType x.hdr)) = true)
    {k b : Nat} (hcan : canStart s (vectorOf s.me (hdrType x.hdr)) = some (k, b)) :
    let e := vectorOf s.me (hdrType x.hdr)
    Gives (exec (.messageArrival x) s) fun t =>
      t.net = s.net.erase n ∧ t.me.reserved = s.me.reserved - n.held.toNat ∧
      slotOf t k = newSlot s.clock s.me.num k b (slotOf s k).lastIssue e x ∧ t.me.mbox = s.me.mbox ∧
      (∀ j < 8, regAt t k j = ((x.hdr :: x.body)[j]?).getD 0) ∧ (∀ j, 8 ≤ j → j < vWin e → regAt t k j = 0) ∧
      (s.ctx.fixed = false → t.mem = s.mem ∧ t.fw = s.fw) ∧
      (s.ctx.fixed = true → hdrNc x.hdr = 0 → t.fw.msgLog = s.fw.msgLog ++ [(s.clock, x)]) := by
  intro e
  have hlog := wrote_logMail x (offNet n s)
  have hframe := hlog.frame
  obtain ⟨hfree, hfixed, -, -⟩ := logMail_log x (offNet n s)
  have harrive : arrive n.held x (offNet n s) = createThread k b x (logMail x (offNet n s)) := by
    have hen' : vEn (vectorOf (offNet n s).me (hdrType x.hdr)) = true := hen
    have hno' : noOlder (offNet n s).me (vectorOf (offNet n s).me (hdrType x.hdr)) = true := hno
    have hcan' : canStart (offNet n s) (vectorOf (offNet n s).me (hdrType x.hdr)) = some (k, b) := hcan
    unfold arrive
    simp only [hdk, hen', hno', hcan']
    rfl
  have hfreed := freed_freedSince (freeEntries s.me) (createThread k b x (logMail x (offNet n s)))
  have hvec : vectorOf (logMail x (offNet n s)).me (hdrType x.hdr) = e := by
    rw [hframe]
    rfl
  obtain ⟨hslot, hmbox, hres, hnet, hmem, hfw, hreg, hzero⟩ := started hbody hfreed
  rw [hvec] at hslot hzero
  refine ⟨_, harrive ▸ exec_messageArrival hfind, ?_, ?_, ?_, ?_, hreg, hzero, fun hf => ⟨?_, ?_⟩, fun hf h0 => ?_⟩
  · rw [hnet, hframe]
    rfl
  · rw [hres, hframe]
    rfl
  · rw [hslot, hlog.last, hframe]
    rfl
  · rw [hmbox, hframe]
    rfl
  · rw [hmem, hfree hf]
    rfl
  · rw [hfw, hfree hf]
    rfl
  · rw [hfw]
    exact hfixed hf h0

end Arrival

/-- A message for a thread on its way to another die is added to what comes for it. -/
theorem gives_followed {x : Message} {n : NetMsg} {s : State} (hfind : netFind s x = some n) (hdk : hdrDk x.hdr = true)
    (hempty : slotEmpty s (hdrSlot x.hdr) = false) (hmig : (slotOf s (hdrSlot x.hdr)).st = .migrating) :
    Gives (exec (.messageArrival x) s) fun t =>
      t.net = s.net.erase n ∧ t.me.reserved = s.me.reserved - n.held.toNat ∧ t.me.mbox = s.me.mbox ∧
      t.me.drops = s.me.drops ∧ t.mem = s.mem ∧
      ∀ k, ∀ g ∈ (dieAt s k).arrivals, g.core = s.me.num → g.from_ = hdrSlot x.hdr →
        { g with late := g.late ++ [x] } ∈ (dieAt t k).arrivals := by
  have harrive : arrive n.held x (offNet n s) = follow x (offNet n s) := by
    have hempty' : slotEmpty (offNet n s) (hdrSlot x.hdr) = false := hempty
    unfold arrive
    simp only [hdk, hempty', if_true]
    exact (if_neg Bool.false_ne_true).trans (if_pos hmig)
  refine gives_arrival hfind harrive rfl rfl fun t ht => ⟨?_, ?_, ?_, fun k g hg hcore hfrom => ?_⟩
  · rw [ht.frame]
    rfl
  · rw [ht.frame]
    rfl
  · rw [ht.frame]
    rfl
  · have hdie : dieAt t k = dieAt (follow x (offNet n s)) k := by
      rw [ht.frame]
      rfl
    rw [hdie, dieAt_follow]
    exact List.mem_map.2 ⟨g, hg, if_pos ⟨hcore, hfrom⟩⟩

/-- FAULT and PFAULT at the principal's core: taken at once, or left to wait for an entry. -/
theorem gives_principal {x : Message} {n : NetMsg} {s : State} (hfind : netFind s x = some n)
    (hp : forPrincipal s n.held x = true) (hempty : slotEmpty s (hdrSlot x.hdr) = false)
    (hmig : (slotOf s (hdrSlot x.hdr)).st ≠ .migrating) (hcores : s.ctx.cores ≠ []) :
    (s.me.mbox.length + s.me.reserved < 32 → Gives (exec (.messageArrival x) s) fun t =>
      t.net = s.net.erase n ∧ t.me.reserved = s.me.reserved - n.held.toNat ∧ t.me.mbox = s.me.mbox ∧
      (hdrType x.hdr = 0xF1 → t.fw.events = s.fw.events + 1 ∧ t.fw.pfaults = s.fw.pfaults) ∧
      (hdrType x.hdr = 0xF2 → t.fw.events = s.fw.events ∧ t.fw.pfaults = s.fw.pfaults ++
        [(((x.body[0]?).getD 0).toNat, ((x.body[2]?).getD 0).toNat, ((x.body[3]?).getD 0).toNat)])) ∧
    (32 ≤ s.me.mbox.length + s.me.reserved → Gives (exec (.messageArrival x) s) fun t =>
      t.net = s.net.erase n ∧ t.me.reserved = s.me.reserved - n.held.toNat ∧
      t.me.devWait = s.me.devWait ++ [x] ∧ t.me.mbox = s.me.mbox ∧ t.fw = s.fw ∧ t.mem = s.mem) := by
  have hparts := hp
  simp only [forPrincipal, Bool.and_eq_true, Bool.not_eq_true'] at hparts
  obtain ⟨⟨⟨hheld, hwaits⟩, hdk⟩, -⟩ := hparts
  have hbox : comesToBox (offNet n s) x := .inr ⟨hdk, hempty, hmig⟩
  have harrive := arrive_enters (held := n.held) hbox
  have hres : (offNet n s).me.reserved = s.me.reserved := by simp [offNet, hheld]
  constructor
  · intro hroom
    have hfreed := freed_freedSince (freeEntries s.me) (enterMail n.held x (offNet n s))
    obtain ⟨hnet, hres', hmbox, -, h1, h2⟩ := enterMail_principal (s := offNet n s) hp hcores hfreed
    have henter := harrive.trans (enterBox_of_room (.inr (by rw [hres]; exact hroom)))
    exact ⟨_, henter ▸ exec_messageArrival hfind, hnet, hres', hmbox, h1, h2⟩
  · intro hfull
    have hwait : arrive n.held x (offNet n s) =
        { offNet n s with me := { (offNet n s).me with devWait := s.me.devWait ++ [x] } } := by
      have hfull' : ¬(offNet n s).me.mbox.length + (offNet n s).me.reserved < 32 := by
        rw [hres]
        exact Nat.not_lt.2 hfull
      rw [harrive, hheld, enterBox_of_full hfull', hwaits, if_pos rfl]
      rfl
    refine gives_arrival hfind hwait rfl rfl fun t ht => ⟨?_, ?_, ?_, ?_⟩
    · rw [ht.frame]
    · rw [ht.frame]
      rfl
    · rw [ht.frame]
      rfl
    · rw [ht.frame]
      rfl

/-- A waiting message starts its thread. -/
theorem gives_waitingStart {x : Message} {cls k b : Nat} {s : State} (hnext : nextWaiting s.me cls = some x)
    (hcan : canStart s (vectorOf s.me (hdrType x.hdr)) = some (k, b)) (hbody : x.body.length = 7) :
    Gives (exec (.waitingMessageStart cls) s) fun t =>
      t.me.mbox = s.me.mbox.erase x ∧ (slotOf t k).st = .runnable ∧ (slotOf t k).winBase = b ∧
      (slotOf t k).pa = vHandler (vectorOf s.me (hdrType x.hdr)) ∧ (slotOf t k).elig = s.clock + 1 ∧
      (∀ j < 8, regAt t k j = ((x.hdr :: x.body)[j]?).getD 0) ∧ t.mem = s.mem := by
  have hexec : exec (.waitingMessageStart cls) s =
      .next (mailboxFreed (createThread k b x { s with me := { s.me with mbox := s.me.mbox.erase x } })) := by
    show execWaitingMessageStart cls s = _
    unfold execWaitingMessageStart
    rw [hnext]
    dsimp only
    rw [hcan]
  obtain ⟨hslot, hmbox, -, -, hmem, -, hreg, -⟩ := started hbody
    (freed_mailboxFreed (createThread k b x { s with me := { s.me with mbox := s.me.mbox.erase x } }))
  refine ⟨_, hexec, hmbox, ?_, ?_, ?_, ?_, hreg, hmem⟩
  · rw [hslot]
    rfl
  · rw [hslot]
    rfl
  · rw [hslot]
    rfl
  · rw [hslot]
    rfl

/-- The oldest message of a device unit that waits for an entry takes one. -/
theorem gives_deviceEntry {x : Message} {l : List Message} {s : State} (hwait : s.me.devWait = x :: l)
    (hroom : s.me.mbox.length + s.me.reserved < 32) (hcores : s.ctx.cores ≠ []) :
    Gives (exec .deviceMessageEntry s) fun t => t.me.devWait = l ∧
      (forPrincipal s false x = true → t.me.mbox = s.me.mbox ∧
        (hdrType x.hdr = 0xF1 → t.fw.events = s.fw.events + 1) ∧
        (hdrType x.hdr = 0xF2 → t.fw.pfaults = s.fw.pfaults ++
          [(((x.body[0]?).getD 0).toNat, ((x.body[2]?).getD 0).toNat, ((x.body[3]?).getD 0).toNat)])) := by
  let u : State := { s with me := { s.me with devWait := l } }
  have hfree : 0 < freeEntries s.me := by
    unfold freeEntries Config.mailboxEntries
    omega
  have hexec : exec .deviceMessageEntry s = .next (mailboxFreed (enterMail false x u)) := by
    show execDeviceMessageEntry s = _
    unfold execDeviceMessageEntry
    rw [hwait]
    exact if_pos hfree
  have hfreed := freed_mailboxFreed (enterMail false x u)
  refine ⟨_, hexec, ?_⟩
  cases hp : forPrincipal s false x
  · obtain ⟨-, -, -, -, -, hdev, -⟩ := enterMail_spec (s := u) hp hfreed
    exact ⟨hdev, nofun⟩
  · obtain ⟨-, -, hmbox, hdev, h1, h2⟩ := enterMail_principal (s := u) hp hcores hfreed
    exact ⟨hdev, fun _ => ⟨hmbox, fun h => (h1 h).1, fun h => (h2 h).2⟩⟩

/-- A message of an engine to the thread that pushed its command. -/
theorem engMessage_spec {c : EngCmd} {type : Nat} {body : List Word} {s : State} (hslot : c.slot < 16) (htype : type < 256)
    (h1 : type ≠ 0xF1) (h2 : type ≠ 0xF2) (hmig : (slotOf s c.slot).st ≠ .migrating) :
    let x : Message := ⟨mkHdr c.gen.toNat type c.core c.slot c.core c.slot true false, body, 0, 0⟩
    let t := engMessage c type body s
    let lost := c.live = false ∨ slotEmpty s c.slot = true ∨ 32 ≤ s.me.mbox.length + s.me.reserved
    t.me.pool = s.me.pool ∧ (¬lost → t.me.mbox = s.me.mbox ++ [x] ∧ t.me.drops = s.me.drops) ∧
    (lost → t.me.mbox = s.me.mbox ∧ t.me.drops = s.me.drops + 1 ∧ t.mem = s.mem) := by
  intro x t lost
  have hxdk : hdrDk x.hdr = true := hdrDk_mkHdr ..
  have hxslot : hdrSlot x.hdr = c.slot := (hdrSlot_mkHdr ..).trans (Nat.mod_eq_of_lt hslot)
  have hxtype : hdrType x.hdr = type := (hdrType_mkHdr ..).trans (Nat.mod_eq_of_lt htype)
  have hwaits : waitsInNet (hdrType x.hdr) = false := by simp [hxtype, waitsInNet, h1, h2]
  have hdiscard (h : t = discard s) : t.me.pool = s.me.pool ∧ t.me.mbox = s.me.mbox ∧ t.me.drops = s.me.drops + 1 ∧
      t.mem = s.mem := by
    rw [h]
    exact ⟨rfl, rfl, rfl, rfl⟩
  by_cases hlost : lost
  · have hdrop : t = discard s := by
      show (if c.live then arrive false x s else discard s) = _
      cases hlive : c.live
      · rfl
      · rw [if_pos rfl]
        rcases hlost with h | h | hfull
        · rw [hlive] at h
          cases h
        · exact arrive_discards (.inr ⟨hxdk, by rw [hxslot]; exact h⟩)
        · cases hempty : slotEmpty s c.slot
          · rw [arrive_enters (.inr ⟨hxdk, by rw [hxslot]; exact hempty, by rw [hxslot]; exact hmig⟩),
              enterBox_of_full (Nat.not_lt.2 hfull), hwaits, if_neg Bool.false_ne_true]
          · exact arrive_discards (.inr ⟨hxdk, by rw [hxslot]; exact hempty⟩)
    obtain ⟨hpool, hmbox, hdrops, hmem⟩ := hdiscard hdrop
    exact ⟨hpool, fun h => absurd hlost h, fun _ => ⟨hmbox, hdrops, hmem⟩⟩
  · simp only [lost, not_or, Bool.not_eq_false, Bool.not_eq_true, Nat.not_le] at hlost
    obtain ⟨hlive, hempty, hroom⟩ := hlost
    have henter : t = enterMail false x s := by
      show (if c.live then arrive false x s else discard s) = _
      rw [hlive, if_pos rfl, arrive_enters (.inr ⟨hxdk, by rw [hxslot]; exact hempty, by rw [hxslot]; exact hmig⟩),
        enterBox_of_room (.inr hroom)]
    have hp : forPrincipal s false x = false := by simp [forPrincipal, hwaits]
    have hself : Freed (enterMail false x s) t := by
      rw [henter]
      exact Freed.refl _
    obtain ⟨-, -, hmbox, hdrops, hpool, -⟩ := enterMail_spec hp hself
    exact ⟨hpool, fun _ => ⟨hmbox, hdrops⟩, fun h => absurd h (by simp [lost, hlive, hempty, hroom])⟩

/-- Settles O28: where a message that is due at its core goes, then the messages that wait, and those of an engine. -/
theorem messageArrivals : Obligations.MessageArrivals := by
  refine ⟨⟨fun x due held s hfind hbody => ?_, fun x cls k b s => gives_waitingStart, fun x l s => gives_deviceEntry⟩,
    fun c type body s => engMessage_spec⟩
  intro e sl arrives drops logged enters room unit
  refine ⟨fun hdk hen hno hnew hres k b hk hb => ?_, fun hdk hen hno => ?_, fun hdk hen => ?_, fun hdk hempty => ?_,
    fun hdk hempty hmig hp => ?_, fun hdk hempty hmig => gives_followed hfind hdk hempty hmig,
    fun hp hempty hmig hcores => gives_principal hfind hp hempty hmig hcores⟩
  · obtain ⟨t, hexec, hnet, hreserved, hslot, hmbox, hreg, hzero, hlog⟩ :=
      gives_started hfind hbody hdk hen hno (canStart_of_resident hnew hres hk hb)
    refine ⟨t, hexec, hnet, hreserved, ?_, ?_, ?_, ?_, ?_, ?_, ?_, ?_, hreg, fun j h8 hj => hzero j h8 ?_, hmbox, hlog⟩
    · rw [hslot]
      rfl
    · rw [hslot]
      show bits e 0 54 * 8 = _
      rw [bits, Nat.pow_zero, Nat.div_one]
    · rw [hslot]
      rfl
    · rw [hslot]
      rfl
    · rw [hslot]
      rfl
    · rw [hslot]
      exact (getLsbD_eq_bits e 62).symm
    · rw [hslot]
      rfl
    · rw [hslot]
      rfl
    · rw [hslot] at hj
      exact hj
  · have hbox : comesToBox (offNet ⟨x, due, held⟩ s) x := .inl ⟨hdk, hen, hno⟩
    exact gives_boxed hfind hbox (by simp [forPrincipal, hdk])
  · exact gives_discarded hfind (arrive_discards (.inl ⟨hdk, hen⟩))
  · exact gives_discarded hfind (arrive_discards (.inr ⟨hdk, hempty⟩))
  · have hbox : comesToBox (offNet ⟨x, due, held⟩ s) x := .inr ⟨hdk, hempty, hmig⟩
    exact gives_boxed hfind hbox hp

end Sys2Proof.Proofs
end

section
/-!
SUPPORT. The learning-automaton array's words (R378 to R381, R384, R394, R395).
-/

namespace Sys2Proof.Proofs

open Sys2Proof Sys2Proof.Machine Sys2Proof.Laws

/-! ## Sparse maps in canonical form -/

theorem lt_of_mem_spWfFrom {α : Type} [DecidableEq α] {d : α} {lo : Option Nat} {m : Sp α} {e : Nat × α}
    (h : spWfFrom d lo m = true) (he : e ∈ m) : ∀ l, lo = some l → l < e.1 := by
  induction m generalizing lo with
  | nil => cases he
  | cons x m ih =>
    obtain ⟨hlo, -, hrest⟩ := (spWfFrom_cons d lo x.1 x.2 m).1 h
    rcases List.mem_cons.1 he with rfl | he
    · exact hlo
    · exact fun l hl => (hlo l hl).trans (ih hrest he x.1 rfl)

/-- What a canonical map lists is what it answers. -/
theorem spGet_of_mem {α : Type} [DecidableEq α] {d : α} {lo : Option Nat} {m : Sp α} {e : Nat × α}
    (h : spWfFrom d lo m = true) (he : e ∈ m) : spGet d m e.1 = e.2 := by
  induction m generalizing lo with
  | nil => cases he
  | cons x m ih =>
    obtain ⟨-, -, hrest⟩ := (spWfFrom_cons d lo x.1 x.2 m).1 h
    rw [spGet_cons]
    rcases List.mem_cons.1 he with rfl | he
    · exact if_pos rfl
    · rw [if_neg (lt_of_mem_spWfFrom hrest he x.1 rfl).ne', ih hrest he]

/-- A value that is not the map's default is listed. -/
theorem mem_of_spGet_ne {α : Type} {d : α} {m : Sp α} {k : Nat} (h : spGet d m k ≠ d) : (k, spGet d m k) ∈ m := by
  induction m with
  | nil => exact absurd rfl h
  | cons x m ih =>
    rw [spGet_cons] at h ⊢
    split
    · next hk =>
      subst hk
      exact List.mem_cons_self
    · next hk =>
      rw [if_neg hk] at h
      exact List.mem_cons_of_mem x (ih h)

/-! ## Outputs and votes (R382, R384) -/

/-- A clause's output is the AND of the active literals that it includes. -/
theorem laOut_iff {m : Automaton} {x : BitVec 256} {nf c : Nat} (hwf : spWf (-1) m.cells = true) :
    laOut m x nf c = true ↔ ∀ l < 512, l % 256 < nf → 0 ≤ (laCell m c l).toInt → litVal x l = true := by
  unfold laOut
  rw [List.all_eq_true]
  constructor
  · intro hall l hl hnf hin
    have hne : spGet (-1) m.cells (512 * c + l) ≠ -1 := fun h => by
      rw [laCell, h] at hin
      exact absurd hin (by decide)
    have hlit := hall _ (mem_of_spGet_ne hne)
    have hdiv : (512 * c + l) / 512 = c := by omega
    have hmod : (512 * c + l) % 256 = l % 256 := by omega
    have hmod' : (512 * c + l) % 512 = l := by omega
    simp only [hdiv, hmod, hmod', beq_self_eq_true, decide_eq_true hnf, included, Bool.true_and] at hlit
    rw [show decide (0 ≤ (spGet (-1) m.cells (512 * c + l)).toInt) = true from decide_eq_true hin] at hlit
    exact hlit
  · intro h e he
    rw [Bool.or_eq_true, Bool.not_eq_true']
    by_cases hinc : (e.1 / 512 == c && decide (e.1 % 256 < nf) && included e.2) = true
    · simp only [included, Bool.and_eq_true, beq_iff_eq, decide_eq_true_eq] at hinc
      obtain ⟨⟨hc, hnf⟩, hin⟩ := hinc
      have hkey : 512 * c + e.1 % 512 = e.1 := by omega
      refine .inr (h (e.1 % 512) (Nat.mod_lt _ (by omega)) (by omega) ?_)
      rw [laCell, hkey, spGet_of_mem hwf he]
      exact hin
    · exact .inl (Bool.eq_false_iff.2 hinc)

/-- A digit sum in base 2^w, as the result's fields are packed. -/
def packed (w : Nat) (a : Nat → Nat) (n : Nat) : Nat := (List.range n).foldl (fun acc k => acc + a k * 2 ^ (w * k)) 0

theorem packed_succ (w : Nat) (a : Nat → Nat) (n : Nat) : packed w a (n + 1) = packed w a n + a n * 2 ^ (w * n) := by
  rw [packed, List.range_succ, List.foldl_append]
  rfl

theorem packed_lt {w : Nat} {a : Nat → Nat} (ha : ∀ k, a k < 2 ^ w) (n : Nat) : packed w a n < 2 ^ (w * n) := by
  induction n with
  | zero => exact Nat.one_pos
  | succ n ih =>
    have hmul : a n * 2 ^ (w * n) ≤ (2 ^ w - 1) * 2 ^ (w * n) := Nat.mul_le_mul_right _ (Nat.le_sub_one_of_lt (ha n))
    rw [Nat.sub_mul, Nat.one_mul, ← Nat.pow_add, Nat.add_comm w] at hmul
    have hle : 2 ^ (w * n) ≤ 2 ^ (w * n + w) := Nat.pow_le_pow_right (by omega) (by omega)
    rw [packed_succ, Nat.mul_succ]
    omega

/-- Field j of a digit sum. -/
theorem packed_digit {w : Nat} {a : Nat → Nat} (ha : ∀ k, a k < 2 ^ w) {j n : Nat} (hj : j < n) :
    packed w a n / 2 ^ (w * j) % 2 ^ w = a j := by
  induction n with
  | zero => cases hj
  | succ n ih =>
    rw [packed_succ]
    rcases Nat.lt_succ_iff_lt_or_eq.1 hj with hlt | rfl
    · obtain ⟨k, rfl⟩ : ∃ k, n = j + 1 + k := ⟨n - (j + 1), by omega⟩
      have hpow : 2 ^ (w * (j + 1 + k)) = 2 ^ (w * j) * (2 ^ w * 2 ^ (w * k)) := by
        rw [← Nat.pow_add, ← Nat.pow_add]
        ring_nf
      rw [hpow, Nat.mul_left_comm, Nat.add_mul_div_left _ _ (Nat.two_pow_pos _), Nat.mul_left_comm, Nat.add_mul_mod_self_left]
      exact ih hlt
    · rw [Nat.add_mul_div_right _ _ (Nat.two_pow_pos _), Nat.div_eq_of_lt (packed_lt ha j), Nat.zero_add,
        Nat.mod_eq_of_lt (ha j)]

/-- Votes: the even clauses of a class that output 1, less the odd ones. -/
theorem laVote_eq (m : Automaton) (outs : List Bool) (k : Nat) : laVote m outs k =
    ((List.range 128).countP fun c => (outs[c]?).getD false && laClass m c == k && c % 2 == 0 : Nat) -
    ((List.range 128).countP fun c => (outs[c]?).getD false && laClass m c == k && c % 2 == 1 : Nat) := by
  have hfold (l : List Nat) (acc : Int) : l.foldl (fun acc c =>
      if (outs[c]?).getD false && laClass m c == k then (if c % 2 = 0 then acc + 1 else acc - 1) else acc) acc = acc +
      ((l.countP fun c => (outs[c]?).getD false && laClass m c == k && c % 2 == 0 : Nat) -
       (l.countP fun c => (outs[c]?).getD false && laClass m c == k && c % 2 == 1 : Nat)) := by
    induction l generalizing acc with
    | nil => simp
    | cons c l ih =>
      rw [List.foldl_cons, ih, List.countP_cons, List.countP_cons]
      cases hin : (outs[c]?).getD false && laClass m c == k
      · simp
      · rcases Nat.mod_two_eq_zero_or_one c with hc | hc
        · simp [hc]
          omega
        · simp [hc]
          omega
  rw [laVote, hfold, Int.zero_add]

theorem laOuts_get (m : Automaton) (x : BitVec 256) (c : Nat) : ((laOuts m x)[c]?).getD false =
    (decide (c < 128) && (decide (c < m.ncl.toNat) && laOut m x m.nf.toNat c)) := by
  unfold laOuts
  rw [List.getElem?_map]
  by_cases hc : c < 128
  · rw [List.getElem?_range hc, decide_eq_true hc]
    rfl
  · rw [List.getElem?_eq_none (by simpa using hc), decide_eq_false hc]
    rfl

/-- The packed result: votes in the low half, outputs above. -/
theorem laInfer_eq (m : Automaton) (x : BitVec 256) : laInfer m x = BitVec.ofNat 512
    (packed 32 (fun k => (BitVec.ofInt 32 (laVote m (laOuts m x) k)).toNat) 8 +
      packed 1 (fun c => (((laOuts m x)[c]?).getD false).toNat) 128 * 2 ^ 256) := by
  have hbit : (fun (acc c : Nat) => acc + (if ((laOuts m x)[c]?).getD false then 2 ^ c else 0)) =
      fun acc c => acc + (((laOuts m x)[c]?).getD false).toNat * 2 ^ (1 * c) := by
    funext acc c
    cases ((laOuts m x)[c]?).getD false <;> simp
  unfold laInfer packed
  dsimp only
  rw [hbit]

theorem toNat_laInfer (m : Automaton) (x : BitVec 256) : (laInfer m x).toNat =
    packed 32 (fun k => (BitVec.ofInt 32 (laVote m (laOuts m x) k)).toNat) 8 +
      packed 1 (fun c => (((laOuts m x)[c]?).getD false).toNat) 128 * 2 ^ 256 := by
  have hv := packed_lt (w := 32) (a := fun k => (BitVec.ofInt 32 (laVote m (laOuts m x) k)).toNat) (fun k => BitVec.isLt _) 8
  have hb := packed_lt (w := 1) (a := fun c => (((laOuts m x)[c]?).getD false).toNat) (fun c => Bool.toNat_lt _) 128
  rw [laInfer_eq, BitVec.toNat_ofNat, Nat.mod_eq_of_lt]
  omega

/-- Output c of an inference. -/
theorem laInfer_out (m : Automaton) (x : BitVec 256) {c : Nat} (hc : c < 128) :
    (laInfer m x).getLsbD (256 + c) = (decide (c < m.ncl.toNat) && laOut m x m.nf.toNat c) := by
  have hv := packed_lt (w := 32) (a := fun k => (BitVec.ofInt 32 (laVote m (laOuts m x) k)).toNat) (fun k => BitVec.isLt _) 8
  have hd := packed_digit (w := 1) (a := fun c => (((laOuts m x)[c]?).getD false).toNat) (fun c => Bool.toNat_lt _) hc
  have hget := laOuts_get m x c
  rw [decide_eq_true hc, Bool.true_and] at hget
  rw [BitVec.getLsbD, toNat_laInfer, Nat.testBit_eq_decide_div_mod_eq, Nat.pow_add, ← Nat.div_div_eq_div_mul,
    Nat.add_mul_div_right _ _ (Nat.two_pow_pos _), Nat.div_eq_of_lt hv, Nat.zero_add]
  rw [Nat.one_mul, Nat.pow_one, hget] at hd
  rw [hd]
  cases decide (c < m.ncl.toNat) && laOut m x m.nf.toNat c <;> rfl

/-- Vote j of an inference. -/
theorem laInfer_vote (m : Automaton) (x : BitVec 256) {j : Nat} (hj : j < 8) :
    ((laInfer m x).extractLsb' (32 * j) 32).toInt = laVote m (laOuts m x) j := by
  have hd := packed_digit (w := 32) (a := fun k => (BitVec.ofInt 32 (laVote m (laOuts m x) k)).toNat)
    (fun k => BitVec.isLt _) hj
  have hfield : (laInfer m x).extractLsb' (32 * j) 32 = BitVec.ofInt 32 (laVote m (laOuts m x) j) := by
    apply BitVec.eq_of_toNat_eq
    obtain ⟨k, hk⟩ : ∃ k, 8 = j + 1 + k := ⟨7 - j, by omega⟩
    have hpow : 2 ^ 256 = 2 ^ (32 * j) * (2 ^ 32 * 2 ^ (32 * k)) := by
      rw [← Nat.pow_add, ← Nat.pow_add]
      congr 1
      omega
    rw [toNat_extractLsb'_eq, toNat_laInfer, hpow, Nat.mul_left_comm, Nat.add_mul_div_left _ _ (Nat.two_pow_pos _),
      Nat.mul_left_comm, Nat.add_mul_mod_self_left, hd]
  have hbound := laVote_eq m (laOuts m x) j
  have h0 := List.countP_le_length (l := List.range 128)
    (p := fun c => (((laOuts m x)[c]?).getD false && laClass m c == j && c % 2 == 0))
  have h1 := List.countP_le_length (l := List.range 128)
    (p := fun c => (((laOuts m x)[c]?).getD false && laClass m c == j && c % 2 == 1))
  rw [List.length_range] at h0 h1
  rw [hfield, BitVec.toInt_ofInt, Int.bmod_eq_of_le]
  · omega
  · omega

/-! ## Index words (R378) -/

/-- The fields of an index word. -/
theorem index_fields {a : Word} {sp c l : Nat} (h : a.toNat = 2 ^ 16 * sp + 512 * c + l) (hsp : sp < 4) (hc : c < 128)
    (hl : l < 512) : laSpace a = sp ∧ laClauseOf a = c ∧ laLit a = l ∧ a.toNat < 2 ^ 18 := by
  unfold laSpace laClauseOf laLit bits
  omega

/-- An index word names an item where its fields that its space does not use are 0. -/
theorem laIndexOk_of_fields {a : Word} {sp c l : Nat} (h : a.toNat = 2 ^ 16 * sp + 512 * c + l) (hsp : sp < 4) (hc : c < 128)
    (hl : l < 512) (hok : sp = 0 ∨ (sp = 1 ∧ l = 0) ∨ (sp = 2 ∧ c = 0 ∧ l < 16) ∨ (sp = 3 ∧ c = 0 ∧ l ≤ 4)) :
    laIndexOk a = true := by
  obtain ⟨hspace, hclause, hlit, hlt⟩ := index_fields h hsp hc hl
  unfold laIndexOk
  rw [decide_eq_true hlt, hspace, hclause, hlit]
  rcases hok with rfl | ⟨rfl, rfl⟩ | ⟨rfl, rfl, h16⟩ | ⟨rfl, rfl, h4⟩
  · rfl
  · rfl
  · simp [h16]
  · simp [h4]

/-! ## The words that wait for the array to drain -/

section Drained
variable {gd ga gb : BitVec 7} {s : State}

theorem laDrained_idle {form d : Nat} {a b : Word} (h : s.me.la.queue = []) : laDrained form d a b s = laAct form d a b s :=
  if_pos (List.isEmpty_iff.2 h)

theorem laDrained_busy {form d : Nat} {a b : Word} (h : s.me.la.queue ≠ []) :
    laDrained form d a b s = .next (setRes .waiting (onCur (fun c => { c with st := .waiting (.laDrain form d a b) }) s)) :=
  if_neg fun he => h (List.isEmpty_iff.1 he)

theorem exec_lard (hr : Ready ⟨[.g gd, .g ga], [.g gd]⟩ s) (hok : laIndexOk (rd s ga) = true) :
    exec (.lard gd ga) s = laDrained 3 gd.toNat (rd s ga) 0 s :=
  outcome_of_ready (rfl : execLard gd ga s = _) hr (if_neg (by rw [hok]; decide))

/-- LARD of an item once the array has drained. -/
theorem lard_reads (hr : Ready ⟨[.g gd, .g ga], [.g gd]⟩ s) (hidle : s.me.la.queue = []) (hok : laIndexOk (rd s ga) = true)
    (hgood : ¬(laSpace (rd s ga) = 0 ∧ laBad s.me.la (laClauseOf (rd s ga)) = true)) :
    exec (.lard gd ga) s = .next (advance (wr gd (laItem s.me.la (rd s ga)) s)) := by
  rw [exec_lard hr hok, laDrained_idle hidle]
  exact if_neg hgood

theorem exec_lawr (hr : Ready ⟨[.g ga, .g gb], []⟩ s) {c l : Nat} (hk : (rd s ga).toNat = 512 * c + l) (hc : c < 128)
    (hl : l < 512) (hlow : -128 ≤ (rd s gb).toInt) (hhigh : (rd s gb).toInt ≤ 127) :
    exec (.lawr ga gb) s = laDrained 4 0 (rd s ga) (rd s gb) s := by
  have hk' : (rd s ga).toNat = 2 ^ 16 * 0 + 512 * c + l := by omega
  obtain ⟨hspace, -, -, -⟩ := index_fields hk' (by omega) hc hl
  have hok := laIndexOk_of_fields hk' (by omega) hc hl (.inl rfl)
  have hwritable : laWritable (rd s ga) = true := by
    rw [laWritable, hok, hspace]
    rfl
  have hrange : laInRange (rd s ga) (rd s gb) = true := by
    rw [laInRange, hspace]
    simp [hlow, hhigh]
  refine outcome_of_ready (rfl : execLawr ga gb s = _) hr ?_
  rw [hwritable, hrange]
  rfl

theorem exec_laseed (hr : Ready ⟨[.g ga, .g gb], []⟩ s) (ha : (rd s ga).toNat < 2 ^ 32) (hb : (rd s gb).toNat < 2 ^ 16) :
    exec (.laseed ga gb) s = laDrained 5 0 (rd s ga) (rd s gb) s := by
  refine outcome_of_ready (rfl : execLaseed ga gb s = _) hr ?_
  rw [if_neg (Nat.not_le.2 ha), if_neg (Nat.not_le.2 hb)]

theorem exec_laclr (hr : Ready ⟨[.g ga], []⟩ s) (ha : (rd s ga).toNat < 256) :
    exec (.laclr ga) s = laDrained 6 0 (rd s ga) 0 s :=
  outcome_of_ready (rfl : execLaclr ga s = _) hr (if_neg (Nat.not_le.2 ha))

end Drained

/-- A run of equal cells answers its value. -/
theorem spGet_replicate {α : Type} (d v : α) {n k : Nat} (hk : k < n) : spGet d ((List.range n).map fun k => (k, v)) k = v := by
  have hall (l : List Nat) (hk : k ∈ l) : spGet d (l.map fun k => (k, v)) k = v := by
    induction l with
    | nil => cases hk
    | cons j l ih =>
      rw [List.map_cons, spGet_cons]
      split
      · rfl
      · next hne => exact ih ((List.mem_cons.1 hk).resolve_left hne)
  exact hall _ (List.mem_range.2 hk)

theorem laCell_laClear (v : BitVec 8) (m : Automaton) {c l : Nat} (hc : c < 128) (hl : l < 512) :
    laCell (laClear v m) c l = v := by
  unfold laCell laClear
  dsimp only
  split
  · next hv => exact hv.symm
  · exact spGet_replicate _ _ (by omega)

/-! ## Training commands -/

/-- LAFB1 and LAFB2: a number and a place in the queue, or a wait for one. -/
theorem lafb_spec {op : Nat} {d : BitVec 7} {a : BitVec 4} {s : State} (hop : op ≠ 3) :
    (laPushed s.me.la < 4 → Gives (lafb op d a s) fun t =>
      t.iss.res = .retired ∧ regAt t s.iss.slot d.toNat = s.me.la.count.setWidth 64 ∧ t.me.la.count = s.me.la.count + 1 ∧
      t.me.la.cells = s.me.la.cells ∧ t.mem = s.mem ∧
      ∃ q : LaCmd, t.me.la.queue = s.me.la.queue ++ [q] ∧ q.op = op ∧ q.feat = (recOf (rdV s a)).setWidth 256 ∧
        q.mask = (recOf (rdV s a)).extractLsb' 256 128 ∧ q.n = s.me.la.count ∧ q.nf = s.me.la.nf.toNat ∧
        q.ncl = s.me.la.ncl.toNat) ∧
    (4 ≤ laPushed s.me.la →
      lafb op d a s = .next (setRes .parked (onCur (fun c => { c with st := .parked (.queue .automaton) }) s))) := by
  refine ⟨fun h => ⟨_, if_neg (Nat.not_le.2 h), rfl, regAt_advance_wr d _ _, ?_, rfl, rfl, _, rfl, rfl, rfl, rfl, rfl, rfl,
    rfl⟩, fun h => if_pos h⟩
  exact if_neg hop

/-- Settles O37: inference, training, and the words that wait for the array to drain. -/
theorem automatonWords : Obligations.AutomatonWords := by
  intro d a gd ga gb s hr m x idle k waits reads learns
  have ready (u : Uses) (hu : u.names ⊆ [.v d, .v a, .g gd, .g ga, .g gb]) : Ready u s := ready_mono u _ s hu hr
  have hinf : Ready ⟨[.v d, .v a], [.v d]⟩ s := ready _ (by simp)
  have hlard : Ready ⟨[.g gd, .g ga], [.g gd]⟩ s := ready _ (by simp)
  have hlawr : Ready ⟨[.g ga, .g gb], []⟩ s := ready _ (by simp)
  have hlafb : Ready ⟨[.g gd, .v a], [.g gd]⟩ s := ready _ (by simp)
  have hlaclr : Ready ⟨[.g ga], []⟩ s := ready _ (by simp)
  have hlearns (i : Instr) (op : Nat) (hop : op ≠ 3) (hi : exec i s = lafb op gd a s) : learns i op := by
    obtain ⟨hroom, hfull⟩ := lafb_spec (op := op) (d := gd) (a := a) (s := s) hop
    exact ⟨fun h => hi ▸ hroom h, fun h => hi ▸ hfull h⟩
  have hscalar (l : Nat) (hl : l ≤ 4) (hidle : idle) (hk : k = 3 * 2 ^ 16 + l) :
      reads (match l with
        | 0 => m.seed.setWidth 64
        | 1 => m.epoch.setWidth 64
        | 2 => m.count.setWidth 64
        | 3 => m.nf.setWidth 64
        | _ => m.ncl.setWidth 64) := by
    have hk' : (rd s ga).toNat = 2 ^ 16 * 3 + 512 * 0 + l := by omega
    obtain ⟨hspace, hclause, hlit, -⟩ := index_fields hk' (by omega) (by omega) (by omega)
    have hread := lard_reads hlard hidle (laIndexOk_of_fields hk' (by omega) (by omega) (by omega)
      (.inr (.inr (.inr ⟨rfl, rfl, hl⟩)))) (by rw [hspace]; exact fun h => absurd h.1 (by decide))
    rw [laItem, hspace, hlit] at hread
    exact hread
  refine ⟨fun hgood hwf => ?_, fun c hbad => ?_, hlearns _ 1 (by decide) (outcome_of_ready (rfl : execLafb1 gd a s = _) hlafb rfl),
    hlearns _ 2 (by decide) (outcome_of_ready (rfl : execLafb2 gd a s = _) hlafb rfl),
    fun hidle => ⟨fun c l hk hc hl hgood => ?_, fun c hk hc => ?_, fun e hk he => ?_, fun hk => ?_, fun hk => ?_, fun hk => ?_,
      fun hk => ?_, fun hk => ?_, fun c l hk hc hl hlow hhigh => ?_, fun ha hb => ?_, fun ha => ?_⟩,
    fun hok hbusy => ?_, fun hk hlow hhigh hbusy => ?_, fun ha hb hbusy => ?_, fun ha hbusy => ?_⟩
  · have hnone : laBadBelow m = none := List.find?_eq_none.2 fun c hc => by rw [hgood c (List.mem_range.1 hc)]; decide
    have hexec : exec (.lainf d a) s = waitFor (.lainf (s.clock + 16) d.toNat (laInfer m x)) s := by
      refine outcome_of_ready (rfl : execLainf d a s = _) hinf ?_
      rw [show laBadBelow s.me.la = none from hnone]
    refine ⟨_, hexec, rfl, rfl, rfl, rfl, laInfer m x, by rw [cur_setRes, cur_onCur], fun c hc => ?_, fun j hj => ?_⟩
    · dsimp only
      rw [laInfer_out m x hc, Bool.and_eq_true, decide_eq_true_eq, laOut_iff hwf]
    · have hout (c : Nat) (hc : c ∈ List.range 128) : (laInfer m x).getLsbD (256 + c) = ((laOuts m x)[c]?).getD false := by
        have hc := List.mem_range.1 hc
        rw [laInfer_out m x hc, laOuts_get, decide_eq_true hc, Bool.true_and]
      rw [laInfer_vote m x hj, laVote_eq]
      congr 2
      · exact List.countP_congr fun c hc => by dsimp only; rw [hout c hc]
      · exact List.countP_congr fun c hc => by dsimp only; rw [hout c hc]
  · refine outcome_of_ready (rfl : execLainf d a s = _) hinf ?_
    rw [show laBadBelow s.me.la = some c from hbad]
    rfl
  · have hk' : (rd s ga).toNat = 2 ^ 16 * 0 + 512 * c + l := by omega
    obtain ⟨hspace, hclause, hlit, -⟩ := index_fields hk' (by omega) hc hl
    have hread := lard_reads hlard hidle (laIndexOk_of_fields hk' (by omega) hc hl (.inl rfl))
      (by rw [hclause]; exact fun h => Bool.false_ne_true (hgood.symm.trans h.2))
    rw [laItem, hspace, hclause, hlit] at hread
    exact hread
  · have hk' : (rd s ga).toNat = 2 ^ 16 * 1 + 512 * c + 0 := by omega
    obtain ⟨hspace, hclause, hlit, -⟩ := index_fields hk' (by omega) hc (by omega)
    have hread := lard_reads hlard hidle (laIndexOk_of_fields hk' (by omega) hc (by omega) (.inr (.inl ⟨rfl, rfl⟩)))
      (by rw [hspace]; exact fun h => absurd h.1 (by decide))
    rw [laItem, hspace, hclause] at hread
    exact hread
  · have hk' : (rd s ga).toNat = 2 ^ 16 * 2 + 512 * 0 + e := by omega
    obtain ⟨hspace, hclause, hlit, -⟩ := index_fields hk' (by omega) (by omega) (by omega)
    have hread := lard_reads hlard hidle (laIndexOk_of_fields hk' (by omega) (by omega) (by omega)
      (.inr (.inr (.inl ⟨rfl, rfl, he⟩)))) (by rw [hspace]; exact fun h => absurd h.1 (by decide))
    rw [laItem, hspace, hlit] at hread
    exact hread
  · exact hscalar 0 (by omega) hidle hk
  · exact hscalar 1 (by omega) hidle hk
  · exact hscalar 2 (by omega) hidle hk
  · exact hscalar 3 (by omega) hidle hk
  · exact hscalar 4 (by omega) hidle hk
  · have hk' : (rd s ga).toNat = 2 ^ 16 * 0 + 512 * c + l := by omega
    obtain ⟨hspace, hclause, hlit, -⟩ := index_fields hk' (by omega) hc hl
    have hwrite : laWrite (rd s ga) (rd s gb) m =
        { m with cells := spSet (-1) m.cells (512 * c + l) ((rd s gb).setWidth 8) } := by
      rw [laWrite, hspace, hclause, hlit]
      rfl
    have hexec : exec (.lawr ga gb) s = .next (advance (onLa (laWrite (rd s ga) (rd s gb)) s)) := by
      rw [exec_lawr hlawr hk hc hl hlow hhigh, laDrained_idle hidle]
      rfl
    have hla : (advance (onLa (laWrite (rd s ga) (rd s gb)) s)).me.la =
        { m with cells := spSet (-1) m.cells (512 * c + l) ((rd s gb).setWidth 8) } := hwrite
    refine ⟨_, hexec, rfl, ?_, fun j hj => ?_, rfl, rfl⟩
    · rw [hla]
      exact spGet_set_same ..
    · rw [hla]
      exact spGet_set_other _ _ _ _ _ hj
  · rw [exec_laseed hlawr ha hb, laDrained_idle hidle]
    rfl
  · have hexec : exec (.laclr ga) s = .next (advance (onLa (laClear ((rd s ga).setWidth 8)) s)) := by
      rw [exec_laclr hlaclr ha, laDrained_idle hidle]
      rfl
    exact ⟨_, hexec, rfl, rfl, rfl, fun c hc l hl => laCell_laClear _ m hc hl⟩
  · rw [exec_lard hlard hok]
    exact laDrained_busy hbusy
  · rw [exec_lawr hlawr (c := k / 512) (l := k % 512) (by omega) (by omega) (by omega) hlow hhigh]
    exact laDrained_busy hbusy
  · rw [exec_laseed hlawr ha hb]
    exact laDrained_busy hbusy
  · rw [exec_laclr hlaclr ha]
    exact laDrained_busy hbusy

/-! ## The array's own steps (R382, R385, R391, R394) -/

theorem laCompleted_frame (s : State) : laCompleted s = { s with me := { s.me with slots := (laCompleted s).me.slots } } := by
  unfold laCompleted
  dsimp only
  split <;> rfl

/-- The cells that a command writes in a clause, each with its new value. -/
def movedCells (m : Automaton) (q : LaCmd) (c : Nat) : List (Nat × BitVec 8) :=
  ((List.range 512).filter fun l => decide (l % 256 < q.nf)).map fun l =>
    (512 * c + l, laStep m q c (laOut m q.feat q.nf c) l)

theorem laClauseAfter_moved {m : Automaton} {q : LaCmd} {c : Nat} (hmask : q.mask.toNat / 2 ^ c % 2 = 1)
    (hgood : laBad m c = false) :
    laClauseAfter m q c = { m with cells := spSetAll (-1) m.cells (movedCells m q c) } :=
  if_pos ⟨hmask, by rw [hgood]; rfl⟩

/-- A clause that its command does not select, or that is poisoned, stays as it is. -/
theorem laClauseAfter_kept {m : Automaton} {q : LaCmd} {c : Nat} (h : q.mask.toNat / 2 ^ c % 2 = 0 ∨ laBad m c = true) :
    laClauseAfter m q c = m := by
  refine if_neg ?_
  rintro ⟨hmask, hgood⟩
  rcases h with h | h
  · omega
  · rw [h] at hgood
    exact Bool.false_ne_true hgood

/-- An update changes the cells alone. -/
theorem laClauseAfter_frame (m : Automaton) (q : LaCmd) (c : Nat) :
    laClauseAfter m q c = { m with cells := (laClauseAfter m q c).cells } := by
  rcases Nat.mod_two_eq_zero_or_one (q.mask.toNat / 2 ^ c) with h | h
  · rw [laClauseAfter_kept (.inl h)]
  · cases hbad : laBad m c
    · rw [laClauseAfter_moved h hbad]
    · rw [laClauseAfter_kept (.inr hbad)]

theorem key_of_movedCells {m : Automaton} {q : LaCmd} {c : Nat} {e : Nat × BitVec 8} (he : e ∈ movedCells m q c) :
    ∃ l < 512, l % 256 < q.nf ∧ e.1 = 512 * c + l := by
  obtain ⟨l, hl, rfl⟩ := List.mem_map.1 he
  rw [List.mem_filter, List.mem_range, decide_eq_true_eq] at hl
  exact ⟨l, hl.1, hl.2, rfl⟩

theorem nodup_movedCells (m : Automaton) (q : LaCmd) (c : Nat) : ((movedCells m q c).map (·.1)).Nodup := by
  rw [movedCells, List.map_map]
  refine List.Nodup.map (fun a b hab => ?_) (List.nodup_range.filter _)
  have hab : 512 * c + a = 512 * c + b := hab
  omega

/-- The cells of a clause that a command moves. -/
theorem laCell_moved {m : Automaton} {q : LaCmd} {c l : Nat} (hmask : q.mask.toNat / 2 ^ c % 2 = 1)
    (hgood : laBad m c = false) (hl : l < 512) : laCell (laClauseAfter m q c) c l =
      if l % 256 < q.nf then laStep m q c (laOut m q.feat q.nf c) l else laCell m c l := by
  rw [laClauseAfter_moved hmask hgood, laCell]
  dsimp only
  split
  · next hnf =>
    exact spGet_setAll_mem (-1) _ m.cells (nodup_movedCells m q c) (512 * c + l, laStep m q c (laOut m q.feat q.nf c) l)
      (List.mem_map.2 ⟨l, List.mem_filter.2 ⟨List.mem_range.2 hl, decide_eq_true hnf⟩, rfl⟩)
  · next hnf =>
    refine spGet_setAll_other _ _ _ _ fun e he heq => ?_
    obtain ⟨l', -, hnf', hl'⟩ := key_of_movedCells he
    exact hnf (by rwa [show l = l' by omega])

/-- The cells of the other clauses. -/
theorem cells_other {m : Automaton} {q : LaCmd} {c j : Nat} (hmask : q.mask.toNat / 2 ^ c % 2 = 1) (hgood : laBad m c = false)
    (hj : j < 512 * c ∨ 512 * c + 512 ≤ j) : spGet (-1) (laClauseAfter m q c).cells j = spGet (-1) m.cells j := by
  have hkeys : ∀ e ∈ movedCells m q c, e.1 ≠ j := fun e he => by
    obtain ⟨l, hl, -, hle⟩ := key_of_movedCells he
    omega
  rw [laClauseAfter_moved hmask hgood]
  dsimp only
  exact spGet_setAll_other (-1) (movedCells m q c) m.cells j hkeys

/-- The array once the running command's next clause, if there is one, has been updated. -/
def clauseDone (q : LaCmd) (m : Automaton) : Automaton :=
  let m := if m.clause < q.ncl then laClauseAfter m q m.clause else m
  { m with clause := m.clause + 1 }

theorem clauseDone_eq {q : LaCmd} {m : Automaton} (h : m.clause < q.ncl) :
    clauseDone q m = { m with cells := (laClauseAfter m q m.clause).cells, clause := m.clause + 1 } := by
  have hframe := laClauseAfter_frame m q m.clause
  unfold clauseDone
  dsimp only
  rw [if_pos h]
  generalize laClauseAfter m q m.clause = n at hframe ⊢
  rw [show n.clause = m.clause by rw [hframe]]
  conv_lhs => rw [hframe]

theorem exec_laClauseUpdate {q : LaCmd} {rest : List LaCmd} {s : State} (hq : s.me.la.queue = q :: rest) (hop : q.op ≠ 3)
    (hclause : s.me.la.clause < q.ncl) (hdue : s.me.la.start + 64 * s.me.la.clause + 64 ≤ s.clock) :
    exec .laClauseUpdate s = if q.ncl ≤ (onLa (clauseDone q) s).me.la.clause then
        .next (laCompleted (onLa (fun m => laPop (m.start + 64 * q.ncl) m) (onLa (clauseDone q) s)))
      else .next (onLa (clauseDone q) s) := by
  show execLaClauseUpdate s = _
  have hnext : laNextUpdate s.me.la q = s.me.la.start + 64 * s.me.la.clause + 64 := if_neg (by omega)
  unfold execLaClauseUpdate
  rw [hq]
  dsimp only
  rw [if_neg (by rw [hnext]; omega)]
  rfl

/-- The array after an update of a clause that is not the command's last, and after the last. -/
theorem gives_laClauseUpdate {q : LaCmd} {rest : List LaCmd} {s : State} (hq : s.me.la.queue = q :: rest) (hop : q.op ≠ 3)
    (hclause : s.me.la.clause < q.ncl) (hdue : s.me.la.start + 64 * s.me.la.clause + 64 ≤ s.clock) :
    Gives (exec .laClauseUpdate s) fun t => t.mem = s.mem ∧ t.me.pool = s.me.pool ∧
      t.me.la.cells = (laClauseAfter s.me.la q s.me.la.clause).cells ∧
      (s.me.la.clause + 1 < q.ncl →
        t.me.la.queue = s.me.la.queue ∧ t.me.la.clause = s.me.la.clause + 1 ∧ t.me.la.start = s.me.la.start) ∧
      (q.ncl = s.me.la.clause + 1 →
        t.me.la.queue = rest ∧ t.me.la.clause = 0 ∧ t.me.la.start = s.me.la.start + 64 * q.ncl) := by
  have hexec := exec_laClauseUpdate hq hop hclause hdue
  have hla : (onLa (clauseDone q) s).me.la = _ := clauseDone_eq hclause
  by_cases hlast : q.ncl ≤ s.me.la.clause + 1
  · rw [if_pos (by rw [hla]; exact hlast)] at hexec
    have hdone : (laCompleted (onLa (fun m => laPop (m.start + 64 * q.ncl) m) (onLa (clauseDone q) s))).me.la =
        laPop (s.me.la.start + 64 * q.ncl)
          { s.me.la with cells := (laClauseAfter s.me.la q s.me.la.clause).cells, clause := s.me.la.clause + 1 } := by
      rw [laCompleted_frame]
      show laPop ((onLa (clauseDone q) s).me.la.start + 64 * q.ncl) (onLa (clauseDone q) s).me.la = _
      rw [hla]
    refine ⟨_, hexec, ?_, ?_, ?_, fun h => absurd h (by omega), fun h => ⟨?_, ?_, ?_⟩⟩
    · rw [laCompleted_frame]
      rfl
    · rw [laCompleted_frame]
      rfl
    · rw [hdone]
      rfl
    · rw [hdone]
      show s.me.la.queue.drop 1 = rest
      rw [hq]
      rfl
    · rw [hdone]
      rfl
    · rw [hdone]
      rfl
  · rw [if_neg (by rw [hla]; exact hlast)] at hexec
    refine ⟨_, hexec, rfl, rfl, ?_, fun h => ⟨?_, ?_, ?_⟩, fun h => absurd h (by omega)⟩
    · rw [hla]
    · rw [hla]
    · rw [hla]
    · rw [hla]

theorem winBase_freeSlotAgain (k : Nat) (s : State) : (slotOf (freeSlotAgain k s) k).winBase = (slotOf s k).winBase := by
  rw [freeSlotAgain, slotOf_setSlot_same]
  rfl

theorem slotOf_wrSlotRun (sl k : Nat) (ws : List Word) (s : State) (j : Nat) :
    slotOf (wrSlotRun sl k ws s) j = slotOf s j := by
  induction ws generalizing k s with
  | nil => rfl
  | cons w ws ih => exact ih (k + 1) (wrSlot sl k w s)

theorem mem_wrSlotRun (sl k : Nat) (ws : List Word) (s : State) : (wrSlotRun sl k ws s).mem = s.mem := by
  induction ws generalizing k s with
  | nil => rfl
  | cons w ws ih => exact ih (k + 1) (wrSlot sl k w s)

/-- A waiting word that has nothing to do but retire ends its wait. -/
theorem endWait_retire {k : Nat} {f : State → State} {s : State} (hpartner : (slotOf s k).partner = none) :
    endWait k (fun s => retire (f s)) s = .next (freeSlotAgain k (advance (f (reissue k s)))) := by
  unfold endWait
  dsimp only [retire]
  rw [hpartner]
  exact if_pos rfl

theorem wrRun_reissue (k j : Nat) (ws : List Word) (s : State) :
    wrRun j ws (reissue k s) = wrSlotRun k j ws (reissue k s) := rfl

theorem exec_lainfComplete {k due vd : Nat} {v : Rec} {s : State} (hst : (slotOf s k).st = .waiting (.lainf due vd v))
    (hdue : due ≤ s.clock) (hpartner : (slotOf s k).partner = none) : exec (.lainfComplete k) s =
      .next (freeSlotAgain k (advance (wrSlotRun k (8 * vd) (wordsOf v) (reissue k s)))) := by
  show execLainfComplete k s = _
  unfold execLainfComplete
  rw [hst]
  dsimp only
  rw [if_pos hdue, endWait_retire hpartner, wrRun_reissue]

/-- The word read back: register 8 · vd + j is word j of the record. -/
theorem getD_wordsOf (v : Rec) {j : Nat} (hj : j < 8) : ((wordsOf v)[j]?).getD 0 = v.extractLsb' (64 * j) 64 := by
  rw [wordsOf, List.getElem?_map, List.getElem?_range hj]
  rfl

theorem length_wordsOf (v : Rec) : (wordsOf v).length = 8 := by
  rw [wordsOf, List.length_map, List.length_range]

/-- Registers written by a waiting word, once it has retired. -/
theorem regAt_retired {k j : Nat} {s t : State} (hslot : slotOf t k = slotOf s k) :
    regAt (freeSlotAgain k (advance t)) k j = spGet 0 t.me.pool ((slotOf s k).winBase + j) := by
  rw [regAt, winBase_freeSlotAgain, winBase_advance, hslot]
  rfl

theorem mem_retired (k : Nat) (t : State) : (freeSlotAgain k (advance t)).mem = t.mem := rfl

/-- LAINF's result reaches its register, and its thread goes on. -/
theorem gives_lainfComplete {k due vd : Nat} {v : Rec} {s : State} (hst : (slotOf s k).st = .waiting (.lainf due vd v))
    (hdue : due ≤ s.clock) (hpartner : (slotOf s k).partner = none) : Gives (exec (.lainfComplete k) s) fun t =>
      (slotOf t k).st = .runnable ∧ t.mem = s.mem ∧ ∀ j < 8, regAt t k (8 * vd + j) = v.extractLsb' (64 * j) 64 := by
  refine ⟨_, exec_lainfComplete hst hdue hpartner, ?_, ?_, fun j hj => ?_⟩
  · rw [freeSlotAgain, slotOf_setSlot_same]
    rfl
  · rw [mem_retired, mem_wrSlotRun]
    rfl
  · rw [regAt_retired (s := reissue k s) (slotOf_wrSlotRun ..), pool_wrSlotRun, length_wordsOf, if_pos (by omega),
      Nat.add_sub_cancel_left, getD_wordsOf v hj]

/-! ## Records of a sample queue (R391) -/

/-- A record's bytes from home h on. -/
def recWrites (h : Nat) (v : Rec) : List (Nat × Byte) := (recBytes v).mapIdx fun k b => (h + k, b)

theorem recWrites_eq (h : Nat) (v : Rec) :
    recWrites h v = (List.range 64).map fun k => (h + k, v.extractLsb' (8 * k) 8) := by
  rw [recWrites, recBytes, mapIdx_map_range]

theorem homes_recWrites (h : Nat) (v : Rec) : (recWrites h v).map (·.1) = (List.range 64).map (h + ·) := by
  rw [recWrites_eq, List.map_map]
  rfl

theorem nodup_homes_recWrites (h : Nat) (v : Rec) : ((recWrites h v).map (·.1)).Nodup := by
  rw [homes_recWrites]
  exact List.Nodup.map (fun a b hab => Nat.add_left_cancel hab) List.nodup_range

/-- The bytes of a record cover the two atoms of its line. -/
theorem covers_recWrites {h a : Nat} (v : Rec) (hline : h % 32 = 0) (ha : a = h / 32 ∨ a = h / 32 + 1) :
    ((atomsOf ((recWrites h v).map (·.1))).contains a && coversAtom ((recWrites h v).map (·.1)) a) = true := by
  rw [homes_recWrites, Bool.and_eq_true]
  constructor
  · rw [List.contains_iff_mem, atomsOf, List.mem_eraseDups, List.mem_map]
    refine ⟨32 * a, List.mem_map.2 ⟨32 * a - h, List.mem_range.2 (by omega), by omega⟩, by omega⟩
  · rw [coversAtom, List.all_eq_true]
    intro k hk
    have hk := List.mem_range.1 hk
    rw [List.contains_iff_mem]
    exact List.mem_map.2 ⟨32 * a + k - h, List.mem_range.2 (by omega), by omega⟩

/-- The home in the core's own scratchpad at which record `pos` of a subscription's results is stored. -/
def resultHome (s : State) (pos : Nat) (user : Word) : Nat :=
  scratchHome s.me.num ((bits user 6 13 * 64 + 64 * pos) % 2 ^ 19)

theorem resultHome_line (s : State) (pos : Nat) (user : Word) : resultHome s pos user % 32 = 0 := by
  unfold resultHome scratchHome Config.scratchBytes
  omega

/-- A result stored, with its mark if it read a poisoned clause. -/
def storeResult (h : Nat) (v : Rec) (bad : Bool) (s : State) : State :=
  let s := writeBytes ⟨s.me.num, 15, 2⟩ (recWrites h v) s
  if bad then { s with poison := s.poison ++ [h / 32, h / 32 + 1] } else s

theorem storeResult_frame (h : Nat) (v : Rec) (bad : Bool) (s : State) :
    (storeResult h v bad s).mem = (writeBytes ⟨s.me.num, 15, 2⟩ (recWrites h v) s).mem ∧
    (storeResult h v bad s).clock = s.clock ∧ (storeResult h v bad s).me.la = s.me.la := by
  have hclock : (writeBytes ⟨s.me.num, 15, 2⟩ (recWrites h v) s).clock = s.clock := by rw [writeBytes_frame]
  have hla : (writeBytes ⟨s.me.num, 15, 2⟩ (recWrites h v) s).me.la = s.me.la := by rw [writeBytes_frame]
  unfold storeResult
  generalize writeBytes ⟨s.me.num, 15, 2⟩ (recWrites h v) s = u at hclock hla ⊢
  dsimp only
  split
  · exact ⟨rfl, hclock, hla⟩
  · exact ⟨rfl, hclock, hla⟩

/-- The bytes of a record stand at its homes, and no other byte has changed. -/
theorem memAt_recWrites (w : Writer) (h : Nat) (v : Rec) (s : State) :
    (∀ j < 64, memAt (writeBytes w (recWrites h v) s) (h + j) = v.extractLsb' (8 * j) 8) ∧
    (∀ a, a < h ∨ h + 64 ≤ a → memAt (writeBytes w (recWrites h v) s) a = memAt s a) := by
  refine ⟨fun j hj => ?_, fun a ha => memAt_writeBytes_other w (recWrites h v) s a ?_⟩
  · refine memAt_writeBytes_mem w (recWrites h v) s (nodup_homes_recWrites h v) (h + j, v.extractLsb' (8 * j) 8) ?_
    rw [recWrites_eq]
    exact List.mem_map.2 ⟨j, List.mem_range.2 hj, rfl⟩
  · rw [homes_recWrites, List.mem_map]
    rintro ⟨k, hk, rfl⟩
    have hk := List.mem_range.1 hk
    omega

theorem isBad_storeResult {h : Nat} (v : Rec) (bad : Bool) (s : State) (hline : h % 32 = 0) {j : Nat} (hj : j < 64) :
    isBad (storeResult h v bad s) (h + j) = bad := by
  have hatom : (h + j) / 32 = h / 32 ∨ (h + j) / 32 = h / 32 + 1 := by omega
  have hclear : (writeBytes ⟨s.me.num, 15, 2⟩ (recWrites h v) s).poison.contains ((h + j) / 32) = false := by
    rw [writeBytes_frame]
    dsimp only
    rw [Bool.eq_false_iff]
    intro hcontains
    rw [List.contains_iff_mem, List.mem_filter, covers_recWrites v hline hatom] at hcontains
    exact Bool.false_ne_true hcontains.2
  unfold isBad storeResult
  dsimp only
  cases bad
  · exact hclear
  · rw [if_pos rfl]
    dsimp only
    rw [List.contains_iff_mem, List.mem_append]
    rcases hatom with h | h
    · exact .inr (by rw [h]; simp)
    · exact .inr (by rw [h]; simp)

theorem exec_inferenceRecord {q : LaCmd} {rest : List LaCmd} {pos : Nat} {user : Word} {v : Rec} {bad : Bool} {s : State}
    (hq : s.me.la.queue = q :: rest) (hop : q.op = 3) (hrec : q.record = some (pos, user))
    (hresult : s.me.la.result = some (v, bad)) (hdue : s.me.la.start + 15 ≤ s.clock) :
    exec .inferenceRecord s = .next (laCompleted (onLa (laPop (s.clock + 1))
      (storeResult (resultHome s pos user) v bad s))) := by
  have hclock := (storeResult_frame (resultHome s pos user) v bad s).2.1
  show execInferenceRecord s = _
  unfold execInferenceRecord
  rw [hq]
  dsimp only
  rw [hrec, hresult]
  dsimp only
  rw [if_neg (by omega)]
  rw [← hclock]
  rfl

theorem laBad_eq_testBit (m : Automaton) (c : Nat) : laBad m c = m.poison.toNat.testBit c := by
  rw [laBad, Nat.testBit_eq_decide_div_mod_eq]
  rfl

/-- Settles O38: LAINF's reply, a clause's update, an inference record's two cycles, and a soft error. -/
theorem automatonSteps : Obligations.AutomatonSteps := by
  refine ⟨fun k due vd v s => gives_lainfComplete, fun q rest s hq hop => ?_, fun q rest pos user s hq hop hrec => ?_,
    fun c s hc => ?_⟩
  · intro m hclause hdue
    obtain ⟨t, hexec, hmem, hpool, hcells, hmore, hlast⟩ := gives_laClauseUpdate hq hop hclause hdue
    refine ⟨t, hexec, hmem, hpool, hmore, hlast, fun hkept => ?_, fun hmask hgood => ⟨fun l hl => ?_, fun j hj => ?_⟩⟩
    · rw [hcells, laClauseAfter_kept hkept]
    · rw [← laCell_moved hmask hgood hl, laCell, hcells]
      rfl
    · rw [hcells, cells_other hmask hgood hj]
  · intro off
    refine ⟨fun hresult hstart => ?_, fun v bad hresult hdue => ?_⟩
    · show execInferenceRecord s = _
      unfold execInferenceRecord
      rw [hq]
      dsimp only
      rw [hrec, hresult]
      dsimp only
      rw [if_neg (by omega)]
      rfl
    · obtain ⟨hmem, -, hla⟩ := storeResult_frame (resultHome s pos user) v bad s
      have hexec := exec_inferenceRecord hq hop hrec hresult hdue
      have hhome : resultHome s pos user = scratchHome s.me.num off := rfl
      have hbad (j : Nat) (hj : j < 64) := isBad_storeResult v bad s (resultHome_line s pos user) hj
      obtain ⟨hbytes, hothers⟩ := memAt_recWrites ⟨s.me.num, 15, 2⟩ (resultHome s pos user) v s
      generalize hu : storeResult (resultHome s pos user) v bad s = u at hexec hmem hla hbad
      have hdone : (laCompleted (onLa (laPop (s.clock + 1)) u)).me.la = laPop (s.clock + 1) s.me.la := by
        rw [laCompleted_frame, ← hla]
        rfl
      have hmem' : (laCompleted (onLa (laPop (s.clock + 1)) u)).mem = u.mem := by
        rw [laCompleted_frame]
        rfl
      have hpoison : (laCompleted (onLa (laPop (s.clock + 1)) u)).poison = u.poison := by
        rw [laCompleted_frame]
        rfl
      refine ⟨_, hexec, ?_, ?_, ?_, fun j hj => ?_, fun j hj => ?_, fun h hh => ?_⟩
      · rw [hdone]
        show s.me.la.queue.drop 1 = rest
        rw [hq]
        rfl
      · rw [hdone]
        rfl
      · rw [hdone]
        rfl
      · rw [memAt, hmem', hmem, show scratchHome s.me.num (off + j) = resultHome s pos user + j from
          (Nat.add_assoc _ _ _).symm]
        exact hbytes j hj
      · rw [isBad, hpoison, show scratchHome s.me.num (off + j) = resultHome s pos user + j from
          (Nat.add_assoc _ _ _).symm]
        exact hbad j hj
      · rw [memAt, hmem', hmem]
        exact hothers h (hhome ▸ hh)
  · have hbit (j : Nat) (hj : j < 128) : laBad (onLa (fun m => { m with poison := m.poison ||| BitVec.ofNat 128 (2 ^ c) })
        { s with fw := { s.fw with reports := s.fw.reports ++ [2 ^ 59 + c] } }).me.la j = (laBad s.me.la j || decide (j = c)) := by
      rw [laBad_eq_testBit, laBad_eq_testBit]
      show (s.me.la.poison ||| BitVec.ofNat 128 (2 ^ c)).toNat.testBit j = _
      rw [BitVec.toNat_or, BitVec.toNat_ofNat, Nat.mod_eq_of_lt (Nat.pow_lt_pow_right (by omega) hc), Nat.testBit_or,
        Nat.testBit_two_pow]
      simp only [eq_comm]
    refine ⟨_, rfl, ?_, fun j hj hne => ?_, rfl, rfl, rfl⟩
    · rw [hbit c hc, decide_eq_true rfl, Bool.or_true]
    · rw [hbit j hj, decide_eq_false hne, Bool.or_false]

end Sys2Proof.Proofs
end

section

/-! SUPPORT. What the operations of the model leave of memory, and that those that write it keep its canonical form. -/

namespace Sys2Proof.Proofs
open Sys2Proof Sys2Proof.Machine Sys2Proof.Laws

/- Many short lemmas that use one another: elaborated side by side, each would hold a thread while it waits for the others. -/
set_option Elab.async false

theorem mem_foldl {α : Type} {f : State → α → State} (hf : ∀ s x, (f s x).mem = s.mem) (l : List α) (s : State) :
    (l.foldl f s).mem = s.mem := by
  induction l generalizing s with
  | nil => rfl
  | cons x l ih => exact (ih _).trans (hf s x)


@[simp] theorem wrRun_mem (k : Nat) (ws : List Word) (s : State) : (wrRun k ws s).mem = s.mem := mem_wrSlotRun _ _ _ _

@[simp] theorem wrV_mem (v : BitVec 4) (ws : List Word) (s : State) :
    (wrV v ws s).mem = s.mem := mem_wrSlotRun _ _ _ _

@[simp] theorem focus_mem (c : Nat) (s : State) : (focus c s).mem = s.mem := by
  unfold focus
  split <;> simp

@[simp] theorem withCore_mem {f : State → State} (hf : ∀ u, (f u).mem = u.mem) (c : Nat) (s : State) :
    (withCore c f s).mem = s.mem := by
  rw [withCore, focus_mem, hf, focus_mem]

@[simp] theorem atZero_mem (s : State) : (atZero s).mem = s.mem := by
  unfold atZero
  split <;> simp

@[simp] theorem wakeAll_mem (p : ParkWhy → Bool) (s : State) : (wakeAll p s).mem = s.mem := rfl
@[simp] theorem wakeIn_mem (at_ : Nat → Bool) (p : ParkWhy → Bool) (s : State) : (wakeIn at_ p s).mem = s.mem := rfl

@[simp] theorem sendNet_mem (m : Message) (held : Bool) (s : State) : (sendNet m held s).mem = s.mem := by
  simp [sendNet]

@[simp] theorem sendPrincipal_mem (type slot : Nat) (body : List Word) (die : Nat) (s : State) :
    (sendPrincipal type slot body die s).mem = s.mem := sendNet_mem _ _ _

@[simp] theorem sendFlit_mem (port : Nat) (type : BitVec 8) (dpkg : Nat) (barrier : Option Nat) (s : State) :
    (sendFlit port type dpkg barrier s).mem = s.mem := by
  simp [sendFlit]

@[simp] theorem sendTo_mem (pkg : Nat) (type : BitVec 8) (barrier : Option Nat) (s : State) :
    (sendTo pkg type barrier s).mem = s.mem := by
  unfold sendTo
  split <;> simp

@[simp] theorem hFree_mem (h : Nat) (s : State) : (hFree h s).mem = s.mem := rfl
@[simp] theorem hTake_mem (h owner expected : Nat) (s : State) : (hTake h owner expected s).mem = s.mem := rfl

@[simp] theorem hCount_mem (h n : Nat) (s : State) : (hCount h n s).mem = s.mem := by
  unfold hCount
  dsimp only
  repeat' split
  all_goals simp

@[simp] theorem hSpurn_mem (h : Nat) (s : State) : (hSpurn h s).mem = s.mem := rfl

@[simp] theorem hAbandonOne_mem (h : Nat) (s : State) : (hAbandonOne h s).mem = s.mem := by
  unfold hAbandonOne
  split <;> simp

@[simp] theorem hAbandon_mem (k : Nat) (s : State) : (hAbandon k s).mem = s.mem :=
  mem_foldl (fun s h => hAbandonOne_mem h s) _ s

@[simp] theorem addDrops_mem (n : Nat) (s : State) : (addDrops n s).mem = s.mem := rfl
@[simp] theorem mailboxFreed_mem (s : State) : (mailboxFreed s).mem = s.mem := rfl

@[simp] theorem dropMail_mem (k : Nat) (s : State) : (dropMail k s).mem = s.mem := by
  unfold dropMail
  dsimp only
  split
  · rfl
  · simp

@[simp] theorem dropClaimsIn_mem (thread c : Nat) (s : State) : (dropClaimsIn thread c s).mem = s.mem := by
  unfold dropClaimsIn
  dsimp only
  split <;> simp

@[simp] theorem dropClaims_mem (thread : Nat) (migrated : Bool) (s : State) :
    (dropClaims thread migrated s).mem = s.mem := by
  unfold dropClaims
  split
  · exact mem_foldl (fun s e => dropClaimsIn_mem _ _ s) _ s
  · exact dropClaimsIn_mem _ _ s

@[simp] theorem mapEngines_mem (f : EngCmd → EngCmd) (s : State) : (mapEngines f s).mem = s.mem := rfl
@[simp] theorem disownEngines_mem (k : Nat) (s : State) : (disownEngines k s).mem = s.mem := rfl

@[simp] theorem endSlot_mem (k : Nat) (s : State) : (endSlot k s).mem = s.mem := by
  simp [endSlot]

@[simp] theorem takeTrap_mem (cause : BitVec 5) (tval : Word) (s : State) : (takeTrap cause tval s).mem = s.mem := by
  unfold takeTrap
  dsimp only
  split
  · split
    · rfl
    · exact endFault_mem _ _
  · rfl

@[simp] theorem returnFrom_mem (s : State) : (returnFrom s).mem = s.mem := rfl

@[simp] theorem barSet_mem (scope id : Nat) (v : Barrier) (s : State) : (barSet scope id v s).mem = s.mem := by
  unfold barSet
  split <;> simp

@[simp] theorem barComplete_mem (scope id : Nat) (phase : BitVec 16) (s : State) :
    (barComplete scope id phase s).mem = s.mem := by
  simp [barComplete]

@[simp] theorem countArrival_mem (scope id : Nat) (s : State) : (countArrival scope id s).mem = s.mem := by
  unfold countArrival
  dsimp only
  split <;> simp

@[simp] theorem tellPod_mem (id : Nat) (s : State) :
    (tellPod id s).mem = s.mem := mem_foldl (fun s _ => sendFlit_mem _ _ _ _ s) _ s

@[simp] theorem arriveBar_mem (scope id : Nat) (s : State) : (arriveBar scope id s).2.2.mem = s.mem := by
  unfold arriveBar
  split <;> simp

@[simp] theorem grantBanks_mem (owner : Option (Nat × Instr)) (used : Bool) (bs : List Nat) (s : State) :
    (grantBanks owner used bs s).mem = s.mem := rfl

@[simp] theorem useBanks_mem (e : Nat × Instr) (s : State) : (useBanks e s).mem = s.mem := rfl
@[simp] theorem drawBytes_mem (n : Nat) (s : State) : (drawBytes n s).2.mem = s.mem := rfl
@[simp] theorem withRelaxed_mem (l : List Access) (s : State) : (withRelaxed l s).mem = s.mem := rfl
@[simp] theorem putRelaxed_mem (a : Access) (s : State) : (putRelaxed a s).mem = s.mem := rfl

@[simp] theorem drawDelays_mem (host : Bool) (ks : List Nat) (s : State) : (drawDelays host ks s).2.mem = s.mem := by
  induction ks generalizing s with
  | nil => rfl
  | cons k ks ih => exact (ih _).trans (popDelay_mem s)

@[simp] theorem drawTimes_mem (host : Bool) (a : Access) (s : State) : (drawTimes host a s).2.mem = s.mem := by
  unfold drawTimes
  dsimp only
  split <;> simp

@[simp] theorem newAccess_mem (rx : Bool) (va : Nat) (act : AccAct) (pages : List Tr) (s : State) :
    (newAccess rx va act pages s).2.mem = s.mem := by
  unfold newAccess
  dsimp only
  exact drawTimes_mem _ _ s

@[simp] theorem newTurn_mem (s : State) : (newTurn s).mem = s.mem := rfl
@[simp] theorem onLa_mem (f : Automaton → Automaton) (s : State) : (onLa f s).mem = s.mem := rfl

@[simp] theorem laCompleted_mem (s : State) : (laCompleted s).mem = s.mem := by
  unfold laCompleted
  dsimp only
  split <;> simp

@[simp] theorem laAcceptStaged_mem (slot thread : Nat) (user : Word) (s : State) :
    (laAcceptStaged slot thread user s).mem = s.mem := rfl

@[simp] theorem setTrack_mem (t : Nat) (v : Track) (s : State) : (setTrack t v s).mem = s.mem := rfl
@[simp] theorem ctlSend_mem (track : Nat) (what : CtlWhat) (s : State) : (ctlSend track what s).mem = s.mem := rfl
@[simp] theorem ctlSubscribe_mem (track entry : Nat) (s : State) : (ctlSubscribe track entry s).mem = s.mem := rfl
@[simp] theorem forgetSub_mem (id : Nat) (s : State) : (forgetSub id s).mem = s.mem := rfl
@[simp] theorem recatchSub_mem (id : Nat) (s : State) : (recatchSub id s).mem = s.mem := rfl
@[simp] theorem setSide_mem (i : Nat) (l : List (Word × Nat)) (s : State) : (setSide i l s).mem = s.mem := rfl

@[simp] theorem rayWake_mem (i : Nat) (s : State) : (rayWake i s).mem = s.mem := by
  unfold rayWake
  split <;> simp

@[simp] theorem askVisit_mem (kind : VisitKind) (ray sub start : Nat) (s : State) :
    (askVisit kind ray sub start s).mem = s.mem := rfl

@[simp] theorem dropVisits_mem (p : RayVisit → Bool) (s : State) : (dropVisits p s).mem = s.mem := rfl
@[simp] theorem leaveRay_mem (i : Nat) (s : State) : (leaveRay i s).mem = s.mem := rfl

@[simp] theorem catchNext_mem (t : RayTest) (s : State) : (catchNext t s).mem = s.mem :=
  mem_foldl (fun s (x : RaySub) => recatchSub_mem x.id s) _ _

@[simp] theorem dropPass_mem (ray start : Nat) (s : State) : (dropPass ray start s).mem = s.mem := rfl

@[simp] theorem sendTaint_mem (sel index rays subs count : Nat) (s : State) :
    (sendTaint sel index rays subs count s).mem = s.mem :=
  sendNet_mem _ _ _

@[simp] theorem ringPop_mem (s : State) : (ringPop s).mem = s.mem := rfl

/-- The taint message of a block that the unit has not tested, if it names a subscription. -/
theorem taintOf_mem (b : RingBlock) (s : State) :
    (if b.bad ∧ b.subs ≠ 0 then sendTaint b.sel b.index 0 b.subs b.starts s else s).mem = s.mem := by
  split <;> simp

@[simp] theorem unitStop_mem (s : State) : (unitStop s).mem = s.mem := by
  unfold unitStop
  split
  · exact (mem_foldl (fun s x => forgetSub_mem _ s) _ _).trans ((mem_foldl (fun s t => askVisit_mem _ _ _ _ s) _ _).trans
      (mem_foldl (fun s b => taintOf_mem b s) _ s))
  · rfl

@[simp] theorem setCsub_mem (n : Nat) (x : Option CoreSub) (s : State) : (setCsub n x s).mem = s.mem := rfl
@[simp] theorem csubGone_mem (n : Nat) (x : CoreSub) (s : State) : (csubGone n x s).mem = s.mem := rfl

@[simp] theorem unstage_mem (x : CoreSub) (s : State) : (unstage x s).mem = s.mem := by
  unfold unstage
  split <;> simp

@[simp] theorem dropCatches_mem (id : Nat) (s : State) : (dropCatches id s).mem = s.mem := rfl

@[simp] theorem csubWithdraw_mem (n : Nat) (x : CoreSub) (s : State) : (csubWithdraw n x s).mem = s.mem := by
  simp [csubWithdraw]

@[simp] theorem carRequest_mem (promo defer : Bool) (t e : Nat) (s : State) :
    (carRequest promo defer t e s).mem = s.mem := rfl

@[simp] theorem giveVerdict_mem (r : Request) (code : Nat) (s : State) : (giveVerdict r code s).mem = s.mem := by
  unfold giveVerdict
  refine withCore_mem (fun u => ?_) _ s
  split
  · split <;> simp
  · rfl

@[simp] theorem takeRequest_mem (t : Nat) (r : Request) (s : State) : (takeRequest t r s).mem = s.mem := by
  unfold takeRequest
  dsimp only
  repeat' split
  all_goals simp

@[simp] theorem takeMsg_mem (m : CtlMsg) (s : State) : (takeMsg m s).mem = s.mem := by
  unfold takeMsg
  split <;> simp

@[simp] theorem placeStart_mem (t e : Nat) (k : Track) (s : State) : (placeStart t e k s).mem = s.mem := rfl

@[simp] theorem callTrack_mem (t : Nat) (s : State) : (callTrack t s).mem = s.mem := by
  unfold callTrack
  extract_lets k roll c scan byScan placed more kept k1 k2 u v
  have hu : u.mem = s.mem := by
    unfold u
    cases placed <;> simp
  exact (mem_foldl (fun s x => giveVerdict_mem _ _ s) _ _).trans hu

@[simp] theorem coverSub_mem (id : Nat) (s : State) : (coverSub id s).mem = s.mem := rfl

@[simp] theorem beginRay_mem (x : Start) (y : RaySub) (s : State) : (beginRay x y s).mem = s.mem := by
  unfold beginRay
  dsimp only
  repeat' split
  all_goals simp

@[simp] theorem beginCore_mem (x : Start) (sel : Nat) (s : State) : (beginCore x sel s).mem = s.mem := by
  unfold beginCore
  extract_lets now u v
  have hu : u.mem = s.mem := by
    refine mem_foldl (fun s n => ?_) _ s
    split
    · split <;> simp
    · rfl
  have hv : v.mem = u.mem := by
    by_cases hr : unitRests u = true
    · rw [show v = u from if_pos hr]
    · rw [show v = _ from if_neg hr]
      exact mem_foldl (fun s y => beginRay_mem x y s) _ u
  clear_value u v
  exact hv.trans hu

@[simp] theorem askCatch_mem (x : CoreSub) (n : Nat) (st : Start) (k : Nat) (data : List Byte) (bad : Bool) (s : State) :
    (askCatch x n st k data bad s).mem = s.mem := rfl

@[simp] theorem countCatch_mem (x : CoreSub) (n : Nat) (user : Word) (s : State) :
    (countCatch x n user s).mem = s.mem := by
  unfold countCatch
  dsimp only
  repeat' split
  all_goals simp

@[simp] theorem ringPush_mem (b : RingBlock) (s : State) : (ringPush b s).mem = s.mem := by
  unfold ringPush
  split
  · refine (taintOf_mem b _).trans (mem_foldl (fun s t => ?_) _ s)
    rw [askVisit_mem, catchNext_mem]
  · rfl

@[simp] theorem endCatches_mem (st : Start) (s : State) : (endCatches st s).mem = s.mem := by
  refine mem_foldl (fun s n => ?_) _ s
  split
  · split <;> simp
  · rfl

@[simp] theorem setHold_mem (v : Bool) (t e : Nat) (s : State) : (setHold v t e s).mem = s.mem := by
  unfold setHold
  dsimp only
  split <;> simp

@[simp] theorem takeFailure_mem (t : Nat) (s : State) : (takeFailure t s).mem = s.mem := rfl

@[simp] theorem beginStart_mem (t : Nat) (st : Start) (s : State) : (beginStart t st s).mem = s.mem :=
  (mem_foldl (fun s c => withCore_mem (fun u => beginCore_mem _ _ u) c s) _ _).trans (setTrack_mem _ _ s)

@[simp] theorem createThread_mem (k base : Nat) (m : Message) (s : State) : (createThread k base m s).mem = s.mem :=
  mem_wrSlotRun _ _ _ _

@[simp] theorem discard_mem (s : State) : (discard s).mem = s.mem := rfl
@[simp] theorem putMail_mem (x : Message) (s : State) : (putMail x s).mem = s.mem := rfl
@[simp] theorem follow_mem (x : Message) (s : State) : (follow x s).mem = s.mem := rfl

@[simp] theorem unreserve_mem (held : Bool) (s : State) : (unreserve held s).mem = s.mem := by
  unfold unreserve
  split <;> simp

@[simp] theorem freedSince_mem (before : Nat) (s : State) : (freedSince before s).mem = s.mem := by
  unfold freedSince
  split <;> simp

@[simp] theorem queueFreed_mem (q : QueueId) (at_ : Nat → Bool) (s : State) : (queueFreed q at_ s).mem = s.mem := rfl
@[simp] theorem engAsk_mem (c : EngCmd) (vas : List Int) (s : State) : (engAsk c vas s).mem = s.mem := rfl
@[simp] theorem shootDown_mem (p : Tr → Bool) (s : State) : (shootDown p s).mem = s.mem := rfl

@[simp] theorem engCount_mem (c : EngCmd) (n : Nat) (s : State) : (engCount c n s).mem = s.mem := by
  unfold engCount
  split <;> simp

@[simp] theorem engFull_mem (c : EngCmd) (n : Nat) (s : State) : (engFull c n s).mem = s.mem := by
  unfold engFull
  dsimp only
  split <;> simp

@[simp] theorem drawWord_mem (s : State) : (drawWord s).2.mem = s.mem := rfl

@[simp] theorem progressOf_mem (c : EngCmd) (s : State) : (progressOf c s).2.mem = s.mem := by
  unfold progressOf
  split <;> simp

@[simp] theorem engPfault_mem (c : EngCmd) (va : Nat) (k : AccKind) (s : State) :
    (engPfault c va k s).mem = s.mem := by
  simp [engPfault]

@[simp] theorem nextStep_mem (c : EngCmd) (s : State) : (nextStep c s).2.mem = s.mem := by
  simp [nextStep]

@[simp] theorem sortAccept_mem (r : Rec) (s : State) : (sortAccept r s).mem = s.mem := rfl
@[simp] theorem routingPop_mem (k : Nat) (s : State) : (routingPop k s).mem = s.mem := rfl
@[simp] theorem reprojAccept_mem (r : Rec) (s : State) : (reprojAccept r s).mem = s.mem := rfl
@[simp] theorem reprojHead_mem (d : Nat) (c : EngCmd) (s : State) : (reprojHead d c s).mem = s.mem := rfl
@[simp] theorem reprojPop_mem (d : Nat) (s : State) : (reprojPop d s).mem = s.mem := rfl
@[simp] theorem collAccept_mem (r : Rec) (s : State) : (collAccept r s).mem = s.mem := rfl
@[simp] theorem setCollHead_mem (d : Nat) (x : CollCmd) (s : State) : (setCollHead d x s).mem = s.mem := rfl
@[simp] theorem collPop_mem (d : Nat) (s : State) : (collPop d s).mem = s.mem := rfl

@[simp] theorem collGoOn_mem (x : CollCmd) (s : State) :
    (collGoOn x s).2.mem = s.mem := (nextStep_mem { x.cmd with fault := none, denied := false } s :)

@[simp] theorem startAll_mem (dies : List Nat) (remote : List RemoteRank) (s : State) :
    (startAll dies remote s).mem = s.mem := by
  refine mem_foldl (fun s d => ?_) _ s
  split
  · rename_i x _
    exact (collGoOn_mem x s :)
  · rfl

@[simp] theorem tellRanks_mem (l : List (BitVec 16)) (s : State) : (tellRanks l s).mem = s.mem :=
  mem_foldl (fun s _ => sendTo_mem _ _ _ s) _ s

@[simp] theorem shareRank_mem (n : Nat) (q : RemoteRank) (dies : List Nat) (s : State) :
    (shareRank n q dies s).mem = s.mem := by
  refine mem_foldl (fun s d => ?_) _ s
  split <;> rfl

@[simp] theorem collDone_mem (d : Nat) (s : State) : (collDone d s).mem = s.mem := by
  unfold collDone
  split
  · rfl
  · exact (withCore_mem (fun u => engFull_mem _ _ u) _ _).trans (setDie_mem _ _ _)

@[simp] theorem ringAdvance_mem (h0 : Nat) (consumer : Bool) (s : State) :
    (ringAdvance h0 consumer s).mem = s.mem := by
  refine mem_foldl (fun _ _ => ?_) _ s
  rfl

@[simp] theorem clearSpurned_mem (s : State) : (clearSpurned s).mem = s.mem := rfl

@[simp] theorem formRing_mem (h0 n : Nat) (s : State) : (formRing h0 n s).mem = s.mem := by
  refine mem_foldl (fun _ _ => ?_) _ s
  rfl

@[simp] theorem unring_mem (hs : List Nat) (s : State) : (unring hs s).mem = s.mem := by
  refine mem_foldl (fun _ _ => ?_) _ s
  rfl

@[simp] theorem kindleFor_mem (n : Nat) (s : State) : (kindleFor n s).mem = s.mem := rfl
@[simp] theorem rekindle_mem (stop : Nat) (s : State) : (rekindle stop s).mem = s.mem := rfl

@[simp] theorem headKindles_mem (s : State) : (headKindles s).mem = s.mem := by
  unfold headKindles
  split
  · split <;> rfl
  · rfl

@[simp] theorem quenchIfIdle_mem (s : State) : (quenchIfIdle s).mem = s.mem := by
  unfold quenchIfIdle
  split <;> simp

@[simp] theorem mxTryIssue_mem (s : State) : (mxTryIssue s).mem = s.mem := by
  unfold mxTryIssue
  dsimp only
  repeat' split
  all_goals simp

@[simp] theorem mxAccept_mem (r : Rec) (s : State) : (mxAccept r s).mem = s.mem := by
  unfold mxAccept
  dsimp only
  repeat' split
  all_goals simp

@[simp] theorem mxPop_mem (s : State) : (mxPop s).mem = s.mem := by
  simp [mxPop]

@[simp] theorem setWay_mem (w : Nat) (x : ShadeWay) (s : State) : (setWay w x s).mem = s.mem := rfl

@[simp] theorem fillWay_mem (w : Nat) (x : ShadeWay) (data : Rec) (s : State) :
    (fillWay w x data s).mem = s.mem := rfl

@[simp] theorem onWord_mem (k : Nat) (s : State) : (onWord k s).mem = s.mem := rfl

@[simp] theorem settledWord1_mem (st : SlotState) (s : State) : (settledWord1 st s).mem = s.mem := by
  simp [settledWord1]

@[simp] theorem withMarks_mem (l : List PoisonMark) (s : State) : (withMarks l s).mem = s.mem := rfl
@[simp] theorem withPartner_mem (p : Partner) (s : State) : (withPartner p s).mem = s.mem := rfl
@[simp] theorem reissue_mem (k : Nat) (s : State) : (reissue k s).mem = s.mem := rfl
@[simp] theorem freeSlotAgain_mem (k : Nat) (s : State) : (freeSlotAgain k s).mem = s.mem := rfl
@[simp] theorem lineupFree_mem (n pa : Nat) (tag : Word) (s : State) : (lineupFree n pa tag s).mem = s.mem := rfl
@[simp] theorem broadcast_mem (line : Nat) (s : State) : (broadcast line s).mem = s.mem := rfl

@[simp] theorem fetchLine_mem (line : Nat) (s : State) : (fetchLine line s).mem = s.mem := by
  simp [fetchLine]

@[simp] theorem faultWaiters_mem (p : Nat → Bool) (s : State) : (faultWaiters p s).mem = s.mem := by
  refine mem_foldl (fun s k => ?_) _ s
  split <;> simp

@[simp] theorem walkFound_mem (t : Tr) (s : State) : (walkFound t s).mem = s.mem := rfl
@[simp] theorem setWalks_mem (l : List PageWalk) (s : State) : (setWalks l s).mem = s.mem := rfl

@[simp] theorem pwakeAt_mem (addr : Nat) (deny : Bool) (thread coreSlot : Nat) (s : State) :
    (pwakeAt addr deny thread coreSlot s).mem = s.mem := by
  unfold pwakeAt
  dsimp only
  repeat' split
  all_goals simp

@[simp] theorem depart_mem (k die mask : Nat) (s : State) : (depart k die mask s).mem = s.mem := by
  unfold depart
  dsimp only
  split <;> simp

@[simp] theorem vacate_mem (k : Nat) (s : State) : (vacate k s).mem = s.mem := by
  simp [vacate]

@[simp] theorem transferAccept_mem (expected : Nat) (r src dst : Rec) (s : State) :
    (transferAccept expected r src dst s).mem = s.mem := rfl

@[simp] theorem takeFrame_mem (t : Tr) (place : Word) (s : State) : (takeFrame t place s).2.mem = s.mem := by
  unfold takeFrame
  split <;> simp

@[simp] theorem setHead_mem (c : EngCmd) (s : State) : (setHead c s).mem = s.mem := rfl
@[simp] theorem transferPop_mem (s : State) : (transferPop s).mem = s.mem := rfl

@[simp] theorem transferGoOn_mem (c : EngCmd) (s : State) : (transferGoOn c s).mem = s.mem := by
  simp [transferGoOn]

@[simp] theorem chunkParts_mem (l : List BitsPut) (s : State) :
    (chunkParts l s).2.mem = s.mem := (drawDelays_mem _ _ s :)

@[simp] theorem setStripe_mem (x y : Restripe) (s : State) : (setStripe x y s).mem = s.mem := rfl

@[simp] theorem stopHere_mem (s : State) : (stopHere s).mem = s.mem := by
  simp [stopHere]

@[simp] theorem stopCores_mem (s : State) : (stopCores s).mem = s.mem := by
  refine mem_foldl (fun s c => withCore_mem (fun u => ?_) c s) _ s
  split <;> simp

@[simp] theorem preempt_mem (s : State) : (preempt s).mem = s.mem := rfl

@[simp] theorem reachCores_mem (s : State) : (reachCores s).mem = s.mem := by
  unfold reachCores
  split <;> simp

@[simp] theorem stopCsub_mem (n : Nat) (s : State) : (stopCsub n s).mem = s.mem := by
  unfold stopCsub
  split <;> simp

@[simp] theorem dropPfaults_mem (s : State) : (dropPfaults s).mem = s.mem := rfl
@[simp] theorem stopRequests_mem (s : State) : (stopRequests s).mem = s.mem := rfl

@[simp] theorem stopUnits_mem (s : State) : (stopUnits s).mem = s.mem := by
  unfold stopUnits
  generalize hu : List.foldl _ s _ = u
  have hmem : u.mem = s.mem := hu ▸ mem_foldl (fun s n => stopCsub_mem n s) _ s
  exact hmem

@[simp] theorem restoreThread_mem (area k : Nat) (s : State) : (restoreThread area k s).mem = s.mem := by
  unfold restoreThread
  dsimp only
  split
  · exact mem_wrSlotRun _ _ _ _
  · rfl

@[simp] theorem resubRay_mem (x : RaySub) (s : State) : (resubRay x s).mem = s.mem := rfl

@[simp] theorem resubCore_mem (w0 w1 : Word) (n : Nat) (s : State) : (resubCore w0 w1 n s).mem = s.mem := by
  unfold resubCore
  split <;> simp

@[simp] theorem setOwnFw_mem (x : CtxFw) (s : State) : (setOwnFw x s).mem = s.mem := rfl
@[simp] theorem addRecord_mem (x : CtxFw) (s : State) : (addRecord x s).mem = s.mem := rfl

@[simp] theorem putAway_mem (s : State) : (putAway s).mem = s.mem := by
  unfold putAway
  split <;> simp

@[simp] theorem rekeyDies_mem (old new : List Nat) (s : State) : (rekeyDies old new s).mem = s.mem := by
  unfold rekeyDies
  split <;> simp

@[simp] theorem becomePresent_mem (at_ : Option Nat) (x : CtxFw) (s : State) :
    (becomePresent at_ x s).mem = s.mem := by
  unfold becomePresent
  split <;> simp

@[simp] theorem presentFor_mem (cfg : CtxConfig) (base : Nat) (s : State) : (presentFor cfg base s).mem = s.mem := by
  unfold presentFor
  split <;> simp

@[simp] theorem restorePart_mem (base : Nat) (x : KeptPart) (s : State) : (restorePart base x s).mem = s.mem := by
  unfold restorePart
  refine (mem_foldl (fun s d => ?_) _ _).trans (presentFor_mem _ _ s)
  exact (mem_foldl (fun s j => setCluster_mem _ _ _) _ _).trans (setDie_mem _ _ _)

@[simp] theorem residentAgain_mem (s : State) : (residentAgain s).mem = s.mem := by
  unfold residentAgain
  split <;> simp

@[simp] theorem markSaved_mem (cores : List Nat) (s : State) : (markSaved cores s).mem = s.mem := by
  refine mem_foldl (fun s c => withCore_mem (fun u => ?_) c s) _ s
  rfl

@[simp] theorem rekeyAll_mem (p : PodConfig) (s : State) : (rekeyAll p s).mem = s.mem := rfl

@[simp] theorem createContext_mem (cfg : CtxConfig) (s : State) : (createContext cfg s).mem = s.mem := by
  unfold createContext
  split <;> simp

@[simp] theorem setQueue_mem (die base : Nat) (f : LaunchQueue → LaunchQueue) (s : State) :
    (setQueue die base f s).mem = s.mem := rfl

@[simp] theorem setLaunching_mem (die : Nat) (g : Option Launching) (s : State) :
    (setLaunching die g s).mem = s.mem := rfl

@[simp] theorem boot_mem (x : FirmwareImage) (s : State) : (boot x s).mem = s.mem := by
  unfold boot
  dsimp only
  split
  · exact mem_foldl (fun s d => setDie_mem _ _ _) _ _
  · rfl

@[simp] theorem seenBy_mem (x : CtxFw) (s : State) : (seenBy x s).mem = s.mem := by
  unfold seenBy
  split <;> simp

@[simp] theorem keepDies_mem (s : State) : (keepDies s).mem = s.mem := by
  unfold keepDies
  repeat' split
  all_goals simp

@[simp] theorem onDies_mem {f : Nat → State → State} (hf : ∀ d s, (f d s).mem = s.mem) (s : State) :
    (onDies f s).mem = s.mem := mem_foldl (fun s d => hf d s) _ s

@[simp] theorem detachLaunch_mem (base d : Nat) (s : State) : (detachLaunch base d s).mem = s.mem := rfl
@[simp] theorem beginCheckpoint_mem (s : State) : (beginCheckpoint s).mem = s.mem := rfl
@[simp] theorem ackCheckpoint_mem (s : State) : (ackCheckpoint s).mem = s.mem := rfl

@[simp] theorem stopAtOnce_mem (s : State) : (stopAtOnce s).mem = s.mem := by
  simp [stopAtOnce]

@[simp] theorem detectFault_mem (s : State) : (detectFault s).mem = s.mem := by
  simp [detectFault]

@[simp] theorem clearThermal_mem (s : State) : (clearThermal s).mem = s.mem := rfl

@[simp] theorem connWrite_mem (present : State) (n : Nat) (v : Word) (s : State) :
    (connWrite present n v s).2.mem = s.mem := by
  unfold connWrite
  repeat' split
  all_goals simp

@[simp] theorem setLink_mem (port : Nat) (l : Link) (s : State) : (setLink port l s).mem = s.mem := rfl
@[simp] theorem refuseLoad_mem (x : Image) (s : State) : (refuseLoad x s).mem = s.mem := rfl
@[simp] theorem beginIssue_mem (k sp : Nat) (s : State) : (beginIssue k sp s).mem = s.mem := rfl
@[simp] theorem onPattern_mem (n : Nat) (bit31 : Bool) (s : State) : (onPattern n bit31 s).mem = s.mem := rfl
@[simp] theorem endTurn_mem (s : State) : (endTurn s).mem = s.mem := rfl

/-- What leaves memory as it was keeps its form. -/
theorem memOk_same {s t : State} (hs : s.memOk) (h : t.mem = s.mem := by simp) : t.memOk := memOk_of_mem_eq h hs

@[simp] theorem onMe_mem (f : Core → Core) (s : State) : (onMe f s).mem = s.mem := rfl

theorem memOk_ite {c : Prop} [Decidable c] {s t : State} (hs : s.memOk) (ht : t.memOk) :
    (if c then s else t).memOk := by
  split
  · exact hs
  · exact ht

theorem memOk_fold {α : Type} {f : State → α → State} (hf : ∀ {u : State} (x : α), u.memOk → (f u x).memOk) {l : List α}
    {s : State} (hs : s.memOk) : (l.foldl f s).memOk := memOk_foldl f (fun _ x h => hf x h) l s hs

theorem memOk_withCore {f : State → State} (hf : ∀ {u : State}, u.memOk → (f u).memOk) {c : Nat} {s : State}
    (hs : s.memOk) : (withCore c f s).memOk :=
  memOk_same (hf (memOk_same hs (focus_mem c s))) (focus_mem _ _)

section

variable {s : State} (hs : s.memOk)
include hs

/-! ## Accesses, handles of commands and messages -/

theorem memOk_write {w : Writer} {l : List (Nat × Byte)} : (writeBytes w l s).memOk := memOk_writeBytes w l s hs

theorem memOk_settleParts {ks : List Nat} {a : Access} : (settleParts ks a s).memOk := memOk_settleAtoms _ _ _ s hs

theorem memOk_applyParts {a : Access} : (applyParts a s).2.memOk := memOk_applyAtoms _ _ _ (memOk_settleParts hs)

theorem memOk_applyOwn {a : Access} : (applyOwn a s).2.memOk := by
  unfold applyOwn
  dsimp only
  split
  · exact memOk_applyAtoms _ _ _ (memOk_settleParts hs)
  · exact hs

theorem memOk_issueRelaxed {a : Access} : (issueRelaxed a s).memOk :=
  memOk_ite (memOk_completeRelaxed _ _ (memOk_settleBefore _ _ hs)) (memOk_same (memOk_applyOwn (a := a) hs))

theorem memOk_reply {status : Nat} : (reply status s).memOk := memOk_write (memOk_same hs)

theorem memOk_logData {l : List Byte} : (logData l s).memOk := by
  unfold logData
  dsimp only
  split
  · generalize hu : writeBytes _ _ s = u
    have hok : u.memOk := hu ▸ memOk_write hs
    exact memOk_same hok
  · exact hs

theorem memOk_logBytes {n : Nat} : (logBytes n s).memOk := memOk_ite (memOk_logData (memOk_same hs)) hs

theorem memOk_writeEvent {ring n kind : Nat} {body : List Word} : (writeEvent ring n kind body s).memOk := memOk_write hs

theorem memOk_awayEvent {kind : Nat} {body : List Word} (e : Nat × Option CtxFw) : (awayEvent kind body s e).memOk := by
  unfold awayEvent
  split
  · generalize hu : writeEvent _ _ _ _ s = u
    have hok : u.memOk := hu ▸ memOk_writeEvent hs
    exact memOk_same hok
  · exact hs

theorem memOk_appendEvent {kind : Nat} {body : List Word} : (appendEvent kind body s).memOk := by
  refine memOk_ite (memOk_fold (fun e h => memOk_awayEvent h e) hs) ?_
  generalize hu : writeEvent _ _ _ _ s = u
  have hok : u.memOk := hu ▸ memOk_writeEvent hs
  exact memOk_same hok

theorem memOk_principalTakes {x : Message} : (principalTakes x s).memOk := memOk_ite (memOk_appendEvent hs) (memOk_same hs)

theorem memOk_logMail {x : Message} : (logMail x s).memOk := memOk_ite (memOk_logBytes (memOk_same hs)) hs

theorem memOk_enterMail {held : Bool} {x : Message} : (enterMail held x s).memOk :=
  memOk_ite (memOk_principalTakes (memOk_logMail hs)) (memOk_of_mem_eq (putMail_mem _ _) (memOk_logMail hs))

theorem memOk_enterBox {held : Bool} {x : Message} : (enterBox held x s).memOk :=
  memOk_ite (memOk_enterMail hs) (memOk_ite (memOk_same hs) (memOk_same hs))

theorem memOk_arrive {held : Bool} {x : Message} : (arrive held x s).memOk := by
  have hbox : (enterBox held x s).memOk := memOk_enterBox hs
  refine memOk_ite (memOk_ite (memOk_same hs) (memOk_ite (memOk_same hs) hbox))
    (memOk_ite (memOk_same hs) (memOk_ite ?_ hbox))
  split
  · exact memOk_same (memOk_logMail hs) (createThread_mem _ _ _ _)
  · exact hbox

/-! ## Rays and their tests -/

theorem memOk_rayPut {i off n v : Nat} : (rayPut i off n v s).memOk := memOk_write hs

theorem memOk_raySetFlag {n i : Nat} : (raySetFlag n i s).memOk := memOk_rayPut hs

/-- The open tests of a core with `u` in the place of `t`. -/
def withTest (t u : RayTest) (m : Core) : Core := { m with tests := m.tests.map fun x => if x = t then u else x }

omit hs in
theorem openTest_eq (s : State) (t : RayTest) : ∃ u v, openTest t s =
    onMe (withTest t u) (rayPut t.ray (48 + 4 * t.sub + 3) 1 v (rayPut t.ray 42 2 0 s)) := ⟨_, _, rfl⟩

theorem memOk_openTest {t : RayTest} : (openTest t s).memOk := by
  obtain ⟨u, v, h⟩ := openTest_eq s t
  rw [h]
  exact memOk_of_mem_eq (onMe_mem _ _) (memOk_rayPut (memOk_rayPut hs))

theorem memOk_nextTest {i : Nat} : (nextTest i s).memOk := by
  unfold nextTest
  split
  · exact memOk_openTest hs
  · exact hs

/-- A core without a ray's subscription and without its tests. -/
def raySubLeft (x : RaySub) (m : Core) : Core :=
  { m with
    raySubs := m.raySubs.filter fun y => y.id != x.id
    tests := m.tests.filter fun t => !(t.ray == x.ray && t.sub == x.sub) }

/-- A ray's subscription gone from the record and from its core, before the ray's next test opens. -/
def rayGone (x : RaySub) (f : Core → Core) (p : RayVisit → Bool) (s : State) : State :=
  rayWake x.ray (rayPut x.ray (48 + 4 * x.sub) 4 0 (onMe f (dropVisits p s)))

omit hs in
theorem raySubGone_eq (s : State) (x : RaySub) : ∃ c f p, raySubGone x s =
    if c = true then nextTest x.ray (rayGone x f p s) else rayGone x f p s := ⟨_, raySubLeft x, _, rfl⟩

theorem memOk_raySubGone {x : RaySub} : (raySubGone x s).memOk := by
  obtain ⟨c, f, p, h⟩ := raySubGone_eq s x
  rw [h]
  have hgone : (rayGone x f p s).memOk := memOk_same (memOk_rayPut (memOk_same hs)) (rayWake_mem _ _)
  exact memOk_ite (memOk_nextTest hgone) hgone

theorem memOk_raySubWithdraw {x : RaySub} : (raySubWithdraw x s).memOk :=
  memOk_of_mem_eq (ctlSend_mem _ _ _) (memOk_raySubGone hs)

theorem memOk_raySubComplete {x : RaySub} : (raySubComplete x s).memOk :=
  memOk_of_mem_eq (forgetSub_mem _ _) (memOk_raySubGone hs)

theorem memOk_endTest {t : RayTest} : (endTest t s).memOk := by
  unfold endTest
  dsimp only
  exact memOk_rayPut (memOk_same hs)

theorem memOk_cutTest {t : RayTest} {f : State → State} (hf : ∀ {u : State}, u.memOk → (f u).memOk) : (cutTest t f s).memOk :=
  memOk_ite (memOk_nextTest (memOk_rayPut (hf (memOk_endTest hs)))) (hf (memOk_endTest hs))

theorem memOk_overrunTest {t : RayTest} : (overrunTest t s).memOk :=
  memOk_cutTest hs fun h => memOk_raySetFlag (memOk_rayPut (memOk_same h))

theorem memOk_taintTest {t : RayTest} : (taintTest t s).memOk :=
  memOk_cutTest (memOk_same hs (catchNext_mem t s)) fun h => memOk_raySetFlag (memOk_rayPut (memOk_same h))

theorem memOk_acceptOrdered {t : RayTest} {w : Word} : (acceptOrdered t w s).memOk :=
  memOk_ite (memOk_raySetFlag (memOk_same hs)) (memOk_ite (memOk_raySetFlag hs) (memOk_same hs))

theorem memOk_acceptClosest {i : Nat} {w : Word} : (acceptClosest i w s).memOk :=
  memOk_ite (memOk_of_mem_eq (setSide_mem _ _ _) (memOk_rayPut hs)) hs

theorem memOk_setSkip {t : RayTest} {n : Nat} : (setSkip t n s).memOk := by
  unfold setSkip
  dsimp only
  exact memOk_ite (memOk_same hs) (memOk_rayPut (memOk_same hs))

theorem memOk_testRecord {rec : Lanes} (t : RayTest) : (testRecord rec t s).memOk := by
  unfold testRecord
  extract_lets u
  have hu : u.memOk := memOk_ite hs (memOk_same hs)
  split
  · exact memOk_ite hu (memOk_setSkip hu)
  · split
    · exact memOk_ite (memOk_acceptClosest hu) (memOk_ite (memOk_acceptOrdered hu) hu)
    · exact hu
  · split
    · exact memOk_ite (memOk_acceptOrdered hu) hu
    · exact hu
  · exact hu

theorem memOk_testAll {rec : Lanes} {start : Nat} : (testAll rec start s).memOk :=
  memOk_fold (fun t h => memOk_ite (memOk_setSkip h) (memOk_testRecord h t)) hs

theorem memOk_testBad {b : RingBlock} : (testBad b s).memOk := by
  have h : ((walkers s b.start).foldl (fun s t => if t.skip < 4 then taintTest t s else setSkip t (t.skip - 4) s) s).memOk :=
    memOk_fold (fun t h => memOk_ite (memOk_taintTest h) (memOk_setSkip h)) hs
  exact memOk_ite h (memOk_same h (sendTaint_mem _ _ _ _ _ _))

theorem memOk_completeTest (t : RayTest) : (completeTest t s).memOk :=
  memOk_fold (fun _ h => memOk_raySubComplete (memOk_ite (memOk_rayPut h) h)) hs

theorem memOk_completeTests {start : Nat} : (completeTests start s).memOk := memOk_fold (fun t h => memOk_completeTest h t) hs

theorem memOk_stopTest {t : RayTest} : (stopTest t s).memOk := memOk_rayPut (memOk_rayPut (memOk_of_mem_eq (dropPass_mem _ _ _) (memOk_endTest hs)))

theorem memOk_blockDone {b : RingBlock} : (blockDone b s).memOk :=
  memOk_same (memOk_ite (memOk_completeTests hs) hs) (unitStop_mem _)

theorem memOk_makeVisit (v : RayVisit) : (makeVisit v s).memOk := by
  unfold makeVisit
  split
  · exact memOk_raySetFlag hs
  · exact memOk_openTest hs
  · exact memOk_overrunTest hs
  · exact memOk_completeTest hs _
  · exact memOk_stopTest hs
  · exact hs

theorem memOk_makeVisits : (makeVisits s).memOk := memOk_fold (fun v h => memOk_makeVisit h v) (memOk_same hs)

theorem memOk_lateFirst {i : Nat} : (lateFirst i s).memOk := memOk_ite (memOk_raySetFlag (memOk_same hs)) hs

theorem memOk_skipRaySub (x : RaySub) : (skipRaySub x s).memOk :=
  memOk_raySubWithdraw (memOk_fold (fun _ h => memOk_of_mem_eq (dropPass_mem _ _ _) (memOk_ite (memOk_rayPut h) h)) (memOk_lateFirst hs))

/-! ## The controller's catches -/

theorem memOk_catchWrite {h : Nat} {data : List Byte} : (catchWrite h data s).memOk := by
  unfold catchWrite
  generalize hu : writeBytes _ _ s = u
  have hok : u.memOk := hu ▸ memOk_write hs
  exact memOk_same hok

theorem memOk_catchGood {x : CoreSub} {n : Nat} {st : Start} {k : Nat} {data : List Byte} :
    (catchGood x n st k data s).memOk := by
  unfold catchGood
  dsimp only
  split
  · exact memOk_same hs
  · refine memOk_of_mem_eq (countCatch_mem _ _ _ _) ?_
    generalize hu : catchWrite _ _ s = u
    have hok : u.memOk := hu ▸ memOk_catchWrite hs
    exact memOk_same hok
  · exact memOk_same hs (countCatch_mem _ _ _ _)

theorem memOk_catchBad {x : CoreSub} {n : Nat} {st : Start} {k : Nat} : (catchBad x n st k s).memOk := by
  have hdrawn : (drawBytes 256 s).2.memOk := memOk_same hs
  unfold catchBad
  generalize drawBytes 256 s = r at hdrawn
  obtain ⟨bytes, v⟩ := r
  dsimp only
  split
  · exact memOk_same hdrawn
  · generalize hu : catchWrite _ bytes v = u
    have hok : u.memOk := hu ▸ memOk_catchWrite hdrawn
    exact memOk_same hok
  · exact memOk_same hs

theorem memOk_catchCut {x : CoreSub} {n : Nat} {st : Start} {k : Nat} : (catchCut x n st k s).memOk := by
  unfold catchCut
  dsimp only
  generalize hu : catchBad x n st k s = u
  have hok : u.memOk := hu ▸ memOk_catchBad hs
  exact memOk_same hok

theorem memOk_serveCatch {r : Catch} : (serveCatch r s).memOk := by
  unfold serveCatch
  dsimp only
  generalize hu : catchWrite r.home r.data _ = u
  have hwritten : u.memOk := hu ▸ memOk_catchWrite (memOk_same hs)
  generalize hv : (ite (r.bad = true) _ _ : State) = v
  have hok : v.memOk := hv ▸ memOk_ite (memOk_same hwritten) (memOk_same hwritten)
  split
  · exact memOk_ite hok (memOk_ite (memOk_same hok) (memOk_ite (memOk_same hok (countCatch_mem _ _ _ _)) hok))
  · exact hok

omit hs in
theorem memOk_foldSnd {f : Nat × State → Nat → Nat × State} (hf : ∀ r n, r.2.memOk → (f r n).2.memOk) (l : List Nat)
    (r : Nat × State) (h : r.2.memOk) : (l.foldl f r).2.memOk := by
  induction l generalizing r with
  | nil => exact h
  | cons n l ih => exact ih _ (hf r n h)

theorem memOk_catchCore {st : Start} {k : Nat} {data : List Byte} {bad : Bool} : (catchCore st k data bad s).2.memOk := by
  unfold catchCore
  refine memOk_foldSnd (fun r n h => ?_) _ _ hs
  split
  · split
    · exact memOk_catchCut h
    · exact memOk_catchGood h
  · exact h

theorem memOk_deliverCore {st : Start} {sel k count : Nat} {data : List Byte} {bad : Bool} :
    (deliverCore st sel k count data bad s).memOk := by
  unfold deliverCore
  dsimp only
  have hcaught : (catchCore st k data bad s).2.memOk := memOk_catchCore hs
  generalize catchCore st k data bad s = r at hcaught
  generalize hv : (ite ((!(walkers r.2 st.id).isEmpty) = true) _ _ : State) = v
  have hok : v.memOk := by
    rw [← hv]
    exact memOk_ite (memOk_same hcaught (ringPush_mem _ _))
      (memOk_ite (memOk_same hcaught (sendTaint_mem _ _ _ _ _ _)) hcaught)
  have hasks : ∀ l : List RayTest, (l.foldl (fun s t => askVisit .complete t.ray t.sub t.start s) v).memOk :=
    fun _ => memOk_fold (fun _ h => memOk_same h) hok
  exact memOk_ite (memOk_same (memOk_ite (hasks _) hok) (endCatches_mem _ _)) hok

theorem memOk_deliverBlock {t : Nat} {st : Start} {failed : Bool} : (deliverBlock t st failed s).memOk := by
  unfold deliverBlock
  dsimp only
  generalize hu : (ite (failed = true) (takeFailure t s) s : State) = u
  have hfailed : u.memOk := hu ▸ memOk_ite (memOk_same hs (takeFailure_mem _ _)) hs
  refine memOk_fold (fun _ h => memOk_withCore (fun h => memOk_deliverCore h) h) (memOk_of_mem_eq (setTrack_mem _ _ _) ?_)
  split
  · exact memOk_same hfailed (setHold_mem _ _ _ _)
  · exact hfailed

end

section

variable {s : State} (hs : s.memOk)
include hs

/-! ## What the engines share -/

theorem memOk_engPut {c : EngCmd} {l : List (Nat × Byte)} : (engWrite c l s).memOk := memOk_engWrite c l s hs

theorem memOk_engMessage {c : EngCmd} {type : Nat} {body : List Word} : (engMessage c type body s).memOk :=
  memOk_ite (memOk_arrive hs) (memOk_same hs)

theorem memOk_engFault {c : EngCmd} {cause : BitVec 5} {va : Word} : (engFault c cause va s).memOk := by
  unfold engFault
  dsimp only
  generalize hu : engMessage c _ _ _ = u
  have hok : u.memOk := hu ▸ memOk_engMessage (memOk_same hs)
  exact memOk_ite (memOk_same hok) hok

/-! ## Routing, reprojection and collectives -/

theorem memOk_routingStop {k : Nat} {c : EngCmd} (e : EngStop) : (routingStop k c e s).memOk := by
  cases e with
  | wait va kind => exact memOk_same hs (engPfault_mem _ _ _ _)
  | fault cause va => exact memOk_engFault (memOk_same hs)

theorem memOk_routingRun {k : Nat} {c : EngCmd} : (routingRun k c s).memOk := by
  unfold routingRun
  dsimp only
  repeat' split
  case h_2 => exact memOk_of_mem_eq (engCount_mem _ _ _) (memOk_of_mem_eq (routingPop_mem _ _) (memOk_engPut (memOk_same hs)))
  all_goals exact memOk_routingStop hs _

theorem memOk_reprojStop {d : Nat} {c : EngCmd} (e : EngStop) : (reprojStop d c e s).memOk := by
  cases e with
  | wait va kind => exact memOk_same hs (engPfault_mem _ _ _ _)
  | fault cause va => exact memOk_engFault (memOk_same hs)

omit hs in
theorem memOk_engRead {c : EngCmd} {va n v : Nat} {t : State} (hs : s.memOk) (h : engRead c va n s = .ok (v, t)) : t.memOk := by
  unfold engRead at h
  split at h
  · exact nomatch h
  · split at h
    · exact nomatch h
    · cases h
      exact memOk_same hs

omit hs in
theorem memOk_engAmoMinu {c : EngCmd} {va key : Nat} {t : State} (hs : s.memOk) (h : engAmoMinu c va key s = .ok t) : t.memOk := by
  unfold engAmoMinu at h
  split at h
  · exact nomatch h
  · split at h
    · exact nomatch h
    · split at h
      · exact nomatch h
      · exact Except.ok.inj h ▸ memOk_engPut hs

omit hs in
theorem memOk_rpPixel {c : EngCmd} {t : State} (hs : s.memOk) (h : rpPixel c s = .ok t) : t.memOk := by
  unfold rpPixel at h
  dsimp only at h
  split at h
  · exact nomatch h
  · rename_i key u hread
    have hu := memOk_engRead hs hread
    split at h
    · cases h
      exact hu
    · split at h
      · exact memOk_engAmoMinu hu h
      · split at h
        · exact nomatch h
        · rename_i g v hread'
          have hv := memOk_engRead hu hread'
          split at h
          · exact memOk_engAmoMinu hv h
          · cases h
            exact hv

theorem memOk_rpPixels {c : EngCmd} {n : Nat} : (rpPixels c n s).2.1.memOk := by
  induction n generalizing c s with
  | zero => exact hs
  | succ n ih =>
    unfold rpPixels
    split
    · exact hs
    · rename_i t hpix
      have ht := memOk_rpPixel hs hpix
      dsimp only
      split
      · exact ht
      · exact ih ht

theorem memOk_reprojRun {d : Nat} {c : EngCmd} : (reprojRun d c s).memOk := by
  unfold reprojRun
  split
  · exact memOk_reprojStop hs _
  · split
    · exact memOk_reprojStop hs _
    · rename_i c' _
      have hpix : (rpPixels c' 4 (if c'.done = 0 then engAsk c' (atomAddrs (rpMat c'.recd) 64) s else s)).2.1.memOk :=
        memOk_rpPixels (memOk_ite (memOk_same hs) hs)
      split
      · rename_i heq
        rw [heq] at hpix
        exact memOk_reprojStop hpix _
      · rename_i heq
        rw [heq] at hpix
        split
        · exact memOk_same hpix
        · exact memOk_same hpix

theorem memOk_collFault {d : Nat} {cause : BitVec 5} {va : Word} : (collFault d cause va s).memOk := by
  unfold collFault
  split
  · exact memOk_withCore (fun h => memOk_engFault h) (memOk_same hs)
  · exact hs

theorem memOk_collFaultAll {dies : List Nat} {d : Nat} {cause : BitVec 5} {va : Word} :
    (collFaultAll dies d cause va s).memOk :=
  memOk_fold (fun _ h => memOk_ite (memOk_collFault h) (memOk_collFault h)) hs

theorem memOk_collStop {dies : List Nat} {d : Nat} {x : CollCmd} (e : EngStop) : (collStop dies d x e s).memOk := by
  cases e with
  | wait va kind => exact memOk_withCore (fun h => memOk_same h) (memOk_same hs)
  | fault cause va => exact memOk_collFaultAll hs

theorem memOk_mixAll {gid order : Nat} {ls : List (List (BitVec 16))} : (mixAll gid order ls s).memOk :=
  memOk_fold (fun _ h => memOk_ite (memOk_collFault h) (memOk_same h)) (memOk_same hs : (drawWord s).2.memOk)

theorem memOk_readList {die : Nat} {x : CollCmd} : (readList die x s).memOk := by
  unfold readList
  dsimp only
  split
  · exact memOk_collStop hs _
  · exact memOk_of_mem_eq (setCollHead_mem _ _ _) (memOk_same hs (withCore_mem (fun u => engAsk_mem _ _ u) _ s))

theorem memOk_readInput {d : Nat} {x : CollCmd} : (readInput d x s).memOk := by
  unfold readInput
  dsimp only
  split
  · exact memOk_collStop hs _
  · generalize hu : withCore x.cmd.core _ s = u
    have hok : u.memOk := hu ▸ memOk_same hs (withCore_mem (fun u => engAsk_mem _ _ u) _ s)
    exact memOk_ite (memOk_same hok) (memOk_same hok)

theorem memOk_writeOutput {d : Nat} {x : CollCmd} : (writeOutput d x s).memOk := by
  unfold writeOutput
  split
  · exact memOk_collStop hs _
  · dsimp only
    generalize hu : withCore x.cmd.core _ s = u
    have hok : u.memOk := hu ▸ memOk_withCore (fun h => memOk_engPut h) hs
    exact memOk_ite (memOk_fold (fun d h => memOk_same h (collDone_mem d _)) (memOk_same hok)) (memOk_same hok)

theorem memOk_matchHead {die : Nat} {x : CollCmd} {remote : List RemoteRank} {t : State}
    (h : matchHead die x remote s = .next t) : t.memOk := by
  unfold matchHead at h
  dsimp only at h
  split at h
  · cases h
    exact memOk_collFault (memOk_same hs)
  · split at h
    · cases h
      exact memOk_mixAll hs
    · split at h
      · cases h
        exact memOk_collFault hs
      · split at h
        · exact nomatch h
        · split at h
          · cases h
            exact memOk_fold (fun _ h => memOk_collFault h) (memOk_same hs : (drawWord s).2.memOk)
          · cases h
            exact memOk_same hs

/-! ## The matrix engine -/

theorem memOk_mxWrite {c : EngCmd} : (mxWrite c s).memOk := by
  unfold mxWrite
  split
  · exact memOk_engPut hs
  · exact memOk_wldWrite c s hs
  · exact memOk_engPut hs
  · exact memOk_engPut hs

theorem memOk_mxRetire {c : EngCmd} : (mxRetire c s).memOk := by
  have hidle : ∀ u : State, u.memOk → (if isMac c then quenchIfIdle u else u).memOk :=
    fun u h => memOk_ite (memOk_same h) h
  unfold mxRetire
  dsimp only
  split
  · exact memOk_same hs
  · exact hidle _ (memOk_engFault (memOk_same hs))
  · generalize hu : mxWrite c _ = u
    have hok : u.memOk := hu ▸ memOk_mxWrite (memOk_same hs)
    have hcounted : (if mxSectors c = 0 then u else engCount c (mxSectors c) u).memOk := memOk_ite hok (memOk_same hok)
    generalize (if mxSectors c = 0 then u else engCount c (mxSectors c) u) = v at hcounted
    exact memOk_ite (hidle _ (memOk_same hcounted)) (memOk_same hcounted)

/-! ## The transfer engine -/

theorem memOk_stripeAccept {t : Tr} {r : Rec} : (stripeAccept t r s).memOk := by
  unfold stripeAccept
  dsimp only
  generalize hu : writeBytes _ _ _ = u
  have hok : u.memOk := hu ▸ memOk_write (memOk_same hs)
  exact memOk_same hok

theorem memOk_transferStop {c : EngCmd} (e : EngStop) : (transferStop c e s).memOk := by
  cases e with
  | wait va kind => exact memOk_of_mem_eq (engPfault_mem _ _ _ _) (memOk_same hs (setHead_mem _ _))
  | fault cause va => exact memOk_engFault (memOk_same hs)

theorem memOk_sendClip {c : EngCmd} : (sendClip c s).memOk := memOk_engMessage hs

theorem memOk_copyEnd {c : EngCmd} : (copyEnd c s).memOk := by
  unfold copyEnd
  dsimp only
  have hcounted : ∀ (p : Prop) [Decidable p] (n : Nat), (engCount c n (if p then sendClip c s else s)).memOk :=
    fun p _ n => memOk_of_mem_eq (engCount_mem _ _ _) (memOk_ite (memOk_sendClip hs) hs)
  exact memOk_ite (memOk_of_mem_eq (transferPop_mem _) (hcounted _ _))
    (memOk_of_mem_eq (transferGoOn_mem _ _) (hcounted _ _))

theorem memOk_copyOn {c : EngCmd} : (copyOn c s).memOk := by
  unfold copyOn
  dsimp only
  generalize hu : engWrite c _ s = u
  have hok : u.memOk := hu ▸ memOk_engPut hs
  exact memOk_ite (memOk_copyEnd hok) (memOk_same hok)

theorem memOk_copyChunk {c : EngCmd} : (copyChunk c s).memOk := by
  unfold copyChunk
  dsimp only
  repeat' split
  case h_2 => exact memOk_copyOn (memOk_same hs)
  all_goals exact memOk_transferStop hs _

theorem memOk_scanChunk {c : EngCmd} : (scanChunk c s).memOk := by
  unfold scanChunk
  dsimp only
  repeat' split
  case h_2 => exact memOk_of_mem_eq (transferGoOn_mem _ _) (memOk_engPut hs)
  all_goals exact memOk_transferStop hs _

theorem memOk_beginChunk {t : State} (h : beginChunk s = .next t) : t.memOk := by
  unfold beginChunk at h
  split at h
  · split at h
    · cases h
      exact memOk_engFault (memOk_same hs)
    · split at h
      · exact nomatch h
      · split at h
        · cases h
          exact memOk_scanChunk hs
        · cases h
          exact memOk_copyChunk hs
  · exact nomatch h

/-! ## Threads that land, and contexts -/

theorem memOk_landMail {k : Nat} (m : Message) : (landMail k s m).memOk := memOk_ite (memOk_same hs) (memOk_same hs)

theorem memOk_land {g : Migrant} {k b : Nat} : (land g k b s).memOk :=
  memOk_fold (fun m h => memOk_landMail (memOk_ite h (memOk_logMail h)) m)
    (memOk_fold (fun m h => memOk_landMail h m) (memOk_of_mem_eq (mem_wrSlotRun _ _ _ _) (memOk_same hs)))

theorem memOk_drainTrace : (drainTrace s).memOk := by
  unfold drainTrace
  dsimp only
  generalize hu : logData _ s = u
  have hok : u.memOk := hu ▸ memOk_logData hs
  exact memOk_same hok

theorem memOk_storeBytesAt {at_ : Nat} {l : List Byte} : (storeBytesAt at_ l s).memOk := memOk_setAll _ rfl hs

theorem memOk_savePartsOf {area : Nat} : (savePartsOf area s).memOk := by
  unfold savePartsOf
  dsimp only
  generalize hu : List.foldl _ s _ = u
  have hbanks : u.memOk := hu ▸ memOk_fold (fun _ h => memOk_copyMem _ _ _ _ h) hs
  generalize hv : (ite (footBit s.me.footprint 32 = true) _ u : State) = v
  have hrays : v.memOk := hv ▸ memOk_ite (memOk_storeFree _ _ _ hbanks) hbanks
  generalize hw : (ite (footBit s.me.footprint 33 = true) _ v : State) = w
  have hla : w.memOk := hw ▸ memOk_ite (memOk_storeBytesAt hrays) hrays
  exact memOk_ite (memOk_copyMem _ _ _ _ hla) hla

theorem memOk_copyCheckpoint {base : Nat} : (copyCheckpoint base s).memOk := by
  unfold copyCheckpoint
  split
  · exact memOk_ite hs (memOk_same hs)
  · exact hs

theorem memOk_restoreParts {area : Nat} : (restoreParts area s).memOk := by
  unfold restoreParts
  dsimp only
  generalize hu : List.foldl _ s _ = u
  have hcleared : u.memOk := hu ▸ memOk_fold (fun _ h => memOk_ite h (memOk_zeroMem _ _ _ h)) hs
  generalize hv : List.foldl _ u _ = v
  have hbanks : v.memOk := hv ▸ memOk_fold (fun _ h => memOk_copyMem _ _ _ _ h) hcleared
  exact memOk_ite (memOk_copyMem _ _ _ _ hbanks) (memOk_zeroMem _ _ _ hbanks)

theorem memOk_resumeCore {area base : Nat} {x : KeptCore} : (resumeCore area base x s).memOk := by
  unfold resumeCore
  dsimp only
  generalize hu : restoreParts area _ = u
  have hparts : u.memOk := hu ▸ memOk_restoreParts (memOk_same hs)
  generalize hv : List.foldl _ u _ = v
  have hthreads : v.memOk := hv ▸ memOk_fold (fun _ h => memOk_same h (restoreThread_mem _ _ _)) hparts
  generalize hw : (ite (footBit v.me.footprint 32 = true) _ v : State) = w
  have hrays : w.memOk := hw ▸ memOk_ite (memOk_fold (fun _ h => memOk_same h) hthreads) hthreads
  generalize hx : storeWords area [0] _ = y
  have hsubs : y.memOk := hx ▸ memOk_storeWords _ _ _ (memOk_fold (fun _ h => memOk_same h) hrays)
  exact memOk_same hsubs

theorem memOk_resumeAt {area base : Nat} {x : KeptCore} {p : KeptPart} : (resumeAt area base x p s).memOk := by
  unfold resumeAt
  dsimp only
  generalize hv : resumeCore area base x _ = v
  have hcore : v.memOk := hv ▸ memOk_resumeCore (memOk_ite (memOk_same hs) hs)
  exact memOk_same hcore

theorem memOk_startOn {cfg : CtxConfig} (c : Nat) : (startOn cfg c s).memOk :=
  memOk_zeroMem _ _ _ (memOk_zeroMem _ _ _ (memOk_same hs))

theorem memOk_startContext {cfg : CtxConfig} : (startContext cfg s).memOk := by
  unfold startContext
  dsimp only
  generalize hu : List.foldl _ _ cfg.cores = u
  have hok : u.memOk := hu ▸ memOk_fold (fun c h => memOk_startOn h c) (memOk_same hs (becomePresent_mem _ _ _))
  exact memOk_same hok

/-! ## Launches -/

theorem memOk_principalStore {die at_ : Nat} {w : Word} : (principalStore die at_ w s).memOk := memOk_write hs

theorem memOk_logRecord {die : Nat} {q : LaunchQueue} {r : List Word} : (logRecord die q r s).memOk :=
  memOk_ite (memOk_logBytes (memOk_same hs)) hs

theorem memOk_consume {die : Nat} {q : LaunchQueue} {r : List Word} : (consume die q r s).memOk :=
  memOk_principalStore (memOk_logRecord (memOk_same hs))

theorem memOk_refuseRecord {die : Nat} {q : LaunchQueue} {r : List Word} : (refuseRecord die q r s).memOk :=
  memOk_consume (memOk_principalStore (memOk_same hs))

theorem memOk_stopQueue {die code : Nat} {q : LaunchQueue} {r : List Word} : (stopQueue die code q r s).memOk :=
  memOk_appendEvent (memOk_principalStore (memOk_same hs))

omit hs in
theorem sendLaunch_mem (x : Message) (c : Nat) (s : State) : (sendLaunch x c s).mem = s.mem := by
  refine (sendNet_mem _ _ _).trans (withCore_mem (fun u => ?_) c s)
  rfl

omit hs in
theorem sendTasks_mem (die : Nat) (q : LaunchQueue) (r : List Word) (type n t : Nat) (s : State) :
    (sendTasks die q r type n t s).1.mem = s.mem := by
  induction n generalizing t s with
  | zero => rfl
  | succ n ih =>
    unfold sendTasks
    dsimp only
    split
    · exact ih _ _
    · split
      · rfl
      · exact (ih _ _).trans (sendLaunch_mem _ _ _)

omit hs in
theorem loadRanges_mem (die : Nat) (q : LaunchQueue) (r : List Word) (type n j : Nat) (s : State) :
    (loadRanges die q r type n j s).1.mem = s.mem := by
  induction n generalizing j s with
  | zero => rfl
  | succ n ih =>
    unfold loadRanges
    dsimp only
    split
    · exact ih _ _
    · split
      · rfl
      · exact (ih _ _).trans (setCluster_mem _ _ _)

omit hs in
theorem launchFrom_mem (die : Nat) (q : LaunchQueue) (r : List Word) (t : Nat) (s : State) :
    (launchFrom die q r t s).1.mem = s.mem := by
  unfold launchFrom
  dsimp only
  split
  · exact loadRanges_mem _ _ _ _ _ _ _
  · exact sendTasks_mem _ _ _ _ _ _ _

theorem memOk_launchOn {die : Nat} {g : Launching} : (launchOn die g s).memOk := by
  have hsent := memOk_same hs (launchFrom_mem die g.queue g.words g.next s)
  unfold launchOn
  split
  · rename_i heq
    rw [heq] at hsent
    exact memOk_same hsent
  · rename_i heq
    rw [heq] at hsent
    exact memOk_ite (memOk_consume (memOk_same hsent)) (memOk_same hsent)

theorem memOk_readRecord {die : Nat} {q : LaunchQueue} : (readRecord die q s).memOk :=
  memOk_ite hs (memOk_ite (memOk_stopQueue hs) (memOk_ite (memOk_stopQueue hs) (memOk_ite (memOk_consume hs)
    (memOk_ite (memOk_launchOn hs) (memOk_refuseRecord hs)))))

theorem memOk_feedLaunch {x : LogRecord} : (feedLaunch x s).memOk :=
  memOk_ite (memOk_launchOn (memOk_same hs)) (memOk_same hs)

theorem memOk_resetQueue {base : Nat} (d : Nat) : (resetQueue base d s).memOk :=
  memOk_ite (memOk_principalStore (memOk_principalStore (memOk_same hs))) hs

/-! ## Firmware, flits and images -/

theorem memOk_resumeAll {base : Nat} {p : KeptPart} : (resumeAll base p s).memOk := by
  refine memOk_fold (fun e h => memOk_withCore (fun {u} h => ?_) h) (memOk_same hs)
  split
  · exact memOk_resumeAt h
  · exact h

theorem memOk_takeFlit {f : Flit} : (takeFlit f s).memOk := by
  refine memOk_ite hs ?_
  dsimp only
  generalize hu : writeBytes _ _ s = u
  have hok : u.memOk := hu ▸ memOk_write hs
  split
  · exact memOk_ite (memOk_same hok) hok
  · exact hok

theorem memOk_setSavedRate {share watts cap area : Nat} {x : KeptCore} : (setSavedRate share watts cap area x s).memOk :=
  memOk_storeWords _ _ _ hs

theorem memOk_loadImage {x : Image} {bytes : List (Nat × Byte)} : (loadImage x bytes s).memOk := by
  unfold loadImage
  dsimp only
  generalize hu : writeBytes _ bytes s = u
  have hok : u.memOk := hu ▸ memOk_write hs
  exact memOk_fold (fun _ h => (memOk_same h (setTrack_mem _ _ _) :)) (memOk_fold (fun _ h =>
    memOk_withCore (fun h => memOk_same h) h) (memOk_same hok))

omit hs in
theorem keepSeen_mem (k : Nat) (s t : State) : (keepSeen k s t).mem = t.mem := by
  unfold keepSeen
  dsimp only
  split <;> rfl

theorem memOk_onCommand {name : String} {op : BitVec 8} {ws : List Word} {act : State → Nat × State} {t : State}
    (hact : ∀ {u : State}, u.memOk → (act u).2.memOk) (h : onCommand name op ws s act = .next t) : t.memOk := by
  have hdone : ∀ {u : State}, u.memOk → (reply (act u).1 (act u).2).memOk := fun h => memOk_reply (hact h)
  unfold onCommand at h
  dsimp only at h
  split at h
  · exact Host.Outcome.next.inj h ▸ memOk_of_mem_eq (keepDies_mem _) (hdone hs)
  · split at h
    · split at h
      · exact Host.Outcome.next.inj h ▸ memOk_of_mem_eq (keepSeen_mem _ _ _) (hdone (memOk_same hs))
      · exact nomatch h
    · exact nomatch h

end

end Sys2Proof.Proofs
end

section
/-!
SUPPORT. The words of class A. Two states that show a class A word the same operands come to the same act of it: a wait
for registers, a trap, a run of window registers written, or a hold (R25, R26, R34, R43, R48).
-/

namespace Sys2Proof.Proofs

open Sys2Proof Sys2Proof.Machine Sys2Proof.Laws

/-! ## What a class A word reads -/

/-- The two states show a word of the issuing slot the same window, table, awaited registers and poison marks. -/
structure SameReads (s t : State) : Prop where
  pool : readPool s = readPool t
  base : (cur s).winBase = (cur t).winBase
  size : (cur s).winSize = (cur t).winSize
  table : tableOf s = tableOf t
  pending : pendingRegs s = pendingRegs t
  marks : (cur s).poisoned = (cur t).poisoned

theorem SameReads.refl (s : State) : SameReads s s := ⟨rfl, rfl, rfl, rfl, rfl, rfl⟩

section

variable {s t : State} (h : SameReads s t)
include h

theorem SameReads.rdN (k : Nat) : rdN s k = rdN t k := by
  simp only [Machine.rdN, h.pool, h.base]

theorem SameReads.rd (k : BitVec 7) : rd s k = rd t k := h.rdN k.toNat

theorem SameReads.rdV (v : BitVec 4) : rdV s v = rdV t v :=
  List.map_congr_left fun j _ => h.rdN (8 * v.toNat + j)

theorem SameReads.movIdx (a : BitVec 7) (imm : BitVec 11) : movIdx s a imm = movIdx t a imm := by
  simp only [Machine.movIdx, h.rd]

theorem SameReads.regsOf (u : RegUse) : regsOf s u = regsOf t u := by
  cases u with
  | g k => rfl
  | v i => rfl
  | run b n => rfl
  | idx a imm => simp only [Machine.regsOf, h.movIdx, h.size]

theorem SameReads.boundsOf (u : RegUse) : boundsOf s u = boundsOf t u := by
  cases u with
  | g k => simp only [Machine.boundsOf, h.size]
  | v i => simp only [Machine.boundsOf, h.size]
  | run b n => simp only [Machine.boundsOf, h.size]
  | idx a imm => simp only [Machine.boundsOf, h.movIdx, h.size]

theorem SameReads.boundsFault (us : List RegUse) : boundsFault s us = boundsFault t us := by
  rw [Machine.boundsFault, Machine.boundsFault, funext h.boundsOf]

theorem SameReads.namedRegs (u : Uses) : namedRegs s u = namedRegs t u := by
  rw [Machine.namedRegs, Machine.namedRegs, funext h.regsOf]

theorem SameReads.writtenRegs (u : Uses) : writtenRegs s u = writtenRegs t u := by
  rw [Machine.writtenRegs, Machine.writtenRegs, funext h.regsOf]

theorem SameReads.awaited (u : Uses) : awaited s u = awaited t u := by
  simp only [Machine.awaited, h.namedRegs, h.pending]

theorem SameReads.poisonMark (u : Uses) (reports : Bool) : poisonMark s u reports = poisonMark t u reports := by
  simp only [Machine.poisonMark, h.namedRegs, h.marks]

end

/-! ## The acts of a class A word -/

/-- What a class A word whose operands are `u` comes to in two states. -/
inductive ActsAlike (u : Uses) (s t : State) : Out State → Out State → Prop
  | waits (ks : List Nat) (hks : ks = awaited s u) (hne : ks ≠ []) :
    ActsAlike u s t (waitFor (.regs ks) s) (waitFor (.regs ks) t)
  | reports (p : PoisonMark) : ActsAlike u s t (trapPoison p s) (trapPoison p t)
  | traps (cause : BitVec 5) (v : Word) : ActsAlike u s t (trap cause v s) (trap cause v t)
  | writes (k : Nat) (ws : List Word) (hregs : writtenRegs s u = (List.range ws.length).map (k + ·))
    (hin : ∀ r ∈ writtenRegs s u, r < (cur s).winSize) : ActsAlike u s t (retire (wrRun k ws s)) (retire (wrRun k ws t))
  | holds (turns : Nat) (ws : List (Nat × Word)) : ActsAlike u s t (hold turns ws s) (hold turns ws t)

/-- An operand that is not outside the window names only window registers. -/
theorem lt_winSize_of_mem_regsOf {s : State} {u : RegUse} (h : boundsOf s u = none) {r : Nat} (hr : r ∈ regsOf s u) :
    r < (cur s).winSize := by
  cases u with
  | g k => grind [boundsOf, regsOf]
  | v i => grind [boundsOf, regsOf]
  | run b n => grind [boundsOf, regsOf]
  | idx a imm => grind [boundsOf, regsOf]

theorem lt_winSize_of_written {s : State} {u : Uses} (hsub : u.writes ⊆ u.names) (h : boundsFault s u.names = none)
    {r : Nat} (hr : r ∈ writtenRegs s u) : r < (cur s).winSize := by
  obtain ⟨x, hx, hrx⟩ := List.mem_flatMap.1 hr
  exact lt_winSize_of_mem_regsOf (List.findSome?_eq_none_iff.1 h x (hsub hx)) hrx

/-- The checks before a class A word's own effect come to the same in both states. -/
theorem enter_alike {u : Uses} {s t : State} {k : State → Out State} (h : SameReads s t)
    (hk : awaited s u = [] → boundsFault s u.names = none → ActsAlike u s t (k s) (k t)) :
    ActsAlike u s t (enter u s k) (enter u t k) := by
  unfold enter enterWith
  rw [← h.awaited u, ← h.boundsFault u.names, ← h.poisonMark u false, ite_self, ite_self]
  split
  case isTrue hne => exact .waits _ rfl hne
  case isFalse hno =>
    cases hb : boundsFault s u.names with
    | some v => exact .traps _ _
    | none =>
      cases poisonMark s u false with
      | some p => exact .reports p
      | none => exact hk (not_not.1 hno) hb

section

variable {s t : State} {l : List RegUse}

theorem writesG_alike {d : BitVec 7} {v w : Word} (hb : boundsFault s (.g d :: l) = none) (hv : v = w) :
    ActsAlike ⟨.g d :: l, [.g d]⟩ s t (retireWr d v s) (retireWr d w t) := by
  subst hv
  have hin := fun r (hr : r ∈ writtenRegs s ⟨.g d :: l, [.g d]⟩) =>
    lt_winSize_of_written (List.cons_subset_cons _ (List.nil_subset _)) hb hr
  exact .writes d.toNat [v] rfl hin

theorem writesV_alike {d : BitVec 4} {ws ws' : List Word} (hb : boundsFault s (.v d :: l) = none) (hlen : ws.length = 8)
    (hv : ws = ws') : ActsAlike ⟨.v d :: l, [.v d]⟩ s t (retireV d ws s) (retireV d ws' t) := by
  subst hv
  have hin := fun r (hr : r ∈ writtenRegs s ⟨.v d :: l, [.v d]⟩) =>
    lt_winSize_of_written (List.cons_subset_cons _ (List.nil_subset _)) hb hr
  refine .writes (8 * d.toNat) ws ?_ hin
  rw [hlen]
  rfl

variable (h : SameReads s t)
include h

theorem retireWr_alike {d : BitVec 7} {f : State → Word} (hf : f s = f t) :
    ActsAlike ⟨.g d :: l, [.g d]⟩ s t (enter ⟨.g d :: l, [.g d]⟩ s fun s => retireWr d (f s) s)
      (enter ⟨.g d :: l, [.g d]⟩ t fun s => retireWr d (f s) s) :=
  enter_alike h fun _ hb => writesG_alike hb hf

theorem retireV_alike {d : BitVec 4} {f : State → List Word} (hlen : (f s).length = 8) (hf : f s = f t) :
    ActsAlike ⟨.v d :: l, [.v d]⟩ s t (enter ⟨.v d :: l, [.v d]⟩ s fun s => retireV d (f s) s)
      (enter ⟨.v d :: l, [.v d]⟩ t fun s => retireV d (f s) s) :=
  enter_alike h fun _ hb => writesV_alike hb hlen hf

theorem hold_alike {u : Uses} {n : Nat} {f : State → List (Nat × Word)} (hf : f s = f t) :
    ActsAlike u s t (enter u s fun s => hold n (f s) s) (enter u t fun s => hold n (f s) s) :=
  enter_alike h fun _ _ => hf ▸ .holds n (f s)

theorem addPtr_alike {d a : BitVec 7} {f : State → Int} (hf : f s = f t) :
    ActsAlike ⟨.g d :: l, [.g d]⟩ s t (enter ⟨.g d :: l, [.g d]⟩ s fun s => addPtr d (rd s a) (f s) s)
      (enter ⟨.g d :: l, [.g d]⟩ t fun s => addPtr d (rd s a) (f s) s) := by
  refine enter_alike h fun _ hb => ?_
  simp only [addPtr, ← h.rd, ← hf]
  split
  · exact .traps _ _
  · exact writesG_alike hb rfl

theorem vop_alike (f : BitVec 32 → BitVec 32 → BitVec 32) (d a b : BitVec 4) :
    ActsAlike ⟨[.v d, .v a, .v b], [.v d]⟩ s t (enter ⟨[.v d, .v a, .v b], [.v d]⟩ s fun s => vop f d a b s)
      (enter ⟨[.v d, .v a, .v b], [.v d]⟩ t fun s => vop f d a b s) :=
  retireV_alike h (f := fun s => words32 fun j => f (lane32 (rdV s a) j) (lane32 (rdV s b) j)) (length_words32 _)
    (by simp only [h.rdV])

theorem vcvtVia_alike (f : Fmt) (mode : BitVec 3) (d a : BitVec 4) :
    ActsAlike ⟨[.v d, .v a], [.v d]⟩ s t (enter ⟨[.v d, .v a], [.v d]⟩ s fun s => vcvtVia f mode d a s)
      (enter ⟨[.v d, .v a], [.v d]⟩ t fun s => vcvtVia f mode d a s) := by
  refine enter_alike h fun _ hb => ?_
  simp only [vcvtVia, ← h.rdV]
  exact writesV_alike hb (length_words32 _) rfl

theorem vext_alike (d : BitVec 7) (a : BitVec 4) (b : BitVec 7) :
    ActsAlike (uses (.vext d a b)) s t (execVext d a b s) (execVext d a b t) := by
  refine enter_alike h fun _ hb => ?_
  simp only [← h.rd, ← h.rdV]
  split
  · exact .traps _ _
  · split
    · exact writesG_alike hb rfl
    · exact writesG_alike hb rfl

theorem vins_alike (d : BitVec 4) (a b : BitVec 7) :
    ActsAlike (uses (.vins d a b)) s t (execVins d a b s) (execVins d a b t) := by
  refine enter_alike h fun _ hb => ?_
  simp only [← h.rd, ← h.rdV]
  split
  · exact .traps _ _
  · split
    · exact writesV_alike hb (length_words32 _) rfl
    · exact writesV_alike hb (length_words64 _) rfl

theorem movxs_alike (d a : BitVec 7) (imm : BitVec 11) :
    ActsAlike (uses (.movxs d a imm)) s t (execMovxs d a imm s) (execMovxs d a imm t) := by
  refine enter_alike h fun _ hb => ?_
  rw [← h.movIdx, ← h.rd]
  have hidx : boundsOf s (.idx a imm) = none := List.findSome?_eq_none_iff.1 hb _ (by simp [uses])
  have hregs : writtenRegs s (uses (.movxs d a imm)) = [(movIdx s a imm).toNat] := by
    grind [writtenRegs, uses, regsOf, boundsOf]
  have hsub : (uses (.movxs d a imm)).writes ⊆ (uses (.movxs d a imm)).names := by simp [uses]
  exact .writes (movIdx s a imm).toNat [rd s d] hregs fun r hr => lt_winSize_of_written hsub hb hr

end


@[simp] theorem length_vcmpLanes (ty : Nat) (fi : Int → Int → Bool) (ff : Machine.Num → Machine.Num → Bool) (x y : List Word) :
    (vcmpLanes ty fi ff x y).length = 8 := by
  unfold vcmpLanes
  split <;> simp

@[simp] theorem length_vcmpLanesU (ty : Nat) (f : Nat → Nat → Bool) (x y : List Word) :
    (vcmpLanesU ty f x y).length = 8 := by
  unfold vcmpLanesU
  split <;> simp

/-! ## The class of a word -/

/-- A word is of class A if and only if its opcode is at least 32 (R43). -/
theorem not_classA_of_opcode {w : BitVec 32} {op : BitVec 6} (h : fld w 25 6 = op) (hop : op.toNat < 32) :
    ¬classA w = true := by
  have hbits := toNat_fld w 25 6
  have hbit := toNat_extractLsb'_eq w 30 1
  rw [h] at hbits
  intro hA
  have hone : w.extractLsb' 30 1 = 1 := by simpa [classA] using hA
  rw [hone] at hbit
  have : w.toNat / 2 ^ 30 % 2 = 1 := hbit.symm
  omega

section

variable {op : BitVec 6} {w : BitVec 32} (hop : op.toNat < 32) {d a b : BitVec 7}
include hop

theorem classC_wordRrr {fn : BitVec 4} (h : some (wordRrr op fn d a b) = some w) : ¬classA w = true :=
  not_classA_of_opcode (Option.some.inj h ▸ (fld_wordRrr op d a b fn).1) hop

theorem classC_wordRri {imm : BitVec 11} (h : some (wordRri op d a imm) = some w) : ¬classA w = true :=
  not_classA_of_opcode (Option.some.inj h ▸ (fld_wordRri op d a imm).1) hop

theorem classC_wordRi {imm : BitVec 18} (h : some (wordRi op d imm) = some w) : ¬classA w = true :=
  not_classA_of_opcode (Option.some.inj h ▸ (fld_wordRi op d imm).1) hop

theorem classC_wordJ {disp : BitVec 25} (h : some (wordJ op disp) = some w) : ¬classA w = true :=
  not_classA_of_opcode (Option.some.inj h ▸ (fld_wordJ op disp).1) hop

theorem classC_wordB {cond : BitVec 3} {disp : BitVec 8} (h : some (wordB op cond a b disp) = some w) : ¬classA w = true :=
  not_classA_of_opcode (Option.some.inj h ▸ (fld_wordB op a b cond disp).1) hop

theorem classC_wordBz {cond : BitVec 3} {disp : BitVec 15} (h : some (wordBz op cond a disp) = some w) : ¬classA w = true :=
  not_classA_of_opcode (Option.some.inj h ▸ (fld_wordBz op a cond disp).1) hop

theorem classC_wordS {fn : BitVec 5} {imm : BitVec 20} (h : some (wordS op fn imm) = some w) : ¬classA w = true :=
  not_classA_of_opcode (Option.some.inj h ▸ (fld_wordS op fn imm).1) hop

theorem classC_wordMs {ty : BitVec 8} {fn : BitVec 3} (h : some (wordMs op ty a b fn) = some w) : ¬classA w = true :=
  not_classA_of_opcode (Option.some.inj h ▸ (fld_wordMs op a b ty fn).1) hop

end

/-- A word that may be word 1 of a pair has the same effect in a pair as alone, and comes to the same act in two states that show it the same
operands. -/
theorem execA_alike {i : Instr} {s t : State} (hA : (execA i s).isSome = true) (h : SameReads s t) :
    execA i s = some (exec i s) ∧ ActsAlike (uses i) s t (exec i s) (exec i t) := by
  cases i with
  | add d a b | sub d a b | and d a b | or d a b | xor d a b | andn d a b | shl d a b | shr d a b | sar d a b
  | rol d a b | ror d a b | slt d a b | sltu d a b | seq d a b | min d a b | max d a b | minu d a b | maxu d a b
  | mul d a b | mulh d a b | mulhu d a b | sel d a b | clz d a | ctz d a | popc d a | brev d a | ilv2 d a b
  | ilv3 d a b | dilv2 d a b | dilv3 d a b | extr d a b | depo d a b | bswap d a | mkptr d a b | ptag d a
  | vkey d a b | addi d a imm | andi d a imm | ori d a imm | xori d a imm | shli d a n | shri d a n | sari d a n
  | roli d a n | rori d a n | slti d a imm | ldi d imm | ldih d imm | movx d a imm | faddD d a b | fsubD d a b
  | fmulD d a b | fmaD d a b | fminD d a b | fmaxD d a b | feqD d a b | fltD d a b | fleD d a b | fclassD d a
  | fsgnjD d a b | fsgnjnD d a b | faddS d a b | fsubS d a b | fmulS d a b | fmaS d a b | fminS d a b
  | fmaxS d a b | feqS d a b | fltS d a b | fleS d a b | fclassS d a | fsgnjS d a b | fsgnjnS d a b
  | fcvt rnd d a dst src | vredAddW d a | vredMinW d a | vredMaxW d a | vredMinuW d a | vredMaxuW d a
  | vredAndW d a | vredOrW d a | vredXorW d a | vredFminS d a | vredFmaxS d a | vredFminD d a | vredFmaxD d a
  | vredAddD d a | boxt d a b =>
    unfold exec uses; exact ⟨rfl, retireWr_alike h (by simp only [h.rd, h.rdN, h.rdV, h.movIdx, h.table])⟩
  | vfaddS d a b | vfsubS d a b | vfmulS d a b | vfmaS d a b | vfminS d a b | vfmaxS d a b | vfaddD d a b
  | vfsubD d a b | vfmulD d a b | vfmaD d a b | vfminD d a b | vfmaxD d a b | vbcast d a | vbcastD d a
  | vperm d a b | vcmpEq d a ty | vcmpNe d a ty | vcmpLt d a ty | vcmpGe d a ty | vcmpLtu d a ty | vcmpGeu d a ty
  | vsel d a b | vcvtWS d a mode | vcvtSW d a mode | vcvtSD d a mode | vcvtDS d a mode | vcvtLD d a mode
  | vcvtDL d a mode | vdq d a fmt | vdqSc d a fmt =>
    unfold exec uses; exact ⟨rfl, retireV_alike h (by simp [vfS, vfD, dequantise]) (by simp only [h.rd, h.rdV, h.table])⟩
  | vadd d a b | vsub d a b | vand d a b | vor d a b | vxor d a b | vshl d a b | vshr d a b | vsar d a b
  | vmin d a b | vmax d a b | vminu d a b | vmaxu d a b | vmul d a b | vmulh d a b | vadds d a b | vsubs d a b =>
    unfold exec uses; exact ⟨rfl, vop_alike h _ d a b⟩
  | div d a b | divu d a b | rem d a b | remu d a b | fdivD d a b | fsqrtD d a | fdivS d a b | fsqrtS d a
  | vredFaddS d a | vredFaddD d a | trit d a b | splt d a b =>
    unfold exec uses; exact ⟨rfl, hold_alike h (by simp only [h.rd, h.rdV])⟩
  | vfdivS d a b | vfsqrtS d a | vfdivD d a b | vfsqrtD d a | vq d a mode fmt | vqSc d a mode fmt =>
    unfold exec uses; exact ⟨rfl, hold_alike h (by simp only [h.rdV, h.table])⟩
  | vcvtHS d a mode | vcvtBhS d a mode | vcvtES d a mode => unfold exec uses; exact ⟨rfl, vcvtVia_alike h _ mode d a⟩
  | addp d a b | addpi d a imm => unfold exec uses; exact ⟨rfl, addPtr_alike h (by simp only [h.rd])⟩
  | vext d a b => unfold exec; exact ⟨rfl, vext_alike h d a b⟩
  | vins d a b => unfold exec; exact ⟨rfl, vins_alike h d a b⟩
  | movxs d a imm => unfold exec; exact ⟨rfl, movxs_alike h d a imm⟩
  | _ => exact nomatch hA

theorem execA_isSome {i : Instr} {w : BitVec 32} (henc : encode i = some w) (hA : classA w = true) (s : State) :
    (execA i s).isSome = true := by
  cases i with
  | add _ _ _ | sub _ _ _ | and _ _ _ | or _ _ _ | xor _ _ _ | andn _ _ _ | shl _ _ _ | shr _ _ _ | sar _ _ _
  | rol _ _ _ | ror _ _ _ | slt _ _ _ | sltu _ _ _ | seq _ _ _ | min _ _ _ | max _ _ _ | minu _ _ _ | maxu _ _ _
  | mul _ _ _ | mulh _ _ _ | mulhu _ _ _ | sel _ _ _ | clz _ _ | ctz _ _ | popc _ _ | brev _ _ | ilv2 _ _ _
  | ilv3 _ _ _ | dilv2 _ _ _ | dilv3 _ _ _ | extr _ _ _ | depo _ _ _ | bswap _ _ | mkptr _ _ _ | ptag _ _
  | vkey _ _ _ | addi _ _ _ | andi _ _ _ | ori _ _ _ | xori _ _ _ | shli _ _ _ | shri _ _ _ | sari _ _ _
  | roli _ _ _ | rori _ _ _ | slti _ _ _ | ldi _ _ | ldih _ _ | movx _ _ _ | faddD _ _ _ | fsubD _ _ _ | fmulD _ _ _
  | fmaD _ _ _ | fminD _ _ _ | fmaxD _ _ _ | feqD _ _ _ | fltD _ _ _ | fleD _ _ _ | fclassD _ _ | fsgnjD _ _ _
  | fsgnjnD _ _ _ | faddS _ _ _ | fsubS _ _ _ | fmulS _ _ _ | fmaS _ _ _ | fminS _ _ _ | fmaxS _ _ _ | feqS _ _ _
  | fltS _ _ _ | fleS _ _ _ | fclassS _ _ | fsgnjS _ _ _ | fsgnjnS _ _ _ | fcvt _ _ _ _ _ | vredAddW _ _
  | vredMinW _ _ | vredMaxW _ _ | vredMinuW _ _ | vredMaxuW _ _ | vredAndW _ _ | vredOrW _ _ | vredXorW _ _
  | vredFminS _ _ | vredFmaxS _ _ | vredFminD _ _ | vredFmaxD _ _ | vredAddD _ _ | boxt _ _ _ | vfaddS _ _ _
  | vfsubS _ _ _ | vfmulS _ _ _ | vfmaS _ _ _ | vfminS _ _ _ | vfmaxS _ _ _ | vfaddD _ _ _ | vfsubD _ _ _
  | vfmulD _ _ _ | vfmaD _ _ _ | vfminD _ _ _ | vfmaxD _ _ _ | vbcast _ _ | vbcastD _ _ | vperm _ _ _ | vcmpEq _ _ _
  | vcmpNe _ _ _ | vcmpLt _ _ _ | vcmpGe _ _ _ | vcmpLtu _ _ _ | vcmpGeu _ _ _ | vsel _ _ _ | vcvtWS _ _ _
  | vcvtSW _ _ _ | vcvtSD _ _ _ | vcvtDS _ _ _ | vcvtLD _ _ _ | vcvtDL _ _ _ | vdq _ _ _ | vdqSc _ _ _ | vadd _ _ _
  | vsub _ _ _ | vand _ _ _ | vor _ _ _ | vxor _ _ _ | vshl _ _ _ | vshr _ _ _ | vsar _ _ _ | vmin _ _ _
  | vmax _ _ _ | vminu _ _ _ | vmaxu _ _ _ | vmul _ _ _ | vmulh _ _ _ | vadds _ _ _ | vsubs _ _ _ | div _ _ _
  | divu _ _ _ | rem _ _ _ | remu _ _ _ | fdivD _ _ _ | fsqrtD _ _ | fdivS _ _ _ | fsqrtS _ _ | vredFaddS _ _
  | vredFaddD _ _ | trit _ _ _ | splt _ _ _ | vfdivS _ _ _ | vfsqrtS _ _ | vfdivD _ _ _ | vfsqrtD _ _ | vq _ _ _ _
  | vqSc _ _ _ _ | vcvtHS _ _ _ | vcvtBhS _ _ _ | vcvtES _ _ _ | addp _ _ _ | addpi _ _ _ | vext _ _ _ | vins _ _ _
  | movxs _ _ _ => rfl
  | nop | endThread | yield | swtrap _ | rett | lineup _ | burst _ | fenceRx | fenceEng | fenceSys | waitrx _ =>
    exact (classC_wordS (by decide) henc hA).elim
  | mfs _ _ | mts _ _ | jal _ _ | bar _ _ _ | bara _ _ _ | barw _ _ _ | bari _ _ _ =>
    exact (classC_wordRi (by decide) henc hA).elim
  | jmp _ => exact (classC_wordJ (by decide) henc hA).elim
  | jalr _ _ _ => exact (classC_wordRri (by decide) henc hA).elim
  | beq _ _ _ | bne _ _ _ | blt _ _ _ | bge _ _ _ | bltu _ _ _ | bgeu _ _ _ | bset _ _ _ | bclr _ _ _ =>
    exact (classC_wordB (by decide) henc hA).elim
  | beqz _ _ | bnez _ _ | bltz _ _ | bgez _ _ | bgtz _ _ | blez _ _ =>
    exact (classC_wordBz (by decide) henc hA).elim
  | ldB _ _ _ | ldBu _ _ _ | ldH _ _ _ | ldHu _ _ _ | ldW _ _ _ | ldWu _ _ _ | ldD _ _ _ | ldBRx _ _ _
  | ldBuRx _ _ _ | ldHRx _ _ _ | ldHuRx _ _ _ | ldWRx _ _ _ | ldWuRx _ _ _ | ldDRx _ _ _ | stB _ _ _ | stH _ _ _
  | stW _ _ _ | stD _ _ _ | stBRx _ _ _ | stHRx _ _ _ | stWRx _ _ _ | stDRx _ _ _ | ldv _ _ _ | stv _ _ _
  | gather _ _ _ | scatter _ _ _ | ldvRx _ _ _ | stvRx _ _ _ | gatherRx _ _ _ | scatterRx _ _ _ | amoaddW _ _ _
  | amoandW _ _ _ | amoorW _ _ _ | amoxorW _ _ _ | amominW _ _ _ | amomaxW _ _ _ | amominuW _ _ _ | amomaxuW _ _ _
  | amoswapW _ _ _ | amocasW _ _ _ | amoaddD _ _ _ | amoandD _ _ _ | amoorD _ _ _ | amoxorD _ _ _ | amominD _ _ _
  | amomaxD _ _ _ | amominuD _ _ _ | amomaxuD _ _ _ | amoswapD _ _ _ | amocasD _ _ _ | htake _ _ _ | hgive _ _ _
  | hwait _ _ _ | hstat _ _ _ | hgen _ _ | hring _ _ _ | carsub _ _ _ | carunsub _ _ _ | carskip _ | carpromo _ _
  | carpos _ _ | carwaitRay _ _ | carwaitStart _ _ | carwaitVerdict _ _ | rayput _ _ | rayget _ _ | raysub _ _ _
  | hitpop _ _ | raykill _ _ | lainf _ _ | lafb1 _ _ | lafb2 _ _ | lard _ _ | lawr _ _ | laseed _ _ | laclr _
  | tsreq _ _ _ | tsfill _ _ _ | tswait _ _ _ | watch _ _ _ | tid _ | tblw _ _ | tblr _ _ =>
    exact (classC_wordRrr (by decide) henc hA).elim
  | send _ _ _ | recv _ _ | recva _ | mbox _ => exact (classC_wordMs (by decide) henc hA).elim
  | rottabWrite _ _ | rotpolWrite _ | rotationSwitch | tvecWrite _ _ | bellWrite _ | tblcfgWrite _
  | ebudgetWrite _ | efillWrite _ | footprintWrite _ | blockingReply _ | relaxedAccessComplete _ | holdEnd _
  | messageArrival _ | waitingMessageStart _ | deviceMessageEntry | launchRecord _ _ | dynamicTaskDispatch _
  | lineupRelease _ _ _ | lineupTimeout _ _ _ | fetchLineBroadcast _ | barrierWake _ _ _ _ | l2TlbHit _
  | walkComplete _ | pwake _ _ _ _ | migrationDepart _ | migrationArrival _ | bellRing | preemptionRequest
  | contextSave _ | partitionSaveRecord _ | contextResume _ _ | contextStart _ | dieRemap _ | controllerTake
  | segmentCall _ | blockDelivery _ _ | recordTest | holdClear _ _ | remapEntry _ _ | memControllerDown _ _
  | segmentDescriptorWrite _ | layoutEntryWrite _ _ | xcopy _ | xstripe _ | xscan _ | xfill _ | transferChunk
  | xstripeAtomSwitch | shootdownPassed | scanComplete | mxmac _ | mxwld _ | mxepi _ | mxzero _ | matrixStep
  | energyRefill | kindleEnd | quenchEnd | burstDeadline | rtsort _ | routingRun _ | reproj _ | reprojRun _
  | a2av _ | areduce _ | agather _ | rscatter _ | collectiveStart _ _ | collectiveComplete _ | laClauseUpdate
  | lainfComplete _ | inferenceRecord | cellSoftError _ | hostAccess _ _ _ | qreg _ _ | qreset _ | qremove _
  | ckpt | pcap _ | conn _ _ | attest _ _ | checkpointComplete | jobFaultResume _ _ | afyarFlitReceive _ _
  | linkReplay _ | linkRekey _ | linkTraining _ | firmwareBoot | powerSample _ | thermalLimit _ | traceRingDrain
  | unassignedEncoding _ | postedWriteDrain | watchDrop _ | firmwareImageWrite _ | imageLoad _
  | checkpointSchedule | refusedCommand _ | dieCoresInReset _ => exact nomatch henc

/-- The effect of a class A word in a pair is its effect. -/
theorem execA_eq {i : Instr} {w : BitVec 32} (henc : encode i = some w) (hA : classA w = true) (s : State) :
    execA i s = some (exec i s) := (execA_alike (execA_isSome henc hA s) (SameReads.refl s)).1

/-- A class A word comes to the same act in two states that show it the same operands. -/
theorem exec_alike {i : Instr} {w : BitVec 32} (henc : encode i = some w) (hA : classA w = true) {s t : State}
    (h : SameReads s t) : ActsAlike (uses i) s t (exec i s) (exec i t) := (execA_alike (execA_isSome henc hA s) h).2

/-! ## What a class A word leaves unchanged (R28, R32, R43) -/

/-- `t` is `s` but for the issue, the state of the issuing slot and words of its window. -/
structure LocalTo (s t : State) : Prop where
  rest : t = { s with me := { s.me with pool := t.me.pool, slots := t.me.slots }, iss := t.iss }
  slots : ∀ k, k ≠ s.iss.slot → slotOf t k = slotOf s k
  pool : ∀ j, j < (cur s).winBase ∨ (cur s).winBase + (cur s).winSize ≤ j → spGet 0 t.me.pool j = spGet 0 s.me.pool j
  base : (cur t).winBase = (cur s).winBase
  size : (cur t).winSize = (cur s).winSize
  thread : (cur t).thread = (cur s).thread
  prv : (cur t).prv = (cur s).prv
  tvec : (cur t).tvec = (cur s).tvec
  issuing : t.iss.slot = s.iss.slot

theorem LocalTo.trans {s t u : State} (h : LocalTo s t) (k : LocalTo t u) : LocalTo s u where
  rest := by rw [k.rest, h.rest]
  slots j hj := (k.slots j (h.issuing ▸ hj)).trans (h.slots j hj)
  pool j hj := (k.pool j (by rw [h.base, h.size]; exact hj)).trans (h.pool j hj)
  base := k.base.trans h.base
  size := k.size.trans h.size
  thread := k.thread.trans h.thread
  prv := k.prv.trans h.prv
  tvec := k.tvec.trans h.tvec
  issuing := k.issuing.trans h.issuing

/-- What a class A word may not change of its slot. -/
def fixedPart (c : Slot) : Nat × Nat × Nat × Bool × BitVec 54 := (c.winBase, c.winSize, c.thread, c.prv, c.tvec)

theorem localTo_onCur {f : Slot → Slot} {s : State} (hf : fixedPart (f (cur s)) = fixedPart (cur s)) :
    LocalTo s (onCur f s) := by
  have hcur : fixedPart (cur (onCur f s)) = fixedPart (cur s) := by rw [cur_onCur, hf]
  simp only [fixedPart, Prod.mk.injEq] at hcur
  obtain ⟨hbase, hsize, hthread, hprv, htvec⟩ := hcur
  exact ⟨rfl, fun k hk => slotOf_onCur_other _ _ _ hk, fun _ _ => rfl, hbase, hsize, hthread, hprv, htvec, rfl⟩

theorem localTo_setRes (r : Res) (s : State) : LocalTo s (setRes r s) :=
  ⟨rfl, fun _ _ => rfl, fun _ _ => rfl, rfl, rfl, rfl, rfl, rfl, rfl⟩

theorem pool_wrSlotRun_other (sl k : Nat) (ws : List Word) (s : State) {a : Nat}
    (ha : ∀ j < ws.length, a ≠ (slotOf s sl).winBase + (k + j)) :
    spGet 0 (wrSlotRun sl k ws s).me.pool a = spGet 0 s.me.pool a := by
  induction ws generalizing k s with
  | nil => rfl
  | cons w ws ih =>
    rw [wrSlotRun, ih _ _ fun j hj => ?_, wrSlot_me]
    · exact spGet_set_other _ _ _ _ _ (ha 0 (Nat.succ_pos _))
    · rw [slotOf_wrSlot]
      have := ha (j + 1) (Nat.succ_lt_succ hj)
      omega

theorem localTo_wrRun {k : Nat} {ws : List Word} {s : State} (hin : ∀ j < ws.length, k + j < (cur s).winSize) :
    LocalTo s (wrRun k ws s) := by
  have hframe := wrSlotRun_frame s.iss.slot k ws s
  have hslot : ∀ j, slotOf (wrRun k ws s) j = slotOf s j := fun j => slotOf_wrSlotRun _ _ _ _ _
  have hiss : (wrRun k ws s).iss = s.iss := by rw [wrRun, hframe]
  have hcur : cur (wrRun k ws s) = cur s := by rw [cur, hiss, hslot, cur]
  refine ⟨?_, fun j _ => hslot j, fun j hj => pool_wrSlotRun_other _ _ _ _ ?_, ?_, ?_, ?_, ?_, ?_, ?_⟩
  · rw [wrRun, hframe]
  · intro i hi
    have := hin i hi
    simp only [cur] at hj this
    omega
  all_goals simp only [hcur, hiss]

theorem localTo_advance (s : State) : LocalTo s (advance s) := (localTo_onCur rfl).trans (localTo_setRes _ _)

theorem localTo_takeTrap {cause : BitVec 5} {v : Word} {s : State} (h : (cur s).tvec ≠ 0) :
    LocalTo s (takeTrap cause v s) := by
  rw [takeTrap_handler _ _ _ h]
  exact ((localTo_onCur rfl).trans (localTo_setRes _ _)).trans (localTo_onCur rfl)

/-- Settles O52: each act of a class A word writes registers of the window and the state of its own slot. -/
theorem classAFrame : Obligations.ClassAFrame := by
  intro i w s t henc hA htvec hexec
  have hact := exec_alike henc hA (SameReads.refl s)
  rw [hexec] at hact
  have hlocal : LocalTo s t := by
    cases hact with
    | waits ks hks hne => exact (localTo_onCur rfl).trans (localTo_setRes _ _)
    | reports p =>
      have hl : LocalTo s (onCur (fun c => { c with poisoned := c.poisoned.erase p }) s) := localTo_onCur rfl
      exact hl.trans (localTo_takeTrap (hl.tvec ▸ htvec))
    | traps cause v => exact localTo_takeTrap htvec
    | writes k ws hregs hin =>
      have hrun : ∀ j < ws.length, k + j < (cur s).winSize := fun j hj =>
        hin _ (hregs ▸ List.mem_map.2 ⟨j, List.mem_range.2 hj, rfl⟩)
      exact (localTo_wrRun hrun).trans (localTo_advance _)
    | holds turns ws =>
      exact ((localTo_advance s).trans (localTo_onCur rfl)).trans (localTo_setRes _ _)
  exact ⟨hlocal.rest, hlocal.slots, hlocal.pool, hlocal.base, hlocal.size, hlocal.thread, hlocal.prv, hlocal.tvec,
    hlocal.issuing⟩

end Sys2Proof.Proofs
end

section
/-!
SUPPORT. What every word leaves unchanged: the issue but for its result, the clock, and of every core what R49 keeps for
privilege, and of each of its slots the window and the privilege. One equation per operation of the model; the words
follow from them.
-/

namespace Sys2Proof.Proofs

open Sys2Proof Sys2Proof.Machine Sys2Proof.Laws

/- Many short lemmas that use one another: elaborated side by side, each would hold a thread while it waits for the others. -/
set_option Elab.async false

/-! ## The view of a state that words keep -/

/-- What R49 keeps for privilege, of one core, and the place of its position counter. -/
abbrev Guard : Type :=
  List (BitVec 16) × BitVec 1 × List (BitVec 16) × Option (BitVec 1 × List (BitVec 16)) × BitVec 32 × BitVec 16 ×
    BitVec 48 × BitVec 35 × Nat

/-- The rotation table and policy, the shadow copy, the waiting table, CAP, RATE, the bell's quantum, FOOTPRINT and the
counter's phase. -/
def guardOf (m : Core) : Guard := (m.rot, m.rotPol, m.shadow, m.rotPend, m.cap, m.rate, m.bell, m.footprint, m.phase)

/-- The window and the privilege of a slot. -/
def slotView (c : Slot) : Nat × Nat × Bool := (c.winBase, c.winSize, c.prv)

/-- The part of a core that words keep. -/
def coreView (m : Core) : Guard × (Nat → Nat × Nat × Bool) :=
  (guardOf m, fun k => slotView (spGet emptySlot m.slots k))

/-- The parts of all cores that words keep. -/
def coresView (s : State) : Nat → Guard × (Nat → Nat × Nat × Bool) := fun c => coreView (coreOf s c)

/-- The part of a state that words keep. -/
def view (s : State) : Nat × Issue × Nat × (Nat → Guard × (Nat → Nat × Nat × Bool)) :=
  (s.me.num, { s.iss with res := .running }, s.clock, coresView s)

/-- The view with the other cores written out: an operation that keeps it by definition keeps the view. -/
def localView (s : State) : Nat × Issue × Nat × Sp (Option Core) × Guard × (Nat → Nat × Nat × Bool) :=
  (s.me.num, { s.iss with res := .running }, s.clock, s.others, coreView s.me)

theorem view_of_local {s t : State} (h : localView t = localView s) : view t = view s := by
  simp only [localView, Prod.mk.injEq] at h
  obtain ⟨hnum, hiss, hclock, hothers, hme⟩ := h
  have hcores : coresView t = coresView s := by
    funext c
    simp only [coresView, coreOf, hnum, hothers]
    split
    · exact hme
    · rfl
  rw [view, view, hnum, hiss, hclock, hcores]

theorem view_after {s t u : State} (ht : view t = view s) (h : localView u = localView t) : view u = view s :=
  (view_of_local h).trans ht

theorem view_of_cores {s t : State} (hnum : t.me.num = s.me.num)
    (hiss : ({ t.iss with res := .running } : Issue) = { s.iss with res := .running }) (hclock : t.clock = s.clock)
    (hcores : ∀ c, coreView (coreOf t c) = coreView (coreOf s c)) : view t = view s := by
  have : coresView t = coresView s := funext hcores
  rw [view, view, hnum, hiss, hclock, this]

section

variable {s t : State} (h : view t = view s)
include h

theorem num_of_view : t.me.num = s.me.num := congrArg (·.1) h
theorem issue_of_view : ({ t.iss with res := .running } : Issue) = { s.iss with res := .running } := congrArg (·.2.1) h
theorem clock_of_view : t.clock = s.clock := congrArg (·.2.2.1) h
theorem coresView_of_view : coresView t = coresView s := congrArg (·.2.2.2) h

theorem slot_of_view : t.iss.slot = s.iss.slot := congrArg (·.2.1.slot) h

theorem coreView_of_view : coreView t.me = coreView s.me := by
  have := congrFun (coresView_of_view h) s.me.num
  simpa only [coresView, coreOf, num_of_view h, if_true] using this

theorem guard_of_view : guardOf t.me = guardOf s.me := congrArg (·.1) (coreView_of_view h)

theorem slotView_of_view (k : Nat) : slotView (slotOf t k) = slotView (slotOf s k) :=
  congrFun (congrArg (·.2) (coreView_of_view h)) k

end

theorem view_foldl {α : Type} {f : State → α → State} (hf : ∀ s x, view (f s x) = view s) (l : List α) (s : State) :
    view (l.foldl f s) = view s := by
  induction l generalizing s with
  | nil => rfl
  | cons x l ih => exact (ih (f s x)).trans (hf s x)

/-! ## The state's operations -/

section

variable (s : State)

@[simp] theorem view_setRes (r : Res) : view (setRes r s) = view s := view_of_local rfl

theorem coreView_setSlot {m : Core} {k : Nat} {v : Slot} (hv : slotView v = slotView (spGet emptySlot m.slots k)) :
    coreView { m with slots := spSet emptySlot m.slots k v } = coreView m := by
  refine Prod.ext rfl (funext fun j => ?_)
  by_cases hj : j = k
  · subst hj
    simp only [coreView, spGet_set_same, hv]
  · simp only [coreView, spGet_set_other _ _ _ _ _ hj]

theorem view_of_me {s t : State} (hnum : t.me.num = s.me.num)
    (hiss : ({ t.iss with res := .running } : Issue) = { s.iss with res := .running }) (hclock : t.clock = s.clock)
    (hothers : t.others = s.others) (hme : coreView t.me = coreView s.me) : view t = view s :=
  view_of_local (by rw [localView, localView, hnum, hiss, hclock, hothers, hme])

theorem view_setSlot {k : Nat} {v : Slot} (hv : slotView v = slotView (slotOf s k)) : view (setSlot k v s) = view s :=
  view_of_me rfl rfl rfl rfl (coreView_setSlot hv)

theorem view_onCur {f : Slot → Slot} (hf : slotView (f (cur s)) = slotView (cur s)) : view (onCur f s) = view s :=
  view_setSlot s hf

@[simp] theorem view_wrSlot (sl k : Nat) (v : Word) : view (wrSlot sl k v s) = view s := view_of_local rfl
@[simp] theorem view_wrN (k : Nat) (v : Word) : view (wrN k v s) = view s := view_wrSlot s _ _ _
@[simp] theorem view_wr (k : BitVec 7) (v : Word) : view (wr k v s) = view s := view_wrSlot s _ _ _

@[simp] theorem view_wrSlotRun (sl k : Nat) (ws : List Word) : view (wrSlotRun sl k ws s) = view s := by
  induction ws generalizing k s with
  | nil => rfl
  | cons w ws ih => exact (ih _ _).trans (view_wrSlot s _ _ _)

@[simp] theorem view_wrRun (k : Nat) (ws : List Word) : view (wrRun k ws s) = view s := view_wrSlotRun s _ _ _
@[simp] theorem view_wrV (v : BitVec 4) (ws : List Word) : view (wrV v ws s) = view s := view_wrSlotRun s _ _ _

@[simp] theorem view_wrAll (k : Nat) (l : List (Nat × Word)) : view (wrAll k l s) = view s :=
  view_foldl (fun s _ => view_wrSlot s _ _ _) l s

@[simp] theorem view_advance : view (advance s) = view s := (view_setRes _ _).trans (view_onCur s rfl)
@[simp] theorem view_goTo (p : Nat) : view (goTo p s) = view s := (view_setRes _ _).trans (view_onCur s rfl)

@[simp] theorem view_setCluster (c : Nat) (v : Cluster) : view (setCluster c v s) = view s := view_of_local rfl
@[simp] theorem view_setDie (d : Nat) (v : Die) : view (setDie d v s) = view s := view_of_local rfl
@[simp] theorem view_setTrack (t : Nat) (v : Track) : view (setTrack t v s) = view s := view_of_local rfl
@[simp] theorem view_onLa (f : Automaton → Automaton) : view (onLa f s) = view s := view_of_local rfl
@[simp] theorem view_ctlSend (t : Nat) (what : CtlWhat) : view (ctlSend t what s) = view s := view_of_local rfl
@[simp] theorem view_hPut (h : Nat) (v : Handle) : view (hPut h v s) = view s := view_of_local rfl
@[simp] theorem view_addDrops (n : Nat) : view (addDrops n s) = view s := view_of_local rfl
@[simp] theorem view_askBanks (hs : List Nat) : view (askBanks hs s) = view s := view_of_local rfl
@[simp] theorem view_withRelaxed (l : List Access) : view (withRelaxed l s) = view s := view_of_local rfl
@[simp] theorem view_setSide (i : Nat) (l : List (Word × Nat)) : view (setSide i l s) = view s := view_of_local rfl
@[simp] theorem view_dropVisits (p : RayVisit → Bool) : view (dropVisits p s) = view s := view_of_local rfl
@[simp] theorem view_leaveRay (i : Nat) : view (leaveRay i s) = view s := view_of_local rfl
@[simp] theorem view_setCsub (n : Nat) (x : Option CoreSub) : view (setCsub n x s) = view s := view_of_local rfl
@[simp] theorem view_dropCatches (id : Nat) : view (dropCatches id s) = view s := view_of_local rfl
@[simp] theorem view_kindleFor (n : Nat) : view (kindleFor n s) = view s := view_of_local rfl
@[simp] theorem view_rekindle (n : Nat) : view (rekindle n s) = view s := view_of_local rfl
@[simp] theorem view_setWay (w : Nat) (x : ShadeWay) : view (setWay w x s) = view s := view_of_local rfl

@[simp] theorem view_popDelay : view (popDelay s).2 = view s := by
  unfold popDelay
  split
  · rfl
  · exact view_of_local rfl

@[simp] theorem view_sendNet (m : Message) (held : Bool) : view (sendNet m held s) = view s :=
  view_after (view_popDelay s) rfl

@[simp] theorem view_sendPrincipal (type slot : Nat) (body : List Word) (die : Nat) :
    view (sendPrincipal type slot body die s) = view s := view_sendNet s _ _

@[simp] theorem view_sendFlit (port : Nat) (type : BitVec 8) (dpkg : Nat) (b : Option Nat) :
    view (sendFlit port type dpkg b s) = view s :=
  view_after ((view_popDelay { s with freeUsed := s.freeUsed + 1 }).trans (view_of_local rfl)) rfl

/-! ## Wakes -/

theorem coreView_wakeCore (now : Nat) (p : ParkWhy → Bool) (m : Core) : coreView (wakeCore now p m) = coreView m := by
  refine Prod.ext rfl (funext fun k => ?_)
  have hdef : woken now p emptySlot = emptySlot := rfl
  simp only [coreView, wakeCore_slots, spGet_mapVal _ _ hdef, slotView, woken_winBase, woken_winSize, woken_prv]

@[simp] theorem view_wake (p : ParkWhy → Bool) : view (wake p s) = view s :=
  view_of_me rfl rfl rfl rfl (coreView_wakeCore _ _ _)

theorem spGet_mapKey {α : Type} (d : α) (f : Nat → α → α) (hd : ∀ k, f k d = d) (m : Sp α) (k : Nat) :
    spGet d (m.map fun e => (e.1, f e.1 e.2)) k = f k (spGet d m k) := by
  induction m with
  | nil => exact (hd k).symm
  | cons e m ih =>
    obtain ⟨j, v⟩ := e
    simp only [List.map_cons, spGet_cons, ih]
    split
    case isTrue hk => rw [hk]
    case isFalse => rfl

/-- A change of every other core's record that keeps its view. -/
theorem view_of_mapped {s t : State} {g : Nat → Core → Core} (hg : ∀ k m, coreView (g k m) = coreView m)
    (hothers : t.others = s.others.map fun e => (e.1, e.2.map (g e.1))) (hme : coreView t.me = coreView s.me)
    (hnum : t.me.num = s.me.num) (hiss : ({ t.iss with res := .running } : Issue) = { s.iss with res := .running })
    (hclock : t.clock = s.clock) : view t = view s := by
  refine view_of_cores hnum hiss hclock fun c => ?_
  simp only [coreOf, hnum, hothers, spGet_mapKey none (fun k => Option.map (g k)) fun _ => rfl]
  split
  · exact hme
  · cases spGet none s.others c with
    | none => rfl
    | some m => exact hg c m

@[simp] theorem view_wakeAll (p : ParkWhy → Bool) : view (wakeAll p s) = view s :=
  view_of_mapped (g := fun _ => wakeCore s.clock p) (fun _ _ => coreView_wakeCore _ _ _) rfl (coreView_wakeCore _ _ _)
    rfl rfl rfl

@[simp] theorem view_wakeIn (at_ : Nat → Bool) (p : ParkWhy → Bool) : view (wakeIn at_ p s) = view s := by
  have hothers : (wakeIn at_ p s).others =
      s.others.map fun e => (e.1, e.2.map fun m => if at_ e.1 then wakeCore s.clock p m else m) := by
    refine List.map_congr_left fun e _ => ?_
    by_cases h : at_ e.1 = true
    · simp only [h, if_true]
    · obtain ⟨k, v⟩ := e
      simp only [h]
      cases v <;> rfl
  have hg : ∀ (b : Bool) (m : Core), coreView (if b then wakeCore s.clock p m else m) = coreView m := by
    intro b m
    cases b with
    | false => rfl
    | true => exact coreView_wakeCore _ _ _
  have hnum : (wakeIn at_ p s).me.num = s.me.num := by
    unfold wakeIn
    split <;> rfl
  exact view_of_mapped (g := fun k m => if at_ k then wakeCore s.clock p m else m) (fun k => hg (at_ k)) hothers
    (hg (at_ s.me.num) s.me) hnum rfl rfl

/-! ## Handles, mailboxes and the ends of threads -/

@[simp] theorem view_hSet (h : Nat) (v : Handle) : view (hSet h v s) = view s :=
  (view_wake _ _).trans (view_of_local rfl)
@[simp] theorem view_hFree (h : Nat) : view (hFree h s) = view s := view_hSet s _ _
@[simp] theorem view_hTake (h owner expected : Nat) : view (hTake h owner expected s) = view s := view_hSet s _ _

theorem slotView_mapped {f : Nat × Slot → Nat × Slot} (hf : ∀ e, (f e).1 = e.1 ∧ slotView (f e).2 = slotView e.2)
    (l : Sp Slot) (k : Nat) : slotView (spGet emptySlot (l.map f) k) = slotView (spGet emptySlot l k) := by
  induction l with
  | nil => rfl
  | cons e l ih =>
    obtain ⟨hkey, hview⟩ := hf e
    have hhead : ∀ (e : Nat × Slot) (l : Sp Slot), spGet emptySlot (e :: l) k = if k = e.1 then e.2 else spGet emptySlot l k :=
      fun _ _ => rfl
    rw [List.map_cons, hhead, hhead, hkey]
    split
    · exact hview
    · exact ih

@[simp] theorem view_hSpurn (h : Nat) : view (hSpurn h s) = view s := by
  refine view_of_me rfl rfl rfl rfl (Prod.ext rfl (funext fun k => slotView_mapped (fun e => ?_) _ _))
  split
  · split <;> exact ⟨rfl, rfl⟩
  · exact ⟨rfl, rfl⟩

@[simp] theorem view_hAbandonOne (h : Nat) : view (hAbandonOne h s) = view s := by
  unfold hAbandonOne
  split <;> simp

@[simp] theorem view_hAbandon (k : Nat) : view (hAbandon k s) = view s := view_foldl (fun s h => view_hAbandonOne s h) _ s

@[simp] theorem view_mailboxFreed : view (mailboxFreed s) = view s := view_wakeAll s _

@[simp] theorem view_dropMail (k : Nat) : view (dropMail k s) = view s := by
  unfold dropMail
  dsimp only
  split
  · rfl
  · rw [view_mailboxFreed, view_addDrops]
    exact view_of_local rfl

@[simp] theorem view_dropClaimsIn (thread c : Nat) : view (dropClaimsIn thread c s) = view s := by
  unfold dropClaimsIn
  dsimp only
  split
  · rfl
  · rw [view_wakeIn, view_setCluster]

@[simp] theorem view_dropClaims (thread : Nat) (migrated : Bool) : view (dropClaims thread migrated s) = view s := by
  unfold dropClaims
  split
  · exact view_foldl (fun s e => view_dropClaimsIn s _ _) _ s
  · exact view_dropClaimsIn s _ _

@[simp] theorem view_mapEngines (f : EngCmd → EngCmd) : view (mapEngines f s) = view s :=
  view_of_mapped (g := fun _ => mapCoreEngines f) (fun _ _ => rfl) rfl rfl rfl rfl rfl

@[simp] theorem view_disownEngines (k : Nat) : view (disownEngines k s) = view s :=
  (view_of_local rfl : view (disownEngines k s) = view (mapEngines (fun c =>
    if c.core = s.me.num ∧ c.slot = k then { c with live := false } else c) s)).trans (view_mapEngines _ _)

/-! ## Barriers -/

@[simp] theorem view_barSet (scope id : Nat) (v : Barrier) : view (barSet scope id v s) = view s := by
  unfold barSet
  split <;> exact view_of_local rfl

@[simp] theorem view_barComplete (scope id : Nat) (phase : BitVec 16) : view (barComplete scope id phase s) = view s :=
  view_after (view_popDelay s) rfl

@[simp] theorem view_countArrival (scope id : Nat) : view (countArrival scope id s) = view s := by
  unfold countArrival
  dsimp only
  split <;> simp

@[simp] theorem view_tellPod (id : Nat) : view (tellPod id s) = view s := view_foldl (fun s _ => view_sendFlit s _ _ _ _) _ s

@[simp] theorem view_arriveBar (scope id : Nat) : view (arriveBar scope id s).2.2 = view s := by
  unfold arriveBar
  dsimp only
  split <;> simp

/-! ## Writes of memory and accesses -/

theorem coreView_tracePush (e : TraceEntry) (m : Core) : coreView (tracePush e m) = coreView m := by
  unfold tracePush
  split <;> rfl

@[simp] theorem view_traceAtom (w : Writer) (a : Nat) : view (traceAtom w a s) = view s := by
  unfold traceAtom
  split
  case h_1 c hc =>
    split
    · rfl
    · dsimp only
      split
      case isTrue =>
        refine view_of_me ?_ rfl rfl rfl (coreView_tracePush _ _)
        unfold tracePush
        split <;> rfl
      case isFalse hne =>
        refine view_of_cores rfl rfl rfl fun j => ?_
        by_cases hj : j = c
        · subst hj
          simp only [coreOf, hne, if_false, spGet_set_same, Option.getD_some]
          exact coreView_tracePush _ _
        · simp only [coreOf, spGet_set_other _ _ _ _ _ hj]
  case h_2 => rfl

@[simp] theorem view_writeBytes (w : Writer) (l : List (Nat × Byte)) : view (writeBytes w l s) = view s := by
  unfold writeBytes
  simp only [view_wakeAll, view_askBanks]
  exact (view_foldl (fun s a => view_traceAtom s _ _) _ _).trans (view_of_local rfl)

@[simp] theorem view_readAt (a : Access) (vas : List Nat) : view (readAt a vas s) = view s := view_askBanks s _
@[simp] theorem view_readBanks (a : Access) : view (readBanks a s) = view s := view_askBanks s _

@[simp] theorem view_applyWrites (a : Access) (l : List (Nat × Nat × Byte)) : view (applyWrites a l s) = view s := by
  unfold applyWrites
  dsimp only
  generalize hu : (if (l.filter fun e => !isHost e.2.1).isEmpty = true then s else writeBytes _ _ s) = u
  have hdev : view u = view s := by
    rw [← hu, apply_ite view, view_writeBytes, ite_self]
  split
  · exact hdev
  · exact view_after ((view_popDelay u).trans hdev) rfl

@[simp] theorem view_applyAtoms (ks : List Nat) (a : Access) : view (applyAtoms ks a s).2 = view s :=
  (view_applyWrites _ _ _).trans (view_readAt _ _ _)

@[simp] theorem view_applyAccess (a : Access) : view (applyAccess a s).st = view s := by
  unfold applyAccess
  dsimp only
  split
  case h_3 => split <;> simp
  all_goals simp

theorem slotView_rxWake (now : Nat) (regs : List Nat) (c : Slot) : slotView (rxWake now regs c) = slotView c := by
  unfold rxWake
  split
  · split <;> rfl
  · rfl
  · rfl

@[simp] theorem view_completeRelaxed (a : Access) : view (completeRelaxed a s) = view s := by
  unfold completeRelaxed
  dsimp only
  generalize hu : ({ s with me := { s.me with relaxed := _ } } : State) = u
  have hdone : view u = view s := hu ▸ view_of_local rfl
  refine (view_setSlot _ (slotView_rxWake _ _ _)).trans ?_
  split
  · refine ((view_setSlot _ ?_).trans (view_applyAccess u a)).trans hdone
    rfl
  · exact ((view_wrAll _ _ _).trans (view_applyAccess u a)).trans hdone

@[simp] theorem view_takePosted (p : Posted) : view (takePosted p s) = view s := view_writeBytes s _ _

@[simp] theorem view_postedWake (k : Nat) : view (postedWake k s) = view s := by
  unfold postedWake
  split
  · exact view_setSlot s rfl
  · rfl

@[simp] theorem view_drainPosted (slot : Nat) (atoms : List Nat) : view (drainPosted slot atoms s) = view s := by
  unfold drainPosted
  dsimp only
  split
  · rw [view_postedWake, view_foldl fun s p => view_takePosted s p]
    exact view_of_local rfl
  · rfl

@[simp] theorem view_putRelaxed (a : Access) : view (putRelaxed a s) = view s := view_withRelaxed s _

@[simp] theorem view_settleOne (x : Access × List Nat) : view (settleOne s x) = view s := by
  unfold settleOne
  split <;> simp

@[simp] theorem view_settleAtoms (slot id : Nat) (homes : List Nat) : view (settleAtoms slot id homes s) = view s :=
  (view_drainPosted _ _ _).trans (view_foldl (fun s x => view_settleOne s x) _ _)

@[simp] theorem view_settleBefore (a : Access) : view (settleBefore a s) = view s := view_settleAtoms s _ _ _
@[simp] theorem view_settleParts (ks : List Nat) (a : Access) : view (settleParts ks a s) = view s :=
  view_settleAtoms s _ _ _

@[simp] theorem view_applyOwn (a : Access) : view (applyOwn a s).2 = view s := by
  unfold applyOwn
  dsimp only
  split <;> simp

@[simp] theorem view_drawDelays (host : Bool) (ks : List Nat) : view (drawDelays host ks s).2 = view s := by
  induction ks generalizing s with
  | nil => rfl
  | cons k ks ih => exact (ih _).trans (view_popDelay s)

@[simp] theorem view_drawTimes (host : Bool) (a : Access) : view (drawTimes host a s).2 = view s := by
  unfold drawTimes
  dsimp only
  split <;> simp

@[simp] theorem view_newAccess (rx : Bool) (va : Nat) (act : AccAct) (pages : List Tr) :
    view (newAccess rx va act pages s).2 = view s := by
  unfold newAccess
  dsimp only
  generalize hu : (drawTimes _ _ s).2 = u
  exact view_after (t := u) (hu ▸ view_drawTimes s _ _) rfl

@[simp] theorem view_issueRelaxed (a : Access) : view (issueRelaxed a s) = view s := by
  unfold issueRelaxed
  split <;> simp

/-! ## Rays, the carousel and the handles of words -/

@[simp] theorem view_ctlSubscribe (t e : Nat) : view (ctlSubscribe t e s) = view s := view_of_local rfl

@[simp] theorem view_rayPut (i off n v : Nat) : view (rayPut i off n v s) = view s := view_writeBytes s _ _
@[simp] theorem view_raySetFlag (n i : Nat) : view (raySetFlag n i s) = view s := view_rayPut s _ _ _ _

@[simp] theorem view_rayWake (i : Nat) : view (rayWake i s) = view s := by
  unfold rayWake
  split <;> simp

theorem view_withTest (t u : RayTest) : view (onMe (withTest t u) s) = view s := view_of_local rfl

@[simp] theorem view_openTest (t : RayTest) : view (openTest t s) = view s := by
  obtain ⟨u, v, h⟩ := openTest_eq s t
  rw [h, view_withTest, view_rayPut, view_rayPut]

@[simp] theorem view_nextTest (i : Nat) : view (nextTest i s) = view s := by
  unfold nextTest
  split <;> simp

@[simp] theorem view_raySubGone (x : RaySub) : view (raySubGone x s) = view s := by
  unfold raySubGone
  dsimp only
  rw [apply_ite view, view_nextTest, ite_self, view_rayWake, view_rayPut]
  exact view_of_local rfl

@[simp] theorem view_raySubWithdraw (x : RaySub) : view (raySubWithdraw x s) = view s :=
  (view_ctlSend _ _ _).trans (view_raySubGone s x)

@[simp] theorem view_dropPass (ray start : Nat) : view (dropPass ray start s) = view s := view_setSide s _ _

@[simp] theorem view_lateFirst (i : Nat) : view (lateFirst i s) = view s := by
  unfold lateFirst
  dsimp only
  split <;> simp

@[simp] theorem view_skipRaySub (x : RaySub) : view (skipRaySub x s) = view s := by
  unfold skipRaySub
  dsimp only
  rw [view_raySubWithdraw, view_foldl fun s t => ?_, view_lateFirst]
  rw [view_dropPass]
  split <;> simp

@[simp] theorem view_csubGone (n : Nat) (x : CoreSub) : view (csubGone n x s) = view s := by
  simp [csubGone]

@[simp] theorem view_unstage (x : CoreSub) : view (unstage x s) = view s := by
  unfold unstage
  split <;> simp

@[simp] theorem view_csubWithdraw (n : Nat) (x : CoreSub) : view (csubWithdraw n x s) = view s := by
  simp [csubWithdraw]

@[simp] theorem view_carRequest (promo defer : Bool) (t e : Nat) : view (carRequest promo defer t e s) = view s := by
  unfold carRequest
  dsimp only
  rw [view_ctlSend, view_onCur _ rfl]
  exact view_of_local rfl

@[simp] theorem view_clearSpurned : view (clearSpurned s) = view s := view_onCur s rfl

@[simp] theorem view_ringAdvance (h0 : Nat) (consumer : Bool) : view (ringAdvance h0 consumer s) = view s :=
  view_foldl (fun s _ => view_hPut s _ _) _ s

@[simp] theorem view_formRing (h0 n : Nat) : view (formRing h0 n s) = view s :=
  view_foldl (fun s _ => view_hPut s _ _) _ s

@[simp] theorem view_unring (hs : List Nat) : view (unring hs s) = view s := view_foldl (fun s _ => view_hPut s _ _) _ s

/-! ## The engines' queues -/

@[simp] theorem view_fillWay (w : Nat) (x : ShadeWay) (data : Rec) : view (fillWay w x data s) = view s := by
  simp [fillWay]

@[simp] theorem view_sortAccept (r : Rec) : view (sortAccept r s) = view s := by
  simp [sortAccept]

@[simp] theorem view_reprojAccept (r : Rec) : view (reprojAccept r s) = view s := by
  simp [reprojAccept]

@[simp] theorem view_collAccept (r : Rec) : view (collAccept r s) = view s := by
  simp [collAccept]

@[simp] theorem view_headKindles : view (headKindles s) = view s := by
  unfold headKindles
  split
  · split <;> simp
  · rfl

@[simp] theorem view_mxTryIssue : view (mxTryIssue s) = view s := by
  unfold mxTryIssue
  split
  · split
    · rfl
    · split
      · dsimp only
        split
        · exact view_after (view_popDelay s) rfl
        · rfl
      · exact view_after (view_popDelay s) rfl
  · rfl

@[simp] theorem view_mxAccept (r : Rec) : view (mxAccept r s) = view s := by
  unfold mxAccept
  dsimp only
  rw [view_mxTryIssue, view_headKindles]
  split
  · split
    · rw [view_rekindle, view_hTake]
      exact view_of_local rfl
    · rw [view_hTake]
      exact view_of_local rfl
  · rw [view_hTake]
    exact view_of_local rfl

@[simp] theorem view_transferAccept (expected : Nat) (r src dst : Rec) : view (transferAccept expected r src dst s) = view s :=
  view_after (view_hTake s (cmdHnd (newCmd r src dst s)) 16 expected) rfl

@[simp] theorem view_takeFrame (t : Tr) (place : Word) : view (takeFrame t place s).2 = view s := by
  unfold takeFrame
  split <;> exact view_of_local rfl

@[simp] theorem view_stripeAccept (t : Tr) (r : Rec) : view (stripeAccept t r s) = view s := by
  unfold stripeAccept
  dsimp only
  rw [view_transferAccept]
  generalize hu : writeBytes _ _ (takeFrame t (stripePlace r) s).2 = u
  have hwritten : view u = view s := hu ▸ (view_writeBytes _ _ _).trans (view_takeFrame s t (stripePlace r))
  exact view_after hwritten rfl

/-! ## Another core acting -/

theorem coresView_focus (c : Nat) : coresView (focus c s) = coresView s := by
  unfold focus
  split
  case isTrue => rfl
  case isFalse hne =>
    refine funext fun j => ?_
    by_cases hj : j = c
    · subst hj
      simp only [coresView, coreOf, if_true, hne, if_false]
      rfl
    · by_cases hn : j = s.me.num
      · subst hn
        simp only [coresView, coreOf, if_true, hj, if_false, spGet_set_same, Option.getD_some]
      · simp only [coresView, coreOf, hj, hn, if_false, spGet_set_other _ _ _ _ _ hn, spGet_set_other _ _ _ _ _ hj]

@[simp] theorem focus_num (c : Nat) : (focus c s).me.num = c := by
  unfold focus
  split
  case isTrue h => exact h.symm
  case isFalse => rfl

@[simp] theorem focus_iss (c : Nat) : (focus c s).iss = s.iss := by
  unfold focus
  split <;> rfl

@[simp] theorem focus_clock (c : Nat) : (focus c s).clock = s.clock := by
  unfold focus
  split <;> rfl

/-- A change that keeps the view keeps it with another core acting. -/
theorem view_withCore {f : State → State} (hf : ∀ u, view (f u) = view u) (c : Nat) :
    view (withCore c f s) = view s := by
  have hc := hf (focus c s)
  refine view_of_cores (focus_num _ _) ?_ ?_ (congrFun ?_)
  · rw [withCore, focus_iss, issue_of_view hc, focus_iss]
  · rw [withCore, focus_clock, clock_of_view hc, focus_clock]
  · exact ((coresView_focus _ _).trans (coresView_of_view hc)).trans (coresView_focus s c)

end

/-! ## Memory, and what a word changes of a state -/

/-- A state that a word may leave of `s`: it has the view of `s`, and memory in its canonical form if `s` has it so. -/
structure Like (u s : State) : Prop where
  view : view u = view s
  mem : s.memOk → u.memOk

theorem Like.rfl {s : State} : Like s s := ⟨Eq.refl _, id⟩

theorem Like.trans {s t u : State} (h : Like u t) (k : Like t s) : Like u s := ⟨h.view.trans k.view, fun hs => h.mem (k.mem hs)⟩

theorem like_of_mem {s u : State} (h : view u = view s) (hm : u.mem = s.mem) : Like u s := ⟨h, memOk_of_mem_eq hm⟩

theorem like_of_local {s u : State} (h : localView u = localView s) (hm : u.mem = s.mem) : Like u s :=
  like_of_mem (view_of_local h) hm

theorem like_foldl {α : Type} {f : State → α → State} (hf : ∀ s x, Like (f s x) s) (l : List α) (s : State) :
    Like (l.foldl f s) s :=
  ⟨view_foldl (fun s x => (hf s x).view) l s, memOk_fold fun x h => (hf _ x).mem h⟩

section

variable (s : State)

theorem like_ite {c : Prop} [Decidable c] {u v : State} (hu : Like u s) (hv : Like v s) : Like (if c then u else v) s := by
  split
  · exact hu
  · exact hv

theorem like_withCore {f : State → State} (hf : ∀ u, Like (f u) u) (c : Nat) : Like (withCore c f s) s :=
  ⟨view_withCore s (fun u => (hf u).view) c, memOk_withCore fun {u} h => (hf u).mem h⟩

theorem like_onCur {f : Slot → Slot} (hf : slotView (f (cur s)) = slotView (cur s)) : Like (onCur f s) s :=
  like_of_mem (view_onCur s hf) (onCur_mem _ _)

theorem like_setRes (r : Res) : Like (setRes r s) s := like_of_mem (view_setRes s _) (by simp)
theorem like_mark {r : Res} {f : Slot → Slot} (hf : slotView (f (cur s)) = slotView (cur s)) :
    Like (setRes r (onCur f s)) s := (like_setRes _ _).trans (like_onCur s hf)
theorem like_wrN (k : Nat) (v : Word) : Like (wrN k v s) s := like_of_mem (view_wrN s _ _) (by simp)
theorem like_wr (k : BitVec 7) (v : Word) : Like (wr k v s) s := like_of_mem (view_wr s _ _) (by simp)
theorem like_wrRun (k : Nat) (ws : List Word) : Like (wrRun k ws s) s := like_of_mem (view_wrRun s _ _) (by simp)
theorem like_wrV (v : BitVec 4) (ws : List Word) : Like (wrV v ws s) s := like_of_mem (view_wrV s _ _) (by simp)
theorem like_wrAll (k : Nat) (l : List (Nat × Word)) : Like (wrAll k l s) s :=
  like_of_mem (view_wrAll s _ _) (by simp)
theorem like_advance : Like (advance s) s := like_of_mem (view_advance s) (by simp)
theorem like_goTo (p : Nat) : Like (goTo p s) s := like_of_mem (view_goTo s _) (by simp)
theorem like_setTrack (t : Nat) (v : Track) : Like (setTrack t v s) s := like_of_mem (view_setTrack s _ _) (by simp)
theorem like_onLa (f : Automaton → Automaton) : Like (onLa f s) s := like_of_mem (view_onLa s _) (by simp)
theorem like_setSide (i : Nat) (l : List (Word × Nat)) : Like (setSide i l s) s :=
  like_of_mem (view_setSide s _ _) (by simp)
theorem like_leaveRay (i : Nat) : Like (leaveRay i s) s := like_of_mem (view_leaveRay s _) (by simp)
theorem like_setCsub (n : Nat) (x : Option CoreSub) : Like (setCsub n x s) s :=
  like_of_mem (view_setCsub s _ _) (by simp)
theorem like_kindleFor (n : Nat) : Like (kindleFor n s) s := like_of_mem (view_kindleFor s _) (by simp)
theorem like_rekindle (n : Nat) : Like (rekindle n s) s := like_of_mem (view_rekindle s _) (by simp)
theorem like_setWay (w : Nat) (x : ShadeWay) : Like (setWay w x s) s := like_of_mem (view_setWay s _ _) (by simp)
theorem like_sendNet (m : Message) (held : Bool) : Like (sendNet m held s) s :=
  like_of_mem (view_sendNet s _ _) (by simp)
theorem like_sendPrincipal (type slot : Nat) (body : List Word) (die : Nat) :
    Like (sendPrincipal type slot body die s) s :=
  like_of_mem (view_sendPrincipal s _ _ _ _) (by simp)
theorem like_hSet (h : Nat) (v : Handle) : Like (hSet h v s) s := like_of_mem (view_hSet s _ _) (by simp)
theorem like_hTake (h owner expected : Nat) : Like (hTake h owner expected s) s :=
  like_of_mem (view_hTake s _ _ _) (by simp)
theorem like_hAbandon (k : Nat) : Like (hAbandon k s) s := like_of_mem (view_hAbandon s _) (by simp)
theorem like_mailboxFreed : Like (mailboxFreed s) s := like_of_mem (view_mailboxFreed s) (by simp)
theorem like_dropMail (k : Nat) : Like (dropMail k s) s := like_of_mem (view_dropMail s _) (by simp)
theorem like_dropClaims (thread : Nat) (migrated : Bool) : Like (dropClaims thread migrated s) s :=
  like_of_mem (view_dropClaims s _ _) (by simp)
theorem like_disownEngines (k : Nat) : Like (disownEngines k s) s := like_of_mem (view_disownEngines s _) (by simp)
theorem like_barSet (scope id : Nat) (v : Barrier) : Like (barSet scope id v s) s :=
  like_of_mem (view_barSet s _ _ _) (by simp)
theorem like_arriveBar (scope id : Nat) : Like (arriveBar scope id s).2.2 s :=
  like_of_mem (view_arriveBar s _ _) (by simp)
theorem like_writeBytes (w : Writer) (l : List (Nat × Byte)) : Like (writeBytes w l s) s :=
  ⟨view_writeBytes s _ _, memOk_writeBytes _ _ _⟩
theorem like_applyAccess (a : Access) : Like (applyAccess a s).st s := ⟨view_applyAccess s _, memOk_applyAccess _ _⟩
theorem like_settleBefore (a : Access) : Like (settleBefore a s) s := ⟨view_settleBefore s _, memOk_settleBefore _ _⟩
theorem like_applyOwn (a : Access) : Like (applyOwn a s).2 s := ⟨view_applyOwn s _, fun h => memOk_applyOwn h⟩
theorem like_newAccess (rx : Bool) (va : Nat) (act : AccAct) (pages : List Tr) :
    Like (newAccess rx va act pages s).2 s :=
  like_of_mem (view_newAccess s _ _ _ _) (by simp)
theorem like_issueRelaxed (a : Access) : Like (issueRelaxed a s) s := ⟨view_issueRelaxed s _, fun h => memOk_issueRelaxed h⟩
theorem like_ctlSubscribe (t e : Nat) : Like (ctlSubscribe t e s) s := like_of_mem (view_ctlSubscribe s _ _) (by simp)
theorem like_rayPut (i off n v : Nat) : Like (rayPut i off n v s) s := ⟨view_rayPut s _ _ _ _, fun h => memOk_rayPut h⟩
theorem like_raySubWithdraw (x : RaySub) : Like (raySubWithdraw x s) s :=
  ⟨view_raySubWithdraw s _, fun h => memOk_raySubWithdraw h⟩
theorem like_skipRaySub (x : RaySub) : Like (skipRaySub x s) s := ⟨view_skipRaySub s _, fun h => memOk_skipRaySub h _⟩
theorem like_csubWithdraw (n : Nat) (x : CoreSub) : Like (csubWithdraw n x s) s :=
  like_of_mem (view_csubWithdraw s _ _) (by simp)
theorem like_carRequest (promo defer : Bool) (t e : Nat) : Like (carRequest promo defer t e s) s :=
  like_of_mem (view_carRequest s _ _ _ _) (by simp)
theorem like_clearSpurned : Like (clearSpurned s) s := like_of_mem (view_clearSpurned s) (by simp)
theorem like_ringAdvance (h0 : Nat) (consumer : Bool) : Like (ringAdvance h0 consumer s) s :=
  like_of_mem (view_ringAdvance s _ _) (by simp)
theorem like_formRing (h0 n : Nat) : Like (formRing h0 n s) s := like_of_mem (view_formRing s _ _) (by simp)
theorem like_unring (hs : List Nat) : Like (unring hs s) s := like_of_mem (view_unring s _) (by simp)
theorem like_fillWay (w : Nat) (x : ShadeWay) (data : Rec) : Like (fillWay w x data s) s :=
  like_of_mem (view_fillWay s _ _ _) (by simp)
theorem like_sortAccept (r : Rec) : Like (sortAccept r s) s := like_of_mem (view_sortAccept s _) (by simp)
theorem like_reprojAccept (r : Rec) : Like (reprojAccept r s) s := like_of_mem (view_reprojAccept s _) (by simp)
theorem like_collAccept (r : Rec) : Like (collAccept r s) s := like_of_mem (view_collAccept s _) (by simp)
theorem like_mxTryIssue : Like (mxTryIssue s) s := like_of_mem (view_mxTryIssue s) (by simp)
theorem like_mxAccept (r : Rec) : Like (mxAccept r s) s := like_of_mem (view_mxAccept s _) (by simp)
theorem like_transferAccept (expected : Nat) (r src dst : Rec) : Like (transferAccept expected r src dst s) s :=
  like_of_mem (view_transferAccept s _ _ _ _) (by simp)
theorem like_stripeAccept (t : Tr) (r : Rec) : Like (stripeAccept t r s) s :=
  ⟨view_stripeAccept s _ _, fun h => memOk_stripeAccept h⟩

end

/-! ## What a word comes to -/

/-- The core acting keeps what R49 keeps for privilege, and no slot of it gains privilege. -/
structure Guarded (s t : State) : Prop where
  guard : guardOf t.me = guardOf s.me
  prv : ∀ k, (slotOf s k).prv = false → (slotOf t k).prv = false
  mem : s.memOk → t.memOk

theorem guarded_of_like {s t : State} (h : Like t s) : Guarded s t where
  guard := guard_of_view h.view
  prv k hk := (congrArg (·.2.2) (slotView_of_view h.view k)).trans hk
  mem := h.mem

theorem Guarded.trans {s t u : State} (h : Guarded s t) (k : Guarded t u) : Guarded s u :=
  ⟨k.guard.trans h.guard, fun j hj => k.prv j (h.prv j hj), fun hs => k.mem (h.mem hs)⟩

/-- The word answers a next state: one that is like the state before, or one in which the word has trapped or its thread has ended,
which still grants no privilege. -/
def Does (s : State) (o : Out State) : Prop :=
  ∃ t, o = .next t ∧ (Like t s ∨ Guarded s t ∧ (t.iss.res = .trapped ∨ (cur t).st = .empty))

theorem Does.guarded {s : State} {o : Out State} (h : Does s o) : ∃ t, o = .next t ∧ Guarded s t := by
  obtain ⟨t, ht, hlike | ⟨hguard, -⟩⟩ := h
  · exact ⟨t, ht, guarded_of_like hlike⟩
  · exact ⟨t, ht, hguard⟩

theorem Does.of_like {s u : State} {o : Out State} (h : Does u o) (hu : Like u s) : Does s o := by
  obtain ⟨t, ht, hlike | ⟨hguard, hend⟩⟩ := h
  · exact ⟨t, ht, .inl (hlike.trans hu)⟩
  · exact ⟨t, ht, .inr ⟨(guarded_of_like hu).trans hguard, hend⟩⟩

section

variable {s u : State}

theorem does_next (h : Like u s) : Does s (.next u) := ⟨u, rfl, .inl h⟩

section

variable (h : Like u s)
include h

@[simp] theorem does_retire : Does s (retire u) := does_next ((like_advance u).trans h)
@[simp] theorem does_retireWr (d : BitVec 7) (v : Word) : Does s (retireWr d v u) := does_retire ((like_wr u d v).trans h)
@[simp] theorem does_retireV (d : BitVec 4) (ws : List Word) : Does s (retireV d ws u) :=
  does_retire ((like_wrV u d ws).trans h)
@[simp] theorem does_park (why : ParkWhy) : Does s (park why u) := does_next ((like_mark u rfl).trans h)
@[simp] theorem does_waitFor (why : WaitWhy) : Does s (waitFor why u) := does_next ((like_mark u rfl).trans h)
@[simp] theorem does_forfeit (banks : List Nat) : Does s (forfeit banks u) := does_next ((like_mark u rfl).trans h)
@[simp] theorem does_hold (n : Nat) (ws : List (Nat × Word)) : Does s (hold n ws u) := by
  have hheld := like_onCur (f := fun c => { c with st := .held (holdStop u n), pend := ws }) (advance u) rfl
  exact does_next ((like_setRes _ _).trans (hheld.trans ((like_advance u).trans h)))

end

/-! ### Traps and the end of a thread -/

theorem guarded_endSlot (k : Nat) (s : State) : Guarded s (endSlot k s) := by
  unfold endSlot
  dsimp only
  generalize hu : disownEngines k _ = u
  have hlike : Like u s := by
    rw [← hu]
    exact (like_disownEngines _ _).trans ((like_dropClaims _ _ _).trans ((like_dropMail _ _).trans (like_hAbandon s k)))
  refine (guarded_of_like hlike).trans ⟨rfl, fun j hj => ?_, memOk_of_mem_eq (setSlot_mem _ _ _)⟩
  by_cases hjk : j = k
  · subst hjk
    rw [slotOf_setSlot_same]
    rfl
  · rw [slotOf_setSlot_other _ _ _ _ hjk]
    exact hj

theorem st_endSlot (k : Nat) (s : State) : (slotOf (endSlot k s) k).st = .empty := by
  unfold endSlot
  dsimp only
  rw [slotOf_setSlot_same]
  rfl

theorem slot_endSlot (k : Nat) (s : State) : (endSlot k s).iss.slot = s.iss.slot := by
  unfold endSlot
  dsimp only
  generalize hu : disownEngines k _ = u
  have hlike : Like u s := by
    rw [← hu]
    exact (like_disownEngines _ _).trans ((like_dropClaims _ _ _).trans ((like_dropMail _ _).trans (like_hAbandon s k)))
  rw [setSlot_iss]
  exact (slot_of_view hlike.view : u.iss.slot = s.iss.slot)

theorem guarded_takeTrap (cause : BitVec 5) (v : Word) (s : State) : Guarded s (takeTrap cause v s) := by
  unfold takeTrap
  dsimp only
  generalize hu : setRes .trapped (onCur (trapRegs s.iss cause v) s) = u
  have hlike : Like u s := hu ▸ (like_setRes _ _).trans (like_onCur s rfl)
  refine (guarded_of_like hlike).trans ?_
  split
  · split
    · exact guarded_of_like (like_onCur u rfl)
    · exact (guarded_endSlot _ _).trans (guarded_of_like (like_sendPrincipal _ _ _ _ _))
  · exact guarded_of_like (like_onCur u rfl)

@[simp] theorem does_trap (h : Like u s) (cause : BitVec 5) (v : Word) : Does s (trap cause v u) :=
  ⟨_, rfl, .inr ⟨(guarded_of_like h).trans (guarded_takeTrap cause v u), .inl (takeTrap_res cause v u)⟩⟩

theorem does_trapPoison (p : PoisonMark) : Does s (trapPoison p s) := does_trap (like_onCur s rfl) _ _

/-! ### The checks before a word's own effect -/

theorem does_enterWith {uses : Uses} {priv : Option Word} {reports : Bool} {k : State → Out State} (hk : Does s (k s)) :
    Does s (enterWith uses priv reports s k) := by
  rcases enterWith_cases uses priv reports s k with h | ⟨v, -, h⟩ | ⟨v, -, -, h⟩ | ⟨p, -, h⟩ | ⟨-, -, -, h⟩
  · exact h ▸ does_waitFor .rfl _
  · exact h ▸ does_trap .rfl _ _
  · exact h ▸ does_trap .rfl _ _
  · exact h ▸ does_trapPoison p
  · exact h ▸ hk

theorem does_enter {uses : Uses} {k : State → Out State} (hk : Does s (k s)) : Does s (enter uses s k) :=
  does_enterWith hk

theorem does_enterReporting {uses : Uses} {k : State → Out State} (hk : Does s (k s)) :
    Does s (enterReporting uses s k) := does_enterWith hk

theorem does_ite {c : Prop} [Decidable c] {o o' : Out State} (h : Does s o) (h' : Does s o') :
    Does s (if c then o else o') := by
  split
  · exact h
  · exact h'

theorem does_publish {k : State → Out State} (hk : Does s (k s)) : Does s (publish s k) :=
  does_ite (does_waitFor .rfl _) hk

theorem does_withSel {w : Word} {k : Nat → Nat → State → Out State} (hk : ∀ t e, Does s (k t e s)) :
    Does s (withSel w s k) := by
  unfold withSel
  split
  · exact does_trap .rfl _ _
  · exact hk _ _

theorem does_withRay {w : Word} {k : Nat → State → Out State} (hk : ∀ i, Does s (k i s)) : Does s (withRay w s k) :=
  does_ite (does_trap .rfl _ _) (hk _)

theorem does_withKey {a : BitVec 7} {k : Nat → State → Out State} (hk : ∀ i, Does s (k i s)) : Does s (withKey a s k) :=
  does_ite (does_trap .rfl _ _) (hk _)

theorem does_onRecords {l : List Nat} {k : State → Out State} (hk : Does s (k s)) : Does s (onRecords l s k) :=
  does_ite (does_forfeit .rfl _) hk

theorem does_onRecord {i : Nat} {k : State → Out State} (hk : Does s (k s)) : Does s (onRecord i s k) := does_onRecords hk

theorem does_branch (taken : Bool) (disp : Int) (h : Like u s) : Does s (branch taken disp u) :=
  does_ite (does_next ((like_goTo _ _).trans h)) (does_retire h)

/-! ### Accesses of memory -/

theorem does_finishAccess (a : Access) : Does s (finishAccess a s) := by
  unfold finishAccess
  dsimp only
  have hlike : Like (applyAccess a (settleBefore a s)).st s :=
    (like_applyAccess _ _).trans (like_settleBefore s a)
  exact does_ite (does_trap hlike _ _) (does_ite (does_park hlike _) (does_retire ((like_wrAll _ _ _).trans hlike)))

theorem does_inTurn {v : State} {o held : Out State} (h : Does s o) (h' : Does s held) : Does s (inTurn v o held) := by
  unfold inTurn
  split
  · exact h
  · exact does_ite h' h

theorem does_issueBlocking (a : Access) : Does s (issueBlocking a s) := by
  unfold issueBlocking
  dsimp only
  generalize hp : (if a.parts.isEmpty = true then (a, s) else applyOwn a s) = p
  have hlike : Like p.2 s := by
    rw [← hp, apply_ite Prod.snd]
    exact like_ite s .rfl (like_applyOwn s a)
  exact (does_ite (does_inTurn (does_finishAccess _) (does_waitFor .rfl _)) (does_waitFor .rfl _)).of_like hlike

theorem does_issueAccess (rx : Bool) (va : Nat) (act : AccAct) (pages : List Tr) : Does s (issueAccess rx va act pages s) := by
  unfold issueAccess
  extract_lets slot m u
  have hlike : Like u s := like_of_local rfl rfl
  refine does_ite (does_waitFor hlike _) ?_
  have hnew : Like (newAccess rx va act pages u).2 s := (like_newAccess u rx va act pages).trans hlike
  exact does_ite (does_retire ((like_issueRelaxed _ _).trans hnew)) ((does_issueBlocking _).of_like hnew)

theorem does_onCheck {c : Chk} {k : List Tr → State → Out State} (hk : ∀ pages, Does s (k pages s)) :
    Does s (onCheck c s k) := by
  cases c with
  | ok pages => exact hk pages
  | trap cause v => exact does_trap (like_onCur s rfl) _ _
  | miss va kind => exact does_park .rfl _
  | migrate d m => exact does_waitFor .rfl _
  | forfeit bs => exact does_forfeit .rfl _

theorem does_access (kind : AccKind) (rx vec : Bool) (va : Nat) (act : AccAct) : Does s (access kind rx vec va act s) :=
  does_onCheck fun _ => does_issueAccess _ _ _ _

theorem does_scalar (kind : AccKind) (rx : Bool) (n : Nat) (base : Word) (off : Int) (act : AccAct) :
    Does s (scalar kind rx n base off act s) :=
  does_ite (does_trap .rfl _ _) (does_ite (does_trap .rfl _ _) (does_access _ _ _ _ _))

theorem does_amo (op : AmoOp) (w : Nat) (d a b : BitVec 7) : Does s (amo op w d a b s) :=
  does_ite (does_trap .rfl _ _) (does_ite (does_trap .rfl _ _) (does_access _ _ _ _ _))

theorem does_vecBase {p : Word} {imm : BitVec 7} {k : Nat → State → Out State} (hk : ∀ base, Does s (k base s)) :
    Does s (vecBase p imm s k) :=
  does_ite (does_trap .rfl _ _) (does_ite (does_trap .rfl _ _) (does_ite (does_trap .rfl _ _) (hk _)))

theorem does_loadVec (rx : Bool) (d : BitVec 4) (a imm : BitVec 7) : Does s (loadVec rx d a imm s) :=
  does_vecBase fun _ => does_access _ _ _ _ _

theorem does_storeVec (rx : Bool) (ws : List Word) (p : Word) (imm : BitVec 7) : Does s (storeVec rx ws p imm s) :=
  does_vecBase fun _ => does_access _ _ _ _ _

theorem does_indexedElems {p : Word} {ix : List Int} {k : List (Nat × Bool) → State → Out State}
    (hk : ∀ es, Does s (k es s)) : Does s (indexedElems p ix s k) := by
  unfold indexedElems
  dsimp only
  split
  · exact does_trap .rfl _ _
  · split
    · exact does_trap .rfl _ _
    · exact does_ite (does_trap .rfl _ _) (hk _)

theorem does_gatherVec (rx : Bool) (d : BitVec 4) (a : BitVec 7) (vb : BitVec 4) : Does s (gatherVec rx d a vb s) :=
  does_indexedElems fun _ => does_access _ _ _ _ _

theorem does_scatterVec (rx : Bool) (d : BitVec 4) (a : BitVec 7) (vb : BitVec 4) : Does s (scatterVec rx d a vb s) :=
  does_indexedElems fun _ => does_access _ _ _ _ _

/-! ### Pushes to the engines -/

theorem does_pushChecked {bad : Option Nat} {k : State → Out State} (hk : Does s (k s)) : Does s (pushChecked bad s k) := by
  unfold pushChecked
  split
  · exact does_trap .rfl _ _
  · exact hk

theorem does_pushTail {h : Nat} {full : Bool} {q : QueueId} {accept : State → State} (hu : Like u s)
    (ha : Like (accept u) u) : Does s (pushTail h full q accept u) :=
  does_ite (does_trap hu _ _) (does_ite (does_park hu _) (does_retire (ha.trans hu)))

theorem does_pushSort (r : Rec) : Does s (pushSort r s) :=
  does_ite (does_trap .rfl _ _) (does_pushChecked (does_pushTail .rfl (like_sortAccept s r)))

theorem does_pushReproj (r : Rec) : Does s (pushReproj r s) :=
  does_ite (does_trap .rfl _ _) (does_pushChecked (does_pushTail .rfl (like_reprojAccept s r)))

theorem does_collTail (bad : Option Nat) (r : Rec) : Does s (collTail bad r s) :=
  does_pushChecked (does_pushTail .rfl (like_collAccept s r))

theorem does_pushCollective (r : Rec) : Does s (pushCollective r s) := by
  unfold pushCollective
  split
  · exact does_collTail _ r
  · exact does_collTail _ r
  · exact does_collTail _ r
  · exact does_collTail _ r
  · exact does_trap .rfl _ _

theorem does_mxPushTail (r : Rec) (al : Option Nat) : Does s (mxPushTail r al s) := by
  unfold mxPushTail
  split
  · exact does_trap .rfl _ _
  · exact does_pushTail .rfl (like_mxAccept s r)

theorem does_pushMatrix (r : Rec) : Does s (pushMatrix r s) := by
  unfold pushMatrix
  split
  · exact does_pushChecked (does_mxPushTail r _)
  · exact does_pushChecked (does_mxPushTail r _)
  · exact does_pushChecked (does_mxPushTail r _)
  · exact does_pushChecked (does_mxPushTail r _)
  · exact does_trap .rfl _ _

theorem does_pushCopy (r : Rec) : Does s (pushCopy r s) :=
  does_pushChecked (does_pushTail .rfl (like_transferAccept s _ _ _ _))

theorem does_pushScan (r : Rec) : Does s (pushScan r s) :=
  does_pushChecked (does_pushTail .rfl (like_transferAccept s _ _ _ _))

theorem does_pushStripe (r : Rec) : Does s (pushStripe r s) := by
  refine does_pushChecked ?_
  extract_lets va
  split
  · split
    · exact does_trap (like_onCur s rfl) _ _
    · exact does_park .rfl _
  · rename_i t _
    extract_lets u
    have hlike : Like u s := like_of_local rfl rfl
    exact does_ite (does_trap hlike _ _) (does_ite (does_trap hlike _ _) (does_ite (does_trap hlike _ _)
      (does_ite (does_trap hlike _ _) (does_pushTail hlike (like_stripeAccept u t r)))))

theorem does_pushTransfer (r : Rec) : Does s (pushTransfer r s) := by
  unfold pushTransfer
  split
  · exact does_pushCopy r
  · exact does_pushStripe r
  · exact does_pushScan r
  · exact does_pushCopy r
  · exact does_trap .rfl _ _

theorem does_dscWrite (r : Rec) : Does s (dscWrite r s) := by
  unfold dscWrite
  dsimp only
  refine does_ite (does_trap .rfl _ _) ?_
  split
  · exact does_trap .rfl _ _
  · exact does_ite (does_park .rfl _) (does_retire (like_setTrack s _ _))

theorem does_layoutWrite (n : Nat) (e : Rec) : Does s (layoutWrite n e s) :=
  does_pushChecked (does_retire (like_of_local rfl rfl))

theorem does_pushPort {off : Nat} {r : Rec} {o : Out State} (h : pushPort off r s = some o) : Does s o := by
  unfold pushPort at h
  split at h
  · exact Option.some.inj h ▸ does_pushMatrix r
  · exact Option.some.inj h ▸ does_pushTransfer r
  · exact Option.some.inj h ▸ does_pushSort r
  · exact Option.some.inj h ▸ does_pushCollective r
  · exact Option.some.inj h ▸ does_dscWrite r
  · exact Option.some.inj h ▸ does_pushReproj r
  · exact nomatch h

theorem does_stvAt (p : Word) (base : Nat) (ws : List Word) (imm : BitVec 7) : Does s (stvAt p base ws imm s) := by
  refine does_ite ?_ (does_ite (does_layoutWrite _ _) (does_storeVec _ _ _ _))
  cases h : pushPort (base - Config.controlWindow) (recOf ws) s with
  | some o => exact does_pushPort h
  | none => exact does_storeVec _ _ _ _

/-! ### The words of class C, by their chapters -/

theorem guarded_ended (s : State) : Guarded s (setRes .retired (endSlot s.iss.slot s)) :=
  (guarded_endSlot _ s).trans (guarded_of_like (like_setRes _ _))

theorem st_ended (s : State) : (cur (setRes .retired (endSlot s.iss.slot s))).st = .empty := by
  have hslot : (setRes .retired (endSlot s.iss.slot s)).iss.slot = s.iss.slot := slot_endSlot _ s
  rw [cur, hslot]
  exact st_endSlot s.iss.slot s

theorem does_endThread : Does s (execEndThread s) := by
  have hend : Does s (.next (setRes .retired (endSlot s.iss.slot s))) :=
    ⟨_, rfl, .inr ⟨guarded_ended s, .inr (st_ended s)⟩⟩
  exact does_enterReporting (does_ite (does_waitFor .rfl _) hend)

theorem does_yield : Does s (execYield s) :=
  does_enter (does_next ((like_onCur (advance s) rfl).trans (like_advance s)))

theorem does_rett : Does s (execRett s) := does_enter (does_next (like_mark s rfl))

theorem does_lineup (n : BitVec 8) : Does s (execLineup n s) :=
  does_enter (does_ite (does_retire (like_onCur s rfl)) (does_park .rfl _))

theorem does_burst (n : BitVec 16) : Does s (execBurst n s) := by
  refine does_enter ?_
  extract_lets m u
  have hlike : Like u s := like_of_local rfl rfl
  refine does_retire ?_
  split
  · exact (like_kindleFor _ _).trans hlike
  · exact ((like_mxTryIssue _).trans (like_rekindle _ _)).trans hlike
  · exact hlike

theorem does_fence (kind n : Nat) : Does s (fence kind n s) := does_ite (does_retire .rfl) (does_waitFor .rfl _)

theorem does_mfs (d : BitVec 7) (sr : BitVec 12) : Does s (execMfs d sr s) := by
  refine does_enter ?_
  split
  · exact does_retireWr .rfl _ _
  · exact does_trap .rfl _ _

theorem does_jal (d : BitVec 7) (imm : BitVec 18) : Does s (execJal d imm s) :=
  does_enter (does_branch _ _ (like_wr s _ _))

theorem does_jalr (d a : BitVec 7) (imm : BitVec 11) : Does s (execJalr d a imm s) :=
  does_enter (does_ite (does_trap .rfl _ _) (does_ite (does_trap .rfl _ _)
    (does_next ((like_goTo _ _).trans (like_wr s _ _)))))

theorem does_takeStage (d : BitVec 7) (h : Nat) (ring : Option Nat) (consumer : Bool) (hu : Like u s) :
    Does s (takeStage d h ring consumer u) := by
  unfold takeStage
  refine does_ite (does_park hu _) ?_
  extract_lets v w
  have hv : Like v s := (like_hSet u _ _).trans hu
  have hw : Like w s := by
    cases ring with
    | none => exact hv
    | some h0 => exact (like_ringAdvance v h0 consumer).trans hv
  exact does_retireWr hw _ _

theorem does_htake (d a b : BitVec 7) : Does s (execHtake d a b s) := by
  refine does_enter ?_
  extract_lets spurned u w
  have hu : Like u s := like_clearSpurned s
  split
  · exact does_trap hu _ _
  · refine does_ite (does_trap hu _ _) ?_
    extract_lets
    split
    · exact does_ite (does_trap hu _ _) (does_ite (does_trap hu _ _) (does_takeStage _ _ _ _ hu))
    · exact does_ite (does_trap hu _ _) (does_takeStage _ _ _ _ hu)

theorem does_hgive (d a b : BitVec 7) : Does s (execHgive d a b s) := by
  refine does_enter ?_
  extract_lets w
  split
  · refine does_ite (does_trap .rfl _ _) (does_ite (does_trap .rfl _ _) ?_)
    split
    · exact does_publish (does_retireWr (like_hSet s _ _) _ _)
    · exact does_trap .rfl _ _
  · exact does_trap .rfl _ _

theorem does_hwait (d a b : BitVec 7) : Does s (execHwait d a b s) := by
  refine does_enter ?_
  extract_lets u w
  have hu : Like u s := like_clearSpurned s
  split
  · exact does_ite (does_trap hu _ _) (does_ite (does_trap hu _ _) (does_ite (does_retireWr hu _ _) (does_park hu _)))
  · exact does_trap hu _ _

theorem does_hstat (d a b : BitVec 7) : Does s (execHstat d a b s) :=
  does_enter (does_ite (does_trap .rfl _ _) (does_ite (does_trap .rfl _ _) (does_retireWr .rfl _ _)))

theorem does_hgen (d a : BitVec 7) : Does s (execHgen d a s) :=
  does_enter (does_ite (does_trap .rfl _ _) (does_retireWr .rfl _ _))

theorem does_hring (d a b : BitVec 7) : Does s (execHring d a b s) :=
  does_enter (does_ite (does_trap .rfl _ _) (does_ite
    (does_ite (does_trap .rfl _ _) (does_retireWr (like_unring s _) _ _))
    (does_ite (does_trap .rfl _ _) (does_ite (does_trap .rfl _ _) (does_ite (does_trap .rfl _ _)
      (does_retireWr (like_formRing s _ _) _ _))))))

theorem does_send (ty : BitVec 8) (a b : BitVec 7) : Does s (execSend ty a b s) := by
  have hreserve : ∀ u : State, Like { u with me := { u.me with reserved := u.me.reserved + 1 } } u :=
    fun _ => like_of_local rfl rfl
  exact does_enter (does_ite (does_trap .rfl _ _) (does_ite (does_trap .rfl _ _) (does_publish (does_ite (does_park .rfl _)
    (does_retire ((like_sendNet _ _ _).trans (like_withCore s hreserve _)))))))

theorem does_recvWhere (b : BitVec 7) (want : Message → Bool) : Does s (recvWhere b want s) := by
  unfold recvWhere
  split
  · rename_i x _
    have hleft : Like { s with me := { s.me with mbox := s.me.mbox.erase x } } s := like_of_local rfl rfl
    exact does_retire (((like_wrRun _ _ _).trans (like_mailboxFreed _)).trans hleft)
  · exact does_park .rfl _

theorem does_bar (d : BitVec 7) (scope : BitVec 3) (id : BitVec 7) : Does s (execBar d scope id s) := by
  refine does_enter (does_ite (does_trap .rfl _ _) (does_publish ?_))
  dsimp only
  generalize hr : arriveBar scope.toNat id.toNat s = r
  have hlike : Like (advance (wr d (r.1.setWidth 64) r.2.2)) s :=
    (like_advance _).trans ((like_wr _ _ _).trans (hr ▸ like_arriveBar s _ _))
  refine does_ite (does_next hlike) (does_next ((like_onCur _ ?_).trans hlike))
  rfl

theorem does_bara (d : BitVec 7) (scope : BitVec 3) (id : BitVec 7) : Does s (execBara d scope id s) :=
  does_enter (does_ite (does_trap .rfl _ _) (does_publish (does_retireWr (like_arriveBar s _ _) _ _)))

theorem does_barw (d : BitVec 7) (scope : BitVec 3) (id : BitVec 7) : Does s (execBarw d scope id s) :=
  does_enter (does_ite (does_park .rfl _) (does_retire .rfl))

theorem does_bari (d : BitVec 7) (scope : BitVec 3) (id : BitVec 7) : Does s (execBari d scope id s) := by
  unfold execBari
  exact does_enterWith (does_ite (does_trap .rfl _ _) (does_ite (does_trap .rfl _ _) (does_retire (like_barSet s _ _ _))))

theorem does_carsub (d a b : BitVec 7) : Does s (execCarsub d a b s) := by
  refine does_enter (does_withSel fun t e => ?_)
  extract_lets w seg h
  refine does_ite (does_trap .rfl _ _) (does_ite (does_trap .rfl _ _) (does_ite (does_park .rfl _) ?_))
  split
  · exact does_park .rfl _
  · exact does_retireWr ((like_setCsub _ _ _).trans ((like_ctlSubscribe _ _ _).trans (like_hTake s _ _ _))) _ _

theorem does_carunsub (d a b : BitVec 7) : Does s (execCarunsub d a b s) := by
  refine does_enter (does_withSel fun t e => ?_)
  extract_lets n
  split
  · exact does_ite (does_retireWr (like_csubWithdraw s _ _) _ _) (does_retireWr .rfl _ _)
  · exact does_retireWr .rfl _ _

theorem does_carskip (a : BitVec 7) : Does s (execCarskip a s) := by
  refine does_enter (does_withSel fun t e => does_onRecords ?_)
  refine does_retire ((like_carRequest _ _ _ _ _).trans ((like_foldl (fun s x => like_skipRaySub s x) _ _).trans
    (like_foldl (fun s n => ?_) _ s)))
  split
  · exact like_ite s (like_csubWithdraw s _ _) .rfl
  · exact .rfl

theorem does_carpromo (a b : BitVec 7) : Does s (execCarpromo a b s) :=
  does_enter (does_withSel fun _ _ => does_retire (like_carRequest s _ _ _ _))

theorem does_carpos (d a : BitVec 7) : Does s (execCarpos d a s) :=
  does_enter (does_withSel fun _ _ => does_retireWr .rfl _ _)

theorem does_carwaitRay (d a : BitVec 7) : Does s (execCarwaitRay d a s) :=
  does_enter (does_withRay fun _ => does_ite (does_retireWr .rfl _ _)
    (does_ite (does_onRecord (does_retireWr .rfl _ _)) (does_park .rfl _)))

theorem does_carwaitStart (d a : BitVec 7) : Does s (execCarwaitStart d a s) := by
  refine does_enter (does_withSel fun t e => ?_)
  split
  · have hlike := like_onCur (f := fun c => { c with started := none }) s rfl
    exact does_ite (does_retireWr hlike _ _) (does_park hlike _)
  · exact does_park .rfl _

theorem does_carwaitVerdict (d a : BitVec 7) : Does s (execCarwaitVerdict d a s) := by
  refine does_enter (does_withSel fun t e => ?_)
  split
  · exact does_ite (does_retireWr .rfl _ _) (does_ite (does_park .rfl _) (does_retireWr .rfl _ _))
  · exact does_retireWr .rfl _ _

/-- The live rays of a core, set. -/
def withLive (l : List Nat) (m : Core) : Core := { m with live := l }

/-- The ray subscriptions of a core, set. -/
def withRaySubs (l : List RaySub) (m : Core) : Core := { m with raySubs := l }

theorem like_withLive (l : List Nat) (u : State) : Like (onMe (withLive l) u) u := like_of_local rfl rfl

theorem like_withRaySubs (l : List RaySub) (u : State) : Like (onMe (withRaySubs l) u) u := like_of_local rfl rfl

theorem does_rayput (d : BitVec 4) (a : BitVec 7) : Does s (execRayput d a s) := by
  refine does_enter (does_withRay fun i => does_ite (does_trap .rfl _ _) (does_onRecord ?_))
  show Does s (retire (onMe (withLive _) (setSide i [] (writeBytes _ _ s))))
  exact does_retire ((like_withLive _ _).trans ((like_setSide _ _ _).trans (like_writeBytes s _ _)))

theorem does_rayget (d : BitVec 4) (a : BitVec 7) : Does s (execRayget d a s) :=
  does_enter (does_withRay fun _ => does_onRecord (does_retireV .rfl _ _))

theorem does_raysub (d a b : BitVec 7) : Does s (execRaysub d a b s) := by
  refine does_enter (does_withSel fun t e => does_withRay fun i => ?_)
  extract_lets kind dist
  refine does_ite (does_trap .rfl _ _) (does_ite (does_trap .rfl _ _) (does_onRecord ?_))
  split
  · extract_lets u
    have hlike : Like u s := like_ite s (like_rayPut s _ _ _ _) .rfl
    exact does_retireWr hlike _ _
  · split
    · exact does_retireWr .rfl _ _
    · show Does s (retireWr d _ (onMe (withRaySubs _) (ctlSubscribe t e (rayPut i _ 4 _ s))))
      exact does_retireWr ((like_withRaySubs _ _).trans ((like_ctlSubscribe _ _ _).trans (like_rayPut s _ _ _ _))) _ _

theorem does_hitpop (d a : BitVec 7) : Does s (execHitpop d a s) := by
  refine does_enter (does_withRay fun i => ?_)
  split
  · exact does_ite (does_retireWr .rfl _ _)
      (does_onRecord (does_ite (does_retireWr (like_setSide s _ _) _ _) (does_retireWr .rfl _ _)))
  · exact does_retireWr .rfl _ _

theorem does_raykill (d a : BitVec 7) : Does s (execRaykill d a s) := by
  refine does_enter (does_withRay fun i => does_ite (does_retireWr .rfl _ _) (does_onRecord ?_))
  show Does s (retireWr d _ (onMe (withLive _) (setSide i [] (List.foldl _ (leaveRay i s) _))))
  exact does_retireWr ((like_withLive _ _).trans ((like_setSide _ _ _).trans
    ((like_foldl (fun s x => like_raySubWithdraw s x) _ _).trans (like_leaveRay s i)))) _ _

theorem does_lainf (d a : BitVec 4) : Does s (execLainf d a s) := by
  refine does_enter ?_
  split
  · exact does_trap .rfl _ _
  · exact does_waitFor .rfl _

theorem does_lafb (op : Nat) (d : BitVec 7) (a : BitVec 4) : Does s (lafb op d a s) :=
  does_ite (does_park .rfl _) (does_retireWr (like_onLa s _) _ _)

theorem does_laDrained (form d : Nat) (a b : Word) : Does s (laDrained form d a b s) := by
  refine does_ite ?_ (does_waitFor .rfl _)
  unfold laAct
  split
  · exact does_ite (does_trap .rfl _ _) (does_retire (like_wrN s _ _))
  · exact does_retire (like_onLa s _)
  · exact does_retire (like_onLa s _)
  · exact does_retire (like_onLa s _)

theorem does_tsreq (d a : BitVec 7) (b : BitVec 4) : Does s (execTsreq d a b s) := by
  refine does_enter (does_withKey fun key => ?_)
  dsimp only
  split
  · exact does_ite (does_retireWr (like_wrV s _ _) _ _) (does_retireWr .rfl _ _)
  · split
    · exact does_retireWr (like_setWay s _ _) _ _
    · exact does_retireWr .rfl _ _

theorem does_tsfill (d a : BitVec 7) (b : BitVec 4) : Does s (execTsfill d a b s) := by
  refine does_enter (does_withKey fun key => ?_)
  split
  · exact does_ite (does_publish (does_retireWr (like_fillWay s _ _ _) _ _)) (does_retireWr .rfl _ _)
  · exact does_retireWr .rfl _ _

theorem does_tswait (d a : BitVec 7) (b : BitVec 4) : Does s (execTswait d a b s) := by
  refine does_enter (does_withKey fun key => ?_)
  split
  · exact does_ite (does_retireWr (like_wrV s _ _) _ _) (does_park .rfl _)
  · exact does_retireWr .rfl _ _

theorem does_watch (d a b : BitVec 7) : Does s (execWatch d a b s) :=
  does_enter (does_ite (does_trap .rfl _ _) (does_ite (does_trap .rfl _ _) (does_access _ _ _ _ _)))

theorem does_tblw (a b : BitVec 7) : Does s (execTblw a b s) :=
  does_enter (does_ite (does_trap .rfl _ _) (does_ite (does_trap .rfl _ _) (does_retire (like_of_local rfl rfl))))

theorem does_tblr (d a : BitVec 7) : Does s (execTblr d a s) :=
  does_enter (does_ite (does_trap .rfl _ _) (does_retireWr .rfl _ _))

/-! ### MTS -/

theorem does_enterWith_unprivileged {uses : Uses} {w : Word} {reports : Bool} {k : State → Out State}
    (hprv : (cur s).prv = false) : Does s (enterWith uses (some w) reports s k) := by
  unfold enterWith
  simp only [hprv]
  refine does_ite (does_waitFor .rfl _) ?_
  split
  · exact does_trap .rfl _ _
  · exact does_trap .rfl _ _

theorem does_mtsTvec (tpc : Bool) (v : Word) : Does s (mtsTvec tpc v s) := by
  refine does_ite (does_trap .rfl _ _) (does_retire (like_onCur s ?_))
  cases tpc <;> rfl

theorem does_mtsEffect_open {sr : Nat} (hsr : privSr sr = false) (v pattern : Word) : Does s (mtsEffect sr v pattern s) := by
  unfold mtsEffect
  split
  · exact does_mtsTvec false v
  · exact does_mtsTvec true v
  · exact does_ite (does_trap .rfl _ _) (does_retire (like_onCur s rfl))
  case h_12 => exact does_ite (does_trap .rfl _ _) (does_retire (like_of_local rfl rfl))
  case h_14 => exact does_trap .rfl _ _
  all_goals exact absurd hsr (by decide)

theorem does_mts (hprv : (cur s).prv = false) (d : BitVec 7) (sr : BitVec 12) : Does s (execMts d sr s) := by
  unfold execMts
  cases hsr : privSr sr.toNat with
  | true => exact does_enterWith_unprivileged hprv
  | false => exact does_enterWith (does_mtsEffect_open hsr _ _)

/-! ### Every word -/

end

theorem does_classA {i : Instr} {s : State} (hA : (execA i s).isSome = true) : Does s (exec i s) := by
  have hact := (execA_alike hA (SameReads.refl s)).2
  generalize exec i s = o at hact
  cases hact with
  | waits ks _ _ => exact does_waitFor .rfl _
  | reports p => exact does_trapPoison p
  | traps cause v => exact does_trap .rfl _ _
  | writes k ws _ _ => exact does_retire (like_wrRun s k ws)
  | holds turns ws => exact does_hold .rfl _ _

/-- The forms of words, well formed or not; the others are steps that the package takes without a word. -/
def isWord (i : Instr) : Bool :=
  match i with
  | .rottabWrite _ _ | .rotpolWrite _ | .rotationSwitch | .tvecWrite _ _ | .bellWrite _ | .tblcfgWrite _
  | .ebudgetWrite _ | .efillWrite _ | .footprintWrite _ | .blockingReply _ | .relaxedAccessComplete _ | .holdEnd _
  | .messageArrival _ | .waitingMessageStart _ | .deviceMessageEntry | .launchRecord _ _ | .dynamicTaskDispatch _
  | .lineupRelease _ _ _ | .lineupTimeout _ _ _ | .fetchLineBroadcast _ | .barrierWake _ _ _ _ | .l2TlbHit _
  | .walkComplete _ | .pwake _ _ _ _ | .migrationDepart _ | .migrationArrival _ | .bellRing | .preemptionRequest
  | .contextSave _ | .partitionSaveRecord _ | .contextResume _ _ | .contextStart _ | .dieRemap _ | .controllerTake
  | .segmentCall _ | .blockDelivery _ _ | .recordTest | .holdClear _ _ | .remapEntry _ _ | .memControllerDown _ _
  | .segmentDescriptorWrite _ | .layoutEntryWrite _ _ | .xcopy _ | .xstripe _ | .xscan _ | .xfill _ | .transferChunk
  | .xstripeAtomSwitch | .shootdownPassed | .scanComplete | .mxmac _ | .mxwld _ | .mxepi _ | .mxzero _ | .matrixStep
  | .energyRefill | .kindleEnd | .quenchEnd | .burstDeadline | .rtsort _ | .routingRun _ | .reproj _ | .reprojRun _
  | .a2av _ | .areduce _ | .agather _ | .rscatter _ | .collectiveStart _ _ | .collectiveComplete _ | .laClauseUpdate
  | .lainfComplete _ | .inferenceRecord | .cellSoftError _ | .hostAccess _ _ _ | .qreg _ _ | .qreset _ | .qremove _
  | .ckpt | .pcap _ | .conn _ _ | .attest _ _ | .checkpointComplete | .jobFaultResume _ _ | .afyarFlitReceive _ _
  | .linkReplay _ | .linkRekey _ | .linkTraining _ | .firmwareBoot | .powerSample _ | .thermalLimit _ | .traceRingDrain
  | .unassignedEncoding _ | .postedWriteDrain | .watchDrop _ | .firmwareImageWrite _ | .imageLoad _
  | .checkpointSchedule | .refusedCommand _ | .dieCoresInReset _ => false
  | _ => true

theorem isWord_of_encode {i : Instr} {w : BitVec 32} (henc : encode i = some w) : isWord i = true := by
  cases i with
  | rottabWrite _ _ | rotpolWrite _ | rotationSwitch | tvecWrite _ _ | bellWrite _ | tblcfgWrite _
  | ebudgetWrite _ | efillWrite _ | footprintWrite _ | blockingReply _ | relaxedAccessComplete _ | holdEnd _
  | messageArrival _ | waitingMessageStart _ | deviceMessageEntry | launchRecord _ _ | dynamicTaskDispatch _
  | lineupRelease _ _ _ | lineupTimeout _ _ _ | fetchLineBroadcast _ | barrierWake _ _ _ _ | l2TlbHit _
  | walkComplete _ | pwake _ _ _ _ | migrationDepart _ | migrationArrival _ | bellRing | preemptionRequest
  | contextSave _ | partitionSaveRecord _ | contextResume _ _ | contextStart _ | dieRemap _ | controllerTake
  | segmentCall _ | blockDelivery _ _ | recordTest | holdClear _ _ | remapEntry _ _ | memControllerDown _ _
  | segmentDescriptorWrite _ | layoutEntryWrite _ _ | xcopy _ | xstripe _ | xscan _ | xfill _ | transferChunk
  | xstripeAtomSwitch | shootdownPassed | scanComplete | mxmac _ | mxwld _ | mxepi _ | mxzero _ | matrixStep
  | energyRefill | kindleEnd | quenchEnd | burstDeadline | rtsort _ | routingRun _ | reproj _ | reprojRun _
  | a2av _ | areduce _ | agather _ | rscatter _ | collectiveStart _ _ | collectiveComplete _ | laClauseUpdate
  | lainfComplete _ | inferenceRecord | cellSoftError _ | hostAccess _ _ _ | qreg _ _ | qreset _ | qremove _
  | ckpt | pcap _ | conn _ _ | attest _ _ | checkpointComplete | jobFaultResume _ _ | afyarFlitReceive _ _
  | linkReplay _ | linkRekey _ | linkTraining _ | firmwareBoot | powerSample _ | thermalLimit _ | traceRingDrain
  | unassignedEncoding _ | postedWriteDrain | watchDrop _ | firmwareImageWrite _ | imageLoad _
  | checkpointSchedule | refusedCommand _ | dieCoresInReset _ => exact nomatch henc
  | _ => rfl

/-- Every word but MTS answers a next state that is like the one before, has trapped or has ended its thread. -/
theorem does_exec {i : Instr} (hword : isWord i = true) (hmts : ∀ d sr, i ≠ .mts d sr) (s : State) : Does s (exec i s) := by
  cases i with
  | ldB _ _ _ | ldBu _ _ _ | ldH _ _ _ | ldHu _ _ _ | ldW _ _ _ | ldWu _ _ _ | ldD _ _ _ | ldBRx _ _ _
  | ldBuRx _ _ _ | ldHRx _ _ _ | ldHuRx _ _ _ | ldWRx _ _ _ | ldWuRx _ _ _ | ldDRx _ _ _ | stB _ _ _ | stH _ _ _
  | stW _ _ _ | stD _ _ _ | stBRx _ _ _ | stHRx _ _ _ | stWRx _ _ _ | stDRx _ _ _ =>
    unfold exec; exact does_enter (does_scalar _ _ _ _ _ _)
  | amoaddW _ _ _ | amoandW _ _ _ | amoorW _ _ _ | amoxorW _ _ _ | amominW _ _ _ | amomaxW _ _ _ | amominuW _ _ _
  | amomaxuW _ _ _ | amoswapW _ _ _ | amocasW _ _ _ | amoaddD _ _ _ | amoandD _ _ _ | amoorD _ _ _ | amoxorD _ _ _
  | amominD _ _ _ | amomaxD _ _ _ | amominuD _ _ _ | amomaxuD _ _ _ | amoswapD _ _ _ | amocasD _ _ _ =>
    unfold exec; exact does_enter (does_amo _ _ _ _ _)
  | beq _ _ _ | bne _ _ _ | blt _ _ _ | bge _ _ _ | bltu _ _ _ | bgeu _ _ _ | bset _ _ _ | bclr _ _ _ | beqz _ _
  | bnez _ _ | bltz _ _ | bgez _ _ | bgtz _ _ | blez _ _ | jmp _ =>
    unfold exec; exact does_enter (does_branch _ _ .rfl)
  | nop => unfold exec; exact does_enter (does_retire .rfl)
  | swtrap _ => unfold exec; exact does_enter (does_trap .rfl _ _)
  | fenceRx | fenceEng | fenceSys | waitrx _ => unfold exec; exact does_enterReporting (does_fence _ _)
  | ldv _ _ _ | ldvRx _ _ _ => unfold exec; exact does_enter (does_loadVec _ _ _ _)
  | stv _ _ _ => unfold exec; exact does_enter (does_vecBase fun _ => does_stvAt _ _ _ _)
  | stvRx _ _ _ => unfold exec; exact does_enter (does_storeVec _ _ _ _)
  | gather _ _ _ | gatherRx _ _ _ => unfold exec; exact does_enter (does_gatherVec _ _ _ _)
  | scatter _ _ _ | scatterRx _ _ _ => unfold exec; exact does_enter (does_scatterVec _ _ _ _)
  | recv _ _ | recva _ => unfold exec; exact does_enter (does_recvWhere _ _)
  | mbox _ | tid _ => unfold exec; exact does_enter (does_retireWr .rfl _ _)
  | lafb1 _ _ | lafb2 _ _ => unfold exec; exact does_enter (does_lafb _ _ _)
  | lard _ _ | laclr _ => unfold exec; exact does_enter (does_ite (does_trap .rfl _ _) (does_laDrained _ _ _ _))
  | lawr _ _ | laseed _ _ =>
    unfold exec; exact does_enter (does_ite (does_trap .rfl _ _) (does_ite (does_trap .rfl _ _) (does_laDrained _ _ _ _)))
  | endThread => unfold exec; exact does_endThread
  | yield => unfold exec; exact does_yield
  | rett => unfold exec; exact does_rett
  | lineup n => unfold exec; exact does_lineup n
  | burst n => unfold exec; exact does_burst n
  | mfs d sr => unfold exec; exact does_mfs d sr
  | jal d imm => unfold exec; exact does_jal d imm
  | jalr d a imm => unfold exec; exact does_jalr d a imm
  | htake d a b => unfold exec; exact does_htake d a b
  | hgive d a b => unfold exec; exact does_hgive d a b
  | hwait d a b => unfold exec; exact does_hwait d a b
  | hstat d a b => unfold exec; exact does_hstat d a b
  | hgen d a => unfold exec; exact does_hgen d a
  | hring d a b => unfold exec; exact does_hring d a b
  | send ty a b => unfold exec; exact does_send ty a b
  | bar d scope id => unfold exec; exact does_bar d scope id
  | bara d scope id => unfold exec; exact does_bara d scope id
  | barw d scope id => unfold exec; exact does_barw d scope id
  | bari d scope id => unfold exec; exact does_bari d scope id
  | carsub d a b => unfold exec; exact does_carsub d a b
  | carunsub d a b => unfold exec; exact does_carunsub d a b
  | carskip a => unfold exec; exact does_carskip a
  | carpromo a b => unfold exec; exact does_carpromo a b
  | carpos d a => unfold exec; exact does_carpos d a
  | carwaitRay d a => unfold exec; exact does_carwaitRay d a
  | carwaitStart d a => unfold exec; exact does_carwaitStart d a
  | carwaitVerdict d a => unfold exec; exact does_carwaitVerdict d a
  | rayput d a => unfold exec; exact does_rayput d a
  | rayget d a => unfold exec; exact does_rayget d a
  | raysub d a b => unfold exec; exact does_raysub d a b
  | hitpop d a => unfold exec; exact does_hitpop d a
  | raykill d a => unfold exec; exact does_raykill d a
  | lainf d a => unfold exec; exact does_lainf d a
  | tsreq d a b => unfold exec; exact does_tsreq d a b
  | tsfill d a b => unfold exec; exact does_tsfill d a b
  | tswait d a b => unfold exec; exact does_tswait d a b
  | watch d a b => unfold exec; exact does_watch d a b
  | tblw a b => unfold exec; exact does_tblw a b
  | tblr d a => unfold exec; exact does_tblr d a
  | mts d sr => exact absurd rfl (hmts d sr)
  | add _ _ _ | sub _ _ _ | and _ _ _ | or _ _ _ | xor _ _ _ | andn _ _ _ | shl _ _ _ | shr _ _ _ | sar _ _ _
  | rol _ _ _ | ror _ _ _ | slt _ _ _ | sltu _ _ _ | seq _ _ _ | min _ _ _ | max _ _ _ | minu _ _ _ | maxu _ _ _
  | mul _ _ _ | mulh _ _ _ | mulhu _ _ _ | div _ _ _ | divu _ _ _ | rem _ _ _ | remu _ _ _ | sel _ _ _ | clz _ _
  | ctz _ _ | popc _ _ | brev _ _ | ilv2 _ _ _ | ilv3 _ _ _ | dilv2 _ _ _ | dilv3 _ _ _ | extr _ _ _ | depo _ _ _
  | bswap _ _ | addp _ _ _ | mkptr _ _ _ | ptag _ _ | vkey _ _ _ | faddD _ _ _ | fsubD _ _ _ | fmulD _ _ _
  | fdivD _ _ _ | fsqrtD _ _ | fmaD _ _ _ | fminD _ _ _ | fmaxD _ _ _ | feqD _ _ _ | fltD _ _ _ | fleD _ _ _
  | fclassD _ _ | fsgnjD _ _ _ | fsgnjnD _ _ _ | faddS _ _ _ | fsubS _ _ _ | fmulS _ _ _ | fdivS _ _ _
  | fsqrtS _ _ | fmaS _ _ _ | fminS _ _ _ | fmaxS _ _ _ | feqS _ _ _ | fltS _ _ _ | fleS _ _ _ | fclassS _ _
  | fsgnjS _ _ _ | fsgnjnS _ _ _ | fcvt _ _ _ _ _ | vadd _ _ _ | vsub _ _ _ | vand _ _ _ | vor _ _ _ | vxor _ _ _
  | vshl _ _ _ | vshr _ _ _ | vsar _ _ _ | vmin _ _ _ | vmax _ _ _ | vminu _ _ _ | vmaxu _ _ _ | vmul _ _ _
  | vmulh _ _ _ | vadds _ _ _ | vsubs _ _ _ | vfaddS _ _ _ | vfsubS _ _ _ | vfmulS _ _ _ | vfdivS _ _ _
  | vfsqrtS _ _ | vfmaS _ _ _ | vfminS _ _ _ | vfmaxS _ _ _ | vfaddD _ _ _ | vfsubD _ _ _ | vfmulD _ _ _
  | vfdivD _ _ _ | vfsqrtD _ _ | vfmaD _ _ _ | vfminD _ _ _ | vfmaxD _ _ _ | vbcast _ _ | vbcastD _ _ | vext _ _ _
  | vins _ _ _ | vperm _ _ _ | vredAddW _ _ | vredMinW _ _ | vredMaxW _ _ | vredMinuW _ _ | vredMaxuW _ _
  | vredAndW _ _ | vredOrW _ _ | vredXorW _ _ | vredFaddS _ _ | vredFminS _ _ | vredFmaxS _ _ | vredFaddD _ _
  | vredFminD _ _ | vredFmaxD _ _ | vredAddD _ _ | vcmpEq _ _ _ | vcmpNe _ _ _ | vcmpLt _ _ _ | vcmpGe _ _ _
  | vcmpLtu _ _ _ | vcmpGeu _ _ _ | vsel _ _ _ | vcvtHS _ _ _ | vcvtBhS _ _ _ | vcvtES _ _ _ | vcvtWS _ _ _
  | vcvtSW _ _ _ | vcvtSD _ _ _ | vcvtDS _ _ _ | vcvtLD _ _ _ | vcvtDL _ _ _ | vq _ _ _ _ | vqSc _ _ _ _
  | vdq _ _ _ | vdqSc _ _ _ | boxt _ _ _ | trit _ _ _ | splt _ _ _ =>
    exact does_classA rfl
  | addi _ _ _ | andi _ _ _ | ori _ _ _ | xori _ _ _ | shli _ _ _ | shri _ _ _ | sari _ _ _ | roli _ _ _
  | rori _ _ _ | slti _ _ _ | addpi _ _ _ | movx _ _ _ | movxs _ _ _ =>
    exact does_classA rfl
  | ldi _ _ | ldih _ _ => exact does_classA rfl
  | rottabWrite _ _ | rotpolWrite _ | rotationSwitch | tvecWrite _ _ | bellWrite _ | tblcfgWrite _
  | ebudgetWrite _ | efillWrite _ | footprintWrite _ | blockingReply _ | relaxedAccessComplete _ | holdEnd _
  | messageArrival _ | waitingMessageStart _ | deviceMessageEntry | launchRecord _ _ | dynamicTaskDispatch _
  | lineupRelease _ _ _ | lineupTimeout _ _ _ | fetchLineBroadcast _ | barrierWake _ _ _ _ | l2TlbHit _
  | walkComplete _ | pwake _ _ _ _ | migrationDepart _ | migrationArrival _ | bellRing | preemptionRequest
  | contextSave _ | partitionSaveRecord _ | contextResume _ _ | contextStart _ | dieRemap _ | controllerTake
  | segmentCall _ | blockDelivery _ _ | recordTest | holdClear _ _ | remapEntry _ _ | memControllerDown _ _
  | segmentDescriptorWrite _ | layoutEntryWrite _ _ | xcopy _ | xstripe _ | xscan _ | xfill _ | transferChunk
  | xstripeAtomSwitch | shootdownPassed | scanComplete | mxmac _ | mxwld _ | mxepi _ | mxzero _ | matrixStep
  | energyRefill | kindleEnd | quenchEnd | burstDeadline | rtsort _ | routingRun _ | reproj _ | reprojRun _
  | a2av _ | areduce _ | agather _ | rscatter _ | collectiveStart _ _ | collectiveComplete _ | laClauseUpdate
  | lainfComplete _ | inferenceRecord | cellSoftError _ | hostAccess _ _ _ | qreg _ _ | qreset _ | qremove _
  | ckpt | pcap _ | conn _ _ | attest _ _ | checkpointComplete | jobFaultResume _ _ | afyarFlitReceive _ _
  | linkReplay _ | linkRekey _ | linkTraining _ | firmwareBoot | powerSample _ | thermalLimit _ | traceRingDrain
  | unassignedEncoding _ | postedWriteDrain | watchDrop _ | firmwareImageWrite _ | imageLoad _
  | checkpointSchedule | refusedCommand _ | dieCoresInReset _ => exact nomatch hword

theorem mtsEffect_answers (sr : Nat) (v pattern : Word) (s : State) : ∃ t, mtsEffect sr v pattern s = .next t := by
  have hite : ∀ (c : Prop) [Decidable c] (u v : State), ∃ t, (if c then Host.Outcome.next u else .next v : Out State) = .next t :=
    fun c _ u v => (em c).elim (fun h => ⟨u, if_pos h⟩) fun h => ⟨v, if_neg h⟩
  unfold mtsEffect
  split
  case h_8 =>
    unfold mtsRotpol
    split
    · exact ⟨_, rfl⟩
    · split <;> exact ⟨_, rfl⟩
  case h_14 => exact ⟨_, rfl⟩
  all_goals exact hite _ _ _

theorem execMts_answers (d : BitVec 7) (sr : BitVec 12) (s : State) : ∃ t, execMts d sr s = .next t := by
  rcases enterWith_waits_traps_or_runs ⟨[.g d], []⟩
    (if privSr sr.toNat then some (patternOf (.mts d sr) s) else none) false s
    (fun s => mtsEffect sr.toNat (rd s d) (patternOf (.mts d sr) s) s) with h | ⟨cause, v, s', h⟩ | h
  · exact ⟨_, h⟩
  · exact ⟨_, h⟩
  · obtain ⟨t, ht⟩ := mtsEffect_answers sr.toNat (rd s d) (patternOf (.mts d sr) s) s
    exact ⟨t, h.trans ht⟩

theorem exec_answers {i : Instr} {w : BitVec 32} (henc : encode i = some w) (s : State) : ∃ t, exec i s = .next t := by
  by_cases hmts : ∃ d sr, i = .mts d sr
  · obtain ⟨d, sr, rfl⟩ := hmts
    obtain ⟨t, ht⟩ := execMts_answers d sr s
    exact ⟨t, ht⟩
  · obtain ⟨t, ht, -⟩ := does_exec (isWord_of_encode henc) (fun d sr h => hmts ⟨d, sr, h⟩) s
    exact ⟨t, ht⟩

/-- Settles O53: a word that decodes is the encoding of what it decodes to, and one that does not traps ILLEGAL. -/
theorem everyWordAnswers : Obligations.EveryWordAnswers := by
  refine ⟨fun i w s henc => exec_answers henc s, fun w s => ?_⟩
  cases hdec : decodeWord w with
  | some i => exact exec_answers (decodeEncode w i hdec).2 s
  | none => exact ⟨_, rfl⟩

/-- Settles O60: an unprivileged MTS of a guarded register traps PRIV, and no other word writes what R49 keeps. -/
theorem privilegeHolds : Obligations.PrivilegeHolds := by
  intro i w s t henc hprv hexec
  have hdoes : Does s (exec i s) := by
    by_cases hmts : ∃ d sr, i = .mts d sr
    · obtain ⟨d, sr, rfl⟩ := hmts
      exact does_mts hprv d sr
    · exact does_exec (isWord_of_encode henc) (fun d sr h => hmts ⟨d, sr, h⟩) s
  obtain ⟨u, hu, hguard⟩ := hdoes.guarded
  obtain rfl := Host.Outcome.next.inj (hexec.symm.trans hu)
  have hparts := hguard.guard
  simp only [guardOf, Prod.mk.injEq] at hparts
  obtain ⟨hrot, hpol, hshadow, hpend, hcap, hrate, hbell, hfoot, -⟩ := hparts
  exact ⟨hrot, hpol, hshadow, hpend, hcap, hrate, hbell, hfoot, hguard.prv _ hprv⟩

end Sys2Proof.Proofs
end

section
/-!
SUPPORT. Parallel pairs (R25, R26, R34): what word 0 leaves for word 1, and that word 1 comes to the same act after word 0
as on the state before the pair.
-/

namespace Sys2Proof.Proofs

open Sys2Proof Sys2Proof.Machine Sys2Proof.Laws

/-! ## What word 0 leaves -/

/-- What word 1 relies on in the state that word 0 leaves. -/
structure PairKeeps (s t : State) : Prop where
  iss : ({ t.iss with res := .running } : Issue) = { s.iss with res := .running }
  clock : t.clock = s.clock
  rot : t.me.rot = s.me.rot
  rotPol : t.me.rotPol = s.me.rotPol
  phase : t.me.phase = s.me.phase
  slot : slotView (cur t) = slotView (cur s)

theorem pairKeeps_of_view {s t : State} (h : view t = view s) : PairKeeps s t where
  iss := issue_of_view h
  clock := clock_of_view h
  rot := congrArg (·.1) (guard_of_view h)
  rotPol := congrArg (·.2.1) (guard_of_view h)
  phase := congrArg (·.2.2.2.2.2.2.2.2) (guard_of_view h)
  slot := by
    rw [cur, slot_of_view h]
    exact slotView_of_view h _

theorem PairKeeps.trans {s t u : State} (h : PairKeeps s t) (k : PairKeeps t u) : PairKeeps s u :=
  ⟨k.iss.trans h.iss, k.clock.trans h.clock, k.rot.trans h.rot, k.rotPol.trans h.rotPol, k.phase.trans h.phase,
    k.slot.trans h.slot⟩

section

variable {s t : State} (h : PairKeeps s t)
include h

theorem PairKeeps.issSlot : t.iss.slot = s.iss.slot := (congrArg Issue.slot h.iss :)
theorem PairKeeps.latch : t.iss.latch = s.iss.latch := (congrArg Issue.latch h.iss :)
theorem PairKeeps.par : t.iss.par = s.iss.par := (congrArg Issue.par h.iss :)
theorem PairKeeps.winBase : (cur t).winBase = (cur s).winBase := congrArg (·.1) h.slot
theorem PairKeeps.winSize : (cur t).winSize = (cur s).winSize := congrArg (·.2.1) h.slot

end

theorem pairKeeps_advance (s : State) : PairKeeps s (advance s) := pairKeeps_of_view (view_advance s)

/-- An outcome of MTS: a trap, or a retirement that keeps what word 1 relies on. -/
def MtsKeeps (s : State) (o : Out State) : Prop := ∀ t, o = .next t → t.iss.res = .retired → PairKeeps s t

theorem mtsKeeps_trap (cause : BitVec 5) (v : Word) (s : State) : MtsKeeps s (trap cause v s) := by
  intro t ht hres
  obtain rfl := Host.Outcome.next.inj ht
  rw [takeTrap_res] at hres
  exact nomatch hres

theorem mtsKeeps_retire {s u : State} (h : PairKeeps s u) : MtsKeeps s (retire u) := by
  intro t ht _
  obtain rfl := Host.Outcome.next.inj ht
  exact h.trans (pairKeeps_advance u)

theorem mtsKeeps_ite {s u : State} {c : Prop} [Decidable c] {cause : BitVec 5} {v : Word} (h : PairKeeps s u) :
    MtsKeeps s (if c then trap cause v s else retire u) := by
  split
  · exact mtsKeeps_trap _ _ _
  · exact mtsKeeps_retire h

theorem mtsKeeps_mtsEffect (sr : Nat) (v pattern : Word) (s : State) : MtsKeeps s (mtsEffect sr v pattern s) := by
  unfold mtsEffect
  split
  case h_1 => exact mtsKeeps_ite (pairKeeps_of_view (view_onCur s rfl))
  case h_2 => exact mtsKeeps_ite (pairKeeps_of_view (view_onCur s rfl))
  case h_3 => exact mtsKeeps_ite (pairKeeps_of_view (view_onCur s rfl))
  case h_8 =>
    unfold mtsRotpol
    split
    · exact mtsKeeps_trap _ _ _
    · split
      · exact mtsKeeps_trap _ _ _
      · exact mtsKeeps_retire ⟨rfl, rfl, rfl, rfl, rfl, rfl⟩
  case h_14 => exact mtsKeeps_trap _ _ _
  all_goals exact mtsKeeps_ite ⟨rfl, rfl, rfl, rfl, rfl, rfl⟩

/-- A word that has retired without ending its thread keeps what word 1 relies on. -/
theorem pairKeeps_of_retired {i : Instr} {w : BitVec 32} (henc : encode i = some w) {s t : State}
    (ht : exec i s = .next t) (hres : t.iss.res = .retired) (hst : (cur t).st ≠ .empty) : PairKeeps s t := by
  by_cases hmts : ∃ d sr, i = .mts d sr
  · obtain ⟨d, sr, rfl⟩ := hmts
    rcases enterWith_waits_traps_or_runs ⟨[.g d], []⟩
      (if privSr sr.toNat then some (patternOf (.mts d sr) s) else none) false s
      (fun s => mtsEffect sr.toNat (rd s d) (patternOf (.mts d sr) s) s) with h | ⟨cause, v, s', h⟩ | h
    · obtain rfl := Host.Outcome.next.inj (ht.symm.trans h)
      exact nomatch hres
    · obtain rfl := Host.Outcome.next.inj (ht.symm.trans h)
      rw [takeTrap_res] at hres
      exact nomatch hres
    · exact mtsKeeps_mtsEffect _ _ _ _ t (h.symm.trans ht) hres
  · obtain ⟨u, hu, hview | ⟨-, hend⟩⟩ := does_exec (isWord_of_encode henc) (fun d sr h => hmts ⟨d, sr, h⟩) s
    · obtain rfl := Host.Outcome.next.inj (ht.symm.trans hu)
      exact pairKeeps_of_view hview.view
    · obtain rfl := Host.Outcome.next.inj (ht.symm.trans hu)
      rcases hend with htrap | hempty
      · rw [hres] at htrap
        exact nomatch htrap
      · exact (hst hempty).elim

/-! ## Word 1 after word 0 -/

/-- The state in which word 1 runs after word 0 (R25, R34). -/
def word1State (s t : State) : State := onWord 1 (withMarks (cur s).poisoned (withRelaxed s.me.relaxed t))

/-- The state that word 1 leaves, with the relaxed accesses and the marks of word 0. -/
def word1Left (t u : State) : State := withMarks (cur t).poisoned (withRelaxed t.me.relaxed u)

theorem cur_withMarks (l : List PoisonMark) (s : State) : cur (withMarks l s) = { cur s with poisoned := l } :=
  cur_onCur (fun c => { c with poisoned := l }) s

theorem cur_withRelaxed (l : List Access) (s : State) : cur (withRelaxed l s) = cur s := rfl

theorem cur_word1State (s t : State) : cur (word1State s t) = { cur t with poisoned := (cur s).poisoned } :=
  cur_withMarks _ (withRelaxed s.me.relaxed t)

theorem sameReads_word1State {s t : State} (h : PairKeeps s t) (hlatch : s.iss.latch.isSome = true) :
    SameReads (onWord 1 s) (word1State s t) := by
  obtain ⟨l, hl⟩ := Option.isSome_iff_exists.1 hlatch
  have hs : (onWord 1 s).iss.latch = some l := hl
  have ht : (word1State s t).iss.latch = some l := h.latch.trans hl
  have hcur : cur (onWord 1 s) = cur s := rfl
  refine ⟨?_, ?_, ?_, ?_, ?_, ?_⟩
  · rw [readPool, readPool, hs, ht]
  · rw [cur_word1State, hcur]
    exact h.winBase.symm
  · rw [cur_word1State, hcur]
    exact h.winSize.symm
  · rw [tableOf, tableOf, hs, ht]
  · have hslot : (word1State s t).iss.slot = (onWord 1 s).iss.slot := h.issSlot
    rw [pendingRegs, pendingRegs, hslot]
    rfl
  · rw [cur_word1State, hcur]

theorem ActsAlike.retired {u : Uses} {s t a : State} {o o' : Out State} (h : ActsAlike u s t o o') (ho : o = .next a)
    (hres : a.iss.res = .retired) : ∃ k ws, writtenRegs s u = (List.range ws.length).map (k + ·) ∧
      a = advance (wrRun k ws s) ∧ o' = retire (wrRun k ws t) := by
  cases h with
  | waits ks _ _ =>
    obtain rfl := Host.Outcome.next.inj ho
    exact nomatch hres
  | reports p =>
    obtain rfl := Host.Outcome.next.inj ho
    rw [takeTrap_res] at hres
    exact nomatch hres
  | traps cause v =>
    obtain rfl := Host.Outcome.next.inj ho
    rw [takeTrap_res] at hres
    exact nomatch hres
  | writes k ws hregs _ => exact ⟨k, ws, hregs, (Host.Outcome.next.inj ho).symm, rfl⟩
  | holds turns ws =>
    obtain rfl := Host.Outcome.next.inj ho
    exact nomatch hres

/-- The state in which a hold of the word holds the slot. -/
def heldState (turns : Nat) (ws : List (Nat × Word)) (s : State) : State :=
  setRes .held (onCur (fun c => { c with st := .held (holdStop s turns), pend := ws }) (advance s))

theorem ActsAlike.held {u : Uses} {s t a : State} {o o' : Out State} (h : ActsAlike u s t o o') (ho : o = .next a)
    (hres : a.iss.res = .held) : ∃ turns ws, a = heldState turns ws s ∧ o' = .next (heldState turns ws t) := by
  cases h with
  | waits ks _ _ =>
    obtain rfl := Host.Outcome.next.inj ho
    exact nomatch hres
  | reports p =>
    obtain rfl := Host.Outcome.next.inj ho
    rw [takeTrap_res] at hres
    exact nomatch hres
  | traps cause v =>
    obtain rfl := Host.Outcome.next.inj ho
    rw [takeTrap_res] at hres
    exact nomatch hres
  | writes k ws _ _ =>
    obtain rfl := Host.Outcome.next.inj ho
    exact nomatch hres
  | holds turns ws => exact ⟨turns, ws, (Host.Outcome.next.inj ho).symm, rfl⟩

theorem nextPos_word1 {s : State} (hpar : s.iss.par = true) (hword : s.iss.word = 1) (c : Slot) :
    nextPos s.iss c = (c.pa, c.widx) := by
  rw [nextPos, hpar, hword]
  rfl

theorem cur_wrRun (k : Nat) (ws : List Word) (s : State) : cur (wrRun k ws s) = cur s := by
  have hiss : (wrRun k ws s).iss = s.iss := by rw [wrRun, wrSlotRun_frame]
  rw [cur, hiss, wrRun, slotOf_wrSlotRun, cur]

theorem cur_advance_word1 {s : State} (hpar : s.iss.par = true) (hword : s.iss.word = 1) : cur (advance s) = cur s := by
  rw [cur_advance, nextPos_word1 hpar hword]

section

variable {s t : State} (hpar : t.iss.par = true)
include hpar

/-- Word 1 retires in a slot that stands as word 0 has left it. -/
theorem cur_word1Left_retired (k : Nat) (ws : List Word) :
    cur (word1Left t (advance (wrRun k ws (word1State s t)))) = cur t := by
  have hiss : (wrRun k ws (word1State s t)).iss = (word1State s t).iss := by rw [wrRun, wrSlotRun_frame]
  have hadv : cur (advance (wrRun k ws (word1State s t))) = { cur t with poisoned := (cur s).poisoned } := by
    rw [cur_advance_word1 (hiss ▸ hpar) (hiss ▸ rfl), cur_wrRun, cur_word1State]
  rw [word1Left, cur_withMarks, cur_withRelaxed, hadv]

/-- Word 1 holds a slot that otherwise stands as word 0 has left it. -/
theorem cur_word1Left_held (turns : Nat) (ws : List (Nat × Word)) :
    cur (word1Left t (heldState turns ws (word1State s t))) =
      { cur t with st := .held (holdStop (word1State s t) turns), pend := ws } := by
  have hadv : cur (advance (word1State s t)) = { cur t with poisoned := (cur s).poisoned } := by
    rw [cur_advance_word1 (s := word1State s t) hpar rfl, cur_word1State]
  have hheld : cur (heldState turns ws (word1State s t)) =
      { cur t with st := .held (holdStop (word1State s t) turns), pend := ws, poisoned := (cur s).poisoned } := by
    have := cur_onCur (fun c => { c with st := .held (holdStop (word1State s t) turns), pend := ws })
      (advance (word1State s t))
    rw [hadv] at this
    exact this
  rw [word1Left, cur_withMarks, cur_withRelaxed, hheld]

end

theorem holdStop_eq {s t : State} (h : PairKeeps s t) (turns : Nat) : holdStop t turns = holdStop s turns := by
  simp only [holdStop, h.rotPol, h.rot, h.clock, h.issSlot, posOf, h.phase]

theorem pairKeeps_word1State {s t : State} (h : PairKeeps s t) : PairKeeps (onWord 1 s) (word1State s t) where
  iss := congrArg (fun i : Issue => { i with word := 1 }) h.iss
  clock := h.clock
  rot := h.rot
  rotPol := h.rotPol
  phase := h.phase
  slot := by
    rw [cur_word1State]
    exact h.slot

theorem pairKeeps_retireAt (stop : Nat) (s t : State) : PairKeeps t (retireAt stop s t) := by
  have hslot : ∀ c : Slot, slotView (if c.elig = (cur s).elig then c else { c with elig := c.elig + (stop - s.clock) }) =
      slotView c := by
    intro c
    split <;> rfl
  have hcur : slotView (cur (retireAt stop s t)) = slotView (cur t) := (congrArg slotView (cur_onCur _ _)).trans (hslot _)
  exact ⟨rfl, rfl, rfl, rfl, rfl, hcur⟩

theorem cur_retireAt (stop : Nat) (s t : State) : ∃ elig, cur (retireAt stop s t) = { cur t with elig := elig } := by
  have hcur : cur (retireAt stop s t) =
      (fun c => if c.elig = (cur s).elig then c else { c with elig := c.elig + (stop - s.clock) }) (cur t) := cur_onCur _ _
  rw [hcur]
  dsimp only
  split
  · exact ⟨_, rfl⟩
  · exact ⟨_, rfl⟩

/-! ## The branches of a pair -/

/-- The state in which a pair's checks are made and its word 0 runs. -/
def pairState (s : State) : State :=
  { s with iss := { s.iss with word := 0, par := true, latch := some ⟨s.me.pool, s.me.table⟩, res := .running } }

section

variable {i0 i1 : Instr} {s : State}

theorem runPair_waits (h : awaited (pairState s) (uses i0) ++ awaited (pairState s) (uses i1) ≠ []) :
    runPair exec i0 i1 s =
      waitFor (.regs (awaited (pairState s) (uses i0) ++ awaited (pairState s) (uses i1))) (pairState s) := if_pos h

variable (h : awaited (pairState s) (uses i0) ++ awaited (pairState s) (uses i1) = [])
include h

theorem runPair_bounds0 {v : Word} (hv : boundsFault (pairState s) (uses i0).names = some v) :
    runPair exec i0 i1 s = trap cRegBounds v (pairState s) := by
  refine (if_neg (not_not.2 h)).trans ?_
  show (match boundsFault (pairState s) (uses i0).names, boundsFault (pairState s) (uses i1).names,
    doubleWrite (pairState s) (uses i0) (uses i1) with
    | some v, _, _ => trap cRegBounds v (pairState s)
    | none, some v, _ => trap cRegBounds v (onWord 1 (pairState s))
    | none, none, some k => trap cIllegal (BitVec.ofNat 64 k) (onWord 1 (pairState s))
    | none, none, none => runBoth exec i0 i1 (pairState s)) = _
  rw [hv]

theorem runPair_bounds1 {v : Word} (h0 : boundsFault (pairState s) (uses i0).names = none)
    (hv : boundsFault (pairState s) (uses i1).names = some v) :
    runPair exec i0 i1 s = trap cRegBounds v (onWord 1 (pairState s)) := by
  refine (if_neg (not_not.2 h)).trans ?_
  show (match boundsFault (pairState s) (uses i0).names, boundsFault (pairState s) (uses i1).names,
    doubleWrite (pairState s) (uses i0) (uses i1) with
    | some v, _, _ => trap cRegBounds v (pairState s)
    | none, some v, _ => trap cRegBounds v (onWord 1 (pairState s))
    | none, none, some k => trap cIllegal (BitVec.ofNat 64 k) (onWord 1 (pairState s))
    | none, none, none => runBoth exec i0 i1 (pairState s)) = _
  rw [h0, hv]

variable (h0 : boundsFault (pairState s) (uses i0).names = none) (h1 : boundsFault (pairState s) (uses i1).names = none)
include h0 h1

theorem runPair_inBounds : runPair exec i0 i1 s = match doubleWrite (pairState s) (uses i0) (uses i1) with
    | some k => trap cIllegal (BitVec.ofNat 64 k) (onWord 1 (pairState s))
    | none => runBoth exec i0 i1 (pairState s) := by
  refine (if_neg (not_not.2 h)).trans ?_
  show (match boundsFault (pairState s) (uses i0).names, boundsFault (pairState s) (uses i1).names,
    doubleWrite (pairState s) (uses i0) (uses i1) with
    | some v, _, _ => trap cRegBounds v (pairState s)
    | none, some v, _ => trap cRegBounds v (onWord 1 (pairState s))
    | none, none, some k => trap cIllegal (BitVec.ofNat 64 k) (onWord 1 (pairState s))
    | none, none, none => runBoth exec i0 i1 (pairState s)) = _
  rw [h0, h1]
  cases doubleWrite (pairState s) (uses i0) (uses i1) <;> rfl

end

/-- Register k is written by both words. -/
def bothWrite (s : State) (u0 u1 : Uses) (k : Nat) : Prop := k ∈ writtenRegs s u0 ∧ k ∈ writtenRegs s u1

theorem contains_both_iff (s : State) (u0 u1 : Uses) (k : Nat) :
    ((writtenRegs s u0).contains k && (writtenRegs s u1).contains k) = true ↔ bothWrite s u0 u1 k := by
  simp [bothWrite]

theorem doubleWrite_eq_some {s : State} {u0 u1 : Uses} {k : Nat} (hk : k < 128) (hboth : bothWrite s u0 u1 k)
    (hleast : ∀ j < k, ¬bothWrite s u0 u1 j) : doubleWrite s u0 u1 = some k := by
  refine List.find?_range_eq_some.2 ⟨(contains_both_iff s u0 u1 k).2 hboth, List.mem_range.2 hk, fun j hj => ?_⟩
  rw [Bool.not_eq_true', ← Bool.not_eq_true, contains_both_iff]
  exact hleast j hj

theorem doubleWrite_eq_none {s : State} {u0 u1 : Uses} (h : ∀ k < 128, ¬bothWrite s u0 u1 k) :
    doubleWrite s u0 u1 = none := by
  refine List.find?_eq_none.2 fun k hk => ?_
  rw [contains_both_iff]
  exact h k (List.mem_range.1 hk)

section

variable {i0 i1 : Instr} {s t0 t1 : State} {w1 : BitVec 32} (henc1 : encode i1 = some w1) (hA1 : classA w1 = true)
  (ht0 : exec i0 s = .next t0)
include ht0

/-- Word 0 does not proceed: nothing of word 1 takes effect. -/
theorem runBoth_stopped (h : t0.iss.res = .trapped ∨ t0.iss.res = .parked ∨ t0.iss.res = .forfeited) :
    runBoth exec i0 i1 s = .next t0 := by
  unfold runBoth
  rw [ht0]
  rcases h with h | h | h <;> simp only [h]

variable (ht1 : exec i1 (onWord 1 s) = .next t1)
include henc1 hA1 ht1

theorem runBoth_retired (h : t0.iss.res = .retired) : runBoth exec i0 i1 s =
    if t1.iss.res = .trapped then .next t1
    else if (cur t0).st = .empty then endsPair i1 (holdOf t1) s t0
    else word1After i1 s (if holdOf t1 = 0 then t0 else retireAt (holdOf t1) s t0) := by
  unfold runBoth
  rw [ht0]
  simp only [h, execA_eq henc1 hA1, ht1]

theorem runBoth_waiting {why : WaitWhy} (h : t0.iss.res = .waiting) (hst : (cur t0).st = .waiting why) :
    runBoth exec i0 i1 s =
    if t1.iss.res = .trapped then .next t1
    else if waitsInside why || why == .ending then
      match s.iss.latch with
      | some l => .next (withPartner ⟨i1, l, holdOf t1⟩ t0)
      | none => .next t0
    else .next t0 := by
  unfold runBoth
  rw [ht0]
  simp only [h, hst, execA_eq henc1 hA1, ht1] <;> rfl

end

/-- Word 1 after word 0, where it retires. -/
theorem word1After_retired {i1 : Instr} {w1 : BitVec 32} {s t0 t1 : State} (henc1 : encode i1 = some w1)
    (hA1 : classA w1 = true) (ht1 : exec i1 (onWord 1 s) = .next t1) (hkeeps : PairKeeps s t0)
    (hlatch : s.iss.latch.isSome = true) (hres : t1.iss.res = .retired) : ∃ k ws,
      writtenRegs s (uses i1) = (List.range ws.length).map (k + ·) ∧ t1 = advance (wrRun k ws (onWord 1 s)) ∧
      word1After i1 s t0 = .next (if (cur t0).st = .runnable then word1Left t0 (advance (wrRun k ws (word1State s t0)))
        else settledWord1 (cur t0).st (word1Left t0 (advance (wrRun k ws (word1State s t0))))) := by
  obtain ⟨k, ws, hregs, ht, ho⟩ := (exec_alike henc1 hA1 (sameReads_word1State hkeeps hlatch)).retired ht1 hres
  refine ⟨k, ws, hregs, ht, ?_⟩
  have hA : execA i1 (onWord 1 (withMarks (cur s).poisoned (withRelaxed s.me.relaxed t0))) = some (exec i1 (word1State s t0)) :=
    execA_eq henc1 hA1 _
  unfold word1After
  rw [hA, ho]
  dsimp only [retire]
  rw [apply_ite Host.Outcome.next]
  rfl

theorem word1After_held {i1 : Instr} {w1 : BitVec 32} {s t0 t1 : State} (henc1 : encode i1 = some w1)
    (hA1 : classA w1 = true) (ht1 : exec i1 (onWord 1 s) = .next t1) (hkeeps : PairKeeps s t0)
    (hlatch : s.iss.latch.isSome = true) (hres : t1.iss.res = .held) (hst : (cur t0).st = .runnable) : ∃ turns ws,
      t1 = heldState turns ws (onWord 1 s) ∧
      word1After i1 s t0 = .next (word1Left t0 (heldState turns ws (word1State s t0))) := by
  obtain ⟨turns, ws, ht, ho⟩ := (exec_alike henc1 hA1 (sameReads_word1State hkeeps hlatch)).held ht1 hres
  refine ⟨turns, ws, ht, ?_⟩
  have hA : execA i1 (onWord 1 (withMarks (cur s).poisoned (withRelaxed s.me.relaxed t0))) = some (exec i1 (word1State s t0)) :=
    execA_eq henc1 hA1 _
  unfold word1After
  rw [hA, ho]
  exact if_pos hst

/-! ## Where both words retire -/

theorem regAt_advance_wrRun (k : Nat) (ws : List Word) (s : State) (j : Nat) :
    regAt (advance (wrRun k ws s)) s.iss.slot j =
      if k ≤ j ∧ j < k + ws.length then (ws[j - k]?).getD 0 else regAt s s.iss.slot j := by
  rw [regAt, winBase_advance, wrRun, slotOf_wrSlotRun]
  exact pool_wrSlotRun _ _ _ _ _

theorem mem_run_iff {k n j : Nat} : j ∈ (List.range n).map (k + ·) ↔ k ≤ j ∧ j < k + n := by
  simp only [List.mem_map, List.mem_range]
  constructor
  · rintro ⟨i, hi, rfl⟩
    omega
  · rintro ⟨hk, hj⟩
    exact ⟨j - k, by omega, by omega⟩

/-- What the pair leaves once both words have retired (R34). -/
structure BothRetired (s t0 t1 : State) (u : Uses) (t : State) : Prop where
  res : t.iss.res = .retired
  mem : t.mem = t0.mem
  pa : (cur t).pa = (cur t0).pa
  widx : (cur t).widx = (cur t0).widx
  st : (cur t).st = (cur t0).st
  written : ∀ k ∈ writtenRegs s u, regAt t s.iss.slot k = regAt t1 s.iss.slot k
  kept : ∀ k, k ∉ writtenRegs s u → regAt t s.iss.slot k = regAt t0 s.iss.slot k

theorem regAt_word1Left {s t : State} (hpar : t.iss.par = true) (k : Nat) (ws : List Word) (j : Nat) :
    regAt (word1Left t (advance (wrRun k ws (word1State s t)))) t.iss.slot j =
      if k ≤ j ∧ j < k + ws.length then (ws[j - k]?).getD 0 else regAt t t.iss.slot j := by
  have hiss : (word1Left t (advance (wrRun k ws (word1State s t)))).iss.slot = t.iss.slot := by
    show (wrRun k ws (word1State s t)).iss.slot = t.iss.slot
    rw [wrRun, wrSlotRun_frame]
    rfl
  have hslot := cur_word1Left_retired (s := s) hpar k ws
  rw [cur, hiss] at hslot
  have hbase : (slotOf (word1State s t) t.iss.slot).winBase = (cur t).winBase :=
    (congrArg Slot.winBase (cur_word1State s t) :)
  have hpool := pool_wrSlotRun t.iss.slot k ws (word1State s t) j
  rw [hbase] at hpool
  rw [regAt, hslot]
  exact hpool

theorem bothRetired_word1Left {s t0 : State} {u : Uses} {k : Nat} {ws : List Word} (hkeeps : PairKeeps s t0)
    (hpar : s.iss.par = true) (hregs : writtenRegs s u = (List.range ws.length).map (k + ·)) :
    BothRetired s t0 (advance (wrRun k ws (onWord 1 s))) u (word1Left t0 (advance (wrRun k ws (word1State s t0)))) := by
  have hpar0 : t0.iss.par = true := hkeeps.par.trans hpar
  have hcur := cur_word1Left_retired (s := s) hpar0 k ws
  have hreg := regAt_word1Left (s := s) hpar0 k ws
  rw [hkeeps.issSlot] at hreg
  refine ⟨rfl, ?_, congrArg Slot.pa hcur, congrArg Slot.widx hcur, congrArg Slot.st hcur, fun j hj => ?_, fun j hj => ?_⟩
  · show (wrRun k ws (word1State s t0)).mem = t0.mem
    rw [wrRun, wrSlotRun_frame]
    rfl
  · rw [hregs, mem_run_iff] at hj
    have hone := regAt_advance_wrRun k ws (onWord 1 s) j
    rw [if_pos hj] at hone
    rw [hreg, if_pos hj]
    exact hone.symm
  · rw [hregs, mem_run_iff] at hj
    rw [hreg, if_neg hj]

theorem bothRetired_settledWord1 {s t0 t1 t : State} {u : Uses} (h : BothRetired s t0 t1 u t)
    (hslot : t.iss.slot = s.iss.slot) (hpend : (cur t).pend = []) : BothRetired s t0 t1 u (settledWord1 (cur t0).st t) := by
  have hsettled : settledWord1 (cur t0).st t = onCur (fun x => { x with
      st := (cur t0).st, pend := [], elig := Nat.max x.elig (match (cur t).st with | .held t => t | _ => 0) }) t := by
    unfold settledWord1
    dsimp only
    rw [hpend]
    rfl
  have hcur : cur (settledWord1 (cur t0).st t) = { cur t with
      st := (cur t0).st, pend := [], elig := Nat.max (cur t).elig (match (cur t).st with | .held t => t | _ => 0) } := by
    rw [hsettled, cur_onCur]
  have hreg : ∀ j, regAt (settledWord1 (cur t0).st t) s.iss.slot j = regAt t s.iss.slot j := by
    intro j
    rw [← hslot, hsettled]
    refine regAt_onCur (fun _ => ?_) j t
    rfl
  refine ⟨?_, ?_, ?_, ?_, ?_, fun j hj => ?_, fun j hj => ?_⟩
  · rw [hsettled]
    exact h.res
  · rw [hsettled]
    exact h.mem
  · rw [hcur]
    exact h.pa
  · rw [hcur]
    exact h.widx
  · rw [hcur]
  · rw [hreg, h.written j hj]
  · rw [hreg, h.kept j hj]

/-! ## A reply whose pair waits with word 1 beside it -/

section

variable {x : Access} {d n : Nat} {s : State} (hact : x.act = .load d n false) (hgot : x.got = [])
  (hdue : x.due ≤ s.clock) (hrx : s.me.relaxed = []) (hp : s.me.posted = [])
  (hst : (slotOf s x.slot).st = .waiting (.reply x))
  (hgood : ∀ k < n, isBad s (homeOf s x.pages (x.va + k)) = false)

/-- The state in which word 0 of a reply has retired. -/
def repliedState (k d : Nat) (v : Word) (asked : List Nat) (s : State) : State :=
  freeSlotAgain k (advance (wrSlot k d v { reissue k s with asked := asked }))

include hact hgot hdue hrx hp hst hgood in
theorem exec_blockingReply_partner {p : Partner} (hpartner : (slotOf s x.slot).partner = some p) :
    ∃ asked, exec (.blockingReply x.slot) s =
      .next (finishPartner x.slot p (repliedState x.slot d (wordAtHomes s x.pages x.va n) asked s)) := by
  obtain ⟨asked, happ⟩ := applyAccess_load hact hgot (reissue x.slot s)
  have hgood' : ((List.range n).map fun k => homeOf (reissue x.slot s) x.pages (x.va + k)).any (isBad (reissue x.slot s)) =
      false := by
    have hgood' : ∀ k < n, isBad (reissue x.slot s) (homeOf (reissue x.slot s) x.pages (x.va + k)) = false := hgood
    simpa using hgood'
  have hfinish : finishAccess x (reissue x.slot s) = retire (wrSlot x.slot d (wordAtHomes s x.pages x.va n)
      { reissue x.slot s with asked := asked }) := by
    unfold finishAccess
    rw [settleBefore_of_first (earlierRx_of_none (s := reissue x.slot s) hrx _ _) hp, happ]
    dsimp only
    rw [hgood', if_neg Bool.false_ne_true, hact]
    exact if_neg Bool.false_ne_true
  refine ⟨asked, ?_⟩
  show execBlockingReply x.slot s = _
  unfold execBlockingReply
  rw [hst]
  dsimp only
  rw [farBlocked_of_first (earlierRx_of_none hrx _ _), if_neg Bool.false_ne_true, if_pos hdue]
  unfold endWait
  dsimp only
  rw [hfinish, retire, hpartner]
  exact if_pos rfl

end

theorem slotOf_repliedState {k d : Nat} {v : Word} {asked : List Nat} {s : State} {p : Partner}
    (hpartner : (slotOf s k).partner = some p) (hwidx : (slotOf s k).widx = 0) :
    slotOf (repliedState k d v asked s) k = { wakeSlot s.clock (slotOf s k) with
      partner := none, pa := wrapPa ((slotOf s k).pa + 8), widx := 0 } := by
  have hcur : cur (wrSlot k d v { reissue k s with asked := asked }) = slotOf s k := rfl
  have hslot : slotOf (advance (wrSlot k d v { reissue k s with asked := asked })) k =
      cur (advance (wrSlot k d v { reissue k s with asked := asked })) := rfl
  have hnext : nextPos (wrSlot k d v { reissue k s with asked := asked }).iss (slotOf s k) =
      (wrapPa ((slotOf s k).pa + 8), 0) := by
    show (if (slotOf s k).partner.isSome = true then
      (if (slotOf s k).widx = 0 then (wrapPa ((slotOf s k).pa + 8), 0) else ((slotOf s k).pa, (slotOf s k).widx))
      else _) = _
    rw [hpartner, hwidx]
    rfl
  rw [repliedState, freeSlotAgain, slotOf_setSlot_same, hslot, cur_advance, hcur, hnext]
  rfl

/-- The state in which the partner of a word that has retired runs. -/
def partnerState (l : Latch) (s : State) : State :=
  { s with iss := { s.iss with word := 1, par := true, latch := some l, res := .running } }

/-- ADD beside a word that has retired reads the pool as it stood before the pair and retires with it. -/
theorem finishPartner_add {k : Nat} {dd aa bb : BitVec 7} {l : Latch} {s : State} (hslot : s.iss.slot = k)
    (hrx : s.me.relaxed = []) (hmarks : (slotOf s k).poisoned = []) (hst : (slotOf s k).st = .runnable)
    (hd : dd.toNat < (slotOf s k).winSize) (ha : aa.toNat < (slotOf s k).winSize) (hb : bb.toNat < (slotOf s k).winSize) :
    finishPartner k ⟨.add dd aa bb, l, 0⟩ s = advance (wr dd (spGet 0 l.pool ((slotOf s k).winBase + aa.toNat) +
      spGet 0 l.pool ((slotOf s k).winBase + bb.toNat)) (partnerState l s)) := by
  subst hslot
  have hready : Ready ⟨[.g dd, .g aa, .g bb], [.g dd]⟩ (partnerState l s) := by
    have hpending : pendingRegs (partnerState l s) = [] := by
      show (s.me.relaxed.filter _).flatMap _ = []
      rw [hrx]
      rfl
    refine ⟨?_, ?_, ?_⟩
    · rw [awaited, hpending]
      simp
    · have hsize : (cur (partnerState l s)).winSize = (slotOf s s.iss.slot).winSize := rfl
      simp [boundsFault, boundsOf, hsize, Nat.not_le.2 hd, Nat.not_le.2 ha, Nat.not_le.2 hb]
    · have hcur : (cur (partnerState l s)).poisoned = [] := hmarks
      rw [poisonMark, hcur]
      rfl
  have hexec : execAdd dd aa bb (partnerState l s) = .next (advance (wr dd (rd (partnerState l s) aa + rd (partnerState l s) bb)
      (partnerState l s))) := retires_of_ready rfl hready rfl
  have hA : execA (.add dd aa bb) (partnerState l s) = some (execAdd dd aa bb (partnerState l s)) := rfl
  have hslot : ∀ v, (slotOf (advance (wr dd v (partnerState l s))) s.iss.slot).st = .runnable := by
    intro v
    have hcur := congrArg Slot.st (cur_advance (wr dd v (partnerState l s)))
    exact (hcur : (slotOf (advance (wr dd v (partnerState l s))) s.iss.slot).st = _).trans hst
  show (match execA (.add dd aa bb) (partnerState l s) with
    | some (.next t) => _
    | _ => s) = _
  rw [hA, hexec]
  dsimp only
  rw [hslot]
  rfl

/-! ## The pair's outcomes -/

section

variable {i0 i1 : Instr} {w0 w1 : BitVec 32} {s : State} (henc0 : encode i0 = some w0) (henc1 : encode i1 = some w1)
  (hA1 : classA w1 = true) (hlatch : s.iss.latch.isSome = true) (hpar : s.iss.par = true) {t0 t1 : State}
  (ht0 : exec i0 s = .next t0) (ht1 : exec i1 (onWord 1 s) = .next t1)

include henc1 hA1 ht1 in
theorem holdOf_retired (hres : t1.iss.res = .retired)
    (hst : (cur s).st = .runnable) : holdOf t1 = 0 := by
  obtain ⟨k, ws, -, rfl, -⟩ := (exec_alike henc1 hA1 (SameReads.refl (onWord 1 s))).retired ht1 hres
  have hcur : (cur (advance (wrRun k ws (onWord 1 s)))).st = .runnable := by
    have hadv := congrArg Slot.st (cur_advance (wrRun k ws (onWord 1 s)))
    refine (hadv : _ = (cur (wrRun k ws (onWord 1 s))).st).trans ?_
    rw [cur_wrRun]
    exact hst
  rw [holdOf, hcur]

include henc1 hA1 ht0 ht1 in
/-- END beside a word that retires empties the slot at once (R84). -/
theorem runBoth_ended {l : Latch} (hl : s.iss.latch = some l) (hres0 : t0.iss.res = .retired) (hempty : (cur t0).st = .empty)
    (hres1 : t1.iss.res = .retired) (hst : (cur s).st = .runnable) : runBoth exec i0 i1 s = .next t0 := by
  rw [runBoth_retired henc1 hA1 ht0 ht1 hres0, hres1, if_neg (by decide), if_pos hempty,
    holdOf_retired henc1 hA1 ht1 hres1 hst, endsPair, hl]
  rfl

include henc0 henc1 hA1 hlatch hpar ht0 ht1 in
theorem runBoth_bothRetired (hres0 : t0.iss.res = .retired) (hne : (cur t0).st ≠ .empty) (hpend : (cur t0).pend = [])
    (hres1 : t1.iss.res = .retired) (hst : (cur s).st = .runnable) :
    ∃ t, runBoth exec i0 i1 s = .next t ∧ BothRetired s t0 t1 (uses i1) t := by
  have hkeeps := pairKeeps_of_retired henc0 ht0 hres0 hne
  obtain ⟨k, ws, hregs, rfl, hafter⟩ := word1After_retired henc1 hA1 ht1 hkeeps hlatch hres1
  have hboth := bothRetired_word1Left hkeeps hpar hregs
  have hrun : runBoth exec i0 i1 s = .next (if (cur t0).st = .runnable
      then word1Left t0 (advance (wrRun k ws (word1State s t0)))
      else settledWord1 (cur t0).st (word1Left t0 (advance (wrRun k ws (word1State s t0))))) := by
    rw [runBoth_retired henc1 hA1 ht0 ht1 hres0, hres1, if_neg (by decide), if_neg hne,
      holdOf_retired henc1 hA1 ht1 hres1 hst, if_pos rfl, hafter]
  refine ⟨_, hrun, ?_⟩
  split
  · exact hboth
  · have hcur := cur_word1Left_retired (s := s) (hkeeps.par.trans hpar) k ws
    have hiss : (word1Left t0 (advance (wrRun k ws (word1State s t0)))).iss.slot = s.iss.slot := by
      show (wrRun k ws (word1State s t0)).iss.slot = s.iss.slot
      rw [wrRun, wrSlotRun_frame]
      exact hkeeps.issSlot
    exact bothRetired_settledWord1 hboth hiss ((congrArg Slot.pend hcur).trans hpend)

theorem frame_word1Left_held (turns : Nat) (ws : List (Nat × Word)) (s t : State) :
    (word1Left t (heldState turns ws (word1State s t))).mem = t.mem ∧
    (word1Left t (heldState turns ws (word1State s t))).me.pool = t.me.pool := ⟨rfl, rfl⟩

include henc0 henc1 hA1 hlatch hpar ht0 ht1 in
theorem runBoth_held {stop : Nat} (hres0 : t0.iss.res = .retired) (hst0 : (cur t0).st = .runnable)
    (hres1 : t1.iss.res = .held) (hst1 : (cur t1).st = .held stop) (hstop : 0 < stop) :
    ∃ t, runBoth exec i0 i1 s = .next t ∧ t.mem = t0.mem ∧ t.me.pool = t0.me.pool ∧ (cur t).pa = (cur t0).pa ∧
      (cur t).widx = (cur t0).widx ∧ (cur t).st = .held stop ∧ (cur t).pend = (cur t1).pend := by
  have hne : (cur t0).st ≠ .empty := by
    rw [hst0]
    exact nofun
  have hhold : holdOf t1 = stop := by rw [holdOf, hst1]
  have hkeeps := pairKeeps_of_retired henc0 ht0 hres0 hne
  have hkeepsAt := hkeeps.trans (pairKeeps_retireAt stop s t0)
  obtain ⟨elig, hcurAt⟩ := cur_retireAt stop s t0
  have hstAt : (cur (retireAt stop s t0)).st = .runnable := by
    rw [hcurAt]
    exact hst0
  obtain ⟨turns, ws, rfl, hafter⟩ := word1After_held henc1 hA1 ht1 hkeepsAt hlatch hres1 hstAt
  have hcur := cur_word1Left_held (s := s) (hkeepsAt.par.trans hpar) turns ws
  have hheld : cur (heldState turns ws (onWord 1 s)) =
      { cur (advance (onWord 1 s)) with st := .held (holdStop (onWord 1 s) turns), pend := ws } :=
    (cur_onCur (fun c => { c with st := .held (holdStop (onWord 1 s) turns), pend := ws }) (advance (onWord 1 s)) :)
  rw [hheld] at hst1
  have hstops : holdStop (word1State s (retireAt stop s t0)) turns = stop :=
    (holdStop_eq (pairKeeps_word1State hkeepsAt) turns).trans (SlotState.held.inj hst1)
  rw [hstops, hcurAt] at hcur
  have hrun : runBoth exec i0 i1 s =
      .next (word1Left (retireAt stop s t0) (heldState turns ws (word1State s (retireAt stop s t0)))) := by
    rw [runBoth_retired henc1 hA1 ht0 ht1 hres0, hres1, if_neg (by decide), if_neg hne, hhold, if_neg hstop.ne', hafter]
  obtain ⟨hmem, hpool⟩ := frame_word1Left_held turns ws s (retireAt stop s t0)
  refine ⟨_, hrun, hmem.trans rfl, hpool.trans rfl, ?_, ?_, ?_, ?_⟩
  · rw [hcur]
  · rw [hcur]
  · rw [hcur]
  · rw [hcur, hheld]

end

section

variable (k d : Nat) (v : Word) (asked : List Nat) (s : State)

theorem repliedState_frame : (repliedState k d v asked s).iss.slot = k ∧
    (repliedState k d v asked s).me.relaxed = s.me.relaxed ∧ (repliedState k d v asked s).mem = s.mem := ⟨rfl, rfl, rfl⟩

theorem regAt_repliedState : regAt (repliedState k d v asked s) k d = v := by
  have hslot : slotOf (wrSlot k d v { reissue k s with asked := asked }) k = slotOf s k := rfl
  rw [repliedState, regAt_retired hslot]
  exact spGet_set_same _ _ _ _

end

section

variable (l : Latch) (dd : BitVec 7) (v : Word) (u : State)

theorem slotOf_partner_retired : slotOf (advance (wr dd v (partnerState l u))) u.iss.slot = slotOf u u.iss.slot :=
  (cur_advance_word1 (s := wr dd v (partnerState l u)) rfl rfl :)

theorem mem_partner_retired : (advance (wr dd v (partnerState l u))).mem = u.mem := rfl

theorem regAt_partner_same : regAt (advance (wr dd v (partnerState l u))) u.iss.slot dd.toNat = v :=
  regAt_advance_wr dd v (partnerState l u)

theorem regAt_partner_other {j : Nat} (hj : j ≠ dd.toNat) :
    regAt (advance (wr dd v (partnerState l u))) u.iss.slot j = regAt u u.iss.slot j := by
  rw [regAt, slotOf_partner_retired]
  exact pool_wrSlot_other _ _ _ _ _ fun h => hj (Nat.add_left_cancel h)

end

/-- Settles O17: the checks of a pair, its branches, and the partner of a blocking load. -/
theorem pairResults : Obligations.PairResults := by
  refine ⟨?_, ?_⟩
  · intro i0 i1 w0 w1 s henc0 henc1 _ hA1 s' sl ks both run
    refine ⟨fun h => runPair_waits h, fun v h hv => runPair_bounds0 h hv, fun v h h0 hv => runPair_bounds1 h h0 hv,
      fun h h0 h1 => ⟨fun k hk hboth hleast => ?_, fun hnone t0 ht0 => ?_⟩⟩
    · refine (runPair_inBounds h h0 h1).trans ?_
      rw [show doubleWrite (pairState s) (uses i0) (uses i1) = some k from doubleWrite_eq_some hk hboth hleast]
      rfl
    · have hrun : run = runBoth exec i0 i1 s' := by
        refine (runPair_inBounds h h0 h1).trans ?_
        rw [show doubleWrite (pairState s) (uses i0) (uses i1) = none from doubleWrite_eq_none hnone]
        rfl
      rw [hrun]
      refine ⟨runBoth_stopped ht0, fun t1 ht1 => ⟨fun hres0 hres1 => ?_, fun hres0 hempty hres1 hst => ?_,
        fun hres0 hne hpend hres1 hst => ?_, fun stop hres0 hst0 hres1 hst1 hstop => ?_, fun why hres0 hst0 => ?_⟩⟩
      · rw [runBoth_retired henc1 hA1 ht0 ht1 hres0, if_pos hres1]
      · exact runBoth_ended henc1 hA1 ht0 ht1 rfl hres0 hempty hres1 hst
      · obtain ⟨t, ht, hdone⟩ := runBoth_bothRetired henc0 henc1 hA1 rfl rfl ht0 ht1 hres0 hne hpend hres1 hst
        exact ⟨t, ht, hdone.res, hdone.mem, hdone.pa, hdone.widx, hdone.st, hdone.written, hdone.kept⟩
      · exact runBoth_held henc0 henc1 hA1 rfl rfl ht0 ht1 hres0 hst0 hres1 hst1 hstop
      · rw [runBoth_waiting henc1 hA1 ht0 ht1 hres0 hst0]
        refine ⟨fun hres1 => if_pos hres1, fun hres1 hin hend => ?_, fun hres1 hin => ?_⟩
        · rw [if_neg hres1, if_neg (by simp [hin, hend])]
        · rw [if_neg hres1, if_pos (by simpa using hin)]
  · intro x d dd aa bb l s hact hgot hdue hrx hp c homes hst hpartner hmarks hwidx hd ha hb hne hgood
    have hgood' : ∀ k < 8, isBad s (homeOf s x.pages (x.va + k)) = false := fun k hk =>
      hgood _ (List.mem_map.2 ⟨k, List.mem_range.2 hk, rfl⟩)
    obtain ⟨asked, hexec⟩ := exec_blockingReply_partner hact hgot hdue hrx hp hst hgood' hpartner
    have hslot := slotOf_repliedState (d := d) (v := wordAtHomes s x.pages x.va 8) (asked := asked) hpartner hwidx
    obtain ⟨husl, hurx, humem⟩ := repliedState_frame x.slot d (wordAtHomes s x.pages x.va 8) asked s
    have hureg := regAt_repliedState x.slot d (wordAtHomes s x.pages x.va 8) asked s
    generalize repliedState x.slot d (wordAtHomes s x.pages x.va 8) asked s = u at hexec hslot husl hurx humem hureg
    rw [finishPartner_add husl (hurx.trans hrx) (by rw [hslot]; exact hmarks) (by rw [hslot]; rfl) (by rw [hslot]; exact hd)
      (by rw [hslot]; exact ha) (by rw [hslot]; exact hb), hslot] at hexec
    have hdone := fun v => slotOf_partner_retired l dd v u
    have hsame := fun v => regAt_partner_same l dd v u
    have hother := fun v => regAt_partner_other l dd v u hne
    rw [husl, hslot] at hdone
    rw [husl] at hsame hother
    refine ⟨_, hexec, ?_, ?_, ?_, ?_, (mem_partner_retired _ _ _ _).trans humem, (hother _).trans hureg, hsame _⟩
    · rw [hdone]
      rfl
    · rw [hdone]
      rfl
    · rw [hdone]
    · rw [hdone]

end Sys2Proof.Proofs
end

section
/-!
SUPPORT. Every step keeps memory in its canonical form: every word, every step that the package takes without a word, and
what a core's turn and the end of a cycle add to them.
-/

namespace Sys2Proof.Proofs

open Sys2Proof Sys2Proof.Machine Sys2Proof.Laws

/- Many short lemmas that use one another: elaborated side by side, each would hold a thread while it waits for the others. -/
set_option Elab.async false

/-- Memory is in its canonical form in the next state that `o` answers, if it answers one. -/
def Canonical (o : Out State) : Prop := ∀ t, o = .next t → t.memOk

theorem canonical_next {t : State} (h : t.memOk) : Canonical (.next t) := fun _ ht => Host.Outcome.next.inj ht ▸ h

theorem canonical_refused {r : Refusal} : Canonical (.refused r) := fun _ h => nomatch h

theorem canonical_fault {f : Fault} : Canonical (.fault f) := fun _ h => nomatch h

theorem canonical_ite {c : Prop} [Decidable c] {o o' : Out State} (h : Canonical o) (h' : Canonical o') :
    Canonical (if c then o else o') := by
  split
  · exact h
  · exact h'

/-- A step that takes effect under a condition, and is else not due. -/
theorem canonical_when {c : Prop} [Decidable c] {t : State} {r : Refusal} (h : t.memOk) :
    Canonical (if c then .next t else .refused r) := canonical_ite (canonical_next h) canonical_refused

theorem canonical_onNext {f : State → State} {o : Out State} (hf : ∀ {u : State}, u.memOk → (f u).memOk) (h : Canonical o) :
    Canonical (onNext f o) := by
  cases o with
  | next u => exact canonical_next (hf (h u rfl))
  | fault f => exact canonical_fault
  | refused r => exact canonical_refused

section

variable {s : State} (hs : s.memOk)
include hs

theorem Does.canonical {o : Out State} (h : Does s o) : Canonical o := by
  intro t ht
  obtain ⟨u, hu, hguard⟩ := h.guarded
  exact Host.Outcome.next.inj (hu.symm.trans ht) ▸ hguard.mem hs

theorem canonical_retire : Canonical (retire s) := canonical_next hs

theorem canonical_trap {cause : BitVec 5} {v : Word} : Canonical (trap cause v s) :=
  canonical_next (memOk_same hs (takeTrap_mem cause v s))

/-! ## Words -/

omit hs in
theorem canonical_enterWith {uses : Uses} {priv : Option Word} {reports : Bool} {k : State → Out State} (hs : s.memOk)
    (hk : Canonical (k s)) : Canonical (enterWith uses priv reports s k) := by
  rcases enterWith_cases uses priv reports s k with h | ⟨v, -, h⟩ | ⟨v, -, -, h⟩ | ⟨p, -, h⟩ | ⟨-, -, -, h⟩
  · exact h ▸ canonical_next hs
  · exact h ▸ canonical_trap hs
  · exact h ▸ canonical_trap hs
  · exact h ▸ canonical_next (memOk_of_mem_eq (takeTrap_mem _ _ _) (memOk_same hs))
  · exact h ▸ hk

theorem canonical_mtsEffect {sr : Nat} {v pattern : Word} : Canonical (mtsEffect sr v pattern s) := by
  have hone : ∀ {c : Prop} [Decidable c] {u : State}, u.memOk → Canonical (if c then trap cIllegal v s else retire u) :=
    fun hu => canonical_ite (canonical_trap hs) (canonical_retire hu)
  have hrottab : ∀ n, Canonical (mtsRottab n v s) := fun n => hone (memOk_same hs)
  unfold mtsEffect
  split
  · exact hone (memOk_same hs)
  · exact hone (memOk_same hs)
  · exact hone (memOk_same hs)
  · exact hrottab 0
  · exact hrottab 1
  · exact hrottab 2
  · exact hrottab 3
  · refine canonical_ite (canonical_trap hs) ?_
    split
    · exact canonical_trap hs
    · exact canonical_retire (memOk_same hs)
  · exact hone (memOk_same hs)
  · exact hone (memOk_same hs)
  · exact hone (memOk_same hs)
  · exact hone (memOk_same hs)
  · exact hone (memOk_same hs)
  · exact canonical_trap hs

theorem canonical_mtsStep {sr : BitVec 12} {v : Word} : Canonical (mtsStep sr v s) :=
  canonical_enterWith hs (canonical_mtsEffect hs)

theorem canonical_word {i : Instr} (hword : isWord i = true) : Canonical (exec i s) := by
  by_cases hmts : ∃ d sr, i = .mts d sr
  · obtain ⟨d, sr, rfl⟩ := hmts
    exact canonical_enterWith hs (canonical_mtsEffect hs)
  · exact (does_exec hword (fun d sr h => hmts ⟨d, sr, h⟩) s).canonical hs

theorem memOk_execA {i : Instr} {t : State} (h : execA i s = some (.next t)) : t.memOk := by
  have hA : (execA i s).isSome = true := h ▸ rfl
  have hexec := (execA_alike hA (SameReads.refl s)).1
  exact (does_classA hA).canonical hs t (Option.some.inj (hexec.symm.trans h))

/-! ## Waits that end -/

theorem memOk_finishPartner {k : Nat} {p : Partner} : (finishPartner k p s).memOk := by
  unfold finishPartner
  split
  · rename_i t ht
    have hok : t.memOk := memOk_execA (memOk_same hs) ht
    split
    · exact memOk_ite (memOk_same hok) (memOk_same hok)
    · exact hok
  · exact hs

theorem canonical_endWait {k : Nat} {f : State → Out State} (hf : ∀ {u : State}, u.memOk → Canonical (f u)) :
    Canonical (endWait k f s) := by
  have hwait : Canonical (f (reissue k s)) := hf (memOk_same hs)
  unfold endWait
  dsimp only
  generalize f (reissue k s) = o at hwait
  cases o with
  | next t =>
    have ht : t.memOk := hwait t rfl
    dsimp only
    split
    · split
      · exact canonical_next (memOk_finishPartner (memOk_same ht))
      · exact canonical_next (memOk_same ht)
    · split
      · exact canonical_next (memOk_same ht)
      · exact canonical_next (memOk_same ht)
  | fault f => exact canonical_fault
  | refused r => exact canonical_refused

theorem canonical_finishAccess {a : Access} : Canonical (finishAccess a s) := (does_finishAccess a).canonical hs

theorem canonical_laAct {form d : Nat} {a b : Word} : Canonical (laAct form d a b s) := by
  unfold laAct
  split
  · exact canonical_ite (canonical_trap hs) (canonical_retire (memOk_same hs))
  · exact canonical_retire (memOk_same hs)
  · exact canonical_retire (memOk_same hs)
  · exact canonical_retire (memOk_same hs)

theorem canonical_settleSlot {k : Nat} : Canonical (settleSlot k s) := by
  unfold settleSlot
  dsimp only
  split
  · refine canonical_ite (canonical_next hs) ?_
    split
    · exact canonical_endWait hs fun h => (does_trapPoison _).canonical h
    · exact canonical_ite (canonical_endWait hs fun h => canonical_retire h) (canonical_next hs)
  · split
    · exact canonical_endWait hs fun h => (does_trapPoison _).canonical h
    · exact canonical_ite (canonical_next hs) (canonical_next (memOk_same hs))
  · exact canonical_ite (canonical_next hs) (canonical_next (memOk_same hs (endFault_mem _ _)))
  · exact canonical_ite (canonical_endWait hs fun h => canonical_laAct h) (canonical_next hs)
  · exact canonical_next hs

theorem memOk_settle : (settle s).memOk := by
  refine memOk_fold (fun k h => ?_) hs
  have hslot := canonical_settleSlot h (k := k)
  unfold nextOr
  split
  · exact hslot _ ‹_›
  · exact h

theorem memOk_turnState {c : Nat} : (turnState c s).memOk := memOk_settle (memOk_of_mem_eq (atZero_mem _) (memOk_same hs))

end

section

variable {s : State} (hs : s.memOk)
include hs

/-! ## The steps of threads, messages and launches -/

theorem canonical_rotationSwitch : Canonical (execRotationSwitch s) := by
  unfold execRotationSwitch
  split
  · exact canonical_when (memOk_same hs)
  · exact canonical_refused

theorem canonical_blockingReply {k : Nat} : Canonical (execBlockingReply k s) := by
  unfold execBlockingReply
  split
  · rename_i a _
    have hparts : (applyParts a s).2.memOk := memOk_applyParts hs
    generalize applyParts a s = r at hparts ⊢
    obtain ⟨b, u⟩ := r
    exact canonical_ite canonical_refused (canonical_ite (canonical_endWait hs fun h => canonical_finishAccess h)
      (canonical_ite canonical_refused (canonical_next (memOk_same hparts))))
  · exact canonical_refused

theorem canonical_relaxedAccessComplete {id : Nat} : Canonical (execRelaxedAccessComplete id s) := by
  unfold execRelaxedAccessComplete
  split
  · rename_i a _
    have hparts : (applyParts a s).2.memOk := memOk_applyParts hs
    generalize applyParts a s = r at hparts ⊢
    obtain ⟨b, u⟩ := r
    exact canonical_ite canonical_refused (canonical_ite
      (canonical_next (memOk_completeRelaxed _ _ (memOk_settleBefore _ _ hs)))
      (canonical_ite canonical_refused (canonical_next (memOk_same hparts))))
  · exact canonical_refused

theorem canonical_holdEnd {k : Nat} : Canonical (execHoldEnd k s) := by
  unfold execHoldEnd
  dsimp only
  split
  · exact canonical_when (memOk_same hs)
  · exact canonical_refused

theorem canonical_messageArrival {m : Message} : Canonical (execMessageArrival m s) := by
  unfold execMessageArrival
  split
  · exact canonical_next (memOk_of_mem_eq (freedSince_mem _ _) (memOk_arrive (memOk_same hs)))
  · exact canonical_refused

theorem canonical_waitingMessageStart {cls : Nat} : Canonical (execWaitingMessageStart cls s) := by
  unfold execWaitingMessageStart
  split
  · split
    · exact canonical_next (memOk_same hs)
    · exact canonical_refused
  · exact canonical_refused

theorem canonical_deviceMessageEntry : Canonical (execDeviceMessageEntry s) := by
  unfold execDeviceMessageEntry
  split
  · exact canonical_when (memOk_of_mem_eq (mailboxFreed_mem _) (memOk_enterMail (memOk_same hs)))
  · exact canonical_refused

theorem canonical_launchRecord {die base : Nat} : Canonical (execLaunchRecord die base s) := by
  unfold execLaunchRecord
  split
  · exact canonical_next (memOk_launchOn hs)
  · exact canonical_next (memOk_feedLaunch hs)
  · exact canonical_next (memOk_readRecord hs)
  · exact canonical_refused

theorem canonical_dynamicTaskDispatch {cluster : Nat} : Canonical (execDynamicTaskDispatch cluster s) := by
  unfold execDynamicTaskDispatch
  dsimp only
  split
  · exact canonical_refused
  · split
    · exact canonical_refused
    · split
      · exact canonical_refused
      · exact canonical_next (memOk_withCore (fun h => memOk_same h) (memOk_same hs))

theorem canonical_fetchLineBroadcast {line : Nat} : Canonical (execFetchLineBroadcast line s) :=
  canonical_ite canonical_refused (canonical_ite (canonical_when (memOk_same hs))
    (canonical_ite canonical_refused (canonical_next (memOk_same hs))))

theorem canonical_barrierWake {scope inst id : Nat} {phase : BitVec 16} :
    Canonical (execBarrierWake scope inst id phase s) := by
  unfold execBarrierWake
  split
  · exact canonical_next (memOk_same hs)
  · exact canonical_refused

/-! ## Translations and migrations -/

theorem canonical_l2TlbHit {k : Nat} : Canonical (execL2TlbHit k s) := by
  unfold execL2TlbHit
  dsimp only
  split
  · split
    · exact canonical_next (memOk_same hs)
    · exact canonical_refused
  · exact canonical_refused

theorem memOk_endWalk {va : Nat} : (endWalk va s).memOk := by
  unfold endWalk
  split
  · exact memOk_same hs
  · exact memOk_fold (fun _ h => memOk_withCore (fun h => memOk_same h) h) (memOk_same hs)

theorem canonical_walkComplete {va : Nat} : Canonical (execWalkComplete va s) := by
  refine canonical_ite canonical_refused ?_
  split
  · exact canonical_next (memOk_same hs)
  · split
    · exact canonical_when (memOk_endWalk (memOk_same hs))
    · exact canonical_ite canonical_refused
        (canonical_next (memOk_of_mem_eq (setWalks_mem _ _) (memOk_of_mem_eq (popDelay_mem s) hs)))

theorem canonical_pwake {addr thread coreSlot : Nat} {deny : Bool} : Canonical (execPwake addr deny thread coreSlot s) :=
  canonical_ite canonical_refused (canonical_next (memOk_withCore (fun h => memOk_same h) (memOk_same hs)))

theorem canonical_migrationDepart {k : Nat} : Canonical (execMigrationDepart k s) := by
  unfold execMigrationDepart
  split
  · exact canonical_ite canonical_refused (canonical_next (memOk_same hs))
  · exact canonical_refused

theorem canonical_migrationArrival {die : Nat} : Canonical (execMigrationArrival die s) := by
  unfold execMigrationArrival
  split
  · exact canonical_next (memOk_withCore (fun h => memOk_same h) (memOk_withCore (fun h => memOk_land h) (memOk_same hs)))
  · exact canonical_refused

/-! ## Contexts -/

theorem canonical_bellRing : Canonical (execBellRing s) := by
  refine canonical_ite ?_ canonical_refused
  dsimp only
  generalize hu : (if s.ctx.fixed = true then drainTrace s else s) = u
  have hok : u.memOk := hu ▸ memOk_ite (memOk_drainTrace hs) hs
  exact canonical_next (memOk_same hok)

theorem canonical_contextSave {area : Nat} : Canonical (execContextSave area s) := by
  unfold execContextSave
  refine canonical_ite ?_ canonical_refused
  dsimp only
  generalize hu : (if s.ctx.fixed = true then drainTrace s else s) = u
  have hdrained : u.memOk := hu ▸ memOk_ite (memOk_drainTrace hs) hs
  generalize hv : List.foldl _ (stopUnits u) _ = v
  have hfixed : v.memOk := hv ▸ memOk_fold (fun _ h => memOk_storeWords _ _ _ h) (memOk_same hdrained)
  generalize hw : savePartsOf area v = w
  have hok : w.memOk := hw ▸ memOk_savePartsOf hfixed
  exact canonical_next (memOk_same hok)

theorem canonical_partitionSaveRecord {base : Nat} : Canonical (execPartitionSaveRecord base s) := by
  refine canonical_ite ?_ canonical_refused
  dsimp only
  generalize hu : List.foldl _ s (partWords s) = u
  have hok : u.memOk := hu ▸ memOk_fold (fun _ h => memOk_storeWords _ _ _ h) hs
  exact canonical_next (memOk_copyCheckpoint (memOk_same hok))

theorem canonical_contextResume {area base : Nat} : Canonical (execContextResume area base s) := by
  unfold execContextResume
  split
  · exact canonical_ite canonical_refused (canonical_next (memOk_resumeAt hs))
  · exact canonical_refused

theorem canonical_contextStart {cfg : CtxConfig} : Canonical (execContextStart cfg s) :=
  canonical_ite (canonical_ite (canonical_next (memOk_startContext hs)) (canonical_next (memOk_same hs))) canonical_refused

/-! ## The controllers and rays -/

theorem canonical_controllerTake : Canonical (execControllerTake s) := by
  unfold execControllerTake
  split
  · exact canonical_ite canonical_refused (canonical_next (memOk_same hs))
  · exact canonical_refused

theorem canonical_deliverCaught : Canonical (deliverCaught s) := by
  refine canonical_ite canonical_refused ?_
  split
  · exact canonical_next (memOk_withCore (fun h => memOk_serveCatch h) hs)
  · exact canonical_refused

theorem canonical_blockDelivery {track : Nat} {bad : Bool} : Canonical (execBlockDelivery track bad s) := by
  unfold execBlockDelivery
  split
  · exact canonical_ite (canonical_next (memOk_ite (memOk_deliverBlock hs) (memOk_same hs))) (canonical_deliverCaught hs)
  · exact canonical_deliverCaught hs

theorem canonical_recordTest : Canonical (execRecordTest s) := by
  refine canonical_ite (canonical_next (memOk_makeVisits hs)) ?_
  split
  · refine canonical_ite canonical_refused (canonical_ite
      (canonical_next (memOk_blockDone (memOk_of_mem_eq (ringPop_mem _) (memOk_testBad hs)))) ?_)
    dsimp only
    generalize hu : testAll _ _ _ = u
    have hok : u.memOk := hu ▸ memOk_testAll (memOk_same hs)
    exact canonical_ite (canonical_next (memOk_blockDone (memOk_same hok))) (canonical_next (memOk_same hok))
  · exact canonical_refused

theorem canonical_holdClear {track entry : Nat} : Canonical (execHoldClear track entry s) := by
  unfold execHoldClear
  split
  · exact canonical_when (memOk_same hs)
  · exact canonical_refused

omit hs in
@[simp] theorem setMark_mem (a : Nat) (bad : Bool) (s : State) : (setMark a bad s).mem = s.mem := rfl

theorem canonical_remapEntry {dpa : Nat} {clean : Bool} : Canonical (execRemapEntry dpa clean s) :=
  canonical_ite canonical_fault (canonical_ite canonical_refused (canonical_ite (canonical_next (memOk_same hs))
    (canonical_next (memOk_appendEvent (memOk_same hs)))))

theorem canonical_memControllerDown {stack channel : Nat} : Canonical (execMemControllerDown stack channel s) :=
  canonical_ite (canonical_next (memOk_same hs)) (canonical_ite (canonical_next (memOk_same hs)) canonical_fault)

/-! ## The engines -/

theorem canonical_push {k : State → Out State} (h : Does s (k s)) : Canonical (enter ⟨[], []⟩ s k) :=
  canonical_enterWith hs (h.canonical hs)

theorem canonical_transferChunk : Canonical (execTransferChunk s) := by
  unfold execTransferChunk
  split
  · exact canonical_next (memOk_copyOn hs)
  · exact canonical_refused
  · exact fun t h => memOk_beginChunk hs h

theorem canonical_xstripeAtomSwitch : Canonical (execXstripeAtomSwitch s) := by
  unfold execXstripeAtomSwitch
  split
  · split
    · refine canonical_ite canonical_refused (canonical_ite (canonical_next (memOk_same hs)) ?_)
      dsimp only
      generalize hu : copyAtom _ _ s = u
      have hok : u.memOk := hu ▸ memOk_copyAtom _ _ _ hs
      refine canonical_next (memOk_of_mem_eq (transferGoOn_mem _ _) (memOk_ite (memOk_same hok) (memOk_same hok)))
    · exact canonical_refused
  · exact canonical_refused

theorem canonical_shootdownPassed : Canonical (execShootdownPassed s) := by
  unfold execShootdownPassed
  split
  · split
    · exact canonical_when (memOk_same hs)
    · exact canonical_refused
  · exact canonical_refused

theorem canonical_scanComplete : Canonical (execScanComplete s) := by
  unfold execScanComplete
  split
  · refine canonical_ite ?_ canonical_refused
    dsimp only
    split
    · exact canonical_next (memOk_engFault (memOk_same hs))
    · split
      · exact canonical_next (memOk_transferStop hs _)
      · refine canonical_ite (canonical_next (memOk_transferStop hs _)) (canonical_next ?_)
        exact memOk_of_mem_eq (transferPop_mem _) (memOk_of_mem_eq (engFull_mem _ _ _) (memOk_engPut hs))
  · exact canonical_refused

theorem canonical_matrixStep : Canonical (execMatrixStep s) := by
  have hretire : ∀ c, (mxTryIssue (mxRetire c s)).memOk := fun c => memOk_of_mem_eq (mxTryIssue_mem _) (memOk_mxRetire hs)
  unfold execMatrixStep
  split
  · exact canonical_when (hretire _)
  · exact canonical_ite (canonical_next (hretire _)) (canonical_when (memOk_same hs))
  · exact canonical_refused

theorem canonical_kindleEnd : Canonical (execKindleEnd s) := by
  unfold execKindleEnd
  split
  · exact canonical_when (memOk_same hs)
  · exact canonical_refused

theorem canonical_quenchEnd : Canonical (execQuenchEnd s) := by
  unfold execQuenchEnd
  split
  · exact canonical_when (memOk_same hs)
  · exact canonical_refused

theorem canonical_routingRun {cluster : Nat} : Canonical (execRoutingRun cluster s) := by
  unfold execRoutingRun
  split
  · exact canonical_when (memOk_withCore (fun h => memOk_routingRun h) hs)
  · exact canonical_refused

theorem canonical_reprojRun {die : Nat} : Canonical (execReprojRun die s) := by
  unfold execReprojRun
  split
  · exact canonical_when (memOk_withCore (fun h => memOk_reprojRun h) hs)
  · exact canonical_refused

theorem canonical_collectiveStart {die : Nat} {remote : List RemoteRank} : Canonical (execCollectiveStart die remote s) := by
  unfold execCollectiveStart
  split
  · exact canonical_refused
  · exact canonical_ite canonical_refused (canonical_ite (canonical_next (memOk_readList hs))
      fun t h => memOk_matchHead hs h)

theorem canonical_collectiveComplete {die : Nat} : Canonical (execCollectiveComplete die s) := by
  unfold execCollectiveComplete
  split
  · exact canonical_refused
  · exact canonical_ite canonical_refused (canonical_ite (canonical_next (memOk_readInput hs))
      (canonical_when (memOk_writeOutput hs)))

/-! ## The learning automaton -/

theorem canonical_laClauseUpdate : Canonical (execLaClauseUpdate s) := by
  unfold execLaClauseUpdate
  split
  · exact canonical_ite canonical_refused (canonical_ite (canonical_next (memOk_same hs)) (canonical_next (memOk_same hs)))
  · exact canonical_refused

theorem canonical_lainfComplete {k : Nat} : Canonical (execLainfComplete k s) := by
  unfold execLainfComplete
  split
  · exact canonical_ite (canonical_endWait hs fun h => canonical_retire (memOk_same h)) canonical_refused
  · exact canonical_refused

theorem memOk_marked {l : List Nat} : ({ s with poison := l } : State).memOk := memOk_of_mem_eq rfl hs

theorem canonical_inferenceRecord : Canonical (execInferenceRecord s) := by
  unfold execInferenceRecord
  split
  · split
    · exact canonical_ite canonical_refused (canonical_next (memOk_same hs))
    · refine canonical_ite canonical_refused ?_
      dsimp only
      generalize hu : writeBytes _ _ s = u
      have hwritten : u.memOk := hu ▸ memOk_write hs
      refine canonical_next (memOk_of_mem_eq (laCompleted_mem _) (memOk_of_mem_eq (onLa_mem _ _) ?_))
      exact memOk_ite (memOk_marked hwritten) hwritten
    · exact canonical_refused
  · exact canonical_refused

/-! ## Firmware and the host -/

theorem canonical_hostAccess {dpa size : Nat} {data : Option (List Byte)} : Canonical (execHostAccess dpa data size s) := by
  refine canonical_ite ?_ canonical_fault
  split
  · exact canonical_next (memOk_ite (memOk_hostStore _ _ _ hs) hs)
  · exact canonical_next hs

theorem canonical_command {name : String} {op : BitVec 8} {ws : List Word} {act : State → Nat × State}
    (hact : ∀ {u : State}, u.memOk → (act u).2.memOk) : Canonical (onCommand name op ws s act) :=
  fun _ h => memOk_onCommand hs hact h

theorem canonical_qreg {base n : Nat} : Canonical (execQreg base n s) := by
  refine canonical_command hs fun {u} h => ?_
  split
  · exact h
  · dsimp only
    exact memOk_fold (fun _ h => memOk_same h) (memOk_same h)

theorem canonical_qreset {base : Nat} : Canonical (execQreset base s) :=
  canonical_command hs fun h => memOk_fold (fun d h => memOk_resetQueue h d) h

theorem canonical_qremove {base : Nat} : Canonical (execQremove base s) :=
  canonical_command hs fun h => memOk_fold (fun _ h => memOk_same h) h

theorem canonical_ckpt : Canonical (execCkpt s) := by
  refine canonical_command hs fun {u} h => ?_
  split
  · exact memOk_same h
  · exact h

theorem canonical_pcap {watts : Nat} : Canonical (execPcap watts s) := by
  refine canonical_onNext (fun {u} h => ?_) (canonical_command hs fun {u} h => ?_)
  · split
    · exact memOk_same h
    · exact h
  · split
    · exact memOk_same h
    · exact h

theorem canonical_conn {n : Nat} {v : Word} : Canonical (execConn n v s) :=
  canonical_command hs fun h => memOk_same h

theorem canonical_attest {report nonce : Nat} : Canonical (execAttest report nonce s) :=
  canonical_command hs fun h => memOk_write h

theorem canonical_refusedCommand {op : BitVec 8} : Canonical (execRefusedCommand op s) :=
  canonical_ite canonical_refused (canonical_command hs fun h => h)

theorem canonical_checkpointComplete : Canonical (execCheckpointComplete s) := by
  unfold execCheckpointComplete
  split
  · exact canonical_next (memOk_same hs)
  · exact canonical_refused

theorem canonical_jobFaultResume {failed cycles : Nat} : Canonical (execJobFaultResume failed cycles s) := by
  unfold execJobFaultResume
  split
  · split
    · refine canonical_ite (canonical_next (memOk_appendEvent (memOk_resumeAll ?_))) canonical_refused
      dsimp only
      generalize hu : restoreCheckpoint _ _ = u
      have hok : u.memOk := hu ▸ memOk_restoreCheckpoint _ _ (memOk_same hs)
      exact memOk_same hok
    · exact canonical_refused
  · exact canonical_refused

theorem canonical_afyarFlitReceive {port : Nat} {f : Flit} : Canonical (execAfyarFlitReceive port f s) :=
  canonical_ite canonical_refused (canonical_ite (canonical_next (memOk_takeFlit (memOk_same hs)))
    (canonical_next (memOk_appendEvent (memOk_ite hs (memOk_same hs)))))

theorem canonical_linkReplay {port : Nat} : Canonical (execLinkReplay port s) := by
  unfold execLinkReplay
  dsimp only
  split
  · exact canonical_next (memOk_same hs)
  · exact canonical_refused

theorem canonical_powerSample {watts : Nat} : Canonical (execPowerSample watts s) := by
  refine canonical_ite (canonical_next ?_) canonical_refused
  refine memOk_fold (fun c h => memOk_withCore (fun h => memOk_same h) h) (memOk_fold (fun e h => ?_) (memOk_same hs))
  split
  · exact memOk_setSavedRate h
  · exact h

omit hs in
theorem drawWords_mem (n : Nat) (s : State) : (drawWords n s).2.mem = s.mem := by
  induction n generalizing s with
  | zero => rfl
  | succ n ih => exact (ih _).trans (drawWord_mem s)

theorem canonical_thermalLimit {die : Nat} : Canonical (execThermalLimit die s) := by
  have hdrawn : (drawWords 6 s).2.memOk := memOk_same hs (drawWords_mem 6 s)
  refine canonical_ite ?_ canonical_refused
  generalize drawWords 6 s = r at hdrawn ⊢
  obtain ⟨ws, u⟩ := r
  exact canonical_next (memOk_appendEvent (memOk_same hdrawn))

theorem canonical_postedWriteDrain : Canonical (execPostedWriteDrain s) := by
  unfold execPostedWriteDrain
  split
  · exact canonical_next (memOk_of_mem_eq (postedWake_mem _ _) (memOk_takePosted _ _ (memOk_same hs)))
  · exact canonical_refused

theorem canonical_watchDrop {k : Nat} : Canonical (execWatchDrop k s) := by
  unfold execWatchDrop
  split
  · exact canonical_next (memOk_same hs)
  · exact canonical_refused

theorem canonical_imageLoad {img : Image} : Canonical (execImageLoad img s) := by
  refine canonical_ite ?_ canonical_refused
  split
  · exact canonical_next (memOk_loadImage hs)
  · exact canonical_next (memOk_same hs)

theorem canonical_dieRemap {map : List Nat} : Canonical (execDieRemap map s) := by
  refine canonical_ite canonical_refused (canonical_ite (canonical_next (memOk_same hs)) ?_)
  cases h : remapAway map s with
  | none => exact canonical_when hs
  | some t =>
    obtain ⟨e, -, he⟩ := Option.map_eq_some_iff.1 h
    exact canonical_next (he ▸ memOk_same hs)

end

/-! ## Every step -/

theorem canonical_exec (i : Instr) {s : State} (hs : s.memOk) : Canonical (exec i s) := by
  by_cases hword : isWord i = true
  · exact canonical_word hs hword
  cases i with
  | rottabWrite _ _ | rotpolWrite _ | tvecWrite _ _ | bellWrite _ | tblcfgWrite _ | ebudgetWrite _
  | efillWrite _ | footprintWrite _ =>
    unfold exec; exact canonical_mtsStep hs
  | rotationSwitch => unfold exec; exact canonical_rotationSwitch hs
  | blockingReply _ => unfold exec; exact canonical_blockingReply hs
  | relaxedAccessComplete _ => unfold exec; exact canonical_relaxedAccessComplete hs
  | holdEnd _ => unfold exec; exact canonical_holdEnd hs
  | messageArrival _ => unfold exec; exact canonical_messageArrival hs
  | waitingMessageStart _ => unfold exec; exact canonical_waitingMessageStart hs
  | deviceMessageEntry => unfold exec; exact canonical_deviceMessageEntry hs
  | launchRecord _ _ => unfold exec; exact canonical_launchRecord hs
  | dynamicTaskDispatch _ => unfold exec; exact canonical_dynamicTaskDispatch hs
  | lineupRelease _ _ _ | lineupTimeout _ _ _ | preemptionRequest | energyRefill | burstDeadline | linkRekey _
  | checkpointSchedule | dieCoresInReset _ =>
    unfold exec; exact canonical_when (memOk_same hs)
  | fetchLineBroadcast _ => unfold exec; exact canonical_fetchLineBroadcast hs
  | barrierWake _ _ _ _ => unfold exec; exact canonical_barrierWake hs
  | l2TlbHit _ => unfold exec; exact canonical_l2TlbHit hs
  | walkComplete _ => unfold exec; exact canonical_walkComplete hs
  | pwake _ _ _ _ => unfold exec; exact canonical_pwake hs
  | migrationDepart _ => unfold exec; exact canonical_migrationDepart hs
  | migrationArrival _ => unfold exec; exact canonical_migrationArrival hs
  | bellRing => unfold exec; exact canonical_bellRing hs
  | contextSave _ => unfold exec; exact canonical_contextSave hs
  | partitionSaveRecord _ => unfold exec; exact canonical_partitionSaveRecord hs
  | contextResume _ _ => unfold exec; exact canonical_contextResume hs
  | contextStart _ => unfold exec; exact canonical_contextStart hs
  | dieRemap _ => unfold exec; exact canonical_dieRemap hs
  | controllerTake => unfold exec; exact canonical_controllerTake hs
  | segmentCall _ | firmwareBoot | firmwareImageWrite _ =>
    unfold exec; exact canonical_ite canonical_refused (canonical_next (memOk_same hs))
  | blockDelivery _ _ => unfold exec; exact canonical_blockDelivery hs
  | recordTest => unfold exec; exact canonical_recordTest hs
  | holdClear _ _ => unfold exec; exact canonical_holdClear hs
  | remapEntry _ _ => unfold exec; exact canonical_remapEntry hs
  | memControllerDown _ _ => unfold exec; exact canonical_memControllerDown hs
  | segmentDescriptorWrite _ => unfold exec; exact canonical_push hs (does_dscWrite _)
  | layoutEntryWrite _ _ => unfold exec; exact canonical_push hs (does_layoutWrite _ _)
  | xcopy _ | xstripe _ | xscan _ | xfill _ => unfold exec; exact canonical_push hs (does_pushTransfer _)
  | transferChunk => unfold exec; exact canonical_transferChunk hs
  | xstripeAtomSwitch => unfold exec; exact canonical_xstripeAtomSwitch hs
  | shootdownPassed => unfold exec; exact canonical_shootdownPassed hs
  | scanComplete => unfold exec; exact canonical_scanComplete hs
  | mxmac _ | mxwld _ | mxepi _ | mxzero _ => unfold exec; exact canonical_push hs (does_pushMatrix _)
  | matrixStep => unfold exec; exact canonical_matrixStep hs
  | kindleEnd => unfold exec; exact canonical_kindleEnd hs
  | quenchEnd => unfold exec; exact canonical_quenchEnd hs
  | rtsort _ => unfold exec; exact canonical_push hs (does_pushSort _)
  | routingRun _ => unfold exec; exact canonical_routingRun hs
  | reproj _ => unfold exec; exact canonical_push hs (does_pushReproj _)
  | reprojRun _ => unfold exec; exact canonical_reprojRun hs
  | a2av _ | areduce _ | agather _ | rscatter _ => unfold exec; exact canonical_push hs (does_pushCollective _)
  | collectiveStart _ _ => unfold exec; exact canonical_collectiveStart hs
  | collectiveComplete _ => unfold exec; exact canonical_collectiveComplete hs
  | laClauseUpdate => unfold exec; exact canonical_laClauseUpdate hs
  | lainfComplete _ => unfold exec; exact canonical_lainfComplete hs
  | inferenceRecord => unfold exec; exact canonical_inferenceRecord hs
  | cellSoftError _ | linkTraining _ => unfold exec; exact canonical_next (memOk_same hs)
  | hostAccess _ _ _ => unfold exec; exact canonical_hostAccess hs
  | qreg _ _ => unfold exec; exact canonical_qreg hs
  | qreset _ => unfold exec; exact canonical_qreset hs
  | qremove _ => unfold exec; exact canonical_qremove hs
  | ckpt => unfold exec; exact canonical_ckpt hs
  | pcap _ => unfold exec; exact canonical_pcap hs
  | conn _ _ => unfold exec; exact canonical_conn hs
  | attest _ _ => unfold exec; exact canonical_attest hs
  | checkpointComplete => unfold exec; exact canonical_checkpointComplete hs
  | jobFaultResume _ _ => unfold exec; exact canonical_jobFaultResume hs
  | afyarFlitReceive _ _ => unfold exec; exact canonical_afyarFlitReceive hs
  | linkReplay _ => unfold exec; exact canonical_linkReplay hs
  | powerSample _ => unfold exec; exact canonical_powerSample hs
  | thermalLimit _ => unfold exec; exact canonical_thermalLimit hs
  | traceRingDrain => unfold exec; exact canonical_when (memOk_drainTrace hs)
  | unassignedEncoding _ => unfold exec; exact canonical_trap hs
  | postedWriteDrain => unfold exec; exact canonical_postedWriteDrain hs
  | watchDrop _ => unfold exec; exact canonical_watchDrop hs
  | imageLoad _ => unfold exec; exact canonical_imageLoad hs
  | refusedCommand _ => unfold exec; exact canonical_refusedCommand hs
  | _ => exact absurd rfl hword

/-! ## A core's turn -/

section

variable {s : State} (hs : s.memOk)
include hs

theorem canonical_onCheck {c : Chk} {k : List Tr → State → Out State} (hk : ∀ pages, Canonical (k pages s)) :
    Canonical (onCheck c s k) := by
  cases c with
  | ok pages => exact hk pages
  | trap cause v => exact canonical_next (memOk_of_mem_eq (takeTrap_mem _ _ _) (memOk_same hs))
  | miss va kind => exact canonical_next (memOk_same hs)
  | migrate d m => exact canonical_next (memOk_same hs)
  | forfeit bs => exact canonical_next (memOk_same hs)

theorem canonical_fetchPair {k : BitVec 32 → BitVec 32 → State → Out State}
    (hk : ∀ {u : State} {w0 w1}, u.memOk → Canonical (k w0 w1 u)) : Canonical (fetchPair s k) := by
  unfold fetchPair
  dsimp only
  exact canonical_onCheck hs fun _ => canonical_ite (canonical_next (memOk_same hs))
    (canonical_ite (canonical_trap (memOk_same hs)) (hk (memOk_same hs)))

theorem canonical_runWord {w : BitVec 32} : Canonical (runWord exec w s) := by
  unfold runWord
  split
  · exact canonical_exec _ hs
  · exact canonical_exec _ hs

theorem canonical_word1After {i : Instr} {s0 : State} : Canonical (word1After i s0 s) := by
  unfold word1After
  dsimp only
  split
  · rename_i t ht
    have hok : t.memOk := memOk_execA (memOk_same hs) ht
    exact canonical_ite (canonical_next (memOk_same hok)) (canonical_next (memOk_same hok))
  · rename_i o hne ho
    intro t ht
    exact absurd ht (hne t)
  · exact canonical_next hs

theorem memOk_retireAt {stop : Nat} {s' : State} : (retireAt stop s' s).memOk := memOk_of_mem_eq rfl hs

theorem canonical_endsPair {i : Instr} {stop : Nat} {s0 : State} (hs0 : s0.memOk) : Canonical (endsPair i stop s s0) := by
  unfold endsPair
  split
  · exact canonical_ite (canonical_next hs0) (canonical_next (memOk_same hs))
  · exact canonical_next hs0

theorem canonical_runBoth {i0 i1 : Instr} : Canonical (runBoth exec i0 i1 s) := by
  have h0 : Canonical (exec i0 s) := canonical_exec i0 hs
  unfold runBoth
  dsimp only
  split
  · rename_i s0 ho
    have hs0 : s0.memOk := h0 s0 ho
    have hword1 : ∀ {s1 : State}, execA i1 (onWord 1 s) = some (.next s1) → s1.memOk := fun h => memOk_execA (memOk_same hs) h
    split
    · exact h0
    · exact h0
    · exact h0
    · exact h0
    · split
      · split
        · refine canonical_ite (canonical_next (hword1 ‹_›)) (canonical_ite ?_ h0)
          split
          · exact canonical_next (memOk_same hs0)
          · exact h0
        · exact h0
      · exact h0
    · split
      · exact canonical_ite (canonical_next (hword1 ‹_›)) (canonical_ite (canonical_endsPair hs hs0)
          (canonical_word1After (memOk_ite hs0 (memOk_retireAt hs0))))
      · exact h0
  · exact h0

theorem canonical_runPair {i0 i1 : Instr} : Canonical (runPair exec i0 i1 s) := by
  refine canonical_ite (canonical_next (memOk_same hs)) ?_
  split
  · exact canonical_trap (memOk_same hs)
  · exact canonical_trap (memOk_same hs)
  · exact canonical_trap (memOk_same hs)
  · exact canonical_runBoth (memOk_same hs)

theorem canonical_runParallel {w0 w1 : BitVec 32} : Canonical (runParallel exec w0 w1 s) := by
  refine canonical_ite (canonical_trap (memOk_same hs)) (canonical_ite (canonical_trap (memOk_same hs)) ?_)
  split
  · exact canonical_runPair hs
  · exact canonical_exec _ (memOk_same hs)
  · exact canonical_exec _ (memOk_same hs)

theorem canonical_issuePair {w0 w1 : BitVec 32} : Canonical (issuePair exec w0 w1 s) :=
  canonical_ite (canonical_runWord (memOk_same hs)) (canonical_ite (canonical_trap (memOk_same hs))
    (canonical_ite (canonical_runWord (memOk_same hs)) (canonical_runParallel (memOk_same hs))))

theorem canonical_issueTurn : Canonical (issueTurn exec s) := by
  unfold issueTurn
  split
  · exact canonical_fetchPair (memOk_same hs) fun h => canonical_issuePair h
  · exact canonical_next hs

theorem canonical_coreTurn {c : Nat} {rest : List Turn} : Canonical (coreTurn exec c rest s) :=
  canonical_onNext (fun h => memOk_same h) (canonical_issueTurn (memOk_turnState (memOk_same hs)))

/-! ## What is due, and the end of a cycle -/

theorem canonical_onCore {e : Due} : Canonical (onCore exec e s) := canonical_exec _ (memOk_same hs)

theorem canonical_takeBanks {e : Due} : Canonical (takeBanks e (onCore exec e s)) := by
  have hcore : Canonical (onCore exec e s) := canonical_onCore hs
  unfold takeBanks
  split
  · rename_i t ht
    have hok : t.memOk := hcore t ht
    exact canonical_ite (canonical_next hok) (canonical_next (memOk_same hok))
  · exact hcore

theorem canonical_firstDue {l : List Due} {o : Out State} (h : firstDue exec s l = some o) : Canonical o := by
  induction l with
  | nil => exact nomatch h
  | cons e es ih =>
    unfold firstDue at h
    split at h
    · exact ih h
    · exact Option.some.inj h ▸ canonical_takeBanks hs

theorem canonical_firstDue_getD {l : List Due} {o : Out State} (h : Canonical o) : Canonical ((firstDue exec s l).getD o) := by
  cases hfirst : firstDue exec s l with
  | none => exact h
  | some p => exact canonical_firstDue hs hfirst

theorem memOk_grantAll : (grantAll exec s).memOk := by
  refine memOk_fold (fun e h => ?_) (memOk_same hs)
  exact memOk_ite h (memOk_ite (memOk_same h) (memOk_same h))

theorem canonical_startCycle : Canonical (startCycle exec s) :=
  canonical_firstDue_getD hs (canonical_next (memOk_same (memOk_grantAll hs)))

end

theorem canonical_firstInput {l : List Input} {s : State} (hs : s.memOk) {o : Out State}
    (h : firstInput exec s l = some o) : Canonical o := by
  induction l with
  | nil => exact nomatch h
  | cons e es ih =>
    unfold firstInput at h
    dsimp only at h
    split at h
    · exact ih h
    · exact Option.some.inj h ▸ canonical_onCore (memOk_same hs)

theorem canonical_takeTurn {t : Turn} {rest : List Turn} {s : State} (hs : s.memOk) : Canonical (takeTurn exec t rest s) := by
  cases t with
  | issue c => exact canonical_firstDue_getD hs (canonical_coreTurn hs)
  | rest c => exact canonical_firstDue_getD hs (canonical_next (memOk_settle (memOk_same hs)))
  | last =>
    unfold takeTurn
    cases hfirst : firstInput exec s (lateInputs s) with
    | none => exact canonical_next (memOk_same hs)
    | some o => exact canonical_firstInput hs hfirst

theorem canonical_step {s : State} (hs : s.memOk) : Canonical (step s) := by
  unfold step stepWith
  split
  · exact canonical_takeTurn hs
  · exact canonical_startCycle hs

/-- Settles O58: every write of memory sets or clears bytes of a canonical list, and no other step touches it. -/
theorem stepKeepsMemory : Obligations.StepKeepsMemory := fun _ t hs h => canonical_step hs t h

end Sys2Proof.Proofs
end

section
/-!
SUPPORT. The carousel's words (R178 to R185).
-/

namespace Sys2Proof.Proofs

open Sys2Proof Sys2Proof.Machine Sys2Proof.Laws

/-- A word that names fewer registers is ready where one that names more is. -/
theorem ready_of_subset {u v : Uses} {s : State} (hsub : u.names ⊆ v.names) (h : Ready v s) : Ready u s := by
  obtain ⟨hwait, hbounds, hmark⟩ := h
  have hregs : namedRegs s u ⊆ namedRegs s v := by
    intro k hk
    obtain ⟨r, hr, hkr⟩ := List.mem_flatMap.1 hk
    exact List.mem_flatMap.2 ⟨r, hsub hr, hkr⟩
  refine ⟨?_, ?_, ?_⟩
  · rw [awaited, List.filter_eq_nil_iff] at hwait ⊢
    exact fun k hk => hwait k (hregs hk)
  · rw [boundsFault, List.findSome?_eq_none_iff] at hbounds ⊢
    exact fun r hr => hbounds r (hsub hr)
  · rw [poisonMark, List.find?_eq_none] at hmark ⊢
    intro p hp hany
    rw [Bool.false_or, List.any_eq_true] at hany
    obtain ⟨k, hk, hin⟩ := hany
    refine hmark p hp ?_
    rw [Bool.false_or, List.any_eq_true]
    exact ⟨k, hk, List.contains_iff_mem.2 (hregs (List.contains_iff_mem.1 hin))⟩

/-! ## The segment that a word names -/

section
variable {s : State} {w : Word} {t e : Nat}

theorem sel_parts (hw : w = BitVec.ofNat 64 (256 * t + e)) (ht : t < 16) (he : e < 256) : w.toNat / 256 = t ∧ w.toNat % 256 = e := by
  subst hw
  rw [BitVec.toNat_ofNat]
  omega

theorem withSel_held (hw : w = BitVec.ofNat 64 (256 * t + e)) (ht : t < 16) (he : e < 256) (hheld : t ∈ s.ctx.tracks)
    (hlen : e < (trackAt s t).segs.length) (k : Nat → Nat → State → Out State) : withSel w s k = k t e s := by
  obtain ⟨htr, hen⟩ := sel_parts hw ht he
  have hsmall : w.toNat / 2 ^ 12 = 0 := by omega
  have hok : selFault s w = none := by
    rw [selFault, if_neg (fun h => h hsmall), htr, hen, if_neg (by simp [hheld]), if_neg (Nat.not_le.2 hlen)]
  rw [withSel, hok, htr, hen]

end

/-! ## What the words change of the carousel's state -/

/-- What the carousel's words read and change of a state, besides rays' records and memory. -/
structure CarView where
  num : Nat
  pool : Sp Word
  iss : Issue
  clock : Nat
  serial : Nat
  csubs : Sp (Option CoreSub)
  handles : Sp Handle
  raySubs : List RaySub
  ctl : List CtlMsg

/-- The carousel's view of a state. -/
def carView (s : State) : CarView :=
  ⟨s.me.num, s.me.pool, s.iss, s.clock, s.serial, s.me.csubs, s.me.handles, s.me.raySubs, s.ctl⟩

section
variable (s : State)

theorem carView_writeBytes (w : Writer) (l : List (Nat × Byte)) : carView (writeBytes w l s) = carView s := by
  have h := writeBytes_frame w l s
  generalize writeBytes w l s = u at h
  unfold carView
  rw [h]

@[simp] theorem carView_rayPut (i off n v : Nat) : carView (rayPut i off n v s) = carView s := carView_writeBytes s _ _

theorem carView_onMe_withTest (t u : RayTest) : carView (onMe (withTest t u) s) = carView s := rfl

@[simp] theorem carView_nextTest (i : Nat) : carView (nextTest i s) = carView s := by
  unfold nextTest
  split
  next t _ =>
    obtain ⟨u, v, hopen⟩ := openTest_eq s t
    rw [hopen, carView_onMe_withTest, carView_rayPut, carView_rayPut]
  next => rfl

@[simp] theorem carView_rayWake (i : Nat) : carView (rayWake i s) = carView s := by
  unfold rayWake
  split <;> rfl

@[simp] theorem carView_lateFirst (i : Nat) : carView (lateFirst i s) = carView s := by
  unfold lateFirst
  dsimp only
  split
  · exact carView_rayPut _ _ _ _ _
  · rfl

theorem carView_dropPasses (l : List RayTest) :
    carView (l.foldl (fun s t => dropPass t.ray t.start (if firstTest s t.ray = some t then rayPut t.ray 42 2 0 s else s)) s) =
      carView s := by
  induction l generalizing s with
  | nil => rfl
  | cons t l ih =>
    rw [List.foldl_cons, ih]
    show carView (if firstTest s t.ray = some t then rayPut t.ray 42 2 0 s else s) = carView s
    split
    · exact carView_rayPut _ _ _ _ _
    · rfl

/-! ## A ray subscription is withdrawn (R181, R189) -/

/-- The message by which a word of the issuing thread tells the controller something. -/
def ctlMsg (v : CarView) (track : Nat) (what : CtlWhat) : CtlMsg := ⟨v.clock + 64, v.num, v.iss.slot, track, what⟩

/-- A view with a ray subscription gone and the controller told. -/
def withoutRaySub (x : RaySub) (v : CarView) : CarView :=
  { v with
    raySubs := v.raySubs.filter fun y => y.id != x.id
    ctl := v.ctl ++ [ctlMsg v (x.sel / 256) (.unsub x.id)] }

theorem carView_raySubGone (x : RaySub) :
    carView (raySubGone x s) = { carView s with raySubs := s.me.raySubs.filter fun y => y.id != x.id } := by
  have hgone (p : RayVisit → Bool) : carView (rayGone x (raySubLeft x) p s) =
      { carView s with raySubs := s.me.raySubs.filter fun y => y.id != x.id } := by
    rw [rayGone, carView_rayWake, carView_rayPut]
    rfl
  obtain ⟨c, p, h⟩ : ∃ (c : Bool) (p : RayVisit → Bool), raySubGone x s =
    if c = true then nextTest x.ray (rayGone x (raySubLeft x) p s) else rayGone x (raySubLeft x) p s := ⟨_, _, rfl⟩
  rw [h]
  split
  · rw [carView_nextTest, hgone]
  · exact hgone p

theorem carView_ctlSend (track : Nat) (what : CtlWhat) :
    carView (ctlSend track what s) = { carView s with ctl := s.ctl ++ [ctlMsg (carView s) track what] } := rfl

theorem carView_skipRaySub (x : RaySub) : carView (skipRaySub x s) = withoutRaySub x (carView s) := by
  have hcut : ∀ u : State, carView u = carView s → carView (raySubWithdraw x u) = withoutRaySub x (carView s) := by
    intro u hu
    have hgone := carView_raySubGone u x
    rw [hu, show u.me.raySubs = s.me.raySubs from congrArg CarView.raySubs hu] at hgone
    rw [raySubWithdraw, carView_ctlSend, hgone, show (raySubGone x u).ctl = s.ctl from congrArg CarView.ctl hgone]
    rfl
  refine hcut _ ?_
  rw [carView_dropPasses, carView_lateFirst]

/-- A core's ray subscriptions withdrawn one by one. -/
theorem carView_skipRaySubs (l : List RaySub) :
    carView (l.foldl (fun s x => skipRaySub x s) s) = l.foldl (fun v x => withoutRaySub x v) (carView s) := by
  induction l generalizing s with
  | nil => rfl
  | cons x l ih => rw [List.foldl_cons, List.foldl_cons, ih, carView_skipRaySub]

end

theorem foldl_withoutRaySub (l : List RaySub) (v : CarView) : l.foldl (fun v x => withoutRaySub x v) v =
    { v with
      raySubs := v.raySubs.filter fun y => l.all fun x => y.id != x.id
      ctl := v.ctl ++ l.map fun x => ctlMsg v (x.sel / 256) (.unsub x.id) } := by
  induction l generalizing v with
  | nil => simp
  | cons x l ih =>
    rw [List.foldl_cons, ih]
    simp [withoutRaySub, ctlMsg, List.filter_filter, Bool.and_comm]

theorem ids_ne_of_pairwise {l : List RaySub} (hids : l.Pairwise fun x y => x.id ≠ y.id) {x y : RaySub} (hx : x ∈ l) (hy : y ∈ l)
    (hne : x ≠ y) : x.id ≠ y.id := by
  have hsymm : Std.Symm fun x y : RaySub => x.id ≠ y.id := ⟨fun _ _ h => h.symm⟩
  exact hids.forall hx hy hne

/-- Withdrawing a segment's subscriptions leaves the others, as no two have one number. -/
theorem filter_ids_of_sel {l : List RaySub} (hids : l.Pairwise fun x y => x.id ≠ y.id) (sel : Nat) :
    (l.filter fun y => (l.filter fun x => x.sel == sel).all fun x => y.id != x.id) = l.filter fun x => x.sel != sel := by
  refine List.filter_congr fun y hy => ?_
  rw [Bool.eq_iff_iff, List.all_eq_true]
  constructor
  · intro h
    by_contra hsel
    rw [bne_iff_ne, not_not] at hsel
    simpa using h y (List.mem_filter.2 ⟨hy, by simpa using hsel⟩)
  · intro hsel x hx
    obtain ⟨hxl, hxsel⟩ := List.mem_filter.1 hx
    have hne : y ≠ x := by
      rintro rfl
      simp_all
    rw [bne_iff_ne]
    exact ids_ne_of_pairwise hids hy hxl hne

/-! ## A core subscription is withdrawn (R180, R181) -/

/-- A view with core subscription n gone, its handle FREE and the controller told. -/
def withoutCsub (n : Nat) (x : CoreSub) (v : CarView) : CarView :=
  { v with
    csubs := spSet none v.csubs n none
    handles := spSet freeHandle v.handles (catchHnd x.catch_) (hFreed (spGet freeHandle v.handles (catchHnd x.catch_)))
    ctl := v.ctl ++ [ctlMsg v (x.sel / 256) (.unsub x.id)] }

theorem carView_csubWithdraw (n : Nat) (x : CoreSub) (s : State) :
    carView (csubWithdraw n x s) = withoutCsub n x (carView s) := by
  unfold csubWithdraw unstage
  split <;> rfl

theorem catches_csubWithdraw (n : Nat) (x : CoreSub) (s : State) :
    (csubWithdraw n x s).me.catches = s.me.catches.filter fun r => r.sub != x.id := by
  unfold csubWithdraw unstage
  split <;> rfl

theorem la_csubWithdraw (n : Nat) (x : CoreSub) (s : State) :
    (csubWithdraw n x s).me.la = if catchTgt x.catch_ = 2 then { s.me.la with staged := [] } else s.me.la := by
  unfold csubWithdraw unstage
  split <;> rfl

/-- What the withdrawal of a segment's core subscriptions, of the numbers of a list, comes to. -/
structure SubsSkipped (sel : Nat) (l : List Nat) (s u : State) : Prop where
  rest : carView u = { carView s with csubs := u.me.csubs, handles := u.me.handles, ctl := u.ctl }
  mem : u.mem = s.mem
  ctl : s.ctl ⊆ u.ctl
  none : ∀ n, csubAt s n = none → csubAt u n = none
  free : ∀ h, (hGet s h).st = .free → (hGet u h).st = .free
  gone : ∀ n ∈ l, ∀ x, csubAt s n = some x → x.sel = sel → csubAt u n = .none ∧ (hGet u (catchHnd x.catch_)).st = .free ∧
    ctlMsg (carView s) (sel / 256) (.unsub x.id) ∈ u.ctl
  kept : ∀ n x, csubAt s n = some x → x.sel ≠ sel → csubAt u n = some x
  other : ∀ n, n ∉ l → csubAt u n = csubAt s n

/-- CARSKIP at one subscription number. -/
def skipCsub (sel : Nat) (s : State) (n : Nat) : State :=
  match csubAt s n with
  | some x => if x.sel = sel then csubWithdraw n x s else s
  | none => s

theorem csubAt_csubWithdraw (n : Nat) (x : CoreSub) (s : State) (k : Nat) :
    csubAt (csubWithdraw n x s) k = if k = n then none else csubAt s k := by
  have h := congrArg CarView.csubs (carView_csubWithdraw n x s)
  rw [csubAt, show (csubWithdraw n x s).me.csubs = spSet none s.me.csubs n none from h, spGet_set]
  rfl

theorem hGet_csubWithdraw (n : Nat) (x : CoreSub) (s : State) (k : Nat) : hGet (csubWithdraw n x s) k =
    if k = catchHnd x.catch_ then hFreed (hGet s k) else hGet s k := by
  have h := congrArg CarView.handles (carView_csubWithdraw n x s)
  rw [hGet, show (csubWithdraw n x s).me.handles = spSet freeHandle s.me.handles (catchHnd x.catch_) _ from h, spGet_set]
  split
  · subst_vars
    rfl
  · rfl

theorem ctl_csubWithdraw (n : Nat) (x : CoreSub) (s : State) :
    (csubWithdraw n x s).ctl = s.ctl ++ [ctlMsg (carView s) (x.sel / 256) (.unsub x.id)] :=
  congrArg CarView.ctl (carView_csubWithdraw n x s)

theorem SubsSkipped.same (sel n : Nat) {s : State} (h : ∀ x, csubAt s n = some x → x.sel ≠ sel) : SubsSkipped sel [n] s s where
  rest := rfl
  mem := rfl
  ctl := List.Subset.refl _
  none _ := id
  free _ := id
  gone _ hm x hx hsel := absurd hsel (h x (List.mem_singleton.1 hm ▸ hx))
  kept _ _ hx _ := hx
  other _ _ := rfl

theorem rest_of_withoutCsub {n : Nat} {x : CoreSub} {v w : CarView} (h : w = withoutCsub n x v) :
    w = { v with csubs := w.csubs, handles := w.handles, ctl := w.ctl } := by
  subst h
  rfl

theorem subsSkipped_csubWithdraw {n : Nat} {x : CoreSub} {s : State} (hx : csubAt s n = some x) :
    SubsSkipped x.sel [n] s (csubWithdraw n x s) where
  rest := rest_of_withoutCsub (carView_csubWithdraw n x s)
  mem := csubWithdraw_mem _ _ _
  ctl := by
    rw [ctl_csubWithdraw]
    exact List.subset_append_left _ _
  none k hk := by
    rw [csubAt_csubWithdraw, hk, ite_self]
  free k hk := by
    rw [hGet_csubWithdraw]
    split
    · rfl
    · exact hk
  gone m hm y hy hsel := by
    obtain rfl := List.mem_singleton.1 hm
    rw [hx] at hy
    cases hy
    refine ⟨?_, ?_, ?_⟩
    · rw [csubAt_csubWithdraw, if_pos rfl]
    · rw [hGet_csubWithdraw, if_pos rfl]
      rfl
    · rw [ctl_csubWithdraw]
      exact List.mem_append_right _ (List.mem_singleton_self _)
  kept k y hy hsel := by
    rw [csubAt_csubWithdraw, if_neg, hy]
    rintro rfl
    rw [hx] at hy
    cases hy
    exact hsel rfl
  other k hk := by
    rw [csubAt_csubWithdraw, if_neg fun h => hk (List.mem_singleton.2 h)]

theorem subsSkipped_skipCsub (sel : Nat) (s : State) (n : Nat) : SubsSkipped sel [n] s (skipCsub sel s n) := by
  unfold skipCsub
  split
  next x hx =>
    split
    next hsel => exact hsel ▸ subsSkipped_csubWithdraw hx
    next hsel =>
      refine .same sel n fun y hy => ?_
      rw [hx] at hy
      cases hy
      exact hsel
  next hnone =>
    refine .same sel n fun y hy => ?_
    rw [hnone] at hy
    cases hy

theorem SubsSkipped.trans {sel n : Nat} {l : List Nat} {s t u : State} (h : SubsSkipped sel [n] s t) (k : SubsSkipped sel l t u) :
    SubsSkipped sel (n :: l) s u where
  rest := by rw [k.rest, h.rest]
  mem := k.mem.trans h.mem
  ctl := List.Subset.trans h.ctl k.ctl
  none m hm := k.none m (h.none m hm)
  free m hm := k.free m (h.free m hm)
  gone m hm x hx hsel := by
    by_cases hmn : m = n
    · obtain ⟨hnone, hfree, htold⟩ := h.gone m (List.mem_singleton.2 hmn) x hx hsel
      exact ⟨k.none m hnone, k.free _ hfree, k.ctl htold⟩
    · have hml : m ∈ l := (List.mem_cons.1 hm).resolve_left hmn
      have hmt : csubAt t m = some x := by rw [h.other m fun hin => hmn (List.mem_singleton.1 hin), hx]
      obtain ⟨hnone, hfree, htold⟩ := k.gone m hml x hmt hsel
      rw [h.rest] at htold
      exact ⟨hnone, hfree, htold⟩
  kept m x hx hsel := k.kept m x (h.kept m x hx hsel) hsel
  other m hm := by
    rw [k.other m fun hin => hm (List.mem_cons_of_mem n hin), h.other m fun hin => hm (List.mem_cons.2 (.inl (List.mem_singleton.1 hin)))]

theorem subsSkipped_foldl (sel : Nat) (l : List Nat) (s : State) : SubsSkipped sel l s (l.foldl (skipCsub sel) s) := by
  induction l generalizing s with
  | nil => exact ⟨rfl, rfl, List.Subset.refl _, fun _ => id, fun _ => id, fun _ h => by simp at h, fun _ _ h _ => h, fun _ _ => rfl⟩
  | cons n l ih => exact (subsSkipped_skipCsub sel s n).trans (ih _)

/-! ## The words (R179 to R185) -/

theorem freeCsub_none {s : State} (h : ∀ n < 16, csubAt s n ≠ none) : freeCsub s = none := by
  rw [freeCsub, List.find?_eq_none]
  intro n hn
  simpa using h n (List.mem_range.1 hn)

theorem freeCsub_lowest {s : State} {n : Nat} (hn : n < 16) (hfree : csubAt s n = none) (hlow : ∀ k < n, csubAt s k ≠ none) :
    freeCsub s = some n := by
  rw [freeCsub, List.find?_range_eq_some]
  refine ⟨by simp [hfree], List.mem_range.2 hn, fun k hk => ?_⟩
  simpa [Option.isSome_iff_ne_none] using hlow k hk

/-- CARSUB's subscription to entry e of track t, with catch word w. -/
def newCsub (w : Word) (t e : Nat) (s : State) : CoreSub := ⟨s.serial, s.iss.slot, 256 * t + e, w, s.clock, none, false, false⟩

/-- CARSUB has taken its handle and number n, and told the controller. -/
def subscribed (n : Nat) (w : Word) (t e : Nat) (s : State) : State :=
  setCsub n (some (newCsub w t e s)) (ctlSubscribe t e (hTake (catchHnd w) 21 (8 * (segAt s t e).len) s))

section
variable {d a b : BitVec 7} {t e : Nat} {s : State} (hr : Ready ⟨[.g d, .g a, .g b], [.g d]⟩ s)
  (hsel : rd s a = BitVec.ofNat 64 (256 * t + e)) (ht : t < 16) (he : e < 256) (hheld : t ∈ s.ctx.tracks)
  (hlen : e < (trackAt s t).segs.length)
include hr hsel ht he hheld hlen

theorem exec_carsub : exec (.carsub d a b) s =
    if catchIllegal (rd s b) (segAt s t e) then trap cIllegal (rd s b) s
    else if (hGet s (catchHnd (rd s b))).st ≠ .free then trap cSchedule (BitVec.ofNat 64 (catchHnd (rd s b))) s
    else if catchTgt (rd s b) = 2 ∧ (hasSampleSub s ∨ laSamples s.me.la) then park .carSub s
    else match freeCsub s with
      | none => park .carSub s
      | some n => retireWr d (BitVec.ofNat 64 ((hGet s (catchHnd (rd s b))).gen.toNat * 2 ^ 16 + n))
          (subscribed n (rd s b) t e s) := by
  refine (outcome_of_ready (rfl : execCarsub d a b s = _) hr (withSel_held hsel ht he hheld hlen _)).trans ?_
  have hgen (n : Nat) (x : CoreSub) : hGet (setCsub n (some x)
      (ctlSubscribe t e (hTake (catchHnd (rd s b)) 21 (8 * (segAt s t e).len) s))) (catchHnd (rd s b)) =
      hTaken 21 (8 * (segAt s t e).len) (hGet s (catchHnd (rd s b))) := hGet_hSet_same _ _ s
  simp only [hgen, subscribed, newCsub, Nat.mul_comm 256 t]
  rfl

theorem carsub_parks (hill : catchIllegal (rd s b) (segAt s t e) = false) (hfree : (hGet s (catchHnd (rd s b))).st = .free)
    (h : (catchTgt (rd s b) = 2 ∧ (hasSampleSub s = true ∨ laSamples s.me.la = true)) ∨ ∀ n < 16, csubAt s n ≠ none) :
    exec (.carsub d a b) s = .next (setRes .parked (onCur (fun c => { c with st := .parked .carSub }) s)) := by
  rw [exec_carsub hr hsel ht he hheld hlen, hill, if_neg Bool.false_ne_true, if_neg (not_not.2 hfree)]
  rcases h with hsample | hfull
  · exact if_pos hsample
  · rw [freeCsub_none hfull]
    exact ite_self _

theorem carsub_subscribes {n : Nat} (hill : catchIllegal (rd s b) (segAt s t e) = false)
    (hfree : (hGet s (catchHnd (rd s b))).st = .free)
    (hsample : ¬ (catchTgt (rd s b) = 2 ∧ (hasSampleSub s = true ∨ laSamples s.me.la = true))) (hn : n < 16)
    (hnone : csubAt s n = none) (hlow : ∀ k < n, csubAt s k ≠ none) : Gives (exec (.carsub d a b) s) fun u =>
      u.iss.res = .retired ∧
      regAt u s.iss.slot d.toNat = BitVec.ofNat 64 ((hGet s (catchHnd (rd s b))).gen.toNat * 2 ^ 16 + n) ∧
      csubAt u n = some (newCsub (rd s b) t e s) ∧
      hGet u (catchHnd (rd s b)) = hTaken 21 (8 * (segAt s t e).len) (hGet s (catchHnd (rd s b))) ∧
      ctlMsg (carView s) t (.sub ⟨s.serial, s.me.num, t, e, s.clock, false⟩) ∈ u.ctl ∧ u.mem = s.mem := by
  rw [exec_carsub hr hsel ht he hheld hlen, hill, if_neg Bool.false_ne_true, if_neg (not_not.2 hfree), if_neg hsample,
    freeCsub_lowest hn hnone hlow]
  refine ⟨_, rfl, rfl, regAt_advance_wr d _ (subscribed n (rd s b) t e s), ?_, hGet_hSet_same _ _ s, ?_, rfl⟩
  · exact spGet_set_same none s.me.csubs n (some (newCsub (rd s b) t e s))
  · exact List.mem_append_right s.ctl (List.mem_singleton_self _)

theorem exec_carunsub : exec (.carunsub d a b) s = match csubAt s ((rd s b).toNat % 16) with
    | some x =>
      if x.slot = s.iss.slot ∧ x.sel = 256 * t + e then
        retireWr d (if x.wrote then 2 else 1) (csubWithdraw ((rd s b).toNat % 16) x s)
      else retireWr d 0 s
    | none => retireWr d 0 s := by
  refine (outcome_of_ready (rfl : execCarunsub d a b s = _) hr (withSel_held hsel ht he hheld hlen _)).trans ?_
  rw [Nat.mul_comm 256 t] <;> rfl

theorem carunsub_withdraws {x : CoreSub} (hx : csubAt s ((rd s b).toNat % 16) = some x) (hslot : x.slot = s.iss.slot)
    (hxsel : x.sel = 256 * t + e) : Gives (exec (.carunsub d a b) s) fun u =>
      u.iss.res = .retired ∧ regAt u s.iss.slot d.toNat = (if x.wrote = true then 2 else 1) ∧
      csubAt u ((rd s b).toNat % 16) = none ∧
      (hGet u (catchHnd x.catch_)).st = .free ∧ (hGet u (catchHnd x.catch_)).counted = 0 ∧
      (∀ r ∈ u.me.catches, r.sub ≠ x.id) ∧ (∀ r ∈ s.me.catches, r.sub ≠ x.id → r ∈ u.me.catches) ∧
      u.me.la = (if catchTgt x.catch_ = 2 then { s.me.la with staged := [] } else s.me.la) ∧
      ctlMsg (carView s) t (.unsub x.id) ∈ u.ctl ∧ u.mem = s.mem := by
  rw [exec_carunsub hr hsel ht he hheld hlen, hx]
  dsimp only
  rw [if_pos ⟨hslot, hxsel⟩]
  have hiss : (csubWithdraw ((rd s b).toNat % 16) x s).iss.slot = s.iss.slot :=
    congrArg (·.iss.slot) (carView_csubWithdraw ((rd s b).toNat % 16) x s)
  have hreg := regAt_advance_wr d (if x.wrote = true then 2 else 1) (csubWithdraw ((rd s b).toNat % 16) x s)
  rw [hiss] at hreg
  have hhandle := hGet_csubWithdraw ((rd s b).toNat % 16) x s (catchHnd x.catch_)
  rw [if_pos rfl] at hhandle
  have hcsub := csubAt_csubWithdraw ((rd s b).toNat % 16) x s ((rd s b).toNat % 16)
  rw [if_pos rfl] at hcsub
  have hctl := ctl_csubWithdraw ((rd s b).toNat % 16) x s
  rw [show x.sel / 256 = t by omega] at hctl
  have hmem := csubWithdraw_mem ((rd s b).toNat % 16) x s
  have hcatches := catches_csubWithdraw ((rd s b).toNat % 16) x s
  have hla := la_csubWithdraw ((rd s b).toNat % 16) x s
  generalize csubWithdraw ((rd s b).toNat % 16) x s = u at *
  refine ⟨_, rfl, rfl, hreg, hcsub, ?_, ?_, ?_, ?_, hla, ?_, hmem⟩
  · exact congrArg Handle.st hhandle
  · exact congrArg Handle.counted hhandle
  · intro r hr
    exact bne_iff_ne.1 (List.mem_filter.1 (hcatches ▸ hr : r ∈ s.me.catches.filter fun r => r.sub != x.id)).2
  · intro r hr hne
    exact hcatches ▸ List.mem_filter.2 ⟨hr, by simpa using hne⟩
  · rw [advance_ctl, wr_ctl, hctl]
    exact List.mem_append_right _ (List.mem_singleton_self _)

theorem carunsub_other (h : ∀ x, csubAt s ((rd s b).toNat % 16) = some x → x.slot ≠ s.iss.slot ∨ x.sel ≠ 256 * t + e) :
    exec (.carunsub d a b) s = .next (advance (wr d 0 s)) := by
  rw [exec_carunsub hr hsel ht he hheld hlen]
  split
  next x hx => exact if_neg fun hmine => (h x hx).elim (fun hs => hs hmine.1) fun hs => hs hmine.2
  next => rfl

end

section
variable {a b d : BitVec 7} {t e : Nat} {s : State} (hsel : rd s a = BitVec.ofNat 64 (256 * t + e)) (ht : t < 16) (he : e < 256)
  (hheld : t ∈ s.ctx.tracks) (hlen : e < (trackAt s t).segs.length)
include hsel ht he hheld hlen

/-- CARSKIP's withdrawal of the core's own subscriptions, and after it of its rays'. -/
theorem exec_carskip (hr : Ready ⟨[.g a], []⟩ s) : exec (.carskip a) s =
    onRecords ((s.me.raySubs.filter fun x => x.sel == 256 * t + e).map (·.ray)) s fun s =>
      let u := (List.range 16).foldl (skipCsub (256 * t + e)) s
      retire (carRequest false false t e ((u.me.raySubs.filter fun x => x.sel == 256 * t + e).foldl (fun s x => skipRaySub x s) u)) := by
  refine (outcome_of_ready (rfl : execCarskip a s = _) hr (withSel_held hsel ht he hheld hlen _)).trans ?_
  generalize List.range 16 = l
  rw [Nat.mul_comm 256 t]
  rfl

theorem exec_carpromo (hr : Ready ⟨[.g a, .g b], []⟩ s) :
    exec (.carpromo a b) s = .next (advance (carRequest true (bits (rd s b) 0 1 == 1) t e s)) :=
  outcome_of_ready (rfl : execCarpromo a b s = _) hr (withSel_held hsel ht he hheld hlen _)

theorem exec_carpos (hr : Ready ⟨[.g d, .g a], [.g d]⟩ s) : exec (.carpos d a) s =
    .next (advance (wr d (if s.clock < 64 then 0 else posAt (trackAt s t) (s.clock - 64)) s)) :=
  outcome_of_ready (rfl : execCarpos d a s = _) hr (withSel_held hsel ht he hheld hlen _)

theorem exec_carwaitStart (hr : Ready ⟨[.g d, .g a], [.g d]⟩ s) : exec (.carwaitStart d a) s = match (cur s).started with
    | some (sel, roll) =>
      let s := onCur (fun c => { c with started := none }) s
      if sel = 256 * t + e then retireWr d (BitVec.ofNat 64 roll) s else park (.carStart (256 * t + e)) s
    | none => park (.carStart (256 * t + e)) s := by
  refine (outcome_of_ready (rfl : execCarwaitStart d a s = _) hr (withSel_held hsel ht he hheld hlen _)).trans ?_
  rw [Nat.mul_comm 256 t] <;> rfl

theorem exec_carwaitVerdict (hr : Ready ⟨[.g d, .g a], [.g d]⟩ s) : exec (.carwaitVerdict d a) s = match (cur s).verdict with
    | some v =>
      if v.sel ≠ 256 * t + e then retireWr d 0 s
      else if v.code = 0 then park (.carVerdict (256 * t + e)) s
      else retireWr d (BitVec.ofNat 64 v.code) s
    | none => retireWr d 0 s := by
  refine (outcome_of_ready (rfl : execCarwaitVerdict d a s = _) hr (withSel_held hsel ht he hheld hlen _)).trans ?_
  rw [Nat.mul_comm 256 t] <;> rfl

end

/-- A slot's request has gone out. -/
structure Requested (promo defer : Bool) (t e : Nat) (s u : State) : Prop where
  verdict : (cur u).verdict = some ⟨256 * t + e, 0, s.serial⟩
  told : ctlMsg (carView s) t (.request ⟨promo, s.me.num, s.iss.slot, e, defer, false, s.serial⟩) ∈ u.ctl
  ctl : s.ctl ⊆ u.ctl

theorem requested_carRequest (promo defer : Bool) (t e : Nat) (s : State) :
    Requested promo defer t e s (advance (carRequest promo defer t e s)) where
  verdict := by
    rw [cur_advance]
    show (cur (onCur (fun c => { c with verdict := some ⟨t * 256 + e, 0, s.serial⟩ }) { s with serial := s.serial + 1 })).verdict = _
    rw [cur_onCur, Nat.mul_comm]
  told := List.mem_append_right s.ctl (List.mem_singleton_self _)
  ctl := List.subset_append_left s.ctl _

theorem banksBusy_onRecords {l : List Nat} {s : State} {k : State → Out State} :
    (banksBusy s (l.flatMap (rayHomes s)) = true → onRecords l s k = forfeit (ownBanks s (l.flatMap (rayHomes s))) s) ∧
    (banksBusy s (l.flatMap (rayHomes s)) = false → onRecords l s k = k s) := by
  unfold onRecords
  dsimp only
  constructor <;> intro h <;> rw [h]
  · exact if_pos rfl
  · exact if_neg Bool.false_ne_true

/-- CARSKIP has withdrawn the core's own subscriptions to the segment and its rays', before its request goes out. -/
structure Skipped (sel : Nat) (s u : State) : Prop where
  frame : carView u = { carView s with csubs := u.me.csubs, handles := u.me.handles, raySubs := u.me.raySubs, ctl := u.ctl }
  own : ∀ n < 16, ∀ x, csubAt s n = some x →
    (x.sel = sel → csubAt u n = none ∧ (hGet u (catchHnd x.catch_)).st = .free ∧
      ctlMsg (carView s) (sel / 256) (.unsub x.id) ∈ u.ctl) ∧ (x.sel ≠ sel → csubAt u n = some x)
  rays : u.me.raySubs = s.me.raySubs.filter fun x => x.sel != sel
  told : ∀ x ∈ s.me.raySubs.filter fun x => x.sel == sel, ctlMsg (carView s) (sel / 256) (.unsub x.id) ∈ u.ctl
  mem : (s.me.raySubs.filter fun x => x.sel == sel) = [] → u.mem = s.mem

theorem csubAt_of_carView {v : CarView} {u : State} (h : carView u = v) (n : Nat) : csubAt u n = spGet none v.csubs n :=
  congrArg (fun v : CarView => spGet none v.csubs n) h

theorem hGet_of_carView {v : CarView} {u : State} (h : carView u = v) (n : Nat) : hGet u n = spGet freeHandle v.handles n :=
  congrArg (fun v : CarView => spGet freeHandle v.handles n) h

theorem skipped_carskip (sel : Nat) {s u : State} (hids : s.me.raySubs.Pairwise fun x y => x.id ≠ y.id)
    (hu : u = (List.range 16).foldl (skipCsub sel) s) :
    Skipped sel s ((u.me.raySubs.filter fun x => x.sel == sel).foldl (fun s x => skipRaySub x s) u) := by
  have hown := subsSkipped_foldl sel (List.range 16) s
  rw [← hu] at hown
  have hrays : u.me.raySubs = s.me.raySubs := congrArg CarView.raySubs hown.rest
  have hfold := carView_skipRaySubs u (u.me.raySubs.filter fun x => x.sel == sel)
  rw [foldl_withoutRaySub] at hfold
  rw [hrays] at hfold ⊢
  generalize hw : (s.me.raySubs.filter fun x => x.sel == sel).foldl (fun s x => skipRaySub x s) u = w at *
  have hctl : w.ctl = u.ctl ++ (s.me.raySubs.filter fun x => x.sel == sel).map fun x =>
    ctlMsg (carView u) (x.sel / 256) (.unsub x.id) := congrArg CarView.ctl hfold
  have hmsg (track : Nat) (what : CtlWhat) : ctlMsg (carView u) track what = ctlMsg (carView s) track what := by
    rw [hown.rest]
    rfl
  refine ⟨?_, ?_, ?_, ?_, ?_⟩
  · have hv : ∀ {v w : CarView} (r c k h), v = { w with raySubs := r, ctl := c } → w = { carView s with csubs := k, handles := h, ctl := w.ctl } →
        v = { carView s with csubs := v.csubs, handles := v.handles, raySubs := v.raySubs, ctl := v.ctl } := by
      rintro v w r c k h rfl hw
      rw [hw]
    exact hv _ _ _ _ hfold hown.rest
  · intro n hn x hx
    rw [csubAt_of_carView hfold, hGet_of_carView hfold]
    refine ⟨fun hsel => ?_, hown.kept n x hx⟩
    obtain ⟨hnone, hfree, htold⟩ := hown.gone n (List.mem_range.2 hn) x hx hsel
    exact ⟨hnone, hfree, hctl ▸ List.mem_append_left _ htold⟩
  · rw [← filter_ids_of_sel hids sel]
    exact (congrArg CarView.raySubs hfold).trans (by rw [← hrays]; rfl)
  · intro x hx
    have hxsel : x.sel = sel := by simpa using (List.mem_filter.1 hx).2
    rw [hctl, ← hmsg]
    exact List.mem_append_right _ (List.mem_map.2 ⟨x, hx, by rw [hxsel]⟩)
  · intro hnil
    rw [hnil] at hw
    exact hw ▸ hown.mem

section
variable {a : BitVec 7} {t e : Nat} {s : State} (hr : Ready ⟨[.g a], []⟩ s) (hsel : rd s a = BitVec.ofNat 64 (256 * t + e))
  (ht : t < 16) (he : e < 256) (hheld : t ∈ s.ctx.tracks) (hlen : e < (trackAt s t).segs.length)
include hr hsel ht he hheld hlen

theorem carskip_skips (hfree : banksBusy s
      (((s.me.raySubs.filter fun x => x.sel == 256 * t + e).map (·.ray)).flatMap (rayHomes s)) = false)
    (hids : s.me.raySubs.Pairwise fun x y => x.id ≠ y.id) : Gives (exec (.carskip a) s) fun u =>
      u.iss.res = .retired ∧ (cur u).verdict = some ⟨256 * t + e, 0, s.serial⟩ ∧
      ctlMsg (carView s) t (.request ⟨false, s.me.num, s.iss.slot, e, false, false, s.serial⟩) ∈ u.ctl ∧ u.me.pool = s.me.pool ∧
      (∀ n < 16, ∀ x, csubAt s n = some x →
        (x.sel = 256 * t + e → csubAt u n = none ∧ (hGet u (catchHnd x.catch_)).st = .free ∧
          ctlMsg (carView s) t (.unsub x.id) ∈ u.ctl) ∧
        (x.sel ≠ 256 * t + e → csubAt u n = some x)) ∧
      u.me.raySubs = (s.me.raySubs.filter fun x => x.sel != 256 * t + e) ∧
      (∀ x ∈ s.me.raySubs.filter (fun x => x.sel == 256 * t + e), ctlMsg (carView s) t (.unsub x.id) ∈ u.ctl) ∧
      ((s.me.raySubs.filter fun x => x.sel == 256 * t + e) = [] → u.mem = s.mem) := by
  rw [exec_carskip hsel ht he hheld hlen hr, banksBusy_onRecords.2 hfree]
  obtain ⟨hframe, hown, hrays, htold, hmem⟩ := skipped_carskip (256 * t + e) hids rfl
  rw [show (256 * t + e) / 256 = t by omega] at hown htold
  dsimp only
  generalize ((List.range 16).foldl (skipCsub (256 * t + e)) s) = u at *
  generalize ((u.me.raySubs.filter fun x => x.sel == 256 * t + e).foldl (fun s x => skipRaySub x s) u) = w at *
  obtain ⟨hverdict, hasked, hctl⟩ := requested_carRequest false false t e w
  have hserial : w.serial = s.serial := congrArg CarView.serial hframe
  have hnum : w.me.num = s.me.num := congrArg CarView.num hframe
  have hiss : w.iss = s.iss := congrArg CarView.iss hframe
  have hmsg (track : Nat) (what : CtlWhat) : ctlMsg (carView w) track what = ctlMsg (carView s) track what := by
    rw [hframe]
    rfl
  rw [hserial] at hverdict
  rw [hmsg, hserial, hnum, hiss] at hasked
  refine ⟨_, rfl, rfl, hverdict, hasked, congrArg CarView.pool hframe, fun n hn x hx => ?_, hrays, fun x hx => hctl (htold x hx), hmem⟩
  obtain ⟨hgone, hkept⟩ := hown n hn x hx
  refine ⟨fun hxsel => ?_, hkept⟩
  obtain ⟨hnone, hhandle, hunsub⟩ := hgone hxsel
  exact ⟨hnone, hhandle, hctl hunsub⟩

end

/-- Settles O31: each word by its equation on a held segment; the withdrawals of CARSKIP one by one. -/
theorem carouselWords : Obligations.CarouselWords := by
  unfold Obligations.CarouselWords
  intro d a b t e s hr hsel ht he hheld hlen
  have hra : Ready ⟨[.g a], []⟩ s := ready_of_subset (by simp) hr
  have hrda : Ready ⟨[.g d, .g a], [.g d]⟩ s := ready_of_subset (by simp) hr
  have hrab : Ready ⟨[.g a, .g b], []⟩ s := ready_of_subset (by simp) hr
  refine ⟨fun hill => ?_, fun hill hst => ?_, fun hill hst h => carsub_parks hr hsel ht he hheld hlen hill hst h,
    fun n hill hst hsample hn hnone hlow => carsub_subscribes hr hsel ht he hheld hlen hill hst hsample hn hnone hlow,
    fun x hx hslot hxsel => carunsub_withdraws hr hsel ht he hheld hlen hx hslot hxsel,
    fun h => carunsub_other hr hsel ht he hheld hlen h, ⟨fun hbusy => ?_, fun hfree hids => carskip_skips hra hsel ht he hheld hlen hfree hids⟩,
    ?_, exec_carpos hsel ht he hheld hlen hrda, fun roll hst => ?_, fun hst => ?_, fun v hv hvsel => ⟨fun hcode => ?_, fun hcode => ?_⟩⟩
  · rw [exec_carsub hr hsel ht he hheld hlen]
    exact if_pos hill
  · rw [exec_carsub hr hsel ht he hheld hlen, hill, if_neg Bool.false_ne_true]
    exact if_pos hst
  · rw [exec_carskip hsel ht he hheld hlen hra]
    exact banksBusy_onRecords.1 hbusy
  · obtain ⟨hverdict, hasked, -⟩ := requested_carRequest true (bits (rd s b) 0 1 == 1) t e s
    refine ⟨_, exec_carpromo hsel ht he hheld hlen hrab, rfl, hverdict, bits_one_beq (rd s b) 0 ▸ hasked, rfl, rfl⟩
  · rw [exec_carwaitStart hsel ht he hheld hlen hrda, hst]
    exact if_pos rfl
  · rw [exec_carwaitStart hsel ht he hheld hlen hrda, hst]
    rfl
  · rw [exec_carwaitVerdict hsel ht he hheld hlen hrda, hv]
    dsimp only
    rw [if_neg (not_not.2 hvsel), if_neg hcode]
    rfl
  · rw [exec_carwaitVerdict hsel ht he hheld hlen hrda, hv]
    dsimp only
    rw [if_neg (not_not.2 hvsel), if_pos hcode]
    rfl

end Sys2Proof.Proofs
end

section
/-!
SUPPORT. The carousel's controller: what it takes and calls (R147, R157), HOLD, and descriptor writes (R174, R198).
-/

namespace Sys2Proof.Proofs

open Sys2Proof Sys2Proof.Machine Sys2Proof.Laws

/-! ## Taking a message (R147) -/

theorem takeMsg_sub (due core slot t : Nat) {x : TakenSub} {s : State}
    (hafter : calledAfter s x.track x.entry x.retired = false) :
    takeMsg ⟨due, core, slot, t, .sub x⟩ s = { s with taken := s.taken ++ [x] } := by
  have hx : ({ x with covered := x.covered || calledAfter s x.track x.entry x.retired } : TakenSub) = x := by rw [hafter, Bool.or_false]
  exact congrArg (fun y : TakenSub => ({ s with taken := s.taken ++ [y] } : State)) hx

theorem controllerTake_sub {due core slot t : Nat} {x : TakenSub} {s : State} (hctl : s.ctl = [⟨due, core, slot, t, .sub x⟩])
    (hdue : due ≤ s.clock) (hafter : calledAfter s x.track x.entry x.retired = false) :
    exec .controllerTake s = .next { s with ctl := [], taken := s.taken ++ [x] } := by
  have hnext : nextTake s.ctl = some ⟨due, core, slot, t, .sub x⟩ := by rw [hctl]; rfl
  show execControllerTake s = _
  rw [execControllerTake, hnext, hctl]
  dsimp only
  rw [if_neg (Nat.not_lt.2 hdue), List.erase_cons_head]
  exact congrArg Host.Outcome.next (takeMsg_sub due core slot t (s := { s with ctl := [] }) hafter)

/-! ## A call of a track (R147, R157) -/

theorem trackAt_setTrack (t : Nat) (k : Track) (s : State) : trackAt (setTrack t k s) t = k := spGet_set_same _ _ _ _

/-- The scan stops at the cursor's own entry, if it is not held and somebody has subscribed to it. -/
theorem scanFrom_cursor {k : Track} {roll : Nat → Nat} {i n : Nat} {g : Segment} (hi : k.cursor = i) (hg : k.segs[i]? = some g)
    (hhold : g.hold = false) (hroll : 0 < roll i) : scanFrom k roll (n + 1) 0 [] = ([i], some 0) := by
  have hlt : i < k.segs.length := (List.getElem?_eq_some_iff.1 hg).1
  have he : (k.cursor + 0) % k.segs.length = i := by rw [Nat.add_zero, hi, Nat.mod_eq_of_lt hlt]
  have hheld : heldEntry k i = false := by
    rw [heldEntry, hg]
    exact hhold
  simp only [scanFrom, he, hheld, hroll.ne', Bool.false_eq_true, if_false]

/-- The scan finds nothing where no entry has a subscription. -/
theorem scanFrom_none {k : Track} {roll : Nat → Nat} (hroll : ∀ e, roll e = 0) (n i : Nat) (seen : List Nat) :
    (scanFrom k roll n i seen).2 = none := by
  induction n generalizing i seen with
  | zero => rfl
  | succ n ih =>
    simp only [scanFrom, hroll, if_true]
    split
    · exact ih _ _
    · exact ih _ _

theorem execSegmentCall_due {t : Nat} {s : State} (ht : t ∈ s.ctx.tracks) (hnext : (trackAt s t).next ≤ s.clock + 256) :
    exec (.segmentCall t) s = .next (callTrack t s) := by
  refine if_neg ?_
  simpa [ht] using hnext

/-- A track as a call with no pending request leaves it, before the start slot passes. -/
def calledIdle (k : Track) : Track := { k with pending := [], promos := k.promos.filter fun p => decide (k.adv < p + 256) }

/-- A call has been judged: its track's position is recorded. -/
def callOver (t : Nat) (s : State) : State := setTrack t (logPos s.clock (trackAt s t)) s

/-- A call with no pending request, by what the scan finds. -/
theorem callTrack_scan {t : Nat} {s : State} (hpend : (trackAt s t).pending = []) : callTrack t s =
    callOver t (match (scanFrom (trackAt s t) (rollCall s t) (trackAt s t).segs.length 0 []).2 with
      | some i => placeStart t (((trackAt s t).cursor + i) % (trackAt s t).segs.length)
          { calledIdle (trackAt s t) with
            adv := (trackAt s t).adv + i + 1
            cursor := ((trackAt s t).cursor + i + 1) % (trackAt s t).segs.length } s
      | none => setTrack t { calledIdle (trackAt s t) with next := (trackAt s t).next + 32 } s) := by
  unfold callTrack
  dsimp only
  rw [hpend]
  dsimp only [List.foldl_nil]
  generalize scanFrom (trackAt s t) (rollCall s t) (trackAt s t).segs.length 0 [] = scan
  obtain ⟨seen, _ | i⟩ := scan <;> rfl

theorem trackAt_callOver (t : Nat) (s : State) : trackAt (callOver t s) t = logPos s.clock (trackAt s t) := trackAt_setTrack _ _ _

theorem segmentCall_places {t i : Nat} {g : Segment} {s : State} (ht : t ∈ s.ctx.tracks) (hnext : (trackAt s t).next ≤ s.clock + 256)
    (hpend : (trackAt s t).pending = []) (hi : (trackAt s t).cursor = i) (hg : (trackAt s t).segs[i]? = some g)
    (hhold : g.hold = false) (hroll : 0 < rollCall s t i) : Gives (exec (.segmentCall t) s) fun u =>
      (trackAt u t).next = (trackAt s t).next + 4 * g.len + 32 ∧
      (trackAt u t).cursor = (i + 1) % (trackAt s t).segs.length ∧
      (trackAt u t).starts = (trackAt s t).starts ++ [⟨s.serial, (trackAt s t).next, i, g, rollCall s t i, false, 0⟩] ∧
      (trackAt u t).count = (trackAt s t).count + 1 ∧ (∀ y ∈ u.taken, y.track = t → y.entry = i → y.covered = true) ∧
      u.mem = s.mem ∧ u.me = s.me := by
  obtain ⟨hlt, -⟩ := List.getElem?_eq_some_iff.1 hg
  obtain ⟨n, hn⟩ : ∃ n, (trackAt s t).segs.length = n + 1 := ⟨_, (Nat.succ_pred (Nat.ne_zero_of_lt hlt)).symm⟩
  have hscan : scanFrom (trackAt s t) (rollCall s t) (trackAt s t).segs.length 0 [] = ([i], some 0) := by
    rw [hn]
    exact scanFrom_cursor hi hg hhold hroll
  refine ⟨_, execSegmentCall_due ht hnext, ?_⟩
  rw [callTrack_scan hpend, hscan]
  dsimp only
  rw [Nat.add_zero, hi, Nat.mod_eq_of_lt hlt, trackAt_callOver, placeStart]
  dsimp only
  rw [trackAt_setTrack]
  have hgd : ((trackAt s t).segs[i]?).getD noSegment = g := by rw [hg]; rfl
  refine ⟨congrArg (fun g : Segment => (trackAt s t).next + 4 * g.len + 32) hgd, rfl, ?_, rfl, ?_, rfl, rfl⟩
  · exact congrArg (fun g => (trackAt s t).starts ++ [(⟨s.serial, (trackAt s t).next, i, g, rollCall s t i, false, 0⟩ : Start)]) hgd
  · intro y hy hyt hyi
    obtain ⟨z, -, rfl⟩ := List.mem_map.1 hy
    by_cases hz : z.track = t ∧ z.entry = i
    · rw [if_pos hz]
    · rw [if_neg hz] at hyt hyi
      exact absurd ⟨hyt, hyi⟩ hz

theorem segmentCall_passes {t : Nat} {s : State} (ht : t ∈ s.ctx.tracks) (hnext : (trackAt s t).next ≤ s.clock + 256)
    (hpend : (trackAt s t).pending = []) (hroll : ∀ e, rollCall s t e = 0) : Gives (exec (.segmentCall t) s) fun u =>
      (trackAt u t).next = (trackAt s t).next + 32 ∧ (trackAt u t).starts = (trackAt s t).starts ∧
      (trackAt u t).cursor = (trackAt s t).cursor ∧ u.mem = s.mem := by
  refine ⟨_, execSegmentCall_due ht hnext, ?_⟩
  rw [callTrack_scan hpend, scanFrom_none hroll]
  dsimp only
  rw [trackAt_callOver, trackAt_setTrack]
  exact ⟨rfl, rfl, rfl, rfl⟩

/-! ## HOLD and descriptor writes (R174, R198) -/

theorem setHold_spec {v : Bool} {t e : Nat} {g : Segment} {s : State} (hg : (trackAt s t).segs[e]? = some g) :
    setHold v t e s = setTrack t { trackAt s t with segs := (trackAt s t).segs.set e { g with hold := v } } s := by
  unfold setHold
  dsimp only
  rw [hg]

theorem holdClear_clears {t e : Nat} {g : Segment} {s : State} (hg : (trackAt s t).segs[e]? = some g) (hhold : g.hold = true)
    (hbad : sourceBad s g = false) : Gives (exec (.holdClear t e) s) fun u =>
      (trackAt u t).segs[e]? = some { g with hold := false } ∧ u.mem = s.mem := by
  refine ⟨wakeAll (fun w => w == .segPort t e) (setHold false t e s), ?_, ?_, ?_⟩
  · show execHoldClear t e s = _
    unfold execHoldClear
    rw [hg]
    dsimp only
    rw [hhold, hbad]
    exact if_pos rfl
  · rw [setHold_spec hg]
    show (trackAt (setTrack t _ s) t).segs[e]? = _
    rw [trackAt_setTrack]
    exact List.getElem?_set_self (List.getElem?_eq_some_iff.1 hg).1
  · rw [setHold_spec hg]
    rfl

theorem descriptorWrite_appends {r : Rec} {s : State} (hr : Ready ⟨[], []⟩ s) (ht : dscTrack r ∈ s.ctx.tracks)
    (hfault : dscFault r (trackAt s (dscTrack r)).segs.length = none) (hon : dscOn r = true)
    (hentry : dscEntry r = (trackAt s (dscTrack r)).segs.length) : Gives (exec (.segmentDescriptorWrite r) s) fun u =>
      u.iss.res = .retired ∧ (trackAt u (dscTrack r)).segs = (trackAt s (dscTrack r)).segs ++ [dscSegment r] ∧
      u.mem = s.mem ∧ u.me.pool = s.me.pool := by
  have hwrite : dscWrite r s = retire (setTrack (dscTrack r) (logPos s.clock (dscApply r (trackAt s (dscTrack r)))) s) := by
    unfold dscWrite
    dsimp only
    rw [hfault, hentry]
    simp [ht, noSegment]
  have happly : (dscApply r (trackAt s (dscTrack r))).segs = (trackAt s (dscTrack r)).segs ++ [dscSegment r] := by
    unfold dscApply
    simp [hon, hentry]
  refine ⟨_, outcome_of_ready (rfl : execSegmentDescriptorWrite r s = _) hr hwrite, rfl, ?_, rfl, rfl⟩
  show (trackAt (setTrack _ _ s) _).segs = _
  rw [trackAt_setTrack]
  exact happly

/-! ## A start begins (R153) -/

theorem foldl_keeps {α β : Type} {p : State → β} {f : State → α → State} (hf : ∀ s x, p (f s x) = p s) (l : List α) (s : State) :
    p (l.foldl f s) = p s := by
  induction l generalizing s with
  | nil => rfl
  | cons x l ih => exact (ih _).trans (hf s x)

theorem tracks_focus (c : Nat) (s : State) : (focus c s).tracks = s.tracks := by
  unfold focus
  split <;> rfl

theorem tracks_withCore {f : State → State} (hf : ∀ s, (f s).tracks = s.tracks) (c : Nat) (s : State) :
    (withCore c f s).tracks = s.tracks := by rw [withCore, tracks_focus, hf, tracks_focus]

theorem tracks_beginRay (x : Start) (y : RaySub) (s : State) : (beginRay x y s).tracks = s.tracks := by
  unfold beginRay
  dsimp only
  split
  · rfl
  · split <;> rfl

theorem tracks_beginCore (x : Start) (sel : Nat) (s : State) : (beginCore x sel s).tracks = s.tracks := by
  unfold beginCore
  dsimp only
  generalize hu : (List.range 16).foldl _ s = u
  have htracks : u.tracks = s.tracks := by
    rw [← hu]
    refine foldl_keeps (p := State.tracks) (fun s n => ?_) _ s
    split
    · split <;> rfl
    · rfl
  rw [← htracks]
  split
  · rfl
  · exact foldl_keeps (p := State.tracks) (fun s y => tracks_beginRay x y s) _ u

theorem deliveryDue_start {t : Nat} {st : Start} {rest : List Start} {s : State} (hstarts : (trackAt s t).starts = st :: rest)
    (hdue : if st.begun then st.slot + 4 * st.sent + 3 ≤ s.clock else st.slot ≤ s.clock) : deliveryDue s t = true := by
  unfold deliveryDue
  rw [hstarts]
  dsimp only
  cases hb : st.begun <;> simpa [hb] using hdue

theorem exec_delivery_due {t : Nat} {st : Start} {rest : List Start} {s : State} (bad : Bool)
    (hstarts : (trackAt s t).starts = st :: rest)
    (hdue : if st.begun then st.slot + 4 * st.sent + 3 ≤ s.clock else st.slot ≤ s.clock) :
    exec (.blockDelivery t bad) s = .next (if st.begun then deliverBlock t st bad s else beginStart t st s) := by
  show execBlockDelivery t bad s = _
  unfold execBlockDelivery
  rw [hstarts]
  exact if_pos (deliveryDue_start hstarts hdue)

theorem delivery_begins {t : Nat} {st : Start} {rest : List Start} {s : State} (bad : Bool) (hstarts : (trackAt s t).starts = st :: rest)
    (hbegun : st.begun = false) (hdue : st.slot ≤ s.clock) : Gives (exec (.blockDelivery t bad) s) fun u =>
      (trackAt u t).starts = { st with begun := true } :: rest := by
  refine ⟨_, exec_delivery_due bad hstarts (by simpa [hbegun] using hdue), ?_⟩
  rw [hbegun, if_neg Bool.false_ne_true, beginStart, hstarts]
  dsimp only
  have htracks := foldl_keeps (p := State.tracks) (fun s c => tracks_withCore (fun s => tracks_beginCore st (t * 256 + st.entry) s) c s)
    (catchCores (setTrack t { trackAt s t with starts := { st with begun := true } :: rest } s))
    (setTrack t { trackAt s t with starts := { st with begun := true } :: rest } s)
  rw [trackAt, List.drop_succ_cons, List.drop_zero, htracks]
  exact congrArg Track.starts (trackAt_setTrack t _ s)

/-! ## A block reaches the one core that holds anything -/

theorem withCore_own {f : State → State} {s : State} (hf : (f s).me.num = s.me.num) : withCore s.me.num f s = f s := by
  simp [withCore, focus, hf]

theorem foldl_range_at {α : Type} {f : α → Nat → α} {a b : α} {n N : Nat} (hn : n < N) (hbefore : ∀ m, m ≠ n → f a m = a)
    (hat : f a n = b) (hafter : ∀ m, m ≠ n → f b m = b) : (List.range N).foldl f a = b := by
  have hkeep : ∀ N ≤ n, (List.range N).foldl f a = a := by
    intro N hN
    induction N with
    | zero => rfl
    | succ N ih => rw [List.range_succ, List.foldl_append, ih (Nat.le_of_succ_le hN), List.foldl_cons, hbefore N (by omega), List.foldl_nil]
  induction N with
  | zero => omega
  | succ N ih =>
    rw [List.range_succ, List.foldl_append, List.foldl_cons, List.foldl_nil]
    by_cases h : n = N
    · rw [hkeep N h.ge, ← h, hat]
    · rw [ih (by omega), hafter N (Ne.symm h)]

theorem foldl_range_same {α : Type} {f : α → Nat → α} {a : α} (N : Nat) (h : ∀ m, f a m = a) : (List.range N).foldl f a = a := by
  induction N with
  | zero => rfl
  | succ N ih => rw [List.range_succ, List.foldl_append, ih, List.foldl_cons, List.foldl_nil, h]

/-- Core subscription n is the core's only one: it catches start st for the core's scratchpad, and no ray is under test. -/
structure SoleCatch (n : Nat) (x : CoreSub) (st : Start) (s : State) : Prop where
  lt : n < 16
  csubs : s.me.csubs = [(n, some x)]
  start : x.start = some st.id
  cut : x.cut = false
  scratch : catchTgt x.catch_ = 0
  tests : s.me.tests = []

namespace SoleCatch
variable {n : Nat} {x : CoreSub} {st : Start} {s : State} (h : SoleCatch n x st s)
include h

theorem csubAt_self : csubAt s n = some x := by
  rw [csubAt, h.csubs]
  exact if_pos rfl

theorem csubAt_other {m : Nat} (hm : m ≠ n) : csubAt s m = none := by
  rw [csubAt, h.csubs]
  exact if_neg hm

theorem catching_self : catching s st n = some x := by
  unfold catching
  rw [h.csubAt_self]
  simp [h.start, h.cut, h.scratch]

theorem walkers_nil : walkers s st.id = [] := by
  unfold walkers
  rw [h.tests]
  exact ite_self _

theorem testsOf_nil : testsOf st.id s = [] := by
  unfold testsOf
  rw [h.tests]
  rfl

end SoleCatch

theorem catching_none {s : State} {st : Start} {m : Nat} (h : csubAt s m = none) : catching s st m = none := by
  unfold catching
  rw [h]

theorem catchCore_good {n k : Nat} {x : CoreSub} {st : Start} {s : State} {data : List Byte} (h : SoleCatch n x st s) :
    catchCore st k data false s = (0, askCatch x n st k data false s) := by
  unfold catchCore
  refine foldl_range_at h.lt (fun m hm => ?_) ?_ fun m hm => ?_
  · simp only [catching_none (h.csubAt_other hm)]
  · simp only [h.catching_self, Bool.false_eq_true, if_false, catchGood, h.scratch]
  · have hnone : csubAt (askCatch x n st k data false s) m = none := h.csubAt_other hm
    simp only [catching_none hnone]

theorem endCatches_waiting {n k : Nat} {x : CoreSub} {st : Start} {s : State} {data : List Byte} (h : SoleCatch n x st s)
    (hcatches : s.me.catches = []) : endCatches st (askCatch x n st k data false s) = askCatch x n st k data false s := by
  unfold endCatches
  refine foldl_range_same 16 fun m => ?_
  by_cases hm : m = n
  · subst hm
    have hself : csubAt (askCatch x m st k data false s) m = some x := h.csubAt_self
    have hqueue : (askCatch x m st k data false s).me.catches =
      [⟨s.clock, m, x.id, st.id, scratchHome s.me.num (catchOff x.catch_ + 256 * k), data, false⟩] := by
      show queueCatch _ s.me.catches = _
      rw [hcatches]
      rfl
    simp [hself, hqueue, h.cut]
  · have hnone : csubAt (askCatch x n st k data false s) m = none := h.csubAt_other hm
    simp only [hnone]

theorem deliverCore_good {n k sel count : Nat} {x : CoreSub} {st : Start} {s : State} {data : List Byte} (h : SoleCatch n x st s)
    (hcatches : s.me.catches = []) : deliverCore st sel k count data false s = askCatch x n st k data false s := by
  have hw : walkers (askCatch x n st k data false s) st.id = [] := h.walkers_nil
  have ht : testsOf st.id (askCatch x n st k data false s) = [] := h.testsOf_nil
  unfold deliverCore
  rw [catchCore_good h]
  simp [hw, ht, endCatches_waiting h hcatches]

/-- A poisoned block for the scratchpad on its way to its bank, with bytes that the model chooses. -/
def askBad (x : CoreSub) (n : Nat) (st : Start) (k : Nat) (s : State) : State :=
  askCatch x n st k (drawBytes 256 s).1 true (drawBytes 256 s).2

/-- A scratchpad subscription meets a poisoned block. -/
theorem catchCut_scratch {n k : Nat} {x : CoreSub} {st : Start} {s : State} (h : catchTgt x.catch_ = 0) : catchCut x n st k s =
    recatchSub x.id (setCsub n (some { x with cut := true, retired := s.clock })
      (hPut (catchHnd x.catch_) { hGet s (catchHnd x.catch_) with counted := 0 } (askBad x n st k s))) := by
  have hbad : catchBad x n st k s = askBad x n st k s := by
    unfold catchBad
    rw [h]
    rfl
  have hwrote : (x.wrote || catchTgt x.catch_ == 1) = x.wrote := by rw [h]; exact Bool.or_false _
  unfold catchCut
  dsimp only
  rw [hbad, hwrote]
  rfl

/-- What a poisoned block changes for a scratchpad subscription. -/
structure Cut (n : Nat) (x : CoreSub) (s u : State) : Prop where
  csub : csubAt u n = some { x with cut := true, retired := s.clock }
  others : ∀ m, m ≠ n → csubAt u m = csubAt s m
  counted : (hGet u (catchHnd x.catch_)).counted = 0
  tests : u.me.tests = s.me.tests
  tracks : u.tracks = s.tracks
  mem : u.mem = s.mem
  fw : u.fw = s.fw
  num : u.me.num = s.me.num

/-- The handle of a catch whose block was poisoned keeps what was put there. -/
theorem hGet_recatchSub_hPut (id n h : Nat) (x : Option CoreSub) (v : Handle) (w : State) :
    hGet (recatchSub id (setCsub n x (hPut h v w))) h = v := hGet_hPut_same h v w

theorem cut_catchCut {n k : Nat} {x : CoreSub} {st : Start} {s : State} (h : catchTgt x.catch_ = 0) :
    Cut n x s (catchCut x n st k s) := by
  rw [catchCut_scratch h]
  refine ⟨spGet_set_same none s.me.csubs n (some { x with cut := true, retired := s.clock }), fun m hm => ?_, ?_, rfl, rfl, rfl, rfl, rfl⟩
  · exact spGet_set_other none s.me.csubs n m (some { x with cut := true, retired := s.clock }) hm
  · rw [hGet_recatchSub_hPut]

theorem catchCore_bad {n k : Nat} {x : CoreSub} {st : Start} {s : State} {data : List Byte} (h : SoleCatch n x st s) :
    catchCore st k data true s = (1, catchCut x n st k s) := by
  unfold catchCore
  refine foldl_range_at h.lt (fun m hm => ?_) ?_ fun m hm => ?_
  · simp only [catching_none (h.csubAt_other hm)]
  · simp only [h.catching_self, if_true, Nat.zero_add]
  · have hnone : csubAt (catchCut x n st k s) m = none := ((cut_catchCut h.scratch).others m hm).trans (h.csubAt_other hm)
    simp only [catching_none hnone]

theorem deliverCore_bad {n k sel count : Nat} {x : CoreSub} {st : Start} {s : State} {data : List Byte} (h : SoleCatch n x st s)
    (hk : k + 1 < st.seg.len) : deliverCore st sel k count data true s = sendTaint sel k 0 1 count (catchCut x n st k s) := by
  have hw : walkers (catchCut x n st k s) st.id = [] := by
    unfold walkers
    rw [(cut_catchCut h.scratch).tests, h.tests]
    exact ite_self _
  unfold deliverCore
  rw [catchCore_bad h]
  simp [hw, hk.ne]

/-! ## A block is read and delivered (R152, R160, R174) -/

/-- A track with its first start's next block sent. -/
def blockSent (st : Start) (rest : List Start) (k : Track) : Track :=
  { k with starts := if st.sent + 1 < st.seg.len then { st with sent := st.sent + 1 } :: rest else rest }

/-- The core acting is the only one that holds anything, and has not saved. -/
structure Alone (s : State) : Prop where
  others : s.others = []
  saved : s.me.saved = false

theorem Alone.catchCores {s : State} (h : Alone s) : catchCores s = [s.me.num] := by
  unfold Machine.catchCores
  rw [h.others]
  simp [spKeys, coreOf, h.saved]

theorem readBlock_good {s : State} {va : Nat} {pg : Tr} (failed : Bool) (hpg : carPage s va = some pg) (hpoison : s.poison = [])
    (hmem : s.memDown = []) (hhost : s.hostDown = false) : readBlock s va failed =
    ((List.range 256).map fun j => memAt s (homeIn s pg (va + j)), if failed then some (homeIn s pg va / 32) else none) := by
  have hgood (h : Nat) : (isBad s h || controllerDown s h) = false := by
    simp [isBad, controllerDown, hpoison, hmem, hhost]
  unfold readBlock
  rw [hpg]
  have hfind (l : List Nat) : (l.find? fun h => isBad s h || controllerDown s h) = none :=
    List.find?_eq_none.2 fun h _ => by simp [hgood h]
  cases failed <;> simp [hfind, Function.comp_def, List.head?_range]

/-- Track t with its first start's next block sent. -/
def sentState (t : Nat) (st : Start) (s : State) : State := setTrack t (blockSent st ((trackAt s t).starts.drop 1) (trackAt s t)) s

/-- A block that has been read reaches the core acting. -/
def reach (t : Nat) (st : Start) (data : List Byte) (bad : Bool) (s : State) : State :=
  deliverCore st (t * 256 + st.entry) st.sent (trackAt s t).count data bad (sentState t st s)

theorem sent_sendNet (m : Message) (held : Bool) (s : State) : ∃ due, (⟨m, due, held⟩ : NetMsg) ∈ (sendNet m held s).net := by
  unfold sendNet
  exact ⟨_, List.mem_append_right _ List.mem_cons_self⟩

theorem deliverBlock_alone {t : Nat} {st : Start} {data : List Byte} {s : State} (halone : Alone s)
    (hread : readBlock s (st.seg.src + 256 * st.sent) false = (data, none)) (hnum : (reach t st data false s).me.num = s.me.num) :
    deliverBlock t st false s = reach t st data false s := by
  have hcores : catchCores (sentState t st s) = [s.me.num] := Alone.catchCores ⟨halone.others, halone.saved⟩
  unfold deliverBlock
  dsimp only
  rw [hread]
  change List.foldl (fun u c => withCore c (deliverCore st (t * 256 + st.entry) st.sent (trackAt s t).count data false) u)
    (sentState t st s) (catchCores (sentState t st s)) = _
  rw [hcores, List.foldl_cons, List.foldl_nil]
  unfold reach at hnum ⊢
  exact withCore_own (s := sentState t st s) hnum

/-- The controller's read of a block of track t has failed at an atom: the input is used up, and the atom reported. -/
def readFailed (t atom : Nat) (s : State) : State :=
  { takeFailure t s with fw := { s.fw with reports := s.fw.reports ++ [atom] } }

theorem deliverBlock_failed {t atom : Nat} {st : Start} {data : List Byte} {s : State} (halone : Alone (setHold true t st.entry (readFailed t atom s)))
    (hread : readBlock s (st.seg.src + 256 * st.sent) true = (data, some atom))
    (hnum : (reach t st data true (setHold true t st.entry (readFailed t atom s))).me.num = (setHold true t st.entry (readFailed t atom s)).me.num) :
    deliverBlock t st true s = reach t st data true (setHold true t st.entry (readFailed t atom s)) := by
  unfold deliverBlock
  dsimp only
  rw [hread]
  change List.foldl (fun u c => withCore c (deliverCore st (t * 256 + st.entry) st.sent
      (trackAt (setHold true t st.entry (readFailed t atom s)) t).count data true) u) (sentState t st (setHold true t st.entry (readFailed t atom s)))
    (catchCores (sentState t st (setHold true t st.entry (readFailed t atom s)))) = _
  generalize setHold true t st.entry (readFailed t atom s) = u at *
  have hcores : catchCores (sentState t st u) = [u.me.num] := Alone.catchCores ⟨halone.others, halone.saved⟩
  rw [hcores, List.foldl_cons, List.foldl_nil]
  unfold reach at hnum ⊢
  exact withCore_own (s := sentState t st u) hnum

section
variable {t n : Nat} {st : Start} {rest : List Start} {x : CoreSub} {pg : Tr} {s : State} (halone : Alone s)
  (hstarts : (trackAt s t).starts = st :: rest) (hbegun : st.begun = true) (hdue : st.slot + 4 * st.sent + 3 ≤ s.clock)
  (hsole : SoleCatch n x st s) (hpg : carPage s (st.seg.src + 256 * st.sent) = some pg) (hpoison : s.poison = [])
  (hmem : s.memDown = []) (hhost : s.hostDown = false)
include halone hstarts hbegun hdue hsole hpg hpoison hmem hhost

theorem delivery_queues (hcatches : s.me.catches = []) : Gives (exec (.blockDelivery t false) s) fun u =>
      (trackAt u t).starts = (if st.sent + 1 < st.seg.len then { st with sent := st.sent + 1 } :: rest else rest) ∧
      u.mem = s.mem ∧ csubAt u n = some x ∧
      u.me.catches = [⟨s.clock, n, x.id, st.id, scratchHome s.me.num (catchOff x.catch_ + 256 * st.sent),
        (List.range 256).map fun j => memAt s (homeIn s pg (st.seg.src + 256 * st.sent + j)), false⟩] := by
  refine ⟨_, exec_delivery_due false hstarts (by simpa [hbegun] using hdue), ?_⟩
  rw [if_pos hbegun]
  have hread := readBlock_good false hpg hpoison hmem hhost
  generalize ((List.range 256).map fun j => memAt s (homeIn s pg (st.seg.src + 256 * st.sent + j))) = data at *
  have hsole' : SoleCatch n x st (sentState t st s) := ⟨hsole.lt, hsole.csubs, hsole.start, hsole.cut, hsole.scratch, hsole.tests⟩
  have hreach : reach t st data false s = askCatch x n st st.sent data false (sentState t st s) := deliverCore_good hsole' hcatches
  rw [deliverBlock_alone halone hread (by rw [hreach]; rfl), hreach]
  refine ⟨?_, rfl, hsole.csubAt_self, ?_⟩
  · show (trackAt (sentState t st s) t).starts = _
    rw [sentState, trackAt_setTrack, hstarts]
    rfl
  · show queueCatch _ s.me.catches = _
    rw [hcatches]
    rfl

theorem delivery_cuts {g : Segment} (hg : (trackAt s t).segs[st.entry]? = some g) (hsent : st.sent + 1 < st.seg.len) :
    Gives (exec (.blockDelivery t true) s) fun u =>
      (trackAt u t).starts = { st with sent := st.sent + 1 } :: rest ∧ u.mem = s.mem ∧
      (trackAt u t).segs[st.entry]? = some { g with hold := true } ∧
      u.fw.reports = s.fw.reports ++ [homeIn s pg (st.seg.src + 256 * st.sent) / 32] ∧
      csubAt u n = some { x with cut := true, retired := s.clock } ∧ (hGet u (catchHnd x.catch_)).counted = 0 ∧
      ∃ due, (⟨taintMessage s.me.num (t * 256 + st.entry) st.sent 0 1 (trackAt s t).count, due, false⟩ : NetMsg) ∈ u.net := by
  refine ⟨_, exec_delivery_due true hstarts (by simpa [hbegun] using hdue), ?_⟩
  rw [if_pos hbegun]
  have hread := readBlock_good true hpg hpoison hmem hhost
  rw [if_pos rfl] at hread
  generalize ((List.range 256).map fun j => memAt s (homeIn s pg (st.seg.src + 256 * st.sent + j))) = data at *
  generalize homeIn s pg (st.seg.src + 256 * st.sent) / 32 = atom at *
  have hhold : setHold true t st.entry (readFailed t atom s) =
      setTrack t { trackAt s t with segs := (trackAt s t).segs.set st.entry { g with hold := true } } (readFailed t atom s) := setHold_spec hg
  have halone' : Alone (setHold true t st.entry (readFailed t atom s)) := by
    rw [hhold]
    exact ⟨halone.others, halone.saved⟩
  have hsole' : SoleCatch n x st (sentState t st (setHold true t st.entry (readFailed t atom s))) := by
    rw [hhold]
    exact ⟨hsole.lt, hsole.csubs, hsole.start, hsole.cut, hsole.scratch, hsole.tests⟩
  have hreach : reach t st data true (setHold true t st.entry (readFailed t atom s)) = _ := deliverCore_bad hsole' hsent
  have hcut := cut_catchCut (n := n) (k := st.sent) (st := st) (s := sentState t st (setHold true t st.entry (readFailed t atom s))) hsole.scratch
  have hnum : (reach t st data true (setHold true t st.entry (readFailed t atom s))).me.num = (setHold true t st.entry (readFailed t atom s)).me.num := by
    rw [hreach, sendTaint, sendNet_frame]
    exact hcut.num
  rw [deliverBlock_failed halone' hread hnum, hreach]
  generalize hw : catchCut x n st st.sent (sentState t st (setHold true t st.entry (readFailed t atom s))) = w at *
  have htrack : trackAt w t = blockSent st rest { trackAt s t with segs := (trackAt s t).segs.set st.entry { g with hold := true } } := by
    rw [trackAt, hcut.tracks, hhold]
    refine (trackAt_setTrack t _ _).trans ?_
    rw [trackAt_setTrack]
    show blockSent st ((trackAt s t).starts.drop 1) _ = _
    rw [hstarts]
    rfl
  have hclock : (sentState t st (setHold true t st.entry (readFailed t atom s))).clock = s.clock := by rw [hhold]; rfl
  have hcsub := hcut.csub
  have hfw := hcut.fw
  have hwmem := hcut.mem
  have hwnum := hcut.num
  rw [hclock] at hcsub
  rw [hhold] at hfw hwmem hwnum
  have hcount : (trackAt (setHold true t st.entry (readFailed t atom s)) t).count = (trackAt s t).count := by
    rw [hhold, trackAt_setTrack]
  obtain ⟨due, htold⟩ := sent_sendNet (taintMessage w.me.num (t * 256 + st.entry) st.sent 0 1
    (trackAt (setHold true t st.entry (readFailed t atom s)) t).count) false w
  rw [sendTaint]
  generalize hv : sendNet (taintMessage w.me.num (t * 256 + st.entry) st.sent 0 1
    (trackAt (setHold true t st.entry (readFailed t atom s)) t).count) false w = v at htold ⊢
  rw [sendNet_frame] at hv
  rw [hcount, show w.me.num = s.me.num from hwnum] at htold
  subst hv
  refine ⟨?_, hwmem, ?_, congrArg (·.reports) hfw, hcsub, hcut.counted, due, htold⟩
  · refine (congrArg Track.starts htrack).trans ?_
    exact if_pos hsent
  · refine (congrArg (fun k : Track => k.segs[st.entry]?) htrack).trans ?_
    exact List.getElem?_set_self (List.getElem?_eq_some_iff.1 hg).1

end

/-! ## A caught block is written as its bank is granted (R27, R161) -/

theorem firstCatch_head {r : Catch} {rest : List Catch} {s : State} (hcatches : s.me.catches = r :: rest)
    (hbank : ∀ g ∈ s.banks, g.cycle = s.clock → some g.bank ≠ bankOf r.home) : firstCatch s = some (s.me.num, r) := by
  have hfree : (s.banks.any fun g => some g.bank == bankOf r.home && g.cycle == s.clock) = false := by
    rw [List.any_eq_false]
    intro g hg h
    rw [Bool.and_eq_true, beq_iff_eq, beq_iff_eq] at h
    exact hbank g hg h.2 h.1
  have hnext : nextCatch s s.me.num = some r := by
    unfold nextCatch coreOf
    rw [if_pos rfl, hcatches]
    simp [hfree]
  unfold firstCatch
  rw [List.findSome?_cons, hnext]
  rfl

theorem exec_delivery_caught {t : Nat} {r : Catch} {rest : List Catch} {s : State} (hcatches : s.me.catches = r :: rest)
    (hbank : ∀ g ∈ s.banks, g.cycle = s.clock → some g.bank ≠ bankOf r.home) (hall : ∀ k ∈ s.ctx.tracks, deliveryDue s k = false)
    (ht : deliveryDue s t = false) : exec (.blockDelivery t false) s = .next (withCore s.me.num (serveCatch r) s) := by
  have hcaught : deliverCaught s = .next (withCore s.me.num (serveCatch r) s) := by
    have hany : s.ctx.tracks.any (deliveryDue s) = false := List.any_eq_false.2 fun k hk => by simp [hall k hk]
    unfold deliverCaught
    rw [hany, firstCatch_head hcatches hbank]
    rfl
  show execBlockDelivery t false s = _
  unfold execBlockDelivery
  split
  · rw [ht]
    exact hcaught
  · exact hcaught

/-- The 256 bytes of a block at their homes. -/
def blockWrites (h : Nat) (data : List Byte) : List (Nat × Byte) := data.mapIdx fun k b => (h + k, b)

theorem homes_blockWrites (h : Nat) (data : List Byte) : (blockWrites h data).map (·.1) = (List.range data.length).map (h + ·) := by
  refine List.ext_getElem (by simp [blockWrites]) fun i _ _ => ?_
  simp [blockWrites]

theorem memAt_blockWrites (w : Writer) (h : Nat) (data : List Byte) (s : State) :
    (∀ j < data.length, memAt (writeBytes w (blockWrites h data) s) (h + j) = (data[j]?).getD 0) ∧
    (∀ a, a < h ∨ h + data.length ≤ a → memAt (writeBytes w (blockWrites h data) s) a = memAt s a) := by
  refine ⟨fun j hj => ?_, fun a ha => memAt_writeBytes_other w (blockWrites h data) s a ?_⟩
  · refine memAt_writeBytes_mem w (blockWrites h data) s ?_ (h + j, (data[j]?).getD 0) ?_
    · rw [homes_blockWrites]
      exact List.nodup_range.map fun _ _ heq => Nat.add_left_cancel heq
    · rw [List.getElem?_eq_getElem hj]
      exact List.mem_iff_getElem.2 ⟨j, by simpa [blockWrites] using hj, by simp [blockWrites]⟩
  · rw [homes_blockWrites, List.mem_map]
    rintro ⟨k, hk, rfl⟩
    have hk := List.mem_range.1 hk
    omega

/-- A core without a caught block. -/
def dropCatch (r : Catch) (s : State) : State := { s with me := { s.me with catches := s.me.catches.erase r } }

/-- The bank of a caught block granted and the block written, before it counts. -/
def blockWritten (r : Catch) (s : State) : State := grantBanks none true ((bankOf r.home).toList) (catchWrite r.home r.data (dropCatch r s))

/-- What a caught block's write leaves as it was, and what it changes but for memory. -/
structure BlockWritten (r : Catch) (s u : State) : Prop where
  csubs : u.me.csubs = s.me.csubs
  handles : u.me.handles = s.me.handles
  catches : u.me.catches = s.me.catches.erase r
  num : u.me.num = s.me.num
  taken : u.taken = s.taken
  clock : u.clock = s.clock
  granted : ∀ b, bankOf r.home = some b → (⟨b, s.clock, none, true⟩ : Grant) ∈ u.banks
  slots : ∀ k, slotOf u k = woken s.clock (watches (atomsOf ((blockWrites r.home r.data).map (·.1)))) (slotOf s k)

theorem blockWritten_spec (r : Catch) (s : State) : BlockWritten r s (blockWritten r s) := by
  have hframe := writeBytes_frame ⟨s.me.num, 15, 2⟩ (blockWrites r.home r.data) (dropCatch r s)
  have hslots := slotOf_writeBytes ⟨s.me.num, 15, 2⟩ (blockWrites r.home r.data) (dropCatch r s)
  have hw : blockWritten r s = grantBanks none true ((bankOf r.home).toList)
    { writeBytes ⟨s.me.num, 15, 2⟩ (blockWrites r.home r.data) (dropCatch r s) with asked := s.asked } := rfl
  rw [hw]
  generalize writeBytes ⟨s.me.num, 15, 2⟩ (blockWrites r.home r.data) (dropCatch r s) = w at hframe hslots ⊢
  have hclock : w.clock = s.clock := by rw [hframe]; rfl
  refine ⟨?_, ?_, ?_, ?_, ?_, hclock, fun b hb => ?_, hslots⟩
  · show w.me.csubs = s.me.csubs
    rw [hframe]
    rfl
  · show w.me.handles = s.me.handles
    rw [hframe]
    rfl
  · show w.me.catches = _
    rw [hframe]
    rfl
  · show w.me.num = s.me.num
    rw [hframe]
    rfl
  · show w.taken = s.taken
    rw [hframe]
    rfl
  rw [hb, grantBanks, ← hclock]
  exact List.mem_append_right _ (List.mem_singleton_self _)

theorem memAt_blockWritten (r : Catch) (s : State) (h : Nat) :
    memAt (blockWritten r s) h = memAt (writeBytes ⟨s.me.num, 15, 2⟩ (blockWrites r.home r.data) (dropCatch r s)) h := rfl

theorem serveCatch_good {r : Catch} {x : CoreSub} {s : State} (hbad : r.bad = false) (hx : csubAt s r.n = some x) (hid : x.id = r.sub)
    (hstart : x.start = some r.start) (hcut : x.cut = false) : serveCatch r s = countCatch x r.n 0 (blockWritten r s) := by
  have hxw : csubAt (blockWritten r s) r.n = some x := by rw [csubAt, (blockWritten_spec r s).csubs]; exact hx
  unfold serveCatch
  dsimp only
  rw [hbad, if_neg Bool.false_ne_true]
  change (match csubAt (blockWritten r s) r.n with | some x => _ | none => _) = _
  rw [hxw]
  dsimp only
  rw [if_neg (not_not.2 hid), if_neg Bool.false_ne_true]
  exact if_pos ⟨hstart, hcut⟩

/-! ## A good block counts (R161) -/

/-- Core subscription n with a block written. -/
def marked (n : Nat) (x : CoreSub) (s : State) : State := setCsub n (some { x with wrote := true }) s

theorem csubAt_setCsub_same (n : Nat) (x : CoreSub) (s : State) : csubAt (setCsub n (some x) s) n = some x :=
  spGet_set_same none s.me.csubs n (some x)

theorem hCount_below {h : Nat} {s : State} (hst : (hGet s h).st = .filling)
    (hlt : (hGet s h).counted.toNat + 8 < (hGet s h).expected.toNat) :
    hCount h 8 s = hPut h { hGet s h with counted := (hGet s h).counted + 8 } s := by
  unfold hCount
  dsimp only
  rw [if_neg fun hc => Nat.not_le.2 hlt hc.2.2, if_neg]
  · rfl
  · rw [hst]
    decide

theorem hCount_fills {h : Nat} {s : State} (hst : (hGet s h).st = .filling) (hlt : (hGet s h).counted.toNat < (hGet s h).expected.toNat)
    (hle : (hGet s h).expected.toNat ≤ (hGet s h).counted.toNat + 8) :
    hCount h 8 s = hSet h { hGet s h with counted := (hGet s h).counted + 8, st := .full } s := by
  unfold hCount
  dsimp only
  rw [if_pos ⟨hst, hlt, hle⟩]
  rfl

theorem countCatch_below {x : CoreSub} {n : Nat} {s : State} (hst : (hGet s (catchHnd x.catch_)).st = .filling)
    (hlt : (hGet s (catchHnd x.catch_)).counted.toNat + 8 < (hGet s (catchHnd x.catch_)).expected.toNat) :
    countCatch x n 0 s = hPut (catchHnd x.catch_) { hGet s (catchHnd x.catch_) with counted := (hGet s (catchHnd x.catch_)).counted + 8 }
      (marked n x s) := by
  have hcount : hCount (catchHnd x.catch_) 8 (marked n x s) = _ := hCount_below hst hlt
  unfold countCatch
  dsimp only
  change (if (hGet (hCount (catchHnd x.catch_) 8 (marked n x s)) (catchHnd x.catch_)).st = .full then _ else
    hCount (catchHnd x.catch_) 8 (marked n x s)) = _
  rw [hcount, hGet_hPut_same]
  refine if_neg ?_
  rw [show (hGet (marked n x s) (catchHnd x.catch_)).st = .filling from hst]
  decide

theorem countCatch_fills {x : CoreSub} {n : Nat} {s : State} (hscratch : catchTgt x.catch_ = 0)
    (hst : (hGet s (catchHnd x.catch_)).st = .filling)
    (hlt : (hGet s (catchHnd x.catch_)).counted.toNat < (hGet s (catchHnd x.catch_)).expected.toNat)
    (hle : (hGet s (catchHnd x.catch_)).expected.toNat ≤ (hGet s (catchHnd x.catch_)).counted.toNat + 8) :
    countCatch x n 0 s = csubGone n x (forgetSub x.id (hSet (catchHnd x.catch_)
      { hGet s (catchHnd x.catch_) with counted := (hGet s (catchHnd x.catch_)).counted + 8, st := .full } (marked n x s))) := by
  have hcount : hCount (catchHnd x.catch_) 8 (marked n x s) = hSet (catchHnd x.catch_)
      { hGet s (catchHnd x.catch_) with counted := (hGet s (catchHnd x.catch_)).counted + 8, st := .full } (marked n x s) :=
    hCount_fills hst hlt hle
  unfold countCatch
  unfold marked at hcount ⊢
  dsimp only
  rw [hcount, hGet_hSet_same, if_pos rfl, if_neg (by rw [hscratch]; decide)]

theorem st_woken_of_accepted {now : Nat} {p : ParkWhy → Bool} {c : Slot} {w : ParkWhy} (h : c.st = .parked w) (hp : p w = true) :
    (woken now p c).st = .runnable := by
  unfold woken
  rw [h]
  dsimp only
  rw [hp]
  rfl

theorem st_woken_of_runnable {now : Nat} {p : ParkWhy → Bool} {c : Slot} (h : c.st = .runnable) : (woken now p c).st = .runnable := by
  unfold woken
  rw [h]
  exact h

theorem delivery_writes {t : Nat} {r : Catch} {rest : List Catch} {x : CoreSub} {s : State} (hcatches : s.me.catches = r :: rest)
    (hbank : ∀ g ∈ s.banks, g.cycle = s.clock → some g.bank ≠ bankOf r.home) (hall : ∀ k ∈ s.ctx.tracks, deliveryDue s k = false)
    (ht : deliveryDue s t = false) (hlen : r.data.length = 256) (hbad : r.bad = false) (hx : csubAt s r.n = some x) (hid : x.id = r.sub)
    (hstart : x.start = some r.start) (hcut : x.cut = false) (hst : (hGet s (catchHnd x.catch_)).st = .filling)
    (hlt : (hGet s (catchHnd x.catch_)).counted.toNat < (hGet s (catchHnd x.catch_)).expected.toNat)
    (hscratch : catchTgt x.catch_ = 0) : Gives (exec (.blockDelivery t false) s) fun u =>
      u.me.catches = rest ∧ (∀ j < 256, memAt u (r.home + j) = (r.data[j]?).getD 0) ∧
      (∀ h, (h < r.home ∨ r.home + 256 ≤ h) → memAt u h = memAt s h) ∧
      (∀ b, bankOf r.home = some b → (⟨b, s.clock, none, true⟩ : Grant) ∈ u.banks) ∧
      (hGet u (catchHnd x.catch_)).counted = (hGet s (catchHnd x.catch_)).counted + 8 ∧
      ((hGet s (catchHnd x.catch_)).counted.toNat + 8 < (hGet s (catchHnd x.catch_)).expected.toNat →
        (hGet u (catchHnd x.catch_)).st = .filling ∧ csubAt u r.n = some { x with wrote := true }) ∧
      ((hGet s (catchHnd x.catch_)).expected.toNat ≤ (hGet s (catchHnd x.catch_)).counted.toNat + 8 →
        (hGet u (catchHnd x.catch_)).st = .full ∧ csubAt u r.n = none ∧
        u.taken = (s.taken.filter fun y => y.id != x.id) ∧
        ∀ k, (slotOf s k).st = .parked (.handle (catchHnd x.catch_)) ∨ (slotOf s k).st = .parked .carSub →
          (slotOf u k).st = .runnable) := by
  obtain ⟨hcsubs, hhandles, hleft, hnum, htaken, hclock, hgranted, hslots⟩ := blockWritten_spec r s
  have hmem := memAt_blockWritten r s
  obtain ⟨hin, hout⟩ := memAt_blockWrites ⟨s.me.num, 15, 2⟩ r.home r.data (dropCatch r s)
  rw [hlen] at hin hout
  have hserve := serveCatch_good hbad hx hid hstart hcut
  generalize blockWritten r s = w at *
  have hh : hGet w (catchHnd x.catch_) = hGet s (catchHnd x.catch_) := by rw [hGet, hhandles]; rfl
  have hrest : w.me.catches = rest := by rw [hleft, hcatches, List.erase_cons_head]
  have hmemIn : ∀ j < 256, memAt w (r.home + j) = (r.data[j]?).getD 0 := fun j hj => (hmem _).trans (hin j hj)
  have hmemOut : ∀ h, (h < r.home ∨ r.home + 256 ≤ h) → memAt w h = memAt s h := fun h ho => (hmem h).trans (hout h ho)
  rw [← hh] at hst hlt ⊢
  refine ⟨_, exec_delivery_caught hcatches hbank hall ht, ?_⟩
  by_cases hle : (hGet w (catchHnd x.catch_)).expected.toNat ≤ (hGet w (catchHnd x.catch_)).counted.toNat + 8
  · have hcount := countCatch_fills (n := r.n) hscratch hst hlt hle
    rw [withCore_own (by rw [hserve, hcount]; exact hnum), hserve, hcount]
    refine ⟨hrest, hmemIn, hmemOut, hgranted, ?_, fun hlow => absurd hle (Nat.not_le.2 hlow), fun _ => ⟨?_, ?_, ?_, fun k hk => ?_⟩⟩
    · exact congrArg Handle.counted (hGet_hSet_same (catchHnd x.catch_) _ (marked r.n x w))
    · exact congrArg Handle.st (hGet_hSet_same (catchHnd x.catch_) _ (marked r.n x w))
    · exact spGet_set_same none (spSet none w.me.csubs r.n (some { x with wrote := true })) r.n none
    · rw [← htaken]
      rfl
    · rw [csubGone, slotOf_wakeAll, slotOf_wake]
      show (woken w.clock _ (woken w.clock _ (slotOf (hSet (catchHnd x.catch_) _ (marked r.n x w)) k))).st = .runnable
      rw [hSet, slotOf_wake]
      show (woken w.clock _ (woken w.clock _ (woken w.clock _ (slotOf w k)))).st = .runnable
      rw [hslots, hclock]
      have hkept : woken s.clock (watches (atomsOf ((blockWrites r.home r.data).map (·.1)))) (slotOf s k) = slotOf s k := by
        refine woken_of_refused fun v hv => ?_
        rcases hk with hk | hk <;> (rw [hk] at hv; cases hv; rfl)
      rw [hkept]
      rcases hk with hk | hk
      · exact st_woken_of_runnable (st_woken_of_runnable (st_woken_of_accepted hk (beq_self_eq_true _)))
      · refine st_woken_of_runnable (st_woken_of_accepted (w := .carSub) ?_ rfl)
        rw [woken_of_refused fun v hv => ?_, hk]
        rw [hk] at hv
        cases hv
        rfl
  · have hcount := countCatch_below (n := r.n) hst (Nat.not_le.1 hle)
    rw [withCore_own (by rw [hserve, hcount]; exact hnum), hserve, hcount]
    refine ⟨hrest, hmemIn, hmemOut, hgranted, ?_, fun _ => ⟨?_, ?_⟩, fun hfull => absurd hfull hle⟩
    · exact congrArg Handle.counted (hGet_hPut_same (catchHnd x.catch_) _ (marked r.n x w))
    · exact (congrArg Handle.st (hGet_hPut_same (catchHnd x.catch_) _ (marked r.n x w))).trans hst
    · exact csubAt_setCsub_same r.n { x with wrote := true } w

/-- Settles O32: the controller's messages and calls by their equations; a block delivered to a core that is alone; a caught
block as its bank is granted. -/
theorem carouselController : Obligations.CarouselController := by
  unfold Obligations.CarouselController
  refine ⟨⟨fun due core slot t x s hctl hdue _ hafter => controllerTake_sub hctl hdue hafter,
    fun t i g s ht hnext hpend hi hg hhold hroll => segmentCall_places ht hnext hpend hi hg hhold hroll,
    fun t s ht hnext hpend hroll => segmentCall_passes ht hnext hpend hroll,
    fun t e g s hg hhold hbad => holdClear_clears hg hhold hbad,
    fun r s hr ht hfault hon hentry => descriptorWrite_appends hr ht hfault hon hentry⟩,
    fun t st rest bad s hstarts hbegun hdue => delivery_begins bad hstarts hbegun hdue, ?_, ?_⟩
  · intro t n st rest x pg s hstarts hbegun hdue hothers hn hcsubs hstart hcut hscratch htests hsaved hhost va off hpg hpoison hmem hcatches
    have halone : Alone s := ⟨hothers, hsaved⟩
    have hsole : SoleCatch n x st s := ⟨hn, hcsubs, hstart, hcut, hscratch, htests⟩
    exact ⟨delivery_queues halone hstarts hbegun hdue hsole hpg hpoison hmem hhost hcatches,
      fun g hg hsent => delivery_cuts halone hstarts hbegun hdue hsole hpg hpoison hmem hhost hg hsent⟩
  · intro t r rest x s hcatches _ hbank hall ht hlen hbad hx hid hstart hcut v hst hlt hscratch _
    exact delivery_writes hcatches hbank hall ht hlen hbad hx hid hstart hcut hst hlt hscratch

end Sys2Proof.Proofs
end

section
/-!
SUPPORT. The ray-pool words (R184, R186 to R189).
-/

namespace Sys2Proof.Proofs

open Sys2Proof Sys2Proof.Machine Sys2Proof.Laws

/-! ## Ray records in memory (R163) -/

theorem rayHome_add (s : State) (i off k : Nat) : rayHome s i (off + k) = rayHome s i off + k := by
  unfold rayHome scratchHome
  omega

theorem rayPut_eq (i off n v : Nat) (s : State) :
    rayPut i off n v s = writeBytes ⟨s.me.num, 15, 2⟩ (blockWrites (rayHome s i off) (leBytes n v)) s := by
  unfold rayPut blockWrites
  simp only [rayHome_add]

theorem length_leBytes (n v : Nat) : (leBytes n v).length = n := by simp [leBytes]

theorem getElem?_leBytes {n k : Nat} (hk : k < n) (v : Nat) : (leBytes n v)[k]? = some (BitVec.ofNat 8 (v / 256 ^ k)) := by
  simp [leBytes, hk]

theorem memAt_rayPut {i off n k : Nat} (hk : k < n) (v : Nat) (s : State) :
    memAt (rayPut i off n v s) (rayHome s i off + k) = BitVec.ofNat 8 (v / 256 ^ k) := by
  obtain ⟨hin, -⟩ := memAt_blockWrites ⟨s.me.num, 15, 2⟩ (rayHome s i off) (leBytes n v) s
  rw [rayPut_eq, hin k (by rwa [length_leBytes]), getElem?_leBytes hk]
  rfl

theorem memAt_rayPut_other {i off n h : Nat} (v : Nat) (s : State) (hh : h < rayHome s i off ∨ rayHome s i off + n ≤ h) :
    memAt (rayPut i off n v s) h = memAt s h := by
  obtain ⟨-, hout⟩ := memAt_blockWrites ⟨s.me.num, 15, 2⟩ (rayHome s i off) (leBytes n v) s
  rw [length_leBytes] at hout
  rw [rayPut_eq, hout h hh]

/-- What an operation on a ray's record leaves of its core, besides the slots that watch it. -/
structure RayView where
  car : CarView
  tests : List RayTest
  side : Sp (List (Word × Nat))
  live : List Nat
  work : List RayVisit
  ring : List RingBlock
  ringRec : Nat
  ringFree : Nat
  stopped : Bool

/-- The rays' view of a state. -/
def rayView (s : State) : RayView :=
  ⟨carView s, s.me.tests, s.me.side, s.me.live, s.me.work, s.me.ring, s.me.ringRec, s.me.ringFree, s.me.stopped⟩

section
variable {u : State} {v : RayView} (h : rayView u = v)
include h

theorem car_of_rayView : carView u = v.car := congrArg RayView.car h
theorem tests_of_rayView : u.me.tests = v.tests := congrArg RayView.tests h
theorem side_of_rayView : u.me.side = v.side := congrArg RayView.side h
theorem live_of_rayView : u.me.live = v.live := congrArg RayView.live h
theorem work_of_rayView : u.me.work = v.work := congrArg RayView.work h
theorem ring_of_rayView : u.me.ring = v.ring := congrArg RayView.ring h
theorem ringRec_of_rayView : u.me.ringRec = v.ringRec := congrArg RayView.ringRec h
theorem ringFree_of_rayView : u.me.ringFree = v.ringFree := congrArg RayView.ringFree h
theorem stopped_of_rayView : u.me.stopped = v.stopped := congrArg RayView.stopped h
theorem raySubs_of_rayView : u.me.raySubs = v.car.raySubs := congrArg (fun v : RayView => v.car.raySubs) h
theorem num_of_rayView : u.me.num = v.car.num := congrArg (fun v : RayView => v.car.num) h
theorem pool_of_rayView : u.me.pool = v.car.pool := congrArg (fun v : RayView => v.car.pool) h
theorem iss_of_rayView : u.iss = v.car.iss := congrArg (fun v : RayView => v.car.iss) h
theorem clock_of_rayView : u.clock = v.car.clock := congrArg (fun v : RayView => v.car.clock) h
theorem serial_of_rayView : u.serial = v.car.serial := congrArg (fun v : RayView => v.car.serial) h

end

theorem rayView_writeBytes (w : Writer) (l : List (Nat × Byte)) (s : State) : rayView (writeBytes w l s) = rayView s := by
  have h := writeBytes_frame w l s
  generalize writeBytes w l s = u at h
  unfold rayView carView
  rw [h]

@[simp] theorem rayView_rayPut (i off n v : Nat) (s : State) : rayView (rayPut i off n v s) = rayView s := rayView_writeBytes _ _ _

theorem num_rayPut (i off n v : Nat) (s : State) : (rayPut i off n v s).me.num = s.me.num :=
  num_of_rayView (rayView_rayPut i off n v s)

/-! ## A word's ray and its record's banks (R27, R176) -/

theorem withRay_named {w : Word} {i : Nat} {s : State} (hw : w = BitVec.ofNat 64 i) (hi : i < 4096) (k : Nat → State → Out State) :
    withRay w s k = k i s := by
  have htoNat : w.toNat = i := by
    subst hw
    rw [BitVec.toNat_ofNat]
    omega
  rw [withRay, htoNat, if_neg (Nat.not_le.2 hi)]

theorem onRecord_busy {i : Nat} {s : State} (h : banksBusy s (rayHomes s i) = true) (k : State → Out State) :
    onRecord i s k = forfeit (ownBanks s (rayHomes s i)) s := by
  have hhomes : [i].flatMap (rayHomes s) = rayHomes s i := by simp
  have hforfeit := (banksBusy_onRecords (l := [i]) (s := s) (k := k)).1 (by rwa [hhomes])
  rwa [hhomes] at hforfeit

theorem onRecord_free {i : Nat} {s : State} (h : banksBusy s (rayHomes s i) = false) (k : State → Out State) : onRecord i s k = k s :=
  (banksBusy_onRecords (l := [i])).2 (by simpa using h)

/-! ## RAYPUT and RAYGET (R186) -/

section
variable {d : BitVec 4} {a : BitVec 7} {i : Nat} {s : State} (hi : i < 4096) (ha : rd s a = BitVec.ofNat 64 i)
include hi ha

/-- RAYPUT has written ray i's record. -/
def rayWritten (d : BitVec 4) (i : Nat) (s : State) : State :=
  writeBytes ⟨s.me.num, s.iss.slot, 0⟩ (blockWrites (rayHome s i 0) (leBytes 64 (rayPutBytes (recOf (rdV s d))))) s

omit hi ha in
theorem rayView_rayWritten (d : BitVec 4) (i : Nat) (s : State) : rayView (rayWritten d i s) = rayView s := rayView_writeBytes _ _ _

/-- A ray with an empty side list, and live. -/
def madeLive (i : Nat) (s : State) : State :=
  let u := setSide i [] s
  { u with me := { u.me with live := if rayLive u i then u.me.live else i :: u.me.live } }

theorem exec_rayput (hr : Ready ⟨[.v d, .g a], []⟩ s) : exec (.rayput d a) s =
    if !(raySubsOf s i).isEmpty then trap cSchedule (rd s a) s
    else onRecord i s fun s => retire (madeLive i (rayWritten d i s)) := by
  refine (outcome_of_ready (rfl : execRayput d a s = _) hr (withRay_named ha hi _)).trans ?_
  have hhomes (s : State) (l : List Byte) : (l.mapIdx fun k b => (rayHome s i k, b)) = blockWrites (rayHome s i 0) l := by
    unfold blockWrites
    simp only [← rayHome_add, Nat.zero_add]
  simp only [hhomes]
  rfl

theorem exec_rayget (hr : Ready ⟨[.v d, .g a], [.v d]⟩ s) : exec (.rayget d a) s = onRecord i s fun s =>
    retireV d ((List.range 8).map fun k => BitVec.ofNat 64 (rayNat s i (8 * k) 8)) s :=
  outcome_of_ready (rfl : execRayget d a s = _) hr (withRay_named ha hi _)

end

/-- The two fields that a number's low bits fall into make its low bits. -/
theorem testBit_low_fields (x lo w n : Nat) :
    (x % 2 ^ lo + x / 2 ^ lo % 2 ^ w * 2 ^ lo).testBit n = (decide (n < lo + w) && x.testBit n) := by
  rw [Nat.add_comm, Nat.mul_comm, Nat.testBit_two_pow_mul_add _ (Nat.mod_lt _ (Nat.two_pow_pos _)), Nat.testBit_mod_two_pow,
    Nat.testBit_mod_two_pow, Nat.testBit_div_two_pow]
  split
  · rw [decide_eq_true (by omega : n < lo + w), decide_eq_true ‹_›]
  · rw [show (decide (n - lo < w)) = decide (n < lo + w) by rw [decide_eq_decide]; omega, Nat.sub_add_cancel (by omega)]

/-- Of a record RAYPUT keeps bytes 39:0 and FLAGS<3:0>. -/
theorem testBit_rayPutBytes (r : Rec) (n : Nat) : (rayPutBytes r).testBit n = (decide (n < 324) && r.toNat.testBit n) :=
  testBit_low_fields r.toNat 320 4 n

theorem getLsbD_byte (v k j : Nat) (hj : j < 8) : (BitVec.ofNat 8 (v / 256 ^ k)).getLsbD j = v.testBit (8 * k + j) := by
  rw [BitVec.getLsbD_ofNat, show (256 : Nat) = 2 ^ 8 by rfl, ← Nat.pow_mul, Nat.testBit_div_two_pow]
  simp [hj, Nat.add_comm]

theorem byte_rayPutBytes {r : Rec} {k : Nat} (hk : k < 40) :
    BitVec.ofNat 8 (rayPutBytes r / 256 ^ k) = r.extractLsb' (8 * k) 8 := by
  refine BitVec.eq_of_getLsbD_eq fun j hj => ?_
  rw [getLsbD_byte _ _ _ hj, testBit_rayPutBytes, decide_eq_true (by omega), Bool.true_and, BitVec.getLsbD_extractLsb',
    decide_eq_true hj, Bool.true_and, BitVec.getLsbD]

theorem flags_rayPutBytes (r : Rec) : BitVec.ofNat 8 (rayPutBytes r / 256 ^ 40) = r.extractLsb' 320 8 &&& 15 := by
  refine BitVec.eq_of_getLsbD_eq fun j hj => ?_
  rw [getLsbD_byte _ _ _ hj, testBit_rayPutBytes, BitVec.getLsbD_and, BitVec.getLsbD_extractLsb', decide_eq_true hj, Bool.true_and,
    BitVec.getLsbD, Bool.and_comm]
  have hmask : (15 : BitVec 8).getLsbD j = decide (8 * 40 + j < 324) := by
    interval_cases j <;> rfl
  rw [hmask]

theorem zero_rayPutBytes (r : Rec) {k : Nat} (hk : 41 ≤ k) : BitVec.ofNat 8 (rayPutBytes r / 256 ^ k) = 0 := by
  refine BitVec.eq_of_getLsbD_eq fun j hj => ?_
  rw [getLsbD_byte _ _ _ hj, testBit_rayPutBytes, decide_eq_false (by omega), Bool.false_and]
  exact (BitVec.getLsbD_zero).symm

theorem memAt_rayWritten (d : BitVec 4) (i : Nat) (s : State) :
    (∀ k < 64, memAt (rayWritten d i s) (rayHome s i k) = BitVec.ofNat 8 (rayPutBytes (recOf (rdV s d)) / 256 ^ k)) ∧
    (∀ h, (h < rayHome s i 0 ∨ rayHome s i 64 ≤ h) → memAt (rayWritten d i s) h = memAt s h) := by
  unfold rayWritten
  generalize rayPutBytes (recOf (rdV s d)) = v
  obtain ⟨hin, hout⟩ := memAt_blockWrites ⟨s.me.num, s.iss.slot, 0⟩ (rayHome s i 0) (leBytes 64 v) s
  rw [length_leBytes, ← rayHome_add, Nat.zero_add] at hout
  refine ⟨fun k hk => ?_, hout⟩
  have h := hin k (by rwa [length_leBytes])
  rw [← rayHome_add, Nat.zero_add, getElem?_leBytes hk] at h
  exact h

/-- What RAYPUT leaves of ray i: live, with an empty side list and the record that it writes. -/
structure RayPutDone (i : Nat) (r : Rec) (s t : State) : Prop where
  live : rayLive t i = true
  side : sideOf t i = []
  bytes : ∀ k < 40, memAt t (rayHome s i k) = r.extractLsb' (8 * k) 8
  flags : memAt t (rayHome s i 40) = r.extractLsb' 320 8 &&& 15
  zero : ∀ k, 41 ≤ k → k < 64 → memAt t (rayHome s i k) = 0
  other : ∀ h, (h < rayHome s i 0 ∨ rayHome s i 64 ≤ h) → memAt t h = memAt s h
  pool : t.me.pool = s.me.pool

theorem rayPutDone {i : Nat} {r : Rec} {s w : State} (hview : rayView w = rayView s)
    (hbyte : ∀ k < 64, memAt w (rayHome s i k) = BitVec.ofNat 8 (rayPutBytes r / 256 ^ k))
    (hout : ∀ h, (h < rayHome s i 0 ∨ rayHome s i 64 ≤ h) → memAt w h = memAt s h) : RayPutDone i r s (advance (madeLive i w)) where
  live := by
    show (if w.me.live.contains i then w.me.live else i :: w.me.live).contains i = true
    split
    · assumption
    · simp
  side := spGet_set_same [] w.me.side i []
  bytes k hk := (hbyte k (by omega)).trans (byte_rayPutBytes hk)
  flags := (hbyte 40 (by omega)).trans (flags_rayPutBytes _)
  zero k hk hk' := (hbyte k hk').trans (zero_rayPutBytes _ hk)
  other := hout
  pool := pool_of_rayView hview

theorem rayput_makesLive {d : BitVec 4} {a : BitVec 7} {i : Nat} {s : State} (hi : i < 4096) (ha : rd s a = BitVec.ofNat 64 i)
    (hr : Ready ⟨[.v d, .g a], []⟩ s) (hfree : banksBusy s (rayHomes s i) = false) (hsubs : raySubsOf s i = []) :
    Gives (exec (.rayput d a) s) fun t => t.iss.res = .retired ∧ RayPutDone i (recOf (rdV s d)) s t := by
  obtain ⟨hbyte, hout⟩ := memAt_rayWritten d i s
  refine ⟨advance (madeLive i (rayWritten d i s)), ?_, rfl, rayPutDone (rayView_rayWritten d i s) hbyte hout⟩
  rw [exec_rayput hi ha hr, hsubs, onRecord_free hfree, List.isEmpty_nil, Bool.not_true, if_neg Bool.false_ne_true, retire]

theorem rayget_reads {d : BitVec 4} {a : BitVec 7} {i : Nat} {s : State} (hi : i < 4096) (ha : rd s a = BitVec.ofNat 64 i)
    (hr : Ready ⟨[.v d, .g a], [.v d]⟩ s) (hfree : banksBusy s (rayHomes s i) = false) : exec (.rayget d a) s =
    .next (advance (wrV d ((List.range 8).map fun k => BitVec.ofNat 64 (leNat
      ((List.range 8).map fun j => memAt s (rayHome s i (8 * k + j))))) s)) := by
  rw [exec_rayget hi ha hr, onRecord_free hfree]
  rfl

/-! ## RAYSUB (R187) -/

/-- The SUB word that RAYSUB writes for entry e of track t, with its DIST. -/
def subWord (t e dist : Nat) : Nat := 2 ^ 31 + t * 2 ^ 24 + e * 2 ^ 16 + dist

/-- RAYSUB's subscription number j of ray i to entry e of track t, a segment of that kind. -/
def newRaySub (i j t e kind : Nat) (s : State) : RaySub := ⟨s.serial, i, j, t * 256 + e, kind, s.clock⟩

/-- A core with one more ray subscription. -/
def addRaySub (x : RaySub) (s : State) : State := { s with me := { s.me with raySubs := s.me.raySubs ++ [x] } }

/-- RAYSUB has written ray i's subscription j and told the controller. -/
def raySubscribed (i j t e kind dist : Nat) (s : State) : State :=
  addRaySub (newRaySub i j t e kind s) (ctlSubscribe t e (rayPut i (48 + 4 * j) 4 (subWord t e dist) s))

/-- The lowest place for a subscription of ray i (R187). -/
def freePlace (s : State) (i : Nat) : Option Nat := (List.range 4).find? fun j => !(raySubsOf s i).any fun x => x.sub == j

/-- RAYSUB on a live ray whose record's bank is free. -/
def raysubOn (d : BitVec 7) (i t e kind dist : Nat) (s : State) : Out State :=
  match (raySubsOf s i).find? fun x => x.sel == t * 256 + e with
  | some x =>
    retireWr d (BitVec.ofNat 64 x.sub) (if ltN (distVal dist) (distVal (rayNat s i (48 + 4 * x.sub) 2))
      then rayPut i (48 + 4 * x.sub) 2 dist s else s)
  | none =>
    match freePlace s i with
    | none => retireWr d (BitVec.allOnes 64) s
    | some j => retireWr d (BitVec.ofNat 64 j) (raySubscribed i j t e kind dist s)

section
variable {d a b : BitVec 7} {i t e : Nat} {s : State} (hr : Ready ⟨[.g d, .g a, .g b], [.g d]⟩ s) (ha : rd s a = BitVec.ofNat 64 i)
  (hi : i < 4096) (hsel : rd s b = BitVec.ofNat 64 (256 * t + e)) (ht : t < 16) (he : e < 256) (hheld : t ∈ s.ctx.tracks)
  (hlen : e < (trackAt s t).segs.length) (hkind : (segAt s t e).kind = 1 ∨ (segAt s t e).kind = 2)
include hr ha hi hsel ht he hheld hlen hkind

theorem exec_raysub : exec (.raysub d a b) s =
    if !rayLive s i then trap cSchedule (rd s a) s
    else onRecord i s (raysubOn d i t e (segAt s t e).kind ((rd s d).toNat % 2 ^ 16)) := by
  refine (outcome_of_ready (rfl : execRaysub d a b s = _) hr (withSel_held hsel ht he hheld hlen _)).trans ?_
  refine (withRay_named ha hi _).trans ?_
  dsimp only
  rw [if_neg (not_and_or.2 (hkind.imp not_not.2 not_not.2))] <;> rfl

theorem raysub_forfeits (hlive : rayLive s i = true) (hbusy : banksBusy s (rayHomes s i) = true) :
    exec (.raysub d a b) s = forfeit (ownBanks s (rayHomes s i)) s := by
  rw [exec_raysub hr ha hi hsel ht he hheld hlen hkind, hlive, Bool.not_true, if_neg Bool.false_ne_true, onRecord_busy hbusy]

theorem raysub_traps (hlive : rayLive s i = false) : exec (.raysub d a b) s = .next (takeTrap cSchedule (rd s a) s) := by
  rw [exec_raysub hr ha hi hsel ht he hheld hlen hkind, hlive]
  exact if_pos rfl

omit hr ha hi hsel ht he hheld hlen hkind in
theorem find?_sel_none (h : ∀ x ∈ raySubsOf s i, x.sel ≠ 256 * t + e) :
    ((raySubsOf s i).find? fun x => x.sel == t * 256 + e) = none := by
  refine List.find?_eq_none.2 fun x hx => ?_
  rw [Nat.mul_comm t, beq_iff_eq]
  exact h x hx

theorem raysub_free (hlive : rayLive s i = true) (hfree : banksBusy s (rayHomes s i) = false)
    (hnew : ∀ x ∈ raySubsOf s i, x.sel ≠ 256 * t + e) : exec (.raysub d a b) s = match freePlace s i with
      | none => retireWr d (BitVec.allOnes 64) s
      | some j => retireWr d (BitVec.ofNat 64 j) (raySubscribed i j t e (segAt s t e).kind ((rd s d).toNat % 2 ^ 16) s) := by
  rw [exec_raysub hr ha hi hsel ht he hheld hlen hkind, hlive, Bool.not_true, if_neg Bool.false_ne_true, onRecord_free hfree,
    raysubOn, find?_sel_none hnew]

omit hr ha hi hsel ht he hheld hlen hkind in
theorem freePlace_none (h : ∀ l < 4, ∃ x ∈ raySubsOf s i, x.sub = l) : freePlace s i = none := by
  refine List.find?_eq_none.2 fun l hl => ?_
  obtain ⟨x, hx, hsub⟩ := h l (List.mem_range.1 hl)
  have hany : ((raySubsOf s i).any fun x => x.sub == l) = true := List.any_eq_true.2 ⟨x, hx, beq_iff_eq.2 hsub⟩
  simp [hany]

omit hr ha hi hsel ht he hheld hlen hkind in
theorem freePlace_lowest {j : Nat} (hj : j < 4) (hfree : ∀ x ∈ raySubsOf s i, x.sub ≠ j)
    (hlow : ∀ l < j, ∃ x ∈ raySubsOf s i, x.sub = l) : freePlace s i = some j := by
  rw [freePlace, List.find?_range_eq_some]
  have hnone : ((raySubsOf s i).any fun x => x.sub == j) = false := List.any_eq_false.2 fun x hx => by simpa using hfree x hx
  refine ⟨by simp [hnone], List.mem_range.2 hj, fun l hl => ?_⟩
  obtain ⟨x, hx, hsub⟩ := hlow l hl
  have hany : ((raySubsOf s i).any fun x => x.sub == l) = true := List.any_eq_true.2 ⟨x, hx, beq_iff_eq.2 hsub⟩
  simp [hany]

end

/-- What RAYSUB's subscription number j of ray i leaves. -/
structure RaySubscribed (i j t e kind : Nat) (dist : Word) (s u : State) : Prop where
  iss : u.iss = s.iss
  raySubs : u.me.raySubs = s.me.raySubs ++ [⟨s.serial, i, j, 256 * t + e, kind, s.clock⟩]
  dist0 : memAt u (rayHome s i (48 + 4 * j)) = dist.extractLsb' 0 8
  dist1 : memAt u (rayHome s i (49 + 4 * j)) = dist.extractLsb' 8 8
  entry : memAt u (rayHome s i (50 + 4 * j)) = BitVec.ofNat 8 e
  track : memAt u (rayHome s i (51 + 4 * j)) = BitVec.ofNat 8 (128 + t)
  told : (⟨s.clock + 64, s.me.num, s.iss.slot, t, .sub ⟨s.serial, s.me.num, t, e, s.clock, false⟩⟩ : CtlMsg) ∈ u.ctl

/-- The four bytes of a SUB word. -/
theorem bytes_subWord {t e : Nat} (he : e < 256) (x : Word) :
    BitVec.ofNat 8 (subWord t e (x.toNat % 2 ^ 16) / 256 ^ 0) = x.extractLsb' 0 8 ∧
    BitVec.ofNat 8 (subWord t e (x.toNat % 2 ^ 16) / 256 ^ 1) = x.extractLsb' 8 8 ∧
    BitVec.ofNat 8 (subWord t e (x.toNat % 2 ^ 16) / 256 ^ 2) = BitVec.ofNat 8 e ∧
    BitVec.ofNat 8 (subWord t e (x.toNat % 2 ^ 16) / 256 ^ 3) = BitVec.ofNat 8 (128 + t) := by
  unfold subWord
  refine ⟨?_, ?_, ?_, ?_⟩ <;> refine BitVec.eq_of_toNat_eq ?_ <;>
    simp only [BitVec.toNat_ofNat, BitVec.extractLsb'_toNat, Nat.shiftRight_eq_div_pow] <;> omega

theorem raySubscribed_of_bytes {i j t e kind : Nat} {x : Word} {s w : State} (hview : rayView w = rayView s)
    (h0 : memAt w (rayHome s i (48 + 4 * j)) = x.extractLsb' 0 8) (h1 : memAt w (rayHome s i (49 + 4 * j)) = x.extractLsb' 8 8)
    (h2 : memAt w (rayHome s i (50 + 4 * j)) = BitVec.ofNat 8 e) (h3 : memAt w (rayHome s i (51 + 4 * j)) = BitVec.ofNat 8 (128 + t)) :
    RaySubscribed i j t e kind x s (addRaySub (newRaySub i j t e kind s) (ctlSubscribe t e w)) where
  iss := iss_of_rayView hview
  raySubs := by
    show w.me.raySubs ++ [⟨s.serial, i, j, t * 256 + e, kind, s.clock⟩] = _
    rw [show w.me.raySubs = s.me.raySubs from raySubs_of_rayView hview, Nat.mul_comm]
  dist0 := h0
  dist1 := h1
  entry := h2
  track := h3
  told := by
    rw [← show w.serial = s.serial from serial_of_rayView hview,
      ← show w.clock = s.clock from clock_of_rayView hview,
      ← show w.me.num = s.me.num from num_of_rayView hview,
      ← show w.iss = s.iss from iss_of_rayView hview]
    exact List.mem_append_right w.ctl (List.mem_singleton_self _)

theorem raySubscribed_spec {i j t e kind : Nat} {x : Word} (he : e < 256) (s : State) :
    RaySubscribed i j t e kind x s (raySubscribed i j t e kind (x.toNat % 2 ^ 16) s) := by
  obtain ⟨hb0, hb1, hb2, hb3⟩ := bytes_subWord (t := t) he x
  have hbyte (k : Nat) (hk : k < 4) := memAt_rayPut (i := i) (off := 48 + 4 * j) hk (subWord t e (x.toNat % 2 ^ 16)) s
  have h0 := hbyte 0 (by omega)
  have h1 := hbyte 1 (by omega)
  have h2 := hbyte 2 (by omega)
  have h3 := hbyte 3 (by omega)
  rw [hb0, ← rayHome_add, Nat.add_zero] at h0
  rw [hb1, ← rayHome_add, Nat.add_right_comm] at h1
  rw [hb2, ← rayHome_add, Nat.add_right_comm] at h2
  rw [hb3, ← rayHome_add, Nat.add_right_comm] at h3
  exact raySubscribed_of_bytes (rayView_rayPut _ _ _ _ s) h0 h1 h2 h3

/-! ## HITPOP (R188) -/

section
variable {d a : BitVec 7} {i : Nat} {s : State} (hr : Ready ⟨[.g d, .g a], [.g d]⟩ s) (ha : rd s a = BitVec.ofNat 64 i) (hi : i < 4096)
include hr ha hi

theorem exec_hitpop : exec (.hitpop d a) s = match sideOf s i with
    | e :: l =>
      if !rayLive s i then retireWr d (BitVec.allOnes 64) s
      else onRecord i s fun s =>
        if leN (hitT e.1) (frontier s i) then retireWr d e.1 (setSide i l s) else retireWr d (BitVec.allOnes 64) s
    | [] => retireWr d (BitVec.allOnes 64) s := by
  refine (outcome_of_ready (rfl : execHitpop d a s = _) hr (withRay_named ha hi _)).trans ?_
  cases sideOf s i <;> rfl

theorem hitpop_forfeits (hlive : rayLive s i = true) (hbusy : banksBusy s (rayHomes s i) = true) (hside : sideOf s i ≠ []) :
    exec (.hitpop d a) s = forfeit (ownBanks s (rayHomes s i)) s := by
  obtain ⟨e, l, hel⟩ := List.exists_cons_of_ne_nil hside
  rw [exec_hitpop hr ha hi, hel]
  dsimp only
  rw [hlive, Bool.not_true, if_neg Bool.false_ne_true, onRecord_busy hbusy]

theorem hitpop_empty (hside : sideOf s i = []) : exec (.hitpop d a) s = .next (advance (wr d (BitVec.allOnes 64) s)) := by
  rw [exec_hitpop hr ha hi, hside] <;> rfl

theorem hitpop_pops {w : Word} {start : Nat} {l : List (Word × Nat)} (hside : sideOf s i = (w, start) :: l) (hlive : rayLive s i = true)
    (hle : leN (hitT w) (frontier s i) = true) (hfree : banksBusy s (rayHomes s i) = false) : Gives (exec (.hitpop d a) s) fun u =>
      u.iss.res = .retired ∧ regAt u s.iss.slot d.toNat = w ∧ sideOf u i = l ∧ u.mem = s.mem := by
  refine ⟨advance (wr d w (setSide i l s)), ?_, rfl, regAt_advance_wr d w (setSide i l s), spGet_set_same [] s.me.side i l, rfl⟩
  rw [exec_hitpop hr ha hi, hside]
  dsimp only
  rw [hlive, Bool.not_true, if_neg Bool.false_ne_true, onRecord_free hfree]
  exact if_pos hle

theorem hitpop_none {w : Word} {start : Nat} {l : List (Word × Nat)} (hside : sideOf s i = (w, start) :: l)
    (h : rayLive s i = false ∨ (leN (hitT w) (frontier s i) = false ∧ banksBusy s (rayHomes s i) = false)) :
    exec (.hitpop d a) s = .next (advance (wr d (BitVec.allOnes 64) s)) := by
  rw [exec_hitpop hr ha hi, hside]
  dsimp only
  cases hlive : rayLive s i
  · exact if_pos rfl
  · obtain ⟨hlt, hfree⟩ := h.resolve_left (by simp [hlive])
    rw [Bool.not_true, if_neg Bool.false_ne_true, onRecord_free hfree, hlt]
    exact if_neg Bool.false_ne_true

/-! ## CARWAIT.RAY (R184) -/

theorem exec_carwaitRay : exec (.carwaitRay d a) s =
    if !rayLive s i then retireWr d (BitVec.ofNat 64 (2 ^ 63)) s
    else if (raySubsOf s i).isEmpty then onRecord i s fun s => retireWr d (BitVec.ofNat 64 (rayNat s i 40 2)) s
    else park (.carRay i) s :=
  outcome_of_ready (rfl : execCarwaitRay d a s = _) hr (withRay_named ha hi _)

theorem carwaitRay_dead (hlive : rayLive s i = false) :
    exec (.carwaitRay d a) s = .next (advance (wr d (BitVec.ofNat 64 (2 ^ 63)) s)) := by
  rw [exec_carwaitRay hr ha hi, hlive]
  exact if_pos rfl

theorem carwaitRay_done (hlive : rayLive s i = true) (hsubs : raySubsOf s i = []) : exec (.carwaitRay d a) s =
    onRecord i s fun s => retireWr d (BitVec.ofNat 64 (rayNat s i 40 2)) s := by
  rw [exec_carwaitRay hr ha hi, hlive, Bool.not_true, if_neg Bool.false_ne_true, hsubs]
  exact if_pos rfl

theorem carwaitRay_parks (hlive : rayLive s i = true) (hsubs : raySubsOf s i ≠ []) : exec (.carwaitRay d a) s =
    .next (setRes .parked (onCur (fun c => { c with st := .parked (.carRay i) }) s)) := by
  rw [exec_carwaitRay hr ha hi, hlive, Bool.not_true, if_neg Bool.false_ne_true]
  exact if_neg fun h => hsubs (List.isEmpty_iff.1 h)

end

/-! ## RAYKILL (R189) -/

/-- A ray whose subscriptions have been withdrawn, with its side list empty, and no longer live. -/
def rayDropped (i : Nat) (s : State) : State :=
  let s := setSide i [] s
  { s with me := { s.me with live := s.me.live.filter fun j => j != i } }

theorem exec_raykill {d a : BitVec 7} {i : Nat} {s : State} (hr : Ready ⟨[.g d, .g a], [.g d]⟩ s) (ha : rd s a = BitVec.ofNat 64 i)
    (hi : i < 4096) : exec (.raykill d a) s =
    if !rayLive s i then retireWr d 0 s
    else onRecord i s fun s => retireWr d (BitVec.ofNat 64 ((sideOf (leaveRay i s) i).length * 256 + (raySubsOf (leaveRay i s) i).length))
      (rayDropped i ((raySubsOf (leaveRay i s) i).foldl (fun s x => raySubWithdraw x s) (leaveRay i s))) :=
  outcome_of_ready (rfl : execRaykill d a s = _) hr (withRay_named ha hi _)

theorem firstTest_none {s : State} {i : Nat} (h : ∀ t ∈ s.me.tests, t.ray ≠ i) : firstTest s i = none :=
  List.find?_eq_none.2 fun t ht => by simpa using h t ht

theorem nextTest_idle {s : State} {i : Nat} (h : ∀ t ∈ s.me.tests, t.ray ≠ i) : nextTest i s = s := by
  unfold nextTest
  rw [firstTest_none h]

theorem rayView_rayWake (i : Nat) (s : State) : rayView (rayWake i s) = rayView s := by
  unfold rayWake
  split <;> rfl

theorem rayView_rayGone (x : RaySub) (p : RayVisit → Bool) (s : State) :
    rayView (rayGone x (raySubLeft x) p s) = rayView (onMe (raySubLeft x) (dropVisits p s)) := by
  rw [rayGone, rayView_rayWake, rayView_rayPut]

/-- A subscription of a ray under no test is gone, by its SUB word and its entry. -/
theorem raySubGone_idle {x : RaySub} {s : State} (h : ∀ t ∈ s.me.tests, t.ray ≠ x.ray) : ∃ p,
    raySubGone x s = rayGone x (raySubLeft x) p s := by
  obtain ⟨c, p, hgone⟩ : ∃ (c : Bool) (p : RayVisit → Bool), raySubGone x s =
    if c = true then nextTest x.ray (rayGone x (raySubLeft x) p s) else rayGone x (raySubLeft x) p s := ⟨_, _, rfl⟩
  have htests : (rayGone x (raySubLeft x) p s).me.tests = s.me.tests.filter fun t => !(t.ray == x.ray && t.sub == x.sub) :=
    tests_of_rayView (rayView_rayGone x p s)
  refine ⟨p, ?_⟩
  rw [hgone, nextTest_idle fun t ht => h t (List.mem_filter.1 (htests ▸ ht)).1, ite_self]

theorem rayGone_memAt {x : RaySub} {p : RayVisit → Bool} {s : State} :
    (∀ k < 4, memAt (rayGone x (raySubLeft x) p s) (rayHome s x.ray (48 + 4 * x.sub + k)) = 0) ∧
    (∀ h, h < rayHome s x.ray (48 + 4 * x.sub) ∨ rayHome s x.ray (52 + 4 * x.sub) ≤ h →
      memAt (rayGone x (raySubLeft x) p s) h = memAt s h) := by
  have hmem (h : Nat) : memAt (rayGone x (raySubLeft x) p s) h =
      memAt (rayPut x.ray (48 + 4 * x.sub) 4 0 (onMe (raySubLeft x) (dropVisits p s))) h := by
    rw [rayGone, memAt, rayWake_mem]
    rfl
  refine ⟨fun k hk => ?_, fun h hh => ?_⟩
  · rw [hmem, rayHome_add _ _ (48 + 4 * x.sub)]
    exact (memAt_rayPut hk 0 (onMe (raySubLeft x) (dropVisits p s))).trans (by rw [Nat.zero_div]; rfl)
  · rw [hmem]
    refine memAt_rayPut_other 0 (onMe (raySubLeft x) (dropVisits p s)) ?_
    rw [show 52 + 4 * x.sub = 48 + 4 * x.sub + 4 by omega, rayHome_add _ _ (48 + 4 * x.sub)] at hh
    exact hh

/-- What the withdrawal of some subscriptions of ray i, which is under no test, comes to. -/
structure RaySubsOver (i : Nat) (l : List RaySub) (s u : State) : Prop where
  tests : u.me.tests ⊆ s.me.tests
  raySubs : u.me.raySubs = s.me.raySubs.filter fun y => l.all fun x => y.id != x.id
  side : u.me.side = s.me.side
  live : u.me.live = s.me.live
  num : u.me.num = s.me.num
  iss : u.iss = s.iss
  clock : u.clock = s.clock
  ctl : s.ctl ⊆ u.ctl
  told : ∀ x ∈ l, ctlMsg (carView s) (x.sel / 256) (.unsub x.id) ∈ u.ctl
  zero : ∀ x ∈ l, ∀ k < 4, memAt u (rayHome s i (48 + 4 * x.sub + k)) = 0
  keepsZero : ∀ h, memAt s h = 0 → memAt u h = 0
  other : ∀ h, (∀ x ∈ l, h < rayHome s i (48 + 4 * x.sub) ∨ rayHome s i (52 + 4 * x.sub) ≤ h) → memAt u h = memAt s h

theorem RaySubsOver.nil (i : Nat) (s : State) : RaySubsOver i [] s s where
  tests := List.Subset.refl _
  raySubs := by simp
  side := rfl
  live := rfl
  num := rfl
  iss := rfl
  clock := rfl
  ctl := List.Subset.refl _
  told _ hx := by simp at hx
  zero _ hx := by simp at hx
  keepsZero _ := id
  other _ _ := rfl

theorem ctl_told {x : RaySub} {s w : State} (hcar : carView w = { carView s with raySubs := w.me.raySubs }) :
    (ctlSend (x.sel / 256) (.unsub x.id) w).ctl = s.ctl ++ [ctlMsg (carView s) (x.sel / 256) (.unsub x.id)] := by
  have hmsg : ctlMsg (carView w) (x.sel / 256) (.unsub x.id) = ctlMsg (carView s) (x.sel / 256) (.unsub x.id) := by
    rw [hcar]
    rfl
  have hctl : w.ctl = s.ctl := congrArg CarView.ctl hcar
  rw [← hmsg, ← hctl]
  rfl

theorem zero_kept {x : RaySub} {s w : State} (hzero : ∀ k < 4, memAt w (rayHome s x.ray (48 + 4 * x.sub + k)) = 0)
    (hother : ∀ h, h < rayHome s x.ray (48 + 4 * x.sub) ∨ rayHome s x.ray (52 + 4 * x.sub) ≤ h → memAt w h = memAt s h) {h : Nat}
    (h0 : memAt s h = 0) : memAt w h = 0 := by
  by_cases hh : h < rayHome s x.ray (48 + 4 * x.sub) ∨ rayHome s x.ray (52 + 4 * x.sub) ≤ h
  · exact (hother h hh).trans h0
  · rw [show 52 + 4 * x.sub = 48 + 4 * x.sub + 4 by omega, rayHome_add _ _ (48 + 4 * x.sub), not_or] at hh
    obtain ⟨k, hk, rfl⟩ : ∃ k < 4, h = rayHome s x.ray (48 + 4 * x.sub) + k := ⟨h - rayHome s x.ray (48 + 4 * x.sub), by omega, by omega⟩
    rw [← rayHome_add]
    exact hzero k hk

/-- A subscription that is gone, with the controller told. -/
theorem raySubsOver_of_gone {x : RaySub} {p : RayVisit → Bool} {s w : State}
    (hview : rayView w = rayView (onMe (raySubLeft x) (dropVisits p s)))
    (hzero : ∀ k < 4, memAt w (rayHome s x.ray (48 + 4 * x.sub + k)) = 0)
    (hother : ∀ h, h < rayHome s x.ray (48 + 4 * x.sub) ∨ rayHome s x.ray (52 + 4 * x.sub) ≤ h → memAt w h = memAt s h) :
    RaySubsOver x.ray [x] s (ctlSend (x.sel / 256) (.unsub x.id) w) where
  tests := by
    rw [show (ctlSend (x.sel / 256) (.unsub x.id) w).me.tests = w.me.tests from rfl, tests_of_rayView hview]
    exact List.filter_subset_self _
  raySubs := by
    refine (raySubs_of_rayView hview).trans ?_
    simp only [List.all_cons, List.all_nil, Bool.and_true]
    rfl
  side := side_of_rayView hview
  live := live_of_rayView hview
  num := num_of_rayView hview
  iss := iss_of_rayView hview
  clock := clock_of_rayView hview
  ctl := by
    rw [ctl_told ((car_of_rayView hview).trans (by rw [raySubs_of_rayView hview]; rfl))]
    exact List.subset_append_left _ _
  told y hy := by
    obtain rfl := List.mem_singleton.1 hy
    rw [ctl_told ((car_of_rayView hview).trans (by rw [raySubs_of_rayView hview]; rfl))]
    exact List.mem_append_right _ (List.mem_singleton_self _)
  zero y hy := by
    obtain rfl := List.mem_singleton.1 hy
    exact hzero
  keepsZero _ := zero_kept hzero hother
  other h hh := hother h (hh x (List.mem_singleton_self x))

theorem raySubsOver_one {i : Nat} {x : RaySub} {s : State} (hray : x.ray = i) (h : ∀ t ∈ s.me.tests, t.ray ≠ i) :
    RaySubsOver i [x] s (raySubWithdraw x s) := by
  subst hray
  obtain ⟨p, hgone⟩ := raySubGone_idle h
  obtain ⟨hzero, hother⟩ := rayGone_memAt (x := x) (p := p) (s := s)
  rw [raySubWithdraw, hgone]
  exact raySubsOver_of_gone (rayView_rayGone x p s) hzero hother

theorem RaySubsOver.cons {i : Nat} {x : RaySub} {l : List RaySub} {s t u : State} (h : RaySubsOver i [x] s t) (k : RaySubsOver i l t u) :
    RaySubsOver i (x :: l) s u := by
  have hhome (off : Nat) : rayHome t i off = rayHome s i off := by rw [rayHome, rayHome, h.num]
  have hmsg (track : Nat) (what : CtlWhat) : ctlMsg (carView t) track what = ctlMsg (carView s) track what := by
    show (⟨t.clock + 64, t.me.num, t.iss.slot, track, what⟩ : CtlMsg) = _
    rw [h.clock, h.num, h.iss]
    rfl
  refine ⟨List.Subset.trans k.tests h.tests, ?_, k.side.trans h.side, k.live.trans h.live, k.num.trans h.num, k.iss.trans h.iss,
    k.clock.trans h.clock, List.Subset.trans h.ctl k.ctl, fun y hy => ?_, fun y hy j hj => ?_,
    fun a ha => k.keepsZero a (h.keepsZero a ha), fun a ha => ?_⟩
  · rw [k.raySubs, h.raySubs, List.filter_filter]
    simp [Bool.and_comm]
  · rcases List.mem_cons.1 hy with rfl | hy
    · exact k.ctl (h.told _ (List.mem_singleton_self _))
    · rw [← hmsg]
      exact k.told y hy
  · rcases List.mem_cons.1 hy with rfl | hy
    · exact k.keepsZero _ (h.zero _ (List.mem_singleton_self _) j hj)
    · rw [← hhome]
      exact k.zero y hy j hj
  · rw [k.other a fun y hy => by rw [hhome, hhome]; exact ha y (List.mem_cons_of_mem x hy)]
    exact h.other a fun y hy => by rw [List.mem_singleton.1 hy]; exact ha x List.mem_cons_self

theorem raySubsOver_foldl {i : Nat} (l : List RaySub) (hl : ∀ x ∈ l, x.ray = i) {s : State} (h : ∀ t ∈ s.me.tests, t.ray ≠ i) :
    RaySubsOver i l s (l.foldl (fun s x => raySubWithdraw x s) s) := by
  induction l generalizing s with
  | nil => exact .nil i s
  | cons x l ih =>
    have hone := raySubsOver_one (hl x List.mem_cons_self) h
    exact hone.cons (ih (fun y hy => hl y (List.mem_cons_of_mem x hy)) fun t ht => h t (hone.tests ht))

/-- What RAYKILL leaves of a live ray. -/
structure RayKilled (i : Nat) (s u : State) : Prop where
  live : rayLive u i = false
  side : sideOf u i = []
  subs : raySubsOf u i = []
  tests : ∀ t ∈ u.me.tests, t.ray ≠ i
  withdrawn : ∀ x ∈ raySubsOf s i, (⟨s.clock + 64, s.me.num, s.iss.slot, x.sel / 256, .unsub x.id⟩ : CtlMsg) ∈ u.ctl ∧
    ∀ k < 4, memAt u (rayHome s i (48 + 4 * x.sub + k)) = 0
  other : ∀ h, (∀ x ∈ raySubsOf s i, h < rayHome s i (48 + 4 * x.sub) ∨ rayHome s i (52 + 4 * x.sub) ≤ h) → memAt u h = memAt s h

theorem rayKilled_of_over {i : Nat} {s w : State} (h : RaySubsOver i (raySubsOf s i) (leaveRay i s) w) :
    RayKilled i s (rayDropped i w) where
  live := by
    show (w.me.live.filter fun j => j != i).contains i = false
    rw [Bool.eq_false_iff]
    intro hc
    simpa using (List.mem_filter.1 (List.contains_iff_mem.1 hc)).2
  side := spGet_set_same [] w.me.side i []
  subs := by
    show (w.me.raySubs.filter fun x => x.ray == i) = []
    rw [h.raySubs, List.filter_filter, List.filter_eq_nil_iff]
    intro x hx hxi
    rw [Bool.and_eq_true, List.all_eq_true] at hxi
    obtain ⟨hray, hall⟩ := hxi
    simpa using hall x (List.mem_filter.2 ⟨hx, hray⟩)
  tests t ht := by
    have htl : t ∈ s.me.tests.filter fun t => t.ray != i := h.tests ht
    simpa using (List.mem_filter.1 htl).2
  withdrawn x hx := ⟨h.told x hx, h.zero x hx⟩
  other := h.other

theorem raykill_kills {d a : BitVec 7} {i : Nat} {s : State} (hr : Ready ⟨[.g d, .g a], [.g d]⟩ s) (ha : rd s a = BitVec.ofNat 64 i)
    (hi : i < 4096) (hlive : rayLive s i = true) (hfree : banksBusy s (rayHomes s i) = false) : Gives (exec (.raykill d a) s) fun u =>
      u.iss.res = .retired ∧ RayKilled i s u ∧
      regAt u s.iss.slot d.toNat = BitVec.ofNat 64 (256 * (sideOf s i).length + (raySubsOf s i).length) := by
  have hover : RaySubsOver i (raySubsOf s i) (leaveRay i s) ((raySubsOf s i).foldl (fun s x => raySubWithdraw x s) (leaveRay i s)) :=
    raySubsOver_foldl _ (fun x hx => by simpa using (List.mem_filter.1 hx).2) fun t ht => by
      simpa using (List.mem_filter.1 (show t ∈ s.me.tests.filter fun t => t.ray != i from ht)).2
  have hexec := exec_raykill hr ha hi
  rw [hlive, Bool.not_true, if_neg Bool.false_ne_true, onRecord_free hfree, show sideOf (leaveRay i s) i = sideOf s i from rfl,
    show raySubsOf (leaveRay i s) i = raySubsOf s i from rfl, Nat.mul_comm] at hexec
  generalize (raySubsOf s i).foldl (fun s x => raySubWithdraw x s) (leaveRay i s) = w at *
  refine ⟨_, hexec, rfl, ?_, ?_⟩
  · obtain ⟨h1, h2, h3, h4, h5, h6⟩ := rayKilled_of_over hover
    exact ⟨h1, h2, h3, h4, h5, h6⟩
  · have hslot : (rayDropped i w).iss.slot = s.iss.slot := congrArg Issue.slot hover.iss
    rw [← hslot]
    exact regAt_advance_wr d _ (rayDropped i w)

/-! ## The intersection unit's visits (R27, R167, R169) -/

theorem exec_recordTest_visit {v : RayVisit} {s : State} (hwork : s.me.work = [v]) :
    exec .recordTest s = .next (makeVisit v { s with me := { s.me with work := [] } }) := by
  have hvisits : makeVisits s = makeVisit v { s with me := { s.me with work := [] } } := by
    unfold makeVisits nextVisits
    rw [hwork]
    simp
  show execRecordTest s = _
  unfold execRecordTest
  rw [hwork, hvisits]
  rfl

theorem rayNat_one (s : State) (i off : Nat) : rayNat s i off 1 = (memAt s (rayHome s i off)).toNat := by
  simp [rayNat, leNat]

theorem byte_or {b : Byte} {n : Nat} : BitVec.ofNat 8 ((b.toNat ||| n) / 256 ^ 0) = b ||| BitVec.ofNat 8 n := by
  rw [pow_zero, Nat.div_one]
  refine BitVec.eq_of_getLsbD_eq fun j hj => ?_
  simp [BitVec.getLsbD]

/-- One byte of ray i's record with more bits set. -/
theorem memAt_rayPut_or {i off n : Nat} {s : State} :
    memAt (rayPut i off 1 (rayNat s i off 1 ||| n) s) (rayHome s i off) = memAt s (rayHome s i off) ||| BitVec.ofNat 8 n ∧
    ∀ h, h ≠ rayHome s i off → memAt (rayPut i off 1 (rayNat s i off 1 ||| n) s) h = memAt s h := by
  refine ⟨?_, fun h hne => memAt_rayPut_other _ s (by omega)⟩
  have hbyte := memAt_rayPut (i := i) (off := off) Nat.zero_lt_one (rayNat s i off 1 ||| n) s
  rw [Nat.add_zero, rayNat_one, byte_or] at hbyte
  rw [rayNat_one]
  exact hbyte

/-- What a visit for a start that was missed leaves. -/
structure LateNoted (v : RayVisit) (s t : State) : Prop where
  work : t.me.work = []
  ring : t.me.ring = s.me.ring
  flag : memAt t (rayHome s v.ray 40) = memAt s (rayHome s v.ray 40) ||| 8
  other : ∀ h, h ≠ rayHome s v.ray 40 → memAt t h = memAt s h

theorem recordTest_late {v : RayVisit} {s : State} (hwork : s.me.work = [v]) (hkind : v.kind = .late) :
    Gives (exec .recordTest s) (LateNoted v s) := by
  have hvisit (u : State) : makeVisit v u = rayPut v.ray 40 1 (rayNat u v.ray 40 1 ||| 8) u := by
    unfold makeVisit
    rw [hkind]
    rfl
  refine ⟨_, exec_recordTest_visit hwork, ?_⟩
  rw [hvisit]
  obtain ⟨hflag, hother⟩ := memAt_rayPut_or (i := v.ray) (off := 40) (n := 8) (s := { s with me := { s.me with work := [] } })
  have hview := rayView_rayPut v.ray 40 1 (rayNat { s with me := { s.me with work := [] } } v.ray 40 1 ||| 8) { s with me := { s.me with work := [] } }
  generalize rayPut v.ray 40 1 _ _ = w at *
  exact ⟨work_of_rayView hview, ring_of_rayView hview, hflag, hother⟩

/-- The test u of ray's start as the unit comes to it. -/
def openedTest (u : RayTest) (s : State) : RayTest :=
  { u with
    skip := 0, tmax0 := BitVec.ofNat 32 (rayNat s u.ray 28 4), hit0 := BitVec.ofNat 32 (rayNat s u.ray 32 4)
    side0 := sideOf s u.ray, dist0 := BitVec.ofNat 16 (rayNat s u.ray (48 + 4 * u.sub) 2) }

/-- What a visit that opens test u leaves. -/
structure Opened (u : RayTest) (s t : State) : Prop where
  work : t.me.work = []
  ring : t.me.ring = s.me.ring
  skip0 : memAt t (rayHome s u.ray 42) = 0
  skip1 : memAt t (rayHome s u.ray 43) = 0
  mark : memAt t (rayHome s u.ray (51 + 4 * u.sub)) = memAt s (rayHome s u.ray (51 + 4 * u.sub)) ||| 64
  other : ∀ h, h ≠ rayHome s u.ray 42 → h ≠ rayHome s u.ray 43 → h ≠ rayHome s u.ray (51 + 4 * u.sub) → memAt t h = memAt s h
  test : openedTest u s ∈ t.me.tests

theorem openTest_of_parts (u : RayTest) (s : State) : openTest u s = onMe (withTest u (openedTest u s))
    (rayPut u.ray (48 + 4 * u.sub + 3) 1 (rayNat s u.ray (48 + 4 * u.sub + 3) 1 ||| 64) (rayPut u.ray 42 2 0 s)) := rfl

theorem memAt_open (i sub : Nat) (s : State) :
    let w := rayPut i (48 + 4 * sub + 3) 1 (rayNat s i (48 + 4 * sub + 3) 1 ||| 64) (rayPut i 42 2 0 s)
    memAt w (rayHome s i 42) = 0 ∧ memAt w (rayHome s i 43) = 0 ∧
    memAt w (rayHome s i (51 + 4 * sub)) = memAt s (rayHome s i (51 + 4 * sub)) ||| 64 ∧
    ∀ h, h ≠ rayHome s i 42 → h ≠ rayHome s i 43 → h ≠ rayHome s i (51 + 4 * sub) → memAt w h = memAt s h := by
  have hhome (off : Nat) : rayHome (rayPut i 42 2 0 s) i off = rayHome s i off := by rw [rayHome, rayHome, num_rayPut]
  have h43 : rayHome s i 43 = rayHome s i 42 + 1 := rayHome_add s i 42 1
  have hsub : rayHome s i (48 + 4 * sub + 3) = rayHome s i 42 + (9 + 4 * sub) := by
    rw [← rayHome_add]
    congr 1
    omega
  have hskip (k : Nat) (hk : k < 2) : memAt (rayPut i 42 2 0 s) (rayHome s i 42 + k) = 0 := by
    rw [memAt_rayPut hk, Nat.zero_div]
    rfl
  have hleft (h : Nat) (hne : h ≠ rayHome s i (48 + 4 * sub + 3)) (w : Nat) :
      memAt (rayPut i (48 + 4 * sub + 3) 1 w (rayPut i 42 2 0 s)) h = memAt (rayPut i 42 2 0 s) h :=
    memAt_rayPut_other w _ (by rw [hhome]; omega)
  have hmark := memAt_rayPut (i := i) (off := 48 + 4 * sub + 3) Nat.zero_lt_one (rayNat s i (48 + 4 * sub + 3) 1 ||| 64) (rayPut i 42 2 0 s)
  rw [Nat.add_zero, hhome, rayNat_one, byte_or] at hmark
  rw [show 51 + 4 * sub = 48 + 4 * sub + 3 by omega]
  refine ⟨?_, ?_, ?_, fun h h42 h43' hs => ?_⟩
  · exact (hleft _ (by omega) _).trans (hskip 0 (by omega))
  · rw [hleft _ (by omega), h43]
    exact hskip 1 (by omega)
  · rw [rayNat_one]
    exact hmark
  · rw [hleft h hs]
    exact memAt_rayPut_other 0 s (by omega)

theorem opened_of_parts {u : RayTest} {s r w : State} (hu : u ∈ s.me.tests) (hview : rayView w = rayView s)
    (hmem : memAt w (rayHome s u.ray 42) = 0 ∧ memAt w (rayHome s u.ray 43) = 0 ∧
      memAt w (rayHome s u.ray (51 + 4 * u.sub)) = memAt s (rayHome s u.ray (51 + 4 * u.sub)) ||| 64 ∧
      ∀ h, h ≠ rayHome s u.ray 42 → h ≠ rayHome s u.ray 43 → h ≠ rayHome s u.ray (51 + 4 * u.sub) → memAt w h = memAt s h)
    (hs : s = { r with me := { r.me with work := [] } }) : Opened u r (onMe (withTest u (openedTest u r)) w) := by
  subst hs
  obtain ⟨h42, h43, hmark, hother⟩ := hmem
  refine ⟨work_of_rayView hview, ring_of_rayView hview, h42, h43, hmark, hother, ?_⟩
  refine List.mem_map.2 ⟨u, ?_, if_pos rfl⟩
  rw [tests_of_rayView hview]
  exact hu

theorem recordTest_opens {v : RayVisit} {u : RayTest} {s : State} (hwork : s.me.work = [v]) (hkind : v.kind = .opens)
    (hfind : (s.me.tests.find? fun x => x.ray == v.ray && x.sub == v.sub && x.start == v.start) = some u) :
    Gives (exec .recordTest s) (Opened u s) := by
  have hvisit : makeVisit v { s with me := { s.me with work := [] } } = openTest u { s with me := { s.me with work := [] } } := by
    unfold makeVisit
    dsimp only
    rw [hkind, hfind]
  refine ⟨_, exec_recordTest_visit hwork, ?_⟩
  rw [hvisit, openTest_of_parts]
  refine opened_of_parts (s := { s with me := { s.me with work := [] } }) (List.mem_of_find?_eq_some hfind) ?_ (memAt_open u.ray u.sub _) rfl
  rw [rayView_rayPut, rayView_rayPut]

/-! ## A record of the ring's first block (R162, R168, R171) -/

/-- What the tests of a record leave of the catch ring. -/
structure SameRing (s t : State) : Prop where
  ring : t.me.ring = s.me.ring
  ringRec : t.me.ringRec = s.me.ringRec
  stopped : t.me.stopped = s.me.stopped

theorem SameRing.refl (s : State) : SameRing s s := ⟨rfl, rfl, rfl⟩

theorem SameRing.trans {s t u : State} (h : SameRing s t) (k : SameRing t u) : SameRing s u :=
  ⟨k.ring.trans h.ring, k.ringRec.trans h.ringRec, k.stopped.trans h.stopped⟩

theorem SameRing.foldl {α : Type} {f : State → α → State} (hf : ∀ s x, SameRing s (f s x)) (l : List α) (s : State) :
    SameRing s (l.foldl f s) := by
  induction l generalizing s with
  | nil => exact .refl s
  | cons x l ih => exact (hf s x).trans (ih _)

theorem sameRing_of_rayView {s t : State} (h : rayView t = rayView s) : SameRing s t :=
  ⟨ring_of_rayView h, ringRec_of_rayView h, stopped_of_rayView h⟩

theorem sameRing_rayPut (i off n v : Nat) (s : State) : SameRing s (rayPut i off n v s) := sameRing_of_rayView (rayView_rayPut i off n v s)

theorem sameRing_setSide (i : Nat) (l : List (Word × Nat)) (s : State) : SameRing s (setSide i l s) := ⟨rfl, rfl, rfl⟩

theorem sameRing_setSkip (t : RayTest) (n : Nat) (s : State) : SameRing s (setSkip t n s) := by
  unfold setSkip
  dsimp only
  split
  · exact ⟨rfl, rfl, rfl⟩
  · obtain ⟨hring, hrec, hstop⟩ := sameRing_rayPut t.ray 42 2 (Nat.min n 0xFFFF)
      { s with me := { s.me with tests := s.me.tests.map fun u => if u = t then { t with skip := n } else u } }
    exact ⟨hring, hrec, hstop⟩

theorem sameRing_acceptOrdered (t : RayTest) (w : Word) (s : State) : SameRing s (acceptOrdered t w s) := by
  unfold acceptOrdered
  dsimp only
  split
  · exact (sameRing_setSide _ _ s).trans (sameRing_rayPut _ _ _ _ _)
  · split
    · exact sameRing_rayPut _ _ _ _ s
    · exact sameRing_setSide _ _ s

theorem sameRing_acceptClosest (i : Nat) (w : Word) (s : State) : SameRing s (acceptClosest i w s) := by
  unfold acceptClosest
  dsimp only
  split
  · exact (sameRing_rayPut _ _ _ _ s).trans (sameRing_setSide _ _ _)
  · exact .refl s

theorem sameRing_testRecord (rec : Lanes) (t : RayTest) (s : State) : SameRing s (testRecord rec t s) := by
  unfold testRecord
  dsimp only
  generalize hu : (if (rec 0).toNat = 0 ∨ 3 < (rec 0).toNat then s else askBanks [rayHome s t.ray 0] s) = u
  have hsame : SameRing s u := by
    rw [← hu]
    split
    · exact .refl s
    · exact ⟨rfl, rfl, rfl⟩
  refine hsame.trans ?_
  split
  · split
    · exact .refl u
    · exact sameRing_setSkip _ _ u
  · split
    · split
      · exact sameRing_acceptClosest _ _ u
      · split
        · exact sameRing_acceptOrdered _ _ u
        · exact .refl u
    · exact .refl u
  · split
    · split
      · exact sameRing_acceptOrdered _ _ u
      · exact .refl u
    · exact .refl u
  · exact .refl u

theorem sameRing_testAll (rec : Lanes) (start : Nat) (s : State) : SameRing s (testAll rec start s) := by
  refine SameRing.foldl (fun s t => ?_) _ s
  split
  · exact sameRing_setSkip _ _ s
  · exact sameRing_testRecord rec t s

/-- The first block's next record has been tested. -/
def recordTested (b : RingBlock) (s : State) : State :=
  testAll (blockLanes b.data s.me.ringRec) b.start { s with me := { s.me with
    ringFree := s.clock + recordCost (blockLanes b.data s.me.ringRec 0).toNat ((walkers s b.start).filter fun t => t.skip == 0).length } }

theorem sameRing_recordTested (b : RingBlock) (s : State) : SameRing s (recordTested b s) := by
  obtain ⟨hring, hrec, hstop⟩ := sameRing_testAll (blockLanes b.data s.me.ringRec) b.start { s with me := { s.me with
    ringFree := s.clock + recordCost (blockLanes b.data s.me.ringRec 0).toNat ((walkers s b.start).filter fun t => t.skip == 0).length } }
  exact ⟨hring, hrec, hstop⟩

section
variable {b : RingBlock} {rest : List RingBlock} {s : State} (hring : s.me.ring = b :: rest) (hfree : s.me.ringFree ≤ s.clock)
  (hbad : b.bad = false) (hwork : s.me.work = [])
include hring hfree hbad hwork

theorem exec_recordTest_ring : exec .recordTest s = .next (if s.me.ringRec = 3 then blockDone b (ringPop (recordTested b s))
    else { recordTested b s with me := { (recordTested b s).me with ringRec := (recordTested b s).me.ringRec + 1 } }) := by
  have hrec := (sameRing_recordTested b s).ringRec
  show execRecordTest s = _
  unfold execRecordTest
  rw [hwork, hring]
  dsimp only
  rw [if_neg (by decide), if_neg (Nat.not_lt.2 hfree), hbad, if_neg Bool.false_ne_true]
  change (if (recordTested b s).me.ringRec = 3 then Host.Outcome.next (blockDone b (ringPop (recordTested b s)))
    else Host.Outcome.next { recordTested b s with me := { (recordTested b s).me with ringRec := (recordTested b s).me.ringRec + 1 } }) = _
  rw [hrec]
  split <;> rfl

theorem recordTest_counts (hrec : s.me.ringRec < 3) : Gives (exec .recordTest s) fun t =>
    t.me.ringRec = s.me.ringRec + 1 ∧ t.me.ring = s.me.ring := by
  obtain ⟨hr, hc, -⟩ := sameRing_recordTested b s
  refine ⟨_, exec_recordTest_ring hring hfree hbad hwork, ?_⟩
  rw [if_neg hrec.ne]
  exact ⟨congrArg (· + 1) hc, hr⟩

end

theorem ringRec_foldl {α : Type} {f : State → α → State} (hf : ∀ s x, (f s x).me.ringRec = s.me.ringRec) (l : List α) (s : State) :
    (l.foldl f s).me.ringRec = s.me.ringRec := foldl_keeps (p := fun s : State => s.me.ringRec) hf l s

/-- A block leaves the ring, and the unit of a stopping core empties it. -/
theorem blockDone_ring {b : RingBlock} {s : State} (hlast : b.last = false) :
    (blockDone b (ringPop s)).me.ringRec = 0 ∧ (blockDone b (ringPop s)).me.ring = if s.me.stopped then [] else s.me.ring.drop 1 := by
  have hrests : unitRests (ringPop s) = s.me.stopped := Bool.and_true _
  unfold blockDone unitStop
  dsimp only
  rw [hlast, if_neg Bool.false_ne_true, hrests]
  cases s.me.stopped
  · exact ⟨rfl, rfl⟩
  rw [if_pos rfl]
  refine ⟨?_, rfl⟩
  show (List.foldl _ (List.foldl _ (List.foldl _ (ringPop s) _) _) _).me.ringRec = 0
  refine (ringRec_foldl (f := fun s (x : RaySub) => forgetSub x.id s) (fun _ _ => rfl) _ _).trans ?_
  refine (ringRec_foldl (f := fun s (t : RayTest) => askVisit .stop t.ray t.sub t.start s) (fun _ _ => rfl) _ _).trans ?_
  refine (ringRec_foldl (fun s b => ?_) _ _).trans rfl
  split
  · rw [sendTaint, sendNet_frame]
  · rfl

section
variable {b : RingBlock} {rest : List RingBlock} {s : State} (hring : s.me.ring = b :: rest) (hfree : s.me.ringFree ≤ s.clock)
  (hbad : b.bad = false) (hwork : s.me.work = [])
include hring hfree hbad hwork

theorem recordTest_drops (hrec : s.me.ringRec = 3) (hlast : b.last = false) : Gives (exec .recordTest s) fun t =>
    t.me.ringRec = 0 ∧ t.me.ring = if s.me.stopped then [] else rest := by
  obtain ⟨hr, -, hs⟩ := sameRing_recordTested b s
  refine ⟨_, exec_recordTest_ring hring hfree hbad hwork, ?_⟩
  rw [if_pos hrec]
  obtain ⟨hzero, hleft⟩ := blockDone_ring (s := recordTested b s) hlast
  rw [hr, hs, hring] at hleft
  exact ⟨hzero, hleft⟩

end

/-- The closest hit w of ray i stands in its record, and nothing else has changed. -/
structure HitStored (i : Nat) (w : Word) (s t : State) : Prop where
  bytes : ∀ k < 4, memAt t (rayHome s i (28 + k)) = w.extractLsb' (32 + 8 * k) 8 ∧
    memAt t (rayHome s i (32 + k)) = w.extractLsb' (8 * k) 8
  other : ∀ h, (h < rayHome s i 28 ∨ rayHome s i 36 ≤ h) → memAt t h = memAt s h

/-- A hit's t stands before its id. -/
theorem testBit_hit (w : Word) (n : Nat) : (w.toNat / 2 ^ 32 + w.toNat % 2 ^ 32 * 2 ^ 32).testBit n =
    if n < 32 then w.getLsbD (n + 32) else decide (n - 32 < 32) && w.getLsbD (n - 32) := by
  have hlt : w.toNat / 2 ^ 32 < 2 ^ 32 := by omega
  rw [Nat.add_comm, Nat.mul_comm, Nat.testBit_two_pow_mul_add _ hlt, Nat.testBit_div_two_pow, Nat.testBit_mod_two_pow]
  rfl

/-- The eight bytes of a hit. -/
theorem bytes_hit (w : Word) {k : Nat} (hk : k < 4) :
    BitVec.ofNat 8 ((w.toNat / 2 ^ 32 + w.toNat % 2 ^ 32 * 2 ^ 32) / 256 ^ k) = w.extractLsb' (32 + 8 * k) 8 ∧
    BitVec.ofNat 8 ((w.toNat / 2 ^ 32 + w.toNat % 2 ^ 32 * 2 ^ 32) / 256 ^ (4 + k)) = w.extractLsb' (8 * k) 8 := by
  constructor <;> refine BitVec.eq_of_getLsbD_eq fun j hj => ?_ <;>
    rw [getLsbD_byte _ _ _ hj, testBit_hit, BitVec.getLsbD_extractLsb', decide_eq_true hj, Bool.true_and]
  · rw [if_pos (by omega), show 8 * k + j + 32 = 32 + 8 * k + j by omega]
  · rw [if_neg (by omega), decide_eq_true (by omega), Bool.true_and, show 8 * (4 + k) + j - 32 = 8 * k + j by omega]

theorem hitStored_rayPut (i : Nat) (w : Word) (s : State) :
    HitStored i w s (rayPut i 28 8 (w.toNat / 2 ^ 32 + w.toNat % 2 ^ 32 * 2 ^ 32) s) where
  bytes k hk := by
    obtain ⟨ht, hid⟩ := bytes_hit w hk
    have h28 := memAt_rayPut (i := i) (off := 28) (n := 8) (k := k) (by omega) (w.toNat / 2 ^ 32 + w.toNat % 2 ^ 32 * 2 ^ 32) s
    have h32 := memAt_rayPut (i := i) (off := 28) (n := 8) (k := 4 + k) (by omega) (w.toNat / 2 ^ 32 + w.toNat % 2 ^ 32 * 2 ^ 32) s
    rw [← rayHome_add, ht] at h28
    rw [← rayHome_add, ← Nat.add_assoc, hid] at h32
    exact ⟨h28, h32⟩
  other h hh := by
    rw [show rayHome s i 36 = rayHome s i 28 + 8 from rayHome_add s i 28 8] at hh
    exact memAt_rayPut_other _ s hh

theorem acceptClosest_nearer {i : Nat} {w : Word} {s : State} (hlt : ltN (hitT w) (unpack fmtS (rayNat s i 28 4)) = true) :
    acceptClosest i w s = setSide i ((sideOf s i).filter fun e => !ltN (hitT w) (hitT e.1))
      (rayPut i 28 8 (w.toNat / 2 ^ 32 + w.toNat % 2 ^ 32 * 2 ^ 32) s) := by
  unfold acceptClosest
  dsimp only
  rw [hlt, Bool.true_or, if_pos rfl]

section
variable {b : RingBlock} {rest : List RingBlock} {u : RayTest} {w : Word} {s : State} (hring : s.me.ring = b :: rest)
  (hfree : s.me.ringFree ≤ s.clock) (hbad : b.bad = false) (hwork : s.me.work = []) (hwalk : walkers s b.start = [u])
  (hskip : u.skip = 0) (hrec : s.me.ringRec < 3) (hkind : blockLanes b.data s.me.ringRec 0 = 2)
  (hclosest : (blockLanes b.data s.me.ringRec 11).getLsbD 0 = false)
  (htri : triTest (rayLanes s u.ray) (blockLanes b.data s.me.ringRec) = some w)
  (hlt : ltN (hitT w) (unpack fmtS (rayNat s u.ray 28 4)) = true)

omit hring hfree hbad hwork hwalk hskip hrec in
include hkind hclosest htri in
theorem testRecord_closest : testRecord (blockLanes b.data s.me.ringRec) u s = acceptClosest u.ray w (askBanks [rayHome s u.ray 0] s) := by
  have htwo : (blockLanes b.data s.me.ringRec 0).toNat = 2 := by rw [hkind]; rfl
  have hbit : (blockLanes b.data s.me.ringRec 11).toNat % 2 = 0 := by
    have h := hclosest
    rw [BitVec.getLsbD, Nat.testBit_zero] at h
    simpa using h
  have hlanes : rayLanes (askBanks [rayHome s u.ray 0] s) u.ray = rayLanes s u.ray := rfl
  unfold testRecord
  dsimp only
  rw [htwo, if_neg (show ¬(2 = 0 ∨ 3 < 2) by decide)]
  rw [hlanes, htri]
  dsimp only
  rw [hbit]
  exact if_pos rfl

omit hring hfree hbad hwork hrec in
include hwalk hskip hkind hclosest htri hlt in
theorem recordTested_closest : ∃ v l, rayView v = rayView { s with me := { s.me with ringFree := s.clock + 1 } } ∧ HitStored u.ray w s v ∧
    recordTested b s = setSide u.ray l v := by
  have hcost : recordCost (blockLanes b.data s.me.ringRec 0).toNat ((walkers s b.start).filter fun t => t.skip == 0).length = 1 := by
    rw [show (blockLanes b.data s.me.ringRec 0).toNat = 2 by rw [hkind]; rfl, hwalk, List.filter_cons, hskip,
      if_pos (beq_self_eq_true 0), List.filter_nil, List.length_singleton]
    rfl
  unfold recordTested
  rw [hcost]
  generalize hr : ({ s with me := { s.me with ringFree := s.clock + 1 } } : State) = r
  have hwalkr : walkers r b.start = [u] := by rw [← hr]; exact hwalk
  have hlanes : rayLanes r u.ray = rayLanes s u.ray := by rw [← hr]; rfl
  have hrec : r.me.ringRec = s.me.ringRec := by rw [← hr]
  have hltr : ltN (hitT w) (unpack fmtS (rayNat r u.ray 28 4)) = true := by rw [← hr]; exact hlt
  have htest := testRecord_closest (b := b) (u := u) (w := w) (s := r) (by rwa [hrec]) (by rwa [hrec]) (by rwa [hrec, hlanes])
  rw [hrec] at htest
  have hput := hitStored_rayPut u.ray w (askBanks [rayHome r u.ray 0] r)
  have hview := rayView_rayPut u.ray 28 8 (w.toNat / 2 ^ 32 + w.toNat % 2 ^ 32 * 2 ^ 32) (askBanks [rayHome r u.ray 0] r)
  have hall : testAll (blockLanes b.data s.me.ringRec) b.start r = testRecord (blockLanes b.data s.me.ringRec) u r := by
    unfold testAll
    rw [hwalkr, List.foldl_cons, List.foldl_nil, hskip]
    rfl
  rw [hall, htest, acceptClosest_nearer (s := askBanks [rayHome r u.ray 0] r) hltr]
  generalize rayPut u.ray 28 8 _ _ = v at *
  obtain ⟨hbytes, hother⟩ := hput
  refine ⟨v, _, hview, ⟨?_, ?_⟩, rfl⟩
  · rw [← hr] at hbytes
    exact hbytes
  · rw [← hr] at hother
    exact hother

include hring hfree hbad hwork hwalk hskip hrec hkind hclosest htri hlt in
theorem recordTest_hits : Gives (exec .recordTest s) fun t => HitStored u.ray w s t ∧ t.me.ringFree = s.clock + 1 := by
  obtain ⟨v, l, hview, ⟨hbytes, hother⟩, htested⟩ := recordTested_closest hwalk hskip hkind hclosest htri hlt
  refine ⟨_, exec_recordTest_ring hring hfree hbad hwork, ?_⟩
  rw [if_neg hrec.ne, htested]
  exact ⟨⟨hbytes, hother⟩, ringFree_of_rayView hview⟩

end

theorem gives_raySubscribed (d : BitVec 7) {i j t e kind : Nat} {x : Word} {s w : State} (h : RaySubscribed i j t e kind x s w) :
    Gives (retireWr d (BitVec.ofNat 64 j) w) fun u => u.iss.res = .retired ∧ regAt u s.iss.slot d.toNat = BitVec.ofNat 64 j ∧
      u.me.raySubs = s.me.raySubs ++ [⟨s.serial, i, j, 256 * t + e, kind, s.clock⟩] ∧
      memAt u (rayHome s i (48 + 4 * j)) = x.extractLsb' 0 8 ∧ memAt u (rayHome s i (49 + 4 * j)) = x.extractLsb' 8 8 ∧
      memAt u (rayHome s i (50 + 4 * j)) = BitVec.ofNat 8 e ∧ memAt u (rayHome s i (51 + 4 * j)) = BitVec.ofNat 8 (128 + t) ∧
      (⟨s.clock + 64, s.me.num, s.iss.slot, t, .sub ⟨s.serial, s.me.num, t, e, s.clock, false⟩⟩ : CtlMsg) ∈ u.ctl := by
  obtain ⟨hiss, h1, h2, h3, h4, h5, h6⟩ := h
  refine ⟨_, rfl, rfl, ?_, h1, h2, h3, h4, h5, h6⟩
  rw [← hiss]
  exact regAt_advance_wr d _ w

theorem raysub_subscribes {d a b : BitVec 7} {i t e j : Nat} {s : State} (hr : Ready ⟨[.g d, .g a, .g b], [.g d]⟩ s)
    (ha : rd s a = BitVec.ofNat 64 i) (hi : i < 4096) (hsel : rd s b = BitVec.ofNat 64 (256 * t + e)) (ht : t < 16) (he : e < 256)
    (hheld : t ∈ s.ctx.tracks) (hlen : e < (trackAt s t).segs.length) (hkind : (segAt s t e).kind = 1 ∨ (segAt s t e).kind = 2)
    (hlive : rayLive s i = true) (hfree : banksBusy s (rayHomes s i) = false) (hnew : ∀ x ∈ raySubsOf s i, x.sel ≠ 256 * t + e)
    (hj : j < 4) (hplace : ∀ x ∈ raySubsOf s i, x.sub ≠ j) (hlow : ∀ l < j, ∃ x ∈ raySubsOf s i, x.sub = l) :
    Gives (exec (.raysub d a b) s) fun u => u.iss.res = .retired ∧ regAt u s.iss.slot d.toNat = BitVec.ofNat 64 j ∧
      u.me.raySubs = s.me.raySubs ++ [⟨s.serial, i, j, 256 * t + e, (segAt s t e).kind, s.clock⟩] ∧
      memAt u (rayHome s i (48 + 4 * j)) = (rd s d).extractLsb' 0 8 ∧
      memAt u (rayHome s i (49 + 4 * j)) = (rd s d).extractLsb' 8 8 ∧
      memAt u (rayHome s i (50 + 4 * j)) = BitVec.ofNat 8 e ∧ memAt u (rayHome s i (51 + 4 * j)) = BitVec.ofNat 8 (128 + t) ∧
      (⟨s.clock + 64, s.me.num, s.iss.slot, t, .sub ⟨s.serial, s.me.num, t, e, s.clock, false⟩⟩ : CtlMsg) ∈ u.ctl := by
  have hspec := raySubscribed_spec (i := i) (j := j) (t := t) (kind := (segAt s t e).kind) (x := rd s d) he s
  rw [raysub_free hr ha hi hsel ht he hheld hlen hkind hlive hfree hnew, freePlace_lowest hj hplace hlow]
  exact gives_raySubscribed d hspec

/-- Settles O33: each word by its equation; a record's bytes by what the unit and the words write of it. -/
theorem rayResults : Obligations.RayResults := by
  unfold Obligations.RayResults
  refine ⟨?_, ?_, ?_⟩
  · intro d gd ga gb i s hr ha hi sl home
    have hput : Ready ⟨[.v d, .g ga], []⟩ s := ready_of_subset (by simp) hr
    have hget : Ready ⟨[.v d, .g ga], [.v d]⟩ s := ready_of_subset (by simp) hr
    have hone : Ready ⟨[.g gd, .g ga], [.g gd]⟩ s := ready_of_subset (by simp) hr
    have hsub : Ready ⟨[.g gd, .g ga, .g gb], [.g gd]⟩ s := ready_of_subset (by simp) hr
    refine ⟨fun hbusy hsubs => ⟨?_, ?_⟩, fun hbusy hlive => ⟨?_, ?_, ?_, ?_⟩, fun hsubs => ?_, fun hfree hsubs => ?_,
      fun hfree => rayget_reads hi ha hget hfree, fun t e hsel ht he hheld hlen hkind => ⟨?_, ?_, ?_⟩, ?_, ?_, ?_, ?_, ?_, ?_⟩
    · rw [exec_rayput hi ha hput, hsubs, List.isEmpty_nil, Bool.not_true, if_neg Bool.false_ne_true, onRecord_busy hbusy]
    · rw [exec_rayget hi ha hget, onRecord_busy hbusy]
    · rw [exec_raykill hone ha hi, hlive, Bool.not_true, if_neg Bool.false_ne_true, onRecord_busy hbusy]
    · exact hitpop_forfeits hone ha hi hlive hbusy
    · intro hsubs
      rw [carwaitRay_done hone ha hi hlive hsubs, onRecord_busy hbusy]
    · exact fun t e hsel ht he hheld hlen hkind => raysub_forfeits hsub ha hi hsel ht he hheld hlen hkind hlive hbusy
    · rw [exec_rayput hi ha hput]
      exact if_pos (by simpa using hsubs)
    · obtain ⟨t, hexec, hres, h1, h2, h3, h4, h5, h6, h7⟩ := rayput_makesLive hi ha hput hfree hsubs
      exact ⟨t, hexec, hres, h1, h2, h3, h4, h5, h6, h7⟩
    · exact raysub_traps hsub ha hi hsel ht he hheld hlen hkind
    · intro hlive hfree hnew hfull
      rw [raysub_free hsub ha hi hsel ht he hheld hlen hkind hlive hfree hnew, freePlace_none hfull]
      rfl
    · intro j hlive hfree hnew hj hplace hlow
      exact raysub_subscribes hsub ha hi hsel ht he hheld hlen hkind hlive hfree hnew hj hplace hlow
    · exact fun hside => hitpop_empty hone ha hi hside
    · exact fun w start l hside => ⟨fun hlive hle hfree => hitpop_pops hone ha hi hside hlive hle hfree,
        fun h => hitpop_none hone ha hi hside h⟩
    · intro hlive hfree
      obtain ⟨u, hexec, hres, ⟨h1, h2, h3, h4, h5, h6⟩, hreg⟩ := raykill_kills hone ha hi hlive hfree
      exact ⟨u, hexec, hres, h1, h2, h3, h4, hreg, h5, h6⟩
    · intro hlive
      refine ⟨?_, carwaitRay_dead hone ha hi hlive⟩
      rw [exec_raykill hone ha hi, hlive]
      exact if_pos rfl
    · intro hlive hsubs hfree
      rw [carwaitRay_done hone ha hi hlive hsubs, onRecord_free hfree]
      rfl
    · exact fun hlive hsubs => carwaitRay_parks hone ha hi hlive hsubs
  · intro v s hwork home
    refine ⟨fun hkind => ?_, fun u hkind hfind _ => ?_⟩
    · obtain ⟨t, hexec, h1, h2, h3, h4⟩ := recordTest_late hwork hkind
      exact ⟨t, hexec, h1, h2, h3, h4⟩
    · have hpred := List.find?_some hfind
      rw [Bool.and_eq_true, Bool.and_eq_true, beq_iff_eq, beq_iff_eq] at hpred
      obtain ⟨⟨hray, hsub⟩, -⟩ := hpred
      obtain ⟨t, hexec, h1, h2, h3, h4, h5, h6, h7⟩ := recordTest_opens hwork hkind hfind
      rw [hray] at h3 h4 h5 h6
      rw [hsub] at h5 h6
      exact ⟨t, hexec, h1, h2, h3, h4, h5, h6, h7⟩
  · intro b rest s hring hfree hbad hwork
    refine ⟨recordTest_counts hring hfree hbad hwork, recordTest_drops hring hfree hbad hwork, ?_⟩
    intro u w hwalk hskip hrec line home hkind hclosest htri hlt
    obtain ⟨t, hexec, ⟨hbytes, hother⟩, hring⟩ := recordTest_hits hring hfree hbad hwork hwalk hskip hrec hkind hclosest htri hlt
    exact ⟨t, hexec, hbytes, hother, hring⟩

end Sys2Proof.Proofs
end

section
/-!
SUPPORT. Pushes to the queues of the engines (R207, R279, R313, R336, R366, R374).
-/

namespace Sys2Proof.Proofs

open Sys2Proof Sys2Proof.Machine Sys2Proof.Laws

/-! ## A record under a kind -/

/-- The bytes of a record beside byte 0 do not depend on its kind. -/
theorem recNat_withKind {kind k : Nat} (n : Nat) (hkind : kind < 256) (hk : 1 ≤ k) (r : Rec) :
    recNat (withKind kind r) k n = recNat r k n := by
  unfold recNat withKind
  congr 1
  apply BitVec.eq_of_getLsbD_eq
  intro i hi
  have hbit : kind.testBit (8 * k + i) = false := Nat.testBit_lt_two_pow (hkind.trans_le
    (Nat.pow_le_pow_right (by omega : 2 > 0) (by omega : 8 ≤ 8 * k + i)))
  have h8 : ¬8 * k + i < 8 := by omega
  have hback : 8 + (8 * k + i - 8) = 8 * k + i := by omega
  by_cases h : 8 * k + i < 512
  · simp [← BitVec.getLsbD_eq_getElem, BitVec.getLsbD_ofNat, hi, hbit, h, h8, hback]
  · simp [hi, Nat.le_of_not_lt h]

/-- The kind of a record under a kind. -/
theorem engKind_withKind {kind : Nat} (hkind : kind < 256) (r : Rec) : engKind (withKind kind r) = kind := by
  have hbyte : (withKind kind r).extractLsb' (8 * 0) (8 * 1) = BitVec.ofNat 8 kind := by
    apply BitVec.eq_of_getLsbD_eq
    intro i hi
    have h : i < 512 := by omega
    have hi8 : i < 8 := by omega
    simp [withKind, ← BitVec.getLsbD_eq_getElem, BitVec.getLsbD_ofNat, h, hi8]
  unfold engKind recNat
  rw [hbyte, BitVec.toNat_ofNat]
  exact Nat.mod_eq_of_lt hkind

/-- Byte 1 is the handle of a record of another kind than XSTRIPE and REPROJ. -/
theorem engHnd_withKind {kind : Nat} (hkind : kind < 256) (hs : kind ≠ 0x21) (hr : kind ≠ 0x50) (r : Rec) :
    engHnd (withKind kind r) = recNat (withKind kind r) 1 1 := by
  unfold engHnd
  rw [engKind_withKind hkind, if_neg (by tauto)]

/-! ## What a push does, by its checks -/

section
variable {h : Nat} {full : Bool} {q : QueueId} {accept : State → State} {s : State}

theorem pushTail_taken (hst : (hGet s h).st ≠ .free) :
    pushTail h full q accept s = .next (takeTrap cSchedule (BitVec.ofNat 64 h) s) := if_pos hst

theorem pushTail_full (hst : (hGet s h).st = .free) (hq : full = true) :
    pushTail h full q accept s = .next (setRes .parked (onCur (fun c => { c with st := .parked (.queue q) }) s)) := by
  unfold pushTail
  rw [if_neg (by simp [hst]), if_pos hq]
  rfl

theorem pushTail_accepted (hst : (hGet s h).st = .free) (hq : full = false) :
    pushTail h full q accept s = .next (advance (accept s)) := by
  unfold pushTail
  rw [if_neg (by simp [hst]), if_neg (by simp [hq])]
  rfl

end

theorem lowest_of_some_true (l : List (Bool × Nat)) (m : Nat) :
    (l.foldl (fun m e => if e.1 then (match m with | none => some e.2 | some k => some (Nat.min k e.2)) else m)
      (some m)).isSome := by
  induction l generalizing m with
  | nil => rfl
  | cons e l ih =>
    rw [List.foldl_cons]
    cases e.1
    · exact ih m
    · exact ih _

/-- None of the errors of a record that has none is true. -/
theorem false_of_lowest_none {l : List (Bool × Nat)} (h : lowest l = none) : ∀ e ∈ l, e.1 = false := by
  unfold lowest at h
  induction l with
  | nil => exact fun e he => absurd he List.not_mem_nil
  | cons x l ih =>
    rw [List.foldl_cons] at h
    cases hx : x.1 with
    | true =>
      rw [hx] at h
      have hsome := lowest_of_some_true l x.2
      exact absurd h (Option.isSome_iff_ne_none.mp hsome)
    | false =>
      rw [hx] at h
      intro e he
      rcases List.mem_cons.mp he with rfl | he
      · exact hx
      · exact ih h e he

/-! ## The handle of an accepted command -/

theorem hGet_hTake (s : State) (h owner expected : Nat) :
    hGet (hTake h owner expected s) h = hTaken owner expected (hGet s h) := hGet_hSet_same _ _ _

/-! ## The transfer queue -/

/-- An accepted transfer command: its handle taken, and the command at the end of the queue. -/
theorem transferAccept_spec (expected : Nat) (r src dst : Rec) (s : State) :
    (transferAccept expected r src dst s).mem = s.mem ∧ (transferAccept expected r src dst s).me.pool = s.me.pool ∧
    hGet (transferAccept expected r src dst s) (engHnd r % 64) = hTaken 16 expected (hGet s (engHnd r % 64)) ∧
    (transferAccept expected r src dst s).me.xq = s.me.xq ++ [newCmd r src dst s] :=
  ⟨rfl, rfl, hGet_hTake s _ 16 expected, rfl⟩

section
variable {o : Out State} {r src dst : Rec} {bad : Option Nat} {expected h : Nat} {s : State}

/-- A push to the transfer queue by its record's checks. -/
theorem transferPush (hh : engHnd r = h)
    (ho : o = pushChecked bad s fun s =>
      pushTail (engHnd r) (transferFull s) .transfer (transferAccept expected r src dst) s) :
    (bad = none → h < 64 → (hGet s h).st = .free → s.me.xq.length < 8 → Gives o fun t =>
      t.iss.res = .retired ∧ t.mem = s.mem ∧ t.me.pool = s.me.pool ∧ hGet t h = hTaken 16 expected (hGet s h) ∧
      ∃ c : EngCmd, t.me.xq = s.me.xq ++ [c] ∧ c.recd = r ∧ c.core = s.me.num ∧ c.slot = s.iss.slot ∧ c.done = 0 ∧
        c.table = tableOf s) ∧
    (∀ off, bad = some off → o = .next (takeTrap cCmdReserved (BitVec.ofNat 64 off) s)) ∧
    (bad = none → h < 64 → (hGet s h).st ≠ .free → o = .next (takeTrap cSchedule (BitVec.ofNat 64 h) s)) ∧
    (bad = none → h < 64 → (hGet s h).st = .free → 8 ≤ s.me.xq.length →
      o = .next (setRes .parked (onCur (fun c => { c with st := .parked (.queue .transfer) }) s))) := by
  subst hh ho
  refine ⟨?_, ?_, ?_, ?_⟩
  · rintro rfl hlt hst hq
    obtain ⟨hmem, hpool, hhnd, hxq⟩ := transferAccept_spec expected r src dst s
    rw [Nat.mod_eq_of_lt hlt] at hhnd
    exact ⟨_, pushTail_accepted hst (by simpa [transferFull] using hq), rfl, hmem, hpool, hhnd, _, hxq, rfl, rfl, rfl, rfl, rfl⟩
  · rintro off rfl
    rfl
  · rintro rfl - hst
    exact pushTail_taken hst
  · rintro rfl - hst hq
    exact pushTail_full hst (by simpa [transferFull] using hq)

end

section
variable {r : Rec} {s : State} (hr : Ready ⟨[], []⟩ s)
include hr

theorem exec_xcopy : exec (.xcopy r) s = pushCopy (withKind 0x20 r) s :=
  outcome_of_ready (rfl : execXcopy r s = _) hr (by rw [pushTransfer, engKind_withKind (by omega)]; rfl)

theorem exec_xfill : exec (.xfill r) s = pushCopy (withKind 0x23 r) s :=
  outcome_of_ready (rfl : execXfill r s = _) hr (by rw [pushTransfer, engKind_withKind (by omega)]; rfl)

theorem exec_xscan : exec (.xscan r) s = pushScan (withKind 0x22 r) s :=
  outcome_of_ready (rfl : execXscan r s = _) hr (by rw [pushTransfer, engKind_withKind (by omega)]; rfl)

theorem exec_xstripe : exec (.xstripe r) s = pushStripe (withKind 0x21 r) s :=
  outcome_of_ready (rfl : execXstripe r s = _) hr (by rw [pushTransfer, engKind_withKind (by omega)]; rfl)

theorem exec_layoutEntryWrite (n : BitVec 6) : exec (.layoutEntryWrite n r) s = layoutWrite n.toNat r s :=
  outcome_of_ready (rfl : execLayoutEntryWrite n r s = _) hr rfl

end

/-- XCOPY and XFILL, whose records count the sectors that they name. -/
theorem pushCopy_eq {kind : Nat} (hkind : kind < 256) (r : Rec) (s : State) :
    pushCopy (withKind kind r) s =
      pushChecked (copyBad (withKind kind r) (layoutAt s (recNat (withKind kind r) 2 1 % 64))
        (layoutAt s (recNat (withKind kind r) 3 1 % 64))) s fun u =>
        pushTail (engHnd (withKind kind r)) (transferFull u) .transfer
          (transferAccept (recNat r 60 4) (withKind kind r) (layoutAt s (recNat (withKind kind r) 2 1 % 64))
            (layoutAt s (recNat (withKind kind r) 3 1 % 64))) u := by
  rw [← recNat_withKind 4 hkind (by omega : 1 ≤ 60) r]
  rfl

/-! ## XSTRIPE (R208 to R210) -/

/-- Byte k of a word. -/
theorem byte_of_word (w : Word) (k : Nat) : BitVec.ofNat 8 (w.toNat / 256 ^ k) = w.extractLsb' (8 * k) 8 := by
  refine BitVec.eq_of_getLsbD_eq fun j hj => ?_
  rw [getLsbD_byte _ _ _ hj, BitVec.getLsbD_extractLsb', decide_eq_true hj, Bool.true_and, BitVec.getLsbD]

/-- The state that the taking of new frames leaves: firmware's frames and the count of the free ones move. -/
theorem takeFrame_frame (t : Tr) (place : Word) (s : State) : (takeFrame t place s).2 =
    { s with fw := (takeFrame t place s).2.fw, freeUsed := (takeFrame t place s).2.freeUsed } := by
  unfold takeFrame
  split <;> rfl

/-- New frames do not depend on the TLB. -/
theorem takeFrame_dtlb (t : Tr) (place : Word) (tlb : List TlbEntry) (s : State) :
    (takeFrame t place { s with me := { s.me with dtlb := tlb } }).1 = (takeFrame t place s).1 := by
  have hfits : frameFits { s with me := { s.me with dtlb := tlb } } = frameFits s := rfl
  cases hf : s.fw.frames with
  | cons f fs => simp only [takeFrame, hf]
  | nil => simp only [takeFrame, hf, hfits]

/-- A leaf's home depends on memory only. -/
theorem leafFrom_congr {s u : State} (h : u.mem = s.mem) (va table : Nat) (ls : List (Nat × Nat × Bool × Nat)) :
    leafFrom u va table ls = leafFrom s va table ls := by
  have hmem : ∀ a, word64At u a = word64At s a := fun a => by unfold word64At memAt; rw [h]
  induction ls generalizing table with
  | nil => rfl
  | cons l ls ih =>
    obtain ⟨lo, n, b, k⟩ := l
    simp only [leafFrom, hmem, ih]

/-- The two leaf words of a page's new placement. -/
def leafBytes (w0 place : Word) : List Byte := leBytes 8 w0.toNat ++ leBytes 8 place.toNat

theorem length_leafBytes (w0 place : Word) : (leafBytes w0 place).length = 16 := by
  simp [leafBytes, length_leBytes]

theorem getElem?_leafBytes {k : Nat} (hk : k < 8) (w0 place : Word) :
    (leafBytes w0 place)[k]? = some (w0.extractLsb' (8 * k) 8) ∧
    (leafBytes w0 place)[8 + k]? = some (place.extractLsb' (8 * k) 8) := by
  unfold leafBytes
  constructor
  · rw [List.getElem?_append_left (by rw [length_leBytes]; exact hk), getElem?_leBytes hk, byte_of_word]
  · rw [List.getElem?_append_right (by rw [length_leBytes]; omega), length_leBytes, Nat.add_sub_cancel_left,
      getElem?_leBytes hk, byte_of_word]

/-- The re-striping that a push begins. -/
def stripeBegun (t : Tr) (place w0 : Word) (s : State) : Restripe :=
  ⟨t.vbase, t.size, t.w0, t.w1, w0, place, 0, s.me.num, false, false⟩

/-- Both leaf words written, the re-striping begun, and the command accepted. -/
theorem stripeAccept_spec (t : Tr) (r : Rec) (s : State) (hva : stripeVa r = t.vbase) :
    let leaf := leafFrom s t.vbase s.ctx.root walkLevels
    let w0 := (takeFrame t (stripePlace r) s).1
    let u := stripeAccept t r s
    hGet u (engHnd r % 64) = hTaken 16 (t.size / 32) (hGet s (engHnd r % 64)) ∧
    (∀ k < 8, memAt u (leaf + k) = w0.extractLsb' (8 * k) 8 ∧
      memAt u (leaf + 8 + k) = (stripePlace r).extractLsb' (8 * k) 8) ∧
    (∀ a, a < leaf ∨ leaf + 16 ≤ a → memAt u a = memAt s a) ∧
    (∃ c : EngCmd, u.me.xq = s.me.xq ++ [c] ∧ c.recd = r ∧ c.done = 0) ∧
    u.restripes = s.restripes ++ [stripeBegun t (stripePlace r) w0 s] := by
  intro leaf w0 u
  obtain ⟨fw, used, htake⟩ : ∃ fw used, (takeFrame t (stripePlace r) s).2 = { s with fw := fw, freeUsed := used } :=
    ⟨_, _, takeFrame_frame t (stripePlace r) s⟩
  have hleaf : leafFrom (takeFrame t (stripePlace r) s).2 (stripeVa r) (takeFrame t (stripePlace r) s).2.ctx.root walkLevels =
      leaf := by
    rw [htake, hva]
    exact leafFrom_congr rfl _ _ _
  obtain ⟨v, hv⟩ : ∃ v, v = writeBytes ⟨s.me.num, 15, 2⟩ (blockWrites leaf (leafBytes w0 (stripePlace r)))
    { s with fw := fw, freeUsed := used } := ⟨_, rfl⟩
  have hu : u = transferAccept (t.size / 32) r 0 0
      { v with restripes := v.restripes ++ [stripeBegun t (stripePlace r) w0 v] } := by
    simp only [u, stripeAccept, hleaf]
    rw [htake, hv]
    rfl
  obtain ⟨hin, hout⟩ := memAt_blockWrites ⟨s.me.num, 15, 2⟩ leaf (leafBytes w0 (stripePlace r)) { s with fw := fw, freeUsed := used }
  rw [← hv, length_leafBytes] at hin hout
  have hframe := writeBytes_frame ⟨s.me.num, 15, 2⟩ (blockWrites leaf (leafBytes w0 (stripePlace r)))
    { s with fw := fw, freeUsed := used }
  rw [← hv] at hframe
  have hmem : ∀ a, memAt u a = memAt v a := fun a => by rw [hu]; rfl
  have hhandles : v.me.handles = s.me.handles := by rw [hframe]
  have hxq : v.me.xq = s.me.xq := by rw [hframe]
  have hnum : v.me.num = s.me.num := by rw [hframe]
  have hrestripes : v.restripes = s.restripes := by rw [hframe]
  refine ⟨?_, fun k hk => ⟨?_, ?_⟩, fun a ha => ?_, ?_, ?_⟩
  · rw [hu]
    refine (hGet_hTake _ _ 16 _).trans ?_
    unfold hGet
    rw [← hhandles] <;> rfl
  · rw [hmem, hin k (by omega), (getElem?_leafBytes hk _ _).1]
    rfl
  · rw [hmem, Nat.add_assoc, hin (8 + k) (by omega), (getElem?_leafBytes hk _ _).2]
    rfl
  · rw [hmem, hout a ha]
    rfl
  · rw [hu, ← hxq]
    exact ⟨_, rfl, rfl, rfl⟩
  · rw [hu, ← hrestripes]
    unfold stripeBegun
    rw [← hnum]
    rfl

/-- The handle of an XSTRIPE that breaks no rule is one of the 64. -/
theorem stripeHnd_lt {r : Rec} (h : stripeBad r = none) : recNat r 6 1 < 64 := by
  unfold stripeBad at h
  have hlow := (Option.or_eq_none_iff.mp (Option.orElse_eq_or.symm.trans h)).1
  have := false_of_lowest_none hlow (decide (64 ≤ recNat r 6 1), 6) (by simp)
  simpa using this

/-- A push of XSTRIPE that passes every check of R209. -/
theorem pushStripe_accepted {t : Tr} {r : Rec} {s : State} (hbad : stripeBad r = none)
    (htlb : tlbFind s.me.dtlb s.iss.slot (stripeVa r) = some t)
    (hforbid : pageForbids (cur s).prv (myCluster s) .write t = false) (hva : stripeVa r = t.vbase)
    (hplace : placeBad s (leafNow s t) (stripePlace r) = false) (hother : ∀ x ∈ s.restripes, x.vbase ≠ t.vbase)
    (hst : (hGet s (engHnd r)).st = .free) (hq : s.me.xq.length < 8) :
    pushStripe r s = .next (advance (stripeAccept t r
      { s with me := { s.me with dtlb := touchTlb s.iss.slot [t] s.me.dtlb } })) := by
  have hany : (s.restripes.any fun x => x.vbase == stripeVa r) = false := by
    simpa [hva] using hother
  unfold pushStripe
  simp only [hbad, pushChecked, htlb]
  rw [if_neg (by rw [Bool.not_eq_true]; exact hforbid), if_neg (by simp [hva]),
    if_neg (by rw [Bool.not_eq_true]; exact hplace), if_neg (by rw [hany]; simp)]
  exact pushTail_accepted hst (by simpa [transferFull] using hq)

/-! ## The layout entries (R279) -/

/-- An entry that breaks no rule is written, and one that breaks a field's rule is refused with its offset. -/
theorem layoutWrite_spec (n : Nat) (r : Rec) (s : State) :
    (layoutBad r = none → layoutMisfit r = none →
      layoutWrite n r s = .next (advance { s with me := { s.me with layouts := spSet 0 s.me.layouts n r } })) ∧
    (∀ o, layoutBad r = some o → layoutWrite n r s = .next (takeTrap cCmdReserved (BitVec.ofNat 64 o) s)) := by
  unfold layoutWrite
  refine ⟨fun hbad hfit => ?_, fun o hbad => ?_⟩
  · rw [hbad, hfit]
    rfl
  · rw [hbad]
    rfl

/-- XSCAN counts the sectors that it finds, and takes its handle for the most there can be. -/
theorem pushScan_eq {expected : Nat} (he : expected = 2 ^ 28 - 1) (r : Rec) (s : State) :
    pushScan r s = pushChecked (scanBad r) s fun s =>
      pushTail (engHnd r) (transferFull s) .transfer (transferAccept expected r 0 0) s := by
  rw [he]
  rfl

/-- Settles O39: a push's outcome follows from its checks, and what acceptance leaves from the commands' own rules. -/
theorem transferPushes : Obligations.TransferPushes := by
  intro r s hr
  refine ⟨?_, ?_, ?_, ?_, ?_⟩
  · exact transferPush (engHnd_withKind (by omega) (by omega) (by omega) r)
      ((exec_xcopy hr).trans (pushCopy_eq (by omega) r s))
  · exact transferPush (engHnd_withKind (by omega) (by omega) (by omega) r)
      ((exec_xfill hr).trans (pushCopy_eq (by omega) r s))
  · generalize he : 2 ^ 28 - 1 = expected
    exact transferPush (engHnd_withKind (by omega) (by omega) (by omega) r)
      ((exec_xscan hr).trans (pushScan_eq he.symm _ s))
  · intro t r' h hbad htlb hforbid hva hplace hother hst hq
    have hhnd : engHnd r' = h := by
      unfold engHnd
      rw [engKind_withKind (by omega), if_pos (Or.inl rfl)]
    have hmod : engHnd r' % 64 = h := by rw [hhnd]; exact Nat.mod_eq_of_lt (stripeHnd_lt hbad)
    have hgo := (exec_xstripe hr).trans
      (pushStripe_accepted hbad htlb hforbid hva hplace hother (by rw [hhnd]; exact hst) hq)
    have hframe := takeFrame_dtlb t (stripePlace r') (touchTlb s.iss.slot [t] s.me.dtlb) s
    obtain ⟨w, hw⟩ : ∃ w, w = { s with me := { s.me with dtlb := touchTlb s.iss.slot [t] s.me.dtlb } } := ⟨_, rfl⟩
    rw [← hw] at hgo hframe
    have hleafs : leafFrom w t.vbase w.ctx.root walkLevels = leafFrom s t.vbase s.ctx.root walkLevels := by
      rw [hw]
      exact leafFrom_congr rfl _ _ _
    have hhandle : hGet w h = hGet s h := by rw [hw]; rfl
    have hbytes : ∀ a, memAt w a = memAt s a := fun a => by rw [hw]; rfl
    have hqueue : w.me.xq = s.me.xq := by rw [hw]
    have hstripes : w.restripes = s.restripes := by rw [hw]
    obtain ⟨hhand, hleaf, hout, hxq, hrest⟩ := stripeAccept_spec t r' w hva
    generalize stripeAccept t r' w = v at *
    rw [hframe] at hleaf hrest
    rw [hmod, hhandle] at hhand
    rw [hleafs] at hleaf hout
    rw [hqueue] at hxq
    rw [hstripes] at hrest
    refine ⟨_, hgo, rfl, hhand, hleaf, fun a ha => (hout a ha).trans (hbytes a), hxq, _, hrest, rfl, rfl, rfl, rfl, rfl, rfl, rfl,
      rfl, rfl⟩
  · intro n
    rw [exec_layoutEntryWrite hr]
    exact layoutWrite_spec n.toNat r s

/-! ## The matrix queue -/

/-- What an issue and a change of the power state keep. -/
structure SameQueue (s u : State) : Prop where
  mem : u.mem = s.mem
  pool : u.me.pool = s.me.pool
  handles : u.me.handles = s.me.handles
  mq : u.me.mq = s.me.mq

theorem SameQueue.trans {s u v : State} (h : SameQueue s u) (g : SameQueue u v) : SameQueue s v :=
  ⟨g.mem.trans h.mem, g.pool.trans h.pool, g.handles.trans h.handles, g.mq.trans h.mq⟩

theorem sameQueue_refl (s : State) : SameQueue s s := ⟨rfl, rfl, rfl, rfl⟩

theorem sameQueue_kindleFor (n : Nat) (s : State) : SameQueue s (kindleFor n s) := ⟨rfl, rfl, rfl, rfl⟩

theorem sameQueue_headKindles (s : State) : SameQueue s (headKindles s) := by
  unfold headKindles
  split
  · split
    · exact sameQueue_kindleFor 64 s
    · exact sameQueue_refl s
  · exact sameQueue_refl s

theorem sameQueue_mxTryIssue (s : State) : SameQueue s (mxTryIssue s) := by
  rw [mxTryIssue_frame]
  exact ⟨rfl, rfl, rfl, rfl⟩

/-- An accepted matrix command: its handle taken, and the command at the end of the queue. -/
theorem mxAccept_spec (r : Rec) (s : State) :
    (mxAccept r s).mem = s.mem ∧ (mxAccept r s).me.pool = s.me.pool ∧
    hGet (mxAccept r s) (engHnd r % 64) = hTaken 17 (mxExpected r) (hGet s (engHnd r % 64)) ∧
    (mxAccept r s).me.mq = s.me.mq ++ [{ newCmd r 0 0 s with ready := s.clock }] := by
  obtain ⟨v, hv⟩ : ∃ v, v = hTake (engHnd r % 64) 17 (mxExpected r)
    { s with me := { s.me with mq := s.me.mq ++ [{ newCmd r 0 0 s with ready := s.clock }] } } := ⟨_, rfl⟩
  have hkeep : SameQueue v (mxAccept r s) := by
    unfold mxAccept
    rw [hv]
    refine SameQueue.trans ?_ ((sameQueue_headKindles _).trans (sameQueue_mxTryIssue _))
    split
    · split
      · exact sameQueue_kindleFor _ _
      · exact sameQueue_refl _
    · exact sameQueue_refl _
  obtain ⟨hmem, hpool, hhandles, hmq⟩ := hkeep
  have hhand : hGet v (engHnd r % 64) = hTaken 17 (mxExpected r) (hGet s (engHnd r % 64)) := by
    rw [hv]
    exact hGet_hTake _ _ 17 _
  refine ⟨?_, ?_, ?_, ?_⟩
  · rw [hmem, hv]
    rfl
  · rw [hpool, hv]
    rfl
  · rw [← hhand]
    unfold hGet
    rw [hhandles]
  · rw [hmq, hv]
    rfl

/-- The handle of a record without an error in byte 1 is one of the 64. -/
theorem hnd_lt_of_lowest {r : Rec} {l : List (Bool × Nat)} (h : lowest l = none)
    (hl : (recNat r 1 1 / 64 != 0, 1) ∈ l) : recNat r 1 1 < 64 := by
  have := false_of_lowest_none h _ hl
  simp only [bne_eq_false_iff_eq] at this
  omega

section
variable {o : Out State} {r : Rec} {bad al : Option Nat} {h : Nat} {s : State}

/-- A push to the matrix queue by its record's checks. -/
theorem matrixPush (hh : engHnd r = h) (hlt : bad = none → h < 64)
    (ho : o = pushChecked bad s fun s => mxPushTail r al s) :
    (bad = none → al = none → (hGet s h).st = .free → s.me.mq.length < 16 → Gives o fun t =>
      t.iss.res = .retired ∧ t.mem = s.mem ∧ t.me.pool = s.me.pool ∧ hGet t h = hTaken 17 (mxExpected r) (hGet s h) ∧
      ∃ c : EngCmd, t.me.mq = s.me.mq ++ [c] ∧ c.recd = r ∧ c.core = s.me.num ∧ c.slot = s.iss.slot ∧ c.done = 0 ∧
        c.table = tableOf s) ∧
    (∀ off, bad = some off → o = .next (takeTrap cCmdReserved (BitVec.ofNat 64 off) s)) ∧
    (∀ off, bad = none → al = some off →
      o = .next (takeTrap cAlias (BitVec.ofNat 64 (Config.scratchWindow + off)) s)) ∧
    (bad = none → al = none → (hGet s h).st ≠ .free → o = .next (takeTrap cSchedule (BitVec.ofNat 64 h) s)) ∧
    (bad = none → al = none → (hGet s h).st = .free → 16 ≤ s.me.mq.length →
      o = .next (setRes .parked (onCur (fun c => { c with st := .parked (.queue .matrix) }) s))) := by
  subst ho
  have hmod : bad = none → engHnd r % 64 = h := fun hb => by rw [hh]; exact Nat.mod_eq_of_lt (hlt hb)
  refine ⟨?_, ?_, ?_, ?_, ?_⟩
  · rintro hb rfl hst hq
    obtain ⟨hmem, hpool, hhnd, hmq⟩ := mxAccept_spec r s
    rw [hmod hb] at hhnd
    subst hb
    have hgo : pushTail (engHnd r % 64) (decide (16 ≤ s.me.mq.length)) .matrix (mxAccept r) s =
        .next (advance (mxAccept r s)) := pushTail_accepted (by rw [hmod rfl]; exact hst) (by simpa using hq)
    generalize mxAccept r s = u at *
    exact ⟨_, hgo, rfl, hmem, hpool, hhnd, _, hmq, rfl, rfl, rfl, rfl, rfl⟩
  · rintro off rfl
    rfl
  · rintro off rfl rfl
    rfl
  · rintro hb rfl hst
    rw [← hmod hb] at hst ⊢
    subst hb
    exact pushTail_taken hst
  · rintro hb rfl hst hq
    rw [← hmod hb] at hst
    subst hb
    exact pushTail_full hst (by simpa using hq)

end

section
variable {r : Rec} {s : State} (hr : Ready ⟨[], []⟩ s)
include hr

theorem exec_mxmac : exec (.mxmac r) s = pushMac (withKind 0x10 r) s :=
  outcome_of_ready (rfl : execMxmac r s = _) hr (by rw [pushMatrix, engKind_withKind (by omega)]; rfl)

theorem exec_mxwld : exec (.mxwld r) s = pushWld (withKind 0x11 r) s :=
  outcome_of_ready (rfl : execMxwld r s = _) hr (by rw [pushMatrix, engKind_withKind (by omega)]; rfl)

theorem exec_mxepi : exec (.mxepi r) s = pushEpi (withKind 0x12 r) s :=
  outcome_of_ready (rfl : execMxepi r s = _) hr (by rw [pushMatrix, engKind_withKind (by omega)]; rfl)

theorem exec_mxzero : exec (.mxzero r) s = pushZero (withKind 0x13 r) s :=
  outcome_of_ready (rfl : execMxzero r s = _) hr (by rw [pushMatrix, engKind_withKind (by omega)]; rfl)

end

/-- MXEPI's ALIAS check uses the number of the pusher's core. -/
theorem pushEpi_eq (r : Rec) (s : State) :
    pushEpi r s = pushChecked (epiBad r) s fun u => mxPushTail r (epiAlias s.me.num r) u := by
  unfold pushEpi
  cases epiBad r <;> simp only [pushChecked]

theorem macHnd_lt {r : Rec} (h : macBad r = none) : recNat r 1 1 < 64 := by
  unfold macBad at h
  dsimp only at h
  exact hnd_lt_of_lowest h List.mem_cons_self

theorem wldHnd_lt {r : Rec} (h : wldBad r = none) : recNat r 1 1 < 64 := by
  unfold wldBad at h
  dsimp only at h
  exact hnd_lt_of_lowest h List.mem_cons_self

theorem epiHnd_lt {r : Rec} (h : epiBad r = none) : recNat r 1 1 < 64 := by
  unfold epiBad at h
  exact hnd_lt_of_lowest h (List.mem_append_right _ List.mem_cons_self)

theorem zeroHnd_lt {r : Rec} (h : zeroBad r = none) : recNat r 1 1 < 64 := by
  unfold zeroBad at h
  exact hnd_lt_of_lowest h (List.mem_cons_of_mem _ (List.mem_cons_of_mem _ List.mem_cons_self))

/-- Settles O41: a push to the matrix queue is decided by its record, its ALIAS check, its handle and the queue, and an
issue that acceptance sets off keeps memory, the handles and the queue. -/
theorem matrixPushes : Obligations.MatrixPushes := by
  intro r s hr
  have hhnd : ∀ kind, kind < 0x21 → engHnd (withKind kind r) = recNat (withKind kind r) 1 1 := fun kind hk =>
    engHnd_withKind (by omega) (by omega) (by omega) r
  exact ⟨matrixPush (hhnd _ (by omega)) macHnd_lt (exec_mxmac hr), matrixPush (hhnd _ (by omega)) wldHnd_lt (exec_mxwld hr),
    matrixPush (hhnd _ (by omega)) epiHnd_lt ((exec_mxepi hr).trans (pushEpi_eq _ s)), matrixPush (hhnd _ (by omega)) zeroHnd_lt (exec_mxzero hr)⟩

/-! ## The queues that a cluster or a die shares -/

theorem clusterAt_setCluster (k : Nat) (v : Cluster) (s : State) : clusterAt (setCluster k v s) k = v :=
  spGet_set_same _ _ _ _

theorem dieAt_setDie (d : Nat) (v : Die) (s : State) : dieAt (setDie d v s) d = v := spGet_set_same _ _ _ _

/-- What an accepted command leaves: its handle taken, and the command at the end of the queue. -/
structure Queued (r : Rec) (h owner expected : Nat) (q : State → List EngCmd) (s u : State) : Prop where
  mem : u.mem = s.mem
  pool : u.me.pool = s.me.pool
  handle : hGet u h = hTaken owner expected (hGet s h)
  queue : ∃ c : EngCmd, q u = q s ++ [c] ∧ c.recd = r ∧ c.core = s.me.num ∧ c.slot = s.iss.slot ∧ c.done = 0

theorem queued_sortAccept {r : Rec} {k expected : Nat} (s : State) (hk : myCluster s = k) (he : rtSectors r = expected) :
    Queued r (engHnd r % 64) 18 expected (fun s => (clusterAt s k).rq) s (sortAccept r s) := by
  subst hk he
  refine ⟨rfl, rfl, hGet_hTake (setCluster (myCluster s) _ s) _ 18 _, newCmd r 0 0 s, ?_, rfl, rfl, rfl, rfl⟩
  exact congrArg Cluster.rq (clusterAt_setCluster (myCluster s) _ s)

theorem queued_reprojAccept {r : Rec} {d expected : Nat} (s : State) (hd : myDie s = d)
    (he : (rpW r * rpH r + 3) / 4 = expected) :
    Queued r (engHnd r % 64) 20 expected (fun s => (dieAt s d).pq) s (reprojAccept r s) := by
  subst hd he
  refine ⟨rfl, rfl, hGet_hTake (setDie (myDie s) _ s) _ 20 _, newCmd r 0 0 s, ?_, rfl, rfl, rfl, rfl⟩
  exact congrArg Die.pq (dieAt_setDie (myDie s) _ s)

theorem queued_collAccept {r : Rec} {d : Nat} (s : State) (hd : myDie s = d) :
    Queued r (engHnd r % 64) 19 (clExpected r) (fun s => (dieAt s d).cq.map (·.cmd)) s (collAccept r s) := by
  subst hd
  refine ⟨rfl, rfl, hGet_hTake (setDie (myDie s) _ s) _ 19 _, newCmd r 0 0 s, ?_, rfl, rfl, rfl, rfl⟩
  refine (congrArg (fun v : Die => v.cq.map (·.cmd)) (dieAt_setDie (myDie s) _ s)).trans ?_
  exact List.map_append

section
variable {o : Out State} {r : Rec} {bad : Option Nat} {h owner expected : Nat} {q : State → List EngCmd} {id : QueueId}
  {full : State → Bool} {accept : State → State} {s : State}

/-- A push to a shared queue by its record's checks. -/
theorem sharedPush (ho : o = pushChecked bad s fun u => pushTail h (full u) id accept u)
    (hfull : full s = decide (8 ≤ (q s).length)) (hacc : Queued r h owner expected q s (accept s))
    (hadv : ∀ u, q (advance u) = q u) :
    (bad = none → (hGet s h).st = .free → (q s).length < 8 → Gives o fun t =>
      t.iss.res = .retired ∧ t.mem = s.mem ∧ t.me.pool = s.me.pool ∧ hGet t h = hTaken owner expected (hGet s h) ∧
      ∃ c : EngCmd, q t = q s ++ [c] ∧ c.recd = r ∧ c.core = s.me.num ∧ c.slot = s.iss.slot ∧ c.done = 0) ∧
    (∀ off, bad = some off → o = .next (takeTrap cCmdReserved (BitVec.ofNat 64 off) s)) ∧
    (bad = none → (hGet s h).st ≠ .free → o = .next (takeTrap cSchedule (BitVec.ofNat 64 h) s)) ∧
    (bad = none → (hGet s h).st = .free → 8 ≤ (q s).length →
      o = .next (setRes .parked (onCur (fun c => { c with st := .parked (.queue id) }) s))) := by
  subst ho
  refine ⟨?_, ?_, ?_, ?_⟩
  · rintro rfl hst hq
    have hgo : pushTail h (full s) id accept s = .next (advance (accept s)) :=
      pushTail_accepted hst (by rw [hfull]; simpa using hq)
    obtain ⟨hmem, hpool, hhnd, c, hqueue, hc⟩ := hacc
    exact ⟨_, hgo, rfl, hmem, hpool, hhnd, c, (hadv _).trans hqueue, hc⟩
  · rintro off rfl
    rfl
  · rintro rfl hst
    exact pushTail_taken hst
  · rintro rfl hst hq
    exact pushTail_full hst (by rw [hfull]; simpa using hq)

end

section
variable {r : Rec} {s : State} (hr : Ready ⟨[], []⟩ s)
include hr

theorem exec_rtsort : exec (.rtsort r) s = pushChecked (sortBad (withKind 0x30 r)) s fun u =>
    pushTail (engHnd (withKind 0x30 r) % 64) (decide (8 ≤ (clusterAt u (myCluster u)).rq.length)) .routing
      (sortAccept (withKind 0x30 r)) u :=
  outcome_of_ready (rfl : execRtsort r s = _) hr (by rw [pushSort, engKind_withKind (by omega), if_neg (by simp)])

theorem exec_reproj : exec (.reproj r) s = pushChecked (reprojBad (withKind 0x50 r)) s fun u =>
    pushTail (engHnd (withKind 0x50 r) % 64) (decide (8 ≤ (dieAt u (myDie u)).pq.length)) .reproj
      (reprojAccept (withKind 0x50 r)) u :=
  outcome_of_ready (rfl : execReproj r s = _) hr (by rw [pushReproj, engKind_withKind (by omega), if_neg (by simp)])

theorem exec_a2av : exec (.a2av r) s = collTail (a2avBad (withKind 0x40 r)) (withKind 0x40 r) s :=
  outcome_of_ready (rfl : execA2av r s = _) hr (by rw [pushCollective, engKind_withKind (by omega)]; rfl)

theorem exec_areduce : exec (.areduce r) s = collTail (foldBad (withKind 0x41 r)) (withKind 0x41 r) s :=
  outcome_of_ready (rfl : execAreduce r s = _) hr (by rw [pushCollective, engKind_withKind (by omega)]; rfl)

theorem exec_agather : exec (.agather r) s = collTail (foldBad (withKind 0x42 r)) (withKind 0x42 r) s :=
  outcome_of_ready (rfl : execAgather r s = _) hr (by rw [pushCollective, engKind_withKind (by omega)]; rfl)

theorem exec_rscatter : exec (.rscatter r) s = collTail (foldBad (withKind 0x43 r)) (withKind 0x43 r) s :=
  outcome_of_ready (rfl : execRscatter r s = _) hr (by rw [pushCollective, engKind_withKind (by omega)]; rfl)

end

/-- Bytes beside byte 0 of a routing record do not depend on its kind. -/
theorem rtSectors_withKind {kind : Nat} (hkind : kind < 256) (r : Rec) : rtSectors (withKind kind r) = rtSectors r := by
  unfold rtSectors rtPairs rtExperts
  rw [recNat_withKind 2 hkind (by omega), recNat_withKind 2 hkind (by omega)]

theorem rpSize_withKind {kind : Nat} (hkind : kind < 256) (r : Rec) :
    rpW (withKind kind r) * rpH (withKind kind r) = rpW r * rpH r := by
  unfold rpW rpH
  rw [recNat_withKind 2 hkind (by omega), recNat_withKind 2 hkind (by omega)]

/-- A push to the collective queue by its record's checks. -/
theorem collPush {o : Out State} {r : Rec} {bad : Option Nat} {s : State} (ho : o = collTail bad r s) :
    (bad = none → (hGet s (engHnd r % 64)).st = .free → ((dieAt s (s.me.num / 384)).cq.map (·.cmd)).length < 8 → Gives o fun t =>
      t.iss.res = .retired ∧ t.mem = s.mem ∧ t.me.pool = s.me.pool ∧
      hGet t (engHnd r % 64) = hTaken 19 (clExpected r) (hGet s (engHnd r % 64)) ∧
      ∃ c : EngCmd, (dieAt t (s.me.num / 384)).cq.map (·.cmd) = (dieAt s (s.me.num / 384)).cq.map (·.cmd) ++ [c] ∧
        c.recd = r ∧ c.core = s.me.num ∧ c.slot = s.iss.slot ∧ c.done = 0) ∧
    (∀ off, bad = some off → o = .next (takeTrap cCmdReserved (BitVec.ofNat 64 off) s)) ∧
    (bad = none → (hGet s (engHnd r % 64)).st ≠ .free →
      o = .next (takeTrap cSchedule (BitVec.ofNat 64 (engHnd r % 64)) s)) ∧
    (bad = none → (hGet s (engHnd r % 64)).st = .free → 8 ≤ ((dieAt s (s.me.num / 384)).cq.map (·.cmd)).length →
      o = .next (setRes .parked (onCur (fun c => { c with st := .parked (.queue .collective) }) s))) :=
  sharedPush (q := fun s' => (dieAt s' (s.me.num / 384)).cq.map (·.cmd)) ho
    (by rw [List.length_map]; rfl) (queued_collAccept s rfl) fun _ => rfl

/-- Settles O43: a push to a shared queue is decided by its record, its handle and the queue of its cluster or die. -/
theorem sharedQueuePushes : Obligations.SharedQueuePushes := by
  intro r s hr
  refine ⟨?_, ?_, ?_, ?_, ?_, ?_⟩
  · exact sharedPush (exec_rtsort hr) rfl (queued_sortAccept s rfl (rtSectors_withKind (by omega) r)) fun _ => rfl
  · exact sharedPush (exec_reproj hr) rfl
      (queued_reprojAccept s rfl (by rw [rpSize_withKind (by omega)])) fun _ => rfl
  · exact collPush (exec_a2av hr)
  · exact collPush (exec_areduce hr)
  · exact collPush (exec_agather hr)
  · exact collPush (exec_rscatter hr)

end Sys2Proof.Proofs
end

section
/-!
SUPPORT. The steps of the transfer engine (R210 to R212, R281 to R286).
-/

namespace Sys2Proof.Proofs

open Sys2Proof Sys2Proof.Machine Sys2Proof.Laws

/-! ## Lists of writes of bits -/

theorem nodup_eraseDups (l : List Nat) : l.eraseDups.Nodup := by
  induction hn : l.length using Nat.strong_induction_on generalizing l with
  | _ n ih =>
    cases l with
    | nil => simp
    | cons a l =>
      rw [List.eraseDups_cons, List.nodup_cons]
      refine ⟨by simp [List.mem_eraseDups], ih _ ?_ _ rfl⟩
      have := List.length_filter_le (fun b => !b == a) l
      rw [List.length_cons] at hn
      omega

/-- The last write of an address is what it holds. -/
theorem overlaid_append (s : State) (l : List (Nat × Byte)) (h a : Nat) (v : Byte) :
    overlaid s (l ++ [(h, v)]) a = if h = a then v else overlaid s l a := by
  unfold overlaid
  rw [List.reverse_append, List.reverse_singleton, List.singleton_append, List.find?_cons]
  by_cases he : h = a
  · simp [he]
  · rw [if_neg he, (beq_eq_false_iff_ne.mpr he : (h == a) = false)]

theorem spSetAll_append (m : Sp Byte) (l l' : List (Nat × Byte)) : spSetAll 0 m (l ++ l') = spSetAll 0 (spSetAll 0 m l) l' := by
  induction l generalizing m with
  | nil => rfl
  | cons e l ih =>
    obtain ⟨k, v⟩ := e
    exact ih _

/-- The bytes of a list of writes, read back. -/
theorem spGet_setAll_overlaid (s : State) (l : List (Nat × Byte)) (a : Nat) :
    spGet 0 (spSetAll 0 s.mem l) a = if a ∈ l.map (·.1) then overlaid s l a else memAt s a := by
  induction l using List.reverseRecOn with
  | nil => rfl
  | append_singleton l e ih =>
    obtain ⟨h, v⟩ := e
    have hin : a ∈ (l ++ [(h, v)]).map (·.1) ↔ a ∈ l.map (·.1) ∨ a = h := by simp
    simp only [overlaid_append, spSetAll_append, hin]
    by_cases he : h = a
    · subst he
      rw [if_pos (Or.inr rfl), if_pos rfl]
      exact spGet_set_same _ _ _ _
    · refine (spGet_set_other _ _ _ _ _ (Ne.symm he)).trans (ih.trans ?_)
      simp only [he, Ne.symm he, or_false, if_false]

theorem homes_mergeBits (s : State) (ps : List BitsPut) (l : List (Nat × Byte)) :
    (mergeBits s ps l).map (·.1) = l.map (·.1) ++ ps.map (·.1) := by
  induction ps generalizing l with
  | nil => exact (List.append_nil _).symm
  | cons p ps ih =>
    obtain ⟨h, m, b⟩ := p
    rw [mergeBits, ih, List.map_append, List.append_assoc]
    rfl

/-- What writes of bits make of the byte at an address. -/
def bitsAt (a : Nat) (b : Byte) (ps : List BitsPut) : Byte :=
  (ps.filter fun p => p.1 == a).foldl (fun b p => masked b p.2.1 p.2.2) b

theorem overlaid_mergeBits (s : State) (ps : List BitsPut) (l : List (Nat × Byte)) (a : Nat) :
    overlaid s (mergeBits s ps l) a = bitsAt a (overlaid s l a) ps := by
  induction ps generalizing l with
  | nil => rfl
  | cons p ps ih =>
    obtain ⟨h, m, b⟩ := p
    rw [mergeBits, ih, overlaid_append]
    unfold bitsAt
    by_cases he : h = a
    · simp [he]
    · simp [he]

/-- The writes of a list, atom by atom. -/
def byAtoms (ps : List BitsPut) : List BitsPut :=
  (atomsOf (ps.map (·.1))).flatMap fun k => ps.filter fun p => p.1 / 32 == k

theorem flatMap_only {α : Type} {l : List Nat} (hl : l.Nodup) (f : Nat → List α) (k : Nat) (hf : ∀ j ∈ l, j ≠ k → f j = [])
    (hk : k ∉ l → f k = []) : l.flatMap f = f k := by
  induction l with
  | nil => exact (hk List.not_mem_nil).symm
  | cons x l ih =>
    rw [List.nodup_cons] at hl
    rw [List.flatMap_cons]
    by_cases hx : x = k
    · subst hx
      have hnil : l.flatMap f = [] := List.flatMap_eq_nil_iff.mpr fun j hj =>
        hf j (List.mem_cons_of_mem _ hj) fun he => hl.1 (he ▸ hj)
      rw [hnil, List.append_nil]
    · rw [hf x List.mem_cons_self hx, List.nil_append]
      exact ih hl.2 (fun j hj => hf j (List.mem_cons_of_mem _ hj)) fun hn =>
        hk fun hm => (List.mem_cons.mp hm).elim (fun he => hx he.symm) hn

/-- Writes of one address keep their order when the list is taken atom by atom. -/
theorem filter_byAtoms (ps : List BitsPut) (a : Nat) :
    (byAtoms ps).filter (fun p => p.1 == a) = ps.filter fun p => p.1 == a := by
  unfold byAtoms
  rw [List.filter_flatMap]
  have hin : ∀ k, ((ps.filter fun p => p.1 / 32 == k).filter fun p => p.1 == a) =
      if k = a / 32 then ps.filter (fun p => p.1 == a) else [] := by
    intro k
    rw [List.filter_filter]
    split
    · next hk =>
      refine List.filter_congr fun p _ => ?_
      by_cases hp : p.1 = a <;> simp [hp, hk]
    · next hk =>
      refine List.filter_eq_nil_iff.mpr fun p _ => ?_
      simp only [Bool.and_eq_true, beq_iff_eq, not_and]
      rintro rfl
      exact fun h => hk h.symm
  simp only [hin]
  refine (flatMap_only (nodup_eraseDups _) _ (a / 32) (fun j _ hj => if_neg hj) ?_).trans (if_pos rfl)
  intro hnot
  rw [if_pos rfl, List.filter_eq_nil_iff]
  intro p hp
  simp only [beq_iff_eq]
  rintro rfl
  exact hnot (List.mem_eraseDups.mpr (List.mem_map_of_mem (List.mem_map_of_mem hp)))

theorem mem_homes_byAtoms (ps : List BitsPut) (a : Nat) : a ∈ (byAtoms ps).map (·.1) ↔ a ∈ ps.map (·.1) := by
  have hiff : ∀ qs : List BitsPut, a ∈ qs.map (·.1) ↔ qs.filter (fun p => p.1 == a) ≠ [] := by
    intro qs
    simp [List.filter_eq_nil_iff]
  rw [hiff, hiff, filter_byAtoms]

/-- Memory after a list of writes of bits does not depend on the order of its atoms. -/
theorem memAt_byAtoms (s : State) (ps : List BitsPut) (a : Nat) :
    spGet 0 (spSetAll 0 s.mem (mergeBits s (byAtoms ps) [])) a = spGet 0 (spSetAll 0 s.mem (mergeBits s ps [])) a := by
  rw [spGet_setAll_overlaid, spGet_setAll_overlaid, overlaid_mergeBits, overlaid_mergeBits, homes_mergeBits,
    homes_mergeBits, bitsAt, bitsAt, filter_byAtoms]
  simp only [List.map_nil, List.nil_append, mem_homes_byAtoms]

/-! ## What an engine's counting, messages and ends keep -/

/-- An engine has counted at a handle, sent its pusher a message, or freed a place in a queue. -/
structure Told (s u : State) : Prop where
  frame : u = { s with
    me := { s.me with
      slots := u.me.slots, handles := u.me.handles, mbox := u.me.mbox, drops := u.me.drops, devWait := u.me.devWait },
    others := u.others, dies := u.dies }

theorem Told.refl (s : State) : Told s s := ⟨rfl⟩

theorem Told.trans {s u v : State} (h : Told s u) (g : Told u v) : Told s v := by
  constructor
  rw [g.frame, h.frame]

section
variable {s u : State} (h : Told s u)
include h

theorem Told.mem : u.mem = s.mem := by rw [h.frame]
theorem Told.pool : u.me.pool = s.me.pool := by rw [h.frame]
theorem Told.xq : u.me.xq = s.me.xq := by rw [h.frame]
theorem Told.clock : u.clock = s.clock := by rw [h.frame]
theorem Told.restripes : u.restripes = s.restripes := by rw [h.frame]
theorem Told.fw : u.fw = s.fw := by rw [h.frame]
theorem Told.memAt (a : Nat) : Machine.memAt u a = Machine.memAt s a := by
  unfold Machine.memAt
  rw [h.mem]

end

theorem told_hSet (k : Nat) (v : Handle) (s : State) : Told s (hSet k v s) := ⟨rfl⟩
theorem told_hPut (k : Nat) (v : Handle) (s : State) : Told s (hPut k v s) := ⟨rfl⟩

theorem told_hCount (k n : Nat) (s : State) : Told s (hCount k n s) := by
  unfold hCount
  dsimp only
  split
  · exact told_hSet _ _ _
  split
  · exact Told.refl s
  · exact told_hPut _ _ _

theorem told_engCount (c : EngCmd) (n : Nat) (s : State) : Told s (engCount c n s) := by
  unfold engCount
  split
  · exact told_hCount _ _ _
  · exact Told.refl s

theorem told_engFull (c : EngCmd) (n : Nat) (s : State) : Told s (engFull c n s) := by
  unfold engFull
  dsimp only
  split
  · exact told_hSet _ _ _
  · exact Told.refl s

/-- A message has reached its slot, its mailbox, or nobody. -/
structure Messaged (s u : State) : Prop where
  frame : u = { s with
    me := { s.me with slots := u.me.slots, mbox := u.me.mbox, drops := u.me.drops, devWait := u.me.devWait }, dies := u.dies }

theorem messaged_enterBox {x : Message} {s : State} (hx : waitsInNet (hdrType x.hdr) = false) (hfree : s.ctx.fixed = false) :
    Messaged s (enterBox false x s) := by
  have hlog : logMail x s = s := (logMail_log x s).1 hfree
  have hp : forPrincipal s false x = false := by
    unfold forPrincipal
    rw [hx]
    rfl
  unfold enterBox enterMail
  dsimp only
  rw [hlog, hp, hx]
  split
  · exact ⟨rfl⟩
  · exact ⟨rfl⟩

/-- A message of a type that no principal takes. -/
theorem messaged_engMessage {c : EngCmd} {type : Nat} {body : List Word} {s : State}
    (htype : waitsInNet (type % 2 ^ 8) = false) (hfree : s.ctx.fixed = false) : Messaged s (engMessage c type body s) := by
  unfold engMessage
  dsimp only
  split
  · unfold arrive
    dsimp only
    rw [hdrDk_mkHdr, if_pos rfl]
    split
    · exact ⟨rfl⟩
    split
    · exact ⟨rfl⟩
    · exact messaged_enterBox (by rw [hdrType_mkHdr]; exact htype) hfree
  · exact ⟨rfl⟩

theorem Messaged.told {s u : State} (h : Messaged s u) : Told s u := by
  constructor
  rw [h.frame]

theorem told_sendClip (c : EngCmd) {s : State} (hfree : s.ctx.fixed = false) : Told s (sendClip c s) :=
  (messaged_engMessage rfl hfree).told

/-- A command that is over leaves the queue, and wakes who waits for its entry. -/
theorem transferPop_frame (s : State) : transferPop s = { s with
    me := { s.me with xq := s.me.xq.drop 1, slots := (transferPop s).me.slots }, others := (transferPop s).others } := by
  unfold transferPop queueFreed wakeIn
  dsimp only
  split <;> rfl

/-! ## Chunks of XCOPY and XFILL (R281 to R284) -/

theorem transferGoOn_eq (c : EngCmd) (s : State) : ∃ d ds, transferGoOn c s = { s with
    delays := ds, me := { s.me with xq := { c with ready := s.clock + 1 + d } :: s.me.xq.drop 1 } } := by
  obtain ⟨d, ds, h⟩ := popDelay_eq s
  refine ⟨d, ds, ?_⟩
  unfold transferGoOn nextStep
  rw [h]
  rfl

/-- The position after a chunk. -/
def chunkEnd (c : EngCmd) : Nat := doneToL c + Nat.min (perChunk c) (tileSize c.recd - doneToL c)

/-- What a chunk whose writes are complete leaves in the queue. -/
structure ChunkOver (c : EngCmd) (rest : List EngCmd) (s u : State) : Prop where
  mem : u.mem = s.mem
  pool : u.me.pool = s.me.pool
  last : chunkEnd c = tileSize c.recd → u.me.xq = rest
  next : chunkEnd c ≠ tileSize c.recd → ∃ c' : EngCmd, u.me.xq = c' :: rest ∧ c'.recd = c.recd ∧
    c'.done = lToDone c (chunkEnd c) ∧ s.clock < c'.ready

theorem chunkOver_copyEnd {c c₀ : EngCmd} {rest : List EngCmd} {s : State} (hxq : s.me.xq = c₀ :: rest)
    (hfree : s.ctx.fixed = false) : ChunkOver c rest s (copyEnd c s) := by
  have htold : ∀ (b : Bool) (n : Nat), Told s (engCount c n (if b then sendClip c s else s)) := by
    intro b n
    refine Told.trans ?_ (told_engCount c n _)
    split
    · exact told_sendClip c hfree
    · exact Told.refl s
  have hend : ∃ u, Told s u ∧ copyEnd c s = if chunkEnd c == tileSize c.recd then transferPop u
      else transferGoOn { c with done := lToDone c (chunkEnd c) } u := ⟨_, htold _ _, rfl⟩
  obtain ⟨u, hu, hcopy⟩ := hend
  rw [hcopy]
  by_cases hlast : chunkEnd c = tileSize c.recd
  · rw [if_pos (by simpa using hlast)]
    have hframe := transferPop_frame u
    refine ⟨?_, ?_, fun _ => ?_, fun h => absurd hlast h⟩
    · rw [hframe]
      exact hu.mem
    · rw [hframe]
      exact hu.pool
    · rw [hframe]
      show u.me.xq.drop 1 = rest
      rw [hu.xq, hxq]
      rfl
  · rw [if_neg (by simpa using hlast)]
    obtain ⟨d, ds, hgo⟩ := transferGoOn_eq { c with done := lToDone c (chunkEnd c) } u
    rw [hgo]
    refine ⟨hu.mem, hu.pool, fun h => absurd h hlast, fun _ =>
      ⟨{ c with done := lToDone c (chunkEnd c), ready := u.clock + 1 + d }, ?_, rfl, rfl, ?_⟩⟩
    · show _ :: u.me.xq.drop 1 = _
      rw [hu.xq, hxq]
      rfl
    · show s.clock < u.clock + 1 + d
      rw [hu.clock]
      omega

/-- The writes of a chunk, all of whose time has come, atom by atom. -/
def dueParts (ps : List BitsPut) (now : Nat) : List (Nat × List BitsPut) :=
  (atomsOf (ps.map (·.1))).map fun k => (now, ps.filter fun p => p.1 / 32 == k)

theorem drawDelays_none (host : Bool) (l : List Nat) {s : State} (h : s.delays = []) :
    drawDelays host l s = (l.map fun k => (k, s.clock), s) := by
  have hcap : capDelay host 0 = 0 := by cases host <;> rfl
  induction l with
  | nil => rfl
  | cons k l ih =>
    have hpop : popDelay s = (0, s) := by
      unfold popDelay
      rw [h]
    simp only [drawDelays, hpop, ih, hcap, Nat.add_zero, List.map_cons]

theorem chunkParts_none (ps : List BitsPut) {s : State} (h : s.delays = []) :
    chunkParts ps s = (dueParts ps s.clock, s) := by
  unfold chunkParts dueParts
  simp only [drawDelays_none _ _ h, List.map_map]
  rfl

theorem parts_due (ps : List BitsPut) (now : Nat) :
    ((dueParts ps now).filter fun w => decide (w.1 ≤ now)).flatMap (·.2) = byAtoms ps ∧
    ((dueParts ps now).filter fun w => decide (now < w.1)) = [] := by
  unfold dueParts byAtoms
  constructor
  · rw [List.filter_eq_self.mpr (by simp), List.flatMap_map]
  · simp

/-- Writes of a chunk that nothing delays are applied at once, and the chunk is complete. -/
theorem copyOn_dueParts {c : EngCmd} (hout : c.out = []) (ps : List BitsPut) (s : State) :
    copyOn { c with out := dueParts ps s.clock } s = copyEnd c (engWrite c (mergeBits s (byAtoms ps) []) s) := by
  obtain ⟨hdue, hlate⟩ := parts_due ps s.clock
  have hw : ∀ l, engWrite { c with out := dueParts ps s.clock } l s = engWrite c l s := fun _ => rfl
  have hclock : ∀ l, (engWrite c l s).clock = s.clock := by
    intro l
    unfold engWrite
    split
    · rfl
    · rw [writeBytes_frame]
  unfold copyOn
  simp only [hdue, hw, hclock, hlate, List.isEmpty_nil, if_true]
  congr 1
  rw [← hout]

/-- What an engine's write leaves beside memory. -/
theorem engWrite_spec (c : EngCmd) (l : List (Nat × Byte)) (s : State) : (engWrite c l s).mem = spSetAll 0 s.mem l ∧
    (engWrite c l s).me.pool = s.me.pool ∧ (engWrite c l s).me.xq = s.me.xq ∧ (engWrite c l s).ctx = s.ctx ∧
    (engWrite c l s).clock = s.clock ∧ (engWrite c l s).me.handles = s.me.handles := by
  unfold engWrite
  split
  · next h =>
    rw [List.isEmpty_iff.mp h]
    exact ⟨rfl, rfl, rfl, rfl, rfl, rfl⟩
  · rw [writeBytes_frame]
    exact ⟨rfl, rfl, rfl, rfl, rfl, rfl⟩

/-- The positions of a chunk. -/
def chunkCells (c : EngCmd) : List (Except EngStop Machine.Cell) :=
  ((List.range (Nat.min (perChunk c) (tileSize c.recd - doneToL c))).map (doneToL c + ·)).filter (inBox c 0) |>.map (cellAt c)

section
variable {c : EngCmd} {cells : List Machine.Cell} {s : State}

/-- No position of a chunk whose elements are all known stops it. -/
theorem findSome?_ok {f : Except EngStop Machine.Cell → Option EngStop} (hf : ∀ x, f (.ok x) = none) :
    (cells.map Except.ok).findSome? f = none := by
  simp [List.findSome?_eq_none_iff, hf]

theorem filterMap_ok {f : Except EngStop Machine.Cell → Option Machine.Cell} (hf : ∀ x, f (.ok x) = some x) :
    (cells.map Except.ok).filterMap f = cells := by
  rw [List.filterMap_map, show f ∘ Except.ok = some from funext hf]
  exact List.filterMap_some

/-- A chunk that nothing stops takes its writes on their way. -/
theorem copyChunk_goes (hcells : chunkCells c = cells.map .ok)
    (hprobe : engProbe c ((srcReads c cells ++ dstReads c cells).map (·, .read) ++ (dstWrites c cells).map (·, .write)) s = none)
    (hread : engReadStop c (srcReads c cells ++ dstReads c cells) s = none)
    (hwrite : ∀ va ∈ dstWrites c cells, engDown va (engHome c .write va s) s = false) :
    ∃ hs, copyChunk c s = copyOn { c with out := (chunkParts (chunkPuts c cells s) (askBanks hs s)).1 }
      (chunkParts (chunkPuts c cells s) (askBanks hs s)).2 := by
  have hdown : ((dstWrites c cells).findSome? fun va =>
      if engDown va (engHome c .write va s) s then some (EngStop.fault cMemDown va) else none) = none := by
    rw [List.findSome?_eq_none_iff]
    intro va hva
    rw [hwrite va hva]
    rfl
  refine ⟨(srcReads c cells ++ dstReads c cells).map fun va => engHome c .read va s, ?_⟩
  unfold copyChunk
  dsimp only
  rw [show (((List.range (Nat.min (perChunk c) (tileSize c.recd - doneToL c))).map (doneToL c + ·)).filter (inBox c 0)).map
    (cellAt c) = cells.map .ok from hcells]
  rw [findSome?_ok fun _ => rfl, filterMap_ok fun _ => rfl]
  dsimp only
  rw [hprobe]
  dsimp only
  rw [hread, hdown]
  rfl

/-- TRANSFER_CHUNK at the head of the queue, which is ready, with no write on its way. -/
theorem exec_transferChunk {rest : List EngCmd} (hxq : s.me.xq = c :: rest) (hready : c.ready ≤ s.clock)
    (hfault : c.fault = none) (hdenied : c.denied = false) (hout : c.out = [])
    (hkind : engKind c.recd = 0x20 ∨ engKind c.recd = 0x23) : exec .transferChunk s = .next (copyChunk c s) := by
  have hwaits : copyWaits s = none := by
    unfold copyWaits
    rw [hxq]
    dsimp only
    rw [hout]
    rfl
  have hstep : canStep s c = true := by
    unfold canStep
    rw [hfault, decide_eq_true hready]
    rfl
  have hhead : transferHead s = some c := by
    unfold transferHead
    rw [hxq]
    exact if_pos hstep
  have hno : deniedAt c = none := by
    unfold deniedAt
    rw [hdenied]
    rfl
  have hsame : { c with fault := none } = c := by rw [← hfault]
  show execTransferChunk s = _
  unfold execTransferChunk
  rw [hwaits]
  dsimp only
  unfold beginChunk
  rw [hhead]
  dsimp only
  rw [hno]
  dsimp only
  rw [if_neg (by omega), if_neg (by omega), hsame]

end

/-- The bytes that writes of bits make depend on the bytes that stand there. -/
theorem mergeBits_congr {s w : State} (h : ∀ a, byteAt w a = byteAt s a) (ps : List BitsPut) (l : List (Nat × Byte)) :
    mergeBits w ps l = mergeBits s ps l := by
  have hover : ∀ l a, overlaid w l a = overlaid s l a := fun l a => by
    unfold overlaid
    rw [h]
  induction ps generalizing l with
  | nil => rfl
  | cons p ps ih =>
    obtain ⟨a, m, b⟩ := p
    rw [mergeBits, mergeBits, hover, ih]

/-- A chunk that nothing stops and no delay puts off writes its positions' elements, and the command goes on or is over. -/
theorem gives_chunk {c : EngCmd} {rest : List EngCmd} {cells : List Machine.Cell} {s : State} (hxq : s.me.xq = c :: rest)
    (hready : c.ready ≤ s.clock) (hfault : c.fault = none) (hdenied : c.denied = false) (hout : c.out = [])
    (hkind : engKind c.recd = 0x20 ∨ engKind c.recd = 0x23) (hdelays : s.delays = []) (hfree : s.ctx.fixed = false)
    (hcells : chunkCells c = cells.map .ok)
    (hprobe : engProbe c ((srcReads c cells ++ dstReads c cells).map (·, .read) ++ (dstWrites c cells).map (·, .write)) s = none)
    (hread : engReadStop c (srcReads c cells ++ dstReads c cells) s = none)
    (hwrite : ∀ va ∈ dstWrites c cells, engDown va (engHome c .write va s) s = false) :
    Gives (exec .transferChunk s) fun t => (∀ a, memAt t a = spGet 0 (spSetAll 0 s.mem (chunkWrites c cells s)) a) ∧
      t.me.pool = s.me.pool ∧ (chunkEnd c = tileSize c.recd → t.me.xq = rest) ∧
      (chunkEnd c ≠ tileSize c.recd → ∃ c' : EngCmd, t.me.xq = c' :: rest ∧ c'.recd = c.recd ∧
        c'.done = lToDone c (chunkEnd c) ∧ s.clock < c'.ready) := by
  obtain ⟨hs, hchunk⟩ := copyChunk_goes hcells hprobe hread hwrite
  obtain ⟨w, hw⟩ : ∃ w, w = askBanks hs s := ⟨_, rfl⟩
  have hmerge : ∀ l, mergeBits w l [] = mergeBits s l [] := fun l => by
    rw [hw]
    exact mergeBits_congr (s := s) (w := askBanks hs s) (fun _ => rfl) l []
  have hwmem : w.mem = s.mem := by rw [hw]; rfl
  have hwpool : w.me.pool = s.me.pool := by rw [hw]; rfl
  have hwxq : w.me.xq = c :: rest := by rw [hw]; exact hxq
  have hwctx : w.ctx = s.ctx := by rw [hw]; rfl
  have hwclock : w.clock = s.clock := by rw [hw]; rfl
  have hgo : copyChunk c s = copyEnd c (engWrite c (mergeBits w (byAtoms (chunkPuts c cells s)) []) w) := by
    rw [hchunk, ← hw, chunkParts_none _ (show w.delays = [] by rw [hw]; exact hdelays)]
    exact copyOn_dueParts hout _ w
  obtain ⟨hmem, hpool, hxq', hctx, hclock, -⟩ := engWrite_spec c (mergeBits w (byAtoms (chunkPuts c cells s)) []) w
  generalize engWrite c (mergeBits w (byAtoms (chunkPuts c cells s)) []) w = v at *
  have hover : ChunkOver c rest v (copyEnd c v) :=
    chunkOver_copyEnd (hxq'.trans hwxq) (by rw [hctx, hwctx]; exact hfree)
  refine ⟨_, (exec_transferChunk hxq hready hfault hdenied hout hkind).trans (by rw [hgo]), fun a => ?_, ?_,
    hover.last, fun h => ?_⟩
  · unfold memAt
    rw [hover.mem, hmem, hmerge, hwmem]
    exact memAt_byAtoms s _ a
  · rw [hover.pool, hpool, hwpool]
  · rw [← hwclock, ← hclock]
    exact hover.next h

/-- The head of the queue, if it is ready and waits on no page. -/
theorem transferHead_of_ready {c : EngCmd} {rest : List EngCmd} {s : State} (hxq : s.me.xq = c :: rest)
    (hready : c.ready ≤ s.clock) (hfault : c.fault = none) : transferHead s = some c := by
  have hstep : canStep s c = true := by
    unfold canStep
    rw [hfault, decide_eq_true hready]
    rfl
  unfold transferHead
  rw [hxq]
  exact if_pos hstep

theorem deniedAt_none {c : EngCmd} (h : c.denied = false) : deniedAt c = none := by
  unfold deniedAt
  rw [h]
  rfl

/-! ## The end of a scan (R286) -/

/-- Eight bytes at an aligned address lie in one atom. -/
theorem engPut_word (c : EngCmd) {va : Nat} (h8 : va % 8 = 0) (l : List Byte) (hl : l.length = 8) (s : State) :
    engPut c (va : Int) l s = blockWrites (engHome c .write (va : Int) s) l := by
  have hatom : atomAddrs (va : Int) 8 = [(va : Int)] := by
    have hlast : ((va : Int) + (8 : Nat) - 1) / 32 - (va : Int) / 32 = 0 := by omega
    unfold atomAddrs
    rw [if_neg (by omega)]
    dsimp only
    rw [hlast]
    rfl
  have hroom : 8 ≤ (((va : Int) / 32 + 1) * 32 - (va : Int)).toNat := by omega
  unfold engPut
  rw [hl, hatom, List.flatMap_singleton]
  dsimp only
  rw [Int.sub_self, Int.toNat_zero, List.drop_zero, List.take_of_length_le (by rw [hl]; exact hroom)]
  rfl

theorem hGet_engFull {c : EngCmd} {s : State} (n : Nat) (hgen : (hGet s (cmdHnd c)).gen = c.gen) :
    (hGet (engFull c n s) (cmdHnd c)).st = .full ∧ (hGet (engFull c n s) (cmdHnd c)).counted = BitVec.ofNat 28 n := by
  unfold engFull
  dsimp only
  rw [if_pos hgen, hGet_hSet_same]
  exact ⟨rfl, rfl⟩

/-- The count word is written, and the handle FULL. -/
theorem gives_scanComplete {c : EngCmd} {rest : List EngCmd} {s : State} (hxq : s.me.xq = c :: rest)
    (hready : c.ready ≤ s.clock) (hfault : c.fault = none) (hdenied : c.denied = false) (hkind : engKind c.recd = 0x22)
    (hdone : scanCount c.recd * elemBytes (scanFmt c.recd) ≤ c.done) (h8 : scanCnt c.recd % 8 = 0)
    (hat : ∀ e, engAt c .write (scanCnt c.recd : Nat) s ≠ .error e)
    (hup : engDown (scanCnt c.recd : Nat) (engHome c .write (scanCnt c.recd : Nat) s) s = false)
    (hgen : (hGet s (cmdHnd c)).gen = c.gen) : Gives (exec .scanComplete s) fun t => t.me.xq = rest ∧
      (∀ k < 8, memAt t (engHome c .write (scanCnt c.recd : Nat) s + k) = BitVec.ofNat 8 (c.found / 2 ^ (8 * k))) ∧
      (∀ a, a < engHome c .write (scanCnt c.recd : Nat) s ∨ engHome c .write (scanCnt c.recd : Nat) s + 8 ≤ a →
        memAt t a = memAt s a) ∧ (hGet t (cmdHnd c)).st = .full ∧
      (hGet t (cmdHnd c)).counted = BitVec.ofNat 28 ((8 * min c.found (scanMax c.recd) + 31) / 32 + 1) := by
  obtain ⟨h, hh⟩ : ∃ h, h = engHome c .write (scanCnt c.recd : Nat) s := ⟨_, rfl⟩
  have hprobe : engProbe c [((scanCnt c.recd : Nat), .write)] s = none := by
    unfold engProbe
    rw [List.findSome?_cons]
    dsimp only
    cases he : engAt c .write (scanCnt c.recd : Nat) s with
    | ok h => rfl
    | error e => exact absurd he (hat e)
  have hgo : exec .scanComplete s = .next (transferPop (engFull c ((8 * Nat.min c.found (scanMax c.recd) + 31) / 32 + 1)
      (engWrite c (blockWrites h (leBytes 8 c.found)) s))) := by
    show execScanComplete s = _
    unfold execScanComplete
    rw [transferHead_of_ready hxq hready hfault]
    dsimp only
    rw [if_pos ⟨hkind, by unfold scanDone; exact decide_eq_true hdone⟩, deniedAt_none hdenied]
    dsimp only
    rw [hprobe]
    dsimp only
    rw [if_neg (by rw [hup]; exact Bool.false_ne_true), engPut_word c h8 _ (length_leBytes 8 c.found) s, hh]
  obtain ⟨-, -, hwxq, -, -, hwhand⟩ := engWrite_spec c (blockWrites h (leBytes 8 c.found)) s
  have hwrite : engWrite c (blockWrites h (leBytes 8 c.found)) s = writeBytes ⟨c.core, 15, 2⟩ (blockWrites h (leBytes 8 c.found)) s :=
    if_neg (by simp [blockWrites, ← List.length_eq_zero_iff, length_leBytes])
  obtain ⟨hin, hout⟩ := memAt_blockWrites ⟨c.core, 15, 2⟩ h (leBytes 8 c.found) s
  rw [← hwrite, length_leBytes] at hin hout
  rw [← hh]
  generalize engWrite c (blockWrites h (leBytes 8 c.found)) s = w at *
  have hwgen : (hGet w (cmdHnd c)).gen = c.gen := by
    unfold hGet
    rw [hwhand]
    exact hgen
  obtain ⟨hfull, hcounted⟩ := hGet_engFull ((8 * Nat.min c.found (scanMax c.recd) + 31) / 32 + 1) hwgen
  have htold := told_engFull c ((8 * Nat.min c.found (scanMax c.recd) + 31) / 32 + 1) w
  generalize engFull c ((8 * Nat.min c.found (scanMax c.recd) + 31) / 32 + 1) w = v at *
  have hpop := transferPop_frame v
  have hmem : ∀ a, memAt (transferPop v) a = memAt w a := fun a => by
    rw [← htold.memAt, hpop]
    rfl
  have hhand : hGet (transferPop v) (cmdHnd c) = hGet v (cmdHnd c) := by
    rw [hpop]
    rfl
  refine ⟨_, hgo, ?_, fun k hk => ?_, fun a ha => ?_, ?_, ?_⟩
  · rw [hpop]
    show v.me.xq.drop 1 = rest
    rw [htold.xq, hwxq, hxq]
    rfl
  · rw [hmem, hin k hk, getElem?_leBytes hk, Nat.pow_mul]
    rfl
  · rw [hmem, hout a ha]
  · rw [hhand, hfull]
  · rw [hhand, hcounted]

/-! ## Re-striping (R210 to R212) -/

theorem stripeOf_head {c : EngCmd} {x : Restripe} {s : State} (hkind : engKind c.recd = 0x21) (hs : s.restripes = [x])
    (hva : x.vbase = stripeVa c.recd) : stripeOf s c = some x := by
  unfold stripeOf
  rw [if_pos hkind, hs, List.find?_cons, beq_iff_eq.mpr hva]

/-- The bytes of an atom stand at its new home, and what is on its way goes there. -/
structure Switched (old new : Nat) (s u : State) : Prop where
  atom : ∀ k < 32, memAt u (new + k) = memAt s (old + k)
  other : ∀ a, a < new ∨ new + 32 ≤ a → memAt u a = memAt s a
  xq : u.me.xq = (forward old new s.me).xq
  restripes : u.restripes = s.restripes

theorem switched_copyAtom (old new : Nat) (s : State) : Switched old new s (copyAtom old new s) := by
  obtain ⟨l, hl⟩ : ∃ l, l = (List.range 32).map fun k => (new + k, memAt s (old + k)) := ⟨_, rfl⟩
  have hmem : (copyAtom old new s).mem = spSetAll 0 s.mem l := by
    rw [hl]
    rfl
  have hnodup : (l.map (·.1)).Nodup := by
    rw [hl, List.map_map]
    exact List.nodup_range.map fun _ _ h => Nat.add_left_cancel h
  refine ⟨fun k hk => ?_, fun a ha => ?_, rfl, rfl⟩
  · unfold memAt
    rw [hmem]
    refine spGet_setAll_mem 0 l s.mem hnodup (new + k, memAt s (old + k)) ?_
    rw [hl]
    exact List.mem_map.mpr ⟨k, List.mem_range.mpr hk, rfl⟩
  · unfold memAt
    rw [hmem]
    refine spGet_setAll_other 0 l s.mem a ?_
    rw [hl]
    intro e he
    obtain ⟨k, hk, rfl⟩ := List.mem_map.mp he
    have := List.mem_range.mp hk
    show new + k ≠ a
    omega

/-- What has been forwarded of the queue's commands is where their writes go. -/
theorem recds_forward (old new : Nat) {m : Core} {c : EngCmd} {rest : List EngCmd} (h : m.xq = c :: rest) :
    ((forward old new m).xq.drop 1).map (·.recd) = rest.map (·.recd) := by
  unfold forward
  rw [h]
  simp only [List.map_cons, List.drop_succ_cons, List.drop_zero, List.map_map]
  rfl

/-- The atom that the re-striping of the head command has come to. -/
def atomHomes (x : Restripe) : Nat × Nat :=
  (pageHome x.old0 x.old1 (32 * x.switched), pageHome x.new0 x.new1 (32 * x.switched))

section
variable {c : EngCmd} {rest : List EngCmd} {x : Restripe} {s : State} (hxq : s.me.xq = c :: rest)
  (hready : c.ready ≤ s.clock) (hfault : c.fault = none) (hkind : engKind c.recd = 0x21) (hone : s.restripes = [x])
  (hva : x.vbase = stripeVa c.recd)
include hxq hready hfault hkind hone hva

theorem exec_atomSwitch (hstuck : x.stuck = false) (hshoot : x.shooting = false)
    (hold : controllerDown s (atomHomes x).1 = false) (hnew : controllerDown s (atomHomes x).2 = false) :
    ∃ u, Told (setStripe x { x with switched := x.switched + 1, shooting := x.switched + 1 == x.size / 32 }
        (copyAtom (atomHomes x).1 (atomHomes x).2 s)) u ∧
      exec .xstripeAtomSwitch s = .next (transferGoOn { c with done := 32 * (x.switched + 1) } u) := by
  obtain ⟨v, hv⟩ : ∃ v, v = setStripe x { x with switched := x.switched + 1, shooting := x.switched + 1 == x.size / 32 }
    (copyAtom (atomHomes x).1 (atomHomes x).2 s) := ⟨_, rfl⟩
  rw [← hv]
  refine ⟨if x.switched + 1 == x.size / 32 then v else engCount c 1 v, ?_, ?_⟩
  · split
    · exact Told.refl v
    · exact told_engCount c 1 v
  · show execXstripeAtomSwitch s = _
    unfold execXstripeAtomSwitch
    rw [transferHead_of_ready hxq hready hfault]
    dsimp only
    rw [stripeOf_head hkind hone hva]
    dsimp only
    rw [if_neg (by rw [hshoot, hstuck]; exact Bool.false_ne_true)]
    rw [if_neg (by
      rw [show controllerDown s (pageHome x.old0 x.old1 (32 * x.switched)) = false from hold,
        show controllerDown s (pageHome x.new0 x.new1 (32 * x.switched)) = false from hnew]
      exact Bool.false_ne_true), hv]
    rfl

/-- The next atom of a page moves to its new home. -/
theorem gives_atomSwitch (hstuck : x.stuck = false) (hshoot : x.shooting = false)
    (hold : controllerDown s (atomHomes x).1 = false) (hnew : controllerDown s (atomHomes x).2 = false) :
    Gives (exec .xstripeAtomSwitch s) fun t => (∀ k < 32, memAt t ((atomHomes x).2 + k) = memAt s ((atomHomes x).1 + k)) ∧
      (∀ a, a < (atomHomes x).2 ∨ (atomHomes x).2 + 32 ≤ a → memAt t a = memAt s a) ∧
      t.restripes = [{ x with switched := x.switched + 1, shooting := x.switched + 1 == x.size / 32 }] ∧
      ∃ (c' : EngCmd) (rest' : List EngCmd), t.me.xq = c' :: rest' ∧ rest'.map (·.recd) = rest.map (·.recd) ∧
        c'.recd = c.recd ∧ c'.done = 32 * (x.switched + 1) := by
  obtain ⟨u, hu, hgo⟩ := exec_atomSwitch hxq hready hfault hkind hone hva hstuck hshoot hold hnew
  obtain ⟨hatom, hother, hfwd, hstripes⟩ := switched_copyAtom (atomHomes x).1 (atomHomes x).2 s
  generalize copyAtom (atomHomes x).1 (atomHomes x).2 s = v at *
  obtain ⟨d, ds, hon⟩ := transferGoOn_eq { c with done := 32 * (x.switched + 1) } u
  rw [hon] at hgo
  refine ⟨_, hgo, fun k hk => (hu.memAt _).trans (hatom k hk), fun a ha => (hu.memAt a).trans (hother a ha), ?_,
    _, _, rfl, ?_, rfl, rfl⟩
  · refine hu.restripes.trans ?_
    show v.restripes.map _ = _
    rw [hstripes, hone]
    simp
  · rw [hu.xq]
    show (v.me.xq.drop 1).map _ = _
    rw [hfwd]
    exact recds_forward _ _ hxq

/-- The shootdown of the page passes: no TLB holds its old placement. -/
theorem gives_shootdown (hshoot : x.shooting = true) (hflight : anyInFlight (isOld x) s = false)
    (hme : writesTo x s.me = false) (hothers : ∀ e ∈ s.others, ∀ m, e.2 = some m → writesTo x m = false) :
    Gives (exec .shootdownPassed s) fun t => t.restripes = [] ∧ t.me.xq = rest ∧ t.mem = s.mem ∧
      t.fw.released = s.fw.released ++ [x.old0] ∧
      ∀ e ∈ t.me.dtlb ++ t.me.itlb, ¬(e.tr.vbase = x.vbase ∧ e.tr.w1 = x.old1) := by
  have hany : (s.others.any fun e => match e.2 with | some m => writesTo x m | none => false) = false := by
    rw [List.any_eq_false]
    intro e he
    cases hm : e.2 with
    | none => simp
    | some m => simp [hothers e he m hm]
  have hpass : shootReady x s = true := by
    unfold shootReady
    rw [hshoot, hflight, hme, Bool.false_or]
    have : (!s.others.any fun e => match e.2 with | some m => writesTo x m | none => false) = true := by rw [hany]; rfl
    exact this
  obtain ⟨v, hv⟩ : ∃ v, v = { shootDown (isOld x) s with
    restripes := (shootDown (isOld x) s).restripes.filter fun z => z != x
    fw := { (shootDown (isOld x) s).fw with released := (shootDown (isOld x) s).fw.released ++ [x.old0] } } := ⟨_, rfl⟩
  have hgo : exec .shootdownPassed s = .next (transferPop (engCount c 1 v)) := by
    show execShootdownPassed s = _
    unfold execShootdownPassed
    rw [transferHead_of_ready hxq hready hfault]
    dsimp only
    rw [stripeOf_head hkind hone hva]
    dsimp only
    rw [if_pos hpass, hv]
  have htold := told_engCount c 1 v
  have hframe := htold.frame
  generalize engCount c 1 v = w at *
  have hpop := transferPop_frame w
  have hdtlb : w.me.dtlb = s.me.dtlb.filter (fun e => !isOld x e.tr) := by rw [hframe, hv]; rfl
  have hitlb : w.me.itlb = s.me.itlb.filter (fun e => !isOld x e.tr) := by rw [hframe, hv]; rfl
  refine ⟨_, hgo, ?_, ?_, ?_, ?_, fun e he => ?_⟩
  · rw [hpop]
    refine htold.restripes.trans ?_
    rw [hv]
    show s.restripes.filter _ = []
    rw [hone]
    simp
  · rw [hpop]
    show w.me.xq.drop 1 = rest
    rw [htold.xq, hv]
    show s.me.xq.drop 1 = rest
    rw [hxq]
    rfl
  · rw [hpop]
    refine htold.mem.trans ?_
    rw [hv]
    rfl
  · rw [hpop]
    show w.fw.released = _
    rw [htold.fw, hv]
    rfl
  · rw [hpop] at he
    have hin : e ∈ w.me.dtlb ++ w.me.itlb := he
    rw [hdtlb, hitlb, List.mem_append, List.mem_filter, List.mem_filter] at hin
    have hnot : isOld x e.tr = false := by
      rcases hin with ⟨-, h⟩ | ⟨-, h⟩ <;> simpa using h
    rintro ⟨hbase, hplace⟩
    unfold isOld at hnot
    simp [hbase, hplace] at hnot

end

/-- Settles O40: a chunk's writes atom by atom leave the bytes of the whole list, and a scan's end, an atom's move and the
shootdown follow from what their parts keep. -/
theorem transferSteps : Obligations.TransferSteps := by
  intro c rest s hxq hready hfault hdenied hout
  refine ⟨?_, ?_, ?_⟩
  · intro cells hkind hdelays hfree l0 n hcells rds wrs hprobe hread hwrite
    exact gives_chunk hxq hready hfault hdenied hout hkind hdelays hfree hcells hprobe hread hwrite
  · intro hkind hdone h8 hat h hup hgen
    exact gives_scanComplete hxq hready hfault hdenied hkind hdone h8 hat hup hgen
  · intro x hkind hone hva hstuck old new
    exact ⟨fun hshoot hold hnew => gives_atomSwitch hxq hready hfault hkind hone hva hstuck hshoot hold hnew,
      fun hshoot hflight hme hothers => gives_shootdown hxq hready hfault hkind hone hva hshoot hflight hme hothers⟩

end Sys2Proof.Proofs
end

section
/-!
SUPPORT. The steps of the matrix engine (R316, R340, R343, R344, R368 to R370).
-/

namespace Sys2Proof.Proofs

open Sys2Proof Sys2Proof.Machine Sys2Proof.Laws

/-! ## Issuing (R343) -/

theorem popDelay_none {s : State} (h : s.delays = []) : popDelay s = (0, s) := by
  unfold popDelay
  rw [h]

section
variable {c : EngCmd} {rest : List EngCmd} {s : State} (hmq : s.me.mq = c :: rest) (hidle : s.me.inFlight = none)
  (hres : s.switch = .resident) (hfault : c.fault = none) (hdenied : c.denied = false) (hdelays : s.delays = [])
include hmq hidle hdenied

theorem exec_matrixStep_issues {u : State} (hu : mxTryIssue s = u) : exec .matrixStep s =
    if u.me.inFlight.isSome then .next u else .refused (.notDue "MATRIX_STEP") := by
  show execMatrixStep s = _
  unfold execMatrixStep
  rw [hmq, hidle]
  dsimp only
  rw [hdenied, if_neg Bool.false_ne_true, hu]

include hres hfault

theorem matrixStep_waits (hmac : engKind c.recd = 0x10)
    (hmay : ¬(s.me.power = .hot ∧ stepCost c.recd ≤ s.me.level.toNat ∧ c.ready ≤ s.clock)) :
    exec .matrixStep s = .refused (.notDue "MATRIX_STEP") := by
  have hu : mxTryIssue s = s := by
    unfold mxTryIssue
    rw [hmq, hidle]
    dsimp only
    rw [if_neg (by simp [hres, hfault]), if_pos (by simp [isMac, hmac]), if_neg hmay]
  rw [exec_matrixStep_issues hmq hidle hdenied hu, hidle]
  rfl

include hdelays

theorem matrixStep_mac (hmac : engKind c.recd = 0x10)
    (hmay : s.me.power = .hot ∧ stepCost c.recd ≤ s.me.level.toNat ∧ c.ready ≤ s.clock) :
    exec .matrixStep s = .next { s with me := { s.me with
      level := s.me.level - BitVec.ofNat 32 (stepCost c.recd)
      inFlight := some (s.clock + stepCycles c.recd (tileRows c.recd (tileAt c.recd c.done).1)) } } := by
  have hu : mxTryIssue s = { s with me := { s.me with
      level := s.me.level - BitVec.ofNat 32 (stepCost c.recd)
      inFlight := some (s.clock + stepCycles c.recd (tileRows c.recd (tileAt c.recd c.done).1)) } } := by
    unfold mxTryIssue
    rw [hmq, hidle]
    dsimp only
    rw [if_neg (by simp [hres, hfault]), if_pos (by simp [isMac, hmac]), if_pos hmay, popDelay_none hdelays]
    rfl
  rw [exec_matrixStep_issues hmq hidle hdenied hu]
  rfl

theorem matrixStep_other (hmac : engKind c.recd ≠ 0x10) :
    exec .matrixStep s = .next { s with me := { s.me with inFlight := some (s.clock + 1) } } := by
  have hu : mxTryIssue s = { s with me := { s.me with inFlight := some (s.clock + 1) } } := by
    unfold mxTryIssue
    rw [hmq, hidle]
    dsimp only
    rw [if_neg (by simp [hres, hfault]), if_neg (by simp [isMac, hmac]), popDelay_none hdelays]
    rfl
  rw [exec_matrixStep_issues hmq hidle hdenied hu]
  rfl

end

/-! ## What an issue, a kindling and the head's leaving keep -/

theorem headKindles_frame (s : State) : ∃ p, headKindles s = { s with me := { s.me with power := p } } ∧
    (s.me.power = .hot → p = .hot) := by
  unfold headKindles
  split
  · next h _ =>
    split
    · exact ⟨_, rfl, fun hot => by rw [h] at hot; cases hot⟩
    · exact ⟨_, rfl, id⟩
  · exact ⟨_, rfl, id⟩

/-- The head of the matrix queue has left it. -/
structure Popped (s u : State) : Prop where
  frame : u = { s with
    me := { s.me with mq := s.me.mq.drop 1, slots := u.me.slots, power := u.me.power }, others := u.others }
  slots : ∀ k, slotOf u k = woken s.clock (fun w => w == .queue .matrix) (slotOf s k)
  hot : s.me.power = .hot → u.me.power = .hot

theorem popped_mxPop (s : State) : Popped s (mxPop s) := by
  obtain ⟨v, hv⟩ : ∃ v, v = queueFreed .matrix (fun k => k == s.me.num) { s with me := { s.me with mq := s.me.mq.drop 1 } } :=
    ⟨_, rfl⟩
  obtain ⟨p, hp, hhot⟩ := headKindles_frame v
  have hme : v.me = (wake (fun w => w == .queue .matrix) { s with me := { s.me with mq := s.me.mq.drop 1 } }).me := by
    rw [hv]
    exact if_pos (beq_self_eq_true s.me.num)
  have hframe : v = { s with me := { s.me with mq := s.me.mq.drop 1, slots := v.me.slots }, others := v.others } := by
    have : v = { s with me := v.me, others := v.others } := by rw [hv]; rfl
    rw [this, hme]
    rfl
  have hpop : mxPop s = headKindles v := by rw [hv]; rfl
  rw [hpop, hp]
  refine ⟨?_, fun k => ?_, fun h => hhot (by rw [hme]; exact h)⟩
  · rw [hframe]
  · show spGet emptySlot v.me.slots k = _
    rw [hme]
    exact slotOf_wake _ { s with me := { s.me with mq := s.me.mq.drop 1 } } k

/-! ## The step in flight retires (R340, R344, R368) -/

/-- An engine in HOT with no MXMAC left goes to QUENCH. -/
def Quenches (c : EngCmd) (rest : List EngCmd) (s t : State) : Prop :=
  engKind c.recd = 0x10 → s.me.power = .hot → (∀ x ∈ rest, engKind x.recd ≠ 0x10) → t.me.power = .quench (s.clock + 64)

/-- What the engine does once a command has left the queue. -/
def afterPop (c : EngCmd) (s : State) : State := if isMac c then quenchIfIdle s else s

theorem afterPop_frame (c : EngCmd) (s : State) : ∃ p, afterPop c s = { s with me := { s.me with power := p } } := by
  unfold afterPop
  split
  · unfold quenchIfIdle
    split
    · exact ⟨_, rfl⟩
    · exact ⟨_, rfl⟩
  · exact ⟨_, rfl⟩

theorem quenches_afterPop (c : EngCmd) (s : State) : Quenches c s.me.mq s (afterPop c s) := by
  intro hmac hhot hnone
  have hidle : s.me.mq.any isMac = false := by
    rw [List.any_eq_false]
    intro x hx
    simpa [isMac] using hnone x hx
  unfold afterPop
  rw [if_pos (by simp [isMac, hmac])]
  unfold quenchIfIdle
  rw [if_pos ⟨hhot, hidle⟩]

/-- What the end of a turn of the engine keeps. -/
structure Turned (c : EngCmd) (s t : State) : Prop where
  mem : t.mem = s.mem
  pool : t.me.pool = s.me.pool
  handles : t.me.handles = s.me.handles
  mq : t.me.mq = s.me.mq
  mbox : t.me.mbox = s.me.mbox
  power : Quenches c s.me.mq s t

theorem turned_afterPop (c : EngCmd) (s : State) : Turned c s (mxTryIssue (afterPop c s)) := by
  have hq := quenches_afterPop c s
  obtain ⟨p, hp⟩ := afterPop_frame c s
  rw [hp] at hq ⊢
  rw [mxTryIssue_frame]
  exact ⟨rfl, rfl, rfl, rfl, rfl, hq⟩

theorem exec_matrixStep_retires {c : EngCmd} {rest : List EngCmd} {stop : Nat} {s : State} (hmq : s.me.mq = c :: rest)
    (hflight : s.me.inFlight = some stop) (hstop : stop ≤ s.clock) :
    exec .matrixStep s = .next (mxTryIssue (mxRetire c s)) := by
  show execMatrixStep s = _
  unfold execMatrixStep
  rw [hmq, hflight]
  exact if_pos hstop

/-! ### A step that meets a fault -/

theorem st_woken_ne {now : Nat} {p : ParkWhy → Bool} {c : Slot} {x : SlotState} (hx : x ≠ .runnable) (h : c.st ≠ x) :
    (woken now p c).st ≠ x := by
  unfold woken wakeSlot
  split
  · split
    · exact Ne.symm hx
    · exact h
  · exact h

theorem told_hFree (k : Nat) (s : State) : Told s (hFree k s) := ⟨rfl⟩

/-- The EFAULT of a command of the matrix or the transfer engine has gone to its pusher. -/
def faultTold (c : EngCmd) (cause : BitVec 5) (va : Word) (s : State) : State :=
  engMessage c 0xF6 [BitVec.ofNat 64 (engKind c.recd), cmdRef c, cause.setWidth 64, va, BitVec.ofNat 64 c.done, 0, 0] s

theorem engFault_eq {c : EngCmd} {cause : BitVec 5} {va : Word} {s u : State} (hkind : engKind c.recd < 0x30)
    (hu : faultTold c cause va s = u) :
    engFault c cause va s = if (hGet u (cmdHnd c)).gen = c.gen then hFree (cmdHnd c) u else u := by
  have hprogress : progressOf c s = (BitVec.ofNat 64 c.done, s) := if_pos hkind
  unfold faultTold at hu
  unfold engFault
  rw [hprogress]
  dsimp only
  rw [hu]

/-- What an EFAULT leaves: the message in the pusher's mailbox, and the command's handle FREE. -/
theorem engFault_spec {c : EngCmd} {cause : BitVec 5} {va : Word} {s : State} (hslot : c.slot < 16) (hlive : c.live = true)
    (hempty : slotEmpty s c.slot = false) (hmig : (slotOf s c.slot).st ≠ .migrating) (hkind : engKind c.recd < 0x30)
    (hroom : s.me.mbox.length + s.me.reserved < 32) (hfree : s.ctx.fixed = false) (hgen : (hGet s (cmdHnd c)).gen = c.gen) :
    Told s (engFault c cause va s) ∧ (hGet (engFault c cause va s) (cmdHnd c)).st = .free ∧
    (engFault c cause va s).me.mbox = s.me.mbox ++ [⟨mkHdr c.gen.toNat 0xF6 c.core c.slot c.core c.slot true false,
      [BitVec.ofNat 64 (engKind c.recd), cmdRef c, cause.setWidth 64, va, BitVec.ofNat 64 c.done, 0, 0], 0, 0⟩] := by
  obtain ⟨-, hsent, -⟩ := engMessage_spec (c := c) (type := 0xF6)
    (body := [BitVec.ofNat 64 (engKind c.recd), cmdRef c, cause.setWidth 64, va, BitVec.ofNat 64 c.done, 0, 0]) (s := s) hslot
    (by omega) (by omega) (by omega) hmig
  obtain ⟨hmbox, -⟩ := hsent (by simp [hlive, hempty, hroom])
  have hframe : Messaged s (faultTold c cause va s) := messaged_engMessage rfl hfree
  rw [engFault_eq hkind rfl]
  change (faultTold c cause va s).me.mbox = _ at hmbox
  generalize faultTold c cause va s = u at *
  have hu : (hGet u (cmdHnd c)).gen = c.gen := by
    rw [hframe.frame]
    exact hgen
  rw [if_pos hu]
  refine ⟨hframe.told.trans (told_hFree _ _), ?_, hmbox⟩
  unfold hFree
  rw [hGet_hSet_same]
  rfl

section
variable {c : EngCmd} {rest : List EngCmd} {stop : Nat} {s : State} (hmq : s.me.mq = c :: rest)
  (hflight : s.me.inFlight = some stop) (hstop : stop ≤ s.clock)
include hmq hflight hstop

/-- A step that meets a fault ends its command. -/
theorem gives_stepFault {cause : BitVec 5} {va : Int}
    (hfault : mxStop c { s with me := { s.me with inFlight := none } } = some (.fault cause va)) (hslot : c.slot < 16)
    (hlive : c.live = true) (hempty : slotEmpty s c.slot = false) (hmig : (slotOf s c.slot).st ≠ .migrating)
    (hkind : engKind c.recd < 0x30) (hroom : s.me.mbox.length + s.me.reserved < 32) (hfree : s.ctx.fixed = false)
    (hgen : (hGet s (cmdHnd c)).gen = c.gen) : Gives (exec .matrixStep s) fun t =>
      t.me.mq = rest ∧ t.mem = s.mem ∧ t.me.pool = s.me.pool ∧ (hGet t (cmdHnd c)).st = .free ∧ Quenches c rest s t ∧
      t.me.mbox = s.me.mbox ++ [⟨mkHdr c.gen.toNat 0xF6 c.core c.slot c.core c.slot true false,
        [BitVec.ofNat 64 (engKind c.recd), cmdRef c, cause.setWidth 64, BitVec.ofInt 64 va, BitVec.ofNat 64 c.done, 0, 0],
        0, 0⟩] := by
  obtain ⟨v, hv⟩ : ∃ v, v = mxPop { s with me := { s.me with inFlight := none } } := ⟨_, rfl⟩
  have hpop := popped_mxPop { s with me := { s.me with inFlight := none } }
  rw [← hv] at hpop
  have hvmem : v.mem = s.mem := by rw [hpop.frame]
  have hvpool : v.me.pool = s.me.pool := by rw [hpop.frame]
  have hvmq : v.me.mq = rest := by
    rw [hpop.frame]
    show s.me.mq.drop 1 = rest
    rw [hmq]
    rfl
  have hvmbox : v.me.mbox = s.me.mbox := by rw [hpop.frame]
  have hvroom : v.me.mbox.length + v.me.reserved < 32 := by rw [hpop.frame]; exact hroom
  have hvfree : v.ctx.fixed = false := by rw [hpop.frame]; exact hfree
  have hvgen : (hGet v (cmdHnd c)).gen = c.gen := by rw [hpop.frame]; exact hgen
  have hvclock : v.clock = s.clock := by rw [hpop.frame]
  have hvhot : s.me.power = .hot → v.me.power = .hot := hpop.hot
  have hvnum : v.me.num = s.me.num := by rw [hpop.frame]
  have hvslot : slotOf v c.slot = woken s.clock (fun w => w == .queue .matrix) (slotOf s c.slot) := hpop.slots c.slot
  have hvmig : (slotOf v c.slot).st ≠ .migrating := by
    rw [hvslot]
    exact st_woken_ne nofun hmig
  have hvempty : slotEmpty v c.slot = false := by
    unfold slotEmpty at hempty ⊢
    rw [hvnum, hvslot]
    generalize principalSlot s.me.num c.slot = p at *
    cases p with
    | true => rfl
    | false =>
      rw [Bool.not_false, Bool.true_and] at hempty ⊢
      exact beq_eq_false_iff_ne.mpr (st_woken_ne nofun (beq_eq_false_iff_ne.mp hempty))
  obtain ⟨htold, hst, hmbox⟩ := engFault_spec (cause := cause) (va := BitVec.ofInt 64 va) hslot hlive hvempty hvmig hkind hvroom
    hvfree hvgen
  have hretire : mxRetire c s = afterPop c (engFault c cause (BitVec.ofInt 64 va) v) := by
    unfold mxRetire
    dsimp only
    rw [hfault, hv]
    rfl
  have hframe := htold.frame
  generalize engFault c cause (BitVec.ofInt 64 va) v = u at *
  have hturn := turned_afterPop c u
  have humq : u.me.mq = rest := by rw [hframe]; exact hvmq
  refine ⟨_, (exec_matrixStep_retires hmq hflight hstop).trans (by rw [hretire]), ?_, ?_, ?_, ?_, ?_, ?_⟩
  · rw [hturn.mq, humq]
  · rw [hturn.mem, htold.mem, hvmem]
  · rw [hturn.pool, htold.pool, hvpool]
  · unfold hGet
    rw [hturn.handles]
    exact hst
  · intro hmac hhot hnone
    rw [hturn.power hmac (by rw [hframe]; exact hvhot hhot) (by rw [humq]; exact hnone), htold.clock, hvclock]
  · rw [hturn.mbox, hmbox, hvmbox]

end

/-! ### A step that writes -/

/-- What a step's write keeps beside memory and the marks of the weight buffer. -/
structure Stored (s u : State) : Prop where
  me : u.me = { s.me with slots := u.me.slots, trace := u.me.trace, lost := u.me.lost, wpoison := u.me.wpoison }
  clock : u.clock = s.clock

theorem stored_engWrite (c : EngCmd) (l : List (Nat × Byte)) (s : State) : Stored s (engWrite c l s) := by
  unfold engWrite
  split
  · exact ⟨rfl, rfl⟩
  · rw [writeBytes_frame]
    exact ⟨rfl, rfl⟩

theorem stored_mxWrite (c : EngCmd) (s : State) : Stored s (mxWrite c s) := by
  unfold mxWrite
  split
  · exact stored_engWrite c _ s
  · exact ⟨rfl, rfl⟩
  · exact stored_engWrite c _ s
  · exact stored_engWrite c _ s

/-- A step writes what it would without its banks asked for. -/
theorem mem_mxWrite_asked (c : EngCmd) (hs : List Nat) (s : State) :
    (mxWrite c (askBanks hs s)).mem = (mxWrite c s).mem := by
  have hmac : macWrites c (askBanks hs s) = macWrites c s := rfl
  have hepi : epiWrites c (askBanks hs s) = epiWrites c s := rfl
  have hzero : zeroWrites c (askBanks hs s) = zeroWrites c s := rfl
  have hwld : (wldWrite c (askBanks hs s)).mem = (wldWrite c s).mem := rfl
  have hasked : (askBanks hs s).mem = s.mem := rfl
  unfold mxWrite
  split
  · rw [(engWrite_spec c _ _).1, (engWrite_spec c _ _).1, hmac, hasked]
  · exact hwld
  · rw [(engWrite_spec c _ _).1, (engWrite_spec c _ _).1, hepi, hasked]
  · rw [(engWrite_spec c _ _).1, (engWrite_spec c _ _).1, hzero, hasked]

/-- The step of the head command is complete: it has written, and counted its sectors. -/
theorem mxRetire_done {c : EngCmd} {s : State} (hnone : mxStop c { s with me := { s.me with inFlight := none } } = none) :
    ∃ w v, w.mem = (mxWrite c { s with me := { s.me with inFlight := none } }).mem ∧
      Stored { s with me := { s.me with inFlight := none } } w ∧ Told w v ∧
      mxRetire c s = if stepsOf c.recd ≤ c.done + 1 then afterPop c (mxPop v)
        else { v with me := { v.me with
          mq := { c with done := c.done + 1, fault := none, denied := false } :: v.me.mq.drop 1 } } := by
  obtain ⟨s', hs'⟩ : ∃ s', s' = { s with me := { s.me with inFlight := none } } := ⟨_, rfl⟩
  rw [← hs'] at hnone ⊢
  refine ⟨mxWrite c (askBanks (mxReads c s') s'),
    if mxSectors c = 0 then mxWrite c (askBanks (mxReads c s') s')
      else engCount c (mxSectors c) (mxWrite c (askBanks (mxReads c s') s')), mem_mxWrite_asked c _ s', ?_, ?_, ?_⟩
  · obtain ⟨hme, hclock⟩ := stored_mxWrite c (askBanks (mxReads c s') s')
    exact ⟨hme, hclock⟩
  · split
    · exact Told.refl _
    · exact told_engCount _ _ _
  · unfold mxRetire
    dsimp only
    rw [← hs', hnone]
    rfl

section
variable {c : EngCmd} {rest : List EngCmd} {stop : Nat} {s : State} (hmq : s.me.mq = c :: rest)
  (hflight : s.me.inFlight = some stop) (hstop : stop ≤ s.clock)
include hmq hflight hstop

/-- A step that nothing stops writes, and its command goes on or is over. -/
theorem gives_stepDone (hnone : mxStop c { s with me := { s.me with inFlight := none } } = none) :
    Gives (exec .matrixStep s) fun t =>
      t.mem = (mxWrite c { s with me := { s.me with inFlight := none } }).mem ∧ t.me.pool = s.me.pool ∧
      (stepsOf c.recd ≤ c.done + 1 → t.me.mq = rest ∧ Quenches c rest s t) ∧
      (c.done + 1 < stepsOf c.recd → t.me.mq = { c with done := c.done + 1, fault := none, denied := false } :: rest) := by
  obtain ⟨w, v, hmem, hstored, htold, hretire⟩ := mxRetire_done hnone
  have hwclock : w.clock = s.clock := hstored.clock
  have hvframe := htold.frame
  have hvmq : v.me.mq = c :: rest := by rw [hvframe, hstored.me]; exact hmq
  have hvpool : v.me.pool = s.me.pool := by rw [hvframe, hstored.me]
  have hvpower : v.me.power = s.me.power := by rw [hvframe, hstored.me]
  have hexec := exec_matrixStep_retires hmq hflight hstop
  rw [hretire] at hexec
  by_cases hover : stepsOf c.recd ≤ c.done + 1
  · rw [if_pos hover] at hexec
    have hpop := popped_mxPop v
    have hturn := turned_afterPop c (mxPop v)
    have hpmq : (mxPop v).me.mq = rest := by
      rw [hpop.frame]
      show v.me.mq.drop 1 = rest
      rw [hvmq]
      rfl
    have hpmem : (mxPop v).mem = v.mem := by rw [hpop.frame]
    have hppool : (mxPop v).me.pool = v.me.pool := by rw [hpop.frame]
    have hpclock : (mxPop v).clock = v.clock := by rw [hpop.frame]
    refine ⟨_, hexec, ?_, ?_, fun _ => ⟨?_, fun hmac hhot hall => ?_⟩, fun h => absurd h (by omega)⟩
    · rw [hturn.mem, hpmem, htold.mem, hmem]
    · rw [hturn.pool, hppool, hvpool]
    · rw [hturn.mq, hpmq]
    · rw [hturn.power hmac (hpop.hot (by rw [hvpower]; exact hhot)) (by rw [hpmq]; exact hall), hpclock, htold.clock, hwclock]
  · rw [if_neg hover, mxTryIssue_frame] at hexec
    refine ⟨_, hexec, htold.mem.trans hmem, hvpool, fun h => absurd h hover, fun _ => ?_⟩
    show _ :: v.me.mq.drop 1 = _
    rw [hvmq]
    rfl

end

/-! ### MXZERO (R370) -/

/-- Writes of zeros leave zeros wherever they write. -/
theorem spGet_setAll_zero {l : List (Nat × Byte)} (hl : ∀ e ∈ l, e.2 = 0) (m : Sp Byte) (a : Nat) (ha : a ∈ l.map (·.1)) :
    spGet 0 (spSetAll 0 m l) a = 0 := by
  induction l using List.reverseRecOn with
  | nil => cases ha
  | append_singleton l e ih =>
    obtain ⟨h, v⟩ := e
    have hv : v = 0 := hl (h, v) (by simp)
    rw [spSetAll_append]
    show spGet 0 (spSet 0 (spSetAll 0 m l) h v) a = 0
    by_cases hah : a = h
    · rw [hah, spGet_set_same, hv]
    · rw [spGet_set_other _ _ _ _ _ hah]
      refine ih (fun e he => hl e (List.mem_append_left _ he)) ?_
      rw [List.map_append, List.mem_append] at ha
      exact ha.resolve_right fun hm => hah (List.mem_singleton.mp hm)

theorem memAt_zeroed {c : EngCmd} {s : State} (hkind : engKind c.recd = 0x13) {i j : Nat}
    (hi : i < tileRows c.recd (c.done / tilesN c.recd)) (hj : j < 32 * mxEc c.recd) :
    spGet 0 (mxWrite c s).mem (scratchHome s.me.num (mxCoff c.recd +
      mxCstr c.recd * (32 * (c.done / tilesN c.recd) + i) + mxEc c.recd * (32 * (c.done % tilesN c.recd)) + j)) = 0 := by
  have hk : tilesK c.recd = 1 := if_neg (by omega)
  have hwrite : (mxWrite c s).mem = spSetAll 0 s.mem (zeroWrites c s) := by
    unfold mxWrite
    rw [hkind]
    exact (engWrite_spec c _ s).1
  rw [hwrite]
  refine spGet_setAll_zero (fun e he => ?_) s.mem _ ?_
  · unfold zeroWrites at he
    obtain ⟨row, -, he⟩ := List.mem_flatMap.mp he
    obtain ⟨col, -, rfl⟩ := List.mem_map.mp he
    rfl
  · unfold zeroWrites tileAt cOff
    simp only [hk, Nat.mul_one, Nat.div_one, List.mem_map, List.mem_flatMap, List.mem_range]
    exact ⟨_, ⟨_, ⟨i, hi, rfl⟩, j, hj, rfl⟩, rfl⟩

/-! ## Energy and power (R343, R344) -/

section
variable {s : State}

theorem exec_energyRefill (hdue : (s.clock - s.me.born) % 1024 = 0) (hnew : s.me.refilled ≠ s.clock) :
    exec .energyRefill s = .next { s with me := { s.me with
      level := BitVec.ofNat 32 (min s.me.cap.toNat (s.me.level.toNat + s.me.rate.toNat)), refilled := s.clock } } :=
  if_pos ⟨hdue, hnew⟩

theorem gives_kindleEnd {stop : Nat} (hpower : s.me.power = .kindle stop) (hstop : stop ≤ s.clock) :
    Gives (exec .kindleEnd s) fun t =>
      t.me.power = .hot ∧ t.me.mq = s.me.mq ∧ t.mem = s.mem ∧ t.me.pool = s.me.pool := by
  have hexec : exec .kindleEnd s = .next (mxTryIssue { s with me := { s.me with power := .hot } }) := by
    show execKindleEnd s = _
    unfold execKindleEnd
    rw [hpower]
    exact if_pos hstop
  rw [mxTryIssue_frame] at hexec
  exact ⟨_, hexec, rfl, rfl, rfl, rfl⟩

theorem exec_quenchEnd {stop : Nat} (hpower : s.me.power = .quench stop) (hstop : stop ≤ s.clock) :
    exec .quenchEnd s = .next { s with me := { s.me with power := .cold } } := by
  show execQuenchEnd s = _
  unfold execQuenchEnd
  rw [hpower]
  exact if_pos hstop

theorem exec_burstDeadline (hpower : s.me.power = .hot) (hburst : s.me.burst = true) (hdue : s.me.deadline ≤ s.clock)
    (hnone : ∀ c ∈ s.me.mq, engKind c.recd ≠ 0x10) :
    exec .burstDeadline s = .next { s with me := { s.me with power := .quench (s.clock + 65), burst := false } } := by
  refine if_pos ⟨hpower, hburst, hdue, ?_⟩
  rw [List.any_eq_false]
  intro c hc
  simpa [isMac] using hnone c hc

end

/-! ## What ends an MXMAC at a step (R316, R368) -/

/-! ### The first of a rising list -/

section
variable {α : Type} {l : List Nat} {i : Nat}

theorem findSome?_first {f : Nat → Option α} (hl : l.Pairwise (· < ·)) (hi : i ∈ l) (hbefore : ∀ j ∈ l, j < i → f j = none)
    {x : α} (hx : f i = some x) : l.findSome? f = some x := by
  induction l with
  | nil => cases hi
  | cons a l ih =>
    obtain ⟨ha, hl⟩ := List.pairwise_cons.mp hl
    rcases List.mem_cons.mp hi with rfl | hmem
    · rw [List.findSome?_cons, hx]
    · rw [List.findSome?_cons, hbefore a List.mem_cons_self (ha i hmem)]
      exact ih hl hmem fun j hj => hbefore j (List.mem_cons_of_mem _ hj)

theorem find?_first {p : Nat → Bool} (hl : l.Pairwise (· < ·)) (hi : i ∈ l) (hbefore : ∀ j ∈ l, j < i → p j = false)
    (hx : p i = true) : l.find? p = some i := by
  induction l with
  | nil => cases hi
  | cons a l ih =>
    obtain ⟨ha, hl⟩ := List.pairwise_cons.mp hl
    rcases List.mem_cons.mp hi with rfl | hmem
    · rw [List.find?_cons, hx]
    · rw [List.find?_cons, hbefore a List.mem_cons_self (ha i hmem)]
      exact ih hl hmem fun j hj => hbefore j (List.mem_cons_of_mem _ hj)

theorem rising_shifted (b n : Nat) : ((List.range n).map (b + ·)).Pairwise (· < ·) :=
  List.pairwise_lt_range.map _ fun _ _ h => Nat.add_lt_add_left h b

end

/-! ### Marked sectors of the own scratchpad -/

section
variable {s : State} {off n : Nat}

/-- The sector of the own scratchpad is marked. -/
def padMarked (s : State) (a : Nat) : Bool := isBad s (scratchHome s.me.num (32 * a))

/-- No sector of n bytes is marked. -/
def PadClean (s : State) (off n : Nat) : Prop := ∀ a, off / 32 ≤ a → a ≤ (off + n - 1) / 32 → padMarked s a = false

/-- The first marked sector of n bytes has the address w. -/
def PadMarked (s : State) (off n : Nat) (w : Word) : Prop := ∃ a, off / 32 ≤ a ∧ a ≤ (off + n - 1) / 32 ∧
  padMarked s a = true ∧ (∀ b, off / 32 ≤ b → b < a → padMarked s b = false) ∧
  w = BitVec.ofNat 64 (Config.scratchWindow + 32 * a)

theorem mem_sectors {a : Nat} (hn : 0 < n) :
    a ∈ (List.range ((off + n - 1) / 32 - off / 32 + 1)).map (off / 32 + ·) ↔ off / 32 ≤ a ∧ a ≤ (off + n - 1) / 32 := by
  have hle : off / 32 ≤ (off + n - 1) / 32 := Nat.div_le_div_right (by omega)
  rw [List.mem_map]
  constructor
  · rintro ⟨k, hk, rfl⟩
    have := List.mem_range.mp hk
    constructor <;> omega
  · rintro ⟨h1, h2⟩
    exact ⟨a - off / 32, List.mem_range.mpr (by omega), by omega⟩

theorem padBad_clean (hn : 0 < n) (h : PadClean s off n) : padBad s off n = none := by
  unfold padBad
  rw [if_neg (by omega), List.findSome?_eq_none_iff]
  intro a ha
  obtain ⟨h1, h2⟩ := (mem_sectors hn).mp ha
  exact if_neg (by rw [show isBad s (scratchHome s.me.num (32 * a)) = false from h a h1 h2]; exact Bool.false_ne_true)

theorem padBad_marked (hn : 0 < n) {w : Word} (h : PadMarked s off n w) : padBad s off n = some w := by
  obtain ⟨a, h1, h2, hbad, hbefore, rfl⟩ := h
  unfold padBad
  rw [if_neg (by omega)]
  refine findSome?_first (rising_shifted _ _) ((mem_sectors hn).mpr ⟨h1, h2⟩) (fun b hb hlt => ?_) (if_pos hbad)
  have hclean : isBad s (scratchHome s.me.num (32 * b)) = false := hbefore b ((mem_sectors hn).mp hb).1 hlt
  exact if_neg (by rw [hclean]; exact Bool.false_ne_true)

end

/-! ### The order of the faults -/

section
variable (c : EngCmd) (s : State)

/-- The rows of a step. -/
def stepRows : List Nat := (List.range (tileRows c.recd (tileAt c.recd c.done).1)).map (32 * (tileAt c.recd c.done).1 + ·)

/-- The first marked sector of the index entries. -/
def indexFault : Option Word := if mxGather c.recd then (stepRows c).findSome? fun i => padBad s (idxOff c.recd i) 8 else none

/-- The first gathered row outside the A rows. -/
def outsideRow : Option Nat :=
  if mxGather c.recd then
    (stepRows c).find? fun i => decide (aRow c.recd i s < 0) || decide ((mxArows c.recd : Int) ≤ aRow c.recd i s)
  else none

/-- The first marked sector of A. -/
def aFault : Option Word := (stepRows c).findSome? fun i =>
  padBad s (aOff c.recd (aRow c.recd i s).toNat (32 * (tileAt c.recd c.done).2.2)) (32 * elemBytes (mxAfmt c.recd))

/-- The block of the weight buffer that a sub-tile's block k is. -/
def weightBlock (k : Nat) : Nat := subTile c.recd (tileAt c.recd c.done).2.2 (tileAt c.recd c.done).2.1 / 256 + k

/-- The first marked block of the weight buffer. -/
def bFault : Option Word := (tileBlocks c.recd).findSome? fun k =>
  if s.me.wpoison.contains (weightBlock c k) then some (BitVec.ofNat 64 (2 ^ 63 + 256 * weightBlock c k)) else none

/-- The first marked sector of C that the step reads. -/
def cFault : Option Word :=
  if (tileAt c.recd c.done).2.2 = 0 ∧ mxZeroc c.recd then none
  else (stepRows c).findSome? fun i => padBad s (cOff c.recd i (32 * (tileAt c.recd c.done).2.1)) (32 * mxEc c.recd)

end

/-- The fault of a step by what its parts meet. -/
def faultOf (outsideAt : Nat → Word) (index : Option Word) (outside : Option Nat) (a b cc : Option Word) :
    Option (BitVec 5 × Word) :=
  match index.map fun w => (cPoison, w), outside with
  | some f, _ => some f
  | none, some i => some (cPerm, outsideAt i)
  | none, none =>
    match a.map fun w => (cPoison, w), b.map fun w => (cPoison, w) with
    | some f, _ => some f
    | none, some f => some f
    | none, none => cc.map fun w => (cPoison, w)

theorem macFault_eq (c : EngCmd) (s : State) : macFault c s =
    faultOf (fun i => BitVec.ofNat 64 (Config.scratchWindow + idxOff c.recd i)) (indexFault c s) (outsideRow c s) (aFault c s)
      (bFault c s) (cFault c s) := rfl

theorem mxStop_mac {c : EngCmd} {s : State} (hkind : engKind c.recd = 0x10) (hdenied : c.denied = false) :
    mxStop c s = (macFault c s).map fun f => .fault f.1 (f.2.toNat : Int) := by
  unfold mxStop
  rw [deniedAt_none hdenied, hkind]
  rfl

/-! ### What each part of a step meets -/

section
variable {c : EngCmd} {s : State}

theorem rising_stepRows (c : EngCmd) : (stepRows c).Pairwise (· < ·) := rising_shifted _ _

theorem indexFault_marked {i : Nat} (hi : i ∈ stepRows c) (hg : mxGather c.recd = true)
    (hbefore : ∀ j ∈ stepRows c, j < i → PadClean s (idxOff c.recd j) 8) {w : Word} (hw : PadMarked s (idxOff c.recd i) 8 w) :
    indexFault c s = some w := by
  unfold indexFault
  rw [if_pos hg]
  exact findSome?_first (rising_stepRows c) hi (fun j hj hlt => padBad_clean (by omega) (hbefore j hj hlt))
    (padBad_marked (by omega) hw)

theorem indexFault_clean (h : mxGather c.recd = true → ∀ j ∈ stepRows c, PadClean s (idxOff c.recd j) 8) :
    indexFault c s = none := by
  unfold indexFault
  split
  · next hg => exact List.findSome?_eq_none_iff.mpr fun j hj => padBad_clean (by omega) (h hg j hj)
  · rfl

/-- Row i of a gathered step lies inside the A rows. -/
def RowInside (c : EngCmd) (s : State) (i : Nat) : Prop := 0 ≤ aRow c.recd i s ∧ aRow c.recd i s < mxArows c.recd

theorem rowOutside_iff (i : Nat) :
    (decide (aRow c.recd i s < 0) || decide ((mxArows c.recd : Int) ≤ aRow c.recd i s)) = true ↔ ¬RowInside c s i := by
  unfold RowInside
  rw [Bool.or_eq_true, decide_eq_true_iff, decide_eq_true_iff]
  omega

theorem outsideRow_first {i : Nat} (hi : i ∈ stepRows c) (hg : mxGather c.recd = true)
    (hbefore : ∀ j ∈ stepRows c, j < i → RowInside c s j) (hout : ¬RowInside c s i) : outsideRow c s = some i := by
  unfold outsideRow
  rw [if_pos hg]
  refine find?_first (rising_stepRows c) hi (fun j hj hlt => ?_) ((rowOutside_iff i).mpr hout)
  rw [← Bool.not_eq_true, rowOutside_iff, not_not]
  exact hbefore j hj hlt

theorem outsideRow_none (h : mxGather c.recd = true → ∀ j ∈ stepRows c, RowInside c s j) : outsideRow c s = none := by
  unfold outsideRow
  split
  · next hg =>
    refine List.find?_eq_none.mpr fun j hj => ?_
    rw [rowOutside_iff, not_not]
    exact h hg j hj
  · rfl

/-- The offset of row i's bytes of A. -/
def aStart (c : EngCmd) (s : State) (i : Nat) : Nat := aOff c.recd (aRow c.recd i s).toNat (32 * (tileAt c.recd c.done).2.2)
/-- The bytes of a row of A. -/
def aBytes (c : EngCmd) : Nat := 32 * elemBytes (mxAfmt c.recd)
/-- The offset of row i's bytes of C. -/
def cStart (c : EngCmd) (i : Nat) : Nat := cOff c.recd i (32 * (tileAt c.recd c.done).2.1)
/-- The step reads C. -/
def ReadsC (c : EngCmd) : Prop := ¬((tileAt c.recd c.done).2.2 = 0 ∧ mxZeroc c.recd = true)

theorem aBytes_pos (c : EngCmd) : 0 < aBytes c := by
  have : 0 < elemBytes (mxAfmt c.recd) := by
    unfold elemBytes
    split <;> omega
  unfold aBytes
  omega

theorem mxEc_pos (r : Rec) : 0 < 32 * mxEc r := by
  have : 0 < mxEc r := by
    unfold mxEc
    repeat' split
    all_goals omega
  omega

theorem aFault_marked {i : Nat} (hi : i ∈ stepRows c) (hbefore : ∀ j ∈ stepRows c, j < i → PadClean s (aStart c s j) (aBytes c))
    {w : Word} (hw : PadMarked s (aStart c s i) (aBytes c) w) : aFault c s = some w :=
  findSome?_first (rising_stepRows c) hi (fun j hj hlt => padBad_clean (aBytes_pos c) (hbefore j hj hlt))
    (padBad_marked (aBytes_pos c) hw)

theorem aFault_clean (h : ∀ j ∈ stepRows c, PadClean s (aStart c s j) (aBytes c)) : aFault c s = none :=
  List.findSome?_eq_none_iff.mpr fun j hj => padBad_clean (aBytes_pos c) (h j hj)

theorem bFault_first {k : Nat} (h : (tileBlocks c.recd).find? (fun k => s.me.wpoison.contains (weightBlock c k)) = some k) :
    bFault c s = some (BitVec.ofNat 64 (2 ^ 63 + 256 * weightBlock c k)) := by
  unfold bFault
  generalize tileBlocks c.recd = blocks at h ⊢
  induction blocks with
  | nil => cases h
  | cons a l ih =>
    rw [List.find?_cons] at h
    rw [List.findSome?_cons]
    cases ha : s.me.wpoison.contains (weightBlock c a) with
    | true =>
      rw [ha] at h
      cases h
      rfl
    | false =>
      rw [ha] at h
      exact ih h

theorem bFault_none (h : ∀ k ∈ tileBlocks c.recd, weightBlock c k ∉ s.me.wpoison) : bFault c s = none := by
  refine List.findSome?_eq_none_iff.mpr fun k hk => if_neg ?_
  simpa using h k hk

theorem cFault_marked {i : Nat} (hi : i ∈ stepRows c) (hread : ReadsC c)
    (hbefore : ∀ j ∈ stepRows c, j < i → PadClean s (cStart c j) (32 * mxEc c.recd)) {w : Word}
    (hw : PadMarked s (cStart c i) (32 * mxEc c.recd) w) : cFault c s = some w := by
  unfold cFault
  rw [if_neg hread]
  exact findSome?_first (rising_stepRows c) hi (fun j hj hlt => padBad_clean (mxEc_pos c.recd) (hbefore j hj hlt))
    (padBad_marked (mxEc_pos c.recd) hw)

theorem cFault_clean (h : ReadsC c → ∀ j ∈ stepRows c, PadClean s (cStart c j) (32 * mxEc c.recd)) : cFault c s = none := by
  unfold cFault
  split
  · rfl
  · next hread => exact List.findSome?_eq_none_iff.mpr fun j hj => padBad_clean (mxEc_pos c.recd) (h hread j hj)

end

section
variable {c : EngCmd} {s : State} (hkind : engKind c.recd = 0x10) (hdenied : c.denied = false)
include hkind hdenied

/-- What stops an MXMAC at a step, by what its parts meet. -/
theorem mxStop_faultOf : mxStop c s = (faultOf (fun i => BitVec.ofNat 64 (Config.scratchWindow + idxOff c.recd i))
    (indexFault c s) (outsideRow c s) (aFault c s) (bFault c s) (cFault c s)).map fun f => .fault f.1 (f.2.toNat : Int) := by
  rw [mxStop_mac hkind hdenied, macFault_eq]

theorem mxStop_index {w : Word} (h : indexFault c s = some w) : mxStop c s = some (.fault cPoison (w.toNat : Int)) := by
  rw [mxStop_faultOf hkind hdenied, h]
  rfl

theorem mxStop_outside {i : Nat} (hi : indexFault c s = none) (h : outsideRow c s = some i) :
    mxStop c s = some (.fault cPerm ((BitVec.ofNat 64 (Config.scratchWindow + idxOff c.recd i)).toNat : Int)) := by
  rw [mxStop_faultOf hkind hdenied, hi, h]
  rfl

theorem mxStop_a {w : Word} (hi : indexFault c s = none) (ho : outsideRow c s = none) (h : aFault c s = some w) :
    mxStop c s = some (.fault cPoison (w.toNat : Int)) := by
  rw [mxStop_faultOf hkind hdenied, hi, ho, h]
  rfl

theorem mxStop_b {w : Word} (hi : indexFault c s = none) (ho : outsideRow c s = none) (ha : aFault c s = none)
    (h : bFault c s = some w) : mxStop c s = some (.fault cPoison (w.toNat : Int)) := by
  rw [mxStop_faultOf hkind hdenied, hi, ho, ha, h]
  rfl

theorem mxStop_c (hi : indexFault c s = none) (ho : outsideRow c s = none) (ha : aFault c s = none)
    (hb : bFault c s = none) : mxStop c s = (cFault c s).map fun w => .fault cPoison (w.toNat : Int) := by
  rw [mxStop_faultOf hkind hdenied, hi, ho, ha, hb]
  cases cFault c s <;> rfl

end

/-- Settles O42: an issue and a step that retires by what each part keeps, and the order in which an MXMAC meets its
faults. -/
theorem matrixSteps : Obligations.MatrixSteps := by
  refine ⟨⟨?_, ?_, ?_⟩, ?_⟩
  · intro c rest s hmq hidle hres hfault hdenied hdelays cost cycles may
    exact ⟨fun hmac hmay => matrixStep_mac hmq hidle hres hfault hdenied hdelays hmac hmay,
      fun hmac hmay => matrixStep_waits hmq hidle hres hfault hdenied hmac hmay,
      fun hmac => matrixStep_other hmq hidle hres hfault hdenied hdelays hmac⟩
  · intro c rest stop s hmq hflight hstop s' quenches
    refine ⟨?_, ?_⟩
    · intro cause va hstops hcore hslot hlive hempty hmig hkind hroom hfree hgen
      exact gives_stepFault hmq hflight hstop hstops hslot hlive hempty hmig hkind hroom hfree hgen
    · intro hnone
      obtain ⟨t, hexec, hmem, hpool, hover, hon⟩ := gives_stepDone hmq hflight hstop hnone
      refine ⟨t, hexec, hmem, hpool, hover, hon, fun hkind i j hi hj => ?_⟩
      unfold memAt
      rw [hmem]
      exact memAt_zeroed (s := s') hkind hi hj
  · intro s
    exact ⟨exec_energyRefill, fun stop => gives_kindleEnd, fun stop => exec_quenchEnd, exec_burstDeadline⟩
  · intro c s hkind hdenied r mt nt kt rows bad clean marked ends index row inside aAt aBytes cAt block readsC
    refine ⟨fun i hi hg hbefore w hw => mxStop_index hkind hdenied (indexFault_marked hi hg hbefore hw), fun hindex => ?_⟩
    have hno := indexFault_clean (c := c) (s := s) hindex
    refine ⟨fun i hi hg hbefore hout => mxStop_outside hkind hdenied hno (outsideRow_first hi hg hbefore hout), fun hrows => ?_⟩
    have hin := outsideRow_none (c := c) (s := s) hrows
    refine ⟨fun i hi hbefore w hw => mxStop_a hkind hdenied hno hin (aFault_marked hi hbefore hw), fun hclean => ?_⟩
    have ha := aFault_clean (c := c) (s := s) hclean
    refine ⟨fun k hk => mxStop_b hkind hdenied hno hin ha (bFault_first hk), fun hblocks => ?_⟩
    have hb := bFault_none (c := c) (s := s) hblocks
    refine ⟨fun i hi hread hbefore w hw => ?_, fun hc => ?_⟩
    · have hstop := mxStop_c hkind hdenied hno hin ha hb
      rw [cFault_marked hi hread hbefore hw] at hstop
      exact hstop
    · rw [mxStop_c hkind hdenied hno hin ha hb, cFault_clean hc]
      rfl

end Sys2Proof.Proofs
end

section
/-!
SUPPORT. The routing engine's sort and run, and the reprojection unit's pixels (R202, R313, R314).
-/

namespace Sys2Proof.Proofs

open Sys2Proof Sys2Proof.Machine Sys2Proof.Laws

/-! ## The sort (R314) -/

/-- Entry a comes before entry b. -/
def ReLt (a b : RouteEntry) : Prop :=
  reExpert a < reExpert b ∨ (reExpert a = reExpert b ∧ (reToken a < reToken b ∨ (reToken a = reToken b ∧ a.1 < b.1)))

theorem reBefore_iff (a b : RouteEntry) : reBefore a b = true ↔ ReLt a b := by
  simp [reBefore, ReLt]

theorem reLt_trans {a b c : RouteEntry} (h : ReLt a b) (g : ReLt b c) : ReLt a c := by
  unfold ReLt at *
  omega

/-- Of two entries of different indices one comes first. -/
theorem reLt_of_not {a b : RouteEntry} (hne : a.1 ≠ b.1) (h : ¬ReLt a b) : ReLt b a := by
  unfold ReLt at *
  omega

theorem perm_reInsert (e : RouteEntry) (l : List RouteEntry) : (reInsert e l).Perm (e :: l) := by
  induction l with
  | nil => exact List.Perm.refl _
  | cons x l ih =>
    unfold reInsert
    split
    · exact List.Perm.refl _
    · exact (ih.cons x).trans (List.Perm.swap e x l)

theorem sorted_reInsert {e : RouteEntry} {l : List RouteEntry} (hl : l.Pairwise ReLt) (hne : ∀ x ∈ l, e.1 ≠ x.1) :
    (reInsert e l).Pairwise ReLt := by
  induction l with
  | nil => exact List.pairwise_singleton _ _
  | cons x l ih =>
    obtain ⟨hx, hl'⟩ := List.pairwise_cons.mp hl
    unfold reInsert
    split
    · next h =>
      have hex : ReLt e x := (reBefore_iff e x).mp h
      refine List.pairwise_cons.mpr ⟨fun y hy => ?_, hl⟩
      rcases List.mem_cons.mp hy with rfl | hy
      · exact hex
      · exact reLt_trans hex (hx y hy)
    · next h =>
      have hxe : ReLt x e := reLt_of_not (hne x List.mem_cons_self) (mt (reBefore_iff e x).mpr h)
      refine List.pairwise_cons.mpr ⟨fun y hy => ?_, ih hl' fun y hy => hne y (List.mem_cons_of_mem _ hy)⟩
      rcases List.mem_cons.mp ((perm_reInsert e l).mem_iff.mp hy) with rfl | hy
      · exact hxe
      · exact hx y hy

theorem perm_reSort (l : List RouteEntry) : (reSort l).Perm l := by
  induction l with
  | nil => exact List.Perm.refl _
  | cons e l ih => exact (perm_reInsert e (reSort l)).trans (ih.cons e)

theorem sorted_reSort {l : List RouteEntry} (hl : (l.map (·.1)).Nodup) : (reSort l).Pairwise ReLt := by
  induction l with
  | nil => exact List.Pairwise.nil
  | cons e l ih =>
    rw [List.map_cons, List.nodup_cons] at hl
    refine sorted_reInsert (ih hl.2) fun x hx he => hl.1 ?_
    exact List.mem_map.mpr ⟨x, (perm_reSort l).mem_iff.mp hx, he.symm⟩

/-! ## A run of the routing engine (R313, R314) -/

/-- What a queue's head leaves behind as it goes: who waits for its entry is woken. -/
theorem queueFreed_frame (q : QueueId) (at_ : Nat → Bool) (s : State) : queueFreed q at_ s = { s with
    me := { s.me with slots := (queueFreed q at_ s).me.slots }, others := (queueFreed q at_ s).others } := by
  unfold queueFreed wakeIn
  dsimp only
  split <;> rfl

theorem engProbe_none_of {c : EngCmd} {l : List Int} {s : State} (h : ∀ a ∈ l, engDown a (engHome c .write a s) s = false) :
    (l.find? fun a => engDown a (engHome c .write a s) s) = none := by
  rw [List.find?_eq_none]
  intro a ha
  rw [h a ha]
  exact Bool.false_ne_true

section
variable {k : Nat} {c : EngCmd} {rest : List EngCmd} {s : State}

/-- The addresses that a run reads, and those that it writes. -/
def routingSrc (c : EngCmd) : List Int := atomAddrs (rtSrc c.recd) (8 * rtPairs c.recd)
/-- The addresses that a run writes. -/
def routingDst (c : EngCmd) : List Int := atomAddrs (rtPerm c.recd) (8 * rtPairs c.recd) ++
  atomAddrs (rtCnt c.recd) (4 * rtExperts c.recd) ++ atomAddrs (rtOffs c.recd) (4 * (rtExperts c.recd + 1))
/-- The entries that a run sorts. -/
def routingEntries (c : EngCmd) (s : State) : List RouteEntry :=
  (List.range (rtPairs c.recd)).map fun i => (i, engNat c (rtSrc c.recd + 8 * i : Nat) 8 s)

theorem routingRun_goes (hdenied : c.denied = false)
    (hread : engProbe c ((routingSrc c).map fun a => (a, .read)) s = none) (hclean : engReadStop c (routingSrc c) s = none)
    (hentries : ∀ e ∈ routingEntries c s, reExpert e < rtExperts c.recd ∧ e.2 / 2 ^ 24 % 256 = 0)
    (hwrite : engProbe c ((routingDst c).map fun a => (a, .write)) s = none)
    (hup : ∀ a ∈ routingDst c, engDown a (engHome c .write a s) s = false) :
    routingRun k c s = engCount c (rtSectors c.recd)
      (routingPop k (engWrite c (sortWrites c (routingEntries c s) s) (engAsk c (routingSrc c) s))) := by
  have hgood : ((routingEntries c s).find? fun e => decide (rtExperts c.recd ≤ reExpert e) || e.2 / 2 ^ 24 % 256 != 0) = none := by
    rw [List.find?_eq_none]
    intro e he
    obtain ⟨h1, h2⟩ := hentries e he
    simp only [Bool.or_eq_true, decide_eq_true_iff, bne_iff_ne, not_or, not_not, not_le]
    exact ⟨h1, h2⟩
  unfold routingRun
  rw [deniedAt_none hdenied]
  dsimp only
  rw [show engProbe c ((atomAddrs (rtSrc c.recd) (8 * rtPairs c.recd)).map fun a => (a, .read)) s = none from hread]
  dsimp only
  rw [show engReadStop c (atomAddrs (rtSrc c.recd) (8 * rtPairs c.recd)) s = none from hclean]
  dsimp only
  rw [show (((List.range (rtPairs c.recd)).map fun i => (i, engNat c (rtSrc c.recd + 8 * i : Nat) 8 s)).find? fun e =>
    decide (rtExperts c.recd ≤ reExpert e) || e.2 / 2 ^ 24 % 256 != 0) = none from hgood]
  dsimp only
  rw [show engProbe c ((atomAddrs (rtPerm c.recd) (8 * rtPairs c.recd) ++ atomAddrs (rtCnt c.recd) (4 * rtExperts c.recd) ++
    atomAddrs (rtOffs c.recd) (4 * (rtExperts c.recd + 1))).map fun a => (a, .write)) s = none from hwrite]
  dsimp only
  rw [show ((atomAddrs (rtPerm c.recd) (8 * rtPairs c.recd) ++ atomAddrs (rtCnt c.recd) (4 * rtExperts c.recd) ++
    atomAddrs (rtOffs c.recd) (4 * (rtExperts c.recd + 1))).find? fun a => engDown a (engHome c .write a s) s) = none from
    engProbe_none_of hup]
  rfl

theorem engWrite_frame (c : EngCmd) (l : List (Nat × Byte)) (s : State) : engWrite c l s = { s with
    me := { s.me with
      slots := (engWrite c l s).me.slots, trace := (engWrite c l s).me.trace, lost := (engWrite c l s).me.lost },
    others := (engWrite c l s).others, mem := spSetAll 0 s.mem l, poison := (engWrite c l s).poison,
    asked := (engWrite c l s).asked, replay := (engWrite c l s).replay } := by
  unfold engWrite
  split
  · next h =>
    rw [List.isEmpty_iff.mp h]
    rfl
  · rw [writeBytes_frame]

/-- The handle of a command counts. -/
theorem engCount_frame (c : EngCmd) (n : Nat) (s : State) : engCount c n s = { s with
    me := { s.me with slots := (engCount c n s).me.slots, handles := (engCount c n s).me.handles } } := by
  unfold engCount
  split
  · unfold hCount
    dsimp only
    split
    · rfl
    · split <;> rfl
  · rfl

/-- A cluster's routing engine has run its head command. -/
theorem gives_routingRun (hrq : (clusterAt s k).rq = c :: rest) (hcore : c.core = s.me.num) (hready : c.ready ≤ s.clock)
    (hfault : c.fault = none) (hdenied : c.denied = false)
    (hread : engProbe c ((routingSrc c).map fun a => (a, .read)) s = none) (hclean : engReadStop c (routingSrc c) s = none)
    (hentries : ∀ e ∈ routingEntries c s, reExpert e < rtExperts c.recd ∧ e.2 / 2 ^ 24 % 256 = 0)
    (hwrite : engProbe c ((routingDst c).map fun a => (a, .write)) s = none)
    (hup : ∀ a ∈ routingDst c, engDown a (engHome c .write a s) s = false) :
    Gives (exec (.routingRun k) s) fun t => (clusterAt t k).rq = rest ∧
      t.mem = spSetAll 0 s.mem (sortWrites c (routingEntries c s) s) ∧ t.me.pool = s.me.pool := by
  have hrun := routingRun_goes (k := k) hdenied hread hclean hentries hwrite hup
  obtain ⟨w, hw⟩ : ∃ w, w = engWrite c (sortWrites c (routingEntries c s) s) (engAsk c (routingSrc c) s) := ⟨_, rfl⟩
  have hwframe := engWrite_frame c (sortWrites c (routingEntries c s) s) (engAsk c (routingSrc c) s)
  rw [← hw] at hrun hwframe
  have hwclusters : w.clusters = s.clusters := by rw [hwframe]; rfl
  obtain ⟨v, hv⟩ : ∃ v, v = routingPop k w := ⟨_, rfl⟩
  have hvframe : v = { setCluster k { clusterAt w k with rq := (clusterAt w k).rq.drop 1 } w with
      me := { w.me with slots := v.me.slots }, others := v.others } := by
    rw [hv]
    exact queueFreed_frame .routing _ _
  have hcframe := engCount_frame c (rtSectors c.recd) v
  rw [← hv] at hrun
  generalize engCount c (rtSectors c.recd) v = u at *
  have hnum : (routingRun k c s).me.num = s.me.num := by
    rw [hrun, hcframe, hvframe, hwframe]
    rfl
  have hexec : exec (.routingRun k) s = .next u := by
    show execRoutingRun k s = _
    have hstep : canStep s c = true := by
      unfold canStep
      rw [hfault, decide_eq_true hready]
      rfl
    unfold execRoutingRun
    rw [hrq]
    dsimp only
    rw [if_pos hstep, hcore, withCore_own hnum, hrun]
  refine ⟨u, hexec, ?_, ?_, ?_⟩
  · have hclusters : clusterAt u k = { clusterAt w k with rq := (clusterAt w k).rq.drop 1 } := by
      rw [hcframe, hvframe]
      exact clusterAt_setCluster k _ w
    have hold : clusterAt w k = clusterAt s k := by
      unfold clusterAt
      rw [hwclusters]
    rw [hclusters, hold, hrq]
    rfl
  · rw [hcframe, hvframe, hwframe]
    rfl
  · rw [hcframe, hvframe, hwframe]
    rfl

end

/-! ## Reprojected pixels (R202) -/

/-- The key at a plain address has become the smaller one. -/
structure Offered (h key : Nat) (u t : State) : Prop where
  pool : t.me.pool = u.me.pool
  other : ∀ a, a < h ∨ h + 8 ≤ a → memAt t a = memAt u a
  key : ∀ k < 8, memAt t (h + k) = BitVec.ofNat 8 (min key (leNat ((List.range 8).map fun k => byteAt u (h + k))) / 2 ^ (8 * k))

theorem engAmoMinu_offers {c : EngCmd} {va key h : Nat} {u : State} (hat : engAt c .atomic va u = .ok h)
    (hup : engDown va h u = false) (hgood : isBad u h = false) :
    ∃ t, engAmoMinu c va key u = .ok t ∧ Offered h key u t := by
  obtain ⟨old, hold⟩ : ∃ old, old = leNat ((List.range 8).map fun k => byteAt u (h + k)) := ⟨_, rfl⟩
  have hmin : (if key < old then key else old) = min key old := by
    split <;> omega
  obtain ⟨hin, hout⟩ := memAt_blockWrites ⟨c.core, 15, 2⟩ h (leBytes 8 (min key old)) u
  have hframe := engWrite_frame c (blockWrites h (leBytes 8 (min key old))) u
  have hwrite : engWrite c (blockWrites h (leBytes 8 (min key old))) u =
      writeBytes ⟨c.core, 15, 2⟩ (blockWrites h (leBytes 8 (min key old))) u :=
    if_neg (by simp [blockWrites, ← List.length_eq_zero_iff, length_leBytes])
  rw [← hwrite, length_leBytes] at hin hout
  refine ⟨engWrite c (blockWrites h (leBytes 8 (min key old))) u, ?_, ?_, hout, fun k hk => ?_⟩
  · unfold engAmoMinu
    rw [hat]
    dsimp only
    rw [hup, if_neg Bool.false_ne_true, hgood, if_neg Bool.false_ne_true, ← hold, hmin]
    rfl
  · rw [hframe]
  · rw [hin k hk, getElem?_leBytes hk, Nat.pow_mul, ← hold]
    rfl

/-- Where the pixel's key goes. -/
def pixelTarget (c : EngCmd) (key : Nat) : Option (Nat × Machine.Num) :=
  rpTarget c.src (rpW c.recd) (rpH c.recd) (c.done % rpW c.recd) (c.done / rpW c.recd) key

section
variable {c : EngCmd} {key : Nat} {s s' : State} (hkey : engRead c (rpSrc c.recd + 8 * c.done) 8 s = .ok (key, s'))
include hkey

theorem rpPixel_nowhere (h : pixelTarget c key = none) : rpPixel c s = .ok s' := by
  unfold pixelTarget at h
  unfold rpPixel
  dsimp only
  rw [hkey]
  dsimp only
  rw [h]

variable {at_ : Nat} {zd : Machine.Num} (htarget : pixelTarget c key = some (at_, zd))
include htarget

theorem rpPixel_unguided (hguide : rpGuide c.recd = 0) :
    rpPixel c s = engAmoMinu c (rpDst c.recd + 8 * at_) (rpKey zd key) s' := by
  unfold pixelTarget at htarget
  unfold rpPixel
  dsimp only
  rw [hkey]
  dsimp only
  rw [htarget]
  exact if_pos hguide

theorem rpPixel_guided {g : Nat} {u : State} (hguide : rpGuide c.recd ≠ 0)
    (hread : engRead c (rpGuide c.recd + 4 * at_) 4 s' = .ok (g, u)) :
    rpPixel c s = if rpAgrees (rpTol c.recd) (unpack fmtS g) zd then
      engAmoMinu c (rpDst c.recd + 8 * at_) (rpKey zd key) u else .ok u := by
  unfold pixelTarget at htarget
  unfold rpPixel
  dsimp only
  rw [hkey]
  dsimp only
  rw [htarget]
  dsimp only
  rw [if_neg hguide, hread]

end

theorem num_engRead {c : EngCmd} {va n v : Nat} {s t : State} (h : engRead c va n s = .ok (v, t)) : t.me.num = s.me.num := by
  unfold engRead at h
  split at h
  · cases h
  · split at h
    · cases h
    · cases h
      rfl

theorem num_engAmoMinu {c : EngCmd} {va key : Nat} {s t : State} (h : engAmoMinu c va key s = .ok t) :
    t.me.num = s.me.num := by
  unfold engAmoMinu at h
  split at h
  · cases h
  · split at h
    · cases h
    · split at h
      · cases h
      · cases h
        rw [engWrite_frame]

/-- A pixel is taken with the same core acting. -/
theorem num_rpPixel {c : EngCmd} {s t : State} (h : rpPixel c s = .ok t) : t.me.num = s.me.num := by
  unfold rpPixel at h
  dsimp only at h
  split at h
  · cases h
  · next hkey =>
    split at h
    · cases h
      exact num_engRead hkey
    · split at h
      · exact (num_engAmoMinu h).trans (num_engRead hkey)
      · split at h
        · cases h
        · next hguide =>
          split at h
          · exact (num_engAmoMinu h).trans ((num_engRead hguide).trans (num_engRead hkey))
          · cases h
            exact (num_engRead hguide).trans (num_engRead hkey)

/-- Pixels of a run, one after the other, until its end. -/
theorem rpPixels_run {σ : Nat → State} {c : EngCmd} {start n : Nat} (hn : start + n = min (start / 4 * 4 + 4) (rpW c.recd * rpH c.recd))
    (hstep : ∀ i < n, rpPixel { c with done := start + i } (σ i) = .ok (σ (i + 1))) (hpos : 0 < n) :
    ∀ m, n ≤ m → rpPixels { c with done := start } m (σ 0) = ({ c with done := start + n }, σ n, none) := by
  induction n generalizing σ start with
  | zero => omega
  | succ n ih =>
    intro m hm
    obtain ⟨m, rfl⟩ : ∃ m', m = m' + 1 := ⟨m - 1, by omega⟩
    have hfirst : rpPixel { c with done := start } (σ 0) = .ok (σ 1) := hstep 0 (by omega)
    unfold rpPixels
    rw [hfirst]
    dsimp only
    by_cases hlast : n = 0
    · subst hlast
      rw [if_pos (by omega)]
    · have hnext := ih (σ := fun i => σ (i + 1)) (start := start + 1) (by omega)
        (fun i hi => by
          have h := hstep (i + 1) (by omega)
          rw [← Nat.add_assoc, Nat.add_right_comm] at h
          exact h) (by omega) m (by omega)
      rw [if_neg (by omega), hnext, Nat.add_right_comm, Nat.add_assoc]

/-! ## A run of the reprojection unit (R201, R202) -/

/-- The command with the bytes at MAT read. -/
def matRead (c : EngCmd) (s : State) : EngCmd :=
  if c.found = 1 then c else
    { c with found := 1, src := BitVec.ofNat 512 (leNat (engBytes c (rpMat c.recd) 64 s)) }

section
variable {c : EngCmd} {s : State}

theorem matRead_keeps (c : EngCmd) (s : State) : (matRead c s).recd = c.recd ∧ (matRead c s).done = c.done ∧
    (matRead c s).core = c.core := by
  unfold matRead
  split <;> exact ⟨rfl, rfl, rfl⟩

theorem rpReadMat_ok (h : c.found = 1 ∨ (engProbe c ((atomAddrs (rpMat c.recd) 64).map fun a => (a, .read)) s = none ∧
    engReadStop c (atomAddrs (rpMat c.recd) 64) s = none)) : rpReadMat c s = .ok (matRead c s) := by
  unfold rpReadMat matRead
  by_cases hf : c.found = 1
  · rw [if_pos hf, if_pos hf]
  · obtain ⟨hprobe, hread⟩ := h.resolve_left hf
    rw [if_neg hf, if_neg hf]
    dsimp only
    rw [hprobe]
    dsimp only
    rw [hread]

theorem reprojPop_frame (d : Nat) (s : State) : reprojPop d s = { s with
    me := { s.me with slots := (reprojPop d s).me.slots }, others := (reprojPop d s).others,
    dies := (setDie d { dieAt s d with pq := (dieAt s d).pq.drop 1 } s).dies } := by
  have h := queueFreed_frame .reproj (fun c => dieOf c == d) (setDie d { dieAt s d with pq := (dieAt s d).pq.drop 1 } s)
  exact h

/-- What a run of pixels leaves in the queue of its die. -/
structure RunOver (d : Nat) (c : EngCmd) (n : Nat) (w u : State) : Prop where
  mem : u.mem = w.mem
  pool : u.me.pool = w.me.pool
  num : u.me.num = w.me.num
  last : c.done + n = rpW c.recd * rpH c.recd → (dieAt u d).pq = (dieAt w d).pq.drop 1
  next : c.done + n < rpW c.recd * rpH c.recd → ∃ c' : EngCmd, (dieAt u d).pq = c' :: (dieAt w d).pq.drop 1 ∧
    c'.recd = c.recd ∧ c'.src = c.src ∧ c'.done = c.done + n

/-- The record goes on, or is over, after a run of pixels. -/
def afterRun (d : Nat) (c : EngCmd) (s : State) : State :=
  if c.done = rpW c.recd * rpH c.recd then engCount c 1 (reprojPop d s)
  else
    let (c', s') := nextStep { c with fault := none, denied := false } s
    reprojHead d c' (engCount c' 1 s')

theorem runOver_afterRun (d : Nat) (c : EngCmd) (n : Nat) (w : State) :
    RunOver d c n w (afterRun d { c with done := c.done + n } w) := by
  unfold afterRun
  dsimp only
  by_cases hlast : c.done + n = rpW c.recd * rpH c.recd
  · rw [if_pos hlast]
    have hpop := reprojPop_frame d w
    generalize reprojPop d w = v at *
    rw [engCount_frame]
    refine ⟨?_, ?_, ?_, fun _ => ?_, fun h => absurd hlast (by omega)⟩
    · rw [hpop]
    · rw [hpop]
    · rw [hpop]
    · rw [hpop]
      exact congrArg Die.pq (dieAt_setDie d _ w)
  · rw [if_neg hlast]
    obtain ⟨k, ds, hdelay⟩ := popDelay_eq w
    unfold nextStep
    rw [hdelay]
    dsimp only
    obtain ⟨v, hv⟩ : ∃ v, v = engCount { c with done := c.done + n, fault := none, denied := false, ready := w.clock + 1 + k } 1
      { w with delays := ds } := ⟨_, rfl⟩
    have hframe := engCount_frame { c with done := c.done + n, fault := none, denied := false, ready := w.clock + 1 + k } 1
      { w with delays := ds }
    rw [← hv] at hframe ⊢
    refine ⟨?_, ?_, ?_, fun h => absurd h hlast, fun _ => ⟨{ c with
      done := c.done + n, fault := none, denied := false, ready := w.clock + 1 + k }, ?_, rfl, rfl, rfl⟩⟩
    · show v.mem = w.mem
      rw [hframe]
    · show v.me.pool = w.me.pool
      rw [hframe]
    · show v.me.num = w.me.num
      rw [hframe]
    · have hdies : dieAt v d = dieAt w d := by rw [hframe]; rfl
      rw [← hdies]
      exact congrArg Die.pq (dieAt_setDie d _ v)

variable {d : Nat} {rest : List EngCmd} {σ : Nat → State}

/-- The pixels that a run takes. -/
def runLength (c : EngCmd) : Nat := min (4 - c.done % 4) (rpW c.recd * rpH c.recd - c.done)

theorem reprojRun_goes (hdenied : c.denied = false)
    (hmat : c.found = 1 ∨ (engProbe c ((atomAddrs (rpMat c.recd) 64).map fun a => (a, .read)) s = none ∧
      engReadStop c (atomAddrs (rpMat c.recd) 64) s = none))
    (hmore : c.done < rpW c.recd * rpH c.recd)
    (h0 : σ 0 = if c.done = 0 then engAsk (matRead c s) (atomAddrs (rpMat c.recd) 64) s else s)
    (hstep : ∀ i < runLength c, rpPixel { matRead c s with done := c.done + i } (σ i) = .ok (σ (i + 1))) :
    reprojRun d c s = afterRun d { matRead c s with done := c.done + runLength c } (σ (runLength c)) := by
  obtain ⟨hrecd, hdone, -⟩ := matRead_keeps c s
  have hn : 0 < runLength c ∧ runLength c ≤ 4 ∧
      c.done + runLength c = min (c.done / 4 * 4 + 4) (rpW c.recd * rpH c.recd) := by
    unfold runLength
    omega
  have hsame : { matRead c s with done := c.done } = matRead c s := by rw [← hdone]
  have hrun := rpPixels_run (σ := σ) (c := matRead c s) (start := c.done) (n := runLength c) (by rw [hrecd]; exact hn.2.2) hstep
    hn.1 4 hn.2.1
  rw [hsame] at hrun
  unfold reprojRun
  rw [deniedAt_none hdenied]
  dsimp only
  rw [rpReadMat_ok hmat]
  dsimp only
  rw [hdone, hrecd, ← h0, hrun]
  unfold afterRun
  dsimp only
  rw [hrecd]

/-- A die's reprojection unit has taken a run of pixels. -/
theorem gives_reprojRun (hpq : (dieAt s d).pq = c :: rest) (hcore : c.core = s.me.num) (hready : c.ready ≤ s.clock)
    (hfault : c.fault = none) (hdenied : c.denied = false)
    (hmat : c.found = 1 ∨ (engProbe c ((atomAddrs (rpMat c.recd) 64).map fun a => (a, .read)) s = none ∧
      engReadStop c (atomAddrs (rpMat c.recd) 64) s = none))
    (hmore : c.done < rpW c.recd * rpH c.recd)
    (h0 : σ 0 = if c.done = 0 then engAsk (matRead c s) (atomAddrs (rpMat c.recd) 64) s else s)
    (hstep : ∀ i < runLength c, rpPixel { matRead c s with done := c.done + i } (σ i) = .ok (σ (i + 1))) :
    Gives (exec (.reprojRun d) s) fun t => t.mem = (σ (runLength c)).mem ∧ t.me.pool = (σ (runLength c)).me.pool ∧
      (c.done + runLength c = rpW c.recd * rpH c.recd → (dieAt t d).pq = (dieAt (σ (runLength c)) d).pq.drop 1) ∧
      (c.done + runLength c < rpW c.recd * rpH c.recd → ∃ c' : EngCmd,
        (dieAt t d).pq = c' :: (dieAt (σ (runLength c)) d).pq.drop 1 ∧ c'.recd = c.recd ∧ c'.src = (matRead c s).src ∧
          c'.done = c.done + runLength c) := by
  obtain ⟨hrecd, hdone, -⟩ := matRead_keeps c s
  have hgo := reprojRun_goes (d := d) hdenied hmat hmore h0 hstep
  have hover := runOver_afterRun d (matRead c s) (runLength c) (σ (runLength c))
  rw [hdone] at hover
  rw [← hgo] at hover
  have hnums : ∀ i ≤ runLength c, (σ i).me.num = s.me.num := by
    intro i
    induction i with
    | zero =>
      intro _
      rw [h0]
      split <;> rfl
    | succ i ih => exact fun hi => (num_rpPixel (hstep i hi)).trans (ih (Nat.le_of_succ_le hi))
  have hexec : exec (.reprojRun d) s = .next (reprojRun d c s) := by
    show execReprojRun d s = _
    have hready' : canStep s c = true := by
      unfold canStep
      rw [hfault, decide_eq_true hready]
      rfl
    unfold execReprojRun
    rw [hpq]
    dsimp only
    rw [if_pos hready', hcore, withCore_own (hover.num.trans (hnums _ (Nat.le_refl _)))]
  have hlast := hover.last
  have hnext := hover.next
  rw [hrecd, hdone] at hlast hnext
  exact ⟨_, hexec, hover.mem, hover.pool, hlast, hnext⟩

end

end Sys2Proof.Proofs
end

section
/-!
SUPPORT. Collectives of any number of participants (R247, R347 to R350, R374 to R376).
-/

namespace Sys2Proof.Proofs

open Sys2Proof Sys2Proof.Machine Sys2Proof.Laws

/-! ## The collective queues of the dies (R347, R350, R374) -/

/-- What a die knows of its collective commands. -/
structure CollState where
  cq : List CollCmd
  failed : List (Nat × Nat)
  passed : List (Nat × Nat × List (BitVec 16))
  mixed : List (Nat × Nat)

/-- What die d knows of its collective commands. -/
def collAt (s : State) (d : Nat) : CollState :=
  ⟨(dieAt s d).cq, (dieAt s d).failed, (dieAt s d).passed, (dieAt s d).mixed⟩

theorem collAt_congr {s u : State} (h : u.dies = s.dies) : collAt u = collAt s := by
  funext d
  unfold collAt dieAt
  rw [h]

theorem collHead_eq (s : State) (d : Nat) : collHead s d = (collAt s d).cq.head? := rfl

theorem dieAt_setDie_other {d k : Nat} (hk : k ≠ d) (v : Die) (s : State) : dieAt (setDie d v s) k = dieAt s k :=
  spGet_set_other _ _ _ _ _ hk

theorem collAt_setDie (d k : Nat) (v : Die) (s : State) :
    collAt (setDie d v s) k = if k = d then ⟨v.cq, v.failed, v.passed, v.mixed⟩ else collAt s k := by
  split
  · next h =>
    subst h
    unfold collAt
    rw [dieAt_setDie]
  · next h =>
    unfold collAt
    rw [dieAt_setDie_other h]

theorem dies_focus (c : Nat) (s : State) : (focus c s).dies = s.dies := by
  unfold focus
  split <;> rfl

theorem collAt_focus (c : Nat) (s : State) : collAt (focus c s) = collAt s := collAt_congr (dies_focus c s)

theorem collAt_withCore {f : State → State} {c : Nat} {s : State} (hf : collAt (f (focus c s)) = collAt (focus c s)) :
    collAt (withCore c f s) = collAt s := by
  unfold withCore
  rw [collAt_focus, hf, collAt_focus]

theorem collAt_queueFreed (q : QueueId) (at_ : Nat → Bool) (s : State) : collAt (queueFreed q at_ s) = collAt s := rfl

theorem collAt_follow (x : Message) (s : State) : collAt (follow x s) = collAt s := by
  funext d
  unfold collAt
  rw [dieAt_follow]

theorem collAt_logMail (x : Message) (s : State) : collAt (logMail x s) = collAt s :=
  collAt_congr (by rw [(wrote_logMail x s).frame])

theorem collAt_engMessage {c : EngCmd} {type : Nat} {body : List Word} {s : State}
    (htype : waitsInNet (type % 2 ^ 8) = false) : collAt (engMessage c type body s) = collAt s := by
  have hbox : ∀ x : Message, waitsInNet (hdrType x.hdr) = false → collAt (enterBox false x s) = collAt s := by
    intro x hx
    have hp : forPrincipal (logMail x s) false x = false := by
      unfold forPrincipal
      rw [hx]
      rfl
    unfold enterBox enterMail
    dsimp only
    rw [hp, hx]
    split
    · exact collAt_logMail x s
    · rfl
  unfold engMessage
  dsimp only
  split
  · unfold arrive
    dsimp only
    rw [hdrDk_mkHdr, if_pos rfl]
    split
    · rfl
    split
    · exact collAt_follow _ s
    · exact hbox _ (by rw [hdrType_mkHdr]; exact htype)
  · rfl

theorem collAt_progressOf (c : EngCmd) (s : State) : collAt (progressOf c s).2 = collAt s := by
  unfold progressOf
  split <;> rfl

theorem collAt_engFault (c : EngCmd) (cause : BitVec 5) (va : Word) (s : State) : collAt (engFault c cause va s) = collAt s := by
  unfold engFault
  dsimp only
  split
  · exact (collAt_engMessage rfl).trans (collAt_progressOf c s)
  · exact (collAt_engMessage rfl).trans (collAt_progressOf c s)

theorem collAt_collPop (d k : Nat) (s : State) :
    collAt (collPop d s) k = if k = d then { collAt s d with cq := (collAt s d).cq.drop 1 } else collAt s k := by
  unfold collPop
  rw [collAt_queueFreed, collAt_setDie]
  rfl

theorem collAt_setCollHead (d k : Nat) (x : CollCmd) (s : State) :
    collAt (setCollHead d x s) k = if k = d then { collAt s d with cq := x :: (collAt s d).cq.drop 1 } else collAt s k := by
  unfold setCollHead
  rw [collAt_setDie]
  rfl

/-- A fault at a die ends its head, which later matches find. -/
theorem collAt_collFault {d : Nat} {x : CollCmd} {s : State} (hx : collHead s d = some x) (cause : BitVec 5) (va : Word) (k : Nat) :
    collAt (collFault d cause va s) k = if k = d then { collAt s d with
      cq := (collAt s d).cq.drop 1, failed := (collAt s d).failed ++ [(clGid x.cmd.recd, x.order)] } else collAt s k := by
  unfold collFault
  rw [hx]
  dsimp only
  rw [collAt_withCore (collAt_engFault _ _ _ _), collAt_collPop, collAt_setDie, collAt_setDie, if_pos rfl]
  split <;> rfl

/-- A fault at a die drops its head, if it has one, and leaves the other dies' commands. -/
theorem cq_collFault (d k : Nat) (cause : BitVec 5) (va : Word) (s : State) :
    (collAt (collFault d cause va s) k).cq = if k = d then (collAt s d).cq.drop 1 else (collAt s k).cq := by
  cases hx : collHead s d with
  | some x =>
    rw [collAt_collFault hx]
    split <;> rfl
  | none =>
    have hnil : (collAt s d).cq = [] := List.head?_eq_none_iff.mp hx
    unfold collFault
    rw [hx]
    dsimp only
    split
    · next h => rw [h, hnil]; rfl
    · rfl

/-! ### One step for each of several dies -/

/-- Steps that each concern a die of their own give each die what its step gives. -/
theorem foldl_dies {β : Type} {V : State → Nat → β} {R : Nat → β → β → Prop} {g : State → Nat → State}
    (hown : ∀ s k, R k (V s k) (V (g s k) k)) (hother : ∀ s j k, k ≠ j → V (g s j) k = V s k) {l : List Nat} (hl : l.Nodup)
    (s : State) (k : Nat) : (k ∈ l → R k (V s k) (V (l.foldl g s) k)) ∧ (k ∉ l → V (l.foldl g s) k = V s k) := by
  induction l generalizing s with
  | nil => exact ⟨nofun, fun _ => rfl⟩
  | cons j l ih =>
    obtain ⟨hj, hl⟩ := List.nodup_cons.mp hl
    obtain ⟨hin, hout⟩ := ih hl (g s j)
    rw [List.foldl_cons]
    constructor
    · intro hk
      by_cases hkj : k = j
      · subst hkj
        rw [hout hj]
        exact hown s k
      · rw [← hother s j k hkj]
        exact hin ((List.mem_cons.mp hk).resolve_left hkj)
    · intro hk
      rw [List.mem_cons, not_or] at hk
      rw [hout hk.2, hother s j k hk.1]

/-! ## A participant reads its group list (R374) -/

theorem groupRises_iff (l : List (BitVec 16)) :
    groupRises l = true ↔ l.Pairwise (fun a b => a.toNat < b.toNat) ∧ ∀ e ∈ l, e.toNat < 2 ^ 13 := by
  induction l with
  | nil => simp [groupRises]
  | cons x l ih =>
    cases l with
    | nil => simp [groupRises]
    | cons y l =>
      have hstep : groupRises (x :: y :: l) = true ↔ x.toNat < 2 ^ 13 ∧ x.toNat < y.toNat ∧ groupRises (y :: l) = true := by
        rw [groupRises, Bool.and_eq_true, Bool.and_eq_true, decide_eq_true_iff, decide_eq_true_iff, and_assoc]
      rw [hstep, ih]
      constructor
      · rintro ⟨hx, hxy, hl, hsmall⟩
        refine ⟨List.pairwise_cons.mpr ⟨fun z hz => ?_, hl⟩, List.forall_mem_cons.mpr ⟨hx, hsmall⟩⟩
        rcases List.mem_cons.mp hz with rfl | hz
        · exact hxy
        · exact hxy.trans ((List.pairwise_cons.mp hl).1 z hz)
      · rintro ⟨hl, hsmall⟩
        obtain ⟨hlt, hl⟩ := List.pairwise_cons.mp hl
        obtain ⟨hx, hsmall⟩ := List.forall_mem_cons.mp hsmall
        exact ⟨hx, hlt y List.mem_cons_self, hl, hsmall⟩

section
variable {d : Nat} {c : EngCmd} {l : List (BitVec 16)} {s : State}

/-- The list rises and names the die. -/
def Rises (d : Nat) (l : List (BitVec 16)) (s : State) : Prop :=
  l.Pairwise (fun a b => a.toNat < b.toNat) ∧ (∀ e ∈ l, e.toNat < 2 ^ 13) ∧ ∃ e ∈ l, grPkg e = s.pkg ∧ grDie e = d

theorem rises_iff : (!groupRises l || !(l.any fun e => grPkg e == s.pkg && grDie e == d)) = true ↔ ¬Rises d l s := by
  have hany : (l.any fun e => grPkg e == s.pkg && grDie e == d) = true ↔ ∃ e ∈ l, grPkg e = s.pkg ∧ grDie e = d := by
    simp [List.any_eq_true]
  rw [Bool.or_eq_true, Bool.not_eq_true', Bool.not_eq_true', ← Bool.not_eq_true, ← Bool.not_eq_true, groupRises_iff, hany]
  unfold Rises
  rw [← not_and_or, and_assoc]

theorem groupFault_falls (h : ¬Rises d l s) : groupFault d c l s = some (.fault cCmdReserved (clGrp c.recd : Int)) :=
  if_pos (rises_iff.mpr h)

theorem groupFault_rises (h : Rises d l s) : groupFault d c l s =
    ((List.range l.length).find? fun i => !inGroup s ((l[i]?).getD 0)).map fun i =>
      EngStop.fault cPerm (clGrp c.recd + 2 * i : Nat) := by
  unfold groupFault
  rw [if_neg (fun hr => rises_iff.mp hr h)]
  cases (List.range l.length).find? fun i => !inGroup s ((l[i]?).getD 0) <;> rfl

end

/-- A list all of whose entries belong to the group has none that does not. -/
theorem find?_inGroup_none {l : List (BitVec 16)} {s : State} (h : ∀ e ∈ l, inGroup s e = true) :
    ((List.range l.length).find? fun i => !inGroup s ((l[i]?).getD 0)) = none := by
  rw [List.find?_eq_none]
  intro i hi
  have hlt := List.mem_range.mp hi
  rw [List.getElem?_eq_getElem hlt, Option.getD_some, h _ (List.getElem_mem hlt)]
  exact Bool.false_ne_true

theorem canStep_of_ready {c : EngCmd} {s : State} (hready : c.ready ≤ s.clock) (hfault : c.fault = none) :
    canStep s c = true := by
  unfold canStep
  rw [hfault, decide_eq_true hready]
  rfl

section
variable {d : Nat} {x : CollCmd} {rest : List CollCmd} {s : State} (hcq : (dieAt s d).cq = x :: rest)
  (hready : x.cmd.ready ≤ s.clock) (hfault : x.cmd.fault = none)
include hcq

theorem collHead_of_cq : collHead s d = some x := by
  unfold collHead
  rw [hcq]
  rfl

include hready hfault

theorem exec_collectiveStart_list {remote : List RemoteRank} (hnew : x.started = false) (hnone : x.group = []) :
    exec (.collectiveStart d remote) s = .next (readList d x s) := by
  show execCollectiveStart d remote s = _
  unfold execCollectiveStart
  rw [collHead_of_cq hcq]
  dsimp only
  rw [if_neg (by simp [hnew, canStep_of_ready hready hfault]), if_pos (by simp [hnone])]

theorem exec_collectiveStart_match {remote : List RemoteRank} (hnew : x.started = false) (hlist : x.group ≠ []) :
    exec (.collectiveStart d remote) s = matchHead d x remote s := by
  show execCollectiveStart d remote s = _
  unfold execCollectiveStart
  rw [collHead_of_cq hcq]
  dsimp only
  rw [if_neg (by simp [hnew, canStep_of_ready hready hfault]), if_neg (by simpa using hlist)]

end

theorem collStop_fault (d : Nat) (x : CollCmd) (cause : BitVec 5) (va : Nat) (s : State) :
    collStop [d] d x (.fault cause (va : Int)) s = collFault d cause (BitVec.ofNat 64 va) s := by
  unfold collStop collFaultAll
  dsimp only
  rw [List.foldl_cons, List.foldl_nil, if_pos rfl, BitVec.ofInt_natCast]

theorem pkg_focus (c : Nat) (s : State) : (focus c s).pkg = s.pkg := by
  unfold focus
  split <;> rfl

theorem inGroup_focus (c : Nat) (s : State) : inGroup (focus c s) = inGroup s := by
  unfold focus
  split <;> rfl

section
variable {d : Nat} {x : CollCmd} {s : State} (hdenied : x.cmd.denied = false)
  (hread : collReads x.cmd (clGrp x.cmd.recd) (2 * clParts x.cmd.recd) (focus x.cmd.core s) = none)
include hdenied hread

theorem listStop_eq : listStop d x.cmd (focus x.cmd.core s) =
    groupFault d x.cmd (groupList x.cmd (focus x.cmd.core s)) (focus x.cmd.core s) := by
  unfold listStop
  rw [deniedAt_none hdenied]
  dsimp only
  rw [hread]
  rfl

theorem readList_falls (h : ¬Rises d (groupList x.cmd (focus x.cmd.core s)) s) :
    readList d x s = collFault d cCmdReserved (BitVec.ofNat 64 (clGrp x.cmd.recd)) s := by
  have hf : ¬Rises d (groupList x.cmd (focus x.cmd.core s)) (focus x.cmd.core s) := by
    unfold Rises at h ⊢
    rw [pkg_focus]
    exact h
  unfold readList
  dsimp only
  rw [listStop_eq hdenied hread, groupFault_falls hf]
  exact collStop_fault d x _ _ s

variable (hrises : Rises d (groupList x.cmd (focus x.cmd.core s)) s)
include hrises

theorem listStop_rises : listStop d x.cmd (focus x.cmd.core s) =
    ((List.range (groupList x.cmd (focus x.cmd.core s)).length).find? fun i =>
      !inGroup s (((groupList x.cmd (focus x.cmd.core s))[i]?).getD 0)).map fun i =>
      EngStop.fault cPerm (clGrp x.cmd.recd + 2 * i : Nat) := by
  have hf : Rises d (groupList x.cmd (focus x.cmd.core s)) (focus x.cmd.core s) := by
    unfold Rises at hrises ⊢
    rw [pkg_focus]
    exact hrises
  rw [listStop_eq hdenied hread, groupFault_rises hf, inGroup_focus]

theorem readList_outside {i : Nat} (hi : ((List.range (groupList x.cmd (focus x.cmd.core s)).length).find? fun i =>
      !inGroup s (((groupList x.cmd (focus x.cmd.core s))[i]?).getD 0)) = some i) :
    readList d x s = collFault d cPerm (BitVec.ofNat 64 (clGrp x.cmd.recd + 2 * i)) s := by
  unfold readList
  dsimp only
  rw [listStop_rises hdenied hread hrises, hi]
  exact collStop_fault d x _ _ s

theorem readList_reads (hin : ∀ e ∈ groupList x.cmd (focus x.cmd.core s), inGroup s e = true) :
    (∀ h, memAt (readList d x s) h = memAt s h) ∧
    (dieAt (readList d x s) d).cq = { x with group := groupList x.cmd (focus x.cmd.core s) } :: (dieAt s d).cq.drop 1 := by
  obtain ⟨l, hl⟩ : ∃ l, l = groupList x.cmd (focus x.cmd.core s) := ⟨_, rfl⟩
  obtain ⟨w, hw⟩ : ∃ w, w = withCore x.cmd.core (engAsk x.cmd (atomAddrs (clGrp x.cmd.recd) (2 * clParts x.cmd.recd))) s :=
    ⟨_, rfl⟩
  have hgo : readList d x s = setCollHead d { x with group := l } w := by
    unfold readList
    dsimp only
    rw [listStop_rises hdenied hread hrises, find?_inGroup_none hin, hl, hw]
    rfl
  have hmem : w.mem = s.mem := by
    rw [hw]
    exact withCore_mem (f := engAsk x.cmd _) (fun _ => rfl) _ _
  have hcoll : collAt w = collAt s := by
    rw [hw]
    exact collAt_withCore rfl
  rw [hgo, ← hl]
  refine ⟨fun h => ?_, ?_⟩
  · show spGet 0 w.mem h = _
    rw [hmem]
    rfl
  · show (collAt (setCollHead d _ w) d).cq = _
    rw [collAt_setCollHead, if_pos rfl, hcoll]
    rfl

end

/-! ## The start of a collective (R247, R347, R374) -/

/-- Two records that match: kind, and but for A2AV format, operation and count. -/
def Agrees (r q : Rec) : Prop :=
  engKind q = engKind r ∧ (engKind r = 0x40 ∨ (arFmt q = arFmt r ∧ arOp q = arOp r ∧ arCount q = arCount r))

theorem differ_iff (rank : Nat) (x : CollCmd) (q : RemoteRank) :
    differ (rankHead rank x) q = false ↔ q.group = x.group ∧ Agrees x.cmd.recd q.recd := by
  unfold differ rankHead Agrees isA2av
  simp only [Bool.or_eq_false_iff, Bool.and_eq_false_iff, bne_eq_false_iff_eq, Bool.not_eq_false', beq_iff_eq]
  constructor
  · rintro ⟨⟨hkind, hgroup⟩, h⟩
    refine ⟨hgroup.symm, hkind.symm, h.imp id fun ⟨⟨h1, h2⟩, h3⟩ => ⟨h1.symm, h2.symm, h3.symm⟩⟩
  · rintro ⟨hgroup, hkind, h⟩
    exact ⟨⟨hkind.symm, hgroup.symm⟩, h.imp id fun ⟨h1, h2, h3⟩ => ⟨⟨h1.symm, h2.symm⟩, h3.symm⟩⟩

/-- A participant of this package starts. -/
def startOne (remote : List RemoteRank) (s : State) (d : Nat) : State :=
  match collHead s d with
  | some x =>
    let (x, s) := collGoOn x s
    setCollHead d { x with started := true, ranks := remote } s
  | none => s

theorem startAll_eq (dies : List Nat) (remote : List RemoteRank) (s : State) :
    startAll dies remote s = dies.foldl (startOne remote) s := rfl

theorem collGoOn_eq (x : CollCmd) (s : State) : ∃ n ds, collGoOn x s =
    ({ x with cmd := { x.cmd with fault := none, denied := false, ready := s.clock + 1 + n } }, { s with delays := ds }) := by
  obtain ⟨n, ds, h⟩ := popDelay_eq s
  refine ⟨n, ds, ?_⟩
  unfold collGoOn nextStep
  rw [h]

/-- A head that has started is the same command, and those behind it stay. -/
def StartedAs (remote : List RemoteRank) (v v' : CollState) : Prop :=
  ∀ y, v.cq.head? = some y → v'.cq.drop 1 = v.cq.drop 1 ∧ ∃ z, v'.cq.head? = some z ∧ z.started = true ∧ z.ranks = remote ∧
    z.group = y.group ∧ z.read = y.read ∧ z.wrote = y.wrote ∧ z.order = y.order ∧ z.cmd.recd = y.cmd.recd ∧
    z.cmd.core = y.cmd.core

theorem startOne_own (remote : List RemoteRank) (s : State) (k : Nat) :
    StartedAs remote (collAt s k) (collAt (startOne remote s k) k) := by
  intro y hy
  have hhead : collHead s k = some y := hy
  obtain ⟨n, ds, hgo⟩ := collGoOn_eq y s
  unfold startOne
  rw [hhead]
  dsimp only
  rw [hgo]
  dsimp only
  rw [collAt_setCollHead, if_pos rfl]
  exact ⟨rfl, _, rfl, rfl, rfl, rfl, rfl, rfl, rfl, rfl, rfl⟩

theorem startOne_other (remote : List RemoteRank) (s : State) (j k : Nat) (hk : k ≠ j) :
    collAt (startOne remote s j) k = collAt s k := by
  unfold startOne
  cases hj : collHead s j with
  | none => rfl
  | some y =>
    obtain ⟨n, ds, hgo⟩ := collGoOn_eq y s
    dsimp only
    rw [hgo]
    dsimp only
    rw [collAt_setCollHead, if_neg hk]
    rfl

theorem mem_startOne (remote : List RemoteRank) (s : State) (k : Nat) : (startOne remote s k).mem = s.mem := by
  unfold startOne
  cases collHead s k with
  | none => rfl
  | some y =>
    obtain ⟨n, ds, hgo⟩ := collGoOn_eq y s
    dsimp only
    rw [hgo]
    rfl

section
variable {d : Nat} {x : CollCmd} {remote : List RemoteRank} {s : State}

/-- The command with the GID and position of the head of die d stands at the head of die k. -/
def Present (s : State) (x : CollCmd) (k : Nat) : Bool := headMatches s (clGid x.cmd.recd) x.order k

variable (hmixed : (clGid x.cmd.recd, x.order) ∉ (dieAt s d).mixed)
  (hpassed : ∀ k ∈ localDies s x.group, ∀ e ∈ (dieAt s k).passed, ¬(e.1 = clGid x.cmd.recd ∧ e.2.1 = x.order))
  (hremote : ∀ q ∈ remote, q.failed = false)
include hmixed hpassed hremote

omit hremote in
theorem notPassed : ((dieAt s d).mixed.contains (clGid x.cmd.recd, x.order) ||
    passedOther s (clGid x.cmd.recd) x.order x.group) = false := by
  have hother : passedOther s (clGid x.cmd.recd) x.order x.group = false := by
    unfold passedOther
    rw [List.any_eq_false]
    intro k hk
    rw [Bool.not_eq_true, List.any_eq_false]
    intro e he
    have := hpassed k hk e he
    simp only [Bool.and_eq_true, beq_iff_eq, not_and]
    exact fun h1 => absurd h1 this
  rw [hother, Bool.or_false]
  simpa using hmixed

omit hmixed hpassed in
theorem noneFailed : (remote.any fun q => q.failed) = false := by
  rw [List.any_eq_false]
  intro q hq
  rw [hremote q hq]
  exact Bool.false_ne_true

omit hremote in
theorem matchHead_failed (habsent : ∃ k ∈ localDies s x.group, Present s x k = false)
    (hfailed : ∃ k ∈ localDies s x.group, (clGid x.cmd.recd, x.order) ∈ (dieAt s k).failed) :
    matchHead d x remote s = .next (collFault d cSchedule 0 s) := by
  have hall : (localDies s x.group).all (headMatches s (clGid x.cmd.recd) x.order) = false := by
    obtain ⟨k, hk, hno⟩ := habsent
    exact List.all_eq_false.mpr ⟨k, hk, by rw [Bool.not_eq_true]; exact hno⟩
  have hany : ((localDies s x.group).any fun d => (dieAt s d).failed.contains (clGid x.cmd.recd, x.order)) = true := by
    obtain ⟨k, hk, hf⟩ := hfailed
    exact List.any_eq_true.mpr ⟨k, hk, by simpa using hf⟩
  unfold matchHead
  dsimp only
  rw [notPassed hmixed hpassed, if_neg Bool.false_ne_true, hall, Bool.false_and, if_neg Bool.false_ne_true, hany,
    Bool.true_or, if_pos rfl]

theorem matchHead_waits (habsent : ∃ k ∈ localDies s x.group, Present s x k = false)
    (hfailed : ∀ k ∈ localDies s x.group, (clGid x.cmd.recd, x.order) ∉ (dieAt s k).failed) :
    matchHead d x remote s = .refused (.notDue "COLLECTIVE_START") := by
  obtain ⟨k, hk, hno⟩ := habsent
  have hall : (localDies s x.group).all (headMatches s (clGid x.cmd.recd) x.order) = false :=
    List.all_eq_false.mpr ⟨k, hk, by rw [Bool.not_eq_true]; exact hno⟩
  have hall' : ((localDies s x.group).all fun d => headMatches s (clGid x.cmd.recd) x.order d && (listAt s d).isSome) = false :=
    List.all_eq_false.mpr ⟨k, hk, by
      rw [show headMatches s (clGid x.cmd.recd) x.order k = false from hno, Bool.false_and]
      exact Bool.false_ne_true⟩
  have hany : ((localDies s x.group).any fun d => (dieAt s d).failed.contains (clGid x.cmd.recd, x.order)) = false := by
    rw [List.any_eq_false]
    intro k hk
    simpa using hfailed k hk
  unfold matchHead
  dsimp only
  rw [notPassed hmixed hpassed, if_neg Bool.false_ne_true, hall, Bool.false_and, if_neg Bool.false_ne_true, hany,
    noneFailed hremote, Bool.or_false, if_neg Bool.false_ne_true, hall', Bool.not_false, Bool.true_or, if_pos rfl]

variable (hlist : x.group ≠ [])
  (hall : ∀ k ∈ localDies s x.group, Present s x k = true ∧ (∀ y, collHead s k = some y → y.group = x.group) ∧
    (clGid x.cmd.recd, x.order) ∉ (dieAt s k).failed)
  (honly : ∀ k < 8, k ∉ localDies s x.group → Present s x k = false)
  (hranks : ∀ i < x.group.length, grPkg ((x.group[i]?).getD 0) ≠ s.pkg → ∃ q ∈ remote, q.rank = i)
include hlist hall

omit hmixed hpassed hremote in
theorem listAt_present {k : Nat} (hk : k ∈ localDies s x.group) : listAt s k = some x.group := by
  obtain ⟨hpresent, hgroup, -⟩ := hall k hk
  unfold Present headMatches at hpresent
  unfold listAt
  cases hy : collHead s k with
  | none =>
    rw [hy] at hpresent
    cases hpresent
  | some y =>
    dsimp only
    rw [hgroup y hy, if_neg (by simpa using hlist)]

include honly

omit hmixed hpassed hremote in
/-- No participant has read another list. -/
theorem listsAbout_same : (listsAbout s (clGid x.cmd.recd) x.order x.group).any (· != x.group) = false := by
  rw [List.any_eq_false]
  intro m hm
  unfold listsAbout at hm
  obtain ⟨k, hk, hm⟩ := List.mem_filterMap.mp hm
  obtain ⟨hlt, hpresent⟩ := List.mem_filter.mp hk
  have hin : k ∈ localDies s x.group := by
    by_contra hnot
    have hno : headMatches s (clGid x.cmd.recd) x.order k = false := honly k (List.mem_range.mp hlt) hnot
    rw [hno] at hpresent
    cases hpresent
  rw [listAt_present hlist hall hin] at hm
  dsimp only at hm
  split at hm
  · cases hm
    simp
  · cases hm

include hranks

/-- With every participant's list read, the records decide. -/
theorem matchHead_decides : matchHead d x remote s =
    if (remote ++ (localDies s x.group).filterMap fun d => (collHead s d).map (rankHead (rankIn s x.group d))).any
        (differ (rankHead (rankIn s x.group d) x)) then
      .next ((localDies s x.group).foldl (fun u k => collFault k cCmdReserved (drawWord s).1 u) (drawWord s).2)
    else .next (startAll (localDies s x.group) remote s) := by
  have hall' : ((localDies s x.group).all fun d => headMatches s (clGid x.cmd.recd) x.order d && (listAt s d).isSome) = true := by
    rw [List.all_eq_true]
    intro k hk
    rw [listAt_present hlist hall hk, show headMatches s (clGid x.cmd.recd) x.order k = true from (hall k hk).1]
    rfl
  have hany : ((localDies s x.group).any fun d => (dieAt s d).failed.contains (clGid x.cmd.recd, x.order)) = false := by
    rw [List.any_eq_false]
    intro k hk
    simpa using (hall k hk).2.2
  have hthere : ((List.range x.group.length).all fun i =>
      grPkg ((x.group[i]?).getD 0) == s.pkg || remote.any fun q => q.rank == i) = true := by
    rw [List.all_eq_true]
    intro i hi
    by_cases hp : grPkg ((x.group[i]?).getD 0) = s.pkg
    · rw [beq_iff_eq.mpr hp, Bool.true_or]
    · obtain ⟨q, hq, hr⟩ := hranks i (List.mem_range.mp hi) hp
      rw [Bool.or_eq_true, List.any_eq_true]
      exact .inr ⟨q, hq, beq_iff_eq.mpr hr⟩
  unfold matchHead
  dsimp only
  rw [notPassed hmixed hpassed, if_neg Bool.false_ne_true, listsAbout_same hlist hall honly, Bool.and_false,
    if_neg Bool.false_ne_true, hany, noneFailed hremote, Bool.or_false, if_neg Bool.false_ne_true, hall', hthere,
    Bool.not_true, Bool.or_false, if_neg Bool.false_ne_true]

omit hmixed hpassed hremote hlist honly hranks in
/-- The records agree if each participant's does. -/
theorem anyDiffers_iff : (remote ++ (localDies s x.group).filterMap fun d => (collHead s d).map (rankHead (rankIn s x.group d))).any
      (differ (rankHead (rankIn s x.group d) x)) = false ↔
    (∀ q ∈ remote, q.group = x.group ∧ Agrees x.cmd.recd q.recd) ∧
      ∀ k ∈ localDies s x.group, ∀ y, collHead s k = some y → Agrees x.cmd.recd y.cmd.recd := by
  rw [List.any_append, Bool.or_eq_false_iff, List.any_eq_false, List.any_eq_false]
  simp only [Bool.not_eq_true, differ_iff]
  refine and_congr Iff.rfl ⟨fun h k hk y hy => ?_, fun h q hq => ?_⟩
  · exact (h (rankHead (rankIn s x.group k) y) (List.mem_filterMap.mpr ⟨k, hk, by rw [hy]; rfl⟩)).2
  · obtain ⟨k, hk, hq⟩ := List.mem_filterMap.mp hq
    obtain ⟨y, hy, rfl⟩ := Option.map_eq_some_iff.mp hq
    exact ⟨(hall k hk).2.1 y hy, h k hk y hy⟩

end

/-! ## The handles of every core -/

/-- The handles of core c. -/
def handlesOf (s : State) (c : Nat) : Sp Handle := (coreOf s c).handles

theorem hGet_focus (c h : Nat) (s : State) : hGet (focus c s) h = spGet freeHandle (handlesOf s c) h := by
  unfold hGet handlesOf focus coreOf
  split <;> rfl

theorem handlesOf_focus (c j : Nat) (s : State) : handlesOf (focus c s) j = handlesOf s j := by
  unfold focus
  split
  · rfl
  next hne =>
    by_cases hj : j = c
    · subst hj
      simp only [handlesOf, coreOf, if_true, hne, if_false]
    · by_cases hn : j = s.me.num
      · subst hn
        simp only [handlesOf, coreOf, if_true, hj, if_false, spGet_set_same, Option.getD_some]
      · simp only [handlesOf, coreOf, hj, hn, if_false, spGet_set_other _ _ _ _ _ hn, spGet_set_other _ _ _ _ _ hj]

theorem handlesOf_mapped {s t : State} {g : Nat → Core → Core} (hg : ∀ k m, (g k m).handles = m.handles)
    (hothers : t.others = s.others.map fun e => (e.1, e.2.map (g e.1))) (hme : t.me.handles = s.me.handles)
    (hnum : t.me.num = s.me.num) : handlesOf t = handlesOf s := by
  funext c
  simp only [handlesOf, coreOf, hnum, hothers, spGet_mapKey none (fun k => Option.map (g k)) fun _ => rfl]
  split
  · exact hme
  · cases spGet none s.others c with
    | none => rfl
    | some m => exact hg c m

theorem handlesOf_same {s t : State} (hothers : t.others = s.others) (hme : t.me.handles = s.me.handles)
    (hnum : t.me.num = s.me.num) : handlesOf t = handlesOf s := by
  funext c
  simp only [handlesOf, coreOf, hnum, hothers]
  split
  · exact hme
  · rfl

theorem handlesOf_queueFreed (q : QueueId) (at_ : Nat → Bool) (s : State) : handlesOf (queueFreed q at_ s) = handlesOf s := by
  have hothers : (queueFreed q at_ s).others =
      s.others.map fun e => (e.1, e.2.map fun m => if at_ e.1 then wakeCore s.clock (fun w => w == .queue q) m else m) := by
    refine List.map_congr_left fun e _ => ?_
    by_cases h : at_ e.1 = true
    · simp only [h, if_true]
    · obtain ⟨k, v⟩ := e
      simp only [h]
      cases v <;> rfl
  have hframe := queueFreed_frame q at_ s
  refine handlesOf_mapped (g := fun k m => if at_ k then wakeCore s.clock (fun w => w == .queue q) m else m) (fun k m => ?_)
    hothers (by rw [hframe]) (by rw [hframe])
  split <;> rfl

theorem handlesOf_traceAtom (w : Writer) (a : Nat) (s : State) : handlesOf (traceAtom w a s) = handlesOf s := by
  have hpush : ∀ e m, (tracePush e m).handles = m.handles ∧ (tracePush e m).num = m.num := by
    intro e m
    unfold tracePush
    split <;> exact ⟨rfl, rfl⟩
  unfold traceAtom
  split
  · next c hc =>
    split
    · rfl
    dsimp only
    split
    · exact handlesOf_same rfl (hpush _ _).1 (hpush _ _).2
    · next hne =>
      funext j
      unfold handlesOf coreOf
      dsimp only
      by_cases hj : j = c
      · subst hj
        rw [if_neg hne, if_neg hne, spGet_set_same, Option.getD_some, (hpush _ _).1]
      · rw [spGet_set_other _ _ _ _ _ hj]
  · rfl

theorem handlesOf_writeBytes (w : Writer) (l : List (Nat × Byte)) (s : State) :
    handlesOf (writeBytes w l s) = handlesOf s := by
  have hwake : ∀ p u, handlesOf (wakeAll p u) = handlesOf u := fun p u =>
    handlesOf_mapped (g := fun _ => wakeCore u.clock p) (fun _ _ => rfl) rfl rfl rfl
  unfold writeBytes
  dsimp only
  rw [hwake]
  exact foldl_keeps (fun s a => handlesOf_traceAtom w a s) _ _

theorem handlesOf_engWrite (c : EngCmd) (l : List (Nat × Byte)) (s : State) : handlesOf (engWrite c l s) = handlesOf s := by
  unfold engWrite
  split
  · rfl
  · exact handlesOf_writeBytes _ _ s

theorem handlesOf_withCore {f : State → State} {c : Nat} {s : State} (hf : handlesOf (f (focus c s)) = handlesOf (focus c s)) :
    handlesOf (withCore c f s) = handlesOf s := by
  funext j
  unfold withCore
  rw [handlesOf_focus, hf, handlesOf_focus]

/-- A change of the handles of one core. -/
theorem handlesOf_withCore_at {f : State → State} {c : Nat} {s : State} (hothers : (f (focus c s)).others = (focus c s).others)
    (hnum : (f (focus c s)).me.num = c) (j : Nat) :
    handlesOf (withCore c f s) j = if j = c then (f (focus c s)).me.handles else handlesOf s j := by
  unfold withCore
  rw [handlesOf_focus]
  unfold handlesOf coreOf
  rw [hnum, hothers]
  split
  · rfl
  · next hj =>
    have h := handlesOf_focus c j s
    unfold handlesOf coreOf at h
    rw [focus_num, if_neg hj] at h
    exact h

/-! ## A participant is complete (R348, R376) -/

/-- The command's handle has its state, if it is still the one that the command took. -/
def ownHandle (s : State) (c : EngCmd) : Handle := spGet freeHandle (handlesOf s c.core) (cmdHnd c)

/-- Between two states no handle has another generation, and none that was FULL is anything else. -/
structure KeepsFull (s t : State) : Prop where
  gen : ∀ j h, (spGet freeHandle (handlesOf t j) h).gen = (spGet freeHandle (handlesOf s j) h).gen
  full : ∀ j h, (spGet freeHandle (handlesOf s j) h).st = .full → (spGet freeHandle (handlesOf t j) h).st = .full

theorem KeepsFull.refl (s : State) : KeepsFull s s := ⟨fun _ _ => rfl, fun _ _ => id⟩

theorem KeepsFull.trans {s t u : State} (h : KeepsFull s t) (g : KeepsFull t u) : KeepsFull s u :=
  ⟨fun j k => (g.gen j k).trans (h.gen j k), fun j k hk => g.full j k (h.full j k hk)⟩

theorem keepsFull_of_handles {s t : State} (h : handlesOf t = handlesOf s) : KeepsFull s t := by
  constructor <;> intros <;> simp_all

/-- At its end a command's own handle is FULL, and no handle has another generation. -/
theorem keepsFull_engFull (c : EngCmd) (n : Nat) (s : State) : KeepsFull s (withCore c.core (engFull c n) s) ∧
    ((ownHandle s c).gen = c.gen → (ownHandle (withCore c.core (engFull c n) s) c).st = .full) := by
  obtain ⟨w, hw⟩ : ∃ w, w = focus c.core s := ⟨_, rfl⟩
  have hget : ∀ h, spGet freeHandle (handlesOf s c.core) h = hGet w h := fun h => by rw [hw, hGet_focus]
  have hframe : (engFull c n w).others = w.others ∧ (engFull c n w).me.num = w.me.num := by
    unfold engFull
    dsimp only
    split
    · exact ⟨rfl, rfl⟩
    · exact ⟨rfl, rfl⟩
  have hat : ∀ j, handlesOf (withCore c.core (engFull c n) s) j =
      if j = c.core then (engFull c n w).me.handles else handlesOf s j := by
    intro j
    rw [hw] at hframe ⊢
    exact handlesOf_withCore_at hframe.1 (hframe.2.trans (focus_num s c.core)) j
  have hnew : ∀ h, spGet freeHandle (engFull c n w).me.handles h =
      if (hGet w (cmdHnd c)).gen = c.gen ∧ h = cmdHnd c then
        { hGet w (cmdHnd c) with st := .full, counted := BitVec.ofNat 28 n, expected := BitVec.ofNat 28 n }
      else hGet w h := by
    intro h
    show hGet (engFull c n w) h = _
    unfold engFull
    dsimp only
    by_cases hgen : (hGet w (cmdHnd c)).gen = c.gen
    · rw [if_pos hgen]
      by_cases hh : h = cmdHnd c
      · rw [if_pos ⟨hgen, hh⟩, hh, hGet_hSet_same]
      · rw [if_neg fun h' => hh h'.2, hGet_hSet_other _ _ _ _ hh]
    · rw [if_neg hgen, if_neg fun h' => hgen h'.1]
  refine ⟨⟨fun j h => ?_, fun j h hfull => ?_⟩, fun hgen => ?_⟩
  · rw [hat]
    split
    · next hj =>
      rw [hnew, hj, hget]
      split
      · next hh => rw [hh.2]
      · rfl
    · rfl
  · rw [hat]
    split
    · next hj =>
      rw [hnew]
      split
      · rfl
      · rw [← hget, ← hj]
        exact hfull
    · exact hfull
  · unfold ownHandle at hgen ⊢
    rw [hget] at hgen
    rw [hat, if_pos rfl, hnew, if_pos ⟨hgen, rfl⟩]

/-! ## A participant reads its input (R247, R347) -/

/-- What a participant brings: its input, or what it sends to each rank. -/
def brings (rank : Nat) (x : CollCmd) (sc : State) : RemoteRank :=
  { rank := rank, recd := x.cmd.recd, group := x.group, failed := false
    input := if engKind x.cmd.recd = 0x40 then [] else engBytes x.cmd (arSrc x.cmd.recd) (arIn x.cmd.recd) sc
    sends := if engKind x.cmd.recd = 0x40 then (List.range (clParts x.cmd.recd)).map fun p =>
        engBytes x.cmd (avSbuf x.cmd.recd + engNat x.cmd (avScnt x.cmd.recd + 8 * p : Nat) 8 sc / 2 ^ 32 : Nat)
          (engNat x.cmd (avScnt x.cmd.recd + 8 * p : Nat) 8 sc % 2 ^ 32) sc
      else [] }

theorem rankOf_eq (rank : Nat) (x : CollCmd) (sc : State) : rankOf rank x sc = brings rank x sc := by
  unfold rankOf brings rankHead isA2av
  by_cases h : engKind x.cmd.recd = 0x40
  · simp only [h, beq_self_eq_true, if_true]
    rfl
  · simp only [h, beq_eq_false_iff_ne.mpr h, if_false, Bool.false_eq_true]

/-- What a participant brings reaches one participant of this package. -/
def shareOne (n : Nat) (q : RemoteRank) (s : State) (d : Nat) : State :=
  match collHead s d with
  | some x => setCollHead d { x with ranks := inRankOrder n (x.ranks ++ [q]) } s
  | none => s

theorem shareRank_eq (n : Nat) (q : RemoteRank) (dies : List Nat) (s : State) :
    shareRank n q dies s = dies.foldl (shareOne n q) s := rfl

/-- A head with one more participant's contribution. -/
def SharedAs (n : Nat) (q : RemoteRank) (v v' : CollState) : Prop :=
  ∀ y, v.cq.head? = some y → v'.cq.head? = some { y with ranks := inRankOrder n (y.ranks ++ [q]) }

theorem shareOne_own (n : Nat) (q : RemoteRank) (s : State) (k : Nat) :
    SharedAs n q (collAt s k) (collAt (shareOne n q s k) k) := by
  intro y hy
  have hhead : collHead s k = some y := hy
  unfold shareOne
  rw [hhead]
  dsimp only
  rw [collAt_setCollHead, if_pos rfl]
  rfl

theorem shareOne_other (n : Nat) (q : RemoteRank) (s : State) (j k : Nat) (hk : k ≠ j) :
    collAt (shareOne n q s j) k = collAt s k := by
  unfold shareOne
  cases collHead s j with
  | none => rfl
  | some y =>
    dsimp only
    rw [collAt_setCollHead, if_neg hk]

theorem mem_shareOne (n : Nat) (q : RemoteRank) (s : State) (k : Nat) : (shareOne n q s k).mem = s.mem := by
  unfold shareOne
  cases collHead s k <;> rfl

theorem collAt_tellRanks (l : List (BitVec 16)) (s : State) : collAt (tellRanks l s) = collAt s := by
  have hsend : ∀ (s : State) p, collAt (sendTo p 0 none s) = collAt s := by
    intro s p
    unfold sendTo
    split
    · next port _ =>
      obtain ⟨ls, ds, n, h⟩ := sendFlit_frame port 0 p none s
      rw [h]
      rfl
    · rfl
  exact foldl_keeps hsend _ s

theorem mem_tellRanks (l : List (BitVec 16)) (s : State) : (tellRanks l s).mem = s.mem :=
  foldl_keeps (p := State.mem) (fun s p => sendTo_mem p 0 none s) _ s

section
variable {d : Nat} {x : CollCmd} {rest : List CollCmd} {s : State} (hcq : (dieAt s d).cq = x :: rest)
  (hready : x.cmd.ready ≤ s.clock) (hfault : x.cmd.fault = none) (hdenied : x.cmd.denied = false)
  (hstarted : x.started = true)
include hcq hready hfault hstarted

theorem exec_collectiveComplete_reads (hread : x.read = false) :
    exec (.collectiveComplete d) s = .next (readInput d x s) := by
  show execCollectiveComplete d s = _
  unfold execCollectiveComplete
  rw [collHead_of_cq hcq]
  dsimp only
  rw [if_neg (by simp [hstarted, canStep_of_ready hready hfault]), if_pos (by simp [hread])]

theorem exec_collectiveComplete_writes (hread : x.read = true) (hwrote : x.wrote = false)
    (hall : allHeads s (·.read) x = true) : exec (.collectiveComplete d) s = .next (writeOutput d x s) := by
  show execCollectiveComplete d s = _
  unfold execCollectiveComplete
  rw [collHead_of_cq hcq]
  dsimp only
  rw [if_neg (by simp [hstarted, canStep_of_ready hready hfault]), if_neg (by simp [hread]), if_pos (by simp [hwrote, hall])]

include hdenied

omit hcq hready hfault hstarted in
theorem readInput_stops {cause : BitVec 5} {va : Int}
    (hstop : inputStop x.cmd (focus x.cmd.core s) = some (.fault cause va)) :
    readInput d x s = collFaultAll (localDies s x.group) d cause (BitVec.ofInt 64 va) s := by
  unfold readInput
  dsimp only
  rw [deniedAt_none hdenied]
  simp only [bind, Option.bind, Option.map, Option.orElse, hstop]
  rfl

/-- What a participant's reading leaves: memory as it was, its own head marked, and its part at every participant's head. -/
structure InputRead (d : Nat) (x : CollCmd) (s t : State) : Prop where
  mem : t.mem = s.mem
  heads : ∀ k ∈ localDies s x.group, ∀ y, collHead s k = some y → ∃ z, collHead t k = some z ∧
    z.read = (if k = d then true else y.read) ∧ z.wrote = y.wrote ∧ z.started = y.started ∧
    z.ranks = inRankOrder x.group.length (y.ranks ++ [brings (rankIn s x.group d) x (focus x.cmd.core s)])

omit hready hfault hstarted in
theorem readInput_reads (hnodup : (localDies s x.group).Nodup) (hstop : inputStop x.cmd (focus x.cmd.core s) = none) :
    InputRead d x s (readInput d x s) := by
  obtain ⟨q, hq⟩ : ∃ q, q = brings (rankIn s x.group d) x (focus x.cmd.core s) := ⟨_, rfl⟩
  obtain ⟨w, hw⟩ : ∃ w, w = withCore x.cmd.core (fun s => engAsk x.cmd (inputReads x.cmd s) s) s := ⟨_, rfl⟩
  obtain ⟨n, ds, hgo⟩ := collGoOn_eq x w
  obtain ⟨x', hx'⟩ : ∃ x', x' = { x with cmd := { x.cmd with fault := none, denied := false, ready := w.clock + 1 + n } } := ⟨_, rfl⟩
  rw [← hx'] at hgo
  obtain ⟨v, hv⟩ : ∃ v, v = setCollHead d { x' with read := true } { w with delays := ds } := ⟨_, rfl⟩
  obtain ⟨u, hu⟩ : ∃ u, u = shareRank x.group.length q (localDies s x.group) v := ⟨_, rfl⟩
  have hgroup : x'.group = x.group := by rw [hx']
  have hread : readInput d x s = if allHeads u (·.read) x' then tellRanks x.group u else u := by
    unfold readInput
    dsimp only
    rw [deniedAt_none hdenied]
    simp only [bind, Option.bind, Option.map, Option.orElse, hstop]
    rw [← hw, hgo, rankOf_eq, ← hq]
    dsimp only
    rw [← hv, hgroup, ← hu]
  have hwmem : w.mem = s.mem := by
    rw [hw]
    exact withCore_mem (f := fun s => engAsk x.cmd (inputReads x.cmd s) s) (fun _ => rfl) _ _
  have hwcoll : collAt w = collAt s := by
    rw [hw]
    exact collAt_withCore rfl
  have hvcoll : ∀ k, collAt v k = if k = d then { collAt s d with cq := { x' with read := true } :: (collAt s d).cq.drop 1 }
      else collAt s k := by
    intro k
    have hdelay : collAt { w with delays := ds } = collAt s := hwcoll
    rw [hv, collAt_setCollHead, hdelay]
  have humem : u.mem = s.mem := by
    rw [hu, shareRank_eq]
    refine (foldl_keeps (p := State.mem) (fun s k => mem_shareOne _ q s k) _ v).trans ?_
    rw [hv]
    exact hwmem
  have hucoll : ∀ k ∈ localDies s x.group, SharedAs x.group.length q (collAt v k) (collAt u k) := fun k hk => by
    rw [hu, shareRank_eq]
    exact (foldl_dies (shareOne_own _ q) (shareOne_other _ q) hnodup v k).1 hk
  have hfinal : (readInput d x s).mem = u.mem ∧ collAt (readInput d x s) = collAt u := by
    rw [hread]
    split
    · exact ⟨mem_tellRanks _ _, collAt_tellRanks _ _⟩
    · exact ⟨rfl, rfl⟩
  refine ⟨hfinal.1.trans humem, fun k hk y hy => ?_⟩
  have hshared := hucoll k hk
  rw [hvcoll] at hshared
  rw [collHead_eq, hfinal.2, ← hq]
  by_cases hkd : k = d
  · subst hkd
    have hyx : y = x := by
      rw [collHead_of_cq hcq] at hy
      exact (Option.some.inj hy).symm
    rw [if_pos rfl] at hshared
    refine ⟨_, hshared _ rfl, ?_, ?_, ?_, ?_⟩
    · rw [if_pos rfl]
    · rw [hyx, hx']
    · rw [hyx, hx']
    · rw [hyx, hx']
  · rw [if_neg hkd] at hshared
    refine ⟨_, hshared y hy, ?_, rfl, rfl, rfl⟩
    rw [if_neg hkd]

end

/-! ## A participant writes its results (R247, R348, R349) -/

theorem allHeads_iff (s : State) (p : CollCmd → Bool) (x : CollCmd) : allHeads s p x = true ↔
    ∀ k ∈ localDies s x.group, ∃ y, collHead s k = some y ∧ clGid y.cmd.recd = clGid x.cmd.recd ∧ y.order = x.order ∧
      p y = true := by
  unfold allHeads
  rw [List.all_eq_true]
  refine forall₂_congr fun k _ => ?_
  cases collHead s k with
  | none => simp
  | some y => simp [and_assoc]

/-- What a participant of a rank writes: the regions with their bytes. -/
def results (x : CollCmd) (rank : Nat) : List (Nat × List Byte) :=
  let r := x.cmd.recd
  let fold (i : Nat) : List Byte := leBytes (arE r) (foldElem r x.ranks i)
  let blocks := x.ranks.map fun q => (q.sends[rank]?).getD []
  let part := arCount r / clParts r
  if engKind r = 0x40 then [(avRbuf r, blocks.flatten.take (avRcap r)),
    (avRcnt r, (List.range blocks.length).flatMap fun p => leBytes 8
      (((blocks.take p).map List.length).foldl (· + ·) 0 % 2 ^ 32 * 2 ^ 32 + ((blocks[p]?).getD []).length))]
  else if engKind r = 0x42 then [(arDst r, x.ranks.flatMap fun q => q.input)]
  else if engKind r = 0x43 then [(arDst r, ((List.range part).map (rank * part + ·)).flatMap fold)]
  else [(arDst r, (List.range (arCount r)).flatMap fold)]

theorem foldBytes_other {r : Rec} (ranks : List RemoteRank) (rank : Nat) (h1 : engKind r ≠ 0x42) (h2 : engKind r ≠ 0x43) :
    foldBytes r ranks rank = (List.range (arCount r)).flatMap fun i => leBytes (arE r) (foldElem r ranks i) := by
  unfold foldBytes
  split
  · next h => exact absurd h h1
  · next h => exact absurd h h2
  · rfl

theorem collRegions_eq (s : State) (d : Nat) (x : CollCmd) : collRegions s d x = results x (rankIn s x.group d) := by
  unfold collRegions results isA2av
  by_cases h40 : engKind x.cmd.recd = 0x40
  · simp only [h40, beq_self_eq_true, if_true]
    rfl
  simp only [beq_eq_false_iff_ne.mpr h40, h40, if_false, Bool.false_eq_true]
  by_cases h42 : engKind x.cmd.recd = 0x42
  · rw [if_pos h42]
    unfold foldBytes
    rw [h42]
    rfl
  rw [if_neg h42]
  by_cases h43 : engKind x.cmd.recd = 0x43
  · rw [if_pos h43]
    unfold foldBytes
    rw [h43]
    rfl
  rw [if_neg h43, foldBytes_other _ _ h42 h43]

/-! ### Every participant is complete -/

/-- A participant that is complete leaves its queue with its handle FULL, and the others stay. -/
structure DoneAt (d : Nat) (s t : State) : Prop where
  mem : t.mem = s.mem
  own : (collAt t d).cq = (collAt s d).cq.drop 1
  others : ∀ k, k ≠ d → collAt t k = collAt s k
  keeps : KeepsFull s t
  full : ∀ y, collHead s d = some y → (ownHandle s y.cmd).gen = y.cmd.gen → (ownHandle t y.cmd).st = .full

theorem collAt_engFull (c : EngCmd) (n : Nat) (s : State) : collAt (engFull c n s) = collAt s := by
  unfold engFull
  dsimp only
  split <;> rfl

theorem mem_engFull (c : EngCmd) (n : Nat) (s : State) : (engFull c n s).mem = s.mem := (told_engFull c n s).mem

theorem doneAt_collDone (d : Nat) (s : State) : DoneAt d s (collDone d s) := by
  cases hy : collHead s d with
  | none =>
    have hsame : collDone d s = s := by
      unfold collDone
      rw [hy]
    have hnil : (collAt s d).cq = [] := List.head?_eq_none_iff.mp hy
    rw [hsame]
    exact ⟨rfl, by rw [hnil]; rfl, fun _ _ => rfl, KeepsFull.refl s, fun y h => by rw [hy] at h; cases h⟩
  | some y =>
    obtain ⟨v, n, hv, hgo⟩ : ∃ v n, v = setDie d { dieAt s d with
        passed := (dieAt s d).passed ++ [(clGid y.cmd.recd, y.order, y.group)] } s ∧
        collDone d s = collPop d (withCore y.cmd.core (engFull y.cmd n) v) := by
      refine ⟨_, if isA2av y.cmd.recd then ((collRegions s d y).map fun g => (g.2.length + 31) / 32).foldl (· + ·) 0
        else clExpected y.cmd.recd, rfl, ?_⟩
      unfold collDone
      rw [hy]
    obtain ⟨w, hw⟩ : ∃ w, w = withCore y.cmd.core (engFull y.cmd n) v := ⟨_, rfl⟩
    have hvcoll : ∀ k, collAt v k = if k = d then { collAt s d with
        passed := (dieAt s d).passed ++ [(clGid y.cmd.recd, y.order, y.group)] } else collAt s k := fun k => by
      rw [hv, collAt_setDie]
      rfl
    have hwcoll : collAt w = collAt v := by
      rw [hw]
      exact collAt_withCore (collAt_engFull _ _ _)
    have hwmem : w.mem = s.mem := by
      rw [hw, hv]
      exact withCore_mem (f := engFull y.cmd n) (mem_engFull y.cmd n) _ _
    obtain ⟨hkeeps, hfull⟩ := keepsFull_engFull y.cmd n v
    rw [← hw] at hkeeps hfull
    have hvhandles : handlesOf v = handlesOf s := by rw [hv]; rfl
    have hphandles : handlesOf (collPop d w) = handlesOf w := by
      unfold collPop
      rw [handlesOf_queueFreed]
      rfl
    have hpop := keepsFull_of_handles hphandles
    rw [hgo, ← hw]
    refine ⟨hwmem, ?_, fun k hk => ?_, ((keepsFull_of_handles hvhandles).trans hkeeps).trans hpop, fun z hz hgen => ?_⟩
    · rw [collAt_collPop, if_pos rfl, hwcoll, hvcoll, if_pos rfl]
    · rw [collAt_collPop, if_neg hk, hwcoll, hvcoll, if_neg hk]
    · have hyz : y = z := Option.some.inj (hy.symm.trans hz)
      subst hyz
      have hv' : (ownHandle v y.cmd).gen = y.cmd.gen := by
        unfold ownHandle
        rw [hvhandles]
        exact hgen
      exact hpop.full _ _ (hfull hv')

/-- With every participant complete each has left its queue, and its handle is FULL if it was its command's. -/
theorem done_all {l : List Nat} (hl : l.Nodup) (s : State) : (l.foldl (fun s d => collDone d s) s).mem = s.mem ∧
    KeepsFull s (l.foldl (fun s d => collDone d s) s) ∧
    ∀ k ∈ l, (collAt (l.foldl (fun s d => collDone d s) s) k).cq = (collAt s k).cq.drop 1 ∧
      ∀ y, collHead s k = some y → (ownHandle s y.cmd).gen = y.cmd.gen →
        (ownHandle (l.foldl (fun s d => collDone d s) s) y.cmd).st = .full := by
  induction l generalizing s with
  | nil => exact ⟨rfl, KeepsFull.refl s, nofun⟩
  | cons j l ih =>
    obtain ⟨hj, hl'⟩ := List.nodup_cons.mp hl
    obtain ⟨hmem, hown, hothers, hkeeps, hfull⟩ := doneAt_collDone j s
    obtain ⟨hmem', hkeeps', hall⟩ := ih hl' (collDone j s)
    have hrest := (foldl_dies (V := collAt) (R := fun _ _ _ => True) (g := fun s d => collDone d s) (fun _ _ => trivial)
      (fun s j k hk => (doneAt_collDone j s).others k hk) hl' (collDone j s)) j
    rw [List.foldl_cons]
    refine ⟨hmem'.trans hmem, hkeeps.trans hkeeps', fun k hk => ?_⟩
    by_cases hkj : k = j
    · subst hkj
      refine ⟨?_, fun y hy hgen => hkeeps'.full _ _ (hfull y hy hgen)⟩
      rw [hrest.2 hj, hown]
    · have hkl : k ∈ l := (List.mem_cons.mp hk).resolve_left hkj
      obtain ⟨hcq, hst⟩ := hall k hkl
      have hsame : collAt (collDone j s) k = collAt s k := hothers k hkj
      refine ⟨by rw [hcq, hsame], fun y hy hgen => hst y ?_ ?_⟩
      · rw [collHead_eq, hsame]
        exact hy
      · exact (hkeeps.gen _ _).trans hgen

section
variable {d : Nat} {x : CollCmd} {rest : List CollCmd} {s : State} (hcq : (dieAt s d).cq = x :: rest)
  (hdenied : x.cmd.denied = false)
include hdenied

/-- The state with the participant's results written and its head marked. -/
theorem writeOutput_goes
    (hclear : ∀ g ∈ results x (rankIn s x.group d), collWrites x.cmd g.1 g.2.length (focus x.cmd.core s) = none) :
    ∃ w, w.mem = spSetAll 0 s.mem ((results x (rankIn s x.group d)).flatMap fun g => engPut x.cmd g.1 g.2 (focus x.cmd.core s)) ∧
      (∀ k, collAt w k = if k = d then { collAt s d with cq := { x with wrote := true } :: (collAt s d).cq.drop 1 }
        else collAt s k) ∧ handlesOf w = handlesOf s ∧ localDies w x.group = localDies s x.group ∧
      writeOutput d x s = if allHeads w (·.wrote) x then (localDies w x.group).foldl (fun s d => collDone d s) w else w := by
  obtain ⟨out, hout⟩ : ∃ out, out = results x (rankIn s x.group d) := ⟨_, rfl⟩
  rw [← hout] at hclear ⊢
  obtain ⟨v, hv⟩ : ∃ v, v = withCore x.cmd.core (fun s => engWrite x.cmd (out.flatMap fun g => engPut x.cmd g.1 g.2 s) s) s :=
    ⟨_, rfl⟩
  have hstop : writeStop d x s = none := by
    unfold writeStop
    rw [deniedAt_none hdenied, collRegions_eq, ← hout]
    exact List.findSome?_eq_none_iff.mpr hclear
  refine ⟨setCollHead d { x with wrote := true } v, ?_, fun k => ?_, ?_, ?_, ?_⟩
  · show v.mem = _
    rw [hv]
    unfold withCore
    rw [focus_mem, (engWrite_spec x.cmd _ _).1, focus_mem]
  · have hvcoll : collAt v = collAt s := by
      rw [hv]
      refine collAt_withCore (collAt_congr ?_)
      rw [engWrite_frame]
    rw [collAt_setCollHead, hvcoll]
  · show handlesOf v = _
    rw [hv]
    exact handlesOf_withCore (handlesOf_engWrite _ _ _)
  · have hpkg : v.pkg = s.pkg := by
      rw [hv]
      unfold withCore
      rw [pkg_focus]
      dsimp only
      rw [engWrite_frame]
      exact pkg_focus _ s
    unfold localDies
    show (x.group.filter fun e => grPkg e == v.pkg).map grDie = _
    rw [hpkg]
  · unfold writeOutput
    rw [hstop]
    dsimp only
    rw [collRegions_eq, ← hout, ← hv]

/-- What the writing of a participant's results leaves. -/
structure Wrote1 (d : Nat) (x : CollCmd) (s t : State) : Prop where
  mem : t.mem = spSetAll 0 s.mem ((results x (rankIn s x.group d)).flatMap fun g => engPut x.cmd g.1 g.2 (focus x.cmd.core s))
  some_ : (∃ k ∈ localDies s x.group, k ≠ d ∧ ∃ y, collHead s k = some y ∧ y.wrote = false) →
    collHead t d = some { x with wrote := true } ∧ ∀ k, k ≠ d → collHead t k = collHead s k
  all_ : (∀ k ∈ localDies s x.group, k ≠ d → ∃ y, collHead s k = some y ∧ y.wrote = true) →
    ∀ k ∈ localDies s x.group, ∀ y, collHead s k = some y → (dieAt t k).cq = (dieAt s k).cq.drop 1 ∧
      ((ownHandle s y.cmd).gen = y.cmd.gen → (ownHandle t y.cmd).st = .full)

include hcq

theorem writeOutput_writes (hnodup : (localDies s x.group).Nodup) (hall : allHeads s (·.read) x = true)
    (hclear : ∀ g ∈ results x (rankIn s x.group d), collWrites x.cmd g.1 g.2.length (focus x.cmd.core s) = none) :
    Wrote1 d x s (writeOutput d x s) := by
  obtain ⟨w, hmem, hcoll, hhandles, hdies, hgo⟩ := writeOutput_goes hdenied hclear
  have hheadd : collHead w d = some { x with wrote := true } := by
    rw [collHead_eq, hcoll, if_pos rfl]
    rfl
  have hheads : ∀ k, k ≠ d → collHead w k = collHead s k := fun k hk => by
    rw [collHead_eq, hcoll, if_neg hk]
    rfl
  obtain ⟨hdmem, hdkeeps, hdall⟩ := done_all hnodup w
  rw [← hdies] at hdmem hdkeeps hdall
  refine ⟨?_, fun hsome => ?_, fun hwrote k hk y hy => ?_⟩
  · rw [hgo, ← hmem]
    split
    · exact hdmem
    · rfl
  · have hnot : allHeads w (·.wrote) x = false := by
      rw [← Bool.not_eq_true, allHeads_iff, hdies]
      intro h
      obtain ⟨k, hk, hkd, y, hy, hno⟩ := hsome
      obtain ⟨z, hz, -, -, hyes⟩ := h k hk
      rw [hheads k hkd, hy] at hz
      cases hz
      rw [hno] at hyes
      cases hyes
    rw [hgo, hnot, if_neg Bool.false_ne_true]
    exact ⟨hheadd, hheads⟩
  · have hyes : allHeads w (·.wrote) x = true := by
      rw [allHeads_iff, hdies]
      intro j hj
      obtain ⟨z, hz, hgid, horder, -⟩ := (allHeads_iff s (·.read) x).mp hall j hj
      by_cases hjd : j = d
      · subst hjd
        exact ⟨_, hheadd, rfl, rfl, rfl⟩
      · obtain ⟨z', hz', hw⟩ := hwrote j hj hjd
        have hzz : z = z' := Option.some.inj (hz.symm.trans hz')
        rw [← hzz] at hw
        exact ⟨z, (hheads j hjd).trans hz, hgid, horder, hw⟩
    rw [hgo, hyes, if_pos rfl]
    obtain ⟨hdrop, hst⟩ := hdall k (by rw [hdies]; exact hk)
    refine ⟨hdrop.trans ?_, fun hgen => ?_⟩
    · rw [hcoll]
      split
      · next h =>
        rw [h]
        rfl
      · rfl
    · have hown : ∀ c, ownHandle w c = ownHandle s c := fun c => by
        unfold ownHandle
        rw [hhandles]
      by_cases hkd : k = d
      · subst hkd
        have hyx : y = x := Option.some.inj (hy.symm.trans (collHead_of_cq hcq))
        rw [hyx] at hgen ⊢
        exact hst { x with wrote := true } hheadd (by rw [hown]; exact hgen)
      · exact hst y ((hheads k hkd).trans hy) (by rw [hown]; exact hgen)

end

/-- Settles O44: a sort by insertion, runs by what each part of them keeps, and a collective participant by participant,
each of which concerns the queue of its own die. -/
theorem sharedEngineRuns : Obligations.SharedEngineRuns := by
  refine ⟨⟨?_, ?_, ?_, ?_⟩, ?_⟩
  · exact fun l hl => ⟨perm_reSort l, sorted_reSort hl⟩
  · intro k c rest s hrq hcore hready hfault hdenied r src dst l hread hclean hentries hwrite hup
    exact gives_routingRun hrq hcore hready hfault hdenied hread hclean hentries hwrite hup
  · intro c key s s' hkey target
    refine ⟨rpPixel_nowhere hkey, ?_⟩
    intro at_ zd htarget offers
    refine ⟨fun hguide h hat hup hgood => ?_, fun g u hguide hread => ?_⟩
    · obtain ⟨t, ht, hpool, hother, hbytes⟩ := engAmoMinu_offers (key := rpKey zd key) hat hup hgood
      exact ⟨t, (rpPixel_unguided hkey htarget hguide).trans ht, hpool, hother, hbytes⟩
    · have hgo := rpPixel_guided hkey htarget hguide hread
      refine ⟨fun hno => ?_, fun hyes h hat hup hgood => ?_⟩
      · rw [hgo, hno, if_neg Bool.false_ne_true]
      · rw [hyes, if_pos rfl] at hgo
        obtain ⟨t, ht, hpool, hother, hbytes⟩ := engAmoMinu_offers (key := rpKey zd key) hat hup hgood
        exact ⟨t, hgo.trans ht, hpool, hother, hbytes⟩
  · intro d c rest σ s hpq hcore hready hfault hdenied mat pixels c0 n hmat hmore h0 hstep
    exact gives_reprojRun hpq hcore hready hfault hdenied hmat hmore h0 hstep
  intro d x rest s hcq c r sc gid hready hfault hdenied keeps ends
  have hhead := collHead_of_cq hcq
  refine ⟨fun cause va => ?_, ?_, ?_, ?_⟩
  · have h := collAt_collFault hhead cause va d
    rw [if_pos rfl] at h
    refine ⟨(congrArg CollState.cq h).trans ?_, congrArg CollState.failed h⟩
    show (dieAt s d).cq.drop 1 = rest
    rw [hcq]
    rfl
  · intro remote hnew hnone hread l rises
    have hexec := exec_collectiveStart_list (remote := remote) hcq hready hfault hnew hnone
    refine ⟨fun hfalls => ?_, fun i hrises hi => ?_, fun hrises hin => ?_⟩
    · exact hexec.trans (by rw [readList_falls hdenied hread hfalls])
    · exact hexec.trans (by rw [readList_outside hdenied hread hrises hi])
    · obtain ⟨hmem, hlist⟩ := readList_reads hdenied hread hrises hin
      refine ⟨_, hexec, hmem, hlist.trans ?_⟩
      rw [hcq]
      rfl
  · intro remote hnew hlist hd l dies present lists agrees hin hsmall hnodup hmixed hpassed hremote
    have hexec := exec_collectiveStart_match (remote := remote) hcq hready hfault hnew hlist
    refine ⟨fun habsent => ⟨fun hfailed => ?_, fun hnone => ?_⟩, fun hall honly hranks => ?_⟩
    · exact hexec.trans (matchHead_failed hmixed hpassed habsent hfailed)
    · exact hexec.trans (matchHead_waits hmixed hpassed hremote habsent hnone)
    · have hgo := matchHead_decides (d := d) hmixed hpassed hremote hlist hall honly hranks
      intro every
      have hiff := anyDiffers_iff (d := d) (remote := remote) hall
      refine ⟨fun hagree => ?_, fun hdiffer => ?_⟩
      · rw [hiff.mpr hagree, if_neg Bool.false_ne_true] at hgo
        refine ⟨_, hexec.trans hgo, fun h => ?_, fun k hk y hy => ?_⟩
        · unfold memAt
          rw [startAll_eq, foldl_keeps (p := State.mem) (fun s k => mem_startOne remote s k)]
        · obtain ⟨hrest, z, hz, h1, h2, hgroup, h3⟩ :=
            (foldl_dies (startOne_own remote) (startOne_other remote) hnodup s k).1 hk y hy
          rw [startAll_eq]
          exact ⟨hrest, z, hz, h1, h2, hgroup.trans ((hall k hk).2.1 y hy), h3⟩
      · rw [if_pos (by rw [← Bool.not_eq_false]; exact fun h => hdiffer (hiff.mp h))] at hgo
        refine ⟨_, hexec.trans hgo, fun k hk => ?_⟩
        have hfold := (foldl_dies (V := fun s k => (collAt s k).cq) (R := fun _ v v' => v' = v.drop 1)
          (g := fun u k => collFault k cCmdReserved (drawWord s).1 u)
          (fun s k => by rw [cq_collFault, if_pos rfl]) (fun s j k hk => by rw [cq_collFault, if_neg hk]) hnodup
          (drawWord s).2 k).1 hk
        exact hfold
  · intro hstarted hnodup hin dies rank heads
    refine ⟨?_, ?_⟩
    · intro hread q
      refine ⟨fun cause va hstop => ?_, fun hstop => ?_⟩
      · exact (exec_collectiveComplete_reads hcq hready hfault hstarted hread).trans (by rw [readInput_stops hdenied hstop])
      · obtain ⟨hmem, hheads⟩ := readInput_reads hcq hdenied hnodup hstop
        exact ⟨_, exec_collectiveComplete_reads hcq hready hfault hstarted hread, fun h => by unfold memAt; rw [hmem], hheads⟩
    · intro hread hwrote hheads fold blocks part out hclear
      have hall : allHeads s (·.read) x = true := (allHeads_iff s _ x).mpr hheads
      obtain ⟨hmem, hsome, hdone⟩ := writeOutput_writes hcq hdenied hnodup hall hclear
      refine ⟨_, exec_collectiveComplete_writes hcq hready hfault hstarted hread hwrote hall, fun h => ?_, fun h => ?_,
        fun h k hk y hy => ?_⟩
      · unfold memAt
        rw [hmem]
        rfl
      · obtain ⟨h1, h2⟩ := hsome h
        exact ⟨h1, fun k _ hkd => h2 k hkd⟩
      · obtain ⟨h1, h2⟩ := hdone h k hk y hy
        refine ⟨h1, fun hgen => ?_⟩
        rw [hGet_focus] at hgen ⊢
        exact h2 hgen

end Sys2Proof.Proofs
end

section
/-!
SUPPORT. A thread that is parked on a denied page and not yet eligible, which PWAKE does not make so; and what a thread's
departure and its landing on another die do.
-/

namespace Sys2Proof.Proofs

open Sys2Proof Sys2Proof.Machine Sys2Proof.Laws

/-- After reset, a thread in slot 0 that is parked on the fault of page 0 and is not eligible before cycle 8. -/
def earlyFault : State :=
  setSlot 0 { emptySlot with st := .parked (.fault 0 .read), elig := 8 } State.reset

/-- The cycle from which a slot may issue after an outcome. -/
def eligOf (k : Nat) (o : Out State) : Option Nat := match o with | .next t => some (slotOf t k).elig | _ => none

/-- Refutes O45, in its last clause: a PWAKE in cycle 0 leaves the thread not eligible before cycle 8, since a wake never brings
that cycle forward, and the clause says cycle 1 of every thread that is parked on its fault. -/
theorem not_translationsAndWakes : ¬Obligations.TranslationsAndWakes := by
  intro h
  obtain ⟨-, -, -, -, hwake⟩ := h
  obtain ⟨t, ht, -, -, helig, -⟩ := (hwake 0 0 0 false .read earlyFault (by decide) rfl rfl rfl).2 rfl
  have hlate : eligOf 0 (exec (.pwake 0 false 0 0) earlyFault) = some 8 := rfl
  have hearly : eligOf 0 (exec (.pwake 0 false 0 0) earlyFault) = some 1 := by
    rw [show exec (.pwake 0 false 0 0) earlyFault = .next t from ht]
    exact congrArg some helig
  exact absurd (hlate.symm.trans hearly) (by decide)

/-! ## Departure -/

/-- What leaves with the thread of slot k. -/
def departing (k mask : Nat) (s : State) : Migrant :=
  { slot := slotOf s k, words := (List.range (slotOf s k).winSize).map fun j => spGet 0 s.me.pool ((slotOf s k).winBase + j)
    mail := s.me.mbox.filter (isFor k), core := s.me.num, from_ := k, mask := mask }

/-- The state in which the thread's mail has left the mailbox. -/
def mailTaken (k : Nat) (s : State) : State :=
  if (s.me.mbox.filter (isFor k)).isEmpty then s
  else mailboxFreed { s with me := { s.me with mbox := s.me.mbox.filter fun m => !isFor k m } }

theorem depart_eq (k die mask : Nat) (s : State) : depart k die mask s =
    setSlot k { slotOf s k with st := .migrating } (setDie die { dieAt (mailTaken k s) die with
      arrivals := (dieAt (mailTaken k s) die).arrivals ++ [departing k mask s] } (mailTaken k s)) := rfl

theorem mailTaken_frame (k : Nat) (s : State) : mailTaken k s =
    { s with me := { s.me with slots := (mailTaken k s).me.slots, mbox := (mailTaken k s).me.mbox }
             others := (mailTaken k s).others } := by
  unfold mailTaken
  split
  · rfl
  · rfl

theorem isFor_of_mem_mailTaken {k : Nat} {s : State} {m : Message} (h : m ∈ (mailTaken k s).me.mbox) : isFor k m = false := by
  unfold mailTaken at h
  split at h
  case isTrue hnone =>
    rw [List.isEmpty_iff, List.filter_eq_nil_iff] at hnone
    exact Bool.eq_false_iff.2 (hnone m h)
  case isFalse =>
    have hmem : m ∈ s.me.mbox.filter fun m => !isFor k m := h
    simpa using (List.mem_filter.1 hmem).2

theorem depart_spec (k die mask : Nat) (s : State) :
    let t := depart k die mask s
    (slotOf t k).st = .migrating ∧ t.mem = s.mem ∧ t.me.pool = s.me.pool ∧ (∀ m ∈ t.me.mbox, isFor k m = false) ∧
    t.me.posted = s.me.posted ∧ (dieAt t die).arrivals = (dieAt s die).arrivals ++ [departing k mask s] := by
  intro t
  have ht : t = _ := depart_eq k die mask s
  have hdie : dieAt (mailTaken k s) die = dieAt s die := by rw [mailTaken_frame]; rfl
  rw [hdie] at ht
  refine ⟨?_, ?_, ?_, fun m hm => ?_, ?_, ?_⟩
  · rw [ht, slotOf_setSlot_same]
  · rw [ht, mailTaken_frame]
    rfl
  · rw [ht, mailTaken_frame]
    rfl
  · rw [ht] at hm
    exact isFor_of_mem_mailTaken hm
  · rw [ht, mailTaken_frame]
    rfl
  · rw [ht]
    show (dieAt (setDie die _ (mailTaken k s)) die).arrivals = _
    rw [dieAt_setDie]

/-! ## Landing -/

theorem land_eq {g : Migrant} (k b : Nat) (s : State) (hmail : g.mail = []) (hlate : g.late = []) : land g k b s =
    wrSlotRun k 0 g.words (setSlot k (landedSlot s.clock b (slotOf s k).lastIssue g.slot)
      { s with me := { s.me with pool := spClear s.me.pool b g.slot.winSize } }) := by
  unfold land
  rw [hmail, hlate]
  rfl

/-- A landing with no mail writes the thread's window and its slot. -/
theorem land_spec {g : Migrant} (k b : Nat) (s : State) (hmail : g.mail = []) (hlate : g.late = []) :
    let t := land g k b s
    slotOf t k = landedSlot s.clock b (slotOf s k).lastIssue g.slot ∧ (∀ j < g.words.length, some (regAt t k j) = g.words[j]?) ∧
    t = { s with me := { s.me with slots := t.me.slots, pool := t.me.pool } } := by
  intro t
  have ht : t = _ := land_eq k b s hmail hlate
  have hslot : slotOf t k = landedSlot s.clock b (slotOf s k).lastIssue g.slot := by
    rw [ht, slotOf_wrSlotRun, slotOf_setSlot_same]
  refine ⟨hslot, fun j hj => ?_, ?_⟩
  · rw [regAt, hslot, ht]
    have hpool := pool_wrSlotRun k 0 g.words (setSlot k (landedSlot s.clock b (slotOf s k).lastIssue g.slot)
      { s with me := { s.me with pool := spClear s.me.pool b g.slot.winSize } }) j
    rw [slotOf_setSlot_same, if_pos ⟨Nat.zero_le j, by omega⟩, Nat.sub_zero] at hpool
    rw [hpool, List.getElem?_eq_getElem hj]
    rfl
  · rw [ht, wrSlotRun_frame]
    rfl

/-! ## The slot that the thread has left -/

theorem hAbandon_frame (k : Nat) (s : State) :
    hAbandon k s = { s with me := { s.me with slots := (hAbandon k s).me.slots, handles := (hAbandon k s).me.handles } } := by
  have hone : ∀ (s : State) (h : Nat), hAbandonOne h s =
      { s with me := { s.me with slots := (hAbandonOne h s).me.slots, handles := (hAbandonOne h s).me.handles } } := by
    intro s h
    unfold hAbandonOne
    split <;> rfl
  unfold hAbandon
  generalize hOwned s.me k = l
  induction l generalizing s with
  | nil => rfl
  | cons h l ih =>
    rw [List.foldl_cons, ih, hone]

/-- A freed slot changes nothing outside its core. -/
theorem vacate_frame (k : Nat) (s : State) : vacate k s = { s with me := (vacate k s).me } := by
  unfold vacate
  dsimp only
  rw [hAbandon_frame]
  rfl

theorem num_vacate (k : Nat) (s : State) : (vacate k s).me.num = s.me.num := by
  unfold vacate
  dsimp only
  rw [hAbandon_frame]
  rfl

theorem slots_vacate (k : Nat) (s : State) : spGet emptySlot (vacate k s).me.slots k = vacated (slotOf s k) :=
  slotOf_setSlot_same _ _ _

/-- An effect on another core that changes nothing outside it leaves the core acting and everything beside the cores as it is. -/
theorem withCore_other {f : State → State} {c : Nat} {s : State} (hf : f (focus c s) = { focus c s with me := (f (focus c s)).me })
    (hnum : (f (focus c s)).me.num = c) (hc : c ≠ s.me.num) :
    withCore c f s = { s with others := (withCore c f s).others } ∧ coreOf (withCore c f s) c = (f (focus c s)).me := by
  generalize hm : (f (focus c s)).me = m at *
  have hne : s.me.num ≠ c := fun h => hc h.symm
  have hwith : withCore c f s = focus s.me.num { focus c s with me := m } := by rw [withCore, hf]
  rw [hwith]
  constructor
  · simp [focus, coreOf, hc, hne, hnum]
  · simp [focus, coreOf, hc, hne, hnum]

theorem exec_migrationDepart_posted {k die mask : Nat} {s : State} (hst : (slotOf s k).st = .waiting (.migrate die mask))
    (hposted : s.me.posted.any (ownPosted k) = true) :
    exec (.migrationDepart k) s = .refused (.notDue "MIGRATION_DEPART") := by
  show execMigrationDepart k s = _
  unfold execMigrationDepart
  rw [hst, hposted]
  simp only [Bool.or_true, if_pos]

theorem exec_migrationDepart {k die mask : Nat} {s : State} (hst : (slotOf s k).st = .waiting (.migrate die mask))
    (hrelaxed : hasRelaxed s k = false) (hengine : hasEngine s k = false) (hcsub : hasCsub s k = false)
    (hsent : hasSent s k = false) (hposted : s.me.posted.any (ownPosted k) = false) :
    exec (.migrationDepart k) s = .next (depart k die mask s) := by
  show execMigrationDepart k s = _
  unfold execMigrationDepart
  rw [hst, hrelaxed, hengine, hcsub, hsent, hposted]
  rfl

/-- The only migrant of a die has arrived. -/
def arrivedAlone (die : Nat) (s : State) : State := setDie die { dieAt s die with arrivals := [] } s

/-- The only migrant of a die lands where it may. -/
theorem exec_migrationArrival {die c k b : Nat} {g : Migrant} {s : State} (hone : (dieAt s die).arrivals = [g])
    (hland : landing s die g = some (c, k, b)) : exec (.migrationArrival die) s =
      .next (withCore g.core (vacate g.from_) (withCore c (land g k b) (arrivedAlone die s))) := by
  have hfirst : firstLanding s die (dieAt s die).arrivals = some (g, c, k, b) := by
    rw [hone, firstLanding, hland]
  show execMigrationArrival die s = _
  unfold execMigrationArrival
  rw [hfirst, hone]
  dsimp only
  rw [List.erase_cons_head]
  rfl

/-- Settles O46: a departure takes the thread's registers and mail with it; a landing writes its window and its slot, and the
slot that it has left is freed, whose handles wake threads of their own core alone. -/
theorem migrationResults : Obligations.MigrationResults := by
  unfold Obligations.MigrationResults
  refine ⟨fun k die mask s hst hrelaxed hengine hcsub hsent => ⟨exec_migrationDepart_posted hst, fun hposted => ?_⟩,
    fun die k b g s hone hland hcore hmail hlate hwords => ?_⟩
  · have hnone : s.me.posted.any (ownPosted k) = false := List.any_eq_false.2 fun p hp => by simp [hposted p hp]
    obtain ⟨hleft, hmem, hpool, hmbox, hkept, harrive⟩ := depart_spec k die mask s
    exact ⟨_, exec_migrationDepart hst hrelaxed hengine hcsub hsent hnone, hleft, hmem, hpool, hmbox, hkept,
      departing k mask s, harrive, rfl, rfl, rfl, rfl, rfl, rfl⟩
  · refine ⟨_, exec_migrationArrival hone hland, ?_⟩
    obtain ⟨hslot, hregs, hframe⟩ := land_spec k b (arrivedAlone die s) hmail hlate
    generalize hu : land g k b (arrivedAlone die s) = u at *
    have hnum : u.me.num = s.me.num := by rw [hframe]; rfl
    have hown : withCore s.me.num (land g k b) (arrivedAlone die s) = u := by
      rw [← hu]
      exact withCore_own (s := arrivedAlone die s) (hu ▸ hnum)
    have hother : coreOf (arrivedAlone die s) g.core = coreOf s g.core := if_congr Iff.rfl rfl rfl
    have hothers : u.others = s.others := by rw [hframe]; rfl
    have hleave : coreOf u g.core = coreOf s g.core := by
      rw [coreOf, coreOf, hnum, if_neg hcore, if_neg hcore, hothers]
    have hslots : (focus g.core u).me.slots = (coreOf s g.core).slots := by
      rw [focus, hnum, if_neg hcore, hleave]
    obtain ⟨hback, hvacated⟩ := withCore_other (vacate_frame g.from_ _)
      ((num_vacate g.from_ (focus g.core u)).trans (by rw [focus, hnum, if_neg hcore])) (hnum ▸ hcore)
    rw [hown]
    generalize hw : withCore g.core (vacate g.from_) u = w at *
    have hme : w.me = u.me := by rw [hback]
    have hslotw : slotOf w k = landedSlot s.clock b (slotOf s k).lastIssue g.slot := by
      rw [slotOf, hme]
      exact hslot
    rw [hslotw]
    refine ⟨?_, ?_, rfl, rfl, rfl, rfl, rfl, rfl, fun j hj => ?_, rfl, rfl, rfl, ?_, ?_⟩
    · rw [hback, hframe]
      show (dieAt (arrivedAlone die s) die).arrivals = []
      rw [arrivedAlone, dieAt_setDie]
    · rw [hme, hframe]
      rfl
    · have hreg : regAt w k j = regAt u k j := by rw [regAt, regAt, slotOf, slotOf, hme]
      rw [hreg]
      exact (hregs j (hwords ▸ hj)).symm
    · rw [hvacated, slots_vacate, slotOf, hslots]
    · rw [hback, hframe]
      rfl

end Sys2Proof.Proofs
end

section
/-!
SUPPORT. A principal's pass over its launch queue: the words it writes, the record it reads, and the task that it launches; and the
thread that DYNAMIC placement starts.
-/

namespace Sys2Proof.Proofs

open Sys2Proof Sys2Proof.Machine Sys2Proof.Laws

/-! ## A word that a principal writes -/

theorem hostAtom_congr {s t : State} (h : allStripes t = allStripes s) : hostAtom t = hostAtom s := by
  funext a
  rw [hostAtom, hostAtom, h]

theorem wordHomes_congr {s t : State} (h : allStripes t = allStripes s) : wordHomes t = wordHomes s := by
  funext a
  rw [wordHomes, wordHomes, hostAtom_congr h]

theorem Wrote.allStripes {s t : State} (h : Wrote s t) : allStripes t = allStripes s := by
  rw [h.frame]
  rfl

theorem wrote_principalStore (die at_ : Nat) (w : Word) (s : State) : Wrote s (principalStore die at_ w s) :=
  wrote_writeBytes _ _ s

/-- The writes of a word, byte by byte at their homes. -/
theorem toHomes_putWords (s : State) (at_ : Nat) (w : Word) :
    toHomes s (putWords at_ [w]) = (List.range 8).map fun k => (hostAtom s (at_ + k), w.extractLsb' (8 * k) 8) := by
  refine List.ext_getElem (by simp [toHomes, putWords, length_leBytes]) fun k hk hk' => ?_
  have hlt : k < 8 := by simpa using hk'
  have hbyte : (leBytes 8 w.toNat)[k]'(by rwa [length_leBytes]) = w.extractLsb' (8 * k) 8 := by
    rw [← byte_of_word]
    exact List.getElem_eq_iff _ |>.2 (getElem?_leBytes hlt _)
  simp [toHomes, putWords, hbyte]

theorem homes_putWords (s : State) (at_ : Nat) (w : Word) : (toHomes s (putWords at_ [w])).map (·.1) = wordHomes s at_ := by
  rw [toHomes_putWords, List.map_map]
  rfl

theorem stored_principalStore (die at_ : Nat) (w : Word) {s : State} (hn : (wordHomes s at_).Nodup) :
    Machine.Stored s (principalStore die at_ w s) at_ w := by
  intro k hk
  refine memAt_writeBytes_mem _ (toHomes s (putWords at_ [w])) s (by rwa [homes_putWords])
    (hostAtom s (at_ + k), w.extractLsb' (8 * k) 8) ?_
  rw [toHomes_putWords]
  exact List.mem_map.2 ⟨k, List.mem_range.2 hk, rfl⟩

theorem memAt_principalStore_other (die at_ : Nat) (w : Word) {s : State} {a : Nat} (ha : a ∉ wordHomes s at_) :
    memAt (principalStore die at_ w s) a = memAt s a :=
  memAt_writeBytes_other _ _ s a (by rwa [homes_putWords])

theorem Wrote.dieAt {s t : State} (h : Wrote s t) (die : Nat) : dieAt t die = dieAt s die := by
  rw [h.frame]
  rfl

theorem Wrote.net {s t : State} (h : Wrote s t) : t.net = s.net := by
  rw [h.frame]

/-! ## A record that has been consumed (R107, R299) -/

/-- A queue's entries of a die, changed. -/
def queuesWith (base : Nat) (f : LaunchQueue → LaunchQueue) (l : List LaunchQueue) : List LaunchQueue :=
  l.map fun q => if q.base = base then f q else q

theorem dieAt_setQueue (die base : Nat) (f : LaunchQueue → LaunchQueue) (s : State) :
    dieAt (setQueue die base f s) die = { dieAt s die with queues := queuesWith base f (dieAt s die).queues } :=
  dieAt_setDie _ _ _

theorem wrote_logRecord (die : Nat) (q : LaunchQueue) (r : List Word) (s : State) : Wrote s (logRecord die q r s) := by
  unfold logRecord
  split
  · exact (wrote_fw s _).trans (wrote_logBytes 144 _).1
  · exact Wrote.refl s

theorem logRecord_log (die : Nat) (q : LaunchQueue) (r : List Word) (s : State) :
    (s.ctx.fixed = false → logRecord die q r s = s) ∧ (s.ctx.fixed = true →
      (logRecord die q r s).fw.recLog = s.fw.recLog ++ [⟨die, q.number, q.r, r⟩]) := by
  obtain ⟨-, n, hfw⟩ := wrote_logBytes 144 { s with fw := { s.fw with recLog := s.fw.recLog ++ [⟨die, q.number, q.r, r⟩] } }
  unfold logRecord
  refine ⟨fun h => if_neg (by simp [h]), fun h => ?_⟩
  rw [if_pos h, hfw]

/-- What the consuming of a record does: the queue's position, HEAD, and in fixed mode the log. -/
structure Consumed (die : Nat) (q : LaunchQueue) (r : List Word) (s t : State) : Prop where
  dies : dieAt t die =
    { dieAt s die with queues := queuesWith q.base (fun p => { p with r := p.r + 1 }) (dieAt s die).queues }
  net : t.net = s.net
  head : (wordHomes s (headAt q.base die)).Nodup → Machine.Stored s t (headAt q.base die) (BitVec.ofNat 64 (q.r + 1))
  kept : s.ctx.fixed = false → ∀ a, a ∉ wordHomes s (headAt q.base die) → memAt t a = memAt s a
  log : s.ctx.fixed = true → t.fw.recLog = s.fw.recLog ++ [⟨die, q.number, q.r, r⟩]

theorem consumed_consume (die : Nat) (q : LaunchQueue) (r : List Word) (s : State) :
    Consumed die q r s (consume die q r s) := by
  have hqueue := dieAt_setQueue die q.base (fun p => { p with r := p.r + 1 }) s
  have heq : consume die q r s = principalStore die (headAt q.base die) (BitVec.ofNat 64 (q.r + 1))
    (logRecord die q r (setQueue die q.base (fun p => { p with r := p.r + 1 }) s)) := rfl
  generalize hu : setQueue die q.base (fun p => { p with r := p.r + 1 }) s = u at *
  have hframe : u = { s with dies := u.dies } := by rw [← hu]; rfl
  have hlogged := wrote_logRecord die q r u
  obtain ⟨hfree, hfixed⟩ := logRecord_log die q r u
  have hstripes : allStripes (logRecord die q r u) = allStripes s := hlogged.allStripes.trans (by rw [hframe]; rfl)
  have hwrote := hlogged.trans (wrote_principalStore die (headAt q.base die) (BitVec.ofNat 64 (q.r + 1)) _)
  rw [heq]
  refine ⟨(hwrote.dieAt die).trans hqueue, hwrote.net.trans (by rw [hframe]), fun hn => ?_, fun hfix a ha => ?_, fun hfix => ?_⟩
  · have hstored := stored_principalStore die (headAt q.base die) (BitVec.ofNat 64 (q.r + 1))
      (s := logRecord die q r u) (by rwa [wordHomes_congr hstripes])
    rwa [Machine.Stored, hostAtom_congr hstripes] at hstored
  · rw [memAt_principalStore_other _ _ _ (by rwa [wordHomes_congr hstripes]), hfree (by rw [hframe]; exact hfix), hframe]
    rfl
  · have hfw : (principalStore die (headAt q.base die) (BitVec.ofNat 64 (q.r + 1)) (logRecord die q r u)).fw =
        (logRecord die q r u).fw := by
      rw [principalStore, writeBytes_frame]
    rw [hfw, hfixed (by rw [hframe]; exact hfix)]
    rw [hframe]

/-! ## A record that is refused (R108) -/

/-- The state in which a refused record has been counted, and its status word written. -/
def refusalCounted (die : Nat) (q : LaunchQueue) (s : State) : State :=
  principalStore die (statusAt q.base die) (statusWord 0 ((q.badcnt + 1) % 256) 0 q.r)
    (setQueue die q.base (fun p => { p with badcnt := (q.badcnt + 1) % 256 }) s)

theorem refuseRecord_eq (die : Nat) (q : LaunchQueue) (r : List Word) (s : State) :
    refuseRecord die q r s = consume die q r (refusalCounted die q s) := rfl

/-- A word that is stored stays stored where a write keeps clear of it. -/
theorem stored_of_kept {s t u : State} {at_ : Nat} {v : Word} (hstored : Machine.Stored s t at_ v)
    (hkept : ∀ a ∈ wordHomes s at_, memAt u a = memAt t a) : Machine.Stored s u at_ v := fun k hk =>
  (hkept _ (List.mem_map.2 ⟨k, List.mem_range.2 hk, rfl⟩)).trans (hstored k hk)

theorem statusWord_refused (bad last : Nat) :
    statusWord 0 (bad % 256) 0 last = BitVec.ofNat 64 (bad % 256 * 2 ^ 48 + last % 2 ^ 32) := by
  unfold statusWord
  rw [show 0 % 2 ^ 8 * 2 ^ 56 + bad % 256 % 2 ^ 8 * 2 ^ 48 + 0 % 2 ^ 16 * 2 ^ 32 + last % 2 ^ 32 =
    bad % 256 * 2 ^ 48 + last % 2 ^ 32 by omega]

theorem refuseRecord_spec {die : Nat} {q : LaunchQueue} (r : List Word) {s : State} (hq : (dieAt s die).queues = [q]) :
    let t := refuseRecord die q r s
    (dieAt t die).queues = [{ q with r := q.r + 1, badcnt := (q.badcnt + 1) % 256 }] ∧ t.net = s.net ∧
    ((wordHomes s (headAt q.base die)).Nodup → Machine.Stored s t (headAt q.base die) (BitVec.ofNat 64 (q.r + 1))) ∧
    (s.ctx.fixed = false → (wordHomes s (statusAt q.base die) ++ wordHomes s (headAt q.base die)).Nodup →
      Machine.Stored s t (statusAt q.base die) (BitVec.ofNat 64 ((q.badcnt + 1) % 256 * 2 ^ 48 + q.r % 2 ^ 32))) := by
  intro t
  have hqueue := dieAt_setQueue die q.base (fun p => { p with badcnt := (q.badcnt + 1) % 256 }) s
  have ht : t = consume die q r (refusalCounted die q s) := refuseRecord_eq die q r s
  have hcounted : refusalCounted die q s = principalStore die (statusAt q.base die) (statusWord 0 ((q.badcnt + 1) % 256) 0 q.r)
    (setQueue die q.base (fun p => { p with badcnt := (q.badcnt + 1) % 256 }) s) := rfl
  generalize hu : setQueue die q.base (fun p => { p with badcnt := (q.badcnt + 1) % 256 }) s = u at *
  have hframe : u = { s with dies := u.dies } := by rw [← hu]; rfl
  have hstripes : allStripes u = allStripes s := by rw [hframe]; rfl
  have hwrote := wrote_principalStore die (statusAt q.base die) (statusWord 0 ((q.badcnt + 1) % 256) 0 q.r) u
  rw [← hcounted] at hwrote
  have hstripes' : allStripes (refusalCounted die q s) = allStripes s := hwrote.allStripes.trans hstripes
  obtain ⟨hdie, hnet, hhead, hkept, -⟩ := consumed_consume die q r (refusalCounted die q s)
  rw [← ht, wordHomes_congr hstripes'] at hhead hkept
  rw [← ht] at hdie hnet
  refine ⟨?_, hnet.trans (hwrote.net.trans (by rw [hframe])), fun hn => ?_, fun hfix hn => ?_⟩
  · rw [hdie, hwrote.dieAt, hqueue, hq]
    simp [queuesWith]
  · have hstored := hhead hn
    rwa [Machine.Stored, hostAtom_congr hstripes'] at hstored
  · obtain ⟨hstatus, -, hdisjoint⟩ := List.nodup_append.1 hn
    have hstored := stored_principalStore die (statusAt q.base die) (statusWord 0 ((q.badcnt + 1) % 256) 0 q.r) (s := u)
      (by rwa [wordHomes_congr hstripes])
    rw [← hcounted, statusWord_refused, Machine.Stored, hostAtom_congr hstripes] at hstored
    refine stored_of_kept hstored fun a ha => hkept ?_ a fun ha' => hdisjoint a ha a ha' rfl
    rw [hwrote.frame, hframe]
    exact hfix

/-! ## A queue that stops (R107, R109) -/

theorem appendEvent_cores {kind : Nat} {body : List Word} {s : State} (hcores : s.ctx.cores ≠ []) :
    Wrote s (appendEvent kind body s) ∧ (appendEvent kind body s).fw.events = s.fw.events + 1 := by
  have hne : s.ctx.cores.isEmpty = false := by simpa using hcores
  unfold appendEvent
  rw [hne, if_neg Bool.false_ne_true]
  exact ⟨(wrote_writeEvent _ _ _ _ s).1.trans (wrote_fw _ _), rfl⟩

theorem stopQueue_spec {die : Nat} (code : Nat) {q : LaunchQueue} (r : List Word) {s : State}
    (hq : (dieAt s die).queues = [q]) (hcores : s.ctx.cores ≠ []) :
    let t := stopQueue die code q r s
    (dieAt t die).queues = [{ q with code := code }] ∧ t.fw.events = s.fw.events + 1 ∧ t.net = s.net := by
  intro t
  have hqueue := dieAt_setQueue die q.base (fun p => { p with code := code }) s
  have ht : t = appendEvent 2 [BitVec.ofNat 64 q.base, statusWord code q.badcnt (recLap r) q.r]
    (principalStore die (statusAt q.base die) (statusWord code q.badcnt (recLap r) q.r)
      (setQueue die q.base (fun p => { p with code := code }) s)) := rfl
  generalize hu : setQueue die q.base (fun p => { p with code := code }) s = u at *
  have hframe : u = { s with dies := u.dies } := by rw [← hu]; rfl
  have hwrote := wrote_principalStore die (statusAt q.base die) (statusWord code q.badcnt (recLap r) q.r) u
  have hfw : (principalStore die (statusAt q.base die) (statusWord code q.badcnt (recLap r) q.r) u).fw = u.fw := by
    rw [principalStore, writeBytes_frame]
  obtain ⟨htold, hevents⟩ := appendEvent_cores (kind := 2)
    (body := [BitVec.ofNat 64 q.base, statusWord code q.badcnt (recLap r) q.r])
    (s := principalStore die (statusAt q.base die) (statusWord code q.badcnt (recLap r) q.r) u) (by
      rw [hwrote.frame, hframe]
      exact hcores)
  rw [← ht] at htold hevents
  refine ⟨?_, ?_, ?_⟩
  · rw [htold.dieAt, hwrote.dieAt, hqueue, hq]
    simp [queuesWith]
  · rw [hevents, hfw, hframe]
  · rw [htold.net, hwrote.net, hframe]

/-! ## A launch of one task on one core (R114) -/

/-- The launch of one task on one core of a die: where it goes, and under which kernel. -/
structure OneTask (die c : Nat) (ker : Kernel) (r : List Word) (s : State) : Prop where
  fixed : recDynamic r = false
  tasks : recTasks r = 1
  cores : recCores r = 1
  core : s.ctx.cores[recFirst r]? = some c
  home : c / 384 = die
  kernel : recKernel s r = some ker

/-- The LAUNCH message of the only task of a record. -/
def oneLaunch (q : LaunchQueue) (r : List Word) (c : Nat) (ker : Kernel) : Message :=
  taskMessage ker.type 0 c (launchRange q r ker.type 0 0 [])

variable {die c : Nat} {ker : Kernel} {q : LaunchQueue} {r : List Word} {s : State}

theorem launchFrom_one (h : OneTask die c ker r s) : launchFrom die q r 0 s =
    if mailboxFull (coreOf s c) then (s, some 0) else (sendLaunch (oneLaunch q r c ker) c s, none) := by
  obtain ⟨hfixed, htasks, hcores, hcore, hhome, hkernel⟩ := h
  have hlaunch : launchCore s r (0 % 1) = c := by
    rw [launchCore, Nat.zero_mod, Nat.add_zero, hcore]
    rfl
  have hdie : dieOf c = die := hhome
  unfold launchFrom
  rw [hfixed, htasks, hkernel, if_neg Bool.false_ne_true]
  show sendTasks die q r ker.type 1 0 s = _
  rw [sendTasks]
  dsimp only
  rw [hcores, hlaunch, if_neg (not_not_intro hdie)]
  rfl

theorem launchOn_parks (h : OneTask die c ker r s) (hfull : mailboxFull (coreOf s c) = true) :
    launchOn die ⟨q, r, 0, true⟩ s = setLaunching die (some ⟨q, r, 0, true⟩) s := by
  unfold launchOn
  dsimp only
  rw [launchFrom_one h, if_pos hfull]

theorem launchOn_sends (h : OneTask die c ker r s) (hroom : mailboxFull (coreOf s c) = false) :
    launchOn die ⟨q, r, 0, true⟩ s =
      consume die q r (setLaunching die none (sendLaunch (oneLaunch q r c ker) c s)) := by
  unfold launchOn
  dsimp only
  rw [launchFrom_one h, hroom, if_neg Bool.false_ne_true]
  rfl

theorem sendLaunch_frame (x : Message) (c : Nat) (s : State) : ∃ u : State, sendLaunch x c s =
    { s with me := u.me, others := u.others, net := u.net, delays := u.delays } ∧ ∃ due, u.net = s.net ++ [⟨x, due, true⟩] := by
  have hcore := withCore_frame (g := reserveOne) (fun _ => rfl) c s
  obtain ⟨due, hnet, -⟩ := sendNet_net x true (withCore c (onCoreState reserveOne) s)
  refine ⟨sendLaunch x c s, ?_, due, ?_⟩
  · show sendNet x true (withCore c (onCoreState reserveOne) s) = _
    rw [sendNet_frame]
    generalize hw : withCore c (onCoreState reserveOne) s = w at *
    rw [show sendLaunch x c s = sendNet x true w by rw [← hw]; rfl, sendNet_frame]
    rw [hcore]
  · show (sendNet x true (withCore c (onCoreState reserveOne) s)).net = _
    rw [hnet, hcore]

/-- What a launch leaves that has sent its message. -/
theorem launched_spec (h : OneTask die c ker r s) (hroom : mailboxFull (coreOf s c) = false) :
    let t := launchOn die ⟨q, r, 0, true⟩ s
    (dieAt t die).queues = queuesWith q.base (fun p => { p with r := p.r + 1 }) (dieAt s die).queues ∧
    (dieAt t die).launching = none ∧
    ((wordHomes s (headAt q.base die)).Nodup → Machine.Stored s t (headAt q.base die) (BitVec.ofNat 64 (q.r + 1))) ∧
    ∃ due, t.net = s.net ++ [⟨oneLaunch q r c ker, due, true⟩] := by
  intro t
  obtain ⟨u, hsend, due, hnet⟩ := sendLaunch_frame (oneLaunch q r c ker) c s
  have ht : t = consume die q r (setLaunching die none (sendLaunch (oneLaunch q r c ker) c s)) := launchOn_sends h hroom
  have hdie : dieAt (setLaunching die none (sendLaunch (oneLaunch q r c ker) c s)) die = { dieAt s die with launching := none } := by
    rw [setLaunching, dieAt_setDie, hsend]
    rfl
  have hstripes : allStripes (setLaunching die none (sendLaunch (oneLaunch q r c ker) c s)) = allStripes s := by
    rw [hsend]
    rfl
  have hout : (setLaunching die none (sendLaunch (oneLaunch q r c ker) c s)).net = s.net ++ [⟨oneLaunch q r c ker, due, true⟩] := by
    rw [hsend, ← hnet]
    rfl
  generalize setLaunching die none (sendLaunch (oneLaunch q r c ker) c s) = v at *
  obtain ⟨hqueues, hkept, hhead, -, -⟩ := consumed_consume die q r v
  rw [← ht] at hqueues hkept hhead
  rw [hdie] at hqueues
  refine ⟨by rw [hqueues], by rw [hqueues], fun hn => ?_, due, hkept.trans hout⟩
  have hstored := hhead (by rwa [wordHomes_congr hstripes])
  rwa [Machine.Stored, hostAtom_congr hstripes] at hstored

theorem oneLaunch_hdr : hdrType (oneLaunch q r c ker).hdr = ker.type % 2 ^ 8 ∧
    hdrCore (oneLaunch q r c ker).hdr = c % 2 ^ 12 ∧ hdrSeq (oneLaunch q r c ker).hdr = 0 ∧
    hdrDk (oneLaunch q r c ker).hdr = false :=
  ⟨hdrType_mkHdr .., hdrCore_mkHdr .., hdrSeq_mkHdr .., hdrDk_mkHdr ..⟩

/-! ## The principal's step -/

section
variable {die : Nat} {q : LaunchQueue} {s : State}

theorem exec_launchRecord_read (hruns : principalRuns s die = true) (hq : (dieAt s die).queues = [q])
    (hlaunching : (dieAt s die).launching = none) (hreplay : replayLaunch s die = none) (hcode : q.code = 0)
    (htail : q.r < (dpaWord s q.base).toNat) : exec (.launchRecord die q.base) s = .next (readRecord die q s) := by
  have hdue : q.r < tailOf s q := htail
  have hstep : principalStep s die q.base = some (.read q) := by
    unfold principalStep
    rw [hlaunching, hreplay, hq]
    simp [hcode, hdue]
  show execLaunchRecord die q.base s = _
  unfold execLaunchRecord
  rw [if_pos hruns, hstep]

theorem exec_launchRecord_goOn {g : Launching} (hruns : principalRuns s die = true)
    (hlaunching : (dieAt s die).launching = some g) :
    exec (.launchRecord die g.queue.base) s = .next (launchOn die g s) := by
  have hstep : principalStep s die g.queue.base = some (.goOn g) := by
    unfold principalStep
    rw [hlaunching]
    simp
  show execLaunchRecord die g.queue.base s = _
  unfold execLaunchRecord
  rw [if_pos hruns, hstep]

theorem readRecord_unpublished (h : recLap (recordOf s q) = (lapOf q.slots q.r + 2 ^ 16 - 2) % 2 ^ 16) :
    readRecord die q s = s := if_pos h

theorem readRecord_overrun (h : recLap (recordOf s q) = (lapOf q.slots q.r + 2) % 2 ^ 16) :
    readRecord die q s = stopQueue die 1 q (recordOf s q) s := by
  unfold readRecord
  dsimp only
  rw [if_neg (by omega), if_pos h]

theorem readRecord_badlap (h : recLap (recordOf s q) ≠ lapOf q.slots q.r)
    (hover : recLap (recordOf s q) ≠ (lapOf q.slots q.r + 2) % 2 ^ 16)
    (hunpublished : recLap (recordOf s q) ≠ (lapOf q.slots q.r + 2 ^ 16 - 2) % 2 ^ 16) :
    readRecord die q s = stopQueue die 2 q (recordOf s q) s := by
  unfold readRecord
  dsimp only
  rw [if_neg hunpublished, if_neg hover, if_pos h]

/-- What is done with a record of the lap that is due. -/
theorem readRecord_due (h : recLap (recordOf s q) = lapOf q.slots q.r) : readRecord die q s =
    if recOp (recordOf s q) = 0 then consume die q (recordOf s q) s
    else if recOp (recordOf s q) = 1 && recordGood s (recordOf s q) then launchOn die ⟨q, recordOf s q, 0, true⟩ s
    else refuseRecord die q (recordOf s q) s := by
  have hlt : lapOf q.slots q.r < 2 ^ 16 := Nat.mod_lt _ (by decide)
  unfold readRecord
  dsimp only
  rw [if_neg (by omega), if_neg (by omega), if_neg (not_not_intro h)]

end

/-! ## DYNAMIC placement (R116) -/

/-- The dispatch queue of a cluster once it has placed a task of the range at its head. -/
def placed (r : TaskRange) (rest : List TaskRange) : List TaskRange :=
  if r.next + 1 < r.stop then { r with next := r.next + 1 } :: rest else rest

section
variable {cl k b : Nat} {r : TaskRange} {rest : List TaskRange} {s : State}

theorem exec_dynamicTaskDispatch_served (hserved : (clusterAt s cl).served = some s.clock) :
    exec (.dynamicTaskDispatch cl) s = .refused (.notDue "DYNAMIC_TASK_DISPATCH") := by
  show execDynamicTaskDispatch cl s = _
  unfold execDynamicTaskDispatch
  dsimp only
  rw [if_pos hserved]

theorem exec_dynamicTaskDispatch (hdispatch : (clusterAt s cl).dispatch = r :: rest) (hcores : r.cores = [s.me.num])
    (hrequests : requests s r s.me.num = some (k, b)) (hserved : (clusterAt s cl).served ≠ some s.clock) :
    exec (.dynamicTaskDispatch cl) s = .next (withCore s.me.num
      (createThread k b (taskMessage r.type r.next s.me.num r))
      (setCluster cl { clusterAt s cl with dispatch := placed r rest, served := some s.clock } s)) := by
  have hfind : r.cores.find? (fun c => (requests s r c).isSome) = some s.me.num := by
    rw [hcores, List.find?_cons, hrequests]
    rfl
  show execDynamicTaskDispatch cl s = _
  unfold execDynamicTaskDispatch
  dsimp only
  rw [if_neg hserved, hdispatch]
  dsimp only
  rw [hfind]
  dsimp only
  rw [hrequests]
  rfl

/-- The thread of a placed task: its slot and its first registers. -/
theorem taskThread_spec (s : State) (htag : r.tag ≠ 0) (hargs : r.args.length = 6) (hnext : r.next < 2 ^ 22) :
    let t := createThread k b (taskMessage r.type r.next s.me.num r) s
    ((slotOf t k).st = .runnable ∧ (slotOf t k).task = r.next ∧ (slotOf t k).thread = r.next ∧
      (slotOf t k).ntask = r.ntask ∧ (slotOf t k).tag = r.tag ∧ (slotOf t k).winBase = b) ∧
    regAt t k 1 = BitVec.ofNat 64 r.next ∧ (∀ j < 6, r.args[j]? = some (regAt t k (2 + j))) ∧ t.mem = s.mem := by
  intro t
  have hbody : (taskMessage r.type r.next s.me.num r).body.length = 7 := congrArg (· + 1) hargs
  obtain ⟨hslot, -, -, -, hmem, -, hregs⟩ := createThread_spec k b (taskMessage r.type r.next s.me.num r) s hbody
  have hlaunch : ((taskMessage r.type r.next s.me.num r).tag != 0) = true := bne_iff_ne.2 htag
  have htask : (BitVec.ofNat 64 r.next).toNat = r.next := by
    rw [BitVec.toNat_ofNat, Nat.mod_eq_of_lt (by omega)]
  have hreg : ∀ j < 8, regAt t k j =
      (((taskMessage r.type r.next s.me.num r).hdr :: BitVec.ofNat 64 r.next :: r.args)[j]?).getD 0 := by
    intro j hj
    have hpool := hregs j (.inl hj)
    rw [if_pos hj] at hpool
    rw [regAt, hslot]
    exact hpool
  refine ⟨?_, hreg 1 (by omega), fun j hj => ?_, hmem⟩
  · rw [hslot, newSlot, hlaunch]
    exact ⟨rfl, htask, htask, rfl, rfl, rfl⟩
  · rw [hreg _ (by omega), Nat.add_comm, List.getElem?_cons_succ, List.getElem?_cons_succ,
      List.getElem?_eq_getElem (by omega)]
    rfl

theorem clusters_createThread (k b : Nat) (x : Message) (s : State) (cl : Nat) :
    clusterAt (createThread k b x s) cl = clusterAt s cl := by
  unfold createThread
  rw [wrSlotRun_frame]
  rfl

theorem num_createThread (k b : Nat) (x : Message) (s : State) : (createThread k b x s).me.num = s.me.num := by
  unfold createThread
  rw [wrSlotRun_frame]
  rfl

theorem dynamicTask_placed (hdispatch : (clusterAt s cl).dispatch = r :: rest) (hcores : r.cores = [s.me.num])
    (hrequests : requests s r s.me.num = some (k, b)) (htag : r.tag ≠ 0) (hargs : r.args.length = 6) (hnext : r.next < 2 ^ 22)
    (hserved : (clusterAt s cl).served ≠ some s.clock) : Gives (exec (.dynamicTaskDispatch cl) s) fun t =>
      (clusterAt t cl).served = some s.clock ∧ (clusterAt t cl).dispatch = placed r rest ∧
      (slotOf t k).st = .runnable ∧ (slotOf t k).task = r.next ∧ (slotOf t k).thread = r.next ∧
      (slotOf t k).ntask = r.ntask ∧ (slotOf t k).tag = r.tag ∧ (slotOf t k).winBase = b ∧
      regAt t k 1 = BitVec.ofNat 64 r.next ∧ (∀ j < 6, r.args[j]? = some (regAt t k (2 + j))) ∧ t.mem = s.mem := by
  refine ⟨_, exec_dynamicTaskDispatch hdispatch hcores hrequests hserved, ?_⟩
  have hcl := clusterAt_setCluster cl { clusterAt s cl with dispatch := placed r rest, served := some s.clock } s
  have hnum : (setCluster cl { clusterAt s cl with dispatch := placed r rest, served := some s.clock } s).me.num = s.me.num := rfl
  have hmem : (setCluster cl { clusterAt s cl with dispatch := placed r rest, served := some s.clock } s).mem = s.mem := rfl
  generalize setCluster cl { clusterAt s cl with dispatch := placed r rest, served := some s.clock } s = u at *
  rw [← hnum, withCore_own (num_createThread _ _ _ u)]
  dsimp only
  rw [clusters_createThread, hcl]
  obtain ⟨⟨hst, htask, hthread, hntask, htg, hbase⟩, hone, hrest, hkept⟩ :=
    taskThread_spec (k := k) (b := b) u htag hargs hnext
  exact ⟨rfl, rfl, hst, htask, hthread, hntask, htg, hbase, hone, hrest, hkept.trans hmem⟩

end

/-- Settles O47, by the principal's step for each kind of record, the launch of one task from its start or from where it parked,
and the thread that a placed task starts. -/
theorem launchResults : Obligations.LaunchResults := by
  unfold Obligations.LaunchResults
  refine ⟨fun die q s hruns hq hlaunching hreplay hcode htail _ => ?_,
    fun die c q r ker s hruns _ hlaunching hfixed htasks hcores hcore hhome hkernel hroom => ?_,
    fun cl k b r rest s hdispatch hcores hrequests htag hargs hnext =>
      ⟨exec_dynamicTaskDispatch_served, dynamicTask_placed hdispatch hcores hrequests htag hargs hnext⟩⟩
  · intro r e run head status headIs
    have hrun : run = .next (readRecord die q s) := exec_launchRecord_read hruns hq hlaunching hreplay hcode htail
    have hone : queuesWith q.base (fun p => { p with r := p.r + 1 }) (dieAt s die).queues = [{ q with r := q.r + 1 }] := by
      rw [hq]
      simp [queuesWith]
    refine ⟨fun h => ?_, fun hlap hop => ?_, fun h hcores => ?_, fun hlap hover hunpublished hcores => ?_,
      fun hlap hbad => ?_, fun c ker hlap hop hgood hfixed htasks hcores hcore hhome hkernel => ?_⟩
    · rw [hrun, readRecord_unpublished h]
    · obtain ⟨hdie, -, hhead, hkept, hlog⟩ := consumed_consume die q r s
      refine ⟨_, hrun, ?_⟩
      rw [readRecord_due hlap, if_pos hop]
      exact ⟨by rw [hdie, hone], hhead, hkept, hlog⟩
    · refine ⟨_, hrun, ?_⟩
      rw [readRecord_overrun h]
      exact stopQueue_spec 1 r hq hcores
    · refine ⟨_, hrun, ?_⟩
      rw [readRecord_badlap hlap hover hunpublished]
      exact stopQueue_spec 2 r hq hcores
    · refine ⟨_, hrun, ?_⟩
      have hnot : ¬(recOp r = 1 && recordGood s r) = true := by
        rcases hbad with htwo | ⟨-, hgood⟩
        · simp only [Bool.and_eq_true, decide_eq_true_eq, not_and]
          omega
        · rw [hgood, Bool.and_false]
          exact Bool.false_ne_true
      have hop : ¬recOp r = 0 := by rcases hbad with htwo | ⟨hone, -⟩ <;> omega
      rw [readRecord_due hlap, if_neg hop, if_neg hnot]
      exact refuseRecord_spec r hq
    · have htask : OneTask die c ker r s := ⟨hfixed, htasks, hcores, hcore, hhome, hkernel⟩
      have hlaunch : readRecord die q s = launchOn die ⟨q, r, 0, true⟩ s := by
        rw [readRecord_due hlap, if_neg (show ¬recOp r = 0 by omega), if_pos (by rw [hgood, decide_eq_true hop, Bool.and_self])]
      rw [hlaunch] at hrun
      refine ⟨fun hfull => ?_, fun hroom => ?_⟩
      · refine ⟨_, hrun, ?_⟩
        rw [launchOn_parks htask hfull, setLaunching]
        dsimp only
        rw [dieAt_setDie]
        exact ⟨rfl, hq, rfl, rfl⟩
      · obtain ⟨hqueues, -, hhead, due, hnet⟩ := launched_spec (q := q) htask hroom
        obtain ⟨htype, hto, hseq, hdk⟩ := oneLaunch_hdr (q := q) (r := r) (c := c) (ker := ker)
        exact ⟨_, hrun, hqueues.trans hone, hhead, _, hnet, rfl, htype, hto, hseq, hdk, htasks, rfl⟩
  · obtain ⟨-, hended, hhead, due, hnet⟩ :=
      launched_spec (q := q) ⟨hfixed, htasks, hcores, hcore, hhome, hkernel⟩ hroom
    obtain ⟨htype, hto, -, -⟩ := oneLaunch_hdr (q := q) (r := r) (c := c) (ker := ker)
    exact ⟨_, exec_launchRecord_goOn hruns hlaunching, hended, hhead, _, hnet, rfl, htype, hto, rfl⟩

end Sys2Proof.Proofs
end

section
/-!
SUPPORT. A job that resumes from its checkpoint while a context like its own stands suspended, with its record at the address of the
checkpoint's: firmware takes that context for the one to resume, and counts on from its events.
-/

namespace Sys2Proof.Proofs

open Sys2Proof Sys2Proof.Machine Sys2Proof.Laws

/-- A context of one core, core 0. -/
def soleContext : CtxConfig := { noContext with cores := [0] }

/-- The partition save record of that context, whose core has saved at an address. -/
def solePart (area : Nat) : KeptPart := ⟨soleContext, [], [], [], [], [(0, area)], none⟩

/-- A checkpoint of that context, whose record stands at address 0. -/
def soleCheckpoint : Checkpoint :=
  { number := 1, base := 0, ranges := [], mem := [], poison := [], kept := [(2 ^ 30, some (keep (startCore 0)))]
    keptPart := [(0, some (solePart (2 ^ 30)))], stripes := [] }

/-- The present context, with its last complete checkpoint, while a context like it stands suspended with its record at the address
of that checkpoint's, of which firmware has written 7 events. -/
def likeSuspended : State :=
  { State.reset with
    ctx := soleContext, ckWhole := some soleCheckpoint, fw := { startFirmware with running := true }
    away := [(5, some { newCtxFw soleContext with base := some 0, events := 7 })]
    conn := [(0, BitVec.ofNat 64 (2 ^ 63 + 2 * 2 ^ 61 + 8 * 2 ^ 32))] }

/-- The events that firmware has written for the present context after an outcome. -/
def eventsOf (o : Out State) : Option Nat := match o with | .next t => some t.fw.events | _ => none

/-- Refutes O51, in the clause of JOB_FAULT_RESUME: the present context has had no event, and after its resumption 8, since the
context that is resumed is the suspended one, with the 7 that it has had. -/
theorem not_firmwareEvents : ¬Obligations.FirmwareEvents := by
  intro h
  obtain ⟨-, -, -, hresume, -⟩ := h likeSuspended
  obtain ⟨-, hgives⟩ := hresume 0 0 soleCheckpoint (solePart (2 ^ 30)) rfl rfl rfl rfl rfl (by decide)
  have hcores : likeSuspended.ctx.cores ≠ [] := List.cons_ne_nil 0 []
  have hnone : ∀ at_, likeSuspended.fw.faultAt = some at_ → 0 = likeSuspended.clock - at_ := fun at_ hat => nomatch hat
  obtain ⟨t, ht, hevents, -⟩ := hgives (by decide) rfl hnone hcores
  have hlate : eventsOf (exec (.jobFaultResume 0 0) likeSuspended) = some 8 := rfl
  have hearly : eventsOf (exec (.jobFaultResume 0 0) likeSuspended) = some 1 := by
    rw [show exec (.jobFaultResume 0 0) likeSuspended = .next t from ht]
    exact congrArg some hevents
  exact absurd (hlate.symm.trans hearly) (by decide)

end Sys2Proof.Proofs
end

section
/-!
SUPPORT. The commands that firmware takes from a command line: the reply that each of them leaves there, and what it does first.
-/

namespace Sys2Proof.Proofs

open Sys2Proof Sys2Proof.Machine Sys2Proof.Laws

/-! ## The reply (R292) -/

/-- The state that firmware's writes of a reply or of a report leave, beside firmware's own registers. -/
theorem Wrote.dies {s t : State} (h : Wrote s t) : t.dies = s.dies := by
  rw [h.frame]

/-- The reply word of a command with a status. -/
def replyWord (status : Nat) (s : State) : Word := BitVec.ofNat 64 ((s.fw.lastSeq + 1).toNat * 2 ^ 48 + status)

/-- What a reply leaves: its word on the command line, the sequence number, and otherwise what a write leaves. -/
structure Replied (status : Nat) (s t : State) : Prop where
  frame : t = { s with
    me := { s.me with slots := t.me.slots, trace := t.me.trace, lost := t.me.lost }
    others := t.others, mem := t.mem, poison := t.poison, asked := t.asked, replay := t.replay
    fw := { s.fw with lastSeq := s.fw.lastSeq + 1 } }
  stored : (wordHomes s (s.ctx.cmdLine + 64)).Nodup → Machine.Stored s t (s.ctx.cmdLine + 64) (replyWord status s)

theorem replied_reply {status : Nat} (hstatus : status < 2 ^ 8) (s : State) : Replied status s (reply status s) := by
  have hword : BitVec.ofNat 64 ((s.fw.lastSeq + 1).toNat * 2 ^ 48 + status % 2 ^ 8) = replyWord status s := by
    rw [Nat.mod_eq_of_lt hstatus]
    rfl
  unfold reply
  dsimp only
  rw [hword]
  refine ⟨?_, fun hn k hk => ?_⟩
  · rw [writeBytes_frame]
  · refine memAt_writeBytes_mem _ _ _ ?_ (hostAtom s (s.ctx.cmdLine + 64 + k), (replyWord status s).extractLsb' (8 * k) 8) ?_
    · rw [homes_putWords]
      exact hn
    · rw [toHomes_putWords]
      exact List.mem_map.2 ⟨k, List.mem_range.2 hk, rfl⟩

theorem keepDies_frame (s : State) : keepDies s = { s with keptPart := (keepDies s).keptPart } := by
  unfold keepDies
  split
  · split
    · split <;> rfl
    · rfl
  · rfl

/-! ## A command of the present context -/

/-- What a command of the present context leaves that has a status and an effect. -/
theorem onCommand_present {name : String} {op : BitVec 8} {ws : List Word} {s : State} {act : State → Nat × State}
    (h : commandIs op ws s = true) : onCommand name op ws s act = .next (keepDies (reply (act s).1 (act s).2)) := by
  unfold onCommand
  dsimp only
  rw [if_pos h]

/-- The command on the line of the present context is this one. -/
theorem commandIs_two {op : BitVec 8} {a b : Word} {s : State} (hwaits : commandWaits s = true) (hop : cmdOp s = op)
    (ha : dpaWord s (s.ctx.cmdLine + 8) = a) (hb : dpaWord s (s.ctx.cmdLine + 16) = b) : commandIs op [a, b] s = true := by
  have ha' : cmdWord s 1 = a := ha
  have hb' : cmdWord s 2 = b := hb
  simp [commandIs, hwaits, hop, ha', hb']

theorem commandIs_one {op : BitVec 8} {a : Word} {s : State} (hwaits : commandWaits s = true) (hop : cmdOp s = op)
    (ha : dpaWord s (s.ctx.cmdLine + 8) = a) : commandIs op [a] s = true := by
  have ha' : cmdWord s 1 = a := ha
  simp [commandIs, hwaits, hop, ha']

theorem commandIs_none {op : BitVec 8} {s : State} (hwaits : commandWaits s = true) (hop : cmdOp s = op) :
    commandIs op [] s = true := by
  simp [commandIs, hwaits, hop]

/-- What a command's effect leaves alone: the command line and what stands at its homes, the sequence number, and registers. -/
structure Acts (s u : State) : Prop where
  ctx : u.ctx = s.ctx
  stripes : allStripes u = allStripes s
  seq : u.fw.lastSeq = s.fw.lastSeq
  pool : u.me.pool = s.me.pool

theorem Acts.refl (s : State) : Acts s s := ⟨rfl, rfl, rfl, rfl⟩

theorem Acts.trans {s t u : State} (h : Acts s t) (h' : Acts t u) : Acts s u :=
  ⟨h'.ctx.trans h.ctx, h'.stripes.trans h.stripes, h'.seq.trans h.seq, h'.pool.trans h.pool⟩

/-- What a command leaves whose effect leaves `u`: its reply, and otherwise what its effect leaves. -/
structure Commanded (status : Nat) (s u t : State) : Prop where
  stored : (wordHomes s (s.ctx.cmdLine + 64)).Nodup → Machine.Stored s t (s.ctx.cmdLine + 64) (replyWord status s)
  frame : t = { u with
    me := { u.me with slots := t.me.slots, trace := t.me.trace, lost := t.me.lost }
    others := t.others, mem := t.mem, poison := t.poison, asked := t.asked, replay := t.replay, keptPart := t.keptPart
    fw := { u.fw with lastSeq := s.fw.lastSeq + 1 } }

theorem commanded {status : Nat} (hstatus : status < 2 ^ 8) {s u : State} (hu : Acts s u) :
    Commanded status s u (keepDies (reply status u)) := by
  obtain ⟨hctx, hstripes, hseq, -⟩ := hu
  obtain ⟨hframe, hstored⟩ := replied_reply hstatus u
  have hkept := keepDies_frame (reply status u)
  generalize reply status u = v at *
  generalize keepDies v = t at *
  refine ⟨fun hn => ?_, ?_⟩
  · have hword : replyWord status u = replyWord status s := by rw [replyWord, hseq, replyWord]
    rw [wordHomes_congr hstripes, hctx, Machine.Stored, hostAtom_congr hstripes, hword] at hstored
    rw [hkept]
    exact hstored hn
  · rw [hkept, hframe, hseq]

theorem Commanded.pool {status : Nat} {s u t : State} (h : Commanded status s u t) (hu : Acts s u) :
    t.me.pool = s.me.pool := by
  rw [h.frame]
  exact hu.pool

theorem Commanded.seq {status : Nat} {s u t : State} (h : Commanded status s u t) :
    t.fw.lastSeq = s.fw.lastSeq + 1 := by
  rw [h.frame]

/-- What every command's answer on the line of the present context says. -/
def Answered (status : Nat) (s : State) (P : State → Prop) (t : State) : Prop :=
  ((wordHomes s (s.ctx.cmdLine + 64)).Nodup → Machine.Stored s t (s.ctx.cmdLine + 64) (replyWord status s)) ∧
  t.fw.lastSeq = s.fw.lastSeq + 1 ∧ t.me.pool = s.me.pool ∧ P t

/-- A command whose effect is known: it is answered, and what holds of the state that its effect leaves is carried over. -/
theorem gives_command {name : String} {op : BitVec 8} {ws : List Word} {s u : State} {act : State → Nat × State} {status : Nat}
    {o : Out State} (ho : o = onCommand name op ws s act) (his : commandIs op ws s = true) (hact : act s = (status, u))
    (hstatus : status < 2 ^ 8) (hu : Acts s u) {P : State → Prop} (hP : ∀ t, Commanded status s u t → P t) :
    Gives o (Answered status s P) := by
  have hdone := commanded hstatus hu
  have hrun : o = .next (keepDies (reply status u)) := by rw [ho, onCommand_present his, hact]
  generalize keepDies (reply status u) = t at *
  exact ⟨t, hrun, hdone.stored, hdone.seq, hdone.pool hu, hP t hdone⟩

/-! ## Effects on the dies of the partition -/

theorem nodup_partDies (s : State) : (partDies s).Nodup := by
  unfold partDies
  exact List.Nodup.filter _ List.nodup_range

/-- A change made on every die of the partition reaches each of them once, and no other die. -/
theorem onDies_dieAt {f : Nat → State → State} {R : Nat → Die → Die → Prop} (hf : ∀ d s, R d (dieAt s d) (dieAt (f d s) d))
    (hother : ∀ d s k, k ≠ d → dieAt (f d s) k = dieAt s k) (s : State) {d : Nat} (hd : d ∈ partDies s) :
    R d (dieAt s d) (dieAt (onDies f s) d) := by
  have hkeep : ∀ (m : List Nat) (u : State), d ∉ m → dieAt (m.foldl (fun s d => f d s) u) d = dieAt u d := by
    intro m
    induction m with
    | nil => exact fun _ _ => rfl
    | cons a m ih =>
      intro u hm
      rw [List.mem_cons, not_or] at hm
      rw [List.foldl_cons, ih _ hm.2, hother _ _ _ hm.1]
  unfold onDies
  have hnodup := nodup_partDies s
  generalize partDies s = l at *
  induction l generalizing s with
  | nil => cases hd
  | cons e l ih =>
    rw [List.nodup_cons] at hnodup
    rw [List.foldl_cons]
    rcases List.mem_cons.1 hd with rfl | hin
    · rw [hkeep l _ hnodup.1]
      exact hf d s
    · have hne : d ≠ e := fun h => hnodup.1 (h ▸ hin)
      have hrest := ih (f e s) hin hnodup.2
      rwa [hother _ _ _ hne] at hrest

theorem acts_onDies {f : Nat → State → State} (hf : ∀ d s, Acts s (f d s)) (s : State) : Acts s (onDies f s) := by
  unfold onDies
  generalize partDies s = l
  induction l generalizing s with
  | nil => exact Acts.refl s
  | cons e l ih => exact (hf e s).trans (ih (f e s))

theorem acts_setDie (d : Nat) (v : Die) (s : State) : Acts s (setDie d v s) := ⟨rfl, rfl, rfl, rfl⟩

theorem acts_wrote {s t : State} (h : Wrote s t) (hfw : t.fw = s.fw) : Acts s t :=
  ⟨by rw [h.frame], h.allStripes, by rw [hfw], by rw [h.frame]⟩

theorem acts_principalStore (die at_ : Nat) (w : Word) (s : State) : Acts s (principalStore die at_ w s) :=
  acts_wrote (wrote_principalStore die at_ w s) (by rw [principalStore, writeBytes_frame])

/-- A queue's entries of a die as QRESET leaves them. -/
def resetDie (base : Nat) (d : Die) : Die :=
  if d.queues.any fun q => q.base == base then
    { d with
      queues := queuesWith base (fun q => { q with r := 0, code := 0, badcnt := 0 }) d.queues
      launching := d.launching.map fun g => if g.queue.base = base then { g with live := false } else g }
  else d

theorem resetQueue_dieAt (base d : Nat) (s : State) : dieAt (resetQueue base d s) d = resetDie base (dieAt s d) := by
  unfold resetQueue resetDie
  split
  · rw [(wrote_principalStore _ _ _ _).dieAt, (wrote_principalStore _ _ _ _).dieAt, setQueue, dieAt_setDie, detachLaunch,
      dieAt_setDie]
    rfl
  · rfl

theorem resetQueue_dieAt_other (base d : Nat) (s : State) (k : Nat) (hk : k ≠ d) :
    dieAt (resetQueue base d s) k = dieAt s k := by
  unfold resetQueue
  split
  · rw [(wrote_principalStore _ _ _ _).dieAt, (wrote_principalStore _ _ _ _).dieAt, setQueue, dieAt_setDie_other hk, detachLaunch,
      dieAt_setDie_other hk]
  · rfl

theorem acts_resetQueue (base d : Nat) (s : State) : Acts s (resetQueue base d s) := by
  unfold resetQueue
  split
  · exact (acts_setDie _ _ _).trans ((acts_setDie _ _ _).trans
      ((acts_principalStore _ _ _ _).trans (acts_principalStore _ _ _ _)))
  · exact Acts.refl s

/-! ## The commands of launch queues -/

/-- QREG's effect, with its status. -/
def qregAct (base n : Nat) (s : State) : Nat × State :=
  if badQueue s base n then (stRefused, s)
  else (stDone, onDies (fun d s => setDie d (addQueue base n s.fw.qcount (dieAt s d)) s)
    { s with fw := { s.fw with qcount := s.fw.qcount + 1 } })

theorem exec_qreg (base n : Nat) (s : State) : exec (.qreg base n) s =
    onCommand "QREG" 0x01 [BitVec.ofNat 64 base, BitVec.ofNat 64 n] s (qregAct base n) := rfl

/-- The state in which QREG has registered a queue on every die of the partition. -/
def registered (base n : Nat) (s : State) : State :=
  onDies (fun d s => setDie d (addQueue base n s.fw.qcount (dieAt s d)) s)
    { s with fw := { s.fw with qcount := s.fw.qcount + 1 } }

theorem acts_registered (base n : Nat) (s : State) : Acts s (registered base n s) :=
  Acts.trans (t := { s with fw := { s.fw with qcount := s.fw.qcount + 1 } }) ⟨rfl, rfl, rfl, rfl⟩
    (acts_onDies (fun d s => acts_setDie d _ s) _)

theorem registered_dieAt (base n : Nat) {s : State} {d : Nat} (hd : d ∈ partDies s) :
    ∃ number, dieAt (registered base n s) d = addQueue base n number (dieAt s d) :=
  onDies_dieAt (f := fun d s => setDie d (addQueue base n s.fw.qcount (dieAt s d)) s)
    (R := fun _ v w => ∃ number, w = addQueue base n number v) (fun _ s => ⟨s.fw.qcount, dieAt_setDie _ _ _⟩)
    (fun _ _ _ hk => dieAt_setDie_other hk _ _) { s with fw := { s.fw with qcount := s.fw.qcount + 1 } } hd

/-- A die's queues, with one removed, whose launch runs on. -/
def removeQueue (base d : Nat) (s : State) : State :=
  setDie d { dieAt (detachLaunch base d s) d with queues := (dieAt (detachLaunch base d s) d).queues.filter fun q => q.base != base }
    (detachLaunch base d s)

/-- A die as QREMOVE leaves it. -/
def removedDie (base : Nat) (d : Die) : Die :=
  { d with
    queues := d.queues.filter fun q => q.base != base
    launching := d.launching.map fun g => if g.queue.base = base then { g with live := false } else g }

theorem removeQueue_dieAt (base d : Nat) (s : State) : dieAt (removeQueue base d s) d = removedDie base (dieAt s d) := by
  rw [removedDie, removeQueue, dieAt_setDie, detachLaunch, dieAt_setDie]

theorem removeQueue_dieAt_other (base d : Nat) (s : State) (k : Nat) (hk : k ≠ d) : dieAt (removeQueue base d s) k = dieAt s k := by
  rw [removeQueue, dieAt_setDie_other hk, detachLaunch, dieAt_setDie_other hk]

theorem acts_removeQueue (base d : Nat) (s : State) : Acts s (removeQueue base d s) :=
  (acts_setDie _ _ _).trans (acts_setDie _ _ _)

theorem exec_qreset (base : Nat) (s : State) : exec (.qreset base) s =
    onCommand "QRESET" 0x02 [BitVec.ofNat 64 base] s fun s => (stDone, onDies (resetQueue base) s) := rfl

theorem exec_qremove (base : Nat) (s : State) : exec (.qremove base) s =
    onCommand "QREMOVE" 0x03 [BitVec.ofNat 64 base] s fun s => (stDone, onDies (removeQueue base) s) := rfl

theorem Commanded.dieAt {status : Nat} {s u t : State} (h : Commanded status s u t) (d : Nat) : dieAt t d = dieAt u d := by
  rw [h.frame]
  rfl

section
variable {s : State} (hwaits : commandWaits s = true)
include hwaits

theorem qreg_refused {base n : Nat} (hop : cmdOp s = 0x01) (h1 : dpaWord s (s.ctx.cmdLine + 8) = BitVec.ofNat 64 base)
    (h2 : dpaWord s (s.ctx.cmdLine + 16) = BitVec.ofNat 64 n) (hbad : badQueue s base n = true) :
    Gives (exec (.qreg base n) s) (Answered 1 s fun t => t.dies = s.dies) :=
  gives_command (exec_qreg base n s) (commandIs_two hwaits hop h1 h2) (if_pos hbad) (by decide) (Acts.refl s)
    fun t ht => by rw [ht.frame]

theorem qreg_done {base n : Nat} (hop : cmdOp s = 0x01) (h1 : dpaWord s (s.ctx.cmdLine + 8) = BitVec.ofNat 64 base)
    (h2 : dpaWord s (s.ctx.cmdLine + 16) = BitVec.ofNat 64 n) (hgood : badQueue s base n = false) :
    Gives (exec (.qreg base n) s) (Answered 0 s fun t => ∀ d ∈ partDies s,
      ∃ q ∈ (dieAt t d).queues, q.base = base ∧ q.slots = n ∧ q.r = 0 ∧ q.code = 0) := by
  have hact : qregAct base n s = (0, registered base n s) := if_neg (by simp [hgood])
  refine gives_command (exec_qreg base n s) (commandIs_two hwaits hop h1 h2) hact (by decide) (acts_registered base n s)
    fun t ht d hd => ?_
  obtain ⟨number, hdie⟩ := registered_dieAt base n hd
  rw [ht.dieAt, hdie]
  exact ⟨_, List.mem_append_right _ List.mem_cons_self, rfl, rfl, rfl, rfl⟩

theorem qreset_done {base : Nat} (hop : cmdOp s = 0x02) (h1 : dpaWord s (s.ctx.cmdLine + 8) = BitVec.ofNat 64 base) :
    Gives (exec (.qreset base) s) (Answered 0 s fun t => ∀ d ∈ partDies s, ∀ q ∈ (dieAt t d).queues, q.base = base →
      q.r = 0 ∧ q.code = 0 ∧ q.badcnt = 0) := by
  refine gives_command (exec_qreset base s) (commandIs_one hwaits hop h1) rfl (by decide)
    (acts_onDies (acts_resetQueue base) s) fun t ht d hd q hq hbase => ?_
  have hdie : dieAt (onDies (resetQueue base) s) d = resetDie base (dieAt s d) :=
    onDies_dieAt (R := fun _ v w => w = resetDie base v) (resetQueue_dieAt base) (resetQueue_dieAt_other base) s hd
  rw [ht.dieAt, hdie, resetDie] at hq
  split at hq
  case isTrue =>
    obtain ⟨p, -, rfl⟩ := List.mem_map.1 hq
    split at hbase
    case isTrue hp =>
      rw [if_pos hp]
      exact ⟨rfl, rfl, rfl⟩
    case isFalse hp => exact absurd hbase hp
  case isFalse hnone =>
    exact (hnone (List.any_eq_true.2 ⟨q, hq, beq_iff_eq.2 hbase⟩)).elim

theorem qremove_done {base : Nat} (hop : cmdOp s = 0x03) (h1 : dpaWord s (s.ctx.cmdLine + 8) = BitVec.ofNat 64 base) :
    Gives (exec (.qremove base) s) (Answered 0 s fun t => ∀ d ∈ partDies s, (∀ q ∈ (dieAt t d).queues, q.base ≠ base) ∧
      ∀ g, (dieAt s d).launching = some g → g.queue.base = base → (dieAt t d).launching = some { g with live := false }) := by
  refine gives_command (exec_qremove base s) (commandIs_one hwaits hop h1) rfl (by decide)
    (acts_onDies (acts_removeQueue base) s) fun t ht d hd => ?_
  have hdie := onDies_dieAt (R := fun _ v w => w = removedDie base v)
    (removeQueue_dieAt base) (removeQueue_dieAt_other base) s hd
  rw [ht.dieAt, hdie]
  refine ⟨fun q hq => ?_, fun g hg hbase => ?_⟩
  · simpa using (List.mem_filter.1 hq).2
  · rw [removedDie, hg, Option.map_some, if_pos hbase]

end

/-! ## The other commands -/

/-- CKPT's effect, with its status. -/
def ckptAct (s : State) : Nat × State := if canCheckpoint s then (stDone, beginCheckpoint s) else (stBusy, s)

/-- PCAP's effect, with its status. -/
def pcapAct (watts : Nat) (s : State) : Nat × State :=
  if capGood watts then (stDone, { s with fw := { s.fw with cap := watts } }) else (stRefused, s)

theorem exec_ckpt (s : State) : exec .ckpt s = onCommand "CKPT" 0x10 [] s ckptAct := rfl

theorem exec_pcap (watts : Nat) (s : State) : exec (.pcap watts) s = onNext (if capGood watts then clearThermal else id)
    (onCommand "PCAP" 0x11 [BitVec.ofNat 64 watts] s (pcapAct watts)) := rfl

theorem exec_conn (n : Nat) (v : Word) (s : State) : exec (.conn n v) s =
    onCommand "CONN" 0x12 [BitVec.ofNat 64 n, v] s (connWrite s n v) := rfl

/-- The state in which ATTEST has written its report. -/
def attested (report nonce : Nat) (s : State) : State :=
  writeBytes ⟨s.me.num, 15, 2⟩ (toHomes s ((attestation nonce s).mapIdx fun k b => (report + k, b))) s

theorem exec_attest (report nonce : Nat) (s : State) : exec (.attest report nonce) s =
    onCommand "ATTEST" 0x20 [BitVec.ofNat 64 report, BitVec.ofNat 64 nonce] s fun s => (stDone, attested report nonce s) := rfl

theorem exec_refusedCommand {op : BitVec 8} (hop : op ∉ knownOps) (s : State) : exec (.refusedCommand op) s =
    onCommand "REFUSED_COMMAND" op [] s fun s => (stRefused, s) := by
  show execRefusedCommand op s = _
  unfold execRefusedCommand
  rw [if_neg (by simpa using hop)]

theorem wrote_attested (report nonce : Nat) (s : State) : Wrote s (attested report nonce s) := wrote_writeBytes _ _ s

theorem fw_attested (report nonce : Nat) (s : State) : (attested report nonce s).fw = s.fw := by
  rw [attested, writeBytes_frame]

theorem conn_attested (report nonce : Nat) (s : State) : (attested report nonce s).conn = s.conn := by
  rw [attested, writeBytes_frame]

theorem acts_conn (l : Sp Word) (s : State) : Acts s { s with conn := l } := ⟨rfl, rfl, rfl, rfl⟩

theorem acts_beginCheckpoint (s : State) : Acts s (beginCheckpoint s) := ⟨rfl, rfl, rfl, rfl⟩

/-- A change of the answered state that its answer does not speak of. -/
theorem gives_onNext {o : Out State} {status : Nat} {s : State} {P : State → Prop} {f : State → State}
    (hf : ∀ t, (f t).mem = t.mem ∧ (f t).fw.lastSeq = t.fw.lastSeq ∧ (f t).me = t.me)
    (h : Gives o (Answered status s fun t => P (f t))) : Gives (onNext f o) (Answered status s P) := by
  obtain ⟨t, rfl, hstored, hseq, hpool, hP⟩ := h
  obtain ⟨hmem, hlast, hme⟩ := hf t
  refine ⟨f t, rfl, fun hn k hk => ?_, hlast.trans hseq, by rw [hme, hpool], hP⟩
  rw [memAt, hmem]
  exact hstored hn k hk

/-- A CONN that nothing holds back, for the context whose command it is. -/
theorem connWrite_done {present s : State} {n : Nat} {v : Word} (hn : n ≤ 127)
    (hfree : seatFree present = true ∨ usesCircuit present.ctx present.dieMap (spGet 0 s.conn n) = false) :
    connWrite present n v s = (0, { s with conn := spSet 0 s.conn n v }) := by
  have hidle : ¬(!seatFree present && usesCircuit present.ctx present.dieMap (spGet 0 s.conn n)) = true := by
    rcases hfree with h | h
    · rw [h]
      exact Bool.false_ne_true
    · rw [h, Bool.and_false]
      exact Bool.false_ne_true
  rw [connWrite, if_neg (by omega), if_neg hidle]

/-- What PCAP makes of a context beside the present one. -/
def cooled (o : Option CtxFw) : Option CtxFw := o.map fun x => { x with thermal := false }

section
variable {s : State} (hwaits : commandWaits s = true)
include hwaits

theorem ckpt_done (hop : cmdOp s = 0x10) (hcan : canCheckpoint s = true) : Gives (exec .ckpt s) (Answered 0 s fun t =>
    t.switch = .stopping ∧ t.fw.copying = some (s.fw.complete + 1)) :=
  gives_command (exec_ckpt s) (commandIs_none hwaits hop) (if_pos hcan) (by decide) (acts_beginCheckpoint s) fun t ht => by
    rw [ht.frame]
    exact ⟨rfl, rfl⟩

theorem ckpt_busy (hop : cmdOp s = 0x10) (hcan : canCheckpoint s = false) :
    Gives (exec .ckpt s) (Answered 2 s fun t => t.switch = s.switch) :=
  gives_command (exec_ckpt s) (commandIs_none hwaits hop) (if_neg (by simp [hcan])) (by decide) (Acts.refl s) fun t ht => by
    rw [ht.frame]

theorem pcap_done {watts : Nat} (hlow : 1200 ≤ watts) (hhigh : watts ≤ 2400) (hop : cmdOp s = 0x11)
    (h1 : dpaWord s (s.ctx.cmdLine + 8) = BitVec.ofNat 64 watts) : Gives (exec (.pcap watts) s) (Answered 0 s fun t =>
      t.fw.cap = watts ∧ t.fw.thermal = false ∧ ∀ k x, spGet none t.away k = some x → x.thermal = false) := by
  have hgood : capGood watts = true := by
    rw [capGood, decide_eq_true hlow, decide_eq_true hhigh]
    rfl
  have hact : pcapAct watts s = (0, { s with fw := { s.fw with cap := watts } }) := if_pos hgood
  rw [exec_pcap, if_pos hgood]
  refine gives_onNext (fun t => ⟨rfl, rfl, rfl⟩) (gives_command rfl (commandIs_one hwaits hop h1) hact (by decide)
    ⟨rfl, rfl, rfl, rfl⟩ fun t ht => ⟨?_, rfl, fun k x hx => ?_⟩)
  · show t.fw.cap = watts
    rw [ht.frame]
  · have hmap : spGet none (clearThermal t).away k = cooled (spGet none t.away k) := spGet_mapVal none cooled rfl _ _
    rw [hmap] at hx
    obtain ⟨y, -, rfl⟩ := Option.map_eq_some_iff.1 hx
    rfl

theorem pcap_refused {watts : Nat} (hout : watts < 1200 ∨ 2400 < watts) (hop : cmdOp s = 0x11)
    (h1 : dpaWord s (s.ctx.cmdLine + 8) = BitVec.ofNat 64 watts) :
    Gives (exec (.pcap watts) s) (Answered 1 s fun t => t.fw.cap = s.fw.cap) := by
  have hbad : ¬capGood watts = true := by
    rw [capGood, Bool.and_eq_true, decide_eq_true_eq, decide_eq_true_eq]
    omega
  have hact : pcapAct watts s = (1, s) := if_neg hbad
  rw [exec_pcap, if_neg hbad]
  exact gives_onNext (fun t => ⟨rfl, rfl, rfl⟩) (gives_command rfl (commandIs_one hwaits hop h1) hact (by decide) (Acts.refl s)
    fun t ht => by
      rw [ht.frame]
      rfl)

theorem seatFree_of_waits : seatFree s = (s.switch == .saved) := by
  have hcores : s.ctx.cores.isEmpty = false := by
    unfold commandWaits at hwaits
    simp only [Bool.and_eq_true, Bool.not_eq_true'] at hwaits
    exact hwaits.1.2
  rw [seatFree, hcores, Bool.false_or]

theorem conn_refused {n : Nat} (hn : 127 < n) (hop : cmdOp s = 0x12)
    (h1 : dpaWord s (s.ctx.cmdLine + 8) = BitVec.ofNat 64 n) :
    Gives (exec (.conn n (dpaWord s (s.ctx.cmdLine + 16))) s) (Answered 1 s fun t => t.conn = s.conn) :=
  gives_command (exec_conn n _ s) (commandIs_two hwaits hop h1 rfl) (if_pos hn) (by decide) (Acts.refl s)
    fun t ht => by rw [ht.frame]

theorem conn_busy {n : Nat} (hn : n ≤ 127) (hswitch : s.switch ≠ .saved)
    (huses : usesCircuit s.ctx s.dieMap (spGet 0 s.conn n) = true) (hop : cmdOp s = 0x12)
    (h1 : dpaWord s (s.ctx.cmdLine + 8) = BitVec.ofNat 64 n) :
    Gives (exec (.conn n (dpaWord s (s.ctx.cmdLine + 16))) s) (Answered 2 s fun t => t.conn = s.conn) := by
  have hact : connWrite s n (dpaWord s (s.ctx.cmdLine + 16)) s = (2, s) := by
    rw [connWrite, if_neg (by omega), seatFree_of_waits hwaits, huses, beq_eq_false_iff_ne.2 hswitch]
    rfl
  exact gives_command (exec_conn n _ s) (commandIs_two hwaits hop h1 rfl) hact (by decide) (Acts.refl s)
    fun t ht => by rw [ht.frame]

theorem conn_done {n : Nat} (hn : n ≤ 127)
    (hfree : s.switch = .saved ∨ usesCircuit s.ctx s.dieMap (spGet 0 s.conn n) = false) (hop : cmdOp s = 0x12)
    (h1 : dpaWord s (s.ctx.cmdLine + 8) = BitVec.ofNat 64 n) :
    Gives (exec (.conn n (dpaWord s (s.ctx.cmdLine + 16))) s) (Answered 0 s fun t =>
      t.conn = spSet 0 s.conn n (dpaWord s (s.ctx.cmdLine + 16))) := by
  have hact : connWrite s n (dpaWord s (s.ctx.cmdLine + 16)) s =
      (0, { s with conn := spSet 0 s.conn n (dpaWord s (s.ctx.cmdLine + 16)) }) :=
    connWrite_done hn (hfree.imp (fun h => by rw [seatFree_of_waits hwaits, h]; rfl) id)
  exact gives_command (exec_conn n _ s) (commandIs_two hwaits hop h1 rfl) hact (by decide) (acts_conn _ s)
    fun t ht => by rw [ht.frame]

theorem attest_done {report nonce : Nat} (hop : cmdOp s = 0x20)
    (h1 : dpaWord s (s.ctx.cmdLine + 8) = BitVec.ofNat 64 report)
    (h2 : dpaWord s (s.ctx.cmdLine + 16) = BitVec.ofNat 64 nonce) :
    Gives (exec (.attest report nonce) s) (Answered 0 s fun t => t.dies = s.dies ∧ t.conn = s.conn) :=
  gives_command (exec_attest report nonce s) (commandIs_two hwaits hop h1 h2) rfl (by decide)
    (acts_wrote (wrote_attested report nonce s) (fw_attested report nonce s)) fun t ht => by
      rw [ht.frame]
      exact ⟨(wrote_attested report nonce s).dies, conn_attested report nonce s⟩

theorem refusedCommand_refused {op : BitVec 8} (hknown : op ∉ knownOps) (hop : cmdOp s = op) :
    Gives (exec (.refusedCommand op) s) (Answered 1 s fun t => t.dies = s.dies ∧ t.conn = s.conn ∧ t.switch = s.switch) :=
  gives_command (exec_refusedCommand hknown s) (commandIs_none hwaits hop) rfl (by decide) (Acts.refl s) fun t ht => by
    rw [ht.frame]
    exact ⟨rfl, rfl, rfl⟩

end

/-! ## CONN of a context beside the present one -/

theorem seenBy_frame (x : CtxFw) (s : State) : seenBy x s = { setOwnFw x s with
    switch := .saved, kernels := (seenBy x s).kernels, dies := (seenBy x s).dies, tracks := (seenBy x s).tracks, replay := none } := by
  unfold seenBy
  dsimp only
  split <;> rfl

/-- What a change made for another context leaves of the present one. -/
theorem keepSeen_spec (k : Nat) (s t : State) :
    (keepSeen k s t).conn = t.conn ∧ (keepSeen k s t).ctx = s.ctx ∧ (keepSeen k s t).switch = s.switch ∧
    (keepSeen k s t).fw.lastSeq = s.fw.lastSeq ∧ (keepSeen k s t).mem = t.mem ∧
    spGet none (keepSeen k s t).away k = some { ownFw t with queued := if t.ctxBase.isNone then t.dies else [] } := by
  have haway := spGet_set_same (none : Option CtxFw) t.away k (some { ownFw t with queued := if t.ctxBase.isNone then t.dies else [] })
  generalize hl : spSet none t.away k (some { ownFw t with queued := if t.ctxBase.isNone then t.dies else [] }) = l at *
  have hl' : spSet none (setOwnFw (ownFw s)
    { t with switch := s.switch, kernels := s.kernels, dies := s.dies, tracks := s.tracks, replay := s.replay }).away k
      (some { ownFw t with queued := if t.ctxBase.isNone then t.dies else [] }) = l := hl
  unfold keepSeen
  dsimp only
  rw [hl']
  split
  · exact ⟨rfl, rfl, rfl, rfl, rfl, haway⟩
  · exact ⟨rfl, rfl, rfl, rfl, rfl, haway⟩

/-- A command of a context beside the present one that is taken. -/
theorem onCommand_away {name : String} {op : BitVec 8} {ws : List Word} {s : State} {act : State → Nat × State} {k : Nat}
    {x : CtxFw} {rest : List (Nat × CtxFw)} (hidle : commandWaits s = false) (haway : awayWaiting s = (k, x) :: rest)
    (his : commandIs op ws (seenBy x s) = true) : onCommand name op ws s act =
      .next (keepSeen k s (reply (act (seenBy x s)).1 (act (seenBy x s)).2)) := by
  have hnot : ¬commandIs op ws s = true := by simp [commandIs, hidle]
  unfold onCommand
  dsimp only
  rw [if_neg hnot, hidle, if_neg Bool.false_ne_true, haway]
  dsimp only [List.head?_cons]
  rw [if_pos his]

theorem waits_of_awayWaiting {k : Nat} {x : CtxFw} {rest : List (Nat × CtxFw)} {s : State}
    (h : awayWaiting s = (k, x) :: rest) : commandWaits (seenBy x s) = true := by
  have hmem : (k, x) ∈ awayWaiting s := by rw [h]; exact List.mem_cons_self
  obtain ⟨e, -, he⟩ := List.mem_filterMap.1 hmem
  split at he
  · split at he
    · next hwaits =>
      cases he
      exact hwaits
    · cases he
  · cases he

theorem conn_away {k n : Nat} {v : Word} {x : CtxFw} {rest : List (Nat × CtxFw)} {s : State} (hidle : commandWaits s = false)
    (haway : awayWaiting s = (k, x) :: rest) (hop : cmdOp (seenBy x s) = 0x12) (hn : n ≤ 127)
    (h1 : dpaWord (seenBy x s) (x.cfg.cmdLine + 8) = BitVec.ofNat 64 n) (h2 : dpaWord (seenBy x s) (x.cfg.cmdLine + 16) = v)
    (hfree : seatFree s = true ∨ usesCircuit s.ctx s.dieMap (spGet 0 s.conn n) = false) : Gives (exec (.conn n v) s) fun t =>
      t.conn = spSet 0 s.conn n v ∧ t.ctx = s.ctx ∧ t.switch = s.switch ∧ t.fw.lastSeq = s.fw.lastSeq ∧
      ((wordHomes (seenBy x s) (x.cfg.cmdLine + 64)).Nodup →
        Machine.Stored (seenBy x s) t (x.cfg.cmdLine + 64) (BitVec.ofNat 64 ((x.lastSeq + 1).toNat * 2 ^ 48))) ∧
      ∃ y, spGet none t.away k = some y ∧ y.lastSeq = x.lastSeq + 1 := by
  have hwaits := waits_of_awayWaiting haway
  have hctx : (seenBy x s).ctx = x.cfg := by rw [seenBy_frame]; rfl
  have hconn : (seenBy x s).conn = s.conn := by rw [seenBy_frame]; rfl
  have hseq : (seenBy x s).fw.lastSeq = x.lastSeq := by rw [seenBy_frame]; rfl
  have hrun : ∀ act, onCommand "CONN" 0x12 [BitVec.ofNat 64 n, v] s act = .next (keepSeen k s (reply (act (seenBy x s)).1
      (act (seenBy x s)).2)) := fun act => onCommand_away hidle haway (commandIs_two hwaits hop (by rw [hctx, h1]) (by rw [hctx, h2]))
  generalize seenBy x s = w at *
  have hact : connWrite s n v w = (0, { w with conn := spSet 0 w.conn n v }) := connWrite_done hn (by rw [hconn]; exact hfree)
  have hdone := hrun (connWrite s n v)
  rw [hact] at hdone
  have hacts := acts_conn (spSet 0 w.conn n v) w
  have hset : ({ w with conn := spSet 0 w.conn n v } : State).conn = spSet 0 s.conn n v := by rw [hconn]
  generalize ({ w with conn := spSet 0 w.conn n v } : State) = u at *
  obtain ⟨hframe, hstored⟩ := replied_reply (status := 0) (by decide) u
  generalize reply (0, u).1 (0, u).2 = r at *
  obtain ⟨hconnr, hctxr, hswitchr, hseqr, hmemr, hawayr⟩ := keepSeen_spec k s r
  generalize keepSeen k s r = t at *
  have hlast : u.fw.lastSeq = x.lastSeq := hacts.seq.trans hseq
  have hword : replyWord 0 u = BitVec.ofNat 64 ((x.lastSeq + 1).toNat * 2 ^ 48) := by rw [replyWord, hlast, Nat.add_zero]
  rw [hword, hacts.ctx, hctx, wordHomes_congr hacts.stripes, Machine.Stored, hostAtom_congr hacts.stripes] at hstored
  refine ⟨t, (exec_conn n v s).trans hdone, ?_, hctxr, hswitchr, hseqr, fun hnodup j hj => ?_, _, hawayr, ?_⟩
  · rw [hconnr, hframe]
    exact hset
  · rw [memAt, hmemr]
    exact hstored hnodup j hj
  · show r.fw.lastSeq = x.lastSeq + 1
    rw [hframe, ← hlast]

/-- Settles O49: each command's effect keeps clear of the reply, which is written after it; a CONN for a context beside the
present one is acted on as that context sees the package. -/
theorem commandResults : Obligations.CommandResults := by
  unfold Obligations.CommandResults
  refine ⟨fun s hwaits => ⟨fun base n h1 h2 => ⟨fun hbad hop => qreg_refused hwaits hop h1 h2 hbad,
      fun hgood hop => qreg_done hwaits hop h1 h2 hgood⟩,
    fun base h1 => ⟨fun hop => qreset_done hwaits hop h1, fun hop => qremove_done hwaits hop h1⟩,
    fun hcan hop => ckpt_done hwaits hop hcan, fun hcan hop => ckpt_busy hwaits hop hcan,
    fun watts h1 => ⟨fun hlow hhigh hop => pcap_done hwaits hlow hhigh hop h1, fun hout hop => pcap_refused hwaits hout hop h1⟩,
    fun n h1 => ⟨fun hn hop => conn_refused hwaits hn hop h1,
      fun hn hswitch huses hop => conn_busy hwaits hn hswitch huses hop h1,
      fun hn hfree hop => conn_done hwaits hn hfree hop h1⟩,
    fun report nonce h1 h2 hop => attest_done hwaits hop h1 h2,
    fun op hknown hop => refusedCommand_refused hwaits hknown hop⟩,
    fun k n v x rest s hidle haway hop hn h1 h2 hfree => conn_away hidle haway hop hn h1 h2 hfree⟩

end Sys2Proof.Proofs
end

section
/-!
SUPPORT. The boot of an image, the report of a load, and the load of an image that didex accepts.
-/

namespace Sys2Proof.Proofs

open Sys2Proof Sys2Proof.Machine Sys2Proof.Laws

/-! ## Boot (R303) -/

/-- The dies up to a number have started their principals. -/
def principalsOn (n : Nat) (s : State) : State :=
  (List.range n).foldl (fun s d => setDie d { dieAt s d with principal := true } s) s

theorem principalsOn_frame (n : Nat) (s : State) : principalsOn n s = { s with dies := (principalsOn n s).dies } := by
  unfold principalsOn
  generalize List.range n = l
  induction l generalizing s with
  | nil => rfl
  | cons d l ih =>
    rw [List.foldl_cons, ih]
    rfl

theorem principal_principalsOn {n d : Nat} (hd : d < n) (s : State) : (dieAt (principalsOn n s) d).principal = true := by
  unfold principalsOn
  rw [← List.mem_range] at hd
  generalize List.range n = l at *
  have hkeep : ∀ (l : List Nat) (u : State), (dieAt u d).principal = true →
      (dieAt (l.foldl (fun s d => setDie d { dieAt s d with principal := true } s) u) d).principal = true := by
    intro l
    induction l with
    | nil => exact fun _ h => h
    | cons e l ih =>
      intro u hu
      rw [List.foldl_cons]
      refine ih _ ?_
      by_cases he : d = e
      · subst he
        rw [dieAt_setDie]
      · rw [dieAt_setDie_other he]
        exact hu
  induction l generalizing s with
  | nil => cases hd
  | cons e l ih =>
    rw [List.foldl_cons]
    rcases List.mem_cons.1 hd with rfl | hin
    · refine hkeep l _ ?_
      rw [dieAt_setDie]
    · exact ih _ hin

theorem boot_verified {x : FirmwareImage} (hverifies : x.verifies = true) (hversion : Config.rollbackFloor ≤ x.version) (s : State) :
    boot x s = principalsOn 8 { s with fw := { s.fw with image := x, running := true } } := by
  have hgood : verified x = true := by rw [verified, hverifies, decide_eq_true hversion]; rfl
  unfold boot
  rw [hgood]
  rfl

theorem boot_refused {x : FirmwareImage} (hbad : x.verifies = false ∨ x.version < Config.rollbackFloor) (s : State) :
    boot x s = { s with fw := { s.fw with image := x, running := false } } := by
  have hnot : verified x = false := by
    rw [verified]
    rcases hbad with h | h
    · rw [h, Bool.false_and]
    · rw [decide_eq_false (by omega), Bool.and_false]
  unfold boot
  rw [hnot]
  rfl

theorem exec_firmwareBoot {s : State} (h : s.fw.running = false) : exec .firmwareBoot s = .next (boot s.fw.image s) := by
  show execFirmwareBoot s = _
  unfold execFirmwareBoot
  rw [h]
  rfl

theorem exec_firmwareImageWrite {s : State} (img : FirmwareImage) (h : s.fw.running = false) :
    exec (.firmwareImageWrite img) s = .next (boot img s) := by
  show execFirmwareImageWrite img s = _
  unfold execFirmwareImageWrite
  rw [h]
  rfl

/-- What the boot of an image comes to that verifies, and of one that does not. -/
theorem boots_of_exec {i : Instr} {x : FirmwareImage} {s : State} (hrun : exec i s = .next (boot x s)) :
    (x.verifies = true → Config.rollbackFloor ≤ x.version → Gives (exec i s) fun t =>
      t.fw.running = true ∧ t.fw.image = x ∧ (∀ d < 8, (dieAt t d).principal = true) ∧ t.mem = s.mem ∧ t.me = s.me) ∧
    (x.verifies = false ∨ x.version < Config.rollbackFloor →
      exec i s = .next { s with fw := { s.fw with image := x, running := false } }) := by
  refine ⟨fun hverifies hversion => ⟨_, hrun, ?_⟩, fun hbad => by rw [hrun, boot_refused hbad]⟩
  rw [boot_verified hverifies hversion]
  refine ⟨?_, ?_, fun d hd => principal_principalsOn hd _, ?_, ?_⟩
  all_goals rw [principalsOn_frame]

/-! ## The report (R58) -/

/-- The order of the report. -/
def LineLe (a b : LoadLine) : Prop := a.sect < b.sect ∨ (a.sect = b.sect ∧ a.off ≤ b.off)

theorem lineBefore_iff {a b : LoadLine} : lineBefore a b = true ↔ LineLe a b := by
  simp [lineBefore, LineLe]

theorem lineLe_of_not {a b : LoadLine} (h : ¬LineLe a b) : LineLe b a := by
  unfold LineLe at *
  omega

theorem LineLe.trans {a b c : LoadLine} (h : LineLe a b) (h' : LineLe b c) : LineLe a c := by
  unfold LineLe at *
  omega

theorem mem_placeLine {l x : LoadLine} {ls : List LoadLine} : x ∈ placeLine l ls ↔ x = l ∨ x ∈ ls := by
  induction ls with
  | nil => simp [placeLine]
  | cons y ys ih =>
    rw [placeLine]
    split
    · rw [List.mem_cons]
    · rw [List.mem_cons, ih, List.mem_cons]
      tauto

theorem pairwise_placeLine (l : LoadLine) {ls : List LoadLine} (h : ls.Pairwise LineLe) : (placeLine l ls).Pairwise LineLe := by
  induction ls with
  | nil => exact List.pairwise_singleton _ _
  | cons y ys ih =>
    rw [List.pairwise_cons] at h
    obtain ⟨hy, hys⟩ := h
    rw [placeLine]
    split
    · next hle =>
      have hly := lineBefore_iff.1 hle
      refine List.pairwise_cons.2 ⟨fun z hz => ?_, List.pairwise_cons.2 ⟨hy, hys⟩⟩
      rcases List.mem_cons.1 hz with rfl | hin
      · exact hly
      · exact hly.trans (hy z hin)
    · next hle =>
      refine List.pairwise_cons.2 ⟨fun z hz => ?_, ih hys⟩
      rcases mem_placeLine.1 hz with rfl | hin
      · exact lineLe_of_not fun hly => hle (lineBefore_iff.2 hly)
      · exact hy z hin

theorem pairwise_report (x : Image) : (report x).Pairwise LineLe := by
  unfold report
  induction x.relocs.filterMap (reportOf x) with
  | nil => exact List.Pairwise.nil
  | cons l ls ih => exact pairwise_placeLine l ih

theorem mem_report {x : Image} {l : LoadLine} : l ∈ report x ↔ ∃ r ∈ x.relocs, reportOf x r = some l := by
  have hfold : ∀ ls : List LoadLine, l ∈ ls.foldr placeLine [] ↔ l ∈ ls := by
    intro ls
    induction ls with
    | nil => rfl
    | cons y ys ih => rw [List.foldr_cons, mem_placeLine, ih, List.mem_cons]
  rw [report, hfold, List.mem_filterMap]

/-- A relocation that fails has its line. -/
theorem line_of_error {x : Image} {r : Reloc} {why : LoadWhy} (hr : r ∈ x.relocs) (h : resolved x r = .error why) :
    ∃ l ∈ report x, l.type = r.type ∧ l.sect = r.sect ∧ l.off = r.off ∧ l.why = why := by
  have hline : reportOf x r = some {
      type := r.type, symbol := nameAt x.strtab (((x.symbols[r.symbol]?).map (·.name)).getD 0), sect := r.sect, off := r.off
      file := ((x.sections[r.sect]?).map (·.file)).getD "", why := why } := by
    rw [reportOf, h]
  exact ⟨_, mem_report.2 ⟨r, hr, hline⟩, rfl, rfl, rfl, rfl⟩

/-! ## A load that is refused -/

theorem exec_imageLoad {x : Image} {s : State} (hruns : s.fw.running = true) (hresident : s.switch = .resident)
    (hcores : s.ctx.cores ≠ []) : exec (.imageLoad x) s =
      match accepted s x with
      | some l => .next (loadImage x l s)
      | none => .next (refuseLoad x s) := by
  have hsome : s.ctx.cores.isEmpty = false := by simpa using hcores
  show execImageLoad x s = _
  unfold execImageLoad
  rw [hruns, hresident, hsome]
  rfl

theorem not_accepted_of_line {x : Image} {s : State} {l : LoadLine} (h : l ∈ report x) : accepted s x = none := by
  have hsome : (report x).isEmpty = false := by
    rw [List.isEmpty_eq_false_iff]
    exact List.ne_nil_of_mem h
  unfold accepted
  rw [hsome]
  rfl

theorem not_accepted_of_bad {x : Image} {s : State} (h : imageGood s x = false) : accepted s x = none := by
  unfold accepted
  rw [h, Bool.and_false]
  rfl

theorem imageGood_parts {s : State} {x : Image} (h : imageGood s x = true) :
    headerGood x = true ∧ (∀ e ∈ x.sections, sectionGood e = true) ∧ (∀ y ∈ x.symbols, symbolGood x y = true) ∧
    (∀ r ∈ x.relocs, r.rela = true) ∧ (∀ b ∈ vectorsIn x, vectorGood b = true) ∧
    distinct ((vectorsIn x).map vectorType) = true ∧ distinct ((layoutsIn x).map layoutNum) = true ∧
    s.kernels.length + (kernelsIn x).length ≤ 112 := by
  simp only [imageGood, Bool.and_eq_true, List.all_eq_true, decide_eq_true_eq] at h
  obtain ⟨⟨⟨⟨⟨⟨⟨⟨⟨⟨⟨hheader, hsections⟩, hsymbols⟩, hrelocs⟩, -⟩, hvectors⟩, -⟩, hdvectors⟩, hdlayouts⟩, -⟩, -⟩, hcount⟩ := h
  exact ⟨hheader, hsections, hsymbols, hrelocs, hvectors, hdvectors, hdlayouts, hcount⟩

/-- An image with one of these faults is not accepted. -/
theorem not_imageGood {s : State} {x : Image} (h : x.machine ≠ 0xF960 ∨ x.flags ≠ 1 ∨ x.eiVersion ≠ 1 ∨ x.version ≠ 1 ∨
    x.eiClass ≠ 2 ∨ x.eiData ≠ 1 ∨ (x.eType ≠ 1 ∧ x.eType ≠ 2) ∨ (∃ r ∈ x.relocs, r.rela = false) ∨
    (∃ y ∈ x.symbols, symbolGood x y = false) ∨ (∃ e ∈ x.sections, sectionGood e = false)) : imageGood s x = false := by
  refine Bool.eq_false_iff.2 fun hgood => ?_
  obtain ⟨hheader, hsections, hsymbols, hrelocs, -⟩ := imageGood_parts hgood
  simp only [headerGood, Bool.and_eq_true, Bool.or_eq_true, beq_iff_eq] at hheader
  rcases h with h | h | h | h | h | h | h | ⟨r, hr, h⟩ | ⟨y, hy, h⟩ | ⟨e, he, h⟩
  case inr.inr.inr.inr.inr.inr.inr.inl => simp [hrelocs r hr] at h
  case inr.inr.inr.inr.inr.inr.inr.inr.inl => simp [hsymbols y hy] at h
  case inr.inr.inr.inr.inr.inr.inr.inr.inr => simp [hsections e he] at h
  all_goals tauto

/-! ## Tables written in order -/

theorem nodup_of_distinct {l : List Nat} (h : distinct l = true) : l.Nodup := by
  have hlength : l.eraseDups.length = l.length := beq_iff_eq.1 h
  clear h
  induction l with
  | nil => exact List.nodup_nil
  | cons a l ih =>
    rw [List.eraseDups_cons, List.length_cons, List.length_cons] at hlength
    have hle : ∀ m : List Nat, m.eraseDups.length ≤ m.length := by
      intro m
      induction hn : m.length using Nat.strong_induction_on generalizing m with
      | _ n ihm =>
        cases m with
        | nil => simp
        | cons b m =>
          rw [List.length_cons] at hn
          have hfilter := List.length_filter_le (fun x => !x == b) m
          rw [List.eraseDups_cons, List.length_cons]
          have hrest := ihm _ (by omega) (m.filter fun x => !x == b) rfl
          omega
    have hfilter := List.length_filter_le (fun x => !x == a) l
    have hrest := hle (l.filter fun x => !x == a)
    have hall : l.filter (fun x => !x == a) = l := List.filter_eq_self.2 (List.length_filter_eq_length_iff.1 (by omega))
    rw [hall] at hlength
    refine List.nodup_cons.2 ⟨fun hmem => ?_, ih (by omega)⟩
    have hne := List.filter_eq_self.1 hall a hmem
    simp at hne

/-- Of writes with keys of their own, followed by writes of other keys, each reads back. -/
theorem spGet_setAll_append {α : Type} [DecidableEq α] (d : α) {l : List (Nat × α)} (l' : List (Nat × α)) (m : Sp α)
    (hn : (l.map (·.1)).Nodup) {e : Nat × α} (he : e ∈ l) (hother : ∀ x ∈ l', x.1 ≠ e.1) :
    spGet d (spSetAll d m (l ++ l')) e.1 = e.2 := by
  induction l generalizing m with
  | nil => cases he
  | cons x l ih =>
    rw [List.map_cons, List.nodup_cons] at hn
    rw [List.cons_append, spSetAll]
    rcases List.mem_cons.1 he with rfl | hin
    · rw [spGet_setAll_other, spGet_set_same]
      intro y hy
      rcases List.mem_append.1 hy with hl | hl'
      · exact fun heq => hn.1 (heq ▸ List.mem_map_of_mem hl)
      · exact hother y hl'
    · exact ih _ hn.2 hin

/-! ## The types of registered kernels (R110) -/

theorem nextType_ge {ks : List Kernel} (h : ks.length < 112) : 0x80 ≤ nextType ks := by
  unfold nextType
  cases hfind : ((List.range 112).map (0x80 + ·)).find? fun t => !(ks.any fun k => k.type == t) with
  | some t =>
    obtain ⟨j, -, rfl⟩ := List.mem_map.1 (List.mem_of_find?_eq_some hfind)
    exact Nat.le_add_right _ _
  | none =>
    exfalso
    have hused : (List.range 112).map (0x80 + ·) ⊆ ks.map (·.type) := by
      intro t ht
      have hany := List.find?_eq_none.1 hfind t ht
      simp only [Bool.not_eq_true', Bool.not_eq_false, List.any_eq_true, beq_iff_eq] at hany
      obtain ⟨k, hk, rfl⟩ := hany
      exact List.mem_map_of_mem hk
    have hnodup : ((List.range 112).map (0x80 + ·)).Nodup := List.nodup_range.map fun _ _ heq => Nat.add_left_cancel heq
    have hle := (hnodup.subperm hused).length_le
    rw [List.length_map, List.length_map, List.length_range] at hle
    omega

/-- The kernel that a descriptor registers beside others. -/
def kernelOf (ks : List Kernel) (d : List Byte) : Kernel := ⟨nextType ks, field d 0 8, field d 18 1, field d 16 2⟩

theorem registerAll_cons (ks : List Kernel) (d : List Byte) (ds : List (List Byte)) :
    registerAll ks (d :: ds) = registerAll (ks ++ [kernelOf ks d]) ds := rfl

theorem registerAll_spec (ds : List (List Byte)) {ks : List Kernel} (h : ks.length + ds.length ≤ 112) :
    ∃ new, registerAll ks ds = ks ++ new ∧ ∀ k ∈ new, 0x80 ≤ k.type := by
  induction ds generalizing ks with
  | nil => exact ⟨[], (List.append_nil ks).symm, fun k hk => nomatch hk⟩
  | cons d ds ih =>
    rw [List.length_cons] at h
    obtain ⟨new, heq, hnew⟩ := ih (ks := ks ++ [kernelOf ks d]) (by
      rw [List.length_append, List.length_singleton]
      omega)
    refine ⟨kernelOf ks d :: new, ?_, fun k hk => ?_⟩
    · rw [registerAll_cons, heq, List.append_assoc]
      rfl
    · rcases List.mem_cons.1 hk with rfl | hin
      · exact nextType_ge (by omega)
      · exact hnew k hin

/-! ## A change made on each of several cores -/

section
variable {g : Core → Core} (hg : ∀ m, (g m).num = m.num)
include hg

theorem coreOf_withCore_ne {c k : Nat} (hk : k ≠ c) (s : State) : coreOf (withCore c (onCoreState g) s) k = coreOf s k := by
  by_cases hc : c = s.me.num
  · subst hc
    have hne : ¬k = s.me.num := hk
    simp [withCore, focus, hg, onCoreState, coreOf, hne]
  · have hcn : ¬s.me.num = c := fun h => hc h.symm
    by_cases hkn : k = s.me.num
    · subst hkn
      simp [withCore, focus, hg, onCoreState, coreOf, hc, hcn]
    · simp [withCore, focus, hg, onCoreState, coreOf, hc, hcn, hkn, spGet_set_other _ _ _ _ _ hkn, spGet_set_other _ _ _ _ _ hk]

theorem coreOf_foldl_withCore {P : Core → Prop} (hP : ∀ m, P (g m)) (l : List Nat) (s : State) {c : Nat} (hc : c ∈ l) :
    P (coreOf (l.foldl (fun s c => withCore c (onCoreState g) s) s) c) := by
  have hkeep : ∀ (l : List Nat) (s : State), P (coreOf s c) →
      P (coreOf (l.foldl (fun s c => withCore c (onCoreState g) s) s) c) := by
    intro l
    induction l with
    | nil => exact fun _ h => h
    | cons k l ih =>
      intro s h
      rw [List.foldl_cons]
      refine ih _ ?_
      by_cases hk : c = k
      · subst hk
        rw [coreOf_withCore hg]
        exact hP _
      · rwa [coreOf_withCore_ne hg hk]
  induction l generalizing s with
  | nil => cases hc
  | cons k l ih =>
    rw [List.foldl_cons]
    rcases List.mem_cons.1 hc with rfl | hin
    · refine hkeep l _ ?_
      rw [coreOf_withCore hg]
      exact hP _
    · exact ih _ hin

/-- It reaches the cores only. -/
theorem foldl_withCore_frame (l : List Nat) (s : State) : l.foldl (fun s c => withCore c (onCoreState g) s) s =
    { s with
      me := (l.foldl (fun s c => withCore c (onCoreState g) s) s).me
      others := (l.foldl (fun s c => withCore c (onCoreState g) s) s).others } := by
  induction l generalizing s with
  | nil => rfl
  | cons c l ih =>
    rw [List.foldl_cons, ih]
    rw [withCore_frame hg c s]

theorem foldl_withCore_pool (hpool : ∀ m, (g m).pool = m.pool) (l : List Nat) (s : State) :
    (l.foldl (fun s c => withCore c (onCoreState g) s) s).me.pool = s.me.pool := by
  induction l generalizing s with
  | nil => rfl
  | cons c l ih =>
    rw [List.foldl_cons, ih, withCore_frame hg c s]
    dsimp only
    split
    · exact hpool _
    · rfl

end

/-! ## A load that is accepted -/

/-- The vector entries that the load of an image writes. -/
def vectorsOf (x : Image) (s : State) : List (Nat × Word) := loadVectors x s.kernels (registerAll s.kernels (kernelsIn x))

/-- The state in which an image's bytes are placed and its kernels registered. -/
def bytesPlaced (x : Image) (l : List (Nat × Byte)) (s : State) : State :=
  { writeBytes ⟨s.me.num, 15, 2⟩ l s with
    kernels := registerAll s.kernels (kernelsIn x)
    fw := { (writeBytes ⟨s.me.num, 15, 2⟩ l s).fw with digests := (writeBytes ⟨s.me.num, 15, 2⟩ l s).fw.digests ++ [x.digest] } }

/-- The state in which the tables of the partition's cores are written, too. -/
def tablesLoaded (x : Image) (l : List (Nat × Byte)) (s : State) : State :=
  s.ctx.cores.foldl (fun s' c => withCore c (onCoreState (loadTables x (vectorsOf x s))) s') (bytesPlaced x l s)

theorem loadImage_eq (x : Image) (l : List (Nat × Byte)) (s : State) :
    loadImage x l s = (imageTracks x).foldl (loadTrack x) (tablesLoaded x l s) := by
  have hcores : (bytesPlaced x l s).ctx.cores = s.ctx.cores := by rw [bytesPlaced, writeBytes_frame]
  unfold loadImage
  dsimp only
  rw [tablesLoaded, ← hcores]
  rfl

theorem loadTracks_frame (x : Image) (ts : List Nat) (s : State) :
    ts.foldl (loadTrack x) s = { s with tracks := (ts.foldl (loadTrack x) s).tracks } := by
  induction ts generalizing s with
  | nil => rfl
  | cons t ts ih =>
    rw [List.foldl_cons, ih]
    rfl

theorem num_loadTables (x : Image) (vs : List (Nat × Word)) (m : Core) : (loadTables x vs m).num = m.num := rfl

/-- What the tables of a core hold that has taken those of an image. -/
structure Tabled (x : Image) (m : Core) : Prop where
  layouts : ∀ b ∈ layoutsIn x, spGet 0 m.layouts (layoutNum b) = layoutEntry b
  vectors : ∀ b ∈ vectorsIn x, spGet 0 m.vectors (vectorType b) = (recordVector b).2

theorem tabled_loadTables {x : Image} {s : State} (hgood : imageGood s x = true) (m : Core) :
    Tabled x (loadTables x (vectorsOf x s) m) := by
  obtain ⟨-, -, -, -, hvectors, hdvectors, hdlayouts, hcount⟩ := imageGood_parts hgood
  refine ⟨fun b hb => ?_, fun b hb => ?_⟩
  · refine spGet_setAll_mem 0 _ m.layouts ?_ (layoutNum b, layoutEntry b) (List.mem_map_of_mem hb)
    rw [List.map_map]
    exact nodup_of_distinct hdlayouts
  · obtain ⟨new, hnew, htypes⟩ := registerAll_spec (kernelsIn x) hcount
    have hsplit : vectorsOf x s = (vectorsIn x).map recordVector ++
        new.map fun k => (k.type, vectorWord true k.cls 0 (k.win / 8 - 1) k.entry) := by
      rw [vectorsOf, loadVectors, hnew, List.drop_left]
    have hlow : vectorType b < 0x80 := by
      have hvector := hvectors b hb
      simp only [vectorGood, Bool.and_eq_true, decide_eq_true_eq] at hvector
      exact hvector.1.1.2
    show spGet 0 (spSetAll 0 m.vectors (vectorsOf x s)) (recordVector b).1 = (recordVector b).2
    rw [hsplit]
    refine spGet_setAll_append 0 _ m.vectors ?_ (List.mem_map_of_mem hb) fun y hy => ?_
    · rw [List.map_map]
      exact nodup_of_distinct hdvectors
    · obtain ⟨k, hk, rfl⟩ := List.mem_map.1 hy
      have hhigh := htypes k hk
      show k.type ≠ vectorType b
      omega

theorem loadImage_spec {x : Image} {l : List (Nat × Byte)} {s : State} (hgood : imageGood s x = true) :
    let t := loadImage x l s
    t.mem = spSetAll 0 s.mem l ∧ t.kernels = registerAll s.kernels (kernelsIn x) ∧ t.me.pool = s.me.pool ∧
    t.fw.digests = s.fw.digests ++ [x.digest] ∧ ∀ c ∈ s.ctx.cores, Tabled x (coreOf t c) := by
  intro t
  have htables : ∀ c ∈ s.ctx.cores, Tabled x (coreOf (tablesLoaded x l s) c) := fun c hc =>
    coreOf_foldl_withCore (num_loadTables x _) (tabled_loadTables hgood) s.ctx.cores (bytesPlaced x l s) hc
  have hpool : (tablesLoaded x l s).me.pool = (bytesPlaced x l s).me.pool :=
    foldl_withCore_pool (num_loadTables x _) (fun _ => rfl) _ _
  have hframe := foldl_withCore_frame (num_loadTables x (vectorsOf x s)) s.ctx.cores (bytesPlaced x l s)
  rw [← tablesLoaded] at hframe
  have ht : t = _ := (loadImage_eq x l s).trans (loadTracks_frame x _ _)
  have hbytes : bytesPlaced x l s = { writeBytes ⟨s.me.num, 15, 2⟩ l s with
    kernels := registerAll s.kernels (kernelsIn x), fw := { s.fw with digests := s.fw.digests ++ [x.digest] } } := by
    rw [bytesPlaced, writeBytes_frame]
  generalize tablesLoaded x l s = u at *
  refine ⟨?_, ?_, ?_, ?_, fun c hc => ?_⟩
  · rw [ht, hframe, hbytes, writeBytes_frame]
  · rw [ht, hframe, hbytes]
  · rw [ht]
    show u.me.pool = s.me.pool
    rw [hpool, hbytes, writeBytes_frame]
  · rw [ht, hframe, hbytes]
  · rw [ht]
    exact htables c hc

theorem imageGood_of_accepted {s : State} {x : Image} {l : List (Nat × Byte)} (h : accepted s x = some l) :
    imageGood s x = true := by
  unfold accepted at h
  split at h
  · next hgood => exact (Bool.and_eq_true_iff.1 hgood).2
  · cases h

/-- Settles O50: the boot by its two outcomes; a load that is not accepted changes the report alone, and one that is writes the
tables of each core of the partition, where the types of the registered kernels keep clear of the image's vectors. -/
theorem imageResults : Obligations.ImageResults := by
  unfold Obligations.ImageResults
  refine ⟨fun img s hidle => ⟨boots_of_exec (exec_firmwareBoot hidle), boots_of_exec (exec_firmwareImageWrite img hidle)⟩,
    fun x s hruns hresident hcores => ?_⟩
  have hrun := exec_imageLoad (x := x) hruns hresident hcores
  have hrefused : accepted s x = none → exec (.imageLoad x) s = .next { s with fw := { s.fw with failure := some (report x) } } := by
    intro h
    rw [hrun, h]
    rfl
  refine ⟨hrefused, fun hbad => hrefused (not_accepted_of_bad (not_imageGood hbad)), fun r hr why hwhy => ?_,
    pairwise_report x, fun l hl => ?_⟩
  · obtain ⟨line, hline, hfields⟩ := line_of_error hr hwhy
    exact ⟨hrefused (not_accepted_of_line hline), line, hline, hfields⟩
  · rw [hl] at hrun
    obtain ⟨hmem, hkernels, hpool, hdigests, htabled⟩ := loadImage_spec (l := l) (imageGood_of_accepted hl)
    exact ⟨_, hrun, hmem, hkernels, hpool, hdigests, fun c hc => ⟨(htabled c hc).layouts, (htabled c hc).vectors⟩⟩

end Sys2Proof.Proofs
end

section
/-!
SUPPORT. The bell, the stop of a partition's cores, and the drain of a trace ring to the replay log.
-/

namespace Sys2Proof.Proofs

open Sys2Proof Sys2Proof.Machine Sys2Proof.Laws

/-! ## An effect on one core, and what it does to each -/

theorem focus_frame (c : Nat) (s : State) : focus c s = { s with me := (focus c s).me, others := (focus c s).others } := by
  unfold focus
  split <;> rfl

theorem num_focus (c : Nat) (s : State) : (focus c s).me.num = c := by
  unfold focus
  split
  · next h => exact h.symm
  · rfl

section
variable {f : State → State} {c : Nat} {s : State}

/-- It leaves beside the cores what its effect leaves. -/
theorem withCore_beside : withCore c f s =
    { f (focus c s) with me := (withCore c f s).me, others := (withCore c f s).others } := by
  rw [withCore, focus_frame s.me.num (f (focus c s))]

variable (hnum : (f (focus c s)).me.num = c)
include hnum

theorem coreOf_withCore_at : coreOf (withCore c f s) c = (f (focus c s)).me := by
  generalize hu : f (focus c s) = u at *
  have hwith : withCore c f s = focus s.me.num u := by rw [withCore, hu]
  rw [hwith]
  by_cases hc : c = s.me.num
  · simp [focus, coreOf, hnum, hc]
  · have hcn : ¬s.me.num = c := fun h => hc h.symm
    simp [focus, coreOf, hnum, hc, hcn]

variable (hothers : (f (focus c s)).others = (focus c s).others)
include hothers

theorem coreOf_withCore_off {k : Nat} (hk : k ≠ c) : coreOf (withCore c f s) k = coreOf s k := by
  generalize hu : f (focus c s) = u at *
  have hwith : withCore c f s = focus s.me.num u := by rw [withCore, hu]
  rw [hwith]
  by_cases hc : c = s.me.num
  · rw [focus, if_pos hc] at hothers
    have hkn : ¬k = s.me.num := fun h => hk (h.trans hc.symm)
    simp [focus, coreOf, hnum, hc, hothers, hkn]
  · have hcn : ¬s.me.num = c := fun h => hc h.symm
    rw [focus, if_neg hc] at hothers
    dsimp only at hothers
    by_cases hkn : k = s.me.num
    · simp [focus, coreOf, hnum, hcn, hothers, hkn]
    · simp [focus, coreOf, hnum, hcn, hothers, hkn, spGet_set_other _ _ _ _ _ hkn, spGet_set_other _ _ _ _ _ hk]

end

/-! ## A core that stops (R133) -/

/-- What a unit that comes to rest may change. -/
def Rested (s t : State) : Prop := t = { s with
  me := { s.me with work := t.me.work, ring := t.me.ring }, net := t.net, delays := t.delays, taken := t.taken, ctl := t.ctl }

theorem Rested.refl (s : State) : Rested s s := rfl

theorem Rested.trans {s t u : State} (h : Rested s t) (h' : Rested t u) : Rested s u := by
  unfold Rested at *
  rw [h', h]

theorem rested_foldl {α : Type} {f : State → α → State} (hf : ∀ s a, Rested s (f s a)) (l : List α) (s : State) :
    Rested s (l.foldl f s) := by
  induction l generalizing s with
  | nil => exact Rested.refl s
  | cons a l ih => exact (hf s a).trans (ih (f s a))

/-- The faults of the ring's blocks have been reported. -/
def ringTainted (s : State) : State := s.me.ring.foldl (fun s b =>
  if b.bad ∧ b.subs ≠ 0 then sendTaint b.sel b.index 0 b.subs b.starts s else s) s

/-- The tests under way have asked for their last visit. -/
def testsStopped (s : State) : State := s.me.tests.foldl (fun s t => askVisit .stop t.ray t.sub t.start s) s

/-- The subscriptions of the core's rays are withdrawn. -/
def raysForgotten (s : State) : State := s.me.raySubs.foldl (fun s x => forgetSub x.id s) s

theorem unitStop_eq (s : State) : unitStop s = if unitRests s then
    { raysForgotten (testsStopped (ringTainted s)) with
      me := { (raysForgotten (testsStopped (ringTainted s))).me with ring := [] } }
    else s := rfl

theorem rested_ringTainted (s : State) : Rested s (ringTainted s) := by
  refine rested_foldl (fun s b => ?_) _ s
  split
  · rw [Rested, sendTaint, sendNet_frame]
  · exact Rested.refl s

theorem rested_testsStopped (s : State) : Rested s (testsStopped s) :=
  rested_foldl (f := fun s (t : RayTest) => askVisit .stop t.ray t.sub t.start s) (fun _ _ => rfl) _ s

theorem rested_raysForgotten (s : State) : Rested s (raysForgotten s) :=
  rested_foldl (f := fun s (x : RaySub) => forgetSub x.id s) (fun _ _ => rfl) _ s

theorem rested_unitStop (s : State) : Rested s (unitStop s) := by
  have hrested := (rested_ringTainted s).trans ((rested_testsStopped _).trans (rested_raysForgotten _))
  rw [unitStop_eq]
  split
  · generalize raysForgotten (testsStopped (ringTainted s)) = t at *
    rw [Rested, hrested]
  · exact Rested.refl s

/-- A core of the partition stops, unless it has. -/
def stopOne (s : State) : State := if s.me.stopped then s else stopHere s

theorem rested_stopOne (s : State) : Rested (if s.me.stopped then s else { s with me := stopCore s.me }) (stopOne s) := by
  unfold stopOne
  split
  · exact Rested.refl s
  · exact rested_unitStop _

/-- What a core is that may have stopped meanwhile. -/
structure Stilled (m m' : Core) : Prop where
  slots : m'.slots = m.slots
  kept : m.stopped = true → m'.stopped = true ∧ m'.rung = m.rung
  rung : m.stopped = false → m'.stopped = true → m'.rung = false

theorem Stilled.refl (m : Core) : Stilled m m :=
  ⟨rfl, fun h => ⟨h, rfl⟩, fun h h' => absurd h' (by rw [h]; exact Bool.false_ne_true)⟩

theorem Stilled.trans {a b c : Core} (h : Stilled a b) (h' : Stilled b c) : Stilled a c := by
  refine ⟨h'.slots.trans h.slots, fun ha => ?_, fun ha hc => ?_⟩
  · obtain ⟨hb, hrung⟩ := h.kept ha
    obtain ⟨hc, hrung'⟩ := h'.kept hb
    exact ⟨hc, hrung'.trans hrung⟩
  · by_cases hb : b.stopped = true
    · exact (h'.kept hb).2.trans (h.rung ha hb)
    · exact h'.rung (by simpa using hb) hc

theorem stilled_stopOne (s : State) : Stilled s.me (stopOne s).me ∧ (stopOne s).me.stopped = true := by
  rw [rested_stopOne s]
  split
  · next h => exact ⟨⟨rfl, fun _ => ⟨h, rfl⟩, fun h' => absurd h (by rw [h']; exact Bool.false_ne_true)⟩, h⟩
  · next h => exact ⟨⟨rfl, fun h' => absurd h' h, fun _ _ => rfl⟩, rfl⟩

/-- What the stopping of cores leaves of a state. -/
structure Halted (l : List Nat) (s t : State) : Prop where
  mem : t.mem = s.mem
  clock : t.clock = s.clock
  switch : t.switch = s.switch
  todo : t.todo = s.todo
  cores : ∀ k, Stilled (coreOf s k) (coreOf t k)
  stopped : ∀ c ∈ l, (coreOf t c).stopped = true

theorem halted_one (c : Nat) (s : State) : Halted [c] s (withCore c stopOne s) := by
  have hrested := rested_stopOne (focus c s)
  have hfocus := focus_frame c s
  have hstilled := stilled_stopOne (focus c s)
  have hnum : (stopOne (focus c s)).me.num = c := by
    rw [hrested]
    split
    · exact num_focus c s
    · exact num_focus c s
  have hothers : (stopOne (focus c s)).others = (focus c s).others := by
    rw [hrested]
    split <;> rfl
  have hbeside := withCore_beside (f := stopOne) (c := c) (s := s)
  have hkept : (stopOne (focus c s)).mem = s.mem ∧ (stopOne (focus c s)).clock = s.clock ∧
      (stopOne (focus c s)).switch = s.switch ∧ (stopOne (focus c s)).todo = s.todo := by
    rw [hrested, hfocus]
    split <;> exact ⟨rfl, rfl, rfl, rfl⟩
  obtain ⟨hmem, hclock, hswitch, htodo⟩ := hkept
  have hat := coreOf_withCore_at hnum
  refine ⟨by rw [hbeside, hmem], by rw [hbeside, hclock], by rw [hbeside, hswitch], by rw [hbeside, htodo], fun k => ?_,
    fun k hk => ?_⟩
  · by_cases hk : k = c
    · subst hk
      have hme : Stilled (coreOf s k) (focus k s).me := by
        unfold focus
        split
        · next h =>
          rw [coreOf, if_pos h]
          exact Stilled.refl _
        · exact ⟨rfl, fun h => ⟨h, rfl⟩, fun h h' => absurd h' (by rw [h]; exact Bool.false_ne_true)⟩
      rw [hat]
      exact hme.trans hstilled.1
    · rw [coreOf_withCore_off hnum hothers hk]
      exact Stilled.refl _
  · rw [List.mem_singleton.1 hk, hat]
    exact hstilled.2

theorem halted_all (l : List Nat) (s : State) : Halted l s (l.foldl (fun s c => withCore c stopOne s) s) := by
  induction l generalizing s with
  | nil => exact ⟨rfl, rfl, rfl, rfl, fun _ => Stilled.refl _, fun _ h => nomatch h⟩
  | cons c l ih =>
    rw [List.foldl_cons]
    obtain ⟨hmem, hclock, hswitch, htodo, hcores, hstopped⟩ := halted_one c s
    obtain ⟨hmem', hclock', hswitch', htodo', hcores', hstopped'⟩ := ih (withCore c stopOne s)
    refine ⟨hmem'.trans hmem, hclock'.trans hclock, hswitch'.trans hswitch, htodo'.trans htodo,
      fun k => (hcores k).trans (hcores' k), fun k hk => ?_⟩
    rcases List.mem_cons.1 hk with rfl | hin
    · exact ((hcores' k).kept (hstopped k List.mem_cons_self)).1
    · exact hstopped' k hin

/-! ## The end of a cycle (R141) -/

theorem stopCores_eq (s : State) : stopCores s = s.ctx.cores.foldl (fun s c => withCore c stopOne s) s := rfl

theorem step_last {rest : List Turn} {s : State} (htodo : s.todo = .last :: rest)
    (hinputs : firstInput exec s (lateInputs s) = none) :
    step s = .next { reachCores s with todo := rest, clock := (reachCores s).clock + 1 } := by
  rw [step, stepWith, htodo]
  dsimp only
  rw [takeTurn, hinputs]
  rfl

theorem step_last_stops {rest : List Turn} {s : State} (htodo : s.todo = .last :: rest)
    (hinputs : firstInput exec s (lateInputs s) = none) (hstopping : s.switch = .stopping) (hat : s.stopAt ≤ s.clock) :
    Gives (step s) fun t => t.todo = rest ∧ t.clock = s.clock + 1 ∧ t.switch = .stopping ∧
      (∀ c ∈ s.ctx.cores, (coreOf t c).stopped = true ∧ (coreOf t c).slots = (coreOf s c).slots ∧
        ((coreOf s c).stopped = false → (coreOf t c).rung = false)) ∧ t.mem = s.mem := by
  obtain ⟨hmem, hclock, hswitch, -, hcores, hstopped⟩ := halted_all s.ctx.cores s
  rw [← stopCores_eq] at hmem hclock hswitch hcores hstopped
  refine ⟨_, step_last htodo hinputs, ?_⟩
  rw [reachCores, if_pos ⟨hstopping, hat⟩]
  refine ⟨rfl, congrArg (· + 1) hclock, hswitch.trans hstopping, fun c hc => ⟨hstopped c hc, (hcores c).slots, fun h =>
    (hcores c).rung h (hstopped c hc)⟩, hmem⟩

theorem step_last_runs {rest : List Turn} {s : State} (htodo : s.todo = .last :: rest)
    (hinputs : firstInput exec s (lateInputs s) = none) (hruns : s.switch ≠ .stopping ∨ s.clock < s.stopAt) :
    step s = .next { s with todo := rest, clock := s.clock + 1 } := by
  have hnot : ¬(s.switch = .stopping ∧ s.stopAt ≤ s.clock) := by
    rintro ⟨hstopping, hat⟩
    rcases hruns with h | h
    · exact h hstopping
    · omega
  rw [step_last htodo hinputs, reachCores, if_neg hnot]

/-! ## The bell (R131) -/

theorem exec_bellRing {s : State} (hresident : s.switch = .resident) (hquantum : s.me.bell ≠ 0)
    (hcount : s.me.bell.toNat ≤ s.me.bellCount) (hfree : s.ctx.fixed = false) :
    exec .bellRing s = .next { s with me := { s.me with bellCount := 0, rung := otherReady s } } := by
  show execBellRing s = _
  unfold execBellRing
  rw [if_pos ⟨hresident, hquantum, hcount⟩, hfree]
  rfl

theorem preemption_due {s : State} (hresident : s.switch = .resident) {c : Nat} (hc : c ∈ s.ctx.cores)
    (hrung : (coreOf s c).rung = true) : ∃ p, (p, Instr.preemptionRequest) ∈ startDue s := by
  have hany : (s.switch == .resident && (s.ctx.cores.any fun c => (coreOf s c).rung)) = true := by
    rw [hresident, Bool.and_eq_true]
    exact ⟨rfl, List.any_eq_true.2 ⟨c, hc, hrung⟩⟩
  refine ⟨s.me.num, ?_⟩
  unfold startDue bellDue
  rw [if_pos hany]
  simp

theorem exec_preemptionRequest {s : State} (hresident : s.switch = .resident) (hcores : s.ctx.cores ≠ []) :
    exec .preemptionRequest s = .next { s with switch := .stopping, stopAt := s.clock + 1 } := by
  show execPreemptionRequest s = _
  unfold execPreemptionRequest
  rw [if_pos ⟨hresident, hcores⟩]
  rfl

/-! ## The drain of a trace ring (R257) -/

/-- A core's own write is no entry of its port's ring. -/
theorem me_traceAtom {w : Writer} {s : State} (hw : w.core = s.me.num) (a : Nat) : (traceAtom w a s).me = s.me := by
  unfold traceAtom
  split
  · split
    · rfl
    · next hne =>
      dsimp only
      rw [if_neg (hw ▸ hne)]
  · rfl

theorem me_traceAll {w : Writer} (l : List Nat) {s : State} (hw : w.core = s.me.num) :
    (l.foldl (fun s a => traceAtom w a s) s).me = s.me := by
  induction l generalizing s with
  | nil => rfl
  | cons a l ih =>
    have hone := me_traceAtom hw a
    rw [List.foldl_cons, ih (by rw [hone, hw]), hone]

theorem trace_writeBytes {w : Writer} (l : List (Nat × Byte)) {s : State} (hw : w.core = s.me.num) :
    (writeBytes w l s).me.trace = s.me.trace ∧ (writeBytes w l s).me.lost = s.me.lost := by
  have hme : ∀ u : State, u.me = s.me → ∀ p, (wakeAll p u).me.trace = s.me.trace ∧ (wakeAll p u).me.lost = s.me.lost := by
    intro u hu p
    unfold wakeAll wakeCore
    rw [hu]
    exact ⟨rfl, rfl⟩
  unfold writeBytes
  dsimp only
  exact hme _ (me_traceAll (w := w) (s := { s with
    mem := spSetAll 0 s.mem l
    poison := s.poison.filter fun a => !((atomsOf (l.map (·.1))).contains a && coversAtom (l.map (·.1)) a) })
    (atomsOf (l.map (·.1))) hw) _

theorem byte_of_bits {n : Nat} (w : BitVec n) (k : Nat) : BitVec.ofNat 8 (w.toNat / 256 ^ k) = w.extractLsb' (8 * k) 8 := by
  refine BitVec.eq_of_getLsbD_eq fun j hj => ?_
  rw [getLsbD_byte _ _ _ hj, BitVec.getLsbD_extractLsb', decide_eq_true hj, Bool.true_and, BitVec.getLsbD]

/-- The 128 bits of an entry of a trace ring. -/
def traceWord (e : TraceEntry) : BitVec 128 := e.stamp ++ e.score ++ e.sslot ++ e.atom ++ e.kind ++ (0 : BitVec 48)

theorem toNat_append_add {n m : Nat} (x : BitVec n) (y : BitVec m) : (x ++ y).toNat = x.toNat * 2 ^ m + y.toNat := by
  rw [BitVec.toNat_append, ← Nat.shiftLeft_add_eq_or_of_lt y.isLt, Nat.shiftLeft_eq]

theorem traceBytes_eq (e : TraceEntry) : traceBytes e = leBytes 16 (traceWord e).toNat := by
  have hword : (traceWord e).toNat = e.stamp.toNat * 2 ^ 80 + e.score.toNat * 2 ^ 68 + e.sslot.toNat * 2 ^ 64 +
      e.atom.toNat * 2 ^ 50 + e.kind.toNat * 2 ^ 48 := by
    have hzero : (0 : BitVec 48).toNat = 0 := rfl
    unfold traceWord
    simp only [toNat_append_add, hzero]
    omega
  rw [hword, traceBytes]

theorem getElem?_traceBytes (e : TraceEntry) {j : Nat} (hj : j < 16) :
    (traceBytes e)[j]? = some ((traceWord e).extractLsb' (8 * j) 8) := by
  rw [traceBytes_eq, getElem?_leBytes hj, byte_of_bits]

theorem length_traceBytes (e : TraceEntry) : (traceBytes e).length = 16 := by
  rw [traceBytes_eq, length_leBytes]

theorem length_traces (l : List TraceEntry) : (l.flatMap traceBytes).length = 16 * l.length := by
  induction l with
  | nil => rfl
  | cons e l ih =>
    rw [List.flatMap_cons, List.length_append, ih, length_traceBytes, List.length_cons]
    omega

theorem getElem?_traces {l : List TraceEntry} {i j : Nat} {e : TraceEntry} (hi : l[i]? = some e) (hj : j < 16) :
    (l.flatMap traceBytes)[16 * i + j]? = some ((traceWord e).extractLsb' (8 * j) 8) := by
  induction l generalizing i with
  | nil => simp at hi
  | cons x l ih =>
    rw [List.flatMap_cons]
    cases i with
    | zero =>
      rw [List.getElem?_cons_zero, Option.some.injEq] at hi
      rw [List.getElem?_append_left (by rw [length_traceBytes]; omega), hi, Nat.mul_zero, Nat.zero_add, getElem?_traceBytes e hj]
    | succ i =>
      rw [List.getElem?_cons_succ] at hi
      rw [List.getElem?_append_right (by rw [length_traceBytes]; omega), length_traceBytes,
        show 16 * (i + 1) + j - 16 = 16 * i + j by omega, ih hi]

theorem hostAtom_of_no_stripes {s : State} (h : allStripes s = []) (a : Nat) : hostAtom s a = a := by
  rw [hostAtom, h]
  rfl

theorem toHomes_of_no_stripes {s : State} (h : allStripes s = []) (l : List (Nat × Byte)) : toHomes s l = l := by
  unfold toHomes
  simp [hostAtom_of_no_stripes h]

/-- What the log of a drain is, with a place for it. -/
theorem logData_some {l : List Byte} {base : Nat} {s : State} (h : s.ctx.logBase = some base) : logData l s =
    { writeBytes ⟨s.me.num, 15, 2⟩ (toHomes s (l.mapIdx fun j b => (base + s.fw.logUsed + j, b))) s with
      fw := { s.fw with logUsed := s.fw.logUsed + l.length } } := by
  unfold logData
  rw [h]

theorem logData_none {l : List Byte} {s : State} (h : s.ctx.logBase = none) : logData l s = s := by
  unfold logData
  rw [h]

/-- A log leaves the ring of the core that writes it. -/
theorem logData_ring (l : List Byte) (s : State) : (logData l s).me.trace = s.me.trace ∧ (logData l s).me.lost = s.me.lost ∧
    (logData l s).me.num = s.me.num ∧ (logData l s).fw.log = s.fw.log ∧ (logData l s).fw.logLost = s.fw.logLost := by
  cases hbase : s.ctx.logBase with
  | none =>
    rw [logData_none hbase]
    exact ⟨rfl, rfl, rfl, rfl, rfl⟩
  | some base =>
    obtain ⟨htrace, hlost⟩ := trace_writeBytes (w := ⟨s.me.num, 15, 2⟩)
      (toHomes s (l.mapIdx fun j b => (base + s.fw.logUsed + j, b))) (s := s) rfl
    rw [logData_some hbase]
    refine ⟨htrace, hlost, ?_, rfl, rfl⟩
    show (writeBytes _ _ s).me.num = s.me.num
    rw [writeBytes_frame]

theorem exec_traceRingDrain {s : State} (hfixed : s.ctx.fixed = true) (hfull : 2048 ≤ s.me.trace.length) :
    exec .traceRingDrain s = .next (drainTrace s) := by
  show execTraceRingDrain s = _
  unfold execTraceRingDrain
  rw [hfixed, decide_eq_true hfull]
  rfl

theorem drainTrace_spec (s : State) :
    let t := drainTrace s
    t.me.trace = [] ∧ t.me.lost = false ∧ t.fw.log = s.fw.log ++ s.me.trace.map (fun e => (s.me.num, e)) ∧
    (s.me.lost = true → t.fw.logLost = s.fw.logLost ++ [s.me.num]) ∧
    (∀ base, s.ctx.logBase = some base → t.fw.logUsed = s.fw.logUsed + 16 * s.me.trace.length ∧
      (allStripes s = [] → ∀ (i j : Nat) (e : TraceEntry), s.me.trace[i]? = some e → j < 16 →
        memAt t (base + s.fw.logUsed + 16 * i + j) = (traceWord e).extractLsb' (8 * j) 8)) ∧
    (s.ctx.logBase = none → t.mem = s.mem) := by
  intro t
  obtain ⟨htrace, hlost, hnum, hlog, hlogLost⟩ := logData_ring (s.me.trace.flatMap traceBytes) s
  refine ⟨rfl, rfl, ?_, fun hl => ?_, fun base hbase => ⟨?_, fun hnone i j e hi hj => ?_⟩, fun hbase => ?_⟩
  · show (logData _ s).fw.log ++ (logData _ s).me.trace.map (fun e => ((logData _ s).me.num, e)) = _
    rw [hlog, htrace, hnum]
  · show (if (logData _ s).me.lost then (logData _ s).fw.logLost ++ [(logData _ s).me.num] else _) = _
    rw [hlost, hl, hlogLost, hnum]
    rfl
  · show (logData _ s).fw.logUsed = _
    rw [logData_some hbase, length_traces]
  · obtain ⟨hin, -⟩ := memAt_blockWrites ⟨s.me.num, 15, 2⟩ (base + s.fw.logUsed) (s.me.trace.flatMap traceBytes) s
    have hlt : i < s.me.trace.length := (List.getElem?_eq_some_iff.1 hi).1
    have hmem : t.mem = (writeBytes ⟨s.me.num, 15, 2⟩ (blockWrites (base + s.fw.logUsed) (s.me.trace.flatMap traceBytes)) s).mem := by
      show (logData _ s).mem = _
      rw [logData_some hbase, toHomes_of_no_stripes hnone]
      rfl
    rw [memAt, hmem, Nat.add_assoc _ (16 * i) j]
    refine (hin (16 * i + j) (by rw [length_traces]; omega)).trans ?_
    rw [getElem?_traces hi hj]
    rfl
  · show (logData _ s).mem = s.mem
    rw [logData_none hbase]

end Sys2Proof.Proofs
end

section
/-!
SUPPORT. What a saving core and firmware write: the words of a save area and of the partition save record.
-/

namespace Sys2Proof.Proofs

open Sys2Proof Sys2Proof.Machine Sys2Proof.Laws

/-! ## Words in memory -/

theorem leBytes_succ (n v : Nat) : leBytes (n + 1) v = BitVec.ofNat 8 v :: leBytes n (v / 256) := by
  unfold leBytes
  rw [List.range_succ_eq_map, List.map_cons, List.map_map, Nat.pow_zero, Nat.div_one]
  refine congrArg _ (List.map_congr_left fun k _ => ?_)
  show BitVec.ofNat 8 (v / 256 ^ (k + 1)) = _
  rw [Nat.pow_succ', Nat.div_div_eq_div_mul]

theorem leNat_leBytes (n v : Nat) : leNat (leBytes n v) = v % 256 ^ n := by
  induction n generalizing v with
  | zero => rw [Nat.pow_zero, Nat.mod_one]; rfl
  | succ n ih =>
    have hcons : leNat (leBytes (n + 1) v) = v % 256 + 256 * leNat (leBytes n (v / 256)) := by
      rw [leBytes_succ]
      show (BitVec.ofNat 8 v).toNat + 256 * _ = _
      rw [BitVec.toNat_ofNat]
      rfl
    rw [hcons, ih, Nat.pow_succ', Nat.mod_mul]

theorem word64At_congr {s t : State} {a : Nat} (h : ∀ j < 8, memAt t (a + j) = memAt s (a + j)) : word64At t a = word64At s a := by
  unfold word64At
  rw [List.map_congr_left fun j hj => h j (List.mem_range.1 hj)]

theorem word64At_of_bytes {t : State} {a : Nat} {w : Word} (h : ∀ j < 8, memAt t (a + j) = BitVec.ofNat 8 (w.toNat / 256 ^ j)) :
    word64At t a = w := by
  unfold word64At
  rw [List.map_congr_left fun j hj => h j (List.mem_range.1 hj), ← leBytes, leNat_leBytes]
  refine BitVec.eq_of_toNat_eq ?_
  have hlt := w.isLt
  rw [BitVec.toNat_ofNat]
  omega

theorem mem_storeBytesAt (at_ : Nat) (l : List Byte) (s : State) : (storeBytesAt at_ l s).mem = spSetAll 0 s.mem (blockWrites at_ l) := rfl

theorem memAt_storeBytesAt (at_ : Nat) (l : List Byte) (s : State) :
    (∀ j < l.length, memAt (storeBytesAt at_ l s) (at_ + j) = (l[j]?).getD 0) ∧
    ∀ a, a < at_ ∨ at_ + l.length ≤ a → memAt (storeBytesAt at_ l s) a = memAt s a := by
  obtain ⟨hin, hout⟩ := memAt_blockWrites ⟨s.me.num, 15, 2⟩ at_ l s
  have hmem : ∀ a, memAt (storeBytesAt at_ l s) a = memAt (writeBytes ⟨s.me.num, 15, 2⟩ (blockWrites at_ l) s) a := by
    intro a
    rw [memAt, mem_storeBytesAt, memAt, writeBytes_mem]
  exact ⟨fun j hj => (hmem _).trans (hin j hj), fun a ha => (hmem a).trans (hout a ha)⟩

theorem length_wordBytes (ws : List Word) : (ws.flatMap fun w => leBytes 8 w.toNat).length = 8 * ws.length := by
  induction ws with
  | nil => rfl
  | cons w ws ih =>
    rw [List.flatMap_cons, List.length_append, ih, length_leBytes, List.length_cons]
    omega

theorem getElem?_wordBytes {ws : List Word} {k j : Nat} {w : Word} (hk : ws[k]? = some w) (hj : j < 8) :
    (ws.flatMap fun w => leBytes 8 w.toNat)[8 * k + j]? = some (BitVec.ofNat 8 (w.toNat / 256 ^ j)) := by
  induction ws generalizing k with
  | nil => simp at hk
  | cons x ws ih =>
    rw [List.flatMap_cons]
    cases k with
    | zero =>
      rw [List.getElem?_cons_zero, Option.some.injEq] at hk
      rw [List.getElem?_append_left (by rw [length_leBytes]; omega), hk, Nat.mul_zero, Nat.zero_add, getElem?_leBytes hj]
    | succ k =>
      rw [List.getElem?_cons_succ] at hk
      rw [List.getElem?_append_right (by rw [length_leBytes]; omega), length_leBytes,
        show 8 * (k + 1) + j - 8 = 8 * k + j by omega, ih hk]

/-- A word that is stored reads back. -/
theorem word64At_storeWords {at_ k : Nat} {ws : List Word} {w : Word} (hk : ws[k]? = some w) (s : State) :
    word64At (storeWords at_ ws s) (at_ + 8 * k) = w := by
  have hlt : k < ws.length := (List.getElem?_eq_some_iff.1 hk).1
  refine word64At_of_bytes fun j hj => ?_
  rw [Nat.add_assoc, storeWords, (memAt_storeBytesAt _ _ s).1 _ (by rw [length_wordBytes]; omega), getElem?_wordBytes hk hj]
  rfl

/-! ## What lies below an address -/

/-- A change of memory from an address on. -/
def KeptBelow (lo : Nat) (s t : State) : Prop := ∀ a < lo, memAt t a = memAt s a

theorem KeptBelow.refl (lo : Nat) (s : State) : KeptBelow lo s s := fun _ _ => rfl

theorem KeptBelow.trans {lo : Nat} {s t u : State} (h : KeptBelow lo s t) (h' : KeptBelow lo t u) : KeptBelow lo s u :=
  fun a ha => (h' a ha).trans (h a ha)

theorem KeptBelow.word {lo a : Nat} {s t : State} (h : KeptBelow lo s t) (ha : a + 8 ≤ lo) : word64At t a = word64At s a :=
  word64At_congr fun j hj => h (a + j) (by omega)

theorem keptBelow_foldl {α : Type} {lo : Nat} {f : State → α → State} {l : List α} (hf : ∀ s, ∀ x ∈ l, KeptBelow lo s (f s x))
    (s : State) : KeptBelow lo s (l.foldl f s) := by
  induction l generalizing s with
  | nil => exact KeptBelow.refl lo s
  | cons x l ih =>
    exact (hf s x List.mem_cons_self).trans (ih (fun s y hy => hf s y (List.mem_cons_of_mem x hy)) (f s x))

theorem keptBelow_storeBytesAt {lo at_ : Nat} (h : lo ≤ at_) (l : List Byte) (s : State) : KeptBelow lo s (storeBytesAt at_ l s) :=
  fun a ha => (memAt_storeBytesAt at_ l s).2 a (.inl (by omega))

theorem keptBelow_storeWords {lo at_ : Nat} (h : lo ≤ at_) (ws : List Word) (s : State) : KeptBelow lo s (storeWords at_ ws s) :=
  keptBelow_storeBytesAt h _ s

theorem spGet_clear_outside {α : Type} (d : α) (m : Sp α) {base n j : Nat} (h : j < base ∨ base + n ≤ j) :
    spGet d (spClear m base n) j = spGet d m j := by
  unfold spClear
  induction m with
  | nil => rfl
  | cons e m ih =>
    obtain ⟨k, v⟩ := e
    rw [List.filter_cons]
    by_cases hj : j = k
    · subst hj
      have hkeep : (!(decide (base ≤ j) && decide (j < base + n))) = true := by
        simp only [Bool.not_eq_true', Bool.and_eq_false_iff, decide_eq_false_iff_not]
        omega
      rw [if_pos hkeep]
      simp [spGet]
    · split
      · simpa [spGet, hj] using ih
      · simpa [spGet, hj] using ih

theorem keptBelow_copyMem {lo src dst n : Nat} (h : lo ≤ dst) (s : State) : KeptBelow lo s (copyMem src dst n s) := by
  intro a ha
  have hother : ∀ e ∈ ((spSlice s.mem src n).filter fun e => decide (e.1 < n)).map fun e => (dst + e.1, e.2), e.1 ≠ a := by
    intro e he
    obtain ⟨x, -, rfl⟩ := List.mem_map.1 he
    show dst + x.1 ≠ a
    omega
  show spGet 0 (spPaste 0 s.mem dst n (spSlice s.mem src n)) a = spGet 0 s.mem a
  rw [spPaste, spGet_setAll_other _ _ _ _ hother, spGet_clear_outside _ _ (.inl (by omega))]

theorem keptBelow_storeFree {lo at_ : Nat} (h : lo ≤ at_) (n : Nat) (s : State) : KeptBelow lo s (storeFree at_ n s) := by
  unfold storeFree drawBytes
  exact fun a ha => keptBelow_storeBytesAt h _ { s with freeUsed := s.freeUsed + 1 } a ha

/-! ## The units of a core that saves (R133) -/

/-- What the withdrawal of core subscriptions may change. -/
def Withdrawn (s t : State) : Prop := t = { s with
  me := { s.me with csubs := t.me.csubs, handles := t.me.handles, la := t.me.la }, taken := t.taken, ctl := t.ctl }

theorem Withdrawn.trans {s t u : State} (h : Withdrawn s t) (h' : Withdrawn t u) : Withdrawn s u := by
  unfold Withdrawn at *
  rw [h', h]

theorem withdrawn_unstage (x : CoreSub) (s : State) : Withdrawn s (unstage x s) := by
  unfold unstage
  split <;> exact rfl

theorem withdrawn_setCsub (n : Nat) (x : Option CoreSub) (s : State) : Withdrawn s (setCsub n x s) := rfl

theorem withdrawn_hPut (h : Nat) (v : Handle) (s : State) : Withdrawn s (hPut h v s) := rfl

theorem withdrawn_forgetSub (id : Nat) (s : State) : Withdrawn s (forgetSub id s) := rfl

theorem withdrawn_stopCsub (n : Nat) (s : State) : Withdrawn s (stopCsub n s) := by
  unfold stopCsub
  split
  · exact (withdrawn_setCsub n _ s).trans ((withdrawn_unstage _ _).trans
      ((withdrawn_hPut _ _ _).trans (withdrawn_forgetSub _ _)))
  · exact rfl

theorem withdrawn_foldl (l : List Nat) (s : State) : Withdrawn s (l.foldl (fun s n => stopCsub n s) s) := by
  induction l generalizing s with
  | nil => exact rfl
  | cons n l ih => exact (withdrawn_stopCsub n s).trans (ih (stopCsub n s))

/-- What of a core its save area gives in its first words. -/
def headerOf (m : Core) : BitVec 35 × BitVec 32 × BitVec 32 × BitVec 16 × BitVec 48 × Table :=
  (m.footprint, m.cap, m.level, m.rate, m.bell, m.table)

theorem stopUnits_header (s : State) : headerOf (stopUnits s).me = headerOf s.me ∧ (stopUnits s).switch = s.switch := by
  have hdrawn := withdrawn_foldl (List.range 16) s
  unfold stopUnits
  generalize List.foldl _ s (List.range 16) = u at *
  have hu : headerOf u.me = headerOf s.me ∧ u.switch = s.switch := by
    rw [hdrawn]
    exact ⟨rfl, rfl⟩
  exact hu

theorem drainTrace_header (s : State) : headerOf (drainTrace s).me = headerOf s.me ∧ (drainTrace s).switch = s.switch := by
  have hwrote := (wrote_logData (s.me.trace.flatMap traceBytes) s).1.frame
  unfold drainTrace
  generalize logData _ s = u at *
  have hu : headerOf u.me = headerOf s.me ∧ u.switch = s.switch := by
    rw [hwrote]
    exact ⟨rfl, rfl⟩
  exact hu

/-! ## The save area (R137) -/

/-- Words written at offsets from an address. -/
def storeAll (at_ : Nat) (l : List (Nat × List Word)) (s : State) : State :=
  l.foldl (fun s e => storeWords (at_ + e.1) e.2 s) s

theorem storeAll_frame (at_ : Nat) (l : List (Nat × List Word)) (s : State) :
    storeAll at_ l s = { s with mem := (storeAll at_ l s).mem, poison := (storeAll at_ l s).poison } := by
  unfold storeAll
  induction l generalizing s with
  | nil => rfl
  | cons e l ih =>
    rw [List.foldl_cons, ih]
    rfl

/-- Words stored first stay where all the others come after them. -/
theorem word64At_storeAll {at_ k n : Nat} {ws : List Word} {w : Word} {l : List (Nat × List Word)} (hk : ws[k]? = some w)
    (hbelow : 8 * k + 8 ≤ n) (hl : ∀ e ∈ l, n ≤ e.1) (s : State) :
    word64At (storeAll at_ ((0, ws) :: l) s) (at_ + 8 * k) = w := by
  have hkept : KeptBelow (at_ + n) (storeWords (at_ + 0) ws s) (storeAll at_ ((0, ws) :: l) s) :=
    keptBelow_foldl (fun s e he => keptBelow_storeWords (Nat.add_le_add_left (hl e he) at_) e.2 s) _
  rw [hkept.word (by omega)]
  exact word64At_storeWords hk s

/-- The first words of a save area, with STATE. -/
def headerWords (st : Nat) (m : Core) : List Word :=
  [BitVec.ofNat 64 st, m.footprint.setWidth 64, m.cap ++ m.level, m.rate.setWidth 64, m.bell.setWidth 64,
    tblCfg m.table, BitVec.ofNat 64 (occBits m), BitVec.ofNat 64 m.mbox.length]

theorem fixedWords_header (st : Nat) (m : Core) :
    ∃ l, fixedWords st m = (0, headerWords st m) :: l ∧ ∀ e ∈ l, 0x40 ≤ e.1 := by
  refine ⟨_, rfl, fun e he => ?_⟩
  rcases List.mem_append.1 he with hthread | hrest
  · obtain ⟨k, -, rfl⟩ := List.mem_map.1 hthread
    exact Nat.le_add_right _ _
  · simp only [List.mem_cons, List.not_mem_nil, or_false] at hrest
    rcases hrest with rfl | rfl | rfl | rfl | rfl | rfl | rfl | rfl | rfl | rfl
    all_goals exact Nat.le_of_ble_eq_true rfl

/-- What savings change: memory and its marks, and the count of free values. -/
def Stashed (s t : State) : Prop := t = { s with mem := t.mem, poison := t.poison, freeUsed := t.freeUsed }

theorem Stashed.trans {s t u : State} (h : Stashed s t) (h' : Stashed t u) : Stashed s u := by
  unfold Stashed at *
  rw [h', h]

theorem stashed_foldl {α : Type} {f : State → α → State} (hf : ∀ s a, Stashed s (f s a)) (l : List α) (s : State) :
    Stashed s (l.foldl f s) := by
  induction l generalizing s with
  | nil => exact rfl
  | cons a l ih => exact (hf s a).trans (ih (f s a))

theorem stashed_storeBytesAt (at_ : Nat) (l : List Byte) (s : State) : Stashed s (storeBytesAt at_ l s) := rfl

theorem stashed_copyMem (src dst n : Nat) (s : State) : Stashed s (copyMem src dst n s) := rfl

theorem stashed_storeFree (at_ n : Nat) (s : State) : Stashed s (storeFree at_ n s) :=
  Stashed.trans (t := { s with freeUsed := s.freeUsed + 1 }) rfl (stashed_storeBytesAt at_ _ _)

/-- The banks that a footprint names, copied behind a save area. -/
def banksSaved (area c : Nat) (f : BitVec 35) (s : State) : State :=
  (List.range (footBanks f).length).foldl (fun s j =>
    copyMem (scratchHome c (0x4000 * ((footBanks f)[j]?).getD 0)) (area + 0x7700 + 0x4000 * j) 0x4000 s) s

/-- The records of rays. -/
def raysSaved (area : Nat) (f : BitVec 35) (s : State) : State :=
  if footBit f 32 then storeFree (area + raysOff f) 0x1000 s else s

/-- The automaton array. -/
def arraySaved (area : Nat) (f : BitVec 35) (s : State) : State :=
  if footBit f 33 then storeBytesAt (area + laOff f) (laImage s.me.la) s else s

/-- The weight buffer. -/
def weightsSaved (area c : Nat) (f : BitVec 35) (s : State) : State :=
  if footBit f 34 then copyMem (weightHome c 0) (area + wbufOff f) Config.weightBytes s else s

theorem savePartsOf_eq (area : Nat) (s : State) : savePartsOf area s = weightsSaved area s.me.num s.me.footprint
    (arraySaved area s.me.footprint (raysSaved area s.me.footprint (banksSaved area s.me.num s.me.footprint s))) := rfl

theorem savePartsOf_spec (area : Nat) (s : State) :
    KeptBelow (area + 0x40) s (savePartsOf area s) ∧ Stashed s (savePartsOf area s) := by
  have hrays : 0x40 ≤ raysOff s.me.footprint := by
    unfold raysOff
    omega
  have hla : 0x40 ≤ laOff s.me.footprint := by
    unfold laOff
    omega
  have hwbuf : 0x40 ≤ wbufOff s.me.footprint := by
    unfold wbufOff
    omega
  rw [savePartsOf_eq]
  constructor
  · refine KeptBelow.trans (t := banksSaved area s.me.num s.me.footprint s)
      (keptBelow_foldl (fun s j _ => keptBelow_copyMem (by omega) s) s) (KeptBelow.trans
        (t := raysSaved area s.me.footprint (banksSaved area s.me.num s.me.footprint s)) ?_ (KeptBelow.trans
          (t := arraySaved area s.me.footprint (raysSaved area s.me.footprint (banksSaved area s.me.num s.me.footprint s))) ?_ ?_))
    · unfold raysSaved
      split
      · exact keptBelow_storeFree (by omega) _ _
      · exact KeptBelow.refl _ _
    · unfold arraySaved
      split
      · exact keptBelow_storeBytesAt (by omega) _ _
      · exact KeptBelow.refl _ _
    · unfold weightsSaved
      split
      · exact keptBelow_copyMem (by omega) _
      · exact KeptBelow.refl _ _
  · refine Stashed.trans (t := banksSaved area s.me.num s.me.footprint s) (stashed_foldl (fun s j => stashed_copyMem _ _ _ s) _ s) (Stashed.trans
        (t := raysSaved area s.me.footprint (banksSaved area s.me.num s.me.footprint s)) ?_ (Stashed.trans
          (t := arraySaved area s.me.footprint (raysSaved area s.me.footprint (banksSaved area s.me.num s.me.footprint s))) ?_ ?_))
    · unfold raysSaved
      split
      · exact stashed_storeFree _ _ _
      · exact rfl
    · unfold arraySaved
      split
      · exact stashed_storeBytesAt _ _ _
      · exact rfl
    · unfold weightsSaved
      split
      · exact stashed_copyMem _ _ _ _
      · exact rfl

/-- The state in which a core's units have stopped for its save. -/
def unitsStopped (s : State) : State := stopUnits (if s.ctx.fixed then drainTrace s else s)

theorem unitsStopped_header (s : State) : headerOf (unitsStopped s).me = headerOf s.me ∧ (unitsStopped s).switch = s.switch := by
  unfold unitsStopped
  split
  · obtain ⟨hheader, hswitch⟩ := stopUnits_header (drainTrace s)
    obtain ⟨hheader', hswitch'⟩ := drainTrace_header s
    exact ⟨hheader.trans hheader', hswitch.trans hswitch'⟩
  · exact stopUnits_header s

/-- The state in which the save area is written. -/
def areaSaved (area : Nat) (u : State) : State := savePartsOf area (storeAll area (fixedWords 1 u.me) u)

theorem exec_contextSave {area : Nat} {s : State} (hstopping : s.switch = .stopping) (hstopped : s.me.stopped = true)
    (hsaved : s.me.saved = false) (hcore : s.me.num ∈ s.ctx.cores) (hdrained : drained s = true) :
    exec (.contextSave area) s = .next { areaSaved area (unitsStopped s) with
      kept := spSet none (areaSaved area (unitsStopped s)).kept area (some (keep (areaSaved area (unitsStopped s)).me))
      me := { (areaSaved area (unitsStopped s)).me with saved := true, saveArea := area, itlb := [], dtlb := [] } } := by
  have hin : inPartition s s.me.num = true := by simpa [inPartition] using hcore
  show execContextSave area s = _
  unfold execContextSave
  rw [if_pos ⟨hstopping, hstopped, hsaved, hin, hdrained⟩]
  rfl

theorem contextSave_spec {area : Nat} {s : State} (hstopping : s.switch = .stopping) (hstopped : s.me.stopped = true)
    (hsaved : s.me.saved = false) (hcore : s.me.num ∈ s.ctx.cores) (hdrained : drained s = true) :
    Gives (exec (.contextSave area) s) fun t =>
      t.me.saved = true ∧ t.me.saveArea = area ∧ t.switch = .stopping ∧ word64At t area = 1 ∧
      word64At t (area + 8) = s.me.footprint.setWidth 64 ∧ word64At t (area + 16) = s.me.cap ++ s.me.level ∧
      word64At t (area + 24) = s.me.rate.setWidth 64 ∧ word64At t (area + 32) = s.me.bell.setWidth 64 ∧
      word64At t (area + 40) = tblCfg s.me.table := by
  refine ⟨_, exec_contextSave hstopping hstopped hsaved hcore hdrained, ?_⟩
  obtain ⟨hheader, hswitch⟩ := unitsStopped_header s
  generalize unitsStopped s = u at *
  obtain ⟨l, hwords, hl⟩ := fixedWords_header 1 u.me
  have hstored : ∀ k w, (headerWords 1 u.me)[k]? = some w → word64At (storeAll area (fixedWords 1 u.me) u) (area + 8 * k) = w := by
    intro k w hk
    have hlt : k < 8 := (List.getElem?_eq_some_iff.1 hk).1
    rw [hwords]
    exact word64At_storeAll (n := 0x40) hk (by omega) hl u
  have hframe := storeAll_frame area (fixedWords 1 u.me) u
  obtain ⟨hkept, hstashed⟩ := savePartsOf_spec area (storeAll area (fixedWords 1 u.me) u)
  have hword : ∀ k w, (headerWords 1 u.me)[k]? = some w → word64At (areaSaved area u) (area + 8 * k) = w := by
    intro k w hk
    have hlt : k < 8 := (List.getElem?_eq_some_iff.1 hk).1
    rw [← hstored k w hk]
    exact hkept.word (by omega)
  have hswitch' : (areaSaved area u).switch = u.switch := by
    rw [areaSaved, hstashed, hframe]
  generalize areaSaved area u = v at *
  injection hheader with hfoot hheader
  injection hheader with hcap hheader
  injection hheader with hlevel hheader
  injection hheader with hrate hheader
  injection hheader with hbell htable
  rw [← hfoot, ← hcap, ← hlevel, ← hrate, ← hbell, ← htable]
  exact ⟨rfl, rfl, hswitch'.trans (hswitch.trans hstopping), hword 0 _ rfl, hword 1 _ rfl, hword 2 _ rfl, hword 3 _ rfl,
    hword 4 _ rfl, hword 5 _ rfl⟩

/-! ## The partition save record (R139) -/

theorem partWords_header (s : State) : ∃ ws l, partWords s = (0, 1 :: ws) :: l ∧ ∀ e ∈ l, 8 ≤ e.1 := by
  refine ⟨_, _, rfl, fun e he => ?_⟩
  rcases List.mem_append.1 he with hfixed | hdies
  · simp only [List.mem_cons, List.not_mem_nil, or_false] at hfixed
    rcases hfixed with rfl | rfl | rfl
    all_goals exact Nat.le_of_ble_eq_true rfl
  · obtain ⟨d, -, hd⟩ := List.mem_flatMap.1 hdies
    obtain ⟨x, -, rfl⟩ := List.mem_map.1 hd
    show 8 ≤ 0x1000 + 0x20000 * d + x.1
    omega

theorem copyCheckpoint_frame (base : Nat) (s : State) : ∃ ls ds n k, copyCheckpoint base s =
    { s with links := ls, delays := ds, freeUsed := n, ckCopy := k } := by
  unfold copyCheckpoint
  split
  · split
    · exact ⟨_, _, _, _, rfl⟩
    · dsimp only
      unfold sendTo
      split
      · obtain ⟨ls, ds, n, hsend⟩ := sendFlit_frame _ 2 s.ctx.pod.buddy none _
        exact ⟨_, _, _, _, hsend⟩
      · exact ⟨_, _, _, _, rfl⟩
  · exact ⟨_, _, _, _, rfl⟩

/-- The state in which the partition counts as saved whose record is written in memory. -/
def partitionSaved (base : Nat) (s : State) : State :=
  { s with
    switch := .saved, wakes := [], ctxBase := some base
    keptPart := spSet none s.keptPart base (some ⟨s.ctx, s.clusters, s.dies, s.tracks, s.kernels,
      s.ctx.cores.map fun c => (c, (coreOf s c).saveArea), s.replay⟩) }

theorem exec_partitionSaveRecord {base : Nat} {s : State} (hstopping : s.switch = .stopping)
    (hsaved : ∀ c ∈ s.ctx.cores, (coreOf s c).saved = true) :
    exec (.partitionSaveRecord base) s = .next (copyCheckpoint base (partitionSaved base (storeAll base (partWords s) s))) := by
  have hall : s.ctx.cores.all (hasSaved s) = true := List.all_eq_true.2 hsaved
  show execPartitionSaveRecord base s = _
  unfold execPartitionSaveRecord
  rw [if_pos ⟨hstopping, hall⟩]
  rfl

theorem partitionSaveRecord_spec {base : Nat} {s : State} (hstopping : s.switch = .stopping)
    (hsaved : ∀ c ∈ s.ctx.cores, (coreOf s c).saved = true) : Gives (exec (.partitionSaveRecord base) s) fun t =>
      t.switch = .saved ∧ word64At t base = 1 ∧ t.ctxBase = some base ∧ t.me = s.me ∧ t.others = s.others := by
  obtain ⟨ws, l, hwords, hl⟩ := partWords_header s
  have hword : word64At (storeAll base (partWords s) s) base = 1 := by
    rw [hwords]
    exact word64At_storeAll (k := 0) rfl (by omega) hl s
  have hframe := storeAll_frame base (partWords s) s
  have hrun := exec_partitionSaveRecord (base := base) hstopping hsaved
  generalize storeAll base (partWords s) s = u at *
  obtain ⟨ls, ds, n, k, hcopy⟩ := copyCheckpoint_frame base (partitionSaved base u)
  rw [hcopy] at hrun
  refine ⟨_, hrun, rfl, hword, rfl, ?_, ?_⟩
  · show u.me = s.me
    rw [hframe]
  · show u.others = s.others
    rw [hframe]

end Sys2Proof.Proofs
end

section
/-!
SUPPORT. The resume of a context: how it becomes the present one, and what a core is that has been restored.
-/

namespace Sys2Proof.Proofs

open Sys2Proof Sys2Proof.Machine Sys2Proof.Laws

/-! ## A context that becomes the present one -/

theorem putAway_frame (s : State) : putAway s = { s with away := (putAway s).away } := by
  unfold putAway
  split <;> rfl

/-- What a change of the map of dies changes. -/
theorem rekeyDies_frame (old new : List Nat) (s : State) : rekeyDies old new s = { s with
    me := (rekeyDies old new s).me, others := (rekeyDies old new s).others, dies := (rekeyDies old new s).dies
    memDown := (rekeyDies old new s).memDown, degraded := (rekeyDies old new s).degraded, remap := (rekeyDies old new s).remap } := by
  unfold rekeyDies
  split <;> rfl

theorem rekeyDies_num (old new : List Nat) (s : State) : (rekeyDies old new s).me.num = s.me.num := by
  unfold rekeyDies
  split <;> rfl

theorem rekeyDies_same (map : List Nat) (s : State) : rekeyDies map map s = s := if_pos rfl

theorem recordOn_cfg {cfg : CtxConfig} {base : Option Nat} {s : State} {e : Nat × CtxFw} (h : recordOn cfg base s = some e) :
    e.2.cfg = cfg ∧ e.2.base = base := by
  obtain ⟨x, -, hx⟩ := List.exists_of_findSome?_eq_some h
  split at hx
  · split at hx
    · next hcfg =>
      cases hx
      exact hcfg
    · cases hx
  · cases hx

theorem suspendedFor_cfg {cfg : CtxConfig} {base : Nat} {s : State} (h : presentIs cfg base s = false) :
    (suspendedFor cfg base s).cfg = cfg := by
  unfold suspendedFor
  rw [h, if_neg Bool.false_ne_true]
  cases hrecord : recordOn cfg (some base) s with
  | none => rfl
  | some e => exact (recordOn_cfg hrecord).1

/-- A state in which a context's firmware record is that of the present context. -/
structure Seated (x : CtxFw) (cfg : CtxConfig) (s t : State) : Prop where
  mem : t.mem = s.mem
  clock : t.clock = s.clock
  num : t.me.num = s.me.num
  ctx : t.ctx = cfg
  map : t.dieMap = x.dieMap
  seq : t.fw.lastSeq = x.lastSeq
  events : t.fw.events = x.events
  core : x.dieMap = s.dieMap → t.me.rot = s.me.rot ∧ t.me.rotPol = s.me.rotPol ∧ t.me.drops = s.me.drops

/-- The state in which a context's record is taken out, and that of the present one joins the others. -/
def seatCleared (at_ : Option Nat) (s : State) : State :=
  putAway (match at_ with | some k => { s with away := spSet none s.away k none } | none => s)

theorem seatCleared_frame (at_ : Option Nat) (s : State) : seatCleared at_ s = { s with away := (seatCleared at_ s).away } := by
  unfold seatCleared
  rw [putAway_frame]
  cases at_ <;> rfl

theorem becomePresent_eq (at_ : Option Nat) (x : CtxFw) (s : State) : becomePresent at_ x s =
    rekeyDies (seatCleared at_ s).dieMap x.dieMap (setOwnFw x (seatCleared at_ s)) := rfl

theorem seated_becomePresent (at_ : Option Nat) (x : CtxFw) (s : State) : Seated x x.cfg s (becomePresent at_ x s) := by
  have hcleared := seatCleared_frame at_ s
  rw [becomePresent_eq]
  generalize seatCleared at_ s = u at *
  have hframe := rekeyDies_frame u.dieMap x.dieMap (setOwnFw x u)
  have hnum := rekeyDies_num u.dieMap x.dieMap (setOwnFw x u)
  have hmap : u.dieMap = s.dieMap := by rw [hcleared]
  have hme : (setOwnFw x u).me = s.me := by
    show u.me = s.me
    rw [hcleared]
  refine ⟨?_, ?_, hnum.trans (by rw [hme]), ?_, ?_, ?_, ?_, fun h => ?_⟩
  · rw [hframe]
    show u.mem = s.mem
    rw [hcleared]
  · rw [hframe]
    show u.clock = s.clock
    rw [hcleared]
  · rw [hframe]
    rfl
  · rw [hframe]
    rfl
  · rw [hframe]
    rfl
  · rw [hframe]
    rfl
  · rw [hmap, h, rekeyDies_same, hme]
    exact ⟨rfl, rfl, rfl⟩

theorem seated_presentFor (cfg : CtxConfig) (base : Nat) (s : State) :
    Seated (suspendedFor cfg base s) cfg s (presentFor cfg base s) := by
  unfold presentFor
  split
  · next h =>
    have hown : suspendedFor cfg base s = ownFw s := by rw [suspendedFor, if_pos h]
    have hcfg : s.ctx = cfg := by
      unfold presentIs at h
      rw [Bool.and_eq_true, beq_iff_eq] at h
      exact h.1
    rw [hown]
    exact ⟨rfl, rfl, rfl, hcfg, rfl, rfl, rfl, fun _ => ⟨rfl, rfl, rfl⟩⟩
  · next h =>
    have hpresent := seated_becomePresent ((recordOn cfg (some base) s).map (·.1)) (suspendedFor cfg base s) s
    rwa [suspendedFor_cfg (by simpa using h)] at hpresent

/-- The dies and clusters of a partition are restored from its record. -/
def diesRestored (base : Nat) (s : State) : State := (partDies s).foldl (fun s d =>
  let at_ := base + 0x1000 + 0x20000 * d
  let s := setDie d (restoredDie s at_ (dieAt s d)) s
  (List.range 4).foldl (fun s j => setCluster (4 * d + j) (restoredCluster s at_ j (clusterAt s (4 * d + j))) s) s) s

theorem diesRestored_frame (base : Nat) (s : State) :
    diesRestored base s = { s with dies := (diesRestored base s).dies, clusters := (diesRestored base s).clusters } := by
  have hclusters : ∀ (at_ d : Nat) (l : List Nat) (s : State),
      l.foldl (fun s j => setCluster (4 * d + j) (restoredCluster s at_ j (clusterAt s (4 * d + j))) s) s =
        { s with clusters := (l.foldl (fun s j =>
          setCluster (4 * d + j) (restoredCluster s at_ j (clusterAt s (4 * d + j))) s) s).clusters } := by
    intro at_ d l
    induction l with
    | nil => exact fun _ => rfl
    | cons j l ih =>
      intro s
      rw [List.foldl_cons, ih]
      rfl
  unfold diesRestored
  generalize partDies s = l
  induction l generalizing s with
  | nil => rfl
  | cons d l ih =>
    rw [List.foldl_cons, ih]
    dsimp only
    rw [hclusters]
    rfl

/-- The shared state that is not by die. -/
def sharedRestored (base : Nat) (x : KeptPart) (s : State) : State :=
  { s with
    clusters := x.clusters, dies := x.dies.map fun e => (e.1, { e.2 with inReset := (dieAt s e.1).inReset })
    tracks := placeTracks s.clock (fun t old => restartTrack s.clock old (spGet startTrack x.tracks t)) x.ctx.tracks s.tracks
    kernels := x.kernels, replay := x.replay, ctxBase := some base
    pkgBars := barsOf (getWords s (base + 0x40) 16), podBars := barsOf (getWords s (base + 0xC0) 8), wakes := [] }

theorem restorePart_eq (base : Nat) (x : KeptPart) (s : State) :
    restorePart base x s = diesRestored base (sharedRestored base x (presentFor x.ctx base s)) := rfl

theorem seated_restorePart (base : Nat) (x : KeptPart) (s : State) :
    Seated (suspendedFor x.ctx base s) x.ctx s (restorePart base x s) := by
  obtain ⟨hmem, hclock, hnum, hctx, hmap, hseq, hevents, hcore⟩ := seated_presentFor x.ctx base s
  rw [restorePart_eq]
  generalize presentFor x.ctx base s = u at *
  have hframe := diesRestored_frame base (sharedRestored base x u)
  generalize diesRestored base (sharedRestored base x u) = v at *
  rw [hframe]
  exact ⟨hmem, hclock, hnum, hctx, hmap, hseq, hevents, hcore⟩

/-! ## A core that is restored (R142) -/

/-- What the steps of a restoration change that come after the core's registers. -/
def Refilled (s t : State) : Prop := t = { s with
  me := { s.me with
    slots := t.me.slots, pool := t.me.pool, raySubs := t.me.raySubs, csubs := t.me.csubs, power := t.me.power }
  mem := t.mem, poison := t.poison, ctl := t.ctl, serial := t.serial }

theorem Refilled.refl (s : State) : Refilled s s := rfl

theorem Refilled.trans {s t u : State} (h : Refilled s t) (h' : Refilled t u) : Refilled s u := by
  unfold Refilled at *
  rw [h', h]

theorem refilled_foldl {α : Type} {f : State → α → State} (hf : ∀ s a, Refilled s (f s a)) (l : List α) (s : State) :
    Refilled s (l.foldl f s) := by
  induction l generalizing s with
  | nil => exact Refilled.refl s
  | cons a l ih => exact (hf s a).trans (ih (f s a))

theorem refilled_copyMem (src dst n : Nat) (s : State) : Refilled s (copyMem src dst n s) := rfl

theorem refilled_zeroMem (dst n : Nat) (s : State) : Refilled s (zeroMem dst n s) := rfl

theorem refilled_storeWords (at_ : Nat) (ws : List Word) (s : State) : Refilled s (storeWords at_ ws s) := rfl

/-- The banks that FOOTPRINT leaves out, cleared. -/
def banksCleared (c : Nat) (f : BitVec 35) (s : State) : State :=
  (List.range 32).foldl (fun s b => if footBit f b then s else zeroMem (scratchHome c (0x4000 * b)) 0x4000 s) s

/-- The banks that it names, read back. -/
def banksBack (area c : Nat) (f : BitVec 35) (s : State) : State :=
  (List.range (footBanks f).length).foldl (fun s j =>
    copyMem (area + 0x7700 + 0x4000 * j) (scratchHome c (0x4000 * ((footBanks f)[j]?).getD 0)) 0x4000 s) s

theorem restoreParts_eq (area : Nat) (s : State) : restoreParts area s =
    if footBit s.me.footprint 34 then copyMem (area + wbufOff s.me.footprint) (weightHome s.me.num 0) Config.weightBytes
      (banksBack area s.me.num s.me.footprint (banksCleared s.me.num s.me.footprint s))
    else zeroMem (weightHome s.me.num 0) Config.weightBytes
      (banksBack area s.me.num s.me.footprint (banksCleared s.me.num s.me.footprint s)) := rfl

theorem refilled_banksCleared (c : Nat) (f : BitVec 35) (s : State) : Refilled s (banksCleared c f s) := by
  refine refilled_foldl (fun s b => ?_) _ s
  split
  · exact Refilled.refl s
  · exact refilled_zeroMem _ _ s

theorem refilled_banksBack (area c : Nat) (f : BitVec 35) (s : State) : Refilled s (banksBack area c f s) :=
  refilled_foldl (fun s _ => refilled_copyMem _ _ _ s) _ s

theorem refilled_restoreParts (area : Nat) (s : State) : Refilled s (restoreParts area s) := by
  have hbanks := (refilled_banksCleared s.me.num s.me.footprint s).trans (refilled_banksBack area s.me.num s.me.footprint _)
  rw [restoreParts_eq]
  split
  · exact hbanks.trans (refilled_copyMem _ _ _ _)
  · exact hbanks.trans (refilled_zeroMem _ _ _)

theorem refilled_wrSlotRun (sl k : Nat) (ws : List Word) (s : State) : Refilled s (wrSlotRun sl k ws s) := by
  rw [Refilled, wrSlotRun_frame]

theorem refilled_setSlot (k : Nat) (v : Slot) (s : State) : Refilled s (setSlot k v s) := rfl

theorem refilled_restoreThread (area k : Nat) (s : State) : Refilled s (restoreThread area k s) := by
  unfold restoreThread
  dsimp only
  split
  · exact (refilled_setSlot k _ s).trans (refilled_wrSlotRun _ _ _ _)
  · exact Refilled.refl s

theorem refilled_resubRay (x : RaySub) (s : State) : Refilled s (resubRay x s) := rfl

theorem refilled_resubCore (w0 w1 : Word) (n : Nat) (s : State) : Refilled s (resubCore w0 w1 n s) := by
  unfold resubCore
  split
  · exact rfl
  · exact Refilled.refl s

theorem refilled_headKindles (s : State) : Refilled s (headKindles s) ∧ (headKindles s).mem = s.mem := by
  obtain ⟨p, hframe, -⟩ := headKindles_frame s
  rw [hframe]
  exact ⟨rfl, rfl⟩

/-- The threads of a core are recreated. -/
def threadsBack (area : Nat) (occ : Word) (s : State) : State :=
  ((List.range 16).filter fun k => bits occ k 1 == 1).foldl (fun s k => restoreThread area k s) s

/-- Its ray subscriptions are made again. -/
def raysBack (x : KeptCore) (s : State) : State :=
  if footBit s.me.footprint 32 then x.raySubs.foldl (fun s y => resubRay y s) s else s

/-- Its core subscriptions are made again. -/
def csubsBack (ws : List Word) (s : State) : State :=
  (List.range 16).foldl (fun s n => resubCore ((ws[2 * n]?).getD 0) ((ws[2 * n + 1]?).getD 0) n s) s

/-- The core before its save area is marked free. -/
def coreBack (area base : Nat) (x : KeptCore) (s : State) : State :=
  csubsBack (csubList (raysBack x (threadsBack area (word64At s (area + 48))
      (restoreParts area { s with me := restoredCore s area x }))) base
    (raysBack x (threadsBack area (word64At s (area + 48)) (restoreParts area { s with me := restoredCore s area x }))).me.num)
    (raysBack x (threadsBack area (word64At s (area + 48)) (restoreParts area { s with me := restoredCore s area x })))

/-- The core with its save area marked free. -/
def areaFreed (area : Nat) (s : State) : State := headKindles
  { storeWords area [0] s with me := { (storeWords area [0] s).me with saved := false, resuming := true } }

theorem resumeCore_eq (area base : Nat) (x : KeptCore) (s : State) :
    resumeCore area base x s = areaFreed area (coreBack area base x s) := rfl

theorem refilled_coreBack (area base : Nat) (x : KeptCore) (s : State) :
    Refilled { s with me := restoredCore s area x } (coreBack area base x s) := by
  have hthreads : ∀ u, Refilled u (threadsBack area (word64At s (area + 48)) u) := fun u =>
    refilled_foldl (fun s k => refilled_restoreThread area k s) _ u
  have hrays : ∀ u, Refilled u (raysBack x u) := by
    intro u
    unfold raysBack
    split
    · exact refilled_foldl (f := fun s y => resubRay y s) (fun s y => refilled_resubRay y s) _ u
    · exact Refilled.refl u
  have hcsubs : ∀ ws u, Refilled u (csubsBack ws u) := fun ws u =>
    refilled_foldl (fun s n => refilled_resubCore _ _ n s) _ u
  exact (refilled_restoreParts area _).trans ((hthreads _).trans ((hrays _).trans (hcsubs _ _)))

/-- What a core is that has been restored, as its save area's first words give it, and as it stood before. -/
structure Restored (area : Nat) (s t : State) : Prop where
  frame : t = { s with
    me := t.me, mem := t.mem, poison := t.poison, ctl := t.ctl, serial := t.serial }
  freed : word64At t area = 0
  num : t.me.num = s.me.num
  saved : t.me.saved = false
  level : t.me.cap ++ t.me.level = word64At s (area + 16)
  rate : t.me.rate = (word64At s (area + 24)).setWidth 16
  bell : t.me.bell = (word64At s (area + 32)).setWidth 48
  footprint : t.me.footprint = (word64At s (area + 8)).setWidth 35
  resuming : t.me.resuming = true
  rot : t.me.rot = s.me.rot
  rotPol : t.me.rotPol = policyFor s.ctx.fixed s.me.rotPol
  drops : t.me.drops = s.me.drops

theorem ofNat_bits (w : Word) {n : Nat} : BitVec.ofNat n (bits w 0 n) = w.setWidth n := by
  refine BitVec.eq_of_toNat_eq ?_
  rw [BitVec.toNat_ofNat, BitVec.toNat_setWidth, bits, Nat.pow_zero, Nat.div_one, Nat.mod_mod]

theorem halves_of_word (w : Word) : BitVec.ofNat 32 (bits w 32 32) ++ BitVec.ofNat 32 (bits w 0 32) = w := by
  refine BitVec.eq_of_toNat_eq ?_
  have hlt := w.isLt
  rw [toNat_append_add, BitVec.toNat_ofNat, BitVec.toNat_ofNat, bits, bits]
  omega

theorem restored_resumeCore (area base : Nat) (x : KeptCore) (s : State) : Restored area s (resumeCore area base x s) := by
  have hback := refilled_coreBack area base x s
  rw [resumeCore_eq]
  generalize coreBack area base x s = u at *
  have hword : word64At (storeWords area [0] u) (area + 8 * 0) = 0 := word64At_storeWords rfl u
  have hstored := refilled_storeWords area [0] u
  have hareaFreed : areaFreed area u = headKindles
    { storeWords area [0] u with me := { (storeWords area [0] u).me with saved := false, resuming := true } } := rfl
  generalize storeWords area [0] u = v at *
  obtain ⟨hkindled, hmem⟩ := refilled_headKindles { v with me := { v.me with saved := false, resuming := true } }
  rw [← hareaFreed] at hkindled hmem
  generalize areaFreed area u = t at *
  have hall := hback.trans hstored
  rw [Refilled] at hall hkindled
  refine ⟨?_, ?_, ?_, ?_, ?_, ?_, ?_, ?_, ?_, ?_, ?_, ?_⟩
  · rw [hkindled, hall]
  · rw [← hword]
    exact word64At_congr fun j _ => by
      rw [memAt, memAt, hmem]
  all_goals rw [hkindled, hall]
  · rfl
  · exact halves_of_word _
  · exact ofNat_bits _
  · exact ofNat_bits _
  · exact ofNat_bits _
  · rfl
  · rfl
  · rfl

/-! ## CONTEXT_RESUME (R142) -/

/-- The partition's shared state stands as its only core is to be restored. -/
def resumeReady (base : Nat) (p : KeptPart) (s : State) : State :=
  if presentIs p.ctx base s = false ∨ s.ctx.cores.all (hasSaved s) then markSaved p.ctx.cores (restorePart base p s) else s

theorem resumeAt_eq (area base : Nat) (x : KeptCore) (p : KeptPart) (s : State) : resumeAt area base x p s =
    residentAgain { resumeCore area base x (resumeReady base p s) with
      kept := spSet none (resumeCore area base x (resumeReady base p s)).kept area none } := rfl

theorem markSaved_own {n : Nat} {s : State} (hn : s.me.num = n) :
    markSaved [n] s = { s with me := { s.me with saved := true, stopped := true } } := by
  subst hn
  exact withCore_own (f := fun s => { s with me := { s.me with saved := true, stopped := true } }) rfl

theorem seated_resumeReady {base : Nat} {p : KeptPart} {s : State} (hcores : p.ctx.cores = [s.me.num]) :
    Seated (suspendedFor p.ctx base s) p.ctx s (resumeReady base p s) := by
  unfold resumeReady
  split
  · obtain ⟨hmem, hclock, hnum, hctx, hmap, hseq, hevents, hcore⟩ := seated_restorePart base p s
    rw [hcores, markSaved_own hnum]
    exact ⟨hmem, hclock, hnum, hctx, hmap, hseq, hevents, hcore⟩
  · next h =>
    have hpresent : presentIs p.ctx base s = true := by simpa using not_or.1 h |>.1
    have hseated := seated_presentFor p.ctx base s
    rwa [presentFor, if_pos hpresent] at hseated

theorem residentAgain_alone {s : State} (hcores : s.ctx.cores = [s.me.num]) (hsaved : s.me.saved = false) :
    residentAgain s = { s with
      switch := .resident, me := { s.me with stopped := false }
      others := s.others.map fun e => (e.1, e.2.map fun m => { m with stopped := false }) } := by
  have hall : (s.ctx.cores.all fun c => !hasSaved s c) = true := by
    rw [hcores, List.all_cons, List.all_nil, Bool.and_true, hasSaved, coreOf, if_pos rfl, hsaved]
    rfl
  unfold residentAgain
  rw [if_pos hall]

theorem exec_contextResume {area base : Nat} {x : KeptCore} {p : KeptPart} {s : State} (hsaved : s.switch = .saved)
    (hkept : spGet none s.kept area = some x) (hpart : spGet none s.keptPart base = some p) (harea : word64At s area = 1)
    (hbase : word64At s base = 1) (hcircuits : circuitsSet s (suspendedFor p.ctx base s).dieMap p.ctx = true)
    (hthermal : (suspendedFor p.ctx base s).thermal = false) (hcores : p.ctx.cores = [s.me.num]) :
    exec (.contextResume area base) s = .next (resumeAt area base x p s) := by
  have hin : p.ctx.cores.contains s.me.num = true := by
    rw [hcores]
    simp
  have hgood : ¬(s.switch ≠ .saved ∨ word64At s area ≠ 1 ∨ word64At s base ≠ 1 ∨
      !circuitsSet s (suspendedFor p.ctx base s).dieMap p.ctx ∨ (suspendedFor p.ctx base s).thermal ∨
      !p.ctx.cores.contains s.me.num) := by
    rw [hsaved, harea, hbase, hcircuits, hthermal, hin]
    simp
  show execContextResume area base s = _
  unfold execContextResume
  rw [hkept, hpart]
  dsimp only
  rw [if_neg hgood]

theorem contextResume_spec {area base : Nat} {x : KeptCore} {p : KeptPart} {s : State} (hsaved : s.switch = .saved)
    (hkept : spGet none s.kept area = some x) (hpart : spGet none s.keptPart base = some p) (harea : word64At s area = 1)
    (hbase : word64At s base = 1) (hcircuits : circuitsSet s (suspendedFor p.ctx base s).dieMap p.ctx = true)
    (hthermal : (suspendedFor p.ctx base s).thermal = false) (hcores : p.ctx.cores = [s.me.num]) :
    Gives (exec (.contextResume area base) s) fun t =>
      t.switch = .resident ∧ t.ctx = p.ctx ∧ t.me.stopped = false ∧ t.me.saved = false ∧ t.me.num = s.me.num ∧
      word64At t area = 0 ∧ t.me.cap ++ t.me.level = word64At s (area + 16) ∧
      t.me.rate = (word64At s (area + 24)).setWidth 16 ∧ t.me.bell = (word64At s (area + 32)).setWidth 48 ∧
      t.me.footprint = (word64At s (area + 8)).setWidth 35 ∧ t.me.resuming = true ∧
      t.dieMap = (suspendedFor p.ctx base s).dieMap ∧ t.fw.lastSeq = (suspendedFor p.ctx base s).lastSeq ∧
      t.fw.events = (suspendedFor p.ctx base s).events ∧
      ((suspendedFor p.ctx base s).dieMap = s.dieMap → t.me.rot = s.me.rot ∧
        t.me.rotPol = (if p.ctx.fixed = true then 0 else s.me.rotPol) ∧ t.me.drops = s.me.drops) := by
  have hrun := exec_contextResume hsaved hkept hpart harea hbase hcircuits hthermal hcores
  obtain ⟨hmem, -, hnum, hctx, hmap, hseq, hevents, hcore⟩ := seated_resumeReady (base := base) hcores
  rw [resumeAt_eq] at hrun
  generalize suspendedFor p.ctx base s = own at *
  generalize resumeReady base p s = u at *
  have hrestored := restored_resumeCore area base x u
  generalize resumeCore area base x u = v at *
  obtain ⟨hframe, hfreed, hnumv, hsavedv, hlevel, hrate, hbell, hfoot, hresuming, hrot, hrotPol, hdrops⟩ := hrestored
  have hctxv : v.ctx = p.ctx := by
    rw [hframe]
    exact hctx
  have hword : ∀ a, word64At u a = word64At s a := fun a => word64At_congr fun j _ => by rw [memAt, hmem, memAt]
  have hagain := residentAgain_alone (s := { v with kept := spSet none v.kept area none })
    (by rw [hctxv, hcores, hnumv, hnum]) hsavedv
  generalize spSet none v.kept area none = kept at *
  rw [hagain] at hrun
  rw [hword] at hlevel hrate hbell hfoot
  refine ⟨_, hrun, rfl, hctxv, rfl, hsavedv, hnumv.trans hnum, hfreed, hlevel, hrate, hbell, hfoot, hresuming, ?_, ?_, ?_, fun h => ?_⟩
  · show v.dieMap = _
    rw [hframe]
    exact hmap
  · show v.fw.lastSeq = _
    rw [hframe]
    exact hseq
  · show v.fw.events = _
    rw [hframe]
    exact hevents
  · obtain ⟨hrotu, hrotPolu, hdropsu⟩ := hcore h
    refine ⟨hrot.trans hrotu, ?_, hdrops.trans hdropsu⟩
    rw [← hrotPolu, ← hctx]
    exact hrotPol

end Sys2Proof.Proofs
end

section
/-!
SUPPORT. The start of a context: its record while it waits, and the state in which it begins.
-/

namespace Sys2Proof.Proofs

open Sys2Proof Sys2Proof.Machine Sys2Proof.Laws

/-! ## A context that is created (R292) -/

theorem mem_keys_of_get {α : Type} {m : Sp (Option α)} {k : Nat} (h : spGet none m k ≠ none) : k ∈ m.map (·.1) := by
  induction m with
  | nil => exact absurd rfl h
  | cons e m ih =>
    obtain ⟨j, v⟩ := e
    rw [List.map_cons, List.mem_cons]
    by_cases hk : k = j
    · exact .inl hk
    · rw [spGet, if_neg hk] at h
      exact .inr (ih h)

/-- The place that firmware keeps a new record at is free. -/
theorem freeRecord_spec (cmdLine : Nat) (s : State) :
    spGet none s.away (freeRecord cmdLine s) = none ∧ freeRecord cmdLine s % 2 ^ 64 = cmdLine % 2 ^ 64 := by
  unfold freeRecord
  dsimp only
  refine ⟨?_, by omega⟩
  cases hfind : (List.range (s.away.length + 1)).find? fun j => (spGet none s.away (cmdLine + 2 ^ 64 * j)).isNone with
  | some j =>
    have hnone := List.find?_some hfind
    exact Option.isNone_iff_eq_none.1 hnone
  | none =>
    exfalso
    have hused : (List.range (s.away.length + 1)).map (fun j => cmdLine + 2 ^ 64 * j) ⊆ s.away.map (·.1) := by
      intro k hk
      obtain ⟨j, hj, rfl⟩ := List.mem_map.1 hk
      refine mem_keys_of_get fun hnone => ?_
      have hsome := List.find?_eq_none.1 hfind j hj
      exact hsome (Option.isNone_iff_eq_none.2 hnone)
    have hnodup : ((List.range (s.away.length + 1)).map fun j => cmdLine + 2 ^ 64 * j).Nodup :=
      List.nodup_range.map fun a b heq => by omega
    have hle := (hnodup.subperm hused).length_le
    rw [List.length_map, List.length_map, List.length_range] at hle
    omega

theorem createContext_spec (cfg : CtxConfig) (s : State) :
    let t := createContext cfg s
    (∀ e, recordOn cfg none s = some e → t = s) ∧
    (recordOn cfg none s = none → ∃ k, k % 2 ^ 64 = cfg.cmdLine % 2 ^ 64 ∧ spGet none t.away k = some (newCtxFw cfg) ∧
      spGet none s.away k = none ∧ ∀ j, j ≠ k → spGet none t.away j = spGet none s.away j) ∧ t.ctx = s.ctx ∧
    t.switch = s.switch ∧ t.mem = s.mem ∧ t.me = s.me := by
  intro t
  have hnew : recordOn cfg none s = none → t = addRecord (newCtxFw cfg) s := by
    intro h
    show createContext cfg s = _
    rw [createContext, h]
    rfl
  have hold : ∀ e, recordOn cfg none s = some e → t = s := by
    intro e h
    show createContext cfg s = _
    rw [createContext, h]
    rfl
  refine ⟨hold, fun h => ?_, ?_⟩
  · obtain ⟨hfree, hmod⟩ := freeRecord_spec cfg.cmdLine s
    have haway : (addRecord (newCtxFw cfg) s).away = spSet none s.away (freeRecord cfg.cmdLine s) (some (newCtxFw cfg)) := rfl
    rw [hnew h, haway]
    exact ⟨freeRecord cfg.cmdLine s, hmod, spGet_set_same _ _ _ _, hfree, fun j hj => spGet_set_other none s.away _ j _ hj⟩
  · cases h : recordOn cfg none s with
    | none =>
      rw [hnew h]
      exact ⟨rfl, rfl, rfl, rfl⟩
    | some e =>
      rw [hold e h]
      exact ⟨rfl, rfl, rfl, rfl⟩

/-! ## CONTEXT_START -/

section
variable {cfg : CtxConfig} {s : State}

theorem exec_contextStart_refused (h : replayRefused cfg = true) :
    exec (.contextStart cfg) s = .refused (.notDue "CONTEXT_START") := by
  show execContextStart cfg s = _
  unfold execContextStart
  rw [h, Bool.not_true, Bool.and_false, Bool.false_and, if_neg Bool.false_ne_true]

theorem exec_contextStart (hruns : s.fw.running = true) (hline : cfg.cmdLine ≠ s.ctx.cmdLine ∨ seatFree s = true)
    (hreplay : replayRefused cfg = false) : exec (.contextStart cfg) s =
      if seatFree s && canStartContext cfg s then .next (startContext cfg s) else .next (createContext cfg s) := by
  have hfree : (!(cfg.cmdLine == s.ctx.cmdLine && !seatFree s)) = true := by
    rcases hline with h | h
    · rw [beq_eq_false_iff_ne.2 h]
      rfl
    · rw [h, Bool.not_true, Bool.and_false]
      rfl
  show execContextStart cfg s = _
  unfold execContextStart
  rw [hruns, hreplay, hfree]
  rfl

/-- Each of these keeps a context from its start. -/
theorem not_canStart (h : cfg.pod.buddyRoom < contextBytes cfg s ∨ inReserved cfg s = true ∨ cfg.pod.buddy = s.pkg ∨
    cfg.pod.domain = cfg.pod.buddyDom ∨ 1024 < cfg.packages ∨ circuitsSet s (recordFor cfg s).dieMap cfg = false) :
    canStartContext cfg s = false := by
  refine Bool.eq_false_iff.2 fun hcan => ?_
  simp only [canStartContext, Bool.and_eq_true, bne_iff_ne, decide_eq_true_eq, Bool.not_eq_true'] at hcan
  obtain ⟨⟨⟨⟨⟨⟨⟨⟨⟨-, -⟩, hpackages⟩, -⟩, hcircuits⟩, hbuddy⟩, hdomain⟩, hroom⟩, hreserved⟩, -⟩ := hcan
  rcases h with h | h | h | h | h | h
  · omega
  · rw [hreserved] at h
    cases h
  · exact hbuddy h
  · exact hdomain h
  · omega
  · rw [hcircuits] at h
    cases h

end

/-! ## The cores of a context that starts (R144) -/

/-- The core has its start state of a context. -/
def Fresh (cfg : CtxConfig) (now : Nat) (m : Core) : Prop := ∃ p, m = contextCore cfg now p

theorem coreOf_focus {c k : Nat} (hk : k ≠ c) (s : State) : coreOf (focus c s) k = coreOf s k := by
  by_cases hc : c = s.me.num
  · rw [focus, if_pos hc]
  · by_cases hkn : k = s.me.num
    · subst hkn
      simp [focus, coreOf, hc, hk]
    · simp [focus, coreOf, hc, hk, hkn, spGet_set_other _ _ _ _ _ hkn, spGet_set_other _ _ _ _ _ hk]

theorem me_startOn (cfg : CtxConfig) (c : Nat) (s : State) :
    (startOn cfg c s).me = contextCore cfg s.clock (focus c s).me := by
  show contextCore cfg (focus c s).clock (focus c s).me = _
  rw [focus_frame c s]

theorem num_startOn (cfg : CtxConfig) (c : Nat) (s : State) : (startOn cfg c s).me.num = c := by
  rw [me_startOn]
  exact num_focus c s

theorem coreOf_startOn_at (cfg : CtxConfig) (c : Nat) (s : State) :
    coreOf (startOn cfg c s) c = contextCore cfg s.clock (focus c s).me := by
  rw [coreOf, num_startOn, if_pos rfl, me_startOn]

theorem coreOf_startOn_off (cfg : CtxConfig) {c k : Nat} (hk : k ≠ c) (s : State) : coreOf (startOn cfg c s) k = coreOf s k := by
  have hothers : (startOn cfg c s).others = (focus c s).others := rfl
  have hfocus : coreOf (startOn cfg c s) k = coreOf (focus c s) k := by
    rw [coreOf, coreOf, num_startOn, num_focus, hothers, if_neg hk, if_neg hk]
  exact hfocus.trans (coreOf_focus hk s)

theorem clock_startOn (cfg : CtxConfig) (c : Nat) (s : State) : (startOn cfg c s).clock = s.clock := by
  show (focus c s).clock = s.clock
  rw [focus_frame]

theorem links_startOn (cfg : CtxConfig) (c : Nat) (s : State) : (startOn cfg c s).links = s.links := by
  show (focus c s).links = s.links
  rw [focus_frame]

/-! ## Memory that reads as zeros -/

theorem memAt_zeroMem (dst n : Nat) (s : State) (a : Nat) :
    memAt (zeroMem dst n s) a = if dst ≤ a ∧ a < dst + n then 0 else memAt s a := by
  show spGet 0 (spClear s.mem dst n) a = _
  split
  · next h =>
    have hclear := spGet_clear (0 : Byte) s.mem dst n (a - dst) (by omega)
    rwa [Nat.add_sub_of_le h.1] at hclear
  · next h => exact spGet_clear_outside _ _ (by omega)

/-- A zero stays a zero as other bytes are cleared. -/
theorem memAt_zeroMem_of_zero {dst n a : Nat} {s : State} (h : memAt s a = 0) : memAt (zeroMem dst n s) a = 0 := by
  rw [memAt_zeroMem]
  split
  · rfl
  · exact h

theorem memAt_startOn (cfg : CtxConfig) (c : Nat) (s : State) {k : Nat} (hk : k < 2 ^ 19) :
    memAt (startOn cfg c s) (scratchHome c k) = 0 := by
  refine memAt_zeroMem_of_zero ?_
  rw [memAt_zeroMem, if_pos]
  unfold scratchHome
  have hbytes : Config.scratchBytes = 2 ^ 19 := rfl
  omega

theorem memAt_startOn_of_zero (cfg : CtxConfig) (c : Nat) {s : State} {a : Nat} (h : memAt s a = 0) :
    memAt (startOn cfg c s) a = 0 := by
  refine memAt_zeroMem_of_zero (memAt_zeroMem_of_zero ?_)
  show memAt (focus c s) a = 0
  rw [focus_frame]
  exact h

/-- What the cores of a context are once each has been started. -/
structure Begun (cfg : CtxConfig) (l : List Nat) (s t : State) : Prop where
  clock : t.clock = s.clock
  links : t.links = s.links
  fresh : ∀ c ∈ l, Fresh cfg s.clock (coreOf t c)
  zero : ∀ c ∈ l, ∀ k < 2 ^ 19, memAt t (scratchHome c k) = 0
  freshKept : ∀ c, Fresh cfg s.clock (coreOf s c) → Fresh cfg s.clock (coreOf t c)
  zeroKept : ∀ a, memAt s a = 0 → memAt t a = 0

theorem begun_all (cfg : CtxConfig) (l : List Nat) (s : State) : Begun cfg l s (l.foldl (fun s c => startOn cfg c s) s) := by
  induction l generalizing s with
  | nil => exact ⟨rfl, rfl, fun _ h => (nomatch h), fun _ h => (nomatch h), fun _ h => h, fun _ h => h⟩
  | cons c l ih =>
    obtain ⟨hclock, hlinks, hfresh, hzero, hfreshKept, hzeroKept⟩ := ih (startOn cfg c s)
    rw [clock_startOn] at hclock hfresh hfreshKept
    rw [links_startOn] at hlinks
    have hone : ∀ k, k = c ∨ Fresh cfg s.clock (coreOf s k) → Fresh cfg s.clock (coreOf (startOn cfg c s) k) := by
      intro k hk
      by_cases hkc : k = c
      · rw [hkc, coreOf_startOn_at]
        exact ⟨_, rfl⟩
      · rw [coreOf_startOn_off cfg hkc]
        exact hk.resolve_left hkc
    rw [List.foldl_cons]
    refine ⟨hclock, hlinks, fun k hk => ?_, fun k hk j hj => ?_, fun k hk => hfreshKept k (hone k (.inr hk)),
      fun a ha => hzeroKept a (memAt_startOn_of_zero cfg c ha)⟩
    · rcases List.mem_cons.1 hk with rfl | hin
      · exact hfreshKept k (hone k (.inl rfl))
      · exact hfresh k hin
    · rcases List.mem_cons.1 hk with rfl | hin
      · exact hzeroKept _ (memAt_startOn cfg k s hj)
      · exact hzero k hin j hj

/-! ## The links of a package that take a fresh key (R296) -/

theorem linkAt_rekeyAll (p : PodConfig) (s : State) {k : Nat} (hk : k < 32) :
    linkAt (rekeyAll p s) k = { rekeyed p.secret k (linkAt s k) with gen := linkGen p k } := by
  have hfold : ∀ n, spGet startLink ((List.range n).foldl (fun l k =>
      spSet startLink l k { rekeyed p.secret k (spGet startLink l k) with gen := linkGen p k }) s.links) k =
        if k < n then { rekeyed p.secret k (spGet startLink s.links k) with gen := linkGen p k } else spGet startLink s.links k := by
    intro n
    induction n with
    | zero => rfl
    | succ n ih =>
      rw [List.range_succ, List.foldl_append, List.foldl_cons, List.foldl_nil]
      by_cases hkn : k = n
      · subst hkn
        rw [spGet_set_same, ih, if_neg (lt_irrefl _), if_pos (Nat.lt_succ_self _)]
      · rw [spGet_set_other _ _ _ _ _ hkn, ih]
        exact if_congr (by omega) rfl rfl
  exact (hfold 32).trans (if_pos hk)

theorem links_becomePresent (at_ : Option Nat) (x : CtxFw) (s : State) : (becomePresent at_ x s).links = s.links := by
  rw [becomePresent_eq, rekeyDies_frame]
  show (seatCleared at_ s).links = s.links
  rw [seatCleared_frame]

/-! ## The state in which a context begins -/

/-- The state once the cores of a context have been started. -/
def coresBegun (cfg : CtxConfig) (s : State) : State :=
  cfg.cores.foldl (fun s c => startOn cfg c s)
    (becomePresent ((recordOn cfg none s).map (·.1)) (recordFor cfg s) s)

/-- The package of a context that begins, once its cores have been started. -/
def packageBegun (cfg : CtxConfig) (x : CtxFw) (s : State) : State :=
  { s with
    others := s.others.map fun e => (e.1, if cfg.cores.contains e.1 then e.2 else e.2.map bareCore)
    clusters := []
    dies := s.dies.map fun e => (e.1, startedDie x e.1 e.2)
    tracks := placeTracks s.clock (fun _ old => bareTrack s.clock old) cfg.tracks s.tracks
    ctx := cfg, ctxBase := none, switch := .resident, kernels := [], net := [], wakes := [], pkgBars := []
    podBars := [], ctl := [], taken := [], replay := cfg.replay.map startReplay }

theorem startContext_eq (cfg : CtxConfig) (s : State) :
    startContext cfg s = rekeyAll cfg.pod (packageBegun cfg (recordFor cfg s) (coresBegun cfg s)) := rfl

theorem coreOf_packageBegun {cfg : CtxConfig} {c : Nat} (hc : c ∈ cfg.cores) (x : CtxFw) (s : State) :
    coreOf (packageBegun cfg x s) c = coreOf s c := by
  have hin : cfg.cores.contains c = true := by simpa using hc
  have hget : spGet none (packageBegun cfg x s).others c = spGet none s.others c := by
    have hmap := spGet_mapKey none (fun k (o : Option Core) => if cfg.cores.contains k then o else o.map bareCore)
      (fun k => by split <;> rfl) s.others c
    rwa [if_pos hin] at hmap
  rw [coreOf, coreOf, hget]
  rfl

/-- What the core of a context that begins is. -/
theorem fresh_spec {cfg : CtxConfig} {now : Nat} {m : Core} (h : Fresh cfg now m) :
    (∀ k < 16, ∃ last, spGet emptySlot m.slots k = { emptySlot with lastIssue := last }) ∧ m.pool = [] ∧ m.handles = [] ∧
    m.bars = [] ∧ m.mbox = [] ∧ m.cap = 8192 ∧ m.level = 8192 ∧ m.rate = 8192 ∧ m.footprint = 0x7FFFFFFFF ∧
    m.table = integerTable ∧ m.la = startAutomaton ∧ m.power = .cold ∧
    m.rotPend = some (if cfg.fixed = true then 0 else cfg.rotPol, cfg.rotTab) ∧ m.bell = cfg.quantum := by
  obtain ⟨p, rfl⟩ := h
  exact ⟨fun k _ => ⟨_, spGet_mapVal emptySlot vacated rfl p.slots k⟩, rfl, rfl, rfl, rfl, rfl, rfl, rfl, rfl, rfl, rfl, rfl, rfl, rfl⟩

theorem startContext_spec (cfg : CtxConfig) (s : State) :
    let t := startContext cfg s
    t.switch = .resident ∧ t.ctx = cfg ∧ t.replay = cfg.replay.map startReplay ∧ t.kernels = [] ∧
    (∀ k < 32, linkAt t k = { rekeyed cfg.pod.secret k (linkAt s k) with gen := linkGen cfg.pod k }) ∧
    ∀ c ∈ cfg.cores, (∃ now, Fresh cfg now (coreOf t c)) ∧ ∀ k < 2 ^ 19, memAt t (scratchHome c k) = 0 := by
  intro t
  have ht : t = rekeyAll cfg.pod (packageBegun cfg (recordFor cfg s) (coresBegun cfg s)) := startContext_eq cfg s
  have hbegun : Begun cfg cfg.cores (becomePresent ((recordOn cfg none s).map (·.1)) (recordFor cfg s) s) (coresBegun cfg s) :=
    begun_all cfg cfg.cores _
  have hseat : (becomePresent ((recordOn cfg none s).map (·.1)) (recordFor cfg s) s).links = s.links := links_becomePresent _ _ s
  generalize becomePresent ((recordOn cfg none s).map (·.1)) (recordFor cfg s) s = w at *
  generalize coresBegun cfg s = u at *
  generalize recordFor cfg s = x at *
  have hlinks : (packageBegun cfg x u).links = s.links := hbegun.links.trans hseat
  have hmem : (packageBegun cfg x u).mem = u.mem := rfl
  rw [ht]
  refine ⟨rfl, rfl, rfl, rfl, fun k hk => ?_, fun c hc => ⟨⟨w.clock, ?_⟩, fun k hk => ?_⟩⟩
  · rw [linkAt_rekeyAll _ _ hk, linkAt, linkAt, hlinks]
  · show Fresh cfg w.clock (coreOf (packageBegun cfg x u) c)
    rw [coreOf_packageBegun hc]
    exact hbegun.fresh c hc
  · exact hbegun.zero c hc k hk

end Sys2Proof.Proofs
end

section
/-!
SUPPORT. The map of dies: what goes with a physical core as the map changes.
-/

namespace Sys2Proof.Proofs

open Sys2Proof Sys2Proof.Machine Sys2Proof.Laws

/-! ## Where a die was and where it is -/

/-- The place in one map of the die at a place of another. -/
def placeIn (l l' : List Nat) (d : Nat) : Nat := (l.findIdx? fun p => some p == l'[d]?).getD d

/-- A core under a change of dies. -/
def coreUnder (f : Nat → Nat) (c : Nat) : Nat := Config.coresPerDie * f (dieOf c) + c % Config.coresPerDie

/-- What a core is after a change of the map: what is a core's own comes from where its physical core was. -/
def rekeyedCore (old new : List Nat) (s : State) (c : Nat) (m : Core) : Core :=
  let p := coreOf s (coreUnder (placeIn old new) c)
  { m with
    phase := p.phase, spare := p.spare, born := p.born, rot := p.rot, rotPol := p.rotPol, shadow := p.shadow
    rotPend := p.rotPend, drops := p.drops
    slots := (List.range 16).foldl (fun l k => spSet emptySlot l k
      { spGet emptySlot m.slots k with lastIssue := (spGet emptySlot p.slots k).lastIssue }) m.slots }

/-- The cores that the state holds, where they are and where they come to stand. -/
def heldCores (old new : List Nat) (s : State) : List Nat :=
  (s.me.num :: spKeys s.others).flatMap fun c => [c, coreUnder (placeIn new old) c]

theorem rekeyDies_ne {old new : List Nat} (h : old ≠ new) (s : State) :
    (rekeyDies old new s).me = rekeyedCore old new s s.me.num s.me ∧
    (rekeyDies old new s).others = (heldCores old new s).foldl (fun l c =>
      if c = s.me.num then l else spSet none l c (some (rekeyedCore old new s c (coreOf s c)))) s.others ∧
    (rekeyDies old new s).dies = (List.range 8).foldl (fun l d =>
      spSet startDie l d { dieAt s d with inReset := (dieAt s (placeIn old new d)).inReset }) s.dies ∧
    (rekeyDies old new s).mem = s.mem ∧ (rekeyDies old new s).switch = s.switch ∧ (rekeyDies old new s).dieMap = s.dieMap := by
  unfold rekeyDies
  rw [if_neg h]
  exact ⟨rfl, rfl, rfl, rfl, rfl, rfl⟩

theorem placeIn_of_get {l l' : List Nat} (hn : l.Nodup) {d e : Nat} (he : e < l.length) (h : l'[d]? = l[e]?) :
    placeIn l l' d = e := by
  have hfind : (l.findIdx? fun p => some p == l'[d]?) = some e := by
    rw [List.findIdx?_eq_some_iff_getElem, h]
    refine ⟨he, by simp [he], fun j hj => ?_⟩
    have hne : l[j]'(by omega) ≠ l[e] := fun heq => by
      have hje := (List.Nodup.getElem_inj_iff hn).1 heq
      omega
    simp [he, hne]
  rw [placeIn, hfind]
  rfl

/-! ## Maps written key by key -/

theorem spGet_foldl_set {α : Type} [DecidableEq α] (d : α) (v : Nat → α) (l : List Nat) (m : Sp α) (k : Nat) :
    spGet d (l.foldl (fun m k => spSet d m k (v k)) m) k = if k ∈ l then v k else spGet d m k := by
  induction l generalizing m with
  | nil => simp
  | cons j l ih =>
    rw [List.foldl_cons, ih]
    by_cases hk : k = j
    · subst hk
      simp
    · simp [hk, spGet_set_other _ _ _ _ _ hk]

theorem spGet_foldl_set_but {α : Type} [DecidableEq α] (d : α) (v : Nat → α) (n : Nat) (l : List Nat) (m : Sp α) {k : Nat}
    (hkn : k ≠ n) : spGet d (l.foldl (fun m k => if k = n then m else spSet d m k (v k)) m) k =
      if k ∈ l then v k else spGet d m k := by
  induction l generalizing m with
  | nil => simp
  | cons j l ih =>
    rw [List.foldl_cons, ih]
    by_cases hk : k = j
    · subst hk
      simp [hkn]
    · by_cases hj : j = n
      · simp [hj, hkn]
      · simp [hk, hj, spGet_set_other _ _ _ _ _ hk]

/-! ## A core whose die takes another place -/

/-- What belongs to the core itself. -/
def CoreOwn (m p : Core) : Prop :=
  m.rot = p.rot ∧ m.rotPol = p.rotPol ∧ m.born = p.born ∧ m.phase = p.phase ∧ m.drops = p.drops

theorem coreUnder_of {f : Nat → Nat} {d e j : Nat} (hj : j < 384) (hf : f d = e) : coreUnder f (384 * d + j) = 384 * e + j := by
  have hdie : dieOf (384 * d + j) = d := by
    show (384 * d + j) / 384 = d
    omega
  have hmod : (384 * d + j) % 384 = j := by omega
  show 384 * f (dieOf (384 * d + j)) + (384 * d + j) % 384 = _
  rw [hdie, hf, hmod]

theorem coreOf_rekeyDies {old new : List Nat} (hne : old ≠ new) {s : State} {d e j : Nat} (hj : j < 384)
    (hwas : placeIn old new d = e) (hnow : placeIn new old e = d) :
    CoreOwn (coreOf (rekeyDies old new s) (384 * d + j)) (coreOf s (384 * e + j)) := by
  obtain ⟨hme, hothers, -⟩ := rekeyDies_ne hne s
  have hnum := rekeyDies_num old new s
  have hfrom : coreUnder (placeIn old new) (384 * d + j) = 384 * e + j := coreUnder_of hj hwas
  have hto : coreUnder (placeIn new old) (384 * e + j) = 384 * d + j := coreUnder_of hj hnow
  have hown : ∀ m, CoreOwn (rekeyedCore old new s (384 * d + j) m) (coreOf s (384 * e + j)) := by
    intro m
    rw [← hfrom]
    exact ⟨rfl, rfl, rfl, rfl, rfl⟩
  rw [coreOf, hnum]
  by_cases hc : 384 * d + j = s.me.num
  · rw [if_pos hc, hme, ← hc]
    exact hown s.me
  · rw [if_neg hc, hothers, spGet_foldl_set_but none (fun c => some (rekeyedCore old new s c (coreOf s c))) _ _ _ hc]
    split
    · exact hown _
    · next hout =>
      have hheld : ∀ c, c ∈ s.me.num :: spKeys s.others → c ≠ 384 * d + j ∧ c ≠ 384 * e + j := by
        intro c hin
        constructor
        · rintro rfl
          exact hout (List.mem_flatMap.2 ⟨_, hin, List.mem_cons_self⟩)
        · rintro rfl
          exact hout (List.mem_flatMap.2 ⟨_, hin, by simp [hto]⟩)
      have hnone : ∀ c, c ∉ spKeys s.others → spGet none s.others c = none := fun c hkeys =>
        Classical.byContradiction fun hsome => hkeys (mem_keys_of_get hsome)
      have hd := hnone (384 * d + j) fun h => (hheld _ (List.mem_cons_of_mem _ h)).1 rfl
      have he := hnone (384 * e + j) fun h => (hheld _ (List.mem_cons_of_mem _ h)).2 rfl
      rw [coreOf, if_neg fun h => (hheld _ List.mem_cons_self).2 h.symm, hd, he]
      exact ⟨rfl, rfl, rfl, rfl, rfl⟩

theorem inReset_rekeyDies {old new : List Nat} (hne : old ≠ new) {s : State} {d e : Nat} (hd : d < 8)
    (hwas : placeIn old new d = e) : (dieAt (rekeyDies old new s) d).inReset = (dieAt s e).inReset := by
  obtain ⟨-, -, hdies, -⟩ := rekeyDies_ne hne s
  rw [dieAt, hdies, spGet_foldl_set startDie (fun d => { dieAt s d with inReset := (dieAt s (placeIn old new d)).inReset }),
    if_pos (List.mem_range.2 hd), hwas]

/-! ## DIE_REMAP (R290) -/

theorem isDieMap_of_perm {map : List Nat} (h : map.Perm (List.range 8)) : isDieMap map = true := by
  have hnodup : map.Nodup := h.nodup_iff.2 List.nodup_range
  have hlength : map.length = 8 := h.length_eq
  have hdups : map.eraseDups.length = 8 :=
    ((List.perm_ext_iff_of_nodup (nodup_eraseDups map) hnodup).2 fun _ => List.mem_eraseDups).length_eq.trans hlength
  have hall : map.all (· < 8) = true := List.all_eq_true.2 fun d hd => decide_eq_true (List.mem_range.1 (h.mem_iff.1 hd))
  rw [isDieMap, hlength, hall, hdups]
  rfl

theorem dieRemap_spec {map : List Nat} {s : State} (hsaved : s.switch = .saved) (hmap : map.Perm (List.range 8))
    (hold : s.dieMap.Perm (List.range 8)) (honto : ontoPartition s map = true) : Gives (exec (.dieRemap map) s) fun t =>
      t.dieMap = map ∧ t.mem = s.mem ∧ t.switch = .saved ∧ ∀ d < 8, ∀ e < 8, ∀ j < 384, map[d]? = s.dieMap[e]? →
        CoreOwn (coreOf t (384 * d + j)) (coreOf s (384 * e + j)) ∧ (dieAt t d).inReset = (dieAt s e).inReset := by
  have hown : (s.switch == .saved && ontoPartition s map) = true := by rw [hsaved, honto]; rfl
  have hnodup : map.Nodup := hmap.nodup_iff.2 List.nodup_range
  have hnodup' : s.dieMap.Nodup := hold.nodup_iff.2 List.nodup_range
  have hlength : map.length = 8 := hmap.length_eq
  have hlength' : s.dieMap.length = 8 := hold.length_eq
  have hrun : exec (.dieRemap map) s =
      if map != s.dieMap then .next (rekeyDies s.dieMap map { s with dieMap := map })
      else match remapAway map s with
        | some t => .next t
        | none => .next s := by
    show execDieRemap map s = _
    unfold execDieRemap
    rw [hown, isDieMap_of_perm hmap]
    rfl
  by_cases hne : map = s.dieMap
  · have hsame : ∀ d < 8, ∀ e < 8, map[d]? = s.dieMap[e]? → d = e := by
      intro d hd e he h
      rw [← hne, List.getElem?_eq_getElem (by omega), List.getElem?_eq_getElem (by omega), Option.some.injEq] at h
      exact (List.Nodup.getElem_inj_iff hnodup).1 h
    rw [if_neg (by simp [hne])] at hrun
    cases haway : remapAway map s with
    | none =>
      rw [haway] at hrun
      refine ⟨s, hrun, hne.symm, rfl, hsaved, fun d hd e he j _ h => ?_⟩
      rw [hsame d hd e he h]
      exact ⟨⟨rfl, rfl, rfl, rfl, rfl⟩, rfl⟩
    | some t =>
      have hframe : t = { s with freeUsed := t.freeUsed, away := t.away } := by
        unfold remapAway at haway
        obtain ⟨x, -, rfl⟩ := Option.map_eq_some_iff.1 haway
        rfl
      rw [haway] at hrun
      refine ⟨t, hrun, by rw [hframe, hne], by rw [hframe], by rw [hframe, hsaved], fun d hd e he j _ h => ?_⟩
      rw [hsame d hd e he h, hframe]
      exact ⟨⟨rfl, rfl, rfl, rfl, rfl⟩, rfl⟩
  · rw [if_pos (by simpa using hne)] at hrun
    have hne' : s.dieMap ≠ map := fun h => hne h.symm
    obtain ⟨-, -, -, hmem, hswitch, hdieMap⟩ := rekeyDies_ne hne' { s with dieMap := map }
    refine ⟨_, hrun, hdieMap, hmem, hswitch.trans hsaved, fun d hd e he j hj h => ?_⟩
    have hwas : placeIn s.dieMap map d = e := placeIn_of_get hnodup' (by omega) h
    have hnow : placeIn map s.dieMap e = d := placeIn_of_get hnodup (by omega) h.symm
    exact ⟨coreOf_rekeyDies hne' hj hwas hnow, inReset_rekeyDies hne' hd hwas⟩

/-! ## The obligation -/

/-- CONTEXT_START that starts nothing makes the context's record. -/
theorem contextStart_creates {cfg : CtxConfig} {s : State} (hruns : s.fw.running = true)
    (hline : cfg.cmdLine ≠ s.ctx.cmdLine ∨ seatFree s = true) (hreplay : replayRefused cfg = false)
    (hkept : (seatFree s && canStartContext cfg s) = false) : Gives (exec (.contextStart cfg) s) fun t =>
      (∀ e, recordOn cfg none s = some e → t = s) ∧
      (recordOn cfg none s = none → ∃ k, k % 2 ^ 64 = cfg.cmdLine % 2 ^ 64 ∧ spGet none t.away k = some (newCtxFw cfg) ∧
        spGet none s.away k = none ∧ ∀ j, j ≠ k → spGet none t.away j = spGet none s.away j) ∧ t.ctx = s.ctx ∧
      t.switch = s.switch ∧ t.mem = s.mem ∧ t.me = s.me := by
  refine ⟨createContext cfg s, ?_, createContext_spec cfg s⟩
  rw [exec_contextStart hruns hline hreplay, hkept]
  rfl

/-- CONTEXT_START that can start gives every core of the context its start state. -/
theorem contextStart_starts {cfg : CtxConfig} {s : State} (hruns : s.fw.running = true)
    (hline : cfg.cmdLine ≠ s.ctx.cmdLine ∨ seatFree s = true) (hreplay : replayRefused cfg = false) (hseat : seatFree s = true)
    (hcan : canStartContext cfg s = true) : Gives (exec (.contextStart cfg) s) fun t =>
      t.switch = .resident ∧ t.ctx = cfg ∧ t.replay = cfg.replay.map startReplay ∧ t.kernels = [] ∧
      (∀ k < 32, linkAt t k = { rekeyed cfg.pod.secret k (linkAt s k) with gen := linkGen cfg.pod k }) ∧
      ∀ c ∈ cfg.cores, (∃ now, Fresh cfg now (coreOf t c)) ∧ ∀ k < 2 ^ 19, memAt t (scratchHome c k) = 0 := by
  refine ⟨startContext cfg s, ?_, startContext_spec cfg s⟩
  rw [exec_contextStart hruns hline hreplay, hseat, hcan]
  rfl

/-- Settles O48: clause by clause, the bell, the stop of the cores, the drain of a trace ring, the save, the resume and
the start of a context, and the map of the dies. -/
theorem contextSwitchResults : Obligations.ContextSwitchResults := by
  unfold Obligations.ContextSwitchResults
  refine ⟨fun s hresident => ⟨fun hquantum hcount hfree => exec_bellRing hresident hquantum hcount hfree,
      fun c hc hrung => preemption_due hresident hc hrung, fun hcores => exec_preemptionRequest hresident hcores⟩,
    fun rest s htodo hinputs => ⟨fun hstopping hat => step_last_stops htodo hinputs hstopping hat,
      fun hruns => step_last_runs htodo hinputs hruns⟩,
    fun s hfixed hfull => ⟨_, exec_traceRingDrain hfixed hfull, drainTrace_spec s⟩,
    fun area s hstopping hstopped hsaved hcore hdrained => contextSave_spec hstopping hstopped hsaved hcore hdrained,
    fun base s hstopping hsaved => partitionSaveRecord_spec hstopping hsaved,
    fun area base x p s hsaved hkept hpart harea hbase hcircuits hthermal hcores =>
      contextResume_spec hsaved hkept hpart harea hbase hcircuits hthermal hcores,
    fun cfg s hruns hline => ⟨exec_contextStart_refused, fun hreplay hseat => ?_, fun hreplay hkept => ?_,
      fun hreplay hseat hcan => ?_⟩,
    fun map s hsaved hmap hold honto => ?_⟩
  · exact contextStart_creates hruns hline hreplay (by rw [hseat, Bool.false_and])
  · exact contextStart_creates hruns hline hreplay (by rw [not_canStart hkept, Bool.and_false])
  · obtain ⟨t, hrun, hswitch, hctx, hlog, hkernels, hlinks, hcores⟩ := contextStart_starts hruns hline hreplay hseat hcan
    refine ⟨t, hrun, hswitch, hctx, hlog, hkernels, hlinks, fun c hc => ?_⟩
    obtain ⟨⟨now, hfresh⟩, hzero⟩ := hcores c hc
    obtain ⟨hslots, hpool, hhandles, hbars, hmbox, hcap, hlevel, hrate, hfoot, htable, hla, hpower, hrot, hbell⟩ := fresh_spec hfresh
    exact ⟨hslots, hpool, hhandles, hbars, hmbox, hcap, hlevel, hrate, hfoot, htable, hla, hpower, hrot, hbell, hzero⟩
  · obtain ⟨t, hrun, hnew, hmem, hswitch, hdies⟩ := dieRemap_spec hsaved hmap hold honto
    refine ⟨t, hrun, hnew, hmem, hswitch, fun d hd e he j hj h => ?_⟩
    obtain ⟨⟨hrot, hpol, hborn, hphase, hdrops⟩, hreset⟩ := hdies d hd e he j hj h
    exact ⟨hrot, hpol, hborn, hphase, hdrops, hreset⟩

end Sys2Proof.Proofs
end
